-- ==== Sys2Proof/Word.lean ====
section
/-! DEFINITION. Word.lean: the machine's words and the plainest arithmetic on them. -/
namespace Sys2Proof

/-- A byte of memory. -/
abbrev Byte := BitVec 8

/-- A 32-bit word: a register of a block or of the control core (R7, R111). -/
abbrev Word := BitVec 32

/-- A 64-bit value: the counter, network time (R11, R328). -/
abbrev DWord := BitVec 64

/-- The signed reading of the low `w` bits of a number. -/
def signedOf (w : Nat) (v : Nat) : Int :=
  if v % 2 ^ w < 2 ^ (w - 1) then ((v % 2 ^ w : Nat) : Int) else ((v % 2 ^ w : Nat) : Int) - (2 ^ w : Nat)

/-- The low `w` bits of an integer, two's complement. -/
def wrapInt (w : Nat) (v : Int) : Nat := (v % ((2 ^ w : Nat) : Int)).toNat

/-- An integer held within a range, both ends included. -/
def clampInt (lo hi v : Int) : Int := if v < lo then lo else if hi < v then hi else v

/-- A count that stops at its largest value. -/
def satInc (top v : Nat) : Nat := if v < top then v + 1 else top

end Sys2Proof
end

