-- ==== Sys2Proof/Syntax.lean ====
section
/-! DEFINITION. Syntax.lean: the commands of the block (one constructor per row of spec/opcode_table.json) and the plain
types their operands use. The table gives no row any bits, so an operand is what the rule of the row needs from outside:
which master, engine, lane, port or pin, a value written, a measurement, the bytes of a frame. -/
namespace Sys2Proof

/-- The masters of the bus, IDs 0x0 to 0xC (chapter 02). -/
inductive Master where
  | coreInstr | coreData | debug | host | dict | secDma | nvm | twill | shuttle | mac | ring | evr | scrub
  deriving DecidableEq, Repr

/-- The blocks with TK fields, in the order of SYSC_GCOMMIT.MASK (R13, R30). -/
inductive Blk where
  | loom | shtl | mac | time | ring
  deriving DecidableEq, Repr

/-- Whose check completes: a block's own commit, or the pending group's (R27, R30). -/
inductive CommitOf where
  | own (b : Blk)
  | group
  deriving DecidableEq, Repr

/-- The switchable domains of SYSC_PDCTL (R94). -/
inductive PDom where
  | radio | ring | msu
  deriving DecidableEq, Repr

/-- Access sizes (R36, BUS_FINFO.SIZE). -/
inductive Size where
  | b8 | b16 | b32 | b64
  deriving DecidableEq, Repr

/-- Who executes a syllable: the control core, or a Weft engine (chapter 06). -/
inductive Agent where
  | core
  | weft (n : Fin 32)
  deriving DecidableEq, Repr

/-- The wake sources of sleep and deep sleep (R100, SYSC_WAKEEN, SYSC_WAKESRC). -/
inductive WakeSrc where
  | wakePin | hsCs | gpio | rtcAlm | rtcPer | tWake | zeph | bow | alarm
  deriving DecidableEq, Repr

/-- A ring port (R37 chapter 21: 0 east, 1 west). -/
inductive Port where
  | east | west
  deriving DecidableEq, Repr

/-- A transmit request (R233). -/
structure TxReq where
  /-- Scheduled: the network time of the first symbol at the antenna; none when unscheduled. -/
  start : Option DWord
  /-- Channel centre in kHz. -/
  centre : Nat
  /-- PHY mode of R191; none for OOK. -/
  mode : Option (BitVec 4)
  /-- Requested power in 0.5 dB units, and the peer's offset e in 0.01 ppm. -/
  power : Int
  offset : Int
  /-- High priority (COEX_PRI). -/
  prio : Bool
  /-- First symbol to the end of the last, in µs. -/
  airtime : Nat
  /-- An enhanced acknowledgement of the MAC (R254). -/
  ack : Bool
  /-- The chips of an OOK burst, 500 µs each (R288). -/
  chips : List Bool := []
  deriving DecidableEq, Repr


/-- How a ring frame came in at the primary input (R433 to R436): whole, with a failing CRC, ended by ABORT, with a code
violation within it, or of a TYPE that R435 does not list. -/
inductive RingFate where
  | good | badCrc | aborted | codeErr | badType
  deriving DecidableEq, Repr

/-- The header of a ring frame (R434) and how the frame came in. -/
structure RingHdr where
  src : BitVec 8
  dst : BitVec 8
  flags : BitVec 8
  seq : BitVec 16
  fate : RingFate
  deriving DecidableEq, Repr

/-- What the header of a Twill frame carries beside its TYPE (R482): SEQ, ACK, and whether its CRC failed or its TYPE is
unknown. -/
structure TwHdr where
  seq : BitVec 16
  ack : BitVec 16
  bad : Bool
  deriving DecidableEq, Repr

/-- The port that brings a recovery command: the host port with the frame's TAG, or the ring with the frame that carries
the command and its TAG (R530). -/
inductive RecPort where
  | host (tag : BitVec 4)
  | ring (h : RingHdr) (tag : BitVec 4)
  deriving DecidableEq, Repr

/-- A session of the dictionary (R455); `relay` serves the standby of a pair (R498). -/
inductive Sess where
  | host
  | ring (p : Nat)
  | mesh (slot : Nat)
  | loc
  | relay
  deriving DecidableEq, Repr

/-- The port that brings a dictionary request as a command: the host in a frame with this TAG, the ring in an SVC frame. The
mesh and the local session bring theirs in descriptors (R471). -/
inductive DictPort where
  | host (tag : BitVec 4)
  | ring (h : RingHdr)
  deriving DecidableEq, Repr


/-- The commands of spec/opcode_table.json, one constructor a row; operands are what the command carries in from outside. -/
inductive Instr where
  /-- TICK_BOUNDARY (R15). -/
  | tickBoundary (levels : List (BitVec 10 × Nat)) (peak : BitVec 10)
  /-- TAIL_JOB_RUNNABLE (R150). -/
  | tailJobRunnable (lane : Fin 96)
  /-- PACKET_END (R197). -/
  | packetEnd (lane : Fin 96)
  /-- COMMIT_GO (R26). -/
  | commitGo (b : Blk)
  /-- COMMIT_CHECK_DONE (R27). -/
  | commitCheckDone (c : CommitOf)
  /-- GROUP_COMMIT_GO (R30). -/
  | groupCommitGo (mask : BitVec 5)
  /-- REGISTER_WRITE (R7). -/
  | registerWrite (m : Master) (addr : Word) (data : Word)
  /-- HOLD_LO_READ (R46). -/
  | holdLoRead (m : Master) (addr : Word)
  /-- HOLD_HI_WRITE (R47). -/
  | holdHiWrite (m : Master) (addr : Word) (data : Word)
  /-- HOLD_LO_WRITE (R47). -/
  | holdLoWrite (m : Master) (addr : Word) (data : Word)
  /-- OFF_ACCESS (R48). -/
  | offAccess (m : Master) (addr : Word) (size : Size) (write : Bool)
  /-- DECODE_ERROR (R38). -/
  | decodeError (m : Master) (addr : Word) (size : Size) (write : Bool)
  /-- SIZE_ERROR (R44). -/
  | sizeError (m : Master) (addr : Word) (size : Size) (write : Bool)
  /-- STORE_BUS (R51). -/
  | storeBus
  /-- GPIO_EDGE (R66). -/
  | gpioEdge (pin : Fin 24) (level : Bool)
  /-- GPIO_SET (R66). -/
  | gpioSet (bits : BitVec 24)
  /-- GPIO_CLR (R66). -/
  | gpioClr (bits : BitVec 24)
  /-- EVM_SWPULSE (R67). -/
  | evmSwpulse (bits : BitVec 24)
  /-- TW_LIVE_WINDOW (R60). -/
  | twLiveWindow (low : Bool)
  /-- POWER_ON_RESET (R83). -/
  | powerOnReset (vbackup : Bool)
  /-- BROWN_OUT_RESET (R83). -/
  | brownOutReset
  /-- PIN_RESET (R83). -/
  | pinReset
  /-- INTERNAL_RESET_RELEASE (R80). -/
  | internalResetRelease (gp0 gp1 role test : Bool)
  /-- XO_START_TIMEOUT (R81). -/
  | xoStartTimeout (gp0 gp1 role test : Bool)
  /-- XO_FAIL (R82). -/
  | xoFail
  /-- XT_FAIL (R89). -/
  | xtFail
  /-- XT_STABLE (R89). -/
  | xtStable
  /-- BROWN_OUT_WARNING (R78). -/
  | brownOutWarning
  /-- BACKUP_SWITCHOVER (R78). -/
  | backupSwitchover (toBackup : Bool)
  /-- WDT_CTRL_WRITE (R87). -/
  | wdtCtrlWrite (data : Word)
  /-- WDT_FEED (R87). -/
  | wdtFeed (data : Word)
  /-- WDT_TIMEOUT (R87). -/
  | wdtTimeout
  /-- SOFT_RESET (R83). -/
  | softReset (key : Word)
  /-- REMOTE_RESET (R85). -/
  | remoteReset
  /-- ALARM_RESET (R310). -/
  | alarmReset
  /-- CLKGATE_WRITE (R90). -/
  | clkgateWrite (data : Word)
  /-- DOMAIN_ENABLE (R94). -/
  | domainEnable (d : PDom)
  /-- DOMAIN_DISABLE (R94). -/
  | domainDisable (d : PDom)
  /-- START_CALIBRATION_DONE (R91). -/
  | startCalibrationDone (failed : BitVec 6) (temp : BitVec 16)
  /-- ENTER_IDLE (R95). -/
  | enterIdle (m : Master)
  /-- ENTER_SLEEP (R96). -/
  | enterSleep (m : Master)
  /-- ENTER_DEEP_SLEEP (R96). -/
  | enterDeepSleep (m : Master)
  /-- ENTER_OFF (R110). -/
  | enterOff (m : Master)
  /-- DRAIN_END (R96). -/
  | drainEnd (frame : Bool)
  /-- POWER_DOWN_COMPLETE (R96). -/
  | powerDownComplete (wakeHigh : Bool)
  /-- IDLE_WAKE (R100). -/
  | idleWake
  /-- WAKE_RECOGNISED (R100). -/
  | wakeRecognised (src : WakeSrc)
  /-- TIMED_WAKE (R102). -/
  | timedWake
  /-- WAKE_PIN (R110). -/
  | wakePin
  /-- PLL_LOCK (R105). -/
  | pllLock
  /-- DEEP_SLEEP_RESUME (R106). -/
  | deepSleepResume
  /-- ADD (R120). -/
  | add (ag : Agent) (stop : Bool) (rd rs1 rs2 : BitVec 5) (fn : BitVec 9)
  /-- SUB (R120). -/
  | sub (ag : Agent) (stop : Bool) (rd rs1 rs2 : BitVec 5) (fn : BitVec 9)
  /-- AND (R120). -/
  | andR (ag : Agent) (stop : Bool) (rd rs1 rs2 : BitVec 5) (fn : BitVec 9)
  /-- OR (R120). -/
  | orR (ag : Agent) (stop : Bool) (rd rs1 rs2 : BitVec 5) (fn : BitVec 9)
  /-- XOR (R120). -/
  | xorR (ag : Agent) (stop : Bool) (rd rs1 rs2 : BitVec 5) (fn : BitVec 9)
  /-- SHL (R120). -/
  | shl (ag : Agent) (stop : Bool) (rd rs1 rs2 : BitVec 5) (fn : BitVec 9)
  /-- SHR (R120). -/
  | shr (ag : Agent) (stop : Bool) (rd rs1 rs2 : BitVec 5) (fn : BitVec 9)
  /-- SAR (R120). -/
  | sar (ag : Agent) (stop : Bool) (rd rs1 rs2 : BitVec 5) (fn : BitVec 9)
  /-- MIN (R120). -/
  | minS (ag : Agent) (stop : Bool) (rd rs1 rs2 : BitVec 5) (fn : BitVec 9)
  /-- MAX (R120). -/
  | maxS (ag : Agent) (stop : Bool) (rd rs1 rs2 : BitVec 5) (fn : BitVec 9)
  /-- MINU (R120). -/
  | minu (ag : Agent) (stop : Bool) (rd rs1 rs2 : BitVec 5) (fn : BitVec 9)
  /-- MAXU (R120). -/
  | maxu (ag : Agent) (stop : Bool) (rd rs1 rs2 : BitVec 5) (fn : BitVec 9)
  /-- CMPEQ (R120). -/
  | cmpeq (ag : Agent) (stop : Bool) (rd rs1 rs2 : BitVec 5) (fn : BitVec 9)
  /-- CMPNE (R120). -/
  | cmpne (ag : Agent) (stop : Bool) (rd rs1 rs2 : BitVec 5) (fn : BitVec 9)
  /-- CMPLT (R120). -/
  | cmplt (ag : Agent) (stop : Bool) (rd rs1 rs2 : BitVec 5) (fn : BitVec 9)
  /-- CMPLTU (R120). -/
  | cmpltu (ag : Agent) (stop : Bool) (rd rs1 rs2 : BitVec 5) (fn : BitVec 9)
  /-- CMPLE (R120). -/
  | cmple (ag : Agent) (stop : Bool) (rd rs1 rs2 : BitVec 5) (fn : BitVec 9)
  /-- CMPLEU (R120). -/
  | cmpleu (ag : Agent) (stop : Bool) (rd rs1 rs2 : BitVec 5) (fn : BitVec 9)
  /-- SEL (R120). -/
  | sel (ag : Agent) (stop : Bool) (rd rs1 rs2 : BitVec 5) (fn : BitVec 9)
  /-- CLZ (R120). -/
  | clz (ag : Agent) (stop : Bool) (rd rs1 rs2 : BitVec 5) (fn : BitVec 9)
  /-- SEXTB (R120). -/
  | sextb (ag : Agent) (stop : Bool) (rd rs1 rs2 : BitVec 5) (fn : BitVec 9)
  /-- SEXTH (R120). -/
  | sexth (ag : Agent) (stop : Bool) (rd rs1 rs2 : BitVec 5) (fn : BitVec 9)
  /-- ZEXTH (R120). -/
  | zexth (ag : Agent) (stop : Bool) (rd rs1 rs2 : BitVec 5) (fn : BitVec 9)
  /-- ADDI (R120). -/
  | addi (ag : Agent) (stop : Bool) (rd rs1 : BitVec 5) (imm : BitVec 14)
  /-- ANDI (R120). -/
  | andi (ag : Agent) (stop : Bool) (rd rs1 : BitVec 5) (imm : BitVec 14)
  /-- ORI (R120). -/
  | ori (ag : Agent) (stop : Bool) (rd rs1 : BitVec 5) (imm : BitVec 14)
  /-- XORI (R120). -/
  | xori (ag : Agent) (stop : Bool) (rd rs1 : BitVec 5) (imm : BitVec 14)
  /-- SHLI (R120). -/
  | shli (ag : Agent) (stop : Bool) (rd rs1 : BitVec 5) (imm : BitVec 14)
  /-- SHRI (R120). -/
  | shri (ag : Agent) (stop : Bool) (rd rs1 : BitVec 5) (imm : BitVec 14)
  /-- SARI (R120). -/
  | sari (ag : Agent) (stop : Bool) (rd rs1 : BitVec 5) (imm : BitVec 14)
  /-- CMPEQI (R120). -/
  | cmpeqi (ag : Agent) (stop : Bool) (rd rs1 : BitVec 5) (imm : BitVec 14)
  /-- CMPNEI (R120). -/
  | cmpnei (ag : Agent) (stop : Bool) (rd rs1 : BitVec 5) (imm : BitVec 14)
  /-- CMPLTI (R120). -/
  | cmplti (ag : Agent) (stop : Bool) (rd rs1 : BitVec 5) (imm : BitVec 14)
  /-- CMPLTUI (R120). -/
  | cmpltui (ag : Agent) (stop : Bool) (rd rs1 : BitVec 5) (imm : BitVec 14)
  /-- CMPLEI (R120). -/
  | cmplei (ag : Agent) (stop : Bool) (rd rs1 : BitVec 5) (imm : BitVec 14)
  /-- CMPLEUI (R120). -/
  | cmpleui (ag : Agent) (stop : Bool) (rd rs1 : BitVec 5) (imm : BitVec 14)
  /-- K (R114). -/
  | kExt (ag : Agent) (stop : Bool) (k : BitVec 24)
  /-- BZ (R121). -/
  | bz (ag : Agent) (stop : Bool) (rs : BitVec 5) (off : BitVec 19)
  /-- BNZ (R121). -/
  | bnz (ag : Agent) (stop : Bool) (rs : BitVec 5) (off : BitVec 19)
  /-- J (R121). -/
  | jump (ag : Agent) (stop : Bool) (off : BitVec 24)
  /-- CALL (R121). -/
  | call (ag : Agent) (stop : Bool) (off : BitVec 24)
  /-- JR (R121). -/
  | jr (ag : Agent) (stop : Bool) (rd rs1 : BitVec 5) (imm : BitVec 14)
  /-- CALLR (R121). -/
  | callr (ag : Agent) (stop : Bool) (rd rs1 : BitVec 5) (imm : BitVec 14)
  /-- ERET (R133). -/
  | eret (ag : Agent) (stop : Bool) (rd rs1 rs2 : BitVec 5) (fn : BitVec 9)
  /-- SYS (R131). -/
  | sys (ag : Agent) (stop : Bool) (rd rs1 : BitVec 5) (imm : BitVec 14)
  /-- BRK (R131). -/
  | brk (ag : Agent) (stop : Bool) (rd rs1 : BitVec 5) (imm : BitVec 14)
  /-- MUL (R120). -/
  | mul (ag : Agent) (stop : Bool) (rd rs1 rs2 : BitVec 5) (fn : BitVec 9)
  /-- MULH (R120). -/
  | mulh (ag : Agent) (stop : Bool) (rd rs1 rs2 : BitVec 5) (fn : BitVec 9)
  /-- MULHU (R120). -/
  | mulhu (ag : Agent) (stop : Bool) (rd rs1 rs2 : BitVec 5) (fn : BitVec 9)
  /-- MAC (R120). -/
  | mulAcc (ag : Agent) (stop : Bool) (rd rs1 rs2 : BitVec 5) (fn : BitVec 9)
  /-- MAC16 (R120). -/
  | mac16 (ag : Agent) (stop : Bool) (rd rs1 rs2 : BitVec 5) (fn : BitVec 9)
  /-- DIV (R120). -/
  | div (ag : Agent) (stop : Bool) (rd rs1 rs2 : BitVec 5) (fn : BitVec 9)
  /-- DIVU (R120). -/
  | divu (ag : Agent) (stop : Bool) (rd rs1 rs2 : BitVec 5) (fn : BitVec 9)
  /-- REM (R120). -/
  | rem (ag : Agent) (stop : Bool) (rd rs1 rs2 : BitVec 5) (fn : BitVec 9)
  /-- REMU (R120). -/
  | remu (ag : Agent) (stop : Bool) (rd rs1 rs2 : BitVec 5) (fn : BitVec 9)
  /-- CMUL (R140). -/
  | cmul (ag : Agent) (stop : Bool) (rd rs1 rs2 : BitVec 5) (fn : BitVec 9)
  /-- CMAC (R140). -/
  | cmac (ag : Agent) (stop : Bool) (rd rs1 rs2 : BitVec 5) (fn : BitVec 9)
  /-- CADD (R140). -/
  | cadd (ag : Agent) (stop : Bool) (rd rs1 rs2 : BitVec 5) (fn : BitVec 9)
  /-- CSUB (R140). -/
  | csub (ag : Agent) (stop : Bool) (rd rs1 rs2 : BitVec 5) (fn : BitVec 9)
  /-- CMAG2 (R140). -/
  | cmag2 (ag : Agent) (stop : Bool) (rd rs1 rs2 : BitVec 5) (fn : BitVec 9)
  /-- CORR (R140). -/
  | corr (ag : Agent) (stop : Bool) (rd rs1 rs2 : BitVec 5) (fn : BitVec 9)
  /-- ACS (R140). -/
  | acs (ag : Agent) (stop : Bool) (rd rs1 rs2 : BitVec 5) (fn : BitVec 9)
  /-- LMS (R140). -/
  | lms (ag : Agent) (stop : Bool) (rd rs1 rs2 : BitVec 5) (fn : BitVec 9)
  /-- LDB (R122). -/
  | ldb (ag : Agent) (stop : Bool) (rd rs1 : BitVec 5) (imm : BitVec 14)
  /-- LDBU (R122). -/
  | ldbu (ag : Agent) (stop : Bool) (rd rs1 : BitVec 5) (imm : BitVec 14)
  /-- LDH (R122). -/
  | ldh (ag : Agent) (stop : Bool) (rd rs1 : BitVec 5) (imm : BitVec 14)
  /-- LDHU (R122). -/
  | ldhu (ag : Agent) (stop : Bool) (rd rs1 : BitVec 5) (imm : BitVec 14)
  /-- LDW (R122). -/
  | ldw (ag : Agent) (stop : Bool) (rd rs1 : BitVec 5) (imm : BitVec 14)
  /-- LDP (R122). -/
  | ldp (ag : Agent) (stop : Bool) (rd rs1 : BitVec 5) (imm : BitVec 14)
  /-- LDW_PI (R120). -/
  | ldwPi (ag : Agent) (stop : Bool) (rd rs1 : BitVec 5) (imm : BitVec 14)
  /-- STB (R122). -/
  | stb (ag : Agent) (stop : Bool) (rd rs1 : BitVec 5) (imm : BitVec 14)
  /-- STH (R122). -/
  | sth (ag : Agent) (stop : Bool) (rd rs1 : BitVec 5) (imm : BitVec 14)
  /-- STW (R122). -/
  | stw (ag : Agent) (stop : Bool) (rd rs1 : BitVec 5) (imm : BitVec 14)
  /-- STP (R122). -/
  | stp (ag : Agent) (stop : Bool) (rd rs1 : BitVec 5) (imm : BitVec 14)
  /-- STW_PI (R120). -/
  | stwPi (ag : Agent) (stop : Bool) (rd rs1 : BitVec 5) (imm : BitVec 14)
  /-- DINV (R124). -/
  | dinv (ag : Agent) (stop : Bool) (rd rs1 : BitVec 5) (imm : BitVec 14)
  /-- FENCE (R120). -/
  | fence (ag : Agent) (stop : Bool) (rd rs1 rs2 : BitVec 5) (fn : BitVec 9)
  /-- MFSR (R119). -/
  | mfsr (ag : Agent) (stop : Bool) (rd rs1 : BitVec 5) (imm : BitVec 14)
  /-- MTSR (R119). -/
  | mtsr (ag : Agent) (stop : Bool) (rd rs1 : BitVec 5) (imm : BitVec 14)
  /-- IINV (R124). -/
  | iinv (ag : Agent) (stop : Bool) (rd rs1 rs2 : BitVec 5) (fn : BitVec 9)
  /-- IEX (R120). -/
  | iex (ag : Agent) (stop : Bool) (rd rs1 : BitVec 5) (imm : BitVec 14)
  /-- REPI (R126). -/
  | repi (ag : Agent) (stop : Bool) (rd rs1 : BitVec 5) (imm : BitVec 14)
  /-- REPIR (R126). -/
  | repir (ag : Agent) (stop : Bool) (rd rs1 : BitVec 5) (imm : BitVec 14)
  /-- REPN (R128). -/
  | repn (ag : Agent) (stop : Bool) (rd rs1 : BitVec 5) (imm : BitVec 14)
  /-- INTERRUPT_ENTRY (R135). -/
  | interruptEntry
  /-- SW_LINE_SET (R137). -/
  | swLineSet (bits : BitVec 8)
  /-- SW_LINE_CLR (R137). -/
  | swLineClr (bits : BitVec 8)
  /-- LANE_IN (R145). -/
  | laneIn (n : Fin 32) (len : BitVec 12) (loc : BitVec 13) (remote : Word)
  /-- CTX_IN (R145). -/
  | ctxIn (n : Fin 32) (len : BitVec 12) (loc : BitVec 13) (remote : Word)
  /-- CTX_OUT (R145). -/
  | ctxOut (n : Fin 32) (len : BitVec 12) (loc : BitVec 13) (remote : Word)
  /-- SRAM_IN (R145). -/
  | sramIn (n : Fin 32) (len : BitVec 12) (loc : BitVec 13) (remote : Word)
  /-- SRAM_OUT (R145). -/
  | sramOut (n : Fin 32) (len : BitVec 12) (loc : BitVec 13) (remote : Word)
  /-- MAC_OUT (R145). -/
  | macOut (n : Fin 32) (len : BitVec 12) (loc : BitVec 13) (remote : Word)
  /-- DMA_COMPLETE (R145). -/
  | dmaComplete (n : Fin 32)
  /-- WIO_DMAWAIT (R147). -/
  | wioDmawait (n : Fin 32) (rd : BitVec 5)
  /-- WIO_END (R149). -/
  | wioEnd (n : Fin 32) (status : BitVec 8)
  /-- WIO_REMAIN (R150). -/
  | wioRemain (n : Fin 32) (v : Word)
  /-- JOB_POST (R162). -/
  | jobPost (m : Master) (w0 : Word)
  /-- JOB_DISPATCH (R156). -/
  | jobDispatch (who : BitVec 32)
  /-- BUDGET_EXCEEDED (R153). -/
  | budgetExceeded (n : Fin 32)
  /-- OVERBUDGET (R153). -/
  | overbudget (n : Fin 32)
  /-- HALT (R165). -/
  | shtlHalt (on : Bool)
  /-- RESUME (R152). -/
  | weftResume (n : Fin 32)
  /-- SPAN_WRITE (R171). -/
  | spanWrite (data : Word)
  /-- RETUNE (R171). -/
  | rxRetune (band : Bool)
  /-- GAIN_LIMIT_WRITE (R173). -/
  | gainLimitWrite (data : Word)
  /-- CLIP_EVENT (R174). -/
  | clipEvent (clip : BitVec 64) (last : Fin 25600) (delay : Fin 65)
  /-- CLIP_STEP (R206). -/
  | clipStep
  /-- GAIN_STEP (R205). -/
  | gainStep
  /-- AGC_STEP (R195). -/
  | agcStep (lane : Fin 96) (rms : Int)
  /-- ENERGY_BLOCK (R202). -/
  | energyBlock (lane : Fin 96) (level : Int)
  /-- CAL_REQ_VCO (R178). -/
  | calReqVco (force : Bool)
  /-- CAL_REQ_ADC (R178). -/
  | calReqAdc (force : Bool)
  /-- CAL_REQ_DC (R178). -/
  | calReqDc (force : Bool)
  /-- CAL_REQ_IQ (R178). -/
  | calReqIq (force : Bool)
  /-- RX_CAL_START (R179). -/
  | rxCalStart
  /-- CAL_WAIT_LIMIT (R179). -/
  | calWaitLimit
  /-- RX_CAL_STEP_DONE (R178). -/
  | rxCalStepDone (failed : Bool) (temp : BitVec 16)
  /-- TEMP_MEASURE (R182). -/
  | tempMeasure (temp : BitVec 16)
  /-- TRIM_UPDATE (R183). -/
  | trimUpdate
  /-- SENTINEL_DETECTION (R198). -/
  | sentinelDetection (lane : Fin 96) (metric : BitVec 8) (level fest dgCorr : Int) (idx : Fin 400) (part : Bool)
  /-- SFD_MATCH (R199). -/
  | sfdMatch (lane : Fin 96) (sfd1 : Bool) (idx : Fin 400) (time : DWord)
  /-- SFD_TIMEOUT (R199). -/
  | sfdTimeout (lane : Fin 96)
  /-- INTAKE_ACCEPT (R224). -/
  | intakeAccept (n : Fin 32)
  /-- MSW_WINDOW_EXPIRY (R230). -/
  | mswWindowExpiry
  /-- TX_REQUEST (R233). -/
  | txRequest (r : TxReq)
  /-- TX_PREPARE (R238). -/
  | txPrepare
  /-- TX_LOCK (R238). -/
  | txLock
  /-- LOCK_FAIL (R240). -/
  | lockFail
  /-- COEX_REQ_START (R256). -/
  | coexReqStart
  /-- SEQUENCER_START (R244). -/
  | sequencerStart (lowBat : Bool)
  /-- GNTWAIT_EXPIRY (R256). -/
  | gntwaitExpiry
  /-- PA_ENABLE (R244). -/
  | paEnable
  /-- RAMP_UP (R244). -/
  | rampUp
  /-- LAST_SYMBOL (R244). -/
  | lastSymbol
  /-- RAMP_DOWN_END (R252). -/
  | rampDownEnd
  /-- PA_DISABLE (R244). -/
  | paDisable
  /-- LAST_TX_SAMPLE (R244). -/
  | lastTxSample (rl : BitVec 8)
  /-- BLANKING_END (R23). -/
  | blankingEnd
  /-- COEX_GRANT_WITHDRAWN (R256). -/
  | coexGrantWithdrawn
  /-- FIR_WRITE (R237). -/
  | firWrite (n : Fin 16) (data : Word)
  /-- TX_CAL_VCO (R239). -/
  | txCalVco
  /-- TX_CAL_CHECK (R241). -/
  | txCalCheck
  /-- TX_CAL_DONE (R241). -/
  | txCalDone (acp : BitVec 8)
  /-- DUTY_BUCKET_ADVANCE (R252). -/
  | dutyBucketAdvance
  /-- LINK_OCCURRENCE (R261). -/
  | linkOccurrence
  /-- BEACON_SLOT (R272). -/
  | beaconSlot
  /-- TXQ_HEAD_WRITE (R267). -/
  | txqHeadWrite (head : BitVec 8)
  /-- CCA_ASSESS (R270). -/
  | ccaAssess (desc : BitVec 8)
  /-- DEFER_EXPIRY (R271). -/
  | deferExpiry (desc : BitVec 8)
  /-- MAC_RX_FRAME (R277). -/
  | macRxFrame
  /-- RX_WINDOW_CLOSE (R275). -/
  | rxWindowClose
  /-- ACK_WAIT_CLOSE (R281). -/
  | ackWaitClose (desc : BitVec 8)
  /-- PARENT_WRITE (R276). -/
  | parentWrite (data : Word)
  /-- ZEPHYR_MATCH (R286, R287): the 64 chips heard, the first in bit 63. -/
  | zephyrMatch (chips : BitVec 64)
  /-- ZEPHYR_HANDOFF_TIMEOUT (R287). -/
  | zephyrHandoffTimeout
  /-- ECB_ENCRYPT (R301). -/
  | ecbEncrypt
  /-- ECB_DECRYPT (R301). -/
  | ecbDecrypt
  /-- CCM_ENCRYPT (R301). -/
  | ccmEncrypt
  /-- CCM_DECRYPT_VERIFY (R301). -/
  | ccmDecryptVerify
  /-- KEY_LOAD (R296). -/
  | keyLoad
  /-- KEY_ERASE (R298). -/
  | keyErase
  /-- MONTGOMERY_MULTIPLY (R303). -/
  | montgomeryMultiply (dst b a : BitVec 3)
  /-- MODULAR_ADD (R303). -/
  | modularAdd (dst b a : BitVec 3)
  /-- MODULAR_SUBTRACT (R303). -/
  | modularSubtract (dst b a : BitVec 3)
  /-- BN_DONE (R303). -/
  | bnDone
  /-- COUNTER_RESERVE (R305). -/
  | counterReserve (slot : Fin 32)
  /-- RESERVATION_DURABLE (R306). -/
  | reservationDurable (slot : Fin 32)
  /-- RESERVATION_ACK_TIMEOUT (R306). -/
  | reservationAckTimeout (slot : Fin 32)
  /-- SECURITY_ALARM (R310). -/
  | securityAlarm (src : BitVec 4)
  /-- ALMCFG_WRITE (R311). -/
  | almcfgWrite (data : Word)
  /-- EPOCH_WRITE (R297). -/
  | epochWrite (data : Word)
  /-- LEDGER_CFG_WRITE (R307). -/
  | ledgerCfgWrite (data : Word)
  /-- TBL_LOOKUP (R319). -/
  | tblLookup (short route : Bool)
  /-- TBL_READ (R319). -/
  | tblRead (idx : BitVec 13)
  /-- TBL_ADD (R319). -/
  | tblAdd (auto : Bool) (idx : BitVec 13)
  /-- TBL_WRITE (R319). -/
  | tblWrite (idx : BitVec 13)
  /-- TBL_DELETE (R319). -/
  | tblDelete (idx : BitVec 13)
  /-- TBL_REFRESH (R319). -/
  | tblRefresh (idx : BitVec 13)
  /-- AGEING_SCAN (R324). -/
  | ageingScan
  /-- TBL_SPLIT_WRITE (R317). -/
  | tblSplitWrite (data : Word)
  /-- TIME_SET (R332). -/
  | timeSet (force : Bool)
  /-- TIME_STEP (R333). -/
  | timeStep (force : Bool)
  /-- TIME_SLEW (R334). -/
  | timeSlew
  /-- TIME_RATE (R332). -/
  | timeRate
  /-- TIME_CLEAR (R332). -/
  | timeClear
  /-- TIME_ACCEPT (R339). -/
  | timeAccept
  /-- SLEW_END (R334). -/
  | slewEnd
  /-- PPS_MEASUREMENT (R336). -/
  | ppsMeasurement
  /-- SERVO_TAKEOVER (R338). -/
  | servoTakeover
  /-- SOURCE_LOSS (R337). -/
  | sourceLoss
  /-- HOLDOVER (R340). -/
  | timeHoldover
  /-- COMPARE_MATCH (R342). -/
  | compareMatch (n : Fin 7)
  /-- PULSE_END (R342). -/
  | pulseEnd (pin : Fin 8)
  /-- CAPTURE (R346). -/
  | timeCapture (src : BitVec 8) (rising : Bool)
  /-- CAPTURE_POP (R346). -/
  | capturePop (n : Fin 8)
  /-- CAPCFG_WRITE (R346). -/
  | capcfgWrite (n : Fin 8) (data : Word)
  /-- NOW_READ (R331). -/
  | nowRead (m : Master)
  /-- UTC_OFFSET_CHANGE (R348). -/
  | utcOffsetChange
  /-- RTC_SEC_WRITE (R355). -/
  | rtcSecWrite (v : Word)
  /-- RTC_COUNT_LOAD (R355). -/
  | rtcCountLoad
  /-- RTC_CALD_WRITE (R357). -/
  | rtcCaldWrite (d : Word)
  /-- RTC_CALT_WRITE (R357). -/
  | rtcCaltWrite (t : Word)
  /-- SYNCNT (R358). -/
  | syncnt
  /-- RTC_SYNC_LOAD (R358). -/
  | rtcSyncLoad
  /-- LEGACY_FREEZE_READ (R354). -/
  | legacyFreezeRead (addr : Word)
  /-- FREEZE_TIMEOUT (R354). -/
  | freezeTimeout
  /-- ALARM_ARM (R359). -/
  | alarmArm (ctl : Bool) (data : Word)
  /-- RTC_ALARM (R359). -/
  | rtcAlarm
  /-- PERIODIC_RESTART (R361). -/
  | periodicRestart (data : Word)
  /-- PERIODIC_WAKE (R361). -/
  | periodicWake
  /-- TRIM_WINDOW (R363). -/
  | trimWindow
  /-- BACKUP_CHECK (R364). -/
  | backupCheck (low : Bool)
  /-- CHARGER_WRITE (R365). -/
  | chargerWrite (data : Word)
  /-- TIMER_ENABLE (R368). -/
  | timerEnable (n : Fin 8) (data : Word)
  /-- TIMER_COUNT_STEP (R369). -/
  | timerCountStep (n : Fin 8)
  /-- RELOAD_WRITE (R370). -/
  | reloadWrite (n : Fin 8) (v : BitVec 64)
  /-- TIMER_RESTART (R370). -/
  | timerRestart (n : Fin 8)
  /-- TIMER_CAPTURE (R373). -/
  | timerCapture (n : Fin 8) (rising : Bool)
  /-- TIMER_CAP_READ (R373). -/
  | timerCapRead (n : Fin 8)
  /-- SCAN_START (R379). -/
  | scanStart
  /-- ZERO_CROSSING (R381). -/
  | zeroCrossing (rising : Bool)
  /-- NOZC_TIMEOUT (R381). -/
  | nozcTimeout
  /-- MSU_ENABLE (R386). -/
  | msuEnable (cfg : Word)
  /-- MSU_DISABLE (R386). -/
  | msuDisable
  /-- MSU_THR_WRITE (R385). -/
  | msuThrWrite (data : Word)
  /-- NVM_READ (R390). -/
  | nvmRead (m : Master) (addr : Word) (size : Size) (wrong : Fin 6)
  /-- NVM_PROGRAM (R402). -/
  | nvmProgram (count : BitVec 7)
  /-- NVM_ERASE (R397). -/
  | nvmErase
  /-- OTPPROG (R407). -/
  | nvmOtpprog (vbatOk : Bool)
  /-- PROGRAM_UNIT_DONE (R395). -/
  | programUnitDone (bank ok : Bool) (pulses : BitVec 4) (lost : List (Fin 128))
  /-- ERASE_COMPLETE (R397). -/
  | eraseComplete (bank ok : Bool)
  /-- ERASE_SUSPEND (R399). -/
  | eraseSuspend (bank : Bool)
  /-- ERASE_RESUME (R399). -/
  | eraseResume (bank : Bool)
  /-- METADATA_LOAD (R398). -/
  | metadataLoad
  /-- SCRUB_STEP (R406). -/
  | scrubStep (units : List (Fin 128 × Fin 6))
  /-- XIP_LINE_FILL (R412). -/
  | xipLineFill (m : Master) (addr : Word)
  /-- XIP_WRITE (R413). -/
  | xipWrite (m : Master) (addr : Word) (size : Size) (data : BitVec 64)
  /-- WRITE_QUEUE_ENTRY (R413). -/
  | writeQueueEntry
  /-- STATUS_POLL (R413). -/
  | statusPoll (status : BitVec 8)
  /-- POLL_TIMEOUT (R416). -/
  | pollTimeout
  /-- DIRECT_COMMAND (R417). -/
  | directCommand (data : Word)
  /-- HOST_NOP (R425). -/
  | hostNop (tag : BitVec 4) (payload : List (BitVec 8))
  /-- REPEAT (R425). -/
  | hostRepeat (tag : BitVec 4) (payload : List (BitVec 8))
  /-- HOST_DICT (R425). -/
  | hostDict (tag : BitVec 4) (payload : List (BitVec 8))
  /-- MBOX_PUT (R428). -/
  | mboxPut (tag : BitVec 4) (payload : List (BitVec 8))
  /-- MBOX_GET (R428). -/
  | mboxGet (tag : BitVec 4) (payload : List (BitVec 8))
  /-- ATTN (R425). -/
  | hostAttn (tag : BitVec 4) (payload : List (BitVec 8))
  /-- BROKEN_FRAME (R422). -/
  | brokenFrame (code : BitVec 3)
  /-- BUSY_FRAME (R423). -/
  | busyFrame
  /-- SPIS_ENABLE_WRITE (R424). -/
  | spisEnableWrite (data : Word)
  /-- PORT_DOWN (R443). -/
  | portDown (p : Port) (rxok nbok : Bool) (viol : BitVec 16)
  /-- PORT_UP (R443). -/
  | portUp (p : Port)
  /-- WRAP (R444). -/
  | ringWrap
  /-- UNWRAP (R445). -/
  | ringUnwrap
  /-- CYCLE_RECEIVED (R437). -/
  | cycleReceived (low : BitVec 16)
  /-- CYCLE_LOSS (R447). -/
  | cycleLoss
  /-- RING_TIME_FRAME (R442). -/
  | ringTimeFrame (h : RingHdr) (qual npos bulkown : BitVec 8) (plan : Word) (origin : DWord) (corr tick : Word) (resid : BitVec 16)
  /-- NUMBER (R449). -/
  | ringNumber (h : RingHdr) (hop : BitVec 8) (epoch : BitVec 16)
  /-- CLAIM (R448). -/
  | ringClaim (h : RingHdr) (pri : BitVec 8) (ext : DWord)
  /-- STATUS_FRAME (R435). -/
  | statusFrame (h : RingHdr) (ext : DWord) (state wrap : BitVec 8)
  /-- SVC (R450). -/
  | ringSvc (h : RingHdr) (payload : List (BitVec 8))
  /-- APP (R435). -/
  | ringApp (h : RingHdr) (payload : List (BitVec 8))
  /-- BULK (R440). -/
  | ringBulk (h : RingHdr) (payload : List (BitVec 8))
  /-- DREQ (R439). -/
  | ringDreq (p : Port) (fate : RingFate) (turn : BitVec 16)
  /-- DRSP (R439). -/
  | ringDrsp (p : Port) (fate : RingFate) (t2 t3 : DWord)
  /-- SERVICE_SLOT (R439). -/
  | serviceSlot
  /-- BULK_WINDOW (R440). -/
  | bulkWindow
  /-- RING_ENABLE (R447). -/
  | ringEnable (data : Word)
  /-- RING_DISABLE (R447). -/
  | ringDisable (data : Word)
  /-- DICT_READ (R460). -/
  | dictRead (p : DictPort) (rid : BitVec 8) (items : List (BitVec 16 × BitVec 8))
  /-- DICT_WRITE (R463). -/
  | dictWrite (p : DictPort) (rid : BitVec 8) (items : List (BitVec 16 × BitVec 8 × List (BitVec 8)))
  /-- DICT_BEGIN (R463). -/
  | dictBegin (p : DictPort) (rid : BitVec 8)
  /-- DICT_COMMIT (R467). -/
  | dictCommit (p : DictPort) (rid : BitVec 8)
  /-- DICT_ABORT (R463). -/
  | dictAbort (p : DictPort) (rid : BitVec 8)
  /-- SNAPSHOT (R461). -/
  | dictSnapshot (p : DictPort) (rid : BitVec 8) (items : List (BitVec 16 × BitVec 8))
  /-- FETCH (R461). -/
  | dictFetch (p : DictPort) (rid : BitVec 8) (offset maxlen : BitVec 16)
  /-- SNAPSHOT_BUFFER_EXPIRY (R461). -/
  | snapshotBufferExpiry (q : Sess)
  /-- TRANSACTION_EXPIRY (R466). -/
  | transactionExpiry (q : Sess)
  /-- HOLDMAX_EXPIRY (R467). -/
  | holdmaxExpiry
  /-- CHECK_VERDICT (R473). -/
  | checkVerdict (data : Word)
  /-- CHECK_TIMEOUT (R473). -/
  | checkTimeout
  /-- MESH_ENVELOPE (R470). -/
  | meshEnvelope
  /-- LOCAL_REQUEST (R471). -/
  | localRequest
  /-- DICT_RESTORE (R476). -/
  | dictRestore (data : Word)
  /-- STORE_CFG_WRITE (R475). -/
  | storeCfgWrite (data : Word)
  /-- APP_TABLE_WRITE (R472). -/
  | appTableWrite (n : Bool) (data : Word)
  /-- HELLO (R486). -/
  | twillHello (bad : Bool) (ver state role : BitVec 8) (addr : DWord) (kcv : Vector (BitVec 16) 32)
  /-- TWILL_TICK (R489). -/
  | twillTick (h : TwHdr) (tick : Word) (state qual : BitVec 8) (origin : DWord)
  /-- TWILL_DREQ (R482). -/
  | twillDreq (h : TwHdr) (turn : BitVec 16)
  /-- TWILL_DRSP (R482). -/
  | twillDrsp (h : TwHdr) (t2 t3 : DWord)
  /-- TBL (R487). -/
  | twillTbl (h : TwHdr) (idx : BitVec 16) (entry : Vector (BitVec 8) 32)
  /-- CTR (R487). -/
  | twillCtr (h : TwHdr) (pairs : List (BitVec 16 × Word))
  /-- RES (R487). -/
  | twillRes (h : TwHdr) (slot : Fin 32) (kcv : DWord) (start : Word)
  /-- RESACK (R487). -/
  | twillResack (h : TwHdr) (slot : Fin 32) (kcv : DWord) (start : Word)
  /-- TWILL_DICT (R488). -/
  | twillDict (h : TwHdr) (gen : Word) (items : List (BitVec 8))
  /-- TXB (R490). -/
  | twillTxb (h : TwHdr) (first last : DWord)
  /-- FWD (R491). -/
  | twillFwd (h : TwHdr) (rxTime : DWord) (desc : Vector (BitVec 8) 32) (psdu : List (BitVec 8))
  /-- SYNC (R487). -/
  | twillSync (h : TwHdr) (kind : BitVec 8) (items : List (BitVec 8))
  /-- RELAY (R498). -/
  | twillRelay (h : TwHdr) (message : List (BitVec 8))
  /-- HANDOVER (R499). -/
  | twillHandover (h : TwHdr) (tick : Word)
  /-- TWILL_LINK_DOWN (R484). -/
  | twillLinkDown
  /-- TWILL_LINK_UP (R484). -/
  | twillLinkUp
  /-- TWILL_RETRANSMIT (R483). -/
  | twillRetransmit
  /-- TWILL_ACK_TIMEOUT (R483). -/
  | twillAckTimeout
  /-- STARTWAIT_EXPIRY (R485). -/
  | startwaitExpiry
  /-- TAKEOVER (R493). -/
  | twillTakeover
  /-- YIELD (R499). -/
  | twillYield
  /-- FORCE (R497). -/
  | twillForce
  /-- RESYNC (R487). -/
  | twillResync
  /-- EVENT_REPORT (R503). -/
  | eventReport (m : Master) (data : Word)
  /-- VARIABLE_REPORT (R511). -/
  | variableReport (m : Master) (data : Word)
  /-- STAGING_WRITE (R509). -/
  | stagingWrite
  /-- COALESCE_TIMEOUT (R509). -/
  | coalesceTimeout
  /-- FLUSH (R509). -/
  | evrFlush
  /-- CLEAR (R514). -/
  | evrClear
  /-- EVR_SCAN (R512). -/
  | evrScan
  /-- BOOT_SELECT (R523). -/
  | bootSelect (nvA nvB : BitVec 8) (vbatOk : Bool)
  /-- VERIFY (R527). -/
  | romVerify
  /-- ROM_BEGIN (R527). -/
  | romBegin (nv : BitVec 8)
  /-- FINISH (R527). -/
  | romFinish (nv : BitVec 8)
  /-- CONFIRM (R526). -/
  | romConfirm (nv : BitVec 8)
  /-- VERSION (R527). -/
  | romVersion
  /-- TRIAL_EXPIRY (R525). -/
  | trialExpiry
  /-- TRIAL_STOP (R525). -/
  | trialStop
  /-- ID_UPD_WRITE (R528). -/
  | idUpdWrite (m : Master) (data : Word)
  /-- RINFO (R530). -/
  | rinfo (p : RecPort)
  /-- RERASE (R530). -/
  | rerase (p : RecPort) (kind nv : BitVec 8)
  /-- RWRITE (R530). -/
  | rwrite (p : RecPort) (kind : BitVec 8) (off : Word) (data : List (BitVec 8)) (nv : BitVec 8)
  /-- RFINISH (R530). -/
  | rfinish (p : RecPort) (nv : BitVec 8)
  /-- ROTP (R530). -/
  | rotp (p : RecPort) (off : BitVec 16) (value : Word) (vbatOk : Bool)
  /-- RBOOT (R530). -/
  | rboot (p : RecPort)
  /-- RC_FIELD_READ (R7). -/
  | rcFieldRead (m : Master) (addr : Word)
  /-- POWER_UP (R83). -/
  | powerUp
  /-- RESET_N_RISE (R83). -/
  | resetNRise
  /-- BROWN_OUT_WARNING_CLEAR (R78). -/
  | brownOutWarningClear
  /-- VDDIO_LOW (R74). -/
  | vddioLow (bank : Bool) (low : Bool)
  /-- CORE_RESUME (R105). -/
  | coreResume
  /-- COEX_GRANT (R256). -/
  | coexGrant (lowBat : Bool)
  /-- CMAC_COMMAND (R301). -/
  | cmacCommand
  /-- OTP_PROGRAM_DONE (R407). -/
  | otpProgramDone
  /-- DIRECT_COMMAND_END (R417). -/
  | directCommandEnd (read : List (BitVec 8)) (changed : List (BitVec 26 × BitVec 8))
  /-- SCAN_END (R380). -/
  | scanEnd (codes : Vector (BitVec 10) 4)
  /-- RTC_COUNT_WRAP (R351). -/
  | rtcCountWrap
  /-- ZEPHYR_SYNCONLY (R286). -/
  | zephyrSynconly
  /-- RING_GAP (R446). -/
  | ringGap
  deriving DecidableEq, Repr

end Sys2Proof
end

