-- ==== Sys2Proof/Machine/Regs.lean ====
section
/-! DEFINITION. Machine/Regs.lean: the register tables of spec/ (R7, R36, R37): every register's address, its reset
value, and which of its bits are read-write (RW and TK shadows), write-one-to-clear, read-to-clear and lockable, and which belong to a field. A
register array is one row. A `Field` names the bits of one field. -/
namespace Sys2Proof.Machine

/-- One row: registers at `base + stride * i` for `i < n`, each with the reset value and the masks of its table. -/
structure RegRow where
  base : Nat
  n : Nat
  stride : Nat
  reset : Nat
  rw : Nat
  w1c : Nat
  rc : Nat
  lk : Nat
  known : Nat
  deriving DecidableEq, Repr

/-- The bits `lo` to `lo + w - 1` of the register at the address `reg` (R7: registers are 32 bits wide). -/
structure Field where
  reg : Nat
  lo : Nat
  w : Nat
  deriving DecidableEq, Repr

/-- A field at the same bits of another register (a live copy, another member of an array). -/
def Field.at (f : Field) (reg : Nat) : Field := ⟨reg, f.lo, f.w⟩

/-- Does the row hold the register at `a`? -/
def RegRow.covers (r : RegRow) (a : Nat) : Bool :=
  decide (r.base ≤ a) && (if r.stride = 0 then decide (a = r.base)
    else decide ((a - r.base) % r.stride = 0) && decide ((a - r.base) / r.stride < r.n))

/-- The registers of SYSC. -/
def rowsSYSC : List RegRow :=
  [⟨0x40000200, 1, 0x0, 0x0, 0x0, 0x0, 0x0, 0x0, 0xFFFFFFFF⟩ /- SYSC_TICK -/,
   ⟨0x40000204, 1, 0x0, 0x1, 0x0, 0x4, 0x0, 0x0, 0xFFFFFFF7⟩ /- SYSC_TICKSTAT -/,
   ⟨0x40000220, 1, 0x0, 0x0, 0x0, 0x3, 0x0, 0x0, 0x3⟩ /- SYSC_IRQ -/,
   ⟨0x40000224, 1, 0x0, 0x0, 0x1B, 0x0, 0x0, 0x0, 0x1B⟩ /- SYSC_IRQEN -/,
   ⟨0x40000210, 1, 0x0, 0x0, 0x1F, 0xC80, 0x0, 0x0, 0xFF9F⟩ /- SYSC_GCOMMIT -/,
   ⟨0x40000014, 1, 0x0, 0x0, 0x37, 0x0, 0x0, 0x0, 0x37⟩ /- SYSC_SUPCFG -/,
   ⟨0x40000010, 1, 0x0, 0x0, 0x0, 0x4, 0x0, 0x0, 0x3F⟩ /- SYSC_SUPSTAT -/,
   ⟨0x40000000, 1, 0x0, 0x1, 0x0, 0x7F, 0x0, 0x0, 0x7F⟩ /- SYSC_RSTCAUSE -/,
   ⟨0x40000008, 1, 0x0, 0x0, 0x0, 0x0, 0x0, 0x0, 0xFFFFFFFF⟩ /- SYSC_SWRST -/,
   ⟨0x40000020, 1, 0x0, 0x40, 0x0, 0x30, 0x0, 0x0, 0xFF⟩ /- SYSC_CLKSTAT -/,
   ⟨0x40000024, 1, 0x0, 0x8000, 0xFF01, 0x0, 0x0, 0x0, 0xFF01⟩ /- SYSC_CLKCFG -/,
   ⟨0x40000028, 1, 0x0, 0x1FF, 0x1FF, 0x0, 0x0, 0x0, 0x1FF⟩ /- SYSC_CLKGATE -/] ++
  [⟨0x40000030, 1, 0x0, 0x0, 0x7, 0x0, 0x0, 0x0, 0x7⟩ /- SYSC_PDCTL -/,
   ⟨0x40000034, 1, 0x0, 0x0, 0x0, 0x0, 0x0, 0x0, 0x7⟩ /- SYSC_PDSTAT -/,
   ⟨0x40000040, 1, 0x0, 0x0, 0x3, 0x0, 0x0, 0x0, 0x80000003⟩ /- SYSC_PWRCTL -/,
   ⟨0x40000048, 1, 0x0, 0x1, 0x7F, 0x0, 0x0, 0x0, 0x7F⟩ /- SYSC_WAKEEN -/,
   ⟨0x4000004C, 1, 0x0, 0x0, 0xFFFFFF, 0x0, 0x0, 0x0, 0xFFFFFF⟩ /- SYSC_GPWAKE -/,
   ⟨0x40000050, 1, 0x0, 0x0, 0x0, 0x1037F, 0x0, 0x0, 0x1037F⟩ /- SYSC_WAKESRC -/,
   ⟨0x40000058, 1, 0x0, 0x0, 0xFFFFFFFF, 0x0, 0x0, 0x0, 0xFFFFFFFF⟩ /- SYSC_TWAKE_LO -/,
   ⟨0x4000005C, 1, 0x0, 0x0, 0xFFFFFFFF, 0x0, 0x0, 0x0, 0xFFFFFFFF⟩ /- SYSC_TWAKE_HI -/,
   ⟨0x40000060, 1, 0x0, 0x0, 0xFFFFFFFC, 0x0, 0x0, 0x0, 0xFFFFFFFC⟩ /- SYSC_RESUMEVEC -/,
   ⟨0x40000064, 1, 0x0, 0x100, 0x0, 0x80000010, 0x0, 0x0, 0x8000011B⟩ /- SYSC_LPSTAT -/]

/-- The registers of LOOM. -/
def rowsLOOM : List RegRow :=
  [⟨0x40012FF0, 1, 0x0, 0x0, 0x0, 0x1C, 0x0, 0x0, 0xFFFFFF1F⟩ /- LOOM_COMMIT -/,
   ⟨0x40012004, 1, 0x0, 0x0, 0x0, 0x0, 0x0, 0x0, 0xFFFF007F⟩ /- LOOM_STAT -/,
   ⟨0x40012010, 1, 0x0, 0x81000010, 0x81FF00FF, 0x0, 0x0, 0x0, 0x81FF00FF⟩ /- LOOM_GAINCFG0 -/,
   ⟨0x40012014, 1, 0x0, 0xA060000, 0xFF1FF1FF, 0x0, 0x0, 0x0, 0xFF1FF1FF⟩ /- LOOM_GAINCFG1 -/,
   ⟨0x40012018, 1, 0x0, 0x0, 0x0, 0x0, 0x0, 0x0, 0xC0FFFFFF⟩ /- LOOM_GAINSTAT -/,
   ⟨0x4001201C, 1, 0x0, 0x0, 0x0, 0x0, 0xFFFFFFFF, 0x0, 0xFFFFFFFF⟩ /- LOOM_GAINCNT -/,
   ⟨0x40012020, 1, 0x0, 0x0, 0x0, 0x7, 0x0, 0x0, 0x7⟩ /- LOOM_IRQ -/,
   ⟨0x40012024, 1, 0x0, 0x0, 0x7, 0x0, 0x0, 0x0, 0x7⟩ /- LOOM_IRQEN -/,
   ⟨0x40012030, 1, 0x0, 0xFE98, 0x801FFFFF, 0x0, 0x0, 0x0, 0x801FFFFF⟩ /- LOOM_CCACFG -/,
   ⟨0x40012034, 1, 0x0, 0xFE98, 0x0, 0x0, 0x0, 0x0, 0x801FFFFF⟩ /- LOOM_CCACFG live -/,
   ⟨0x40012100, 16, 0x10, 0x0, 0x8F1F9F00, 0x0, 0x0, 0x0, 0x8F1F9F00⟩ /- LOOM_MSA -/,
   ⟨0x40012200, 16, 0x10, 0x0, 0x0, 0x0, 0x0, 0x0, 0x8F1F9F00⟩ /- LOOM_MSA live -/] ++
  [⟨0x40012104, 16, 0x10, 0xA0502012, 0xFFFFFFFF, 0x0, 0x0, 0x0, 0xFFFFFFFF⟩ /- LOOM_MSB -/,
   ⟨0x40012204, 16, 0x10, 0xA0502012, 0x0, 0x0, 0x0, 0x0, 0xFFFFFFFF⟩ /- LOOM_MSB live -/,
   ⟨0x40012108, 16, 0x10, 0x904E6F4E, 0xFFFFFFFF, 0x0, 0x0, 0x0, 0xFFFFFFFF⟩ /- LOOM_MSC -/,
   ⟨0x40012208, 16, 0x10, 0x904E6F4E, 0x0, 0x0, 0x0, 0x0, 0xFFFFFFFF⟩ /- LOOM_MSC live -/,
   ⟨0x4001210C, 16, 0x10, 0x89031010, 0x9F1FFF11, 0x0, 0x0, 0x0, 0x9F1FFF11⟩ /- LOOM_MSD -/,
   ⟨0x4001220C, 16, 0x10, 0x89031010, 0x0, 0x0, 0x0, 0x0, 0x9F1FFF11⟩ /- LOOM_MSD live -/,
   ⟨0x40012400, 96, 0x4, 0x0, 0x8FFF300F, 0x0, 0x0, 0x0, 0x8FFF300F⟩ /- LOOM_LANE -/,
   ⟨0x40012600, 96, 0x4, 0x0, 0x0, 0x0, 0x0, 0x0, 0x8FFF300F⟩ /- LOOM_LANE live -/,
   ⟨0x40012800, 96, 0x4, 0x80008000, 0x0, 0x0, 0x0, 0x0, 0xFFFFFFFF⟩ /- LOOM_NRG -/,
   ⟨0x40012A00, 96, 0x4, 0x0, 0x0, 0x0, 0xFFFF0000, 0x0, 0xFFFFFF07⟩ /- LOOM_SENT -/]

/-- The registers of SHTL. -/
def rowsSHTL : List RegRow :=
  [⟨0x40013FF0, 1, 0x0, 0x0, 0x0, 0x1C, 0x0, 0x0, 0xFFFFFF1F⟩ /- SHTL_COMMIT -/,
   ⟨0x40013000, 1, 0x0, 0x6400, 0xFF03, 0x0, 0x0, 0x0, 0xFF03⟩ /- SHTL_CTRL -/,
   ⟨0x40013004, 1, 0x0, 0x0, 0x0, 0x0, 0x0, 0x0, 0xFFFFFF81⟩ /- SHTL_STAT -/,
   ⟨0x40013008, 1, 0x0, 0x20, 0x3F, 0x0, 0x0, 0x0, 0x3F⟩ /- SHTL_ENGCFG -/,
   ⟨0x4001300C, 1, 0x0, 0x20, 0x0, 0x0, 0x0, 0x0, 0x3F⟩ /- SHTL_ENGCFG live -/,
   ⟨0x40013010, 1, 0x0, 0x0, 0x0, 0x3F, 0x0, 0x0, 0x3F⟩ /- SHTL_IRQ -/,
   ⟨0x40013014, 1, 0x0, 0x0, 0x3F, 0x0, 0x0, 0x0, 0x3F⟩ /- SHTL_IRQEN -/,
   ⟨0x40013018, 1, 0x0, 0x0, 0x0, 0x0, 0xFFFF0000, 0x0, 0xFFFFFFFF⟩ /- SHTL_LOAD -/,
   ⟨0x4001301C, 1, 0x0, 0x0, 0x0, 0x0, 0xFFFF0000, 0x0, 0xFFFFFFFF⟩ /- SHTL_LOOSE -/,
   ⟨0x40013020, 1, 0x0, 0x0, 0x0, 0x0, 0x0, 0x0, 0xFFFFFFFF⟩ /- SHTL_OVRCNT -/,
   ⟨0x40013024, 1, 0x0, 0x0, 0x0, 0x0, 0xFFFFFFFF, 0x0, 0xFFFFFFFF⟩ /- SHTL_ERRCNT -/,
   ⟨0x40013028, 1, 0x0, 0x0, 0xFFFFFFFF, 0x0, 0x0, 0x0, 0xFFFFFFFF⟩ /- SHTL_PW2 -/] ++
  [⟨0x4001302C, 1, 0x0, 0x0, 0xFFFFFFFF, 0x0, 0x0, 0x0, 0xFFFFFFFF⟩ /- SHTL_PW3 -/,
   ⟨0x40013030, 1, 0x0, 0x0, 0x0, 0x0, 0x0, 0x0, 0xFFFFFFFF⟩ /- SHTL_POST -/,
   ⟨0x40013034, 1, 0x0, 0x0, 0x0, 0x0, 0x0, 0x0, 0x3⟩ /- SHTL_POSTSTAT -/,
   ⟨0x40013040, 1, 0x0, 0x0, 0xFFFFFE01, 0x0, 0x0, 0x0, 0xFFFFFE01⟩ /- SHTL_CQBASE -/,
   ⟨0x40013044, 1, 0x0, 0x0, 0x3F00, 0x0, 0xFF000000, 0x0, 0xFF003F3F⟩ /- SHTL_CQIDX -/,
   ⟨0x40013100, 32, 0x8, 0x0, 0x80033FFF, 0x0, 0x0, 0x0, 0x80033FFF⟩ /- SHTL_JCA -/,
   ⟨0x40013200, 32, 0x8, 0x0, 0x0, 0x0, 0x0, 0x0, 0x80033FFF⟩ /- SHTL_JCA live -/,
   ⟨0x40013104, 32, 0x8, 0x0, 0x1FFFF, 0x0, 0x0, 0x0, 0x1FFFF⟩ /- SHTL_JCB -/,
   ⟨0x40013204, 32, 0x8, 0x0, 0x0, 0x0, 0x0, 0x0, 0x1FFFF⟩ /- SHTL_JCB live -/]

/-- The registers of MAC. -/
def rowsMAC : List RegRow :=
  [⟨0x40015FF0, 1, 0x0, 0x0, 0x0, 0x1C, 0x0, 0x0, 0xFFFFFF1F⟩ /- MAC_COMMIT -/,
   ⟨0x40015C00, 1, 0x0, 0x14000001, 0xFF000003, 0x0, 0x0, 0x0, 0xFF000003⟩ /- MAC_RXCFG -/,
   ⟨0x40015C04, 1, 0x0, 0x0, 0x0, 0x0, 0x0, 0x0, 0xFFFFFFFF⟩ /- MAC_RXLAST -/,
   ⟨0x40015C08, 1, 0x0, 0x0, 0x0, 0x0, 0xFFFFFFFF, 0x0, 0xFFFFFFFF⟩ /- MAC_RXMSW -/,
   ⟨0x40015C10, 8, 0x4, 0x0, 0x807F000F, 0x0, 0x0, 0x0, 0x807F000F⟩ /- MAC_MSWMAP -/,
   ⟨0x40015C40, 16, 0x4, 0x0, 0x0, 0x0, 0x0, 0x0, 0xFFFFFFFF⟩ /- MAC_RXCNT -/,
   ⟨0x40015000, 1, 0x0, 0x22001400, 0xFA00FF00, 0x0, 0x0, 0x0, 0xFA00FF00⟩ /- MAC_CFG -/,
   ⟨0x40015004, 1, 0x0, 0xFFFFFFFF, 0xFFFFFFFF, 0x0, 0x0, 0x0, 0xFFFFFFFF⟩ /- MAC_ADDR -/,
   ⟨0x40015010, 1, 0x0, 0xC83209C4, 0xFFFFDFFF, 0x0, 0x0, 0x0, 0xFFFFDFFF⟩ /- MAC_TIMING -/,
   ⟨0x40015014, 1, 0x0, 0xC83209C4, 0x0, 0x0, 0x0, 0x0, 0xFFFFDFFF⟩ /- MAC_TIMING live -/,
   ⟨0x40015018, 1, 0x0, 0x3D00453, 0x7FF0FFF, 0x0, 0x0, 0x0, 0x7FF0FFF⟩ /- MAC_CSMA -/,
   ⟨0x4001501C, 1, 0x0, 0x1C08FEAC, 0xFFFFFFFF, 0x0, 0x0, 0x0, 0xFFFFFFFF⟩ /- MAC_RADIO -/] ++
  [⟨0x40015020, 1, 0x0, 0x0, 0xC000037F, 0x0, 0x0, 0x0, 0xC000037F⟩ /- MAC_BCNCFG -/,
   ⟨0x40015028, 1, 0x0, 0x0, 0x0, 0x0, 0x0, 0x0, 0xC000037F⟩ /- MAC_BCNCFG live -/,
   ⟨0x40015024, 1, 0x0, 0x64, 0xFFF0FFF, 0x0, 0x0, 0x0, 0xFFF0FFF⟩ /- MAC_BCNSLOT -/,
   ⟨0x4001502C, 1, 0x0, 0x64, 0x0, 0x0, 0x0, 0x0, 0xFFF0FFF⟩ /- MAC_BCNSLOT live -/,
   ⟨0x40015030, 1, 0x0, 0x8280A02, 0xFFFFFFFF, 0x0, 0x0, 0x0, 0xFFFFFFFF⟩ /- MAC_BCNTRK -/,
   ⟨0x40015034, 1, 0x0, 0x0, 0x80FF1FFF, 0x0, 0x0, 0x0, 0x80FF1FFF⟩ /- MAC_PARENT -/,
   ⟨0x40015038, 1, 0x0, 0x0, 0x0, 0x0, 0x0, 0x0, 0xE0FFFFFF⟩ /- MAC_BSTAT -/,
   ⟨0x4001503C, 1, 0x0, 0x0, 0x0, 0x0, 0x0, 0x0, 0xFFFFFFFF⟩ /- MAC_SCHEDOFS -/,
   ⟨0x40015040, 1, 0x0, 0x0, 0x0, 0x0, 0x0, 0x0, 0xFFFFFFFF⟩ /- MAC_SLOTNUM -/,
   ⟨0x40015048, 1, 0x0, 0xFFFFFFFF, 0x0, 0x0, 0x0, 0x0, 0xFFFFFFFF⟩ /- MAC_NEXTWAKE_LO -/,
   ⟨0x4001504C, 1, 0x0, 0xFFFFFFFF, 0x0, 0x0, 0x0, 0x0, 0xFFFFFFFF⟩ /- MAC_NEXTWAKE_HI -/,
   ⟨0x40015050, 1, 0x0, 0x0, 0x0, 0xFEBD, 0x0, 0x0, 0xFEBD⟩ /- MAC_IRQ -/] ++
  [⟨0x40015054, 1, 0x0, 0x0, 0xFEBD, 0x0, 0x0, 0x0, 0xFEBD⟩ /- MAC_IRQEN -/,
   ⟨0x40015060, 1, 0x0, 0x0, 0xFFFFF01F, 0x0, 0x0, 0x0, 0xFFFFF01F⟩ /- MAC_RXQBASE -/,
   ⟨0x40015064, 1, 0x0, 0x0, 0xFFFF0000, 0x0, 0x0, 0x0, 0xFFFFFFFF⟩ /- MAC_RXQPTR -/,
   ⟨0x40015068, 1, 0x0, 0x0, 0xFFFFE1FF, 0x0, 0x0, 0x0, 0xFFFFE1FF⟩ /- MAC_TXQBASE -/,
   ⟨0x4001506C, 1, 0x0, 0x0, 0xFF0000, 0x0, 0x0, 0x0, 0xFF00FF⟩ /- MAC_TXQPTR -/,
   ⟨0x40015070, 6, 0x4, 0x0, 0x0, 0x0, 0xFFFFFFFF, 0x0, 0xFFFFFFFF⟩ /- MAC_CNT -/,
   ⟨0x40015088, 1, 0x0, 0x4B00010, 0xFFFF007F, 0x0, 0x0, 0x0, 0xFFFF007F⟩ /- MAC_ZBURST -/,
   ⟨0x400150C0, 4, 0x4, 0x0, 0x7F7F7F7F, 0x0, 0x0, 0x0, 0x7F7F7F7F⟩ /- MAC_HOP -/,
   ⟨0x400150D0, 4, 0x4, 0x0, 0x0, 0x0, 0x0, 0x0, 0x7F7F7F7F⟩ /- MAC_HOP live -/,
   ⟨0x400150E0, 1, 0x0, 0x0, 0x1F, 0x0, 0x0, 0x0, 0x1F⟩ /- MAC_HOPCFG -/,
   ⟨0x400150E4, 1, 0x0, 0x0, 0x0, 0x0, 0x0, 0x0, 0x1F⟩ /- MAC_HOPCFG live -/,
   ⟨0x40015300, 8, 0x4, 0x0, 0x80000FFF, 0x0, 0x0, 0x0, 0x80000FFF⟩ /- MAC_SF -/] ++
  [⟨0x40015320, 8, 0x4, 0x0, 0x0, 0x0, 0x0, 0x0, 0x80000FFF⟩ /- MAC_SF live -/,
   ⟨0x40015800, 64, 0x8, 0x0, 0xFFE7FFFF, 0x0, 0x0, 0x0, 0xFFE7FFFF⟩ /- MAC_LINKA -/,
   ⟨0x40015A00, 64, 0x8, 0x0, 0x0, 0x0, 0x0, 0x0, 0xFFE7FFFF⟩ /- MAC_LINKA live -/,
   ⟨0x40015804, 64, 0x8, 0x0, 0xFF003FFF, 0x0, 0x0, 0x0, 0xFF003FFF⟩ /- MAC_LINKB -/,
   ⟨0x40015A04, 64, 0x8, 0x0, 0x0, 0x0, 0x0, 0x0, 0xFF003FFF⟩ /- MAC_LINKB live -/]

/-- The registers of TIME. -/
def rowsTIME : List RegRow :=
  [⟨0x40004FF0, 1, 0x0, 0x0, 0x0, 0x1C, 0x0, 0x0, 0xFFFFFF1F⟩ /- TIME_COMMIT -/,
   ⟨0x40004000, 1, 0x0, 0x0, 0x1, 0x0, 0x0, 0x0, 0xFC00FF01⟩ /- TIME_STAT -/,
   ⟨0x40004008, 1, 0x0, 0x0, 0x0, 0x0, 0x0, 0x0, 0xFFFFFFFF⟩ /- TIME_CNT_LO -/,
   ⟨0x4000400C, 1, 0x0, 0x0, 0x0, 0x0, 0x0, 0x0, 0xFFFFFFFF⟩ /- TIME_CNT_HI -/,
   ⟨0x40004010, 1, 0x0, 0x0, 0x0, 0x0, 0x0, 0x0, 0xFFFFFFFF⟩ /- TIME_NOW_LO -/,
   ⟨0x40004014, 1, 0x0, 0x0, 0x0, 0x0, 0x0, 0x0, 0xFFFFFFFF⟩ /- TIME_NOW_HI -/,
   ⟨0x40004018, 1, 0x0, 0x0, 0x0, 0x0, 0x0, 0x0, 0xFFFFFFFF⟩ /- TIME_NOWC_LO -/,
   ⟨0x4000401C, 1, 0x0, 0x0, 0x0, 0x0, 0x0, 0x0, 0xFFFFFFFF⟩ /- TIME_NOWC_HI -/,
   ⟨0x40004020, 1, 0x0, 0x0, 0x0, 0x0, 0x0, 0x0, 0xFFFFFFFF⟩ /- TIME_ADJ -/,
   ⟨0x40004024, 1, 0x0, 0x0, 0x0, 0x0, 0x0, 0x0, 0xFFFFFFFF⟩ /- TIME_SLEWREM -/,
   ⟨0x40004028, 1, 0x0, 0x0, 0xFFFFFFFF, 0x0, 0x0, 0x0, 0xFFFFFFFF⟩ /- TIME_CORR_LO -/,
   ⟨0x4000402C, 1, 0x0, 0x0, 0xFFFFFFFF, 0x0, 0x0, 0x0, 0xFFFFFFFF⟩ /- TIME_CORR_HI -/] ++
  [⟨0x40004030, 1, 0x0, 0x0, 0x0, 0x0, 0x0, 0x0, 0x300010F⟩ /- TIME_CMD -/,
   ⟨0x40004034, 1, 0x0, 0x3E8, 0xFFFFFFFF, 0x0, 0x0, 0x0, 0xFFFFFFFF⟩ /- TIME_JUMPMAX -/,
   ⟨0x40004040, 1, 0x0, 0x100401, 0x8EFF0F0F, 0x0, 0x0, 0x0, 0x8EFF0F0F⟩ /- TIME_SRVCFG -/,
   ⟨0x40004044, 1, 0x0, 0x3C041432, 0xFFFFFFFF, 0x0, 0x0, 0x0, 0xFFFFFFFF⟩ /- TIME_SRVLIM -/,
   ⟨0x40004048, 1, 0x0, 0x0, 0xFFFFFFFF, 0x0, 0x0, 0x0, 0xFFFFFFFF⟩ /- TIME_DLY -/,
   ⟨0x40004050, 3, 0x4, 0x80000000, 0x0, 0x0, 0x0, 0x0, 0xFFFFFFFF⟩ /- TIME_MEAS -/,
   ⟨0x40004060, 1, 0x0, 0x0, 0x0, 0x1F01FFFF, 0x0, 0x0, 0x1F01FFFF⟩ /- TIME_IRQ -/,
   ⟨0x40004064, 1, 0x0, 0x0, 0x1F01FFFF, 0x0, 0x0, 0x0, 0x1F01FFFF⟩ /- TIME_IRQEN -/,
   ⟨0x40004068, 1, 0x0, 0x0, 0x0, 0x0, 0xFFFFFFFF, 0x0, 0xFFFFFFFF⟩ /- TIME_ERRCNT -/,
   ⟨0x40004100, 7, 0x20, 0x0, 0xFFFBFFFF, 0x0, 0x0, 0x0, 0xFFFBFFFF⟩ /- TIME_CCTL -/,
   ⟨0x40004200, 7, 0x20, 0x0, 0x0, 0x0, 0x0, 0x0, 0xFFFBFFFF⟩ /- TIME_CCTL live -/,
   ⟨0x40004104, 7, 0x20, 0x0, 0xFFFFFFFF, 0x0, 0x0, 0x0, 0xFFFFFFFF⟩ /- TIME_CTGT_LO -/] ++
  [⟨0x40004204, 7, 0x20, 0x0, 0x0, 0x0, 0x0, 0x0, 0xFFFFFFFF⟩ /- TIME_CTGT_LO live -/,
   ⟨0x40004108, 7, 0x20, 0x0, 0xFFFFFFFF, 0x0, 0x0, 0x0, 0xFFFFFFFF⟩ /- TIME_CTGT_HI -/,
   ⟨0x40004208, 7, 0x20, 0x0, 0x0, 0x0, 0x0, 0x0, 0xFFFFFFFF⟩ /- TIME_CTGT_HI live -/,
   ⟨0x4000410C, 7, 0x20, 0x0, 0xFFFFFFFF, 0x0, 0x0, 0x0, 0xFFFFFFFF⟩ /- TIME_CPER_LO -/,
   ⟨0x4000420C, 7, 0x20, 0x0, 0x0, 0x0, 0x0, 0x0, 0xFFFFFFFF⟩ /- TIME_CPER_LO live -/,
   ⟨0x40004110, 7, 0x20, 0x0, 0xFFFFFFFF, 0x0, 0x0, 0x0, 0xFFFFFFFF⟩ /- TIME_CPER_HI -/,
   ⟨0x40004210, 7, 0x20, 0x0, 0x0, 0x0, 0x0, 0x0, 0xFFFFFFFF⟩ /- TIME_CPER_HI live -/,
   ⟨0x40004300, 7, 0x4, 0x0, 0x0, 0x40000000, 0xFFFFFF, 0x0, 0xC0FFFFFF⟩ /- TIME_CSTAT -/,
   ⟨0x40004400, 8, 0x20, 0x0, 0xB0FF0000, 0x80, 0x0, 0x0, 0xF0FF7F87⟩ /- TIME_CAPCFG -/,
   ⟨0x40004404, 8, 0x20, 0x0, 0x0, 0x0, 0x0, 0x0, 0xFFFFFFFF⟩ /- TIME_CAPC_LO -/,
   ⟨0x40004408, 8, 0x20, 0x0, 0x0, 0x0, 0x0, 0x0, 0xFFFFFFFF⟩ /- TIME_CAPC_HI -/,
   ⟨0x4000440C, 8, 0x20, 0x0, 0x0, 0x0, 0x0, 0x0, 0xFFFFFFFF⟩ /- TIME_CAPNT_LO -/] ++
  [⟨0x40004410, 8, 0x20, 0x0, 0x0, 0x0, 0x0, 0x0, 0xFFFFFFFF⟩ /- TIME_CAPNT_HI -/]

/-- The registers of RING. -/
def rowsRING : List RegRow :=
  [⟨0x40017FF0, 1, 0x0, 0x0, 0x0, 0x1C, 0x0, 0x0, 0xFFFFFF1F⟩ /- RING_COMMIT -/,
   ⟨0x40017000, 1, 0x0, 0x20000000, 0xE000000F, 0x0, 0x0, 0x0, 0xE000000F⟩ /- RING_CFG -/,
   ⟨0x40017004, 1, 0x0, 0x0, 0x0, 0x0, 0x0, 0x0, 0xFE1FFF00⟩ /- RING_STAT -/,
   ⟨0x40017010, 2, 0x4, 0x0, 0x0, 0x0, 0x0, 0x0, 0xF000FFFF⟩ /- RING_PORT -/,
   ⟨0x40017018, 1, 0x0, 0x0, 0x0, 0x0, 0x0, 0x0, 0xFFFFFFFF⟩ /- RING_LAT -/,
   ⟨0x40017020, 1, 0x0, 0x50200014, 0xFF3F003F, 0x0, 0x0, 0x0, 0xFF3F003F⟩ /- RING_PLAN -/,
   ⟨0x40017024, 1, 0x0, 0x50200014, 0x0, 0x0, 0x0, 0x0, 0xFF3F003F⟩ /- RING_PLAN live -/,
   ⟨0x40017028, 1, 0x0, 0x0, 0x0, 0x0, 0x0, 0x0, 0xFFFFFFFF⟩ /- RING_TREF_LO -/,
   ⟨0x4001702C, 1, 0x0, 0x0, 0x0, 0x0, 0x0, 0x0, 0xFFFFFFFF⟩ /- RING_TREF_HI -/,
   ⟨0x40017080, 1, 0x0, 0x0, 0x0, 0x0, 0x0, 0x0, 0xFFFFFFFF⟩ /- RING_TRXC_LO -/,
   ⟨0x40017084, 1, 0x0, 0x0, 0x0, 0x0, 0x0, 0x0, 0xFFFFFFFF⟩ /- RING_TRXC_HI -/,
   ⟨0x40017030, 1, 0x0, 0x0, 0xFFFFFF01, 0x0, 0x0, 0x0, 0xFFFFFF01⟩ /- RING_TXQBASE -/] ++
  [⟨0x40017038, 1, 0x0, 0x0, 0xFFFFF01F, 0x0, 0x0, 0x0, 0xFFFFF01F⟩ /- RING_RXQBASE -/,
   ⟨0x40017034, 1, 0x0, 0x0, 0xF00, 0x0, 0x0, 0x0, 0xF0F⟩ /- RING_TXQPTR -/,
   ⟨0x4001703C, 1, 0x0, 0x0, 0xFFFF0000, 0x0, 0x0, 0x0, 0xFFFFFFFF⟩ /- RING_RXQPTR -/,
   ⟨0x40017040, 1, 0x0, 0x0, 0x0, 0x1FF, 0x0, 0x0, 0x1FF⟩ /- RING_IRQ -/,
   ⟨0x40017044, 1, 0x0, 0x0, 0x1FF, 0x0, 0x0, 0x0, 0x1FF⟩ /- RING_IRQEN -/,
   ⟨0x40017050, 1, 0x0, 0x0, 0x0, 0x0, 0xFFFFFFFF, 0x0, 0xFFFFFFFF⟩ /- RING_CNT0 -/,
   ⟨0x40017054, 1, 0x0, 0x0, 0x0, 0x0, 0xFFFFFFFF, 0x0, 0xFFFFFFFF⟩ /- RING_CNT1 -/]

/-- The registers of BUS. -/
def rowsBUS : List RegRow :=
  [⟨0x40001000, 1, 0x0, 0x1, 0x3, 0x0, 0x0, 0x0, 0x3⟩ /- BUS_CTRL -/,
   ⟨0x40001004, 1, 0x0, 0x0, 0x0, 0x7, 0x0, 0x0, 0xFF07⟩ /- BUS_STAT -/,
   ⟨0x40001008, 1, 0x0, 0x0, 0x0, 0x0, 0x0, 0x0, 0xFFFFFFFF⟩ /- BUS_OFFADDR -/,
   ⟨0x4000100C, 1, 0x0, 0x0, 0x0, 0x0, 0x0, 0x0, 0x71F⟩ /- BUS_OFFINFO -/,
   ⟨0x40001010, 1, 0x0, 0x0, 0x0, 0x0, 0x0, 0x0, 0xFFFFFFFF⟩ /- BUS_FADDR -/,
   ⟨0x40001014, 1, 0x0, 0x0, 0x0, 0x80000000, 0x0, 0x0, 0x80000FCF⟩ /- BUS_FINFO -/]

/-- The registers of GPIO. -/
def rowsGPIO : List RegRow :=
  [⟨0x4000B0F0, 1, 0x0, 0x0, 0x0, 0x0, 0x0, 0x0, 0x7⟩ /- GPIO_STRAP -/,
   ⟨0x4000B020, 3, 0x4, 0x0, 0xFFFFFFFF, 0x0, 0x0, 0x0, 0xFFFFFFFF⟩ /- GPIO_FSEL -/,
   ⟨0x4000B000, 1, 0x0, 0x0, 0xFFFFFF, 0x0, 0x0, 0x0, 0xFFFFFF⟩ /- GPIO_DIR -/,
   ⟨0x4000B004, 1, 0x0, 0x0, 0xFFFFFF, 0x0, 0x0, 0x0, 0xFFFFFF⟩ /- GPIO_OUT -/,
   ⟨0x4000B008, 1, 0x0, 0x0, 0x0, 0x0, 0x0, 0x0, 0xFFFFFF⟩ /- GPIO_SET -/,
   ⟨0x4000B00C, 1, 0x0, 0x0, 0x0, 0x0, 0x0, 0x0, 0xFFFFFF⟩ /- GPIO_CLR -/,
   ⟨0x4000B010, 1, 0x0, 0x0, 0x0, 0x0, 0x0, 0x0, 0xFFFFFF⟩ /- GPIO_IN -/,
   ⟨0x4000B014, 1, 0x0, 0xFFFFFF, 0xFFFFFF, 0x0, 0x0, 0x0, 0xFFFFFF⟩ /- GPIO_PULLEN -/,
   ⟨0x4000B018, 1, 0x0, 0x1, 0xFFFFFF, 0x0, 0x0, 0x0, 0xFFFFFF⟩ /- GPIO_PULLSEL -/,
   ⟨0x4000B030, 1, 0x0, 0x0, 0xFFFFFF, 0x0, 0x0, 0x0, 0xFFFFFF⟩ /- GPIO_RISE -/,
   ⟨0x4000B034, 1, 0x0, 0x0, 0xFFFFFF, 0x0, 0x0, 0x0, 0xFFFFFF⟩ /- GPIO_FALL -/,
   ⟨0x4000B040, 1, 0x0, 0x0, 0x0, 0xFFFFFF, 0x0, 0x0, 0xFFFFFF⟩ /- GPIO_IRQ -/] ++
  [⟨0x4000B044, 1, 0x0, 0x0, 0xFFFFFF, 0x0, 0x0, 0x0, 0xFFFFFF⟩ /- GPIO_IRQEN -/]

/-- The registers of EVM. -/
def rowsEVM : List RegRow :=
  [⟨0x40003000, 24, 0x4, 0x0, 0x1FF, 0x0, 0x0, 0x0, 0x1FF⟩ /- EVM_SRC -/,
   ⟨0x40003080, 1, 0x0, 0x0, 0x0, 0x0, 0x0, 0x0, 0xFFFFFF⟩ /- EVM_SWPULSE -/,
   ⟨0x40003084, 1, 0x0, 0x0, 0x0, 0x0, 0x0, 0x0, 0xFFFFFF⟩ /- EVM_LEVEL -/]

/-- The registers of WDT. -/
def rowsWDT : List RegRow :=
  [⟨0x4000F000, 1, 0x0, 0x8000000, 0x0, 0x0, 0x0, 0xFFFF0003, 0xFFFF0003⟩ /- WDT_CTRL -/,
   ⟨0x4000F004, 1, 0x0, 0x0, 0x0, 0x0, 0x0, 0x0, 0xFFFFFFFF⟩ /- WDT_FEED -/]

/-- The registers of INTC. -/
def rowsINTC : List RegRow :=
  [⟨0x40002000, 2, 0x4, 0x0, 0xFFFFFFFF, 0x0, 0x0, 0x0, 0xFFFFFFFF⟩ /- INTC_EN -/,
   ⟨0x40002008, 2, 0x4, 0x0, 0x0, 0x0, 0x0, 0x0, 0xFFFFFFFF⟩ /- INTC_PEND -/,
   ⟨0x40002010, 1, 0x0, 0x0, 0x0, 0x0, 0x0, 0x0, 0xFFFF⟩ /- INTC_SW -/,
   ⟨0x40002020, 8, 0x4, 0x0, 0x77777777, 0x0, 0x0, 0x0, 0x77777777⟩ /- INTC_PRIO -/]

/-- The registers of WEFT. -/
def rowsWEFT : List RegRow :=
  [⟨0x40014000, 32, 0x80, 0xFF0001, 0x0, 0x10000000, 0x0, 0x0, 0x9FFF1F03⟩ /- WEFT_STAT -/,
   ⟨0x40014004, 32, 0x80, 0x0, 0x0, 0x0, 0x0, 0x0, 0xF01F3FFF⟩ /- WEFT_FAULT -/]

/-- The registers of RFRX. -/
def rowsRFRX : List RegRow :=
  [⟨0x40010010, 1, 0x0, 0x6720672, 0xFFF, 0x0, 0x0, 0x0, 0x8FFF0FFF⟩ /- RFRX_SPAN -/,
   ⟨0x40010020, 1, 0x0, 0x80008, 0xF0F00, 0x0, 0x0, 0x0, 0xF0F0F⟩ /- RFRX_GAIN -/,
   ⟨0x40010024, 1, 0x0, 0x4, 0x1F, 0x0, 0xFFFF0000, 0x0, 0xFFFF001F⟩ /- RFRX_CLIP -/,
   ⟨0x40010030, 1, 0x0, 0x320A0431, 0xFF1FFF73, 0x0, 0x0, 0x0, 0xFF1FFF73⟩ /- RFRX_TRIMCFG -/,
   ⟨0x40010034, 1, 0x0, 0x0, 0xFFFF, 0x0, 0x0, 0x0, 0xFFFF⟩ /- RFRX_TRIM -/,
   ⟨0x40010038, 1, 0x0, 0x0, 0x0, 0x0, 0x0, 0x0, 0xFFFFFF00⟩ /- RFRX_TRIMSTAT -/,
   ⟨0x40010040, 1, 0x0, 0x0, 0x0, 0x0, 0x0, 0x0, 0x10F⟩ /- RFRX_CALREQ -/,
   ⟨0x40010044, 1, 0x0, 0xA, 0xFFFF001F, 0x0, 0x0, 0x0, 0xFFFF001F⟩ /- RFRX_CALCFG -/,
   ⟨0x40010048, 1, 0x0, 0x0, 0x0, 0x10003F00, 0x0, 0x0, 0xF00F3F00⟩ /- RFRX_CALSTAT -/,
   ⟨0x4001004C, 1, 0x0, 0x0, 0x0, 0x0, 0x0, 0x0, 0xFFFFFFFF⟩ /- RFRX_TEMP -/,
   ⟨0x40010050, 1, 0x0, 0x0, 0x0, 0x7F, 0x0, 0x0, 0x7F⟩ /- RFRX_IRQ -/,
   ⟨0x40010054, 1, 0x0, 0x0, 0x7F, 0x0, 0x0, 0x0, 0x7F⟩ /- RFRX_IRQEN -/] ++
  [⟨0x40010060, 1, 0x0, 0x0, 0xFFFF, 0x0, 0x0, 0x0, 0xFFFF⟩ /- RFRX_RSSIOFS -/]

/-- The registers of RFTX. -/
def rowsRFTX : List RegRow :=
  [⟨0x40011000, 1, 0x0, 0xF01, 0xFF07, 0x0, 0x0, 0x0, 0xFF07⟩ /- RFTX_CTRL -/,
   ⟨0x40011004, 1, 0x0, 0x0, 0x0, 0x0, 0x0, 0x0, 0xFF0000FF⟩ /- RFTX_STAT -/,
   ⟨0x40011010, 1, 0x0, 0x3C, 0xFF, 0x0, 0x0, 0x0, 0xFF0000FF⟩ /- RFTX_PWR -/,
   ⟨0x40011020, 1, 0x0, 0x1048142, 0xFFFFFFFF, 0x0, 0x0, 0x0, 0xFFFFFFFF⟩ /- RFTX_SEQ -/,
   ⟨0x40011024, 1, 0x0, 0x32, 0xE000FFFF, 0x0, 0x0, 0x0, 0xE000FFFF⟩ /- RFTX_COEX -/,
   ⟨0x40011030, 1, 0x0, 0x8000060C, 0x8000FFFF, 0x0, 0x0, 0x0, 0x8000FFFF⟩ /- RFTX_MISM -/,
   ⟨0x40011034, 1, 0x0, 0x0, 0x0, 0x0, 0x0, 0x0, 0xC0FF03FF⟩ /- RFTX_RL -/,
   ⟨0x40011040, 16, 0x4, 0x0, 0xFFFFFFFF, 0x0, 0x0, 0x0, 0xFFFFFFFF⟩ /- RFTX_FIR -/,
   ⟨0x40011080, 8, 0x4, 0x0, 0xFFFF, 0x0, 0x0, 0x0, 0xFFFF⟩ /- RFTX_TCOMP -/,
   ⟨0x400110A0, 8, 0x4, 0x0, 0x8FFFF3FF, 0x0, 0x0, 0x0, 0x8FFFF3FF⟩ /- RFTX_TUNE -/,
   ⟨0x400110D0, 1, 0x0, 0x0, 0x0, 0x0, 0x0, 0x0, 0x3⟩ /- RFTX_CALREQ -/,
   ⟨0x400110E0, 1, 0x0, 0x0, 0x0, 0x7F, 0x0, 0x0, 0x7F⟩ /- RFTX_IRQ -/] ++
  [⟨0x400110E4, 1, 0x0, 0x0, 0x7F, 0x0, 0x0, 0x0, 0x7F⟩ /- RFTX_IRQEN -/,
   ⟨0x400110F0, 1, 0x0, 0x0, 0x0, 0x0, 0xFFFFFFFF, 0x0, 0xFFFFFFFF⟩ /- RFTX_CNT0 -/,
   ⟨0x400110F4, 1, 0x0, 0x0, 0x0, 0x0, 0xFFFFFFFF, 0x0, 0xFFFFFFFF⟩ /- RFTX_CNT1 -/,
   ⟨0x40011100, 4, 0x4, 0x0, 0x0, 0x0, 0x0, 0x0, 0xFFFFFFFF⟩ /- RFTX_DUTY -/]

/-- The registers of ZEPH. -/
def rowsZEPH : List RegRow :=
  [⟨0x40016000, 1, 0x0, 0x1006F2C, 0x8700FFFF, 0x0, 0x0, 0x0, 0x8700FFFF⟩ /- ZEPH_CTRL -/,
   ⟨0x40016010, 8, 0x4, 0x0, 0x8000FFFF, 0x0, 0x0, 0x0, 0x8000FFFF⟩ /- ZEPH_ADDR -/,
   ⟨0x40016030, 1, 0x0, 0x140000, 0x3FF007F, 0x0, 0x0, 0x0, 0x3FF007F⟩ /- ZEPH_HAND -/,
   ⟨0x40016034, 1, 0x0, 0x0, 0x0, 0x0, 0xFFFFFF00, 0x0, 0xFFFFFF70⟩ /- ZEPH_STAT -/,
   ⟨0x40016038, 1, 0x0, 0x0, 0x0, 0x1, 0x0, 0x0, 0x1⟩ /- ZEPH_IRQ -/,
   ⟨0x4001603C, 1, 0x0, 0x0, 0x1, 0x0, 0x0, 0x0, 0x1⟩ /- ZEPH_IRQEN -/]

/-- The registers of SEC. -/
def rowsSEC : List RegRow :=
  [⟨0x4000C000, 1, 0x0, 0x100000F, 0x3FF000F, 0x0, 0x0, 0x80000000, 0x83FF000F⟩ /- SEC_CFG -/,
   ⟨0x4000C004, 1, 0x0, 0x0, 0x0, 0x0, 0x0, 0x0, 0xFF⟩ /- SEC_STAT -/,
   ⟨0x4000C010, 1, 0x0, 0x0, 0xFFFFFE01, 0x0, 0x0, 0x0, 0xFFFFFE01⟩ /- SEC_CMDBASE -/,
   ⟨0x4000C014, 1, 0x0, 0x0, 0xF00, 0x0, 0x0, 0x0, 0xF0F⟩ /- SEC_CMDPTR -/,
   ⟨0x4000C020, 1, 0x0, 0x0, 0x0, 0x3F, 0x0, 0x0, 0x3F⟩ /- SEC_IRQ -/,
   ⟨0x4000C024, 1, 0x0, 0x0, 0x3F, 0x0, 0x0, 0x0, 0x3F⟩ /- SEC_IRQEN -/,
   ⟨0x4000C030, 1, 0x0, 0x0, 0xFFFFFFFF, 0x0, 0x0, 0x0, 0xFFFFFFFF⟩ /- SEC_EPOCH -/,
   ⟨0x4000C040, 1, 0x0, 0x0, 0x91FF001F, 0x0, 0x0, 0x0, 0x91FF001F⟩ /- SEC_LEDGER -/,
   ⟨0x4000C044, 1, 0x0, 0x0, 0x0, 0x0, 0xFF000000, 0x0, 0xFF0F007F⟩ /- SEC_LEDSTAT -/,
   ⟨0x4000C050, 1, 0x0, 0x0, 0x0, 0x0, 0x0, 0x0, 0xFFFFFFFF⟩ /- SEC_WKCV -/,
   ⟨0x4000C060, 4, 0x8, 0x0, 0xFFFFF1E1, 0x0, 0x0, 0x0, 0xFFFFF1E1⟩ /- SEC_XTSA -/,
   ⟨0x4000C064, 4, 0x8, 0x0, 0xFFFFF000, 0x0, 0x0, 0x0, 0xFFFFF000⟩ /- SEC_XTSB -/] ++
  [⟨0x4000C080, 1, 0x0, 0x7, 0x0, 0x0, 0x0, 0x10F, 0x10F⟩ /- SEC_ALMCFG -/,
   ⟨0x4000C084, 1, 0x0, 0x0, 0x0, 0x0, 0x0, 0x0, 0xFFFF010F⟩ /- SEC_ALMSTAT -/,
   ⟨0x4000C090, 1, 0x0, 0x0, 0x80003777, 0x0, 0x0, 0x0, 0x80003777⟩ /- SEC_BNCMD -/,
   ⟨0x4000C100, 32, 0x4, 0x0, 0x0, 0x0, 0x0, 0x0, 0xDFFFFFFF⟩ /- SEC_KSTAT -/,
   ⟨0x4000C180, 32, 0x4, 0x0, 0x0, 0x0, 0x0, 0x0, 0xFFFFFFFF⟩ /- SEC_CNEXT -/,
   ⟨0x4000C200, 32, 0x4, 0x0, 0x0, 0x0, 0x0, 0x0, 0xFFFFFC03⟩ /- SEC_CRES -/]

/-- The registers of TBL. -/
def rowsTBL : List RegRow :=
  [⟨0x4000D000, 1, 0x0, 0x10001000, 0x1FFF1FFF, 0x0, 0x0, 0x0, 0x1FFF1FFF⟩ /- TBL_SPLIT -/,
   ⟨0x4000D004, 1, 0x0, 0x0, 0x0, 0x0, 0x0, 0x0, 0x1FFF1FFF⟩ /- TBL_COUNT -/,
   ⟨0x4000D008, 1, 0x0, 0x2, 0x7, 0x0, 0x0, 0x0, 0x7⟩ /- TBL_CFG -/,
   ⟨0x4000D00C, 1, 0x0, 0x7080E10, 0xFFFFFFFF, 0x0, 0x0, 0x0, 0xFFFFFFFF⟩ /- TBL_AGE -/,
   ⟨0x4000D010, 1, 0x0, 0x0, 0x0, 0x0, 0x0, 0x0, 0xF3111FFF⟩ /- TBL_CMD -/,
   ⟨0x4000D014, 1, 0x0, 0x0, 0x0, 0x0, 0x0, 0x0, 0x9FFF00FF⟩ /- TBL_RES -/,
   ⟨0x4000D018, 1, 0x0, 0x0, 0xFFFFFFFF, 0x0, 0x0, 0x0, 0xFFFFFFFF⟩ /- TBL_KEY_LO -/,
   ⟨0x4000D01C, 1, 0x0, 0x0, 0xFFFFFFFF, 0x0, 0x0, 0x0, 0xFFFFFFFF⟩ /- TBL_KEY_HI -/,
   ⟨0x4000D020, 8, 0x4, 0x0, 0xFFFFFFFF, 0x0, 0x0, 0x0, 0xFFFFFFFF⟩ /- TBL_DATA -/,
   ⟨0x4000D040, 1, 0x0, 0x0, 0x0, 0x1F, 0x0, 0x0, 0x1F⟩ /- TBL_IRQ -/,
   ⟨0x4000D044, 1, 0x0, 0x0, 0x1F, 0x0, 0x0, 0x0, 0x1F⟩ /- TBL_IRQEN -/,
   ⟨0x4000D048, 1, 0x0, 0x0, 0x0, 0x0, 0x0, 0x0, 0xFFFFFFFF⟩ /- TBL_AGECNT -/]

/-- The registers of RTC. -/
def rowsRTC : List RegRow :=
  [⟨0x40005000, 1, 0x0, 0x0, 0xFFFFFFFF, 0x0, 0x0, 0x0, 0xFFFFFFFF⟩ /- RTC_SEC -/,
   ⟨0x40005004, 1, 0x0, 0x0, 0x0, 0x0, 0x0, 0x0, 0x7FFF⟩ /- RTC_FRAC -/,
   ⟨0x40005008, 1, 0x0, 0x0, 0x1F3F3F, 0x0, 0x0, 0x0, 0x1F3F3F⟩ /- RTC_CALT -/,
   ⟨0x4000500C, 1, 0x0, 0x6000101, 0xFF0F1F, 0x0, 0x0, 0x0, 0x7FF0F1F⟩ /- RTC_CALD -/,
   ⟨0x40005010, 1, 0x0, 0x0, 0x3FFFF, 0x0, 0x0, 0x0, 0x3FFFF⟩ /- RTC_CALOFS -/,
   ⟨0x40005014, 1, 0x0, 0x0, 0x1, 0x0, 0x0, 0x0, 0x1⟩ /- RTC_CFG -/,
   ⟨0x40005018, 1, 0x0, 0x1, 0x0, 0x10F, 0x0, 0x0, 0x3FF⟩ /- RTC_STAT -/,
   ⟨0x40005020, 1, 0x0, 0x0, 0xFFFFFFFF, 0x0, 0x0, 0x0, 0xFFFFFFFF⟩ /- RTC_ALMSEC -/,
   ⟨0x40005024, 1, 0x0, 0x0, 0x80007FFF, 0x0, 0x0, 0x0, 0xC0007FFF⟩ /- RTC_ALMCTL -/,
   ⟨0x40005028, 1, 0x0, 0xFF, 0x80FFFFFF, 0x0, 0x0, 0x0, 0x80FFFFFF⟩ /- RTC_PER -/,
   ⟨0x40005030, 1, 0x0, 0x8220, 0x3FFFF, 0x0, 0x0, 0x0, 0x3FFFF⟩ /- RTC_TRIMCFG -/,
   ⟨0x40005034, 1, 0x0, 0x0, 0x3FFF, 0x0, 0x0, 0x0, 0x3FFF⟩ /- RTC_TRIM -/] ++
  [⟨0x40005038, 1, 0x0, 0x0, 0x0, 0x0, 0xFF, 0x0, 0xFFFF00FF⟩ /- RTC_TRIMSTAT -/,
   ⟨0x4000503C, 1, 0x0, 0x0, 0x0, 0x0, 0x0, 0x0, 0x1⟩ /- RTC_CMD -/,
   ⟨0x40005040, 1, 0x0, 0x0, 0x133, 0x0, 0x0, 0x0, 0xFF000133⟩ /- RTC_CHG -/,
   ⟨0x40005050, 1, 0x0, 0x0, 0x0, 0x7F, 0x0, 0x0, 0x7F⟩ /- RTC_IRQ -/,
   ⟨0x40005054, 1, 0x0, 0x0, 0x7F, 0x0, 0x0, 0x0, 0x7F⟩ /- RTC_IRQEN -/]

/-- The registers of TMR. -/
def rowsTMR : List RegRow :=
  [⟨0x40006000, 8, 0x40, 0x3000000, 0xFFFFFFCF, 0x0, 0x0, 0x0, 0xFFFFFFCF⟩ /- TMR_CTRL -/,
   ⟨0x40006004, 8, 0x40, 0xFFFFFFFF, 0xFFFFFFFF, 0x0, 0x0, 0x0, 0xFFFFFFFF⟩ /- TMR_RELOAD -/,
   ⟨0x40006008, 8, 0x40, 0x0, 0x0, 0x0, 0x0, 0x0, 0xFFFFFFFF⟩ /- TMR_COUNT -/,
   ⟨0x4000600C, 8, 0x40, 0x0, 0xFFFFFFFF, 0x0, 0x0, 0x0, 0xFFFFFFFF⟩ /- TMR_CMP0 -/,
   ⟨0x40006010, 8, 0x40, 0x0, 0xFFFFFFFF, 0x0, 0x0, 0x0, 0xFFFFFFFF⟩ /- TMR_CMP1 -/,
   ⟨0x40006014, 8, 0x40, 0x0, 0x0, 0x0, 0x0, 0x0, 0xFFFFFFFF⟩ /- TMR_CAP -/,
   ⟨0x40006018, 8, 0x40, 0x0, 0x0, 0x37, 0xFF0000, 0x0, 0xFF01FF⟩ /- TMR_STAT -/,
   ⟨0x4000601C, 8, 0x40, 0x0, 0x3F, 0x0, 0x0, 0x0, 0x3F⟩ /- TMR_IEN -/,
   ⟨0x40006020, 8, 0x40, 0x0, 0x0, 0x0, 0x0, 0x0, 0x1⟩ /- TMR_CMD -/]

/-- The registers of MSU. -/
def rowsMSU : List RegRow :=
  [⟨0x40007000, 1, 0x0, 0x140F08, 0xF0FF0FFF, 0x0, 0x0, 0x0, 0xF0FF0FFF⟩ /- MSU_CFG -/,
   ⟨0x40007004, 1, 0x0, 0x0, 0x0, 0x0, 0x0, 0x0, 0xC000003F⟩ /- MSU_STAT -/,
   ⟨0x40007008, 1, 0x0, 0x0, 0x0, 0x0, 0x0, 0x0, 0xFFFFFFFF⟩ /- MSU_SCAN -/,
   ⟨0x4000700C, 1, 0x0, 0x0, 0x0, 0x0, 0x0, 0x0, 0x8001FFFF⟩ /- MSU_FREQ -/,
   ⟨0x40007010, 1, 0x0, 0x0, 0x0, 0x0, 0x0, 0x0, 0x87FFFFFF⟩ /- MSU_FAVG10 -/,
   ⟨0x40007014, 1, 0x0, 0x0, 0x0, 0x0, 0x0, 0x0, 0x87FFFFFF⟩ /- MSU_FAVG600 -/,
   ⟨0x40007018, 1, 0x0, 0x0, 0x0, 0x0, 0x0, 0x0, 0xFFFFFFFF⟩ /- MSU_FCNT -/,
   ⟨0x40007020, 1, 0x0, 0x0, 0x0, 0x0, 0x0, 0x0, 0xFFFFFFFF⟩ /- MSU_RMS0 -/,
   ⟨0x40007024, 1, 0x0, 0x0, 0x0, 0x0, 0x0, 0x0, 0xFFFFFFFF⟩ /- MSU_RMS1 -/,
   ⟨0x40007030, 1, 0x0, 0x0, 0xFFFF, 0x0, 0x0, 0x0, 0xFFFF⟩ /- MSU_NOM -/,
   ⟨0x40007034, 1, 0x0, 0x6E5A0A02, 0xFFFFFFFF, 0x0, 0x0, 0x0, 0xFFFFFFFF⟩ /- MSU_THR -/,
   ⟨0x40007040, 1, 0x0, 0x0, 0xFFFFF017, 0x0, 0x0, 0x0, 0xFFFFF017⟩ /- MSU_SRING -/] ++
  [⟨0x40007044, 1, 0x0, 0x0, 0xFFFFF801, 0x0, 0x0, 0x0, 0xFFFFF801⟩ /- MSU_HRING -/,
   ⟨0x40007048, 1, 0x0, 0x0, 0x3F0000, 0x0, 0xFF000000, 0x0, 0xFF3F003F⟩ /- MSU_HPTR -/,
   ⟨0x40007050, 1, 0x0, 0x0, 0x0, 0xFF, 0x0, 0x0, 0xFF⟩ /- MSU_IRQ -/,
   ⟨0x40007054, 1, 0x0, 0x0, 0xFF, 0x0, 0x0, 0x0, 0xFF⟩ /- MSU_IRQEN -/,
   ⟨0x40007058, 1, 0x0, 0x0, 0x0, 0x0, 0xFFFFFFFF, 0x0, 0xFFFFFFFF⟩ /- MSU_CNT -/]

/-- The registers of NVM. -/
def rowsNVM : List RegRow :=
  [⟨0x40008000, 1, 0x0, 0xC0000018, 0xC00000FF, 0x0, 0x0, 0x0, 0xC00000FF⟩ /- NVM_CTRL -/,
   ⟨0x40008004, 1, 0x0, 0x0, 0x0, 0x1, 0x0, 0x0, 0x800103FD⟩ /- NVM_STAT -/,
   ⟨0x40008008, 1, 0x0, 0x0, 0x3, 0x0, 0x0, 0x0, 0x3⟩ /- NVM_SUSP -/,
   ⟨0x40008010, 1, 0x0, 0x0, 0xFFFFFFFF, 0x0, 0x0, 0x0, 0xFFFFFFFF⟩ /- NVM_ADDR -/,
   ⟨0x40008014, 1, 0x0, 0x0, 0xFFFFFFFF, 0x0, 0x0, 0x0, 0xFFFFFFFF⟩ /- NVM_SRC -/,
   ⟨0x40008018, 1, 0x0, 0x0, 0xFFFFFFFF, 0x0, 0x0, 0x0, 0xFFFFFFFF⟩ /- NVM_OTPDATA -/,
   ⟨0x4000801C, 1, 0x0, 0x0, 0x0, 0x0, 0x0, 0x0, 0xF000007F⟩ /- NVM_CMD -/,
   ⟨0x40008020, 1, 0x0, 0x0, 0x0, 0x0, 0x0, 0x0, 0x8000FFFF⟩ /- NVM_CMDSTAT -/,
   ⟨0x40008024, 2, 0x4, 0x0, 0x0, 0x0, 0x0, 0x0, 0xC1FF00FF⟩ /- NVM_ESTAT -/,
   ⟨0x40008030, 1, 0x0, 0x0, 0x0, 0x0, 0x0, 0x0, 0xC3FF7F07⟩ /- NVM_LASTECC -/,
   ⟨0x40008034, 1, 0x0, 0x2, 0x7, 0x0, 0x0, 0x0, 0x7⟩ /- NVM_EW_THRESH -/,
   ⟨0x40008038, 1, 0x0, 0x0, 0x0, 0x0, 0xFFFFFFFF, 0x0, 0xFFFFFFFF⟩ /- NVM_ECCCNT -/] ++
  [⟨0x4000803C, 1, 0x0, 0x0, 0x0, 0x0, 0x0, 0x0, 0xFFFFFFFF⟩ /- NVM_ECCADDR -/,
   ⟨0x40008040, 1, 0x0, 0x0, 0x0, 0x0, 0xFF00, 0x0, 0xFF0F⟩ /- NVM_PVCOUNT -/,
   ⟨0x40008050, 1, 0x0, 0x0, 0x0, 0x0, 0x0, 0x0, 0x81FFFFFF⟩ /- NVM_SCRUB -/,
   ⟨0x40008054, 1, 0x0, 0x0, 0xFFFFFC01, 0x0, 0x0, 0x0, 0xFFFFFC01⟩ /- NVM_SCRLOG -/,
   ⟨0x40008060, 1, 0x0, 0x0, 0x0, 0x0, 0x0, 0x0, 0x1F1F1F1F⟩ /- NVM_SPARE -/,
   ⟨0x40008064, 1, 0x0, 0x0, 0x3FF, 0x0, 0x0, 0x0, 0x3FF⟩ /- NVM_WEARSEL -/,
   ⟨0x40008068, 1, 0x0, 0x0, 0x0, 0x0, 0x0, 0x0, 0xFFFFFFFF⟩ /- NVM_WEARCNT -/,
   ⟨0x4000806C, 1, 0x0, 0x0, 0x0, 0x0, 0x0, 0x0, 0xFFFFFFFF⟩ /- NVM_WEARMAX -/,
   ⟨0x40008080, 1, 0x0, 0x0, 0x0, 0xFFF, 0x0, 0x0, 0xFFF⟩ /- NVM_IRQ -/,
   ⟨0x40008084, 1, 0x0, 0x0, 0xFFF, 0x0, 0x0, 0x0, 0xFFF⟩ /- NVM_IRQEN -/]

/-- The registers of SPIM. -/
def rowsSPIM : List RegRow :=
  [⟨0x40009000, 1, 0x0, 0x103, 0xC000033F, 0x0, 0x0, 0x0, 0xC000033F⟩ /- SPIM_CFG -/,
   ⟨0x40009004, 1, 0x0, 0x40, 0x7F, 0x0, 0x0, 0x0, 0x7F⟩ /- SPIM_MAP -/,
   ⟨0x40009010, 2, 0x4, 0x311, 0xFFF, 0x0, 0x0, 0x0, 0xFFF⟩ /- SPIM_DLY -/,
   ⟨0x40009020, 2, 0x8, 0x602EB, 0x1F07FF, 0x0, 0x0, 0x0, 0x1F07FF⟩ /- SPIM_RD -/,
   ⟨0x40009024, 2, 0x8, 0x50602, 0xF7FFFFFF, 0x0, 0x0, 0x0, 0xF7FFFFFF⟩ /- SPIM_WR -/,
   ⟨0x40009030, 1, 0x0, 0x7D0000A, 0xFFF00FF, 0x0, 0x0, 0x0, 0xFFF00FF⟩ /- SPIM_POLL -/,
   ⟨0x40009040, 1, 0x0, 0x0, 0x0, 0x0, 0x0, 0x0, 0xE7000000⟩ /- SPIM_STAT -/,
   ⟨0x40009050, 1, 0x0, 0x0, 0x7FFFFBFF, 0x0, 0x0, 0x0, 0xFFFFFBFF⟩ /- SPIM_DCMD -/,
   ⟨0x40009054, 1, 0x0, 0x0, 0xFFFFFFFF, 0x0, 0x0, 0x0, 0xFFFFFFFF⟩ /- SPIM_DADDR -/,
   ⟨0x40009058, 1, 0x0, 0x0, 0xFFFFFFFC, 0x0, 0x0, 0x0, 0xFFFFFFFC⟩ /- SPIM_DBUF -/,
   ⟨0x40009060, 1, 0x0, 0x0, 0x0, 0x1F, 0x0, 0x0, 0x1F⟩ /- SPIM_IRQ -/,
   ⟨0x40009064, 1, 0x0, 0x0, 0x1F, 0x0, 0x0, 0x0, 0x1F⟩ /- SPIM_IRQEN -/] ++
  [⟨0x40009068, 1, 0x0, 0x0, 0x0, 0x0, 0xFFFFFFFF, 0x0, 0xFFFFFFFF⟩ /- SPIM_CNT -/]

/-- The registers of SPIS. -/
def rowsSPIS : List RegRow :=
  [⟨0x4000A000, 1, 0x0, 0x0, 0x80000000, 0x0, 0x0, 0x0, 0x80000000⟩ /- SPIS_CTRL -/,
   ⟨0x4000A004, 1, 0x0, 0x0, 0x0, 0x0, 0x0, 0x0, 0xE00FFF07⟩ /- SPIS_STAT -/,
   ⟨0x4000A008, 1, 0x0, 0x0, 0xFF, 0x0, 0x0, 0x0, 0x3FF⟩ /- SPIS_ATTN -/,
   ⟨0x4000A00C, 1, 0x0, 0x3FF, 0x3FF, 0x0, 0x0, 0x0, 0x3FF⟩ /- SPIS_ATTNEN -/,
   ⟨0x4000A010, 2, 0x8, 0x0, 0xFFFFF013, 0x0, 0x0, 0x0, 0xFFFFF013⟩ /- SPIS_MBBASE -/,
   ⟨0x4000A014, 2, 0x8, 0x0, 0xFFFFFFFF, 0x0, 0x0, 0x0, 0xFFFFFFFF⟩ /- SPIS_MBPTR -/,
   ⟨0x4000A030, 1, 0x0, 0x0, 0x0, 0x0, 0xFFFFFFFF, 0x0, 0xFFFFFFFF⟩ /- SPIS_CNT0 -/,
   ⟨0x4000A034, 1, 0x0, 0x0, 0x0, 0x0, 0xFFFF, 0x0, 0xFFFF⟩ /- SPIS_CNT1 -/,
   ⟨0x4000A040, 1, 0x0, 0x0, 0x0, 0xF, 0x0, 0x0, 0xF⟩ /- SPIS_IRQ -/,
   ⟨0x4000A044, 1, 0x0, 0x0, 0xF, 0x0, 0x0, 0x0, 0xF⟩ /- SPIS_IRQEN -/]

/-- The registers of DICT. -/
def rowsDICT : List RegRow :=
  [⟨0x40019000, 1, 0x0, 0x3208, 0xC000FFFF, 0x0, 0x0, 0x0, 0xC000FFFF⟩ /- DICT_CTRL -/,
   ⟨0x40019004, 1, 0x0, 0x0, 0x0, 0x0, 0x0, 0x0, 0xFE000F0F⟩ /- DICT_STAT -/,
   ⟨0x40019008, 1, 0x0, 0x0, 0x0, 0x0, 0x0, 0x0, 0xFFFFFFFF⟩ /- DICT_GEN -/,
   ⟨0x4001900C, 1, 0x0, 0x0, 0x1F, 0x0, 0x0, 0x0, 0x1F1F⟩ /- DICT_TKHOLD -/,
   ⟨0x40019010, 1, 0x0, 0x0, 0x91FF003F, 0x0, 0x0, 0x0, 0x91FF003F⟩ /- DICT_STORE -/,
   ⟨0x40019014, 1, 0x0, 0x0, 0xFFFF8001, 0x0, 0x0, 0x0, 0xFFFF8001⟩ /- DICT_BUFBASE -/,
   ⟨0x40019018, 1, 0x0, 0x0, 0xFFFFFFF1, 0x0, 0x0, 0x0, 0xFFFFFFF1⟩ /- DICT_APPBASE -/,
   ⟨0x4001901C, 1, 0x0, 0x0, 0x7FF, 0x0, 0x0, 0x0, 0x7FF⟩ /- DICT_APPN -/,
   ⟨0x40019020, 1, 0x0, 0x0, 0xFFFFFF81, 0x0, 0x0, 0x0, 0xFFFFFF81⟩ /- DICT_MQBASE -/,
   ⟨0x40019024, 1, 0x0, 0x0, 0x700, 0x0, 0x0, 0x0, 0x707⟩ /- DICT_MQPTR -/,
   ⟨0x40019030, 1, 0x0, 0x0, 0x0, 0x0, 0x0, 0x0, 0x800003FF⟩ /- DICT_CB -/,
   ⟨0x40019034, 1, 0x0, 0x0, 0x0, 0x0, 0x0, 0x0, 0x800001FF⟩ /- DICT_CBRES -/] ++
  [⟨0x40019038, 1, 0x0, 0x0, 0x0, 0x0, 0x0, 0x0, 0xFFFFFFFF⟩ /- DICT_RESTERR -/,
   ⟨0x40019040, 1, 0x0, 0x0, 0x0, 0x7F, 0x0, 0x0, 0x7F⟩ /- DICT_IRQ -/,
   ⟨0x40019044, 1, 0x0, 0x0, 0x7F, 0x0, 0x0, 0x0, 0x7F⟩ /- DICT_IRQEN -/,
   ⟨0x40019050, 1, 0x0, 0x0, 0x0, 0x0, 0xFFFFFFFF, 0x0, 0xFFFFFFFF⟩ /- DICT_CNT -/]

/-- The registers of TWIL. -/
def rowsTWIL : List RegRow :=
  [⟨0x40018000, 1, 0x0, 0x50100A02, 0xF0FFFF3F, 0x0, 0x0, 0x0, 0xF0FFFF3F⟩ /- TWIL_CFG -/,
   ⟨0x40018004, 1, 0x0, 0x0, 0x0, 0x0, 0x0, 0x0, 0xFFC000FF⟩ /- TWIL_STAT -/,
   ⟨0x40018008, 1, 0x0, 0x0, 0x0, 0x0, 0x0, 0x0, 0xE0000000⟩ /- TWIL_CMD -/,
   ⟨0x40018010, 1, 0x0, 0x0, 0xFFFFFFFF, 0x0, 0x0, 0x0, 0xFFFFFFFF⟩ /- TWIL_PAIRADDR_LO -/,
   ⟨0x40018014, 1, 0x0, 0x0, 0xFFFFFFFF, 0x0, 0x0, 0x0, 0xFFFFFFFF⟩ /- TWIL_PAIRADDR_HI -/,
   ⟨0x40018018, 1, 0x0, 0x80000000, 0x0, 0x0, 0x0, 0x0, 0xFFFFFFFF⟩ /- TWIL_TOFS -/,
   ⟨0x4001801C, 1, 0x0, 0x0, 0x0, 0x0, 0x0, 0x0, 0x8000FFFF⟩ /- TWIL_DELAY -/,
   ⟨0x40018020, 1, 0x0, 0x0, 0xFFFF8001, 0x0, 0x0, 0x0, 0xFFFF8001⟩ /- TWIL_HOLD -/,
   ⟨0x40018030, 1, 0x0, 0x0, 0x0, 0x3FF, 0x0, 0x0, 0x3FF⟩ /- TWIL_IRQ -/,
   ⟨0x40018034, 1, 0x0, 0x0, 0x3FF, 0x0, 0x0, 0x0, 0x3FF⟩ /- TWIL_IRQEN -/,
   ⟨0x40018040, 1, 0x0, 0x0, 0x0, 0x0, 0xFFFFFFFF, 0x0, 0xFFFFFFFF⟩ /- TWIL_CNT0 -/,
   ⟨0x40018044, 1, 0x0, 0x0, 0x0, 0x0, 0xFFFFFFFF, 0x0, 0xFFFFFFFF⟩ /- TWIL_CNT1 -/]

/-- The registers of EVR. -/
def rowsEVR : List RegRow :=
  [⟨0x4000E000, 1, 0x0, 0x8000000A, 0xC00000FF, 0x0, 0x0, 0x0, 0xC00000FF⟩ /- EVR_CFG -/,
   ⟨0x4000E004, 1, 0x0, 0x91840040, 0x91FF007F, 0x0, 0x0, 0x0, 0x91FF007F⟩ /- EVR_STORE -/,
   ⟨0x4000E008, 1, 0x0, 0x0, 0x0, 0x0, 0x0, 0x0, 0xF000001F⟩ /- EVR_STAT -/,
   ⟨0x4000E00C, 1, 0x0, 0x0, 0x0, 0x0, 0x0, 0x0, 0xFFFFFFFF⟩ /- EVR_SEQ -/,
   ⟨0x4000E010, 1, 0x0, 0x0, 0x0, 0x0, 0x0, 0x0, 0x3F007F⟩ /- EVR_POS -/,
   ⟨0x4000E014, 1, 0x0, 0x0, 0x0, 0x0, 0x0, 0x0, 0xFFFFFFFF⟩ /- EVR_OPSEC -/,
   ⟨0x4000E018, 1, 0x0, 0x0, 0x0, 0x0, 0x0, 0x0, 0xFFFFFF⟩ /- EVR_PCYC -/,
   ⟨0x4000E020, 4, 0x4, 0x0, 0xFFFFFFFF, 0x0, 0x0, 0x0, 0xFFFFFFFF⟩ /- EVR_RPTARG -/,
   ⟨0x4000E030, 1, 0x0, 0x0, 0x0, 0x0, 0x0, 0x0, 0x8F0F07FF⟩ /- EVR_RPT -/,
   ⟨0x4000E034, 1, 0x0, 0x0, 0xFFFFFFFF, 0x0, 0x0, 0x0, 0xFFFFFFFF⟩ /- EVR_VADDR -/,
   ⟨0x4000E038, 1, 0x0, 0x0, 0x0, 0x0, 0x0, 0x0, 0x3⟩ /- EVR_RPTSTAT -/,
   ⟨0x4000E040, 4, 0x4, 0x0, 0x0, 0x0, 0x0, 0x0, 0xFFFFFFFF⟩ /- EVR_DROP -/] ++
  [⟨0x4000E050, 1, 0x0, 0x0, 0x0, 0x0, 0x0, 0x0, 0xFFFFFFFF⟩ /- EVR_LOST -/,
   ⟨0x4000E054, 1, 0x0, 0x0, 0x0, 0x0, 0x0, 0x0, 0x3⟩ /- EVR_CMD -/,
   ⟨0x4000E060, 1, 0x0, 0x0, 0x0, 0x3F, 0x0, 0x0, 0x3F⟩ /- EVR_IRQ -/,
   ⟨0x4000E064, 1, 0x0, 0x0, 0x3F, 0x0, 0x0, 0x0, 0x3F⟩ /- EVR_IRQEN -/,
   ⟨0x4000E100, 6, 0x20, 0x80000000, 0xC0000000, 0x0, 0x0, 0x0, 0xC0000000⟩ /- EVR_CLS -/,
   ⟨0x4000E1C0, 10, 0x20, 0x0, 0xC0000000, 0x0, 0x0, 0x0, 0xC0000000⟩ /- EVR_CLS -/,
   ⟨0x4000E104, 16, 0x20, 0xFFFFFFFF, 0xFFFFFFFF, 0x0, 0x0, 0x0, 0xFFFFFFFF⟩ /- EVR_SNAP0 -/,
   ⟨0x4000E108, 16, 0x20, 0xFFFFFFFF, 0xFFFFFFFF, 0x0, 0x0, 0x0, 0xFFFFFFFF⟩ /- EVR_SNAP1 -/,
   ⟨0x4000E10C, 16, 0x20, 0xFFFFFFFF, 0xFFFFFFFF, 0x0, 0x0, 0x0, 0xFFFFFFFF⟩ /- EVR_SNAP2 -/,
   ⟨0x4000E110, 16, 0x20, 0xFFFFFFFF, 0xFFFFFFFF, 0x0, 0x0, 0x0, 0xFFFFFFFF⟩ /- EVR_SNAP3 -/,
   ⟨0x4000E114, 16, 0x20, 0xFFFFFFFF, 0xFFFFFFFF, 0x0, 0x0, 0x0, 0xFFFFFFFF⟩ /- EVR_SNAP4 -/,
   ⟨0x4000E118, 16, 0x20, 0xFFFFFFFF, 0xFFFFFFFF, 0x0, 0x0, 0x0, 0xFFFFFFFF⟩ /- EVR_SNAP5 -/]

/-- The registers of ID. -/
def rowsID : List RegRow :=
  [⟨0x4001A000, 1, 0x0, 0x0, 0x0, 0x0, 0x0, 0x0, 0xFFFFFFFF⟩ /- ID_EXTADDR_LO -/,
   ⟨0x4001A004, 1, 0x0, 0x0, 0x0, 0x0, 0x0, 0x0, 0xFFFFFFFF⟩ /- ID_EXTADDR_HI -/,
   ⟨0x4001A008, 1, 0x0, 0x0, 0x0, 0x0, 0x0, 0x0, 0xFFFFFFFF⟩ /- ID_SERIAL -/,
   ⟨0x4001A00C, 1, 0x0, 0x0, 0x0, 0x0, 0x0, 0x0, 0xFFFFFFFF⟩ /- ID_VENDOR -/,
   ⟨0x4001A010, 1, 0x0, 0x9664, 0x0, 0x0, 0x0, 0x0, 0xFFFFFFFF⟩ /- ID_PRODUCT -/,
   ⟨0x4001A014, 1, 0x0, 0x19664, 0x0, 0x0, 0x0, 0x0, 0xFFFFFFFF⟩ /- ID_DEVTYPE -/,
   ⟨0x4001A018, 1, 0x0, 0x0, 0x0, 0x0, 0x0, 0x0, 0xFFFF⟩ /- ID_REV -/,
   ⟨0x4001A100, 1, 0x0, 0x0, 0x0, 0x0, 0x0, 0x0, 0xE1030000⟩ /- ID_BOOTSTAT -/,
   ⟨0x4001A104, 1, 0x0, 0x0, 0x0, 0x0, 0x0, 0x0, 0xC00000FF⟩ /- ID_TRIAL -/,
   ⟨0x4001A108, 1, 0x0, 0x0, 0x80FF00FF, 0x0, 0x0, 0x0, 0x80FF00FF⟩ /- ID_UPD -/]
/-- The block that holds an address: its rows (R37: 27 blocks of 4 KiB from 0x4000_0000), none elsewhere. -/
def blockRows (a : Nat) : List RegRow :=
  if a < 0x40000000 then [] else
  match (a - 0x40000000) / 0x1000 with
  | 0 => rowsSYSC
  | 1 => rowsBUS
  | 2 => rowsINTC
  | 3 => rowsEVM
  | 4 => rowsTIME
  | 5 => rowsRTC
  | 6 => rowsTMR
  | 7 => rowsMSU
  | 8 => rowsNVM
  | 9 => rowsSPIM
  | 10 => rowsSPIS
  | 11 => rowsGPIO
  | 12 => rowsSEC
  | 13 => rowsTBL
  | 14 => rowsEVR
  | 15 => rowsWDT
  | 16 => rowsRFRX
  | 17 => rowsRFTX
  | 18 => rowsLOOM
  | 19 => rowsSHTL
  | 20 => rowsWEFT
  | 21 => rowsMAC
  | 22 => rowsZEPH
  | 23 => rowsRING
  | 24 => rowsTWIL
  | 25 => rowsDICT
  | 26 => rowsID
  | _ => []

/-- The row of the register at `a`, if `a` is a register's address. -/
def regRow (a : Nat) : Option RegRow := (blockRows a).find? (fun r => r.covers a)

/-- What the register at `a` holds at reset; 0 where no register is (R38). -/
def resetVal (a : Nat) : Word :=
  match regRow a with
  | some r => BitVec.ofNat 32 r.reset
  | none => 0

/-! ## Addresses and fields -/

/-! ### SYSC -/
/-- SYSC_TICK; spec/01_architecture.md. -/
abbrev Reg.SYSC_TICK : Nat := 0x40000200
abbrev SYSC_TICK.TICK : Field := ⟨Reg.SYSC_TICK, 0, 32⟩
/-- SYSC_TICKSTAT; spec/01_architecture.md. -/
abbrev Reg.SYSC_TICKSTAT : Nat := 0x40000204
abbrev SYSC_TICKSTAT.RETIME_CNT : Field := ⟨Reg.SYSC_TICKSTAT, 24, 8⟩
abbrev SYSC_TICKSTAT.ALIGN_ERR : Field := ⟨Reg.SYSC_TICKSTAT, 8, 16⟩
abbrev SYSC_TICKSTAT.SLOTPH : Field := ⟨Reg.SYSC_TICKSTAT, 4, 4⟩
abbrev SYSC_TICKSTAT.RETIME : Field := ⟨Reg.SYSC_TICKSTAT, 2, 1⟩
abbrev SYSC_TICKSTAT.SLEW : Field := ⟨Reg.SYSC_TICKSTAT, 1, 1⟩
abbrev SYSC_TICKSTAT.FREE : Field := ⟨Reg.SYSC_TICKSTAT, 0, 1⟩
/-- SYSC_IRQ; spec/01_architecture.md. -/
abbrev Reg.SYSC_IRQ : Nat := 0x40000220
abbrev SYSC_IRQ.TICKLOST : Field := ⟨Reg.SYSC_IRQ, 1, 1⟩
abbrev SYSC_IRQ.TICK : Field := ⟨Reg.SYSC_IRQ, 0, 1⟩
/-- SYSC_IRQEN; spec/01_architecture.md. -/
abbrev Reg.SYSC_IRQEN : Nat := 0x40000224
abbrev SYSC_IRQEN.GCOMMIT : Field := ⟨Reg.SYSC_IRQEN, 4, 1⟩
abbrev SYSC_IRQEN.CLK : Field := ⟨Reg.SYSC_IRQEN, 3, 1⟩
abbrev SYSC_IRQEN.RETIME : Field := ⟨Reg.SYSC_IRQEN, 1, 1⟩
abbrev SYSC_IRQEN.TICK : Field := ⟨Reg.SYSC_IRQEN, 0, 1⟩
/-- SYSC_GCOMMIT; spec/01_architecture.md. -/
abbrev Reg.SYSC_GCOMMIT : Nat := 0x40000210
abbrev SYSC_GCOMMIT.FAILBLK : Field := ⟨Reg.SYSC_GCOMMIT, 12, 4⟩
abbrev SYSC_GCOMMIT.REJ : Field := ⟨Reg.SYSC_GCOMMIT, 11, 1⟩
abbrev SYSC_GCOMMIT.DONE : Field := ⟨Reg.SYSC_GCOMMIT, 10, 1⟩
abbrev SYSC_GCOMMIT.PEND : Field := ⟨Reg.SYSC_GCOMMIT, 9, 1⟩
abbrev SYSC_GCOMMIT.GO : Field := ⟨Reg.SYSC_GCOMMIT, 8, 1⟩
abbrev SYSC_GCOMMIT.OVR : Field := ⟨Reg.SYSC_GCOMMIT, 7, 1⟩
abbrev SYSC_GCOMMIT.MASK : Field := ⟨Reg.SYSC_GCOMMIT, 0, 5⟩
/-- SYSC_SUPCFG; spec/04_supplies_reset_clocks.md. -/
abbrev Reg.SYSC_SUPCFG : Nat := 0x40000014
abbrev SYSC_SUPCFG.BOWWAKE : Field := ⟨Reg.SYSC_SUPCFG, 5, 1⟩
abbrev SYSC_SUPCFG.BOWIE : Field := ⟨Reg.SYSC_SUPCFG, 4, 1⟩
abbrev SYSC_SUPCFG.BOWLVL : Field := ⟨Reg.SYSC_SUPCFG, 0, 3⟩
/-- SYSC_SUPSTAT; spec/04_supplies_reset_clocks.md. -/
abbrev Reg.SYSC_SUPSTAT : Nat := 0x40000010
abbrev SYSC_SUPSTAT.IO2LOW : Field := ⟨Reg.SYSC_SUPSTAT, 5, 1⟩
abbrev SYSC_SUPSTAT.IO1LOW : Field := ⟨Reg.SYSC_SUPSTAT, 4, 1⟩
abbrev SYSC_SUPSTAT.ONBACKUP : Field := ⟨Reg.SYSC_SUPSTAT, 3, 1⟩
abbrev SYSC_SUPSTAT.BOW : Field := ⟨Reg.SYSC_SUPSTAT, 2, 1⟩
abbrev SYSC_SUPSTAT.BOWNOW : Field := ⟨Reg.SYSC_SUPSTAT, 1, 1⟩
abbrev SYSC_SUPSTAT.BUCKOK : Field := ⟨Reg.SYSC_SUPSTAT, 0, 1⟩
/-- SYSC_RSTCAUSE; spec/04_supplies_reset_clocks.md. -/
abbrev Reg.SYSC_RSTCAUSE : Nat := 0x40000000
abbrev SYSC_RSTCAUSE.ALARM : Field := ⟨Reg.SYSC_RSTCAUSE, 6, 1⟩
abbrev SYSC_RSTCAUSE.REMOTE : Field := ⟨Reg.SYSC_RSTCAUSE, 5, 1⟩
abbrev SYSC_RSTCAUSE.SOFT : Field := ⟨Reg.SYSC_RSTCAUSE, 4, 1⟩
abbrev SYSC_RSTCAUSE.WDT : Field := ⟨Reg.SYSC_RSTCAUSE, 3, 1⟩
abbrev SYSC_RSTCAUSE.PIN : Field := ⟨Reg.SYSC_RSTCAUSE, 2, 1⟩
abbrev SYSC_RSTCAUSE.BOR : Field := ⟨Reg.SYSC_RSTCAUSE, 1, 1⟩
abbrev SYSC_RSTCAUSE.POR : Field := ⟨Reg.SYSC_RSTCAUSE, 0, 1⟩
/-- SYSC_SWRST; spec/04_supplies_reset_clocks.md. -/
abbrev Reg.SYSC_SWRST : Nat := 0x40000008
abbrev SYSC_SWRST.KEY : Field := ⟨Reg.SYSC_SWRST, 0, 32⟩
/-- SYSC_CLKSTAT; spec/04_supplies_reset_clocks.md. -/
abbrev Reg.SYSC_CLKSTAT : Nat := 0x40000020
abbrev SYSC_CLKSTAT.CORERC : Field := ⟨Reg.SYSC_CLKSTAT, 7, 1⟩
abbrev SYSC_CLKSTAT.LPRC : Field := ⟨Reg.SYSC_CLKSTAT, 6, 1⟩
abbrev SYSC_CLKSTAT.XTFAIL : Field := ⟨Reg.SYSC_CLKSTAT, 5, 1⟩
abbrev SYSC_CLKSTAT.XOFAIL : Field := ⟨Reg.SYSC_CLKSTAT, 4, 1⟩
abbrev SYSC_CLKSTAT.XTOK : Field := ⟨Reg.SYSC_CLKSTAT, 3, 1⟩
abbrev SYSC_CLKSTAT.TPLL : Field := ⟨Reg.SYSC_CLKSTAT, 2, 1⟩
abbrev SYSC_CLKSTAT.SPLL : Field := ⟨Reg.SYSC_CLKSTAT, 1, 1⟩
abbrev SYSC_CLKSTAT.XOOK : Field := ⟨Reg.SYSC_CLKSTAT, 0, 1⟩
/-- SYSC_CLKCFG; spec/04_supplies_reset_clocks.md. -/
abbrev Reg.SYSC_CLKCFG : Nat := 0x40000024
abbrev SYSC_CLKCFG.XOTRIM : Field := ⟨Reg.SYSC_CLKCFG, 8, 8⟩
abbrev SYSC_CLKCFG.COREDIV : Field := ⟨Reg.SYSC_CLKCFG, 0, 1⟩
/-- SYSC_CLKGATE; spec/04_supplies_reset_clocks.md. -/
abbrev Reg.SYSC_CLKGATE : Nat := 0x40000028
abbrev SYSC_CLKGATE.EVM : Field := ⟨Reg.SYSC_CLKGATE, 8, 1⟩
abbrev SYSC_CLKGATE.DICT : Field := ⟨Reg.SYSC_CLKGATE, 7, 1⟩
abbrev SYSC_CLKGATE.EVR : Field := ⟨Reg.SYSC_CLKGATE, 6, 1⟩
abbrev SYSC_CLKGATE.TBL : Field := ⟨Reg.SYSC_CLKGATE, 5, 1⟩
abbrev SYSC_CLKGATE.SEC : Field := ⟨Reg.SYSC_CLKGATE, 4, 1⟩
abbrev SYSC_CLKGATE.GPIO : Field := ⟨Reg.SYSC_CLKGATE, 3, 1⟩
abbrev SYSC_CLKGATE.SPIS : Field := ⟨Reg.SYSC_CLKGATE, 2, 1⟩
abbrev SYSC_CLKGATE.SPIM : Field := ⟨Reg.SYSC_CLKGATE, 1, 1⟩
abbrev SYSC_CLKGATE.TMR : Field := ⟨Reg.SYSC_CLKGATE, 0, 1⟩
/-- SYSC_PDCTL; spec/05_power_states.md. -/
abbrev Reg.SYSC_PDCTL : Nat := 0x40000030
abbrev SYSC_PDCTL.MSU : Field := ⟨Reg.SYSC_PDCTL, 2, 1⟩
abbrev SYSC_PDCTL.RING : Field := ⟨Reg.SYSC_PDCTL, 1, 1⟩
abbrev SYSC_PDCTL.RADIO : Field := ⟨Reg.SYSC_PDCTL, 0, 1⟩
/-- SYSC_PDSTAT; spec/05_power_states.md. -/
abbrev Reg.SYSC_PDSTAT : Nat := 0x40000034
abbrev SYSC_PDSTAT.MSU : Field := ⟨Reg.SYSC_PDSTAT, 2, 1⟩
abbrev SYSC_PDSTAT.RING : Field := ⟨Reg.SYSC_PDSTAT, 1, 1⟩
abbrev SYSC_PDSTAT.RADIO : Field := ⟨Reg.SYSC_PDSTAT, 0, 1⟩
/-- SYSC_PWRCTL; spec/05_power_states.md. -/
abbrev Reg.SYSC_PWRCTL : Nat := 0x40000040
abbrev SYSC_PWRCTL.ENTER : Field := ⟨Reg.SYSC_PWRCTL, 31, 1⟩
abbrev SYSC_PWRCTL.STATE : Field := ⟨Reg.SYSC_PWRCTL, 0, 2⟩
/-- SYSC_WAKEEN; spec/05_power_states.md. -/
abbrev Reg.SYSC_WAKEEN : Nat := 0x40000048
abbrev SYSC_WAKEEN.ZEPH : Field := ⟨Reg.SYSC_WAKEEN, 6, 1⟩
abbrev SYSC_WAKEEN.TWAKE : Field := ⟨Reg.SYSC_WAKEEN, 5, 1⟩
abbrev SYSC_WAKEEN.RTCPER : Field := ⟨Reg.SYSC_WAKEEN, 4, 1⟩
abbrev SYSC_WAKEEN.RTCALM : Field := ⟨Reg.SYSC_WAKEEN, 3, 1⟩
abbrev SYSC_WAKEEN.GPIO : Field := ⟨Reg.SYSC_WAKEEN, 2, 1⟩
abbrev SYSC_WAKEEN.HSCS : Field := ⟨Reg.SYSC_WAKEEN, 1, 1⟩
abbrev SYSC_WAKEEN.WAKEPIN : Field := ⟨Reg.SYSC_WAKEEN, 0, 1⟩
/-- SYSC_GPWAKE; spec/05_power_states.md. -/
abbrev Reg.SYSC_GPWAKE : Nat := 0x4000004C
abbrev SYSC_GPWAKE.EN : Field := ⟨Reg.SYSC_GPWAKE, 0, 24⟩
/-- SYSC_WAKESRC; spec/05_power_states.md. -/
abbrev Reg.SYSC_WAKESRC : Nat := 0x40000050
abbrev SYSC_WAKESRC.DURENTRY : Field := ⟨Reg.SYSC_WAKESRC, 16, 1⟩
abbrev SYSC_WAKESRC.ALARM : Field := ⟨Reg.SYSC_WAKESRC, 9, 1⟩
abbrev SYSC_WAKESRC.BOW : Field := ⟨Reg.SYSC_WAKESRC, 8, 1⟩
abbrev SYSC_WAKESRC.SRC : Field := ⟨Reg.SYSC_WAKESRC, 0, 7⟩
/-- SYSC_TWAKE_LO; spec/05_power_states.md. -/
abbrev Reg.SYSC_TWAKE_LO : Nat := 0x40000058
abbrev SYSC_TWAKE_LO.FRAC : Field := ⟨Reg.SYSC_TWAKE_LO, 0, 32⟩
/-- SYSC_TWAKE_HI; spec/05_power_states.md. -/
abbrev Reg.SYSC_TWAKE_HI : Nat := 0x4000005C
abbrev SYSC_TWAKE_HI.SEC : Field := ⟨Reg.SYSC_TWAKE_HI, 0, 32⟩
/-- SYSC_RESUMEVEC; spec/05_power_states.md. -/
abbrev Reg.SYSC_RESUMEVEC : Nat := 0x40000060
abbrev SYSC_RESUMEVEC.ADDR : Field := ⟨Reg.SYSC_RESUMEVEC, 2, 30⟩
/-- SYSC_LPSTAT; spec/05_power_states.md. -/
abbrev Reg.SYSC_LPSTAT : Nat := 0x40000064
abbrev SYSC_LPSTAT.FROMOFF : Field := ⟨Reg.SYSC_LPSTAT, 31, 1⟩
abbrev SYSC_LPSTAT.PLLRUN : Field := ⟨Reg.SYSC_LPSTAT, 8, 1⟩
abbrev SYSC_LPSTAT.NOWAKE : Field := ⟨Reg.SYSC_LPSTAT, 4, 1⟩
abbrev SYSC_LPSTAT.ENTERING : Field := ⟨Reg.SYSC_LPSTAT, 3, 1⟩
abbrev SYSC_LPSTAT.LAST : Field := ⟨Reg.SYSC_LPSTAT, 0, 2⟩

/-! ### LOOM -/
/-- LOOM_COMMIT; spec/01_architecture.md. -/
abbrev Reg.LOOM_COMMIT : Nat := 0x40012FF0
abbrev LOOM_COMMIT.GEN : Field := ⟨Reg.LOOM_COMMIT, 16, 16⟩
abbrev LOOM_COMMIT.COMMIT_ERR : Field := ⟨Reg.LOOM_COMMIT, 8, 8⟩
abbrev LOOM_COMMIT.OVR : Field := ⟨Reg.LOOM_COMMIT, 4, 1⟩
abbrev LOOM_COMMIT.REJ : Field := ⟨Reg.LOOM_COMMIT, 3, 1⟩
abbrev LOOM_COMMIT.DONE : Field := ⟨Reg.LOOM_COMMIT, 2, 1⟩
abbrev LOOM_COMMIT.PEND : Field := ⟨Reg.LOOM_COMMIT, 1, 1⟩
abbrev LOOM_COMMIT.GO : Field := ⟨Reg.LOOM_COMMIT, 0, 1⟩
/-- LOOM_STAT; spec/09_loom_lanes_gain.md. -/
abbrev Reg.LOOM_STAT : Nat := 0x40012004
abbrev LOOM_STAT.PKTNUM : Field := ⟨Reg.LOOM_STAT, 16, 16⟩
abbrev LOOM_STAT.ACTIVE : Field := ⟨Reg.LOOM_STAT, 0, 7⟩
/-- LOOM_GAINCFG0; spec/09_loom_lanes_gain.md. -/
abbrev Reg.LOOM_GAINCFG0 : Nat := 0x40012010
abbrev LOOM_GAINCFG0.AUTO : Field := ⟨Reg.LOOM_GAINCFG0, 31, 1⟩
abbrev LOOM_GAINCFG0.DNLVL : Field := ⟨Reg.LOOM_GAINCFG0, 16, 9⟩
abbrev LOOM_GAINCFG0.DNCNT : Field := ⟨Reg.LOOM_GAINCFG0, 0, 8⟩
/-- LOOM_GAINCFG1; spec/09_loom_lanes_gain.md. -/
abbrev Reg.LOOM_GAINCFG1 : Nat := 0x40012014
abbrev LOOM_GAINCFG1.UPHOLD : Field := ⟨Reg.LOOM_GAINCFG1, 24, 8⟩
abbrev LOOM_GAINCFG1.UPLVL : Field := ⟨Reg.LOOM_GAINCFG1, 12, 9⟩
abbrev LOOM_GAINCFG1.STEPPOS : Field := ⟨Reg.LOOM_GAINCFG1, 0, 9⟩
/-- LOOM_GAINSTAT; spec/09_loom_lanes_gain.md. -/
abbrev Reg.LOOM_GAINSTAT : Nat := 0x40012018
abbrev LOOM_GAINSTAT.NEXT : Field := ⟨Reg.LOOM_GAINSTAT, 30, 2⟩
abbrev LOOM_GAINSTAT.HOLD : Field := ⟨Reg.LOOM_GAINSTAT, 16, 8⟩
abbrev LOOM_GAINSTAT.NEXTTICK : Field := ⟨Reg.LOOM_GAINSTAT, 0, 16⟩
/-- LOOM_GAINCNT; spec/09_loom_lanes_gain.md. -/
abbrev Reg.LOOM_GAINCNT : Nat := 0x4001201C
abbrev LOOM_GAINCNT.CANCEL : Field := ⟨Reg.LOOM_GAINCNT, 24, 8⟩
abbrev LOOM_GAINCNT.CLIPSTEP : Field := ⟨Reg.LOOM_GAINCNT, 16, 8⟩
abbrev LOOM_GAINCNT.DOWN : Field := ⟨Reg.LOOM_GAINCNT, 8, 8⟩
abbrev LOOM_GAINCNT.UP : Field := ⟨Reg.LOOM_GAINCNT, 0, 8⟩
/-- LOOM_IRQ; spec/09_loom_lanes_gain.md. -/
abbrev Reg.LOOM_IRQ : Nat := 0x40012020
abbrev LOOM_IRQ.CLIPMARK : Field := ⟨Reg.LOOM_IRQ, 2, 1⟩
abbrev LOOM_IRQ.CANCEL : Field := ⟨Reg.LOOM_IRQ, 1, 1⟩
abbrev LOOM_IRQ.STEP : Field := ⟨Reg.LOOM_IRQ, 0, 1⟩
/-- LOOM_IRQEN; spec/09_loom_lanes_gain.md. -/
abbrev Reg.LOOM_IRQEN : Nat := 0x40012024
abbrev LOOM_IRQEN.CLIPMARK : Field := ⟨Reg.LOOM_IRQEN, 2, 1⟩
abbrev LOOM_IRQEN.CANCEL : Field := ⟨Reg.LOOM_IRQEN, 1, 1⟩
abbrev LOOM_IRQEN.STEP : Field := ⟨Reg.LOOM_IRQEN, 0, 1⟩
/-- LOOM_CCACFG; spec/09_loom_lanes_gain.md. -/
abbrev Reg.LOOM_CCACFG : Nat := 0x40012030
abbrev Reg.LOOM_CCACFG_LIVE : Nat := 0x40012034
abbrev LOOM_CCACFG.EN : Field := ⟨Reg.LOOM_CCACFG, 31, 1⟩
abbrev LOOM_CCACFG.JCLASS : Field := ⟨Reg.LOOM_CCACFG, 16, 5⟩
abbrev LOOM_CCACFG.BUSYLVL : Field := ⟨Reg.LOOM_CCACFG, 0, 16⟩
/-- LOOM_MSAn; spec/09_loom_lanes_gain.md. -/
abbrev Reg.LOOM_MSA (n : Nat) : Nat := (0x40012100 + 0x10 * n)
abbrev Reg.LOOM_MSA_LIVE (n : Nat) : Nat := (0x40012200 + 0x10 * n)
abbrev LOOM_MSA.EN (n : Nat) : Field := ⟨Reg.LOOM_MSA n, 31, 1⟩
abbrev LOOM_MSA.MODE (n : Nat) : Field := ⟨Reg.LOOM_MSA n, 24, 4⟩
abbrev LOOM_MSA.CHUNKCLS (n : Nat) : Field := ⟨Reg.LOOM_MSA n, 16, 5⟩
abbrev LOOM_MSA.TAILEN (n : Nat) : Field := ⟨Reg.LOOM_MSA n, 15, 1⟩
abbrev LOOM_MSA.TAILCLS (n : Nat) : Field := ⟨Reg.LOOM_MSA n, 8, 5⟩
/-- LOOM_MSBn; spec/09_loom_lanes_gain.md. -/
abbrev Reg.LOOM_MSB (n : Nat) : Nat := (0x40012104 + 0x10 * n)
abbrev Reg.LOOM_MSB_LIVE (n : Nat) : Nat := (0x40012204 + 0x10 * n)
abbrev LOOM_MSB.DETTHR (n : Nat) : Field := ⟨Reg.LOOM_MSB n, 24, 8⟩
abbrev LOOM_MSB.DETN (n : Nat) : Field := ⟨Reg.LOOM_MSB n, 22, 2⟩
abbrev LOOM_MSB.PWIN (n : Nat) : Field := ⟨Reg.LOOM_MSB n, 16, 6⟩
abbrev LOOM_MSB.SFDWIN (n : Nat) : Field := ⟨Reg.LOOM_MSB n, 8, 8⟩
abbrev LOOM_MSB.AGCTGT (n : Nat) : Field := ⟨Reg.LOOM_MSB n, 0, 8⟩
/-- LOOM_MSCn; spec/09_loom_lanes_gain.md. -/
abbrev Reg.LOOM_MSC (n : Nat) : Nat := (0x40012108 + 0x10 * n)
abbrev Reg.LOOM_MSC_LIVE (n : Nat) : Nat := (0x40012208 + 0x10 * n)
abbrev LOOM_MSC.SFD0 (n : Nat) : Field := ⟨Reg.LOOM_MSC n, 16, 16⟩
abbrev LOOM_MSC.SFD1 (n : Nat) : Field := ⟨Reg.LOOM_MSC n, 0, 16⟩
/-- LOOM_MSDn; spec/09_loom_lanes_gain.md. -/
abbrev Reg.LOOM_MSD (n : Nat) : Nat := (0x4001210C + 0x10 * n)
abbrev Reg.LOOM_MSD_LIVE (n : Nat) : Nat := (0x4001220C + 0x10 * n)
abbrev LOOM_MSD.CAPEN (n : Nat) : Field := ⟨Reg.LOOM_MSD n, 31, 1⟩
abbrev LOOM_MSD.CAPTDB (n : Nat) : Field := ⟨Reg.LOOM_MSD n, 24, 5⟩
abbrev LOOM_MSD.RSTDB (n : Nat) : Field := ⟨Reg.LOOM_MSD n, 16, 5⟩
abbrev LOOM_MSD.RSTM (n : Nat) : Field := ⟨Reg.LOOM_MSD n, 8, 8⟩
abbrev LOOM_MSD.SFDN2 (n : Nat) : Field := ⟨Reg.LOOM_MSD n, 4, 1⟩
abbrev LOOM_MSD.SFD8 (n : Nat) : Field := ⟨Reg.LOOM_MSD n, 0, 1⟩
/-- LOOM_LANEn; spec/09_loom_lanes_gain.md. -/
abbrev Reg.LOOM_LANE (n : Nat) : Nat := (0x40012400 + 0x4 * n)
abbrev Reg.LOOM_LANE_LIVE (n : Nat) : Nat := (0x40012600 + 0x4 * n)
abbrev LOOM_LANE.EN (n : Nat) : Field := ⟨Reg.LOOM_LANE n, 31, 1⟩
abbrev LOOM_LANE.NCOFS (n : Nat) : Field := ⟨Reg.LOOM_LANE n, 16, 12⟩
abbrev LOOM_LANE.BOND (n : Nat) : Field := ⟨Reg.LOOM_LANE n, 12, 2⟩
abbrev LOOM_LANE.MSET (n : Nat) : Field := ⟨Reg.LOOM_LANE n, 0, 4⟩
/-- LOOM_NRGn; spec/09_loom_lanes_gain.md. -/
abbrev Reg.LOOM_NRG (n : Nat) : Nat := (0x40012800 + 0x4 * n)
abbrev LOOM_NRG.FLOOR (n : Nat) : Field := ⟨Reg.LOOM_NRG n, 16, 16⟩
abbrev LOOM_NRG.NOW (n : Nat) : Field := ⟨Reg.LOOM_NRG n, 0, 16⟩
/-- LOOM_SENTn; spec/09_loom_lanes_gain.md. -/
abbrev Reg.LOOM_SENT (n : Nat) : Nat := (0x40012A00 + 0x4 * n)
abbrev LOOM_SENT.DETCNT (n : Nat) : Field := ⟨Reg.LOOM_SENT n, 16, 16⟩
abbrev LOOM_SENT.METRIC (n : Nat) : Field := ⟨Reg.LOOM_SENT n, 8, 8⟩
abbrev LOOM_SENT.STATE (n : Nat) : Field := ⟨Reg.LOOM_SENT n, 0, 3⟩

/-! ### SHTL -/
/-- SHTL_COMMIT; spec/01_architecture.md. -/
abbrev Reg.SHTL_COMMIT : Nat := 0x40013FF0
abbrev SHTL_COMMIT.GEN : Field := ⟨Reg.SHTL_COMMIT, 16, 16⟩
abbrev SHTL_COMMIT.COMMIT_ERR : Field := ⟨Reg.SHTL_COMMIT, 8, 8⟩
abbrev SHTL_COMMIT.OVR : Field := ⟨Reg.SHTL_COMMIT, 4, 1⟩
abbrev SHTL_COMMIT.REJ : Field := ⟨Reg.SHTL_COMMIT, 3, 1⟩
abbrev SHTL_COMMIT.DONE : Field := ⟨Reg.SHTL_COMMIT, 2, 1⟩
abbrev SHTL_COMMIT.PEND : Field := ⟨Reg.SHTL_COMMIT, 1, 1⟩
abbrev SHTL_COMMIT.GO : Field := ⟨Reg.SHTL_COMMIT, 0, 1⟩
/-- SHTL_CTRL; spec/07_weft_and_shuttle.md. -/
abbrev Reg.SHTL_CTRL : Nat := 0x40013000
abbrev SHTL_CTRL.LWTHR : Field := ⟨Reg.SHTL_CTRL, 8, 8⟩
abbrev SHTL_CTRL.FAULTPARK : Field := ⟨Reg.SHTL_CTRL, 1, 1⟩
abbrev SHTL_CTRL.HALT : Field := ⟨Reg.SHTL_CTRL, 0, 1⟩
/-- SHTL_STAT; spec/07_weft_and_shuttle.md. -/
abbrev Reg.SHTL_STAT : Nat := 0x40013004
abbrev SHTL_STAT.LOOSEQ : Field := ⟨Reg.SHTL_STAT, 24, 8⟩
abbrev SHTL_STAT.SLACKQ : Field := ⟨Reg.SHTL_STAT, 16, 8⟩
abbrev SHTL_STAT.TAUTN : Field := ⟨Reg.SHTL_STAT, 7, 9⟩
abbrev SHTL_STAT.QUIET : Field := ⟨Reg.SHTL_STAT, 0, 1⟩
/-- SHTL_ENGCFG; spec/07_weft_and_shuttle.md. -/
abbrev Reg.SHTL_ENGCFG : Nat := 0x40013008
abbrev Reg.SHTL_ENGCFG_LIVE : Nat := 0x4001300C
abbrev SHTL_ENGCFG.COUNT : Field := ⟨Reg.SHTL_ENGCFG, 0, 6⟩
/-- SHTL_IRQ; spec/07_weft_and_shuttle.md. -/
abbrev Reg.SHTL_IRQ : Nat := 0x40013010
abbrev SHTL_IRQ.LWAIT : Field := ⟨Reg.SHTL_IRQ, 5, 1⟩
abbrev SHTL_IRQ.PREJ : Field := ⟨Reg.SHTL_IRQ, 4, 1⟩
abbrev SHTL_IRQ.CQ : Field := ⟨Reg.SHTL_IRQ, 3, 1⟩
abbrev SHTL_IRQ.BUDGET : Field := ⟨Reg.SHTL_IRQ, 2, 1⟩
abbrev SHTL_IRQ.FAULT : Field := ⟨Reg.SHTL_IRQ, 1, 1⟩
abbrev SHTL_IRQ.OVR : Field := ⟨Reg.SHTL_IRQ, 0, 1⟩
/-- SHTL_IRQEN; spec/07_weft_and_shuttle.md. -/
abbrev Reg.SHTL_IRQEN : Nat := 0x40013014
abbrev SHTL_IRQEN.LWAIT : Field := ⟨Reg.SHTL_IRQEN, 5, 1⟩
abbrev SHTL_IRQEN.PREJ : Field := ⟨Reg.SHTL_IRQEN, 4, 1⟩
abbrev SHTL_IRQEN.CQ : Field := ⟨Reg.SHTL_IRQEN, 3, 1⟩
abbrev SHTL_IRQEN.BUDGET : Field := ⟨Reg.SHTL_IRQEN, 2, 1⟩
abbrev SHTL_IRQEN.FAULT : Field := ⟨Reg.SHTL_IRQEN, 1, 1⟩
abbrev SHTL_IRQEN.OVR : Field := ⟨Reg.SHTL_IRQEN, 0, 1⟩
/-- SHTL_LOAD; spec/07_weft_and_shuttle.md. -/
abbrev Reg.SHTL_LOAD : Nat := 0x40013018
abbrev SHTL_LOAD.PEAK : Field := ⟨Reg.SHTL_LOAD, 16, 16⟩
abbrev SHTL_LOAD.BUSY : Field := ⟨Reg.SHTL_LOAD, 0, 16⟩
/-- SHTL_LOOSE; spec/07_weft_and_shuttle.md. -/
abbrev Reg.SHTL_LOOSE : Nat := 0x4001301C
abbrev SHTL_LOOSE.MAXWAIT : Field := ⟨Reg.SHTL_LOOSE, 16, 16⟩
abbrev SHTL_LOOSE.OLDEST : Field := ⟨Reg.SHTL_LOOSE, 0, 16⟩
/-- SHTL_OVRCNT; spec/07_weft_and_shuttle.md. -/
abbrev Reg.SHTL_OVRCNT : Nat := 0x40013020
abbrev SHTL_OVRCNT.COUNT : Field := ⟨Reg.SHTL_OVRCNT, 0, 32⟩
/-- SHTL_ERRCNT; spec/07_weft_and_shuttle.md. -/
abbrev Reg.SHTL_ERRCNT : Nat := 0x40013024
abbrev SHTL_ERRCNT.BUDGET : Field := ⟨Reg.SHTL_ERRCNT, 16, 16⟩
abbrev SHTL_ERRCNT.FAULT : Field := ⟨Reg.SHTL_ERRCNT, 0, 16⟩
/-- SHTL_PW2; spec/07_weft_and_shuttle.md. -/
abbrev Reg.SHTL_PW2 : Nat := 0x40013028
abbrev SHTL_PW2.W : Field := ⟨Reg.SHTL_PW2, 0, 32⟩
/-- SHTL_PW3; spec/07_weft_and_shuttle.md. -/
abbrev Reg.SHTL_PW3 : Nat := 0x4001302C
abbrev SHTL_PW3.W : Field := ⟨Reg.SHTL_PW3, 0, 32⟩
/-- SHTL_POST; spec/07_weft_and_shuttle.md. -/
abbrev Reg.SHTL_POST : Nat := 0x40013030
abbrev SHTL_POST.W0 : Field := ⟨Reg.SHTL_POST, 0, 32⟩
/-- SHTL_POSTSTAT; spec/07_weft_and_shuttle.md. -/
abbrev Reg.SHTL_POSTSTAT : Nat := 0x40013034
abbrev SHTL_POSTSTAT.RESULT : Field := ⟨Reg.SHTL_POSTSTAT, 0, 2⟩
/-- SHTL_CQBASE; spec/07_weft_and_shuttle.md. -/
abbrev Reg.SHTL_CQBASE : Nat := 0x40013040
abbrev SHTL_CQBASE.ADDR : Field := ⟨Reg.SHTL_CQBASE, 9, 23⟩
abbrev SHTL_CQBASE.EN : Field := ⟨Reg.SHTL_CQBASE, 0, 1⟩
/-- SHTL_CQIDX; spec/07_weft_and_shuttle.md. -/
abbrev Reg.SHTL_CQIDX : Nat := 0x40013044
abbrev SHTL_CQIDX.DROP : Field := ⟨Reg.SHTL_CQIDX, 24, 8⟩
abbrev SHTL_CQIDX.TAIL : Field := ⟨Reg.SHTL_CQIDX, 8, 6⟩
abbrev SHTL_CQIDX.HEAD : Field := ⟨Reg.SHTL_CQIDX, 0, 6⟩
/-- SHTL_JCAn; spec/07_weft_and_shuttle.md. -/
abbrev Reg.SHTL_JCA (n : Nat) : Nat := (0x40013100 + 0x8 * n)
abbrev Reg.SHTL_JCA_LIVE (n : Nat) : Nat := (0x40013200 + 0x8 * n)
abbrev SHTL_JCA.EN (n : Nat) : Field := ⟨Reg.SHTL_JCA n, 31, 1⟩
abbrev SHTL_JCA.PRIO (n : Nat) : Field := ⟨Reg.SHTL_JCA n, 16, 2⟩
abbrev SHTL_JCA.ENTRY (n : Nat) : Field := ⟨Reg.SHTL_JCA n, 0, 14⟩
/-- SHTL_JCBn; spec/07_weft_and_shuttle.md. -/
abbrev Reg.SHTL_JCB (n : Nat) : Nat := (0x40013104 + 0x8 * n)
abbrev Reg.SHTL_JCB_LIVE (n : Nat) : Nat := (0x40013204 + 0x8 * n)
abbrev SHTL_JCB.BUDGET (n : Nat) : Field := ⟨Reg.SHTL_JCB n, 0, 17⟩

/-! ### MAC -/
/-- MAC_COMMIT; spec/01_architecture.md. -/
abbrev Reg.MAC_COMMIT : Nat := 0x40015FF0
abbrev MAC_COMMIT.GEN : Field := ⟨Reg.MAC_COMMIT, 16, 16⟩
abbrev MAC_COMMIT.COMMIT_ERR : Field := ⟨Reg.MAC_COMMIT, 8, 8⟩
abbrev MAC_COMMIT.OVR : Field := ⟨Reg.MAC_COMMIT, 4, 1⟩
abbrev MAC_COMMIT.REJ : Field := ⟨Reg.MAC_COMMIT, 3, 1⟩
abbrev MAC_COMMIT.DONE : Field := ⟨Reg.MAC_COMMIT, 2, 1⟩
abbrev MAC_COMMIT.PEND : Field := ⟨Reg.MAC_COMMIT, 1, 1⟩
abbrev MAC_COMMIT.GO : Field := ⟨Reg.MAC_COMMIT, 0, 1⟩
/-- MAC_RXCFG; spec/10_demodulation.md. -/
abbrev Reg.MAC_RXCFG : Nat := 0x40015C00
abbrev MAC_RXCFG.MSWWIN : Field := ⟨Reg.MAC_RXCFG, 24, 8⟩
abbrev MAC_RXCFG.KEEPBAD : Field := ⟨Reg.MAC_RXCFG, 1, 1⟩
abbrev MAC_RXCFG.MSWEN : Field := ⟨Reg.MAC_RXCFG, 0, 1⟩
/-- MAC_RXLAST; spec/10_demodulation.md. -/
abbrev Reg.MAC_RXLAST : Nat := 0x40015C04
abbrev MAC_RXLAST.STATUS : Field := ⟨Reg.MAC_RXLAST, 24, 8⟩
abbrev MAC_RXLAST.LANE : Field := ⟨Reg.MAC_RXLAST, 16, 8⟩
abbrev MAC_RXLAST.PKT : Field := ⟨Reg.MAC_RXLAST, 0, 16⟩
/-- MAC_RXMSW; spec/10_demodulation.md. -/
abbrev Reg.MAC_RXMSW : Nat := 0x40015C08
abbrev MAC_RXMSW.MISS : Field := ⟨Reg.MAC_RXMSW, 16, 16⟩
abbrev MAC_RXMSW.MATCH : Field := ⟨Reg.MAC_RXMSW, 0, 16⟩
/-- MAC_MSWMAPn; spec/10_demodulation.md. -/
abbrev Reg.MAC_MSWMAP (n : Nat) : Nat := (0x40015C10 + 0x4 * n)
abbrev MAC_MSWMAP.VALID (n : Nat) : Field := ⟨Reg.MAC_MSWMAP n, 31, 1⟩
abbrev MAC_MSWMAP.NEWMODE (n : Nat) : Field := ⟨Reg.MAC_MSWMAP n, 16, 7⟩
abbrev MAC_MSWMAP.MODE (n : Nat) : Field := ⟨Reg.MAC_MSWMAP n, 0, 4⟩
/-- MAC_RXCNTn; spec/10_demodulation.md. -/
abbrev Reg.MAC_RXCNT (n : Nat) : Nat := (0x40015C40 + 0x4 * n)
abbrev MAC_RXCNT.COUNT (n : Nat) : Field := ⟨Reg.MAC_RXCNT n, 0, 32⟩
/-- MAC_CFG; spec/12_medium_access.md. -/
abbrev Reg.MAC_CFG : Nat := 0x40015000
abbrev MAC_CFG.COORD : Field := ⟨Reg.MAC_CFG, 31, 1⟩
abbrev MAC_CFG.AUTOWAKE : Field := ⟨Reg.MAC_CFG, 30, 1⟩
abbrev MAC_CFG.ACKTC : Field := ⟨Reg.MAC_CFG, 29, 1⟩
abbrev MAC_CFG.SNOOP : Field := ⟨Reg.MAC_CFG, 28, 1⟩
abbrev MAC_CFG.ACCUNSEC : Field := ⟨Reg.MAC_CFG, 27, 1⟩
abbrev MAC_CFG.DEFERRX : Field := ⟨Reg.MAC_CFG, 25, 1⟩
abbrev MAC_CFG.DEFERMAX : Field := ⟨Reg.MAC_CFG, 8, 8⟩
/-- MAC_ADDR; spec/12_medium_access.md. -/
abbrev Reg.MAC_ADDR : Nat := 0x40015004
abbrev MAC_ADDR.PANID : Field := ⟨Reg.MAC_ADDR, 16, 16⟩
abbrev MAC_ADDR.SHORT : Field := ⟨Reg.MAC_ADDR, 0, 16⟩
/-- MAC_TIMING; spec/12_medium_access.md. -/
abbrev Reg.MAC_TIMING : Nat := 0x40015010
abbrev Reg.MAC_TIMING_LIVE : Nat := 0x40015014
abbrev MAC_TIMING.ACKTURN : Field := ⟨Reg.MAC_TIMING, 22, 10⟩
abbrev MAC_TIMING.ACKGUARD : Field := ⟨Reg.MAC_TIMING, 14, 8⟩
abbrev MAC_TIMING.TXOFS : Field := ⟨Reg.MAC_TIMING, 0, 13⟩
/-- MAC_CSMA; spec/12_medium_access.md. -/
abbrev Reg.MAC_CSMA : Nat := 0x40015018
abbrev MAC_CSMA.MAXRETRY : Field := ⟨Reg.MAC_CSMA, 24, 3⟩
abbrev MAC_CSMA.CCAMODE : Field := ⟨Reg.MAC_CSMA, 22, 2⟩
abbrev MAC_CSMA.BOUNIT : Field := ⟨Reg.MAC_CSMA, 16, 6⟩
abbrev MAC_CSMA.MAXBO : Field := ⟨Reg.MAC_CSMA, 8, 4⟩
abbrev MAC_CSMA.MAXBE : Field := ⟨Reg.MAC_CSMA, 4, 4⟩
abbrev MAC_CSMA.MINBE : Field := ⟨Reg.MAC_CSMA, 0, 4⟩
/-- MAC_RADIO; spec/12_medium_access.md. -/
abbrev Reg.MAC_RADIO : Nat := 0x4001501C
abbrev MAC_RADIO.ACKPWR : Field := ⟨Reg.MAC_RADIO, 24, 8⟩
abbrev MAC_RADIO.PRELEN : Field := ⟨Reg.MAC_RADIO, 16, 8⟩
abbrev MAC_RADIO.CCATHR : Field := ⟨Reg.MAC_RADIO, 0, 16⟩
/-- MAC_BCNCFG; spec/12_medium_access.md. -/
abbrev Reg.MAC_BCNCFG : Nat := 0x40015020
abbrev Reg.MAC_BCNCFG_LIVE : Nat := 0x40015028
abbrev MAC_BCNCFG.EN : Field := ⟨Reg.MAC_BCNCFG, 31, 1⟩
abbrev MAC_BCNCFG.ROLE : Field := ⟨Reg.MAC_BCNCFG, 30, 1⟩
abbrev MAC_BCNCFG.SPAN : Field := ⟨Reg.MAC_BCNCFG, 8, 2⟩
abbrev MAC_BCNCFG.LANE : Field := ⟨Reg.MAC_BCNCFG, 0, 7⟩
/-- MAC_BCNSLOT; spec/12_medium_access.md. -/
abbrev Reg.MAC_BCNSLOT : Nat := 0x40015024
abbrev Reg.MAC_BCNSLOT_LIVE : Nat := 0x4001502C
abbrev MAC_BCNSLOT.BCNOFS : Field := ⟨Reg.MAC_BCNSLOT, 16, 12⟩
abbrev MAC_BCNSLOT.BCNPER : Field := ⟨Reg.MAC_BCNSLOT, 0, 12⟩
/-- MAC_BCNTRK; spec/12_medium_access.md. -/
abbrev Reg.MAC_BCNTRK : Nat := 0x40015030
abbrev MAC_BCNTRK.LOSTN : Field := ⟨Reg.MAC_BCNTRK, 24, 8⟩
abbrev MAC_BCNTRK.DRIFT : Field := ⟨Reg.MAC_BCNTRK, 16, 8⟩
abbrev MAC_BCNTRK.GBASE : Field := ⟨Reg.MAC_BCNTRK, 8, 8⟩
abbrev MAC_BCNTRK.WAKEOFS : Field := ⟨Reg.MAC_BCNTRK, 0, 8⟩
/-- MAC_PARENT; spec/12_medium_access.md. -/
abbrev Reg.MAC_PARENT : Nat := 0x40015034
abbrev MAC_PARENT.EN : Field := ⟨Reg.MAC_PARENT, 31, 1⟩
abbrev MAC_PARENT.TIER : Field := ⟨Reg.MAC_PARENT, 16, 8⟩
abbrev MAC_PARENT.ENTRY : Field := ⟨Reg.MAC_PARENT, 0, 13⟩
/-- MAC_BSTAT; spec/12_medium_access.md. -/
abbrev Reg.MAC_BSTAT : Nat := 0x40015038
abbrev MAC_BSTAT.STATE : Field := ⟨Reg.MAC_BSTAT, 29, 3⟩
abbrev MAC_BSTAT.MISS : Field := ⟨Reg.MAC_BSTAT, 16, 8⟩
abbrev MAC_BSTAT.GUARD : Field := ⟨Reg.MAC_BSTAT, 0, 16⟩
/-- MAC_SCHEDOFS; spec/12_medium_access.md. -/
abbrev Reg.MAC_SCHEDOFS : Nat := 0x4001503C
abbrev MAC_SCHEDOFS.OFS : Field := ⟨Reg.MAC_SCHEDOFS, 0, 32⟩
/-- MAC_SLOTNUM; spec/12_medium_access.md. -/
abbrev Reg.MAC_SLOTNUM : Nat := 0x40015040
abbrev MAC_SLOTNUM.SLOT : Field := ⟨Reg.MAC_SLOTNUM, 0, 32⟩
/-- MAC_NEXTWAKE_LO; spec/12_medium_access.md. -/
abbrev Reg.MAC_NEXTWAKE_LO : Nat := 0x40015048
abbrev MAC_NEXTWAKE_LO.FRAC : Field := ⟨Reg.MAC_NEXTWAKE_LO, 0, 32⟩
/-- MAC_NEXTWAKE_HI; spec/12_medium_access.md. -/
abbrev Reg.MAC_NEXTWAKE_HI : Nat := 0x4001504C
abbrev MAC_NEXTWAKE_HI.FRAC : Field := ⟨Reg.MAC_NEXTWAKE_HI, 0, 32⟩
/-- MAC_IRQ; spec/12_medium_access.md. -/
abbrev Reg.MAC_IRQ : Nat := 0x40015050
abbrev MAC_IRQ.ZTIMEOUT : Field := ⟨Reg.MAC_IRQ, 15, 1⟩
abbrev MAC_IRQ.ZHAND : Field := ⟨Reg.MAC_IRQ, 14, 1⟩
abbrev MAC_IRQ.NOLANE : Field := ⟨Reg.MAC_IRQ, 13, 1⟩
abbrev MAC_IRQ.BCNSENT : Field := ⟨Reg.MAC_IRQ, 12, 1⟩
abbrev MAC_IRQ.RESYNC : Field := ⟨Reg.MAC_IRQ, 11, 1⟩
abbrev MAC_IRQ.LOST : Field := ⟨Reg.MAC_IRQ, 10, 1⟩
abbrev MAC_IRQ.DOUBT : Field := ⟨Reg.MAC_IRQ, 9, 1⟩
abbrev MAC_IRQ.ACKLATE : Field := ⟨Reg.MAC_IRQ, 7, 1⟩
abbrev MAC_IRQ.NOACK : Field := ⟨Reg.MAC_IRQ, 5, 1⟩
abbrev MAC_IRQ.TXDONE : Field := ⟨Reg.MAC_IRQ, 4, 1⟩
abbrev MAC_IRQ.DUP : Field := ⟨Reg.MAC_IRQ, 3, 1⟩
abbrev MAC_IRQ.SECERR : Field := ⟨Reg.MAC_IRQ, 2, 1⟩
abbrev MAC_IRQ.RXQ : Field := ⟨Reg.MAC_IRQ, 0, 1⟩
/-- MAC_IRQEN; spec/12_medium_access.md. -/
abbrev Reg.MAC_IRQEN : Nat := 0x40015054
abbrev MAC_IRQEN.ZTIMEOUT : Field := ⟨Reg.MAC_IRQEN, 15, 1⟩
abbrev MAC_IRQEN.ZHAND : Field := ⟨Reg.MAC_IRQEN, 14, 1⟩
abbrev MAC_IRQEN.NOLANE : Field := ⟨Reg.MAC_IRQEN, 13, 1⟩
abbrev MAC_IRQEN.BCNSENT : Field := ⟨Reg.MAC_IRQEN, 12, 1⟩
abbrev MAC_IRQEN.RESYNC : Field := ⟨Reg.MAC_IRQEN, 11, 1⟩
abbrev MAC_IRQEN.LOST : Field := ⟨Reg.MAC_IRQEN, 10, 1⟩
abbrev MAC_IRQEN.DOUBT : Field := ⟨Reg.MAC_IRQEN, 9, 1⟩
abbrev MAC_IRQEN.ACKLATE : Field := ⟨Reg.MAC_IRQEN, 7, 1⟩
abbrev MAC_IRQEN.NOACK : Field := ⟨Reg.MAC_IRQEN, 5, 1⟩
abbrev MAC_IRQEN.TXDONE : Field := ⟨Reg.MAC_IRQEN, 4, 1⟩
abbrev MAC_IRQEN.DUP : Field := ⟨Reg.MAC_IRQEN, 3, 1⟩
abbrev MAC_IRQEN.SECERR : Field := ⟨Reg.MAC_IRQEN, 2, 1⟩
abbrev MAC_IRQEN.RXQ : Field := ⟨Reg.MAC_IRQEN, 0, 1⟩
/-- MAC_RXQBASE; spec/12_medium_access.md. -/
abbrev Reg.MAC_RXQBASE : Nat := 0x40015060
abbrev MAC_RXQBASE.ADDR : Field := ⟨Reg.MAC_RXQBASE, 12, 20⟩
abbrev MAC_RXQBASE.EN : Field := ⟨Reg.MAC_RXQBASE, 4, 1⟩
abbrev MAC_RXQBASE.SIZE : Field := ⟨Reg.MAC_RXQBASE, 0, 4⟩
/-- MAC_RXQPTR; spec/12_medium_access.md. -/
abbrev Reg.MAC_RXQPTR : Nat := 0x40015064
abbrev MAC_RXQPTR.RD : Field := ⟨Reg.MAC_RXQPTR, 16, 16⟩
abbrev MAC_RXQPTR.WR : Field := ⟨Reg.MAC_RXQPTR, 0, 16⟩
/-- MAC_TXQBASE; spec/12_medium_access.md. -/
abbrev Reg.MAC_TXQBASE : Nat := 0x40015068
abbrev MAC_TXQBASE.ADDR : Field := ⟨Reg.MAC_TXQBASE, 13, 19⟩
abbrev MAC_TXQBASE.EN : Field := ⟨Reg.MAC_TXQBASE, 8, 1⟩
abbrev MAC_TXQBASE.LAST : Field := ⟨Reg.MAC_TXQBASE, 0, 8⟩
/-- MAC_TXQPTR; spec/12_medium_access.md. -/
abbrev Reg.MAC_TXQPTR : Nat := 0x4001506C
abbrev MAC_TXQPTR.HEAD : Field := ⟨Reg.MAC_TXQPTR, 16, 8⟩
abbrev MAC_TXQPTR.TAIL : Field := ⟨Reg.MAC_TXQPTR, 0, 8⟩
/-- MAC_CNTk; spec/12_medium_access.md. -/
abbrev Reg.MAC_CNT (n : Nat) : Nat := (0x40015070 + 0x4 * n)
abbrev MAC_CNT.HI (n : Nat) : Field := ⟨Reg.MAC_CNT n, 16, 16⟩
abbrev MAC_CNT.LO (n : Nat) : Field := ⟨Reg.MAC_CNT n, 0, 16⟩
/-- MAC_ZBURST; spec/12_medium_access.md. -/
abbrev Reg.MAC_ZBURST : Nat := 0x40015088
abbrev MAC_ZBURST.ZGAP : Field := ⟨Reg.MAC_ZBURST, 16, 16⟩
abbrev MAC_ZBURST.PRE : Field := ⟨Reg.MAC_ZBURST, 0, 7⟩
/-- MAC_HOPn; spec/12_medium_access.md. -/
abbrev Reg.MAC_HOP (n : Nat) : Nat := (0x400150C0 + 0x4 * n)
abbrev Reg.MAC_HOP_LIVE (n : Nat) : Nat := (0x400150D0 + 0x4 * n)
abbrev MAC_HOP.E3 (n : Nat) : Field := ⟨Reg.MAC_HOP n, 24, 7⟩
abbrev MAC_HOP.E2 (n : Nat) : Field := ⟨Reg.MAC_HOP n, 16, 7⟩
abbrev MAC_HOP.E1 (n : Nat) : Field := ⟨Reg.MAC_HOP n, 8, 7⟩
abbrev MAC_HOP.E0 (n : Nat) : Field := ⟨Reg.MAC_HOP n, 0, 7⟩
/-- MAC_HOPCFG; spec/12_medium_access.md. -/
abbrev Reg.MAC_HOPCFG : Nat := 0x400150E0
abbrev Reg.MAC_HOPCFG_LIVE : Nat := 0x400150E4
abbrev MAC_HOPCFG.LEN : Field := ⟨Reg.MAC_HOPCFG, 0, 5⟩
/-- MAC_SFn; spec/12_medium_access.md. -/
abbrev Reg.MAC_SF (n : Nat) : Nat := (0x40015300 + 0x4 * n)
abbrev Reg.MAC_SF_LIVE (n : Nat) : Nat := (0x40015320 + 0x4 * n)
abbrev MAC_SF.EN (n : Nat) : Field := ⟨Reg.MAC_SF n, 31, 1⟩
abbrev MAC_SF.LEN (n : Nat) : Field := ⟨Reg.MAC_SF n, 0, 12⟩
/-- MAC_LINKAn; spec/12_medium_access.md. -/
abbrev Reg.MAC_LINKA (n : Nat) : Nat := (0x40015800 + 0x8 * n)
abbrev Reg.MAC_LINKA_LIVE (n : Nat) : Nat := (0x40015A00 + 0x8 * n)
abbrev MAC_LINKA.EN (n : Nat) : Field := ⟨Reg.MAC_LINKA n, 31, 1⟩
abbrev MAC_LINKA.TYPE (n : Nat) : Field := ⟨Reg.MAC_LINKA n, 29, 2⟩
abbrev MAC_LINKA.HOP (n : Nat) : Field := ⟨Reg.MAC_LINKA n, 28, 1⟩
abbrev MAC_LINKA.SF (n : Nat) : Field := ⟨Reg.MAC_LINKA n, 25, 3⟩
abbrev MAC_LINKA.SPAN (n : Nat) : Field := ⟨Reg.MAC_LINKA n, 21, 4⟩
abbrev MAC_LINKA.CHAN (n : Nat) : Field := ⟨Reg.MAC_LINKA n, 12, 7⟩
abbrev MAC_LINKA.SLOTOFS (n : Nat) : Field := ⟨Reg.MAC_LINKA n, 0, 12⟩
/-- MAC_LINKBn; spec/12_medium_access.md. -/
abbrev Reg.MAC_LINKB (n : Nat) : Nat := (0x40015804 + 0x8 * n)
abbrev Reg.MAC_LINKB_LIVE (n : Nat) : Nat := (0x40015A04 + 0x8 * n)
abbrev MAC_LINKB.WAKEOFS (n : Nat) : Field := ⟨Reg.MAC_LINKB n, 24, 8⟩
abbrev MAC_LINKB.ANY (n : Nat) : Field := ⟨Reg.MAC_LINKB n, 13, 1⟩
abbrev MAC_LINKB.PEER (n : Nat) : Field := ⟨Reg.MAC_LINKB n, 0, 13⟩

/-! ### TIME -/
/-- TIME_COMMIT; spec/01_architecture.md. -/
abbrev Reg.TIME_COMMIT : Nat := 0x40004FF0
abbrev TIME_COMMIT.GEN : Field := ⟨Reg.TIME_COMMIT, 16, 16⟩
abbrev TIME_COMMIT.COMMIT_ERR : Field := ⟨Reg.TIME_COMMIT, 8, 8⟩
abbrev TIME_COMMIT.OVR : Field := ⟨Reg.TIME_COMMIT, 4, 1⟩
abbrev TIME_COMMIT.REJ : Field := ⟨Reg.TIME_COMMIT, 3, 1⟩
abbrev TIME_COMMIT.DONE : Field := ⟨Reg.TIME_COMMIT, 2, 1⟩
abbrev TIME_COMMIT.PEND : Field := ⟨Reg.TIME_COMMIT, 1, 1⟩
abbrev TIME_COMMIT.GO : Field := ⟨Reg.TIME_COMMIT, 0, 1⟩
/-- TIME_STAT; spec/15_network_time.md. -/
abbrev Reg.TIME_STAT : Nat := 0x40004000
abbrev TIME_STAT.VALID : Field := ⟨Reg.TIME_STAT, 31, 1⟩
abbrev TIME_STAT.SERVO : Field := ⟨Reg.TIME_STAT, 30, 1⟩
abbrev TIME_STAT.HOLDOVER : Field := ⟨Reg.TIME_STAT, 29, 1⟩
abbrev TIME_STAT.SLEWING : Field := ⟨Reg.TIME_STAT, 28, 1⟩
abbrev TIME_STAT.SRC : Field := ⟨Reg.TIME_STAT, 26, 2⟩
abbrev TIME_STAT.QUAL : Field := ⟨Reg.TIME_STAT, 8, 8⟩
abbrev TIME_STAT.TRACE : Field := ⟨Reg.TIME_STAT, 0, 1⟩
/-- TIME_CNT_LO; spec/15_network_time.md. -/
abbrev Reg.TIME_CNT_LO : Nat := 0x40004008
abbrev TIME_CNT_LO.CNT : Field := ⟨Reg.TIME_CNT_LO, 0, 32⟩
/-- TIME_CNT_HI; spec/15_network_time.md. -/
abbrev Reg.TIME_CNT_HI : Nat := 0x4000400C
abbrev TIME_CNT_HI.CNT : Field := ⟨Reg.TIME_CNT_HI, 0, 32⟩
/-- TIME_NOW_LO; spec/15_network_time.md. -/
abbrev Reg.TIME_NOW_LO : Nat := 0x40004010
abbrev TIME_NOW_LO.NOW : Field := ⟨Reg.TIME_NOW_LO, 0, 32⟩
/-- TIME_NOW_HI; spec/15_network_time.md. -/
abbrev Reg.TIME_NOW_HI : Nat := 0x40004014
abbrev TIME_NOW_HI.NOW : Field := ⟨Reg.TIME_NOW_HI, 0, 32⟩
/-- TIME_NOWC_LO; spec/15_network_time.md. -/
abbrev Reg.TIME_NOWC_LO : Nat := 0x40004018
abbrev TIME_NOWC_LO.CNT : Field := ⟨Reg.TIME_NOWC_LO, 0, 32⟩
/-- TIME_NOWC_HI; spec/15_network_time.md. -/
abbrev Reg.TIME_NOWC_HI : Nat := 0x4000401C
abbrev TIME_NOWC_HI.CNT : Field := ⟨Reg.TIME_NOWC_HI, 0, 32⟩
/-- TIME_ADJ; spec/15_network_time.md. -/
abbrev Reg.TIME_ADJ : Nat := 0x40004020
abbrev TIME_ADJ.ADJ : Field := ⟨Reg.TIME_ADJ, 0, 32⟩
/-- TIME_SLEWREM; spec/15_network_time.md. -/
abbrev Reg.TIME_SLEWREM : Nat := 0x40004024
abbrev TIME_SLEWREM.REM : Field := ⟨Reg.TIME_SLEWREM, 0, 32⟩
/-- TIME_CORR_LO; spec/15_network_time.md. -/
abbrev Reg.TIME_CORR_LO : Nat := 0x40004028
abbrev TIME_CORR_LO.OPND : Field := ⟨Reg.TIME_CORR_LO, 0, 32⟩
/-- TIME_CORR_HI; spec/15_network_time.md. -/
abbrev Reg.TIME_CORR_HI : Nat := 0x4000402C
abbrev TIME_CORR_HI.OPND : Field := ⟨Reg.TIME_CORR_HI, 0, 32⟩
/-- TIME_CMD; spec/15_network_time.md. -/
abbrev Reg.TIME_CMD : Nat := 0x40004030
abbrev TIME_CMD.RESULT : Field := ⟨Reg.TIME_CMD, 24, 2⟩
abbrev TIME_CMD.FORCE : Field := ⟨Reg.TIME_CMD, 8, 1⟩
abbrev TIME_CMD.OP : Field := ⟨Reg.TIME_CMD, 0, 4⟩
/-- TIME_JUMPMAX; spec/15_network_time.md. -/
abbrev Reg.TIME_JUMPMAX : Nat := 0x40004034
abbrev TIME_JUMPMAX.MAX : Field := ⟨Reg.TIME_JUMPMAX, 0, 32⟩
/-- TIME_SRVCFG; spec/15_network_time.md. -/
abbrev Reg.TIME_SRVCFG : Nat := 0x40004040
abbrev TIME_SRVCFG.EN : Field := ⟨Reg.TIME_SRVCFG, 31, 1⟩
abbrev TIME_SRVCFG.BCN : Field := ⟨Reg.TIME_SRVCFG, 27, 1⟩
abbrev TIME_SRVCFG.RING : Field := ⟨Reg.TIME_SRVCFG, 26, 1⟩
abbrev TIME_SRVCFG.PPS : Field := ⟨Reg.TIME_SRVCFG, 25, 1⟩
abbrev TIME_SRVCFG.TAKEOVER : Field := ⟨Reg.TIME_SRVCFG, 16, 8⟩
abbrev TIME_SRVCFG.KISH : Field := ⟨Reg.TIME_SRVCFG, 8, 4⟩
abbrev TIME_SRVCFG.KPSH : Field := ⟨Reg.TIME_SRVCFG, 0, 4⟩
/-- TIME_SRVLIM; spec/15_network_time.md. -/
abbrev Reg.TIME_SRVLIM : Nat := 0x40004044
abbrev TIME_SRVLIM.HOLD : Field := ⟨Reg.TIME_SRVLIM, 24, 8⟩
abbrev TIME_SRVLIM.SRCLOSS : Field := ⟨Reg.TIME_SRVLIM, 16, 8⟩
abbrev TIME_SRVLIM.SLEWMAX : Field := ⟨Reg.TIME_SRVLIM, 8, 8⟩
abbrev TIME_SRVLIM.RLIM : Field := ⟨Reg.TIME_SRVLIM, 0, 8⟩
/-- TIME_DLY; spec/15_network_time.md. -/
abbrev Reg.TIME_DLY : Nat := 0x40004048
abbrev TIME_DLY.BCNDLY : Field := ⟨Reg.TIME_DLY, 16, 16⟩
abbrev TIME_DLY.PPSDLY : Field := ⟨Reg.TIME_DLY, 0, 16⟩
/-- TIME_MEASs; spec/15_network_time.md. -/
abbrev Reg.TIME_MEAS (n : Nat) : Nat := (0x40004050 + 0x4 * n)
abbrev TIME_MEAS.X (n : Nat) : Field := ⟨Reg.TIME_MEAS n, 0, 32⟩
/-- TIME_IRQ; spec/15_network_time.md. -/
abbrev Reg.TIME_IRQ : Nat := 0x40004060
abbrev TIME_IRQ.MEAS : Field := ⟨Reg.TIME_IRQ, 28, 1⟩
abbrev TIME_IRQ.HOLDOVER : Field := ⟨Reg.TIME_IRQ, 27, 1⟩
abbrev TIME_IRQ.SRCCHG : Field := ⟨Reg.TIME_IRQ, 26, 1⟩
abbrev TIME_IRQ.JUMPREF : Field := ⟨Reg.TIME_IRQ, 25, 1⟩
abbrev TIME_IRQ.TAKEOVER : Field := ⟨Reg.TIME_IRQ, 24, 1⟩
abbrev TIME_IRQ.CAPOVF : Field := ⟨Reg.TIME_IRQ, 16, 1⟩
abbrev TIME_IRQ.CAP : Field := ⟨Reg.TIME_IRQ, 8, 8⟩
abbrev TIME_IRQ.LATE : Field := ⟨Reg.TIME_IRQ, 7, 1⟩
abbrev TIME_IRQ.CMP : Field := ⟨Reg.TIME_IRQ, 0, 7⟩
/-- TIME_IRQEN; spec/15_network_time.md. -/
abbrev Reg.TIME_IRQEN : Nat := 0x40004064
abbrev TIME_IRQEN.MEAS : Field := ⟨Reg.TIME_IRQEN, 28, 1⟩
abbrev TIME_IRQEN.HOLDOVER : Field := ⟨Reg.TIME_IRQEN, 27, 1⟩
abbrev TIME_IRQEN.SRCCHG : Field := ⟨Reg.TIME_IRQEN, 26, 1⟩
abbrev TIME_IRQEN.JUMPREF : Field := ⟨Reg.TIME_IRQEN, 25, 1⟩
abbrev TIME_IRQEN.TAKEOVER : Field := ⟨Reg.TIME_IRQEN, 24, 1⟩
abbrev TIME_IRQEN.CAPOVF : Field := ⟨Reg.TIME_IRQEN, 16, 1⟩
abbrev TIME_IRQEN.CAP : Field := ⟨Reg.TIME_IRQEN, 8, 8⟩
abbrev TIME_IRQEN.LATE : Field := ⟨Reg.TIME_IRQEN, 7, 1⟩
abbrev TIME_IRQEN.CMP : Field := ⟨Reg.TIME_IRQEN, 0, 7⟩
/-- TIME_ERRCNT; spec/15_network_time.md. -/
abbrev Reg.TIME_ERRCNT : Nat := 0x40004068
abbrev TIME_ERRCNT.JUMPREF : Field := ⟨Reg.TIME_ERRCNT, 16, 16⟩
abbrev TIME_ERRCNT.CAPOVF : Field := ⟨Reg.TIME_ERRCNT, 0, 16⟩
/-- TIME_CCTLn; spec/15_network_time.md. -/
abbrev Reg.TIME_CCTL (n : Nat) : Nat := (0x40004100 + 0x20 * n)
abbrev Reg.TIME_CCTL_LIVE (n : Nat) : Nat := (0x40004200 + 0x20 * n)
abbrev TIME_CCTL.EN (n : Nat) : Field := ⟨Reg.TIME_CCTL n, 31, 1⟩
abbrev TIME_CCTL.PERIODIC (n : Nat) : Field := ⟨Reg.TIME_CCTL n, 30, 1⟩
abbrev TIME_CCTL.ACT (n : Nat) : Field := ⟨Reg.TIME_CCTL n, 28, 2⟩
abbrev TIME_CCTL.PIN (n : Nat) : Field := ⟨Reg.TIME_CCTL n, 25, 3⟩
abbrev TIME_CCTL.MSU (n : Nat) : Field := ⟨Reg.TIME_CCTL n, 24, 1⟩
abbrev TIME_CCTL.TMR (n : Nat) : Field := ⟨Reg.TIME_CCTL n, 23, 1⟩
abbrev TIME_CCTL.TMRSEL (n : Nat) : Field := ⟨Reg.TIME_CCTL n, 20, 3⟩
abbrev TIME_CCTL.IRQ (n : Nat) : Field := ⟨Reg.TIME_CCTL n, 19, 1⟩
abbrev TIME_CCTL.PWU (n : Nat) : Field := ⟨Reg.TIME_CCTL n, 16, 2⟩
abbrev TIME_CCTL.PW (n : Nat) : Field := ⟨Reg.TIME_CCTL n, 0, 16⟩
/-- TIME_CTGTn_LO; spec/15_network_time.md. -/
abbrev Reg.TIME_CTGT_LO (n : Nat) : Nat := (0x40004104 + 0x20 * n)
abbrev Reg.TIME_CTGT_LO_LIVE (n : Nat) : Nat := (0x40004204 + 0x20 * n)
abbrev TIME_CTGT_LO.TGT (n : Nat) : Field := ⟨Reg.TIME_CTGT_LO n, 0, 32⟩
/-- TIME_CTGTn_HI; spec/15_network_time.md. -/
abbrev Reg.TIME_CTGT_HI (n : Nat) : Nat := (0x40004108 + 0x20 * n)
abbrev Reg.TIME_CTGT_HI_LIVE (n : Nat) : Nat := (0x40004208 + 0x20 * n)
abbrev TIME_CTGT_HI.TGT (n : Nat) : Field := ⟨Reg.TIME_CTGT_HI n, 0, 32⟩
/-- TIME_CPERn_LO; spec/15_network_time.md. -/
abbrev Reg.TIME_CPER_LO (n : Nat) : Nat := (0x4000410C + 0x20 * n)
abbrev Reg.TIME_CPER_LO_LIVE (n : Nat) : Nat := (0x4000420C + 0x20 * n)
abbrev TIME_CPER_LO.PER (n : Nat) : Field := ⟨Reg.TIME_CPER_LO n, 0, 32⟩
/-- TIME_CPERn_HI; spec/15_network_time.md. -/
abbrev Reg.TIME_CPER_HI (n : Nat) : Nat := (0x40004110 + 0x20 * n)
abbrev Reg.TIME_CPER_HI_LIVE (n : Nat) : Nat := (0x40004210 + 0x20 * n)
abbrev TIME_CPER_HI.PER (n : Nat) : Field := ⟨Reg.TIME_CPER_HI n, 0, 32⟩
/-- TIME_CSTATn; spec/15_network_time.md. -/
abbrev Reg.TIME_CSTAT (n : Nat) : Nat := (0x40004300 + 0x4 * n)
abbrev TIME_CSTAT.ARMED (n : Nat) : Field := ⟨Reg.TIME_CSTAT n, 31, 1⟩
abbrev TIME_CSTAT.LATE (n : Nat) : Field := ⟨Reg.TIME_CSTAT n, 30, 1⟩
abbrev TIME_CSTAT.SKIP (n : Nat) : Field := ⟨Reg.TIME_CSTAT n, 16, 8⟩
abbrev TIME_CSTAT.FIRED (n : Nat) : Field := ⟨Reg.TIME_CSTAT n, 0, 16⟩
/-- TIME_CAPCFGn; spec/15_network_time.md. -/
abbrev Reg.TIME_CAPCFG (n : Nat) : Nat := (0x40004400 + 0x20 * n)
abbrev TIME_CAPCFG.EN (n : Nat) : Field := ⟨Reg.TIME_CAPCFG n, 31, 1⟩
abbrev TIME_CAPCFG.POP (n : Nat) : Field := ⟨Reg.TIME_CAPCFG n, 30, 1⟩
abbrev TIME_CAPCFG.EDGE (n : Nat) : Field := ⟨Reg.TIME_CAPCFG n, 28, 2⟩
abbrev TIME_CAPCFG.SRC (n : Nat) : Field := ⟨Reg.TIME_CAPCFG n, 16, 8⟩
abbrev TIME_CAPCFG.LANE (n : Nat) : Field := ⟨Reg.TIME_CAPCFG n, 8, 7⟩
abbrev TIME_CAPCFG.OVF (n : Nat) : Field := ⟨Reg.TIME_CAPCFG n, 7, 1⟩
abbrev TIME_CAPCFG.LEVEL (n : Nat) : Field := ⟨Reg.TIME_CAPCFG n, 0, 3⟩
/-- TIME_CAPCn_LO; spec/15_network_time.md. -/
abbrev Reg.TIME_CAPC_LO (n : Nat) : Nat := (0x40004404 + 0x20 * n)
abbrev TIME_CAPC_LO.CNT (n : Nat) : Field := ⟨Reg.TIME_CAPC_LO n, 0, 32⟩
/-- TIME_CAPCn_HI; spec/15_network_time.md. -/
abbrev Reg.TIME_CAPC_HI (n : Nat) : Nat := (0x40004408 + 0x20 * n)
abbrev TIME_CAPC_HI.CNT (n : Nat) : Field := ⟨Reg.TIME_CAPC_HI n, 0, 32⟩
/-- TIME_CAPNTn_LO; spec/15_network_time.md. -/
abbrev Reg.TIME_CAPNT_LO (n : Nat) : Nat := (0x4000440C + 0x20 * n)
abbrev TIME_CAPNT_LO.NT (n : Nat) : Field := ⟨Reg.TIME_CAPNT_LO n, 0, 32⟩
/-- TIME_CAPNTn_HI; spec/15_network_time.md. -/
abbrev Reg.TIME_CAPNT_HI (n : Nat) : Nat := (0x40004410 + 0x20 * n)
abbrev TIME_CAPNT_HI.NT (n : Nat) : Field := ⟨Reg.TIME_CAPNT_HI n, 0, 32⟩

/-! ### RING -/
/-- RING_COMMIT; spec/01_architecture.md. -/
abbrev Reg.RING_COMMIT : Nat := 0x40017FF0
abbrev RING_COMMIT.GEN : Field := ⟨Reg.RING_COMMIT, 16, 16⟩
abbrev RING_COMMIT.COMMIT_ERR : Field := ⟨Reg.RING_COMMIT, 8, 8⟩
abbrev RING_COMMIT.OVR : Field := ⟨Reg.RING_COMMIT, 4, 1⟩
abbrev RING_COMMIT.REJ : Field := ⟨Reg.RING_COMMIT, 3, 1⟩
abbrev RING_COMMIT.DONE : Field := ⟨Reg.RING_COMMIT, 2, 1⟩
abbrev RING_COMMIT.PEND : Field := ⟨Reg.RING_COMMIT, 1, 1⟩
abbrev RING_COMMIT.GO : Field := ⟨Reg.RING_COMMIT, 0, 1⟩
/-- RING_CFG; spec/21_selvage_ring.md. -/
abbrev Reg.RING_CFG : Nat := 0x40017000
abbrev RING_CFG.EN : Field := ⟨Reg.RING_CFG, 31, 1⟩
abbrev RING_CFG.TMEAS : Field := ⟨Reg.RING_CFG, 30, 1⟩
abbrev RING_CFG.DICTEN : Field := ⟨Reg.RING_CFG, 29, 1⟩
abbrev RING_CFG.MGRPRI : Field := ⟨Reg.RING_CFG, 0, 4⟩
/-- RING_STAT; spec/21_selvage_ring.md. -/
abbrev Reg.RING_STAT : Nat := 0x40017004
abbrev RING_STAT.STATE : Field := ⟨Reg.RING_STAT, 29, 3⟩
abbrev RING_STAT.ISOL : Field := ⟨Reg.RING_STAT, 28, 1⟩
abbrev RING_STAT.NOPOS : Field := ⟨Reg.RING_STAT, 27, 1⟩
abbrev RING_STAT.WRAPE : Field := ⟨Reg.RING_STAT, 26, 1⟩
abbrev RING_STAT.WRAPW : Field := ⟨Reg.RING_STAT, 25, 1⟩
abbrev RING_STAT.POS : Field := ⟨Reg.RING_STAT, 16, 5⟩
abbrev RING_STAT.NPOS : Field := ⟨Reg.RING_STAT, 8, 8⟩
/-- RING_PORTk; spec/21_selvage_ring.md. -/
abbrev Reg.RING_PORT (n : Nat) : Nat := (0x40017010 + 0x4 * n)
abbrev RING_PORT.UP (n : Nat) : Field := ⟨Reg.RING_PORT n, 31, 1⟩
abbrev RING_PORT.RXOK (n : Nat) : Field := ⟨Reg.RING_PORT n, 30, 1⟩
abbrev RING_PORT.NBOK (n : Nat) : Field := ⟨Reg.RING_PORT n, 29, 1⟩
abbrev RING_PORT.DVALID (n : Nat) : Field := ⟨Reg.RING_PORT n, 28, 1⟩
abbrev RING_PORT.DELAY (n : Nat) : Field := ⟨Reg.RING_PORT n, 0, 16⟩
/-- RING_LAT; spec/21_selvage_ring.md. -/
abbrev Reg.RING_LAT : Nat := 0x40017018
abbrev RING_LAT.RESID : Field := ⟨Reg.RING_LAT, 16, 16⟩
abbrev RING_LAT.LAT : Field := ⟨Reg.RING_LAT, 0, 16⟩
/-- RING_PLAN; spec/21_selvage_ring.md. -/
abbrev Reg.RING_PLAN : Nat := 0x40017020
abbrev Reg.RING_PLAN_LIVE : Nat := 0x40017024
abbrev RING_PLAN.GAP : Field := ⟨Reg.RING_PLAN, 24, 8⟩
abbrev RING_PLAN.NSLOT : Field := ⟨Reg.RING_PLAN, 16, 6⟩
abbrev RING_PLAN.SLOT : Field := ⟨Reg.RING_PLAN, 0, 6⟩
/-- RING_TREF_LO; spec/21_selvage_ring.md. -/
abbrev Reg.RING_TREF_LO : Nat := 0x40017028
abbrev RING_TREF_LO.VAL : Field := ⟨Reg.RING_TREF_LO, 0, 32⟩
/-- RING_TREF_HI; spec/21_selvage_ring.md. -/
abbrev Reg.RING_TREF_HI : Nat := 0x4001702C
abbrev RING_TREF_HI.VAL : Field := ⟨Reg.RING_TREF_HI, 0, 32⟩
/-- RING_TRXC_LO; spec/21_selvage_ring.md. -/
abbrev Reg.RING_TRXC_LO : Nat := 0x40017080
abbrev RING_TRXC_LO.VAL : Field := ⟨Reg.RING_TRXC_LO, 0, 32⟩
/-- RING_TRXC_HI; spec/21_selvage_ring.md. -/
abbrev Reg.RING_TRXC_HI : Nat := 0x40017084
abbrev RING_TRXC_HI.VAL : Field := ⟨Reg.RING_TRXC_HI, 0, 32⟩
/-- RING_TXQBASE; spec/21_selvage_ring.md. -/
abbrev Reg.RING_TXQBASE : Nat := 0x40017030
abbrev RING_TXQBASE.ADDR : Field := ⟨Reg.RING_TXQBASE, 8, 24⟩
abbrev RING_TXQBASE.EN : Field := ⟨Reg.RING_TXQBASE, 0, 1⟩
/-- RING_RXQBASE; spec/21_selvage_ring.md. -/
abbrev Reg.RING_RXQBASE : Nat := 0x40017038
abbrev RING_RXQBASE.ADDR : Field := ⟨Reg.RING_RXQBASE, 12, 20⟩
abbrev RING_RXQBASE.EN : Field := ⟨Reg.RING_RXQBASE, 4, 1⟩
abbrev RING_RXQBASE.SIZE : Field := ⟨Reg.RING_RXQBASE, 0, 4⟩
/-- RING_TXQPTR; spec/21_selvage_ring.md. -/
abbrev Reg.RING_TXQPTR : Nat := 0x40017034
abbrev RING_TXQPTR.HEAD : Field := ⟨Reg.RING_TXQPTR, 8, 4⟩
abbrev RING_TXQPTR.TAIL : Field := ⟨Reg.RING_TXQPTR, 0, 4⟩
/-- RING_RXQPTR; spec/21_selvage_ring.md. -/
abbrev Reg.RING_RXQPTR : Nat := 0x4001703C
abbrev RING_RXQPTR.RD : Field := ⟨Reg.RING_RXQPTR, 16, 16⟩
abbrev RING_RXQPTR.WR : Field := ⟨Reg.RING_RXQPTR, 0, 16⟩
/-- RING_IRQ; spec/21_selvage_ring.md. -/
abbrev Reg.RING_IRQ : Nat := 0x40017040
abbrev RING_IRQ.NOPOS : Field := ⟨Reg.RING_IRQ, 8, 1⟩
abbrev RING_IRQ.POSCHG : Field := ⟨Reg.RING_IRQ, 7, 1⟩
abbrev RING_IRQ.STATE : Field := ⟨Reg.RING_IRQ, 6, 1⟩
abbrev RING_IRQ.WRAP : Field := ⟨Reg.RING_IRQ, 5, 1⟩
abbrev RING_IRQ.UP : Field := ⟨Reg.RING_IRQ, 4, 1⟩
abbrev RING_IRQ.DOWN : Field := ⟨Reg.RING_IRQ, 3, 1⟩
abbrev RING_IRQ.TIME : Field := ⟨Reg.RING_IRQ, 2, 1⟩
abbrev RING_IRQ.TXDONE : Field := ⟨Reg.RING_IRQ, 1, 1⟩
abbrev RING_IRQ.RXQ : Field := ⟨Reg.RING_IRQ, 0, 1⟩
/-- RING_IRQEN; spec/21_selvage_ring.md. -/
abbrev Reg.RING_IRQEN : Nat := 0x40017044
abbrev RING_IRQEN.NOPOS : Field := ⟨Reg.RING_IRQEN, 8, 1⟩
abbrev RING_IRQEN.POSCHG : Field := ⟨Reg.RING_IRQEN, 7, 1⟩
abbrev RING_IRQEN.STATE : Field := ⟨Reg.RING_IRQEN, 6, 1⟩
abbrev RING_IRQEN.WRAP : Field := ⟨Reg.RING_IRQEN, 5, 1⟩
abbrev RING_IRQEN.UP : Field := ⟨Reg.RING_IRQEN, 4, 1⟩
abbrev RING_IRQEN.DOWN : Field := ⟨Reg.RING_IRQEN, 3, 1⟩
abbrev RING_IRQEN.TIME : Field := ⟨Reg.RING_IRQEN, 2, 1⟩
abbrev RING_IRQEN.TXDONE : Field := ⟨Reg.RING_IRQEN, 1, 1⟩
abbrev RING_IRQEN.RXQ : Field := ⟨Reg.RING_IRQEN, 0, 1⟩
/-- RING_CNT0; spec/21_selvage_ring.md. -/
abbrev Reg.RING_CNT0 : Nat := 0x40017050
abbrev RING_CNT0.CRC : Field := ⟨Reg.RING_CNT0, 16, 16⟩
abbrev RING_CNT0.ABORT : Field := ⟨Reg.RING_CNT0, 0, 16⟩
/-- RING_CNT1; spec/21_selvage_ring.md. -/
abbrev Reg.RING_CNT1 : Nat := 0x40017054
abbrev RING_CNT1.STALE : Field := ⟨Reg.RING_CNT1, 16, 16⟩
abbrev RING_CNT1.CODEERR : Field := ⟨Reg.RING_CNT1, 0, 16⟩

/-! ### BUS -/
/-- BUS_CTRL; spec/02_memory_map_and_bus.md. -/
abbrev Reg.BUS_CTRL : Nat := 0x40001000
abbrev BUS_CTRL.DBG_FLAG : Field := ⟨Reg.BUS_CTRL, 1, 1⟩
abbrev BUS_CTRL.OFFACC_FAULT : Field := ⟨Reg.BUS_CTRL, 0, 1⟩
/-- BUS_STAT; spec/02_memory_map_and_bus.md. -/
abbrev Reg.BUS_STAT : Nat := 0x40001004
abbrev BUS_STAT.OFFCNT : Field := ⟨Reg.BUS_STAT, 8, 8⟩
abbrev BUS_STAT.SIZEERR : Field := ⟨Reg.BUS_STAT, 2, 1⟩
abbrev BUS_STAT.DECERR : Field := ⟨Reg.BUS_STAT, 1, 1⟩
abbrev BUS_STAT.OFFACC : Field := ⟨Reg.BUS_STAT, 0, 1⟩
/-- BUS_OFFADDR; spec/02_memory_map_and_bus.md. -/
abbrev Reg.BUS_OFFADDR : Nat := 0x40001008
abbrev BUS_OFFADDR.ADDR : Field := ⟨Reg.BUS_OFFADDR, 0, 32⟩
/-- BUS_OFFINFO; spec/02_memory_map_and_bus.md. -/
abbrev Reg.BUS_OFFINFO : Nat := 0x4000100C
abbrev BUS_OFFINFO.DOMAIN : Field := ⟨Reg.BUS_OFFINFO, 8, 3⟩
abbrev BUS_OFFINFO.WRITE : Field := ⟨Reg.BUS_OFFINFO, 4, 1⟩
abbrev BUS_OFFINFO.MASTER : Field := ⟨Reg.BUS_OFFINFO, 0, 4⟩
/-- BUS_FADDR; spec/02_memory_map_and_bus.md. -/
abbrev Reg.BUS_FADDR : Nat := 0x40001010
abbrev BUS_FADDR.ADDR : Field := ⟨Reg.BUS_FADDR, 0, 32⟩
/-- BUS_FINFO; spec/02_memory_map_and_bus.md. -/
abbrev Reg.BUS_FINFO : Nat := 0x40001014
abbrev BUS_FINFO.VALID : Field := ⟨Reg.BUS_FINFO, 31, 1⟩
abbrev BUS_FINFO.SIZE : Field := ⟨Reg.BUS_FINFO, 10, 2⟩
abbrev BUS_FINFO.IMPRECISE : Field := ⟨Reg.BUS_FINFO, 9, 1⟩
abbrev BUS_FINFO.WRITE : Field := ⟨Reg.BUS_FINFO, 8, 1⟩
abbrev BUS_FINFO.CAUSE : Field := ⟨Reg.BUS_FINFO, 6, 2⟩
abbrev BUS_FINFO.MASTER : Field := ⟨Reg.BUS_FINFO, 0, 4⟩

/-! ### GPIO -/
/-- GPIO_STRAP; spec/03_pins_and_package.md. -/
abbrev Reg.GPIO_STRAP : Nat := 0x4000B0F0
abbrev GPIO_STRAP.ROLE : Field := ⟨Reg.GPIO_STRAP, 2, 1⟩
abbrev GPIO_STRAP.XOMODE : Field := ⟨Reg.GPIO_STRAP, 1, 1⟩
abbrev GPIO_STRAP.RUN : Field := ⟨Reg.GPIO_STRAP, 0, 1⟩
/-- GPIO_FSELk; spec/03_pins_and_package.md. -/
abbrev Reg.GPIO_FSEL (n : Nat) : Nat := (0x4000B020 + 0x4 * n)
abbrev GPIO_FSEL.F7 (n : Nat) : Field := ⟨Reg.GPIO_FSEL n, 28, 4⟩
abbrev GPIO_FSEL.F6 (n : Nat) : Field := ⟨Reg.GPIO_FSEL n, 24, 4⟩
abbrev GPIO_FSEL.F5 (n : Nat) : Field := ⟨Reg.GPIO_FSEL n, 20, 4⟩
abbrev GPIO_FSEL.F4 (n : Nat) : Field := ⟨Reg.GPIO_FSEL n, 16, 4⟩
abbrev GPIO_FSEL.F3 (n : Nat) : Field := ⟨Reg.GPIO_FSEL n, 12, 4⟩
abbrev GPIO_FSEL.F2 (n : Nat) : Field := ⟨Reg.GPIO_FSEL n, 8, 4⟩
abbrev GPIO_FSEL.F1 (n : Nat) : Field := ⟨Reg.GPIO_FSEL n, 4, 4⟩
abbrev GPIO_FSEL.F0 (n : Nat) : Field := ⟨Reg.GPIO_FSEL n, 0, 4⟩
/-- GPIO_DIR; spec/03_pins_and_package.md. -/
abbrev Reg.GPIO_DIR : Nat := 0x4000B000
abbrev GPIO_DIR.OE : Field := ⟨Reg.GPIO_DIR, 0, 24⟩
/-- GPIO_OUT; spec/03_pins_and_package.md. -/
abbrev Reg.GPIO_OUT : Nat := 0x4000B004
abbrev GPIO_OUT.OUT : Field := ⟨Reg.GPIO_OUT, 0, 24⟩
/-- GPIO_SET; spec/03_pins_and_package.md. -/
abbrev Reg.GPIO_SET : Nat := 0x4000B008
abbrev GPIO_SET.BITS : Field := ⟨Reg.GPIO_SET, 0, 24⟩
/-- GPIO_CLR; spec/03_pins_and_package.md. -/
abbrev Reg.GPIO_CLR : Nat := 0x4000B00C
abbrev GPIO_CLR.BITS : Field := ⟨Reg.GPIO_CLR, 0, 24⟩
/-- GPIO_IN; spec/03_pins_and_package.md. -/
abbrev Reg.GPIO_IN : Nat := 0x4000B010
abbrev GPIO_IN.IN : Field := ⟨Reg.GPIO_IN, 0, 24⟩
/-- GPIO_PULLEN; spec/03_pins_and_package.md. -/
abbrev Reg.GPIO_PULLEN : Nat := 0x4000B014
abbrev GPIO_PULLEN.EN : Field := ⟨Reg.GPIO_PULLEN, 0, 24⟩
/-- GPIO_PULLSEL; spec/03_pins_and_package.md. -/
abbrev Reg.GPIO_PULLSEL : Nat := 0x4000B018
abbrev GPIO_PULLSEL.UP : Field := ⟨Reg.GPIO_PULLSEL, 0, 24⟩
/-- GPIO_RISE; spec/03_pins_and_package.md. -/
abbrev Reg.GPIO_RISE : Nat := 0x4000B030
abbrev GPIO_RISE.EN : Field := ⟨Reg.GPIO_RISE, 0, 24⟩
/-- GPIO_FALL; spec/03_pins_and_package.md. -/
abbrev Reg.GPIO_FALL : Nat := 0x4000B034
abbrev GPIO_FALL.EN : Field := ⟨Reg.GPIO_FALL, 0, 24⟩
/-- GPIO_IRQ; spec/03_pins_and_package.md. -/
abbrev Reg.GPIO_IRQ : Nat := 0x4000B040
abbrev GPIO_IRQ.EDGE : Field := ⟨Reg.GPIO_IRQ, 0, 24⟩
/-- GPIO_IRQEN; spec/03_pins_and_package.md. -/
abbrev Reg.GPIO_IRQEN : Nat := 0x4000B044
abbrev GPIO_IRQEN.EDGE : Field := ⟨Reg.GPIO_IRQEN, 0, 24⟩

/-! ### EVM -/
/-- EVM_SRCn; spec/03_pins_and_package.md. -/
abbrev Reg.EVM_SRC (n : Nat) : Nat := (0x40003000 + 0x4 * n)
abbrev EVM_SRC.INV (n : Nat) : Field := ⟨Reg.EVM_SRC n, 8, 1⟩
abbrev EVM_SRC.SRC (n : Nat) : Field := ⟨Reg.EVM_SRC n, 0, 8⟩
/-- EVM_SWPULSE; spec/03_pins_and_package.md. -/
abbrev Reg.EVM_SWPULSE : Nat := 0x40003080
abbrev EVM_SWPULSE.PULSE : Field := ⟨Reg.EVM_SWPULSE, 0, 24⟩
/-- EVM_LEVEL; spec/03_pins_and_package.md. -/
abbrev Reg.EVM_LEVEL : Nat := 0x40003084
abbrev EVM_LEVEL.LEVEL : Field := ⟨Reg.EVM_LEVEL, 0, 24⟩

/-! ### WDT -/
/-- WDT_CTRL; spec/04_supplies_reset_clocks.md. -/
abbrev Reg.WDT_CTRL : Nat := 0x4000F000
abbrev WDT_CTRL.TIMEOUT : Field := ⟨Reg.WDT_CTRL, 16, 16⟩
abbrev WDT_CTRL.RUNSLP : Field := ⟨Reg.WDT_CTRL, 1, 1⟩
abbrev WDT_CTRL.EN : Field := ⟨Reg.WDT_CTRL, 0, 1⟩
/-- WDT_FEED; spec/04_supplies_reset_clocks.md. -/
abbrev Reg.WDT_FEED : Nat := 0x4000F004
abbrev WDT_FEED.FEED : Field := ⟨Reg.WDT_FEED, 0, 32⟩

/-! ### INTC -/
/-- INTC_ENk; spec/06_ewedo_isa.md. -/
abbrev Reg.INTC_EN (n : Nat) : Nat := (0x40002000 + 0x4 * n)
abbrev INTC_EN.EN (n : Nat) : Field := ⟨Reg.INTC_EN n, 0, 32⟩
/-- INTC_PENDk; spec/06_ewedo_isa.md. -/
abbrev Reg.INTC_PEND (n : Nat) : Nat := (0x40002008 + 0x4 * n)
abbrev INTC_PEND.PEND (n : Nat) : Field := ⟨Reg.INTC_PEND n, 0, 32⟩
/-- INTC_SW; spec/06_ewedo_isa.md. -/
abbrev Reg.INTC_SW : Nat := 0x40002010
abbrev INTC_SW.CLR : Field := ⟨Reg.INTC_SW, 8, 8⟩
abbrev INTC_SW.SET : Field := ⟨Reg.INTC_SW, 0, 8⟩
/-- INTC_PRIOk; spec/06_ewedo_isa.md. -/
abbrev Reg.INTC_PRIO (n : Nat) : Nat := (0x40002020 + 0x4 * n)
abbrev INTC_PRIO.P7 (n : Nat) : Field := ⟨Reg.INTC_PRIO n, 28, 3⟩
abbrev INTC_PRIO.P6 (n : Nat) : Field := ⟨Reg.INTC_PRIO n, 24, 3⟩
abbrev INTC_PRIO.P5 (n : Nat) : Field := ⟨Reg.INTC_PRIO n, 20, 3⟩
abbrev INTC_PRIO.P4 (n : Nat) : Field := ⟨Reg.INTC_PRIO n, 16, 3⟩
abbrev INTC_PRIO.P3 (n : Nat) : Field := ⟨Reg.INTC_PRIO n, 12, 3⟩
abbrev INTC_PRIO.P2 (n : Nat) : Field := ⟨Reg.INTC_PRIO n, 8, 3⟩
abbrev INTC_PRIO.P1 (n : Nat) : Field := ⟨Reg.INTC_PRIO n, 4, 3⟩
abbrev INTC_PRIO.P0 (n : Nat) : Field := ⟨Reg.INTC_PRIO n, 0, 3⟩

/-! ### WEFT -/
/-- WEFT_STATn; spec/07_weft_and_shuttle.md. -/
abbrev Reg.WEFT_STAT (n : Nat) : Nat := (0x40014000 + 0x80 * n)
abbrev WEFT_STAT.RESUME (n : Nat) : Field := ⟨Reg.WEFT_STAT n, 31, 1⟩
abbrev WEFT_STAT.FLT (n : Nat) : Field := ⟨Reg.WEFT_STAT n, 28, 1⟩
abbrev WEFT_STAT.DEQ (n : Nat) : Field := ⟨Reg.WEFT_STAT n, 24, 4⟩
abbrev WEFT_STAT.LANE (n : Nat) : Field := ⟨Reg.WEFT_STAT n, 16, 8⟩
abbrev WEFT_STAT.JCLASS (n : Nat) : Field := ⟨Reg.WEFT_STAT n, 8, 5⟩
abbrev WEFT_STAT.STATE (n : Nat) : Field := ⟨Reg.WEFT_STAT n, 0, 2⟩
/-- WEFT_FAULTn; spec/07_weft_and_shuttle.md. -/
abbrev Reg.WEFT_FAULT (n : Nat) : Nat := (0x40014004 + 0x80 * n)
abbrev WEFT_FAULT.CAUSE (n : Nat) : Field := ⟨Reg.WEFT_FAULT n, 28, 4⟩
abbrev WEFT_FAULT.JCLASS (n : Nat) : Field := ⟨Reg.WEFT_FAULT n, 16, 5⟩
abbrev WEFT_FAULT.PC (n : Nat) : Field := ⟨Reg.WEFT_FAULT n, 0, 14⟩

/-! ### RFRX -/
/-- RFRX_SPAN; spec/08_receive_front_end.md. -/
abbrev Reg.RFRX_SPAN : Nat := 0x40010010
abbrev RFRX_SPAN.PEND : Field := ⟨Reg.RFRX_SPAN, 31, 1⟩
abbrev RFRX_SPAN.LIVE : Field := ⟨Reg.RFRX_SPAN, 16, 12⟩
abbrev RFRX_SPAN.CENTRE : Field := ⟨Reg.RFRX_SPAN, 0, 12⟩
/-- RFRX_GAIN; spec/08_receive_front_end.md. -/
abbrev Reg.RFRX_GAIN : Nat := 0x40010020
abbrev RFRX_GAIN.MAXCODE : Field := ⟨Reg.RFRX_GAIN, 16, 4⟩
abbrev RFRX_GAIN.MINCODE : Field := ⟨Reg.RFRX_GAIN, 8, 4⟩
abbrev RFRX_GAIN.CODE : Field := ⟨Reg.RFRX_GAIN, 0, 4⟩
/-- RFRX_CLIP; spec/08_receive_front_end.md. -/
abbrev Reg.RFRX_CLIP : Nat := 0x40010024
abbrev RFRX_CLIP.COUNT : Field := ⟨Reg.RFRX_CLIP, 16, 16⟩
abbrev RFRX_CLIP.NCLIP : Field := ⟨Reg.RFRX_CLIP, 0, 5⟩
/-- RFRX_TRIMCFG; spec/08_receive_front_end.md. -/
abbrev Reg.RFRX_TRIMCFG : Nat := 0x40010030
abbrev RFRX_TRIMCFG.MAXSTEP : Field := ⟨Reg.RFRX_TRIMCFG, 24, 8⟩
abbrev RFRX_TRIMCFG.SNRMIN : Field := ⟨Reg.RFRX_TRIMCFG, 16, 5⟩
abbrev RFRX_TRIMCFG.NMIN : Field := ⟨Reg.RFRX_TRIMCFG, 8, 8⟩
abbrev RFRX_TRIMCFG.GAINSH : Field := ⟨Reg.RFRX_TRIMCFG, 4, 3⟩
abbrev RFRX_TRIMCFG.MODE : Field := ⟨Reg.RFRX_TRIMCFG, 0, 2⟩
/-- RFRX_TRIM; spec/08_receive_front_end.md. -/
abbrev Reg.RFRX_TRIM : Nat := 0x40010034
abbrev RFRX_TRIM.TRIM : Field := ⟨Reg.RFRX_TRIM, 0, 16⟩
/-- RFRX_TRIMSTAT; spec/08_receive_front_end.md. -/
abbrev Reg.RFRX_TRIMSTAT : Nat := 0x40010038
abbrev RFRX_TRIMSTAT.MEAN : Field := ⟨Reg.RFRX_TRIMSTAT, 16, 16⟩
abbrev RFRX_TRIMSTAT.N : Field := ⟨Reg.RFRX_TRIMSTAT, 8, 8⟩
/-- RFRX_CALREQ; spec/08_receive_front_end.md. -/
abbrev Reg.RFRX_CALREQ : Nat := 0x40010040
abbrev RFRX_CALREQ.FORCE : Field := ⟨Reg.RFRX_CALREQ, 8, 1⟩
abbrev RFRX_CALREQ.STEPS : Field := ⟨Reg.RFRX_CALREQ, 0, 4⟩
/-- RFRX_CALCFG; spec/08_receive_front_end.md. -/
abbrev Reg.RFRX_CALCFG : Nat := 0x40010044
abbrev RFRX_CALCFG.WAITLIM : Field := ⟨Reg.RFRX_CALCFG, 16, 16⟩
abbrev RFRX_CALCFG.TDELTA : Field := ⟨Reg.RFRX_CALCFG, 0, 5⟩
/-- RFRX_CALSTAT; spec/08_receive_front_end.md. -/
abbrev Reg.RFRX_CALSTAT : Nat := 0x40010048
abbrev RFRX_CALSTAT.DONE : Field := ⟨Reg.RFRX_CALSTAT, 31, 1⟩
abbrev RFRX_CALSTAT.BUSY : Field := ⟨Reg.RFRX_CALSTAT, 30, 1⟩
abbrev RFRX_CALSTAT.WAITING : Field := ⟨Reg.RFRX_CALSTAT, 29, 1⟩
abbrev RFRX_CALSTAT.FORCED : Field := ⟨Reg.RFRX_CALSTAT, 28, 1⟩
abbrev RFRX_CALSTAT.PENDSTEPS : Field := ⟨Reg.RFRX_CALSTAT, 16, 4⟩
abbrev RFRX_CALSTAT.TXCHKF : Field := ⟨Reg.RFRX_CALSTAT, 13, 1⟩
abbrev RFRX_CALSTAT.IQF : Field := ⟨Reg.RFRX_CALSTAT, 12, 1⟩
abbrev RFRX_CALSTAT.DCF : Field := ⟨Reg.RFRX_CALSTAT, 11, 1⟩
abbrev RFRX_CALSTAT.ADCF : Field := ⟨Reg.RFRX_CALSTAT, 10, 1⟩
abbrev RFRX_CALSTAT.VCOF : Field := ⟨Reg.RFRX_CALSTAT, 9, 1⟩
abbrev RFRX_CALSTAT.XTRIMF : Field := ⟨Reg.RFRX_CALSTAT, 8, 1⟩
/-- RFRX_TEMP; spec/08_receive_front_end.md. -/
abbrev Reg.RFRX_TEMP : Nat := 0x4001004C
abbrev RFRX_TEMP.TCAL : Field := ⟨Reg.RFRX_TEMP, 16, 16⟩
abbrev RFRX_TEMP.TNOW : Field := ⟨Reg.RFRX_TEMP, 0, 16⟩
/-- RFRX_IRQ; spec/08_receive_front_end.md. -/
abbrev Reg.RFRX_IRQ : Nat := 0x40010050
abbrev RFRX_IRQ.REQOVR : Field := ⟨Reg.RFRX_IRQ, 6, 1⟩
abbrev RFRX_IRQ.BADGAIN : Field := ⟨Reg.RFRX_IRQ, 5, 1⟩
abbrev RFRX_IRQ.BADSPAN : Field := ⟨Reg.RFRX_IRQ, 4, 1⟩
abbrev RFRX_IRQ.TRIMSAT : Field := ⟨Reg.RFRX_IRQ, 3, 1⟩
abbrev RFRX_IRQ.TEMPREQ : Field := ⟨Reg.RFRX_IRQ, 2, 1⟩
abbrev RFRX_IRQ.CLIP : Field := ⟨Reg.RFRX_IRQ, 1, 1⟩
abbrev RFRX_IRQ.CALEND : Field := ⟨Reg.RFRX_IRQ, 0, 1⟩
/-- RFRX_IRQEN; spec/08_receive_front_end.md. -/
abbrev Reg.RFRX_IRQEN : Nat := 0x40010054
abbrev RFRX_IRQEN.REQOVR : Field := ⟨Reg.RFRX_IRQEN, 6, 1⟩
abbrev RFRX_IRQEN.BADGAIN : Field := ⟨Reg.RFRX_IRQEN, 5, 1⟩
abbrev RFRX_IRQEN.BADSPAN : Field := ⟨Reg.RFRX_IRQEN, 4, 1⟩
abbrev RFRX_IRQEN.TRIMSAT : Field := ⟨Reg.RFRX_IRQEN, 3, 1⟩
abbrev RFRX_IRQEN.TEMPREQ : Field := ⟨Reg.RFRX_IRQEN, 2, 1⟩
abbrev RFRX_IRQEN.CLIP : Field := ⟨Reg.RFRX_IRQEN, 1, 1⟩
abbrev RFRX_IRQEN.CALEND : Field := ⟨Reg.RFRX_IRQEN, 0, 1⟩
/-- RFRX_RSSIOFS; spec/08_receive_front_end.md. -/
abbrev Reg.RFRX_RSSIOFS : Nat := 0x40010060
abbrev RFRX_RSSIOFS.OFS : Field := ⟨Reg.RFRX_RSSIOFS, 0, 16⟩

/-! ### RFTX -/
/-- RFTX_CTRL; spec/11_transmit_and_antenna.md. -/
abbrev Reg.RFTX_CTRL : Nat := 0x40011000
abbrev RFTX_CTRL.RXPINS : Field := ⟨Reg.RFTX_CTRL, 12, 4⟩
abbrev RFTX_CTRL.RAMPV : Field := ⟨Reg.RFTX_CTRL, 8, 4⟩
abbrev RFTX_CTRL.AUTOTUNE : Field := ⟨Reg.RFTX_CTRL, 2, 1⟩
abbrev RFTX_CTRL.EXTEN : Field := ⟨Reg.RFTX_CTRL, 1, 1⟩
abbrev RFTX_CTRL.PRECOMP : Field := ⟨Reg.RFTX_CTRL, 0, 1⟩
/-- RFTX_STAT; spec/11_transmit_and_antenna.md. -/
abbrev Reg.RFTX_STAT : Nat := 0x40011004
abbrev RFTX_STAT.LAST : Field := ⟨Reg.RFTX_STAT, 24, 8⟩
abbrev RFTX_STAT.REGLOCK : Field := ⟨Reg.RFTX_STAT, 7, 1⟩
abbrev RFTX_STAT.NOREG : Field := ⟨Reg.RFTX_STAT, 6, 1⟩
abbrev RFTX_STAT.FIRBAD : Field := ⟨Reg.RFTX_STAT, 5, 1⟩
abbrev RFTX_STAT.MASKF : Field := ⟨Reg.RFTX_STAT, 4, 1⟩
abbrev RFTX_STAT.HELD : Field := ⟨Reg.RFTX_STAT, 3, 1⟩
abbrev RFTX_STAT.CAL : Field := ⟨Reg.RFTX_STAT, 2, 1⟩
abbrev RFTX_STAT.LOCKED : Field := ⟨Reg.RFTX_STAT, 1, 1⟩
abbrev RFTX_STAT.BUSY : Field := ⟨Reg.RFTX_STAT, 0, 1⟩
/-- RFTX_PWR; spec/11_transmit_and_antenna.md. -/
abbrev Reg.RFTX_PWR : Nat := 0x40011010
abbrev RFTX_PWR.LASTP : Field := ⟨Reg.RFTX_PWR, 24, 8⟩
abbrev RFTX_PWR.PWRMAX : Field := ⟨Reg.RFTX_PWR, 0, 8⟩
/-- RFTX_SEQ; spec/11_transmit_and_antenna.md. -/
abbrev Reg.RFTX_SEQ : Nat := 0x40011020
abbrev RFTX_SEQ.PAPOL : Field := ⟨Reg.RFTX_SEQ, 31, 1⟩
abbrev RFTX_SEQ.LNAPOL : Field := ⟨Reg.RFTX_SEQ, 30, 1⟩
abbrev RFTX_SEQ.TRPOL : Field := ⟨Reg.RFTX_SEQ, 29, 1⟩
abbrev RFTX_SEQ.TRLAG : Field := ⟨Reg.RFTX_SEQ, 23, 6⟩
abbrev RFTX_SEQ.PALAG : Field := ⟨Reg.RFTX_SEQ, 17, 6⟩
abbrev RFTX_SEQ.RAMPT : Field := ⟨Reg.RFTX_SEQ, 12, 5⟩
abbrev RFTX_SEQ.PALEAD : Field := ⟨Reg.RFTX_SEQ, 6, 6⟩
abbrev RFTX_SEQ.TRLEAD : Field := ⟨Reg.RFTX_SEQ, 0, 6⟩
/-- RFTX_COEX; spec/11_transmit_and_antenna.md. -/
abbrev Reg.RFTX_COEX : Nat := 0x40011024
abbrev RFTX_COEX.EN : Field := ⟨Reg.RFTX_COEX, 31, 1⟩
abbrev RFTX_COEX.GNTPOL : Field := ⟨Reg.RFTX_COEX, 30, 1⟩
abbrev RFTX_COEX.ABORT : Field := ⟨Reg.RFTX_COEX, 29, 1⟩
abbrev RFTX_COEX.GNTWAIT : Field := ⟨Reg.RFTX_COEX, 8, 8⟩
abbrev RFTX_COEX.REQLEAD : Field := ⟨Reg.RFTX_COEX, 0, 8⟩
/-- RFTX_MISM; spec/11_transmit_and_antenna.md. -/
abbrev Reg.RFTX_MISM : Nat := 0x40011030
abbrev RFTX_MISM.EN : Field := ⟨Reg.RFTX_MISM, 31, 1⟩
abbrev RFTX_MISM.BACKOFF : Field := ⟨Reg.RFTX_MISM, 8, 8⟩
abbrev RFTX_MISM.RLMIN : Field := ⟨Reg.RFTX_MISM, 0, 8⟩
/-- RFTX_RL; spec/11_transmit_and_antenna.md. -/
abbrev Reg.RFTX_RL : Nat := 0x40011034
abbrev RFTX_RL.VALID : Field := ⟨Reg.RFTX_RL, 31, 1⟩
abbrev RFTX_RL.ACTIVE : Field := ⟨Reg.RFTX_RL, 30, 1⟩
abbrev RFTX_RL.RL : Field := ⟨Reg.RFTX_RL, 16, 8⟩
abbrev RFTX_RL.SER : Field := ⟨Reg.RFTX_RL, 5, 5⟩
abbrev RFTX_RL.SHU : Field := ⟨Reg.RFTX_RL, 0, 5⟩
/-- RFTX_FIRn; spec/11_transmit_and_antenna.md. -/
abbrev Reg.RFTX_FIR (n : Nat) : Nat := (0x40011040 + 0x4 * n)
abbrev RFTX_FIR.TODD (n : Nat) : Field := ⟨Reg.RFTX_FIR n, 16, 16⟩
abbrev RFTX_FIR.TEVEN (n : Nat) : Field := ⟨Reg.RFTX_FIR n, 0, 16⟩
/-- RFTX_TCOMPn; spec/11_transmit_and_antenna.md. -/
abbrev Reg.RFTX_TCOMP (n : Nat) : Nat := (0x40011080 + 0x4 * n)
abbrev RFTX_TCOMP.VCORR (n : Nat) : Field := ⟨Reg.RFTX_TCOMP n, 8, 8⟩
abbrev RFTX_TCOMP.TCORR (n : Nat) : Field := ⟨Reg.RFTX_TCOMP n, 0, 8⟩
/-- RFTX_TUNEn; spec/11_transmit_and_antenna.md. -/
abbrev Reg.RFTX_TUNE (n : Nat) : Nat := (0x400110A0 + 0x4 * n)
abbrev RFTX_TUNE.EN (n : Nat) : Field := ⟨Reg.RFTX_TUNE n, 31, 1⟩
abbrev RFTX_TUNE.UPPER (n : Nat) : Field := ⟨Reg.RFTX_TUNE n, 16, 12⟩
abbrev RFTX_TUNE.PINS (n : Nat) : Field := ⟨Reg.RFTX_TUNE n, 12, 4⟩
abbrev RFTX_TUNE.SER (n : Nat) : Field := ⟨Reg.RFTX_TUNE n, 5, 5⟩
abbrev RFTX_TUNE.SHU (n : Nat) : Field := ⟨Reg.RFTX_TUNE n, 0, 5⟩
/-- RFTX_CALREQ; spec/11_transmit_and_antenna.md. -/
abbrev Reg.RFTX_CALREQ : Nat := 0x400110D0
abbrev RFTX_CALREQ.CHECK : Field := ⟨Reg.RFTX_CALREQ, 1, 1⟩
abbrev RFTX_CALREQ.VCO : Field := ⟨Reg.RFTX_CALREQ, 0, 1⟩
/-- RFTX_IRQ; spec/11_transmit_and_antenna.md. -/
abbrev Reg.RFTX_IRQ : Nat := 0x400110E0
abbrev RFTX_IRQ.CLAMP : Field := ⟨Reg.RFTX_IRQ, 6, 1⟩
abbrev RFTX_IRQ.COEX : Field := ⟨Reg.RFTX_IRQ, 5, 1⟩
abbrev RFTX_IRQ.REGREF : Field := ⟨Reg.RFTX_IRQ, 4, 1⟩
abbrev RFTX_IRQ.LOCKERR : Field := ⟨Reg.RFTX_IRQ, 3, 1⟩
abbrev RFTX_IRQ.TUNED : Field := ⟨Reg.RFTX_IRQ, 2, 1⟩
abbrev RFTX_IRQ.MISMATCH : Field := ⟨Reg.RFTX_IRQ, 1, 1⟩
abbrev RFTX_IRQ.CALEND : Field := ⟨Reg.RFTX_IRQ, 0, 1⟩
/-- RFTX_IRQEN; spec/11_transmit_and_antenna.md. -/
abbrev Reg.RFTX_IRQEN : Nat := 0x400110E4
abbrev RFTX_IRQEN.CLAMP : Field := ⟨Reg.RFTX_IRQEN, 6, 1⟩
abbrev RFTX_IRQEN.COEX : Field := ⟨Reg.RFTX_IRQEN, 5, 1⟩
abbrev RFTX_IRQEN.REGREF : Field := ⟨Reg.RFTX_IRQEN, 4, 1⟩
abbrev RFTX_IRQEN.LOCKERR : Field := ⟨Reg.RFTX_IRQEN, 3, 1⟩
abbrev RFTX_IRQEN.TUNED : Field := ⟨Reg.RFTX_IRQEN, 2, 1⟩
abbrev RFTX_IRQEN.MISMATCH : Field := ⟨Reg.RFTX_IRQEN, 1, 1⟩
abbrev RFTX_IRQEN.CALEND : Field := ⟨Reg.RFTX_IRQEN, 0, 1⟩
/-- RFTX_CNT0; spec/11_transmit_and_antenna.md. -/
abbrev Reg.RFTX_CNT0 : Nat := 0x400110F0
abbrev RFTX_CNT0.LOCKERR : Field := ⟨Reg.RFTX_CNT0, 16, 16⟩
abbrev RFTX_CNT0.REGREF : Field := ⟨Reg.RFTX_CNT0, 0, 16⟩
/-- RFTX_CNT1; spec/11_transmit_and_antenna.md. -/
abbrev Reg.RFTX_CNT1 : Nat := 0x400110F4
abbrev RFTX_CNT1.COEX : Field := ⟨Reg.RFTX_CNT1, 16, 16⟩
abbrev RFTX_CNT1.MISM : Field := ⟨Reg.RFTX_CNT1, 0, 16⟩
/-- RFTX_DUTYn; spec/11_transmit_and_antenna.md. -/
abbrev Reg.RFTX_DUTY (n : Nat) : Nat := (0x40011100 + 0x4 * n)
abbrev RFTX_DUTY.USED (n : Nat) : Field := ⟨Reg.RFTX_DUTY n, 0, 32⟩

/-! ### ZEPH -/
/-- ZEPH_CTRL; spec/12_medium_access.md. -/
abbrev Reg.ZEPH_CTRL : Nat := 0x40016000
abbrev ZEPH_CTRL.EN : Field := ⟨Reg.ZEPH_CTRL, 31, 1⟩
abbrev ZEPH_CTRL.SYNCERR : Field := ⟨Reg.ZEPH_CTRL, 24, 3⟩
abbrev ZEPH_CTRL.SYNC : Field := ⟨Reg.ZEPH_CTRL, 0, 16⟩
/-- ZEPH_ADDRn; spec/12_medium_access.md. -/
abbrev Reg.ZEPH_ADDR (n : Nat) : Nat := (0x40016010 + 0x4 * n)
abbrev ZEPH_ADDR.EN (n : Nat) : Field := ⟨Reg.ZEPH_ADDR n, 31, 1⟩
abbrev ZEPH_ADDR.ADDR (n : Nat) : Field := ⟨Reg.ZEPH_ADDR n, 0, 16⟩
/-- ZEPH_HAND; spec/12_medium_access.md. -/
abbrev Reg.ZEPH_HAND : Nat := 0x40016030
abbrev ZEPH_HAND.WIN : Field := ⟨Reg.ZEPH_HAND, 16, 10⟩
abbrev ZEPH_HAND.LANE : Field := ⟨Reg.ZEPH_HAND, 0, 7⟩
/-- ZEPH_STAT; spec/12_medium_access.md. -/
abbrev Reg.ZEPH_STAT : Nat := 0x40016034
abbrev ZEPH_STAT.MATCH : Field := ⟨Reg.ZEPH_STAT, 16, 16⟩
abbrev ZEPH_STAT.SYNCONLY : Field := ⟨Reg.ZEPH_STAT, 8, 8⟩
abbrev ZEPH_STAT.LASTIDX : Field := ⟨Reg.ZEPH_STAT, 4, 3⟩
/-- ZEPH_IRQ; spec/12_medium_access.md. -/
abbrev Reg.ZEPH_IRQ : Nat := 0x40016038
abbrev ZEPH_IRQ.MATCH : Field := ⟨Reg.ZEPH_IRQ, 0, 1⟩
/-- ZEPH_IRQEN; spec/12_medium_access.md. -/
abbrev Reg.ZEPH_IRQEN : Nat := 0x4001603C
abbrev ZEPH_IRQEN.MATCH : Field := ⟨Reg.ZEPH_IRQEN, 0, 1⟩

/-! ### SEC -/
/-- SEC_CFG; spec/13_security_engine.md. -/
abbrev Reg.SEC_CFG : Nat := 0x4000C000
abbrev SEC_CFG.XTSLOCK : Field := ⟨Reg.SEC_CFG, 31, 1⟩
abbrev SEC_CFG.RESLEAD : Field := ⟨Reg.SEC_CFG, 16, 10⟩
abbrev SEC_CFG.SHUF : Field := ⟨Reg.SEC_CFG, 3, 1⟩
abbrev SEC_CFG.DMAX : Field := ⟨Reg.SEC_CFG, 0, 3⟩
/-- SEC_STAT; spec/13_security_engine.md. -/
abbrev Reg.SEC_STAT : Nat := 0x4000C004
abbrev SEC_STAT.NOLEDGER : Field := ⟨Reg.SEC_STAT, 7, 1⟩
abbrev SEC_STAT.WLOCK : Field := ⟨Reg.SEC_STAT, 6, 1⟩
abbrev SEC_STAT.WKEYS : Field := ⟨Reg.SEC_STAT, 5, 1⟩
abbrev SEC_STAT.ALARM : Field := ⟨Reg.SEC_STAT, 4, 1⟩
abbrev SEC_STAT.CTRWAIT : Field := ⟨Reg.SEC_STAT, 3, 1⟩
abbrev SEC_STAT.SUSP : Field := ⟨Reg.SEC_STAT, 2, 1⟩
abbrev SEC_STAT.BBUSY : Field := ⟨Reg.SEC_STAT, 1, 1⟩
abbrev SEC_STAT.UBUSY : Field := ⟨Reg.SEC_STAT, 0, 1⟩
/-- SEC_CMDBASE; spec/13_security_engine.md. -/
abbrev Reg.SEC_CMDBASE : Nat := 0x4000C010
abbrev SEC_CMDBASE.ADDR : Field := ⟨Reg.SEC_CMDBASE, 9, 23⟩
abbrev SEC_CMDBASE.EN : Field := ⟨Reg.SEC_CMDBASE, 0, 1⟩
/-- SEC_CMDPTR; spec/13_security_engine.md. -/
abbrev Reg.SEC_CMDPTR : Nat := 0x4000C014
abbrev SEC_CMDPTR.HEAD : Field := ⟨Reg.SEC_CMDPTR, 8, 4⟩
abbrev SEC_CMDPTR.TAIL : Field := ⟨Reg.SEC_CMDPTR, 0, 4⟩
/-- SEC_IRQ; spec/13_security_engine.md. -/
abbrev Reg.SEC_IRQ : Nat := 0x4000C020
abbrev SEC_IRQ.BNDONE : Field := ⟨Reg.SEC_IRQ, 5, 1⟩
abbrev SEC_IRQ.TWILLW : Field := ⟨Reg.SEC_IRQ, 4, 1⟩
abbrev SEC_IRQ.LEDGERR : Field := ⟨Reg.SEC_IRQ, 3, 1⟩
abbrev SEC_IRQ.EXHAUST : Field := ⟨Reg.SEC_IRQ, 2, 1⟩
abbrev SEC_IRQ.RESV : Field := ⟨Reg.SEC_IRQ, 1, 1⟩
abbrev SEC_IRQ.CMDDONE : Field := ⟨Reg.SEC_IRQ, 0, 1⟩
/-- SEC_IRQEN; spec/13_security_engine.md. -/
abbrev Reg.SEC_IRQEN : Nat := 0x4000C024
abbrev SEC_IRQEN.BNDONE : Field := ⟨Reg.SEC_IRQEN, 5, 1⟩
abbrev SEC_IRQEN.TWILLW : Field := ⟨Reg.SEC_IRQEN, 4, 1⟩
abbrev SEC_IRQEN.LEDGERR : Field := ⟨Reg.SEC_IRQEN, 3, 1⟩
abbrev SEC_IRQEN.EXHAUST : Field := ⟨Reg.SEC_IRQEN, 2, 1⟩
abbrev SEC_IRQEN.RESV : Field := ⟨Reg.SEC_IRQEN, 1, 1⟩
abbrev SEC_IRQEN.CMDDONE : Field := ⟨Reg.SEC_IRQEN, 0, 1⟩
/-- SEC_EPOCH; spec/13_security_engine.md. -/
abbrev Reg.SEC_EPOCH : Nat := 0x4000C030
abbrev SEC_EPOCH.FLOOR : Field := ⟨Reg.SEC_EPOCH, 0, 32⟩
/-- SEC_LEDGER; spec/13_security_engine.md. -/
abbrev Reg.SEC_LEDGER : Nat := 0x4000C040
abbrev SEC_LEDGER.EN : Field := ⟨Reg.SEC_LEDGER, 31, 1⟩
abbrev SEC_LEDGER.BANK : Field := ⟨Reg.SEC_LEDGER, 28, 1⟩
abbrev SEC_LEDGER.FIRST : Field := ⟨Reg.SEC_LEDGER, 16, 9⟩
abbrev SEC_LEDGER.NBLK : Field := ⟨Reg.SEC_LEDGER, 0, 5⟩
/-- SEC_LEDSTAT; spec/13_security_engine.md. -/
abbrev Reg.SEC_LEDSTAT : Nat := 0x4000C044
abbrev SEC_LEDSTAT.ERRCNT : Field := ⟨Reg.SEC_LEDSTAT, 24, 8⟩
abbrev SEC_LEDSTAT.BLK : Field := ⟨Reg.SEC_LEDSTAT, 16, 4⟩
abbrev SEC_LEDSTAT.UNIT : Field := ⟨Reg.SEC_LEDSTAT, 0, 7⟩
/-- SEC_WKCV; spec/13_security_engine.md. -/
abbrev Reg.SEC_WKCV : Nat := 0x4000C050
abbrev SEC_WKCV.KCV : Field := ⟨Reg.SEC_WKCV, 0, 32⟩
/-- SEC_XTSAn; spec/13_security_engine.md. -/
abbrev Reg.SEC_XTSA (n : Nat) : Nat := (0x4000C060 + 0x8 * n)
abbrev SEC_XTSA.BASE (n : Nat) : Field := ⟨Reg.SEC_XTSA n, 12, 20⟩
abbrev SEC_XTSA.PAIR (n : Nat) : Field := ⟨Reg.SEC_XTSA n, 5, 4⟩
abbrev SEC_XTSA.EN (n : Nat) : Field := ⟨Reg.SEC_XTSA n, 0, 1⟩
/-- SEC_XTSBn; spec/13_security_engine.md. -/
abbrev Reg.SEC_XTSB (n : Nat) : Nat := (0x4000C064 + 0x8 * n)
abbrev SEC_XTSB.LIMIT (n : Nat) : Field := ⟨Reg.SEC_XTSB n, 12, 20⟩
/-- SEC_ALMCFG; spec/13_security_engine.md. -/
abbrev Reg.SEC_ALMCFG : Nat := 0x4000C080
abbrev SEC_ALMCFG.RSTEN : Field := ⟨Reg.SEC_ALMCFG, 8, 1⟩
abbrev SEC_ALMCFG.TAMPER : Field := ⟨Reg.SEC_ALMCFG, 3, 1⟩
abbrev SEC_ALMCFG.TEMP : Field := ⟨Reg.SEC_ALMCFG, 2, 1⟩
abbrev SEC_ALMCFG.CLOCK : Field := ⟨Reg.SEC_ALMCFG, 1, 1⟩
abbrev SEC_ALMCFG.SUPPLY : Field := ⟨Reg.SEC_ALMCFG, 0, 1⟩
/-- SEC_ALMSTAT; spec/13_security_engine.md. -/
abbrev Reg.SEC_ALMSTAT : Nat := 0x4000C084
abbrev SEC_ALMSTAT.COUNT : Field := ⟨Reg.SEC_ALMSTAT, 16, 16⟩
abbrev SEC_ALMSTAT.LATCHED : Field := ⟨Reg.SEC_ALMSTAT, 8, 1⟩
abbrev SEC_ALMSTAT.SRC : Field := ⟨Reg.SEC_ALMSTAT, 0, 4⟩
/-- SEC_BNCMD; spec/13_security_engine.md. -/
abbrev Reg.SEC_BNCMD : Nat := 0x4000C090
abbrev SEC_BNCMD.GO : Field := ⟨Reg.SEC_BNCMD, 31, 1⟩
abbrev SEC_BNCMD.OP : Field := ⟨Reg.SEC_BNCMD, 12, 2⟩
abbrev SEC_BNCMD.DST : Field := ⟨Reg.SEC_BNCMD, 8, 3⟩
abbrev SEC_BNCMD.SRCB : Field := ⟨Reg.SEC_BNCMD, 4, 3⟩
abbrev SEC_BNCMD.SRCA : Field := ⟨Reg.SEC_BNCMD, 0, 3⟩
/-- SEC_KSTATn; spec/13_security_engine.md. -/
abbrev Reg.SEC_KSTAT (n : Nat) : Nat := (0x4000C100 + 0x4 * n)
abbrev SEC_KSTAT.VALID (n : Nat) : Field := ⟨Reg.SEC_KSTAT n, 31, 1⟩
abbrev SEC_KSTAT.SIZE (n : Nat) : Field := ⟨Reg.SEC_KSTAT n, 30, 1⟩
abbrev SEC_KSTAT.USE (n : Nat) : Field := ⟨Reg.SEC_KSTAT n, 24, 5⟩
abbrev SEC_KSTAT.KEYID (n : Nat) : Field := ⟨Reg.SEC_KSTAT n, 16, 8⟩
abbrev SEC_KSTAT.KCV (n : Nat) : Field := ⟨Reg.SEC_KSTAT n, 0, 16⟩
/-- SEC_CNEXTn; spec/13_security_engine.md. -/
abbrev Reg.SEC_CNEXT (n : Nat) : Nat := (0x4000C180 + 0x4 * n)
abbrev SEC_CNEXT.NEXT (n : Nat) : Field := ⟨Reg.SEC_CNEXT n, 0, 32⟩
/-- SEC_CRESn; spec/13_security_engine.md. -/
abbrev Reg.SEC_CRES (n : Nat) : Nat := (0x4000C200 + 0x4 * n)
abbrev SEC_CRES.START (n : Nat) : Field := ⟨Reg.SEC_CRES n, 10, 22⟩
abbrev SEC_CRES.EXH (n : Nat) : Field := ⟨Reg.SEC_CRES n, 1, 1⟩
abbrev SEC_CRES.PEND (n : Nat) : Field := ⟨Reg.SEC_CRES n, 0, 1⟩

/-! ### TBL -/
/-- TBL_SPLIT; spec/14_peer_route_table.md. -/
abbrev Reg.TBL_SPLIT : Nat := 0x4000D000
abbrev TBL_SPLIT.RQUOTA : Field := ⟨Reg.TBL_SPLIT, 16, 13⟩
abbrev TBL_SPLIT.PQUOTA : Field := ⟨Reg.TBL_SPLIT, 0, 13⟩
/-- TBL_COUNT; spec/14_peer_route_table.md. -/
abbrev Reg.TBL_COUNT : Nat := 0x4000D004
abbrev TBL_COUNT.ROUTES : Field := ⟨Reg.TBL_COUNT, 16, 13⟩
abbrev TBL_COUNT.PEERS : Field := ⟨Reg.TBL_COUNT, 0, 13⟩
/-- TBL_CFG; spec/14_peer_route_table.md. -/
abbrev Reg.TBL_CFG : Nat := 0x4000D008
abbrev TBL_CFG.FSH : Field := ⟨Reg.TBL_CFG, 0, 3⟩
/-- TBL_AGE; spec/14_peer_route_table.md. -/
abbrev Reg.TBL_AGE : Nat := 0x4000D00C
abbrev TBL_AGE.RMAX : Field := ⟨Reg.TBL_AGE, 16, 16⟩
abbrev TBL_AGE.PSTALE : Field := ⟨Reg.TBL_AGE, 0, 16⟩
/-- TBL_CMD; spec/14_peer_route_table.md. -/
abbrev Reg.TBL_CMD : Nat := 0x4000D010
abbrev TBL_CMD.OP : Field := ⟨Reg.TBL_CMD, 28, 4⟩
abbrev TBL_CMD.KEYT : Field := ⟨Reg.TBL_CMD, 24, 2⟩
abbrev TBL_CMD.KIND : Field := ⟨Reg.TBL_CMD, 20, 1⟩
abbrev TBL_CMD.AUTO : Field := ⟨Reg.TBL_CMD, 16, 1⟩
abbrev TBL_CMD.INDEX : Field := ⟨Reg.TBL_CMD, 0, 13⟩
/-- TBL_RES; spec/14_peer_route_table.md. -/
abbrev Reg.TBL_RES : Nat := 0x4000D014
abbrev TBL_RES.BUSY : Field := ⟨Reg.TBL_RES, 31, 1⟩
abbrev TBL_RES.INDEX : Field := ⟨Reg.TBL_RES, 16, 13⟩
abbrev TBL_RES.STATUS : Field := ⟨Reg.TBL_RES, 0, 8⟩
/-- TBL_KEY_LO; spec/14_peer_route_table.md. -/
abbrev Reg.TBL_KEY_LO : Nat := 0x4000D018
abbrev TBL_KEY_LO.KEY : Field := ⟨Reg.TBL_KEY_LO, 0, 32⟩
/-- TBL_KEY_HI; spec/14_peer_route_table.md. -/
abbrev Reg.TBL_KEY_HI : Nat := 0x4000D01C
abbrev TBL_KEY_HI.KEY : Field := ⟨Reg.TBL_KEY_HI, 0, 32⟩
/-- TBL_DATAn; spec/14_peer_route_table.md. -/
abbrev Reg.TBL_DATA (n : Nat) : Nat := (0x4000D020 + 0x4 * n)
abbrev TBL_DATA.WORD (n : Nat) : Field := ⟨Reg.TBL_DATA n, 0, 32⟩
/-- TBL_IRQ; spec/14_peer_route_table.md. -/
abbrev Reg.TBL_IRQ : Nat := 0x4000D040
abbrev TBL_IRQ.CMDOVR : Field := ⟨Reg.TBL_IRQ, 4, 1⟩
abbrev TBL_IRQ.BADCFG : Field := ⟨Reg.TBL_IRQ, 3, 1⟩
abbrev TBL_IRQ.AGED : Field := ⟨Reg.TBL_IRQ, 2, 1⟩
abbrev TBL_IRQ.STALE : Field := ⟨Reg.TBL_IRQ, 1, 1⟩
abbrev TBL_IRQ.DONE : Field := ⟨Reg.TBL_IRQ, 0, 1⟩
/-- TBL_IRQEN; spec/14_peer_route_table.md. -/
abbrev Reg.TBL_IRQEN : Nat := 0x4000D044
abbrev TBL_IRQEN.CMDOVR : Field := ⟨Reg.TBL_IRQEN, 4, 1⟩
abbrev TBL_IRQEN.BADCFG : Field := ⟨Reg.TBL_IRQEN, 3, 1⟩
abbrev TBL_IRQEN.AGED : Field := ⟨Reg.TBL_IRQEN, 2, 1⟩
abbrev TBL_IRQEN.STALE : Field := ⟨Reg.TBL_IRQEN, 1, 1⟩
abbrev TBL_IRQEN.DONE : Field := ⟨Reg.TBL_IRQEN, 0, 1⟩
/-- TBL_AGECNT; spec/14_peer_route_table.md. -/
abbrev Reg.TBL_AGECNT : Nat := 0x4000D048
abbrev TBL_AGECNT.COUNT : Field := ⟨Reg.TBL_AGECNT, 0, 32⟩

/-! ### RTC -/
/-- RTC_SEC; spec/16_rtc_calendar.md. -/
abbrev Reg.RTC_SEC : Nat := 0x40005000
abbrev RTC_SEC.SEC : Field := ⟨Reg.RTC_SEC, 0, 32⟩
/-- RTC_FRAC; spec/16_rtc_calendar.md. -/
abbrev Reg.RTC_FRAC : Nat := 0x40005004
abbrev RTC_FRAC.FRAC : Field := ⟨Reg.RTC_FRAC, 0, 15⟩
/-- RTC_CALT; spec/16_rtc_calendar.md. -/
abbrev Reg.RTC_CALT : Nat := 0x40005008
abbrev RTC_CALT.HOUR : Field := ⟨Reg.RTC_CALT, 16, 5⟩
abbrev RTC_CALT.MINUTE : Field := ⟨Reg.RTC_CALT, 8, 6⟩
abbrev RTC_CALT.SECOND : Field := ⟨Reg.RTC_CALT, 0, 6⟩
/-- RTC_CALD; spec/16_rtc_calendar.md. -/
abbrev Reg.RTC_CALD : Nat := 0x4000500C
abbrev RTC_CALD.WDAY : Field := ⟨Reg.RTC_CALD, 24, 3⟩
abbrev RTC_CALD.YEAR : Field := ⟨Reg.RTC_CALD, 16, 8⟩
abbrev RTC_CALD.MONTH : Field := ⟨Reg.RTC_CALD, 8, 4⟩
abbrev RTC_CALD.DAY : Field := ⟨Reg.RTC_CALD, 0, 5⟩
/-- RTC_CALOFS; spec/16_rtc_calendar.md. -/
abbrev Reg.RTC_CALOFS : Nat := 0x40005010
abbrev RTC_CALOFS.OFS : Field := ⟨Reg.RTC_CALOFS, 0, 18⟩
/-- RTC_CFG; spec/16_rtc_calendar.md. -/
abbrev Reg.RTC_CFG : Nat := 0x40005014
abbrev RTC_CFG.LEGACY : Field := ⟨Reg.RTC_CFG, 0, 1⟩
/-- RTC_STAT; spec/16_rtc_calendar.md. -/
abbrev Reg.RTC_STAT : Nat := 0x40005018
abbrev RTC_STAT.BKLOW : Field := ⟨Reg.RTC_STAT, 9, 1⟩
abbrev RTC_STAT.NOSYNC : Field := ⟨Reg.RTC_STAT, 8, 1⟩
abbrev RTC_STAT.FROZEN : Field := ⟨Reg.RTC_STAT, 7, 1⟩
abbrev RTC_STAT.WBUSY : Field := ⟨Reg.RTC_STAT, 6, 1⟩
abbrev RTC_STAT.RCCLK : Field := ⟨Reg.RTC_STAT, 5, 1⟩
abbrev RTC_STAT.CALRANGE : Field := ⟨Reg.RTC_STAT, 4, 1⟩
abbrev RTC_STAT.FRZTO : Field := ⟨Reg.RTC_STAT, 3, 1⟩
abbrev RTC_STAT.WRAP : Field := ⟨Reg.RTC_STAT, 2, 1⟩
abbrev RTC_STAT.BADDATE : Field := ⟨Reg.RTC_STAT, 1, 1⟩
abbrev RTC_STAT.PWRLOST : Field := ⟨Reg.RTC_STAT, 0, 1⟩
/-- RTC_ALMSEC; spec/16_rtc_calendar.md. -/
abbrev Reg.RTC_ALMSEC : Nat := 0x40005020
abbrev RTC_ALMSEC.SEC : Field := ⟨Reg.RTC_ALMSEC, 0, 32⟩
/-- RTC_ALMCTL; spec/16_rtc_calendar.md. -/
abbrev Reg.RTC_ALMCTL : Nat := 0x40005024
abbrev RTC_ALMCTL.EN : Field := ⟨Reg.RTC_ALMCTL, 31, 1⟩
abbrev RTC_ALMCTL.LATE : Field := ⟨Reg.RTC_ALMCTL, 30, 1⟩
abbrev RTC_ALMCTL.FRAC : Field := ⟨Reg.RTC_ALMCTL, 0, 15⟩
/-- RTC_PER; spec/16_rtc_calendar.md. -/
abbrev Reg.RTC_PER : Nat := 0x40005028
abbrev RTC_PER.EN : Field := ⟨Reg.RTC_PER, 31, 1⟩
abbrev RTC_PER.NM1 : Field := ⟨Reg.RTC_PER, 0, 24⟩
/-- RTC_TRIMCFG; spec/16_rtc_calendar.md. -/
abbrev Reg.RTC_TRIMCFG : Nat := 0x40005030
abbrev RTC_TRIMCFG.SRC : Field := ⟨Reg.RTC_TRIMCFG, 16, 2⟩
abbrev RTC_TRIMCFG.NETPER : Field := ⟨Reg.RTC_TRIMCFG, 12, 4⟩
abbrev RTC_TRIMCFG.GAINSH : Field := ⟨Reg.RTC_TRIMCFG, 8, 4⟩
abbrev RTC_TRIMCFG.MAXSTEP : Field := ⟨Reg.RTC_TRIMCFG, 0, 8⟩
/-- RTC_TRIM; spec/16_rtc_calendar.md. -/
abbrev Reg.RTC_TRIM : Nat := 0x40005034
abbrev RTC_TRIM.TRIM : Field := ⟨Reg.RTC_TRIM, 0, 14⟩
/-- RTC_TRIMSTAT; spec/16_rtc_calendar.md. -/
abbrev Reg.RTC_TRIMSTAT : Nat := 0x40005038
abbrev RTC_TRIMSTAT.E : Field := ⟨Reg.RTC_TRIMSTAT, 16, 16⟩
abbrev RTC_TRIMSTAT.WIN : Field := ⟨Reg.RTC_TRIMSTAT, 0, 8⟩
/-- RTC_CMD; spec/16_rtc_calendar.md. -/
abbrev Reg.RTC_CMD : Nat := 0x4000503C
abbrev RTC_CMD.SYNCNT : Field := ⟨Reg.RTC_CMD, 0, 1⟩
/-- RTC_CHG; spec/16_rtc_calendar.md. -/
abbrev Reg.RTC_CHG : Nat := 0x40005040
abbrev RTC_CHG.KEY : Field := ⟨Reg.RTC_CHG, 24, 8⟩
abbrev RTC_CHG.EN : Field := ⟨Reg.RTC_CHG, 8, 1⟩
abbrev RTC_CHG.RSEL : Field := ⟨Reg.RTC_CHG, 4, 2⟩
abbrev RTC_CHG.VSEL : Field := ⟨Reg.RTC_CHG, 0, 2⟩
/-- RTC_IRQ; spec/16_rtc_calendar.md. -/
abbrev Reg.RTC_IRQ : Nat := 0x40005050
abbrev RTC_IRQ.FRZTO : Field := ⟨Reg.RTC_IRQ, 6, 1⟩
abbrev RTC_IRQ.TRIMSAT : Field := ⟨Reg.RTC_IRQ, 5, 1⟩
abbrev RTC_IRQ.SYNC : Field := ⟨Reg.RTC_IRQ, 4, 1⟩
abbrev RTC_IRQ.BADDATE : Field := ⟨Reg.RTC_IRQ, 3, 1⟩
abbrev RTC_IRQ.PER : Field := ⟨Reg.RTC_IRQ, 2, 1⟩
abbrev RTC_IRQ.ALMLATE : Field := ⟨Reg.RTC_IRQ, 1, 1⟩
abbrev RTC_IRQ.ALM : Field := ⟨Reg.RTC_IRQ, 0, 1⟩
/-- RTC_IRQEN; spec/16_rtc_calendar.md. -/
abbrev Reg.RTC_IRQEN : Nat := 0x40005054
abbrev RTC_IRQEN.FRZTO : Field := ⟨Reg.RTC_IRQEN, 6, 1⟩
abbrev RTC_IRQEN.TRIMSAT : Field := ⟨Reg.RTC_IRQEN, 5, 1⟩
abbrev RTC_IRQEN.SYNC : Field := ⟨Reg.RTC_IRQEN, 4, 1⟩
abbrev RTC_IRQEN.BADDATE : Field := ⟨Reg.RTC_IRQEN, 3, 1⟩
abbrev RTC_IRQEN.PER : Field := ⟨Reg.RTC_IRQEN, 2, 1⟩
abbrev RTC_IRQEN.ALMLATE : Field := ⟨Reg.RTC_IRQEN, 1, 1⟩
abbrev RTC_IRQEN.ALM : Field := ⟨Reg.RTC_IRQEN, 0, 1⟩

/-! ### TMR -/
/-- TMRn_CTRL; spec/17_timers.md. -/
abbrev Reg.TMR_CTRL (n : Nat) : Nat := (0x40006000 + 0x40 * n)
abbrev TMR_CTRL.EN (n : Nat) : Field := ⟨Reg.TMR_CTRL n, 31, 1⟩
abbrev TMR_CTRL.LINK (n : Nat) : Field := ⟨Reg.TMR_CTRL n, 30, 1⟩
abbrev TMR_CTRL.CLK (n : Nat) : Field := ⟨Reg.TMR_CTRL n, 28, 2⟩
abbrev TMR_CTRL.TBSH (n : Nat) : Field := ⟨Reg.TMR_CTRL n, 24, 4⟩
abbrev TMR_CTRL.PRESC (n : Nat) : Field := ⟨Reg.TMR_CTRL n, 16, 8⟩
abbrev TMR_CTRL.SYNC (n : Nat) : Field := ⟨Reg.TMR_CTRL n, 14, 2⟩
abbrev TMR_CTRL.CAPEDGE (n : Nat) : Field := ⟨Reg.TMR_CTRL n, 12, 2⟩
abbrev TMR_CTRL.CAPSRC (n : Nat) : Field := ⟨Reg.TMR_CTRL n, 11, 1⟩
abbrev TMR_CTRL.CAPLINE (n : Nat) : Field := ⟨Reg.TMR_CTRL n, 6, 5⟩
abbrev TMR_CTRL.OM1 (n : Nat) : Field := ⟨Reg.TMR_CTRL n, 2, 2⟩
abbrev TMR_CTRL.OM0 (n : Nat) : Field := ⟨Reg.TMR_CTRL n, 0, 2⟩
/-- TMRn_RELOAD; spec/17_timers.md. -/
abbrev Reg.TMR_RELOAD (n : Nat) : Nat := (0x40006004 + 0x40 * n)
abbrev TMR_RELOAD.RELOAD (n : Nat) : Field := ⟨Reg.TMR_RELOAD n, 0, 32⟩
/-- TMRn_COUNT; spec/17_timers.md. -/
abbrev Reg.TMR_COUNT (n : Nat) : Nat := (0x40006008 + 0x40 * n)
abbrev TMR_COUNT.COUNT (n : Nat) : Field := ⟨Reg.TMR_COUNT n, 0, 32⟩
/-- TMRn_CMP0; spec/17_timers.md. -/
abbrev Reg.TMR_CMP0 (n : Nat) : Nat := (0x4000600C + 0x40 * n)
abbrev TMR_CMP0.CMP (n : Nat) : Field := ⟨Reg.TMR_CMP0 n, 0, 32⟩
/-- TMRn_CMP1; spec/17_timers.md. -/
abbrev Reg.TMR_CMP1 (n : Nat) : Nat := (0x40006010 + 0x40 * n)
abbrev TMR_CMP1.CMP (n : Nat) : Field := ⟨Reg.TMR_CMP1 n, 0, 32⟩
/-- TMRn_CAP; spec/17_timers.md. -/
abbrev Reg.TMR_CAP (n : Nat) : Nat := (0x40006014 + 0x40 * n)
abbrev TMR_CAP.CAP (n : Nat) : Field := ⟨Reg.TMR_CAP n, 0, 32⟩
/-- TMRn_STAT; spec/17_timers.md. -/
abbrev Reg.TMR_STAT (n : Nat) : Nat := (0x40006018 + 0x40 * n)
abbrev TMR_STAT.OVFCNT (n : Nat) : Field := ⟨Reg.TMR_STAT n, 16, 8⟩
abbrev TMR_STAT.LEVEL (n : Nat) : Field := ⟨Reg.TMR_STAT n, 6, 3⟩
abbrev TMR_STAT.WRAP_LONG (n : Nat) : Field := ⟨Reg.TMR_STAT n, 5, 1⟩
abbrev TMR_STAT.CAPOVF (n : Nat) : Field := ⟨Reg.TMR_STAT n, 4, 1⟩
abbrev TMR_STAT.CAP (n : Nat) : Field := ⟨Reg.TMR_STAT n, 3, 1⟩
abbrev TMR_STAT.MATCH1 (n : Nat) : Field := ⟨Reg.TMR_STAT n, 2, 1⟩
abbrev TMR_STAT.MATCH0 (n : Nat) : Field := ⟨Reg.TMR_STAT n, 1, 1⟩
abbrev TMR_STAT.RELOAD (n : Nat) : Field := ⟨Reg.TMR_STAT n, 0, 1⟩
/-- TMRn_IEN; spec/17_timers.md. -/
abbrev Reg.TMR_IEN (n : Nat) : Nat := (0x4000601C + 0x40 * n)
abbrev TMR_IEN.EN (n : Nat) : Field := ⟨Reg.TMR_IEN n, 0, 6⟩
/-- TMRn_CMD; spec/17_timers.md. -/
abbrev Reg.TMR_CMD (n : Nat) : Nat := (0x40006020 + 0x40 * n)
abbrev TMR_CMD.RESTART (n : Nat) : Field := ⟨Reg.TMR_CMD n, 0, 1⟩

/-! ### MSU -/
/-- MSU_CFG; spec/18_mains_sense.md. -/
abbrev Reg.MSU_CFG : Nat := 0x40007000
abbrev MSU_CFG.EN : Field := ⟨Reg.MSU_CFG, 31, 1⟩
abbrev MSU_CFG.TRIG : Field := ⟨Reg.MSU_CFG, 30, 1⟩
abbrev MSU_CFG.ZCSRC : Field := ⟨Reg.MSU_CFG, 29, 1⟩
abbrev MSU_CFG.FNOM : Field := ⟨Reg.MSU_CFG, 28, 1⟩
abbrev MSU_CFG.ZCHOLD : Field := ⟨Reg.MSU_CFG, 16, 8⟩
abbrev MSU_CFG.CHEN : Field := ⟨Reg.MSU_CFG, 8, 4⟩
abbrev MSU_CFG.ZCHYST : Field := ⟨Reg.MSU_CFG, 0, 8⟩
/-- MSU_STAT; spec/18_mains_sense.md. -/
abbrev Reg.MSU_STAT : Nat := 0x40007004
abbrev MSU_STAT.RUN : Field := ⟨Reg.MSU_STAT, 31, 1⟩
abbrev MSU_STAT.ZCOK : Field := ⟨Reg.MSU_STAT, 30, 1⟩
abbrev MSU_STAT.PHST : Field := ⟨Reg.MSU_STAT, 0, 6⟩
/-- MSU_SCAN; spec/18_mains_sense.md. -/
abbrev Reg.MSU_SCAN : Nat := 0x40007008
abbrev MSU_SCAN.SCAN : Field := ⟨Reg.MSU_SCAN, 0, 32⟩
/-- MSU_FREQ; spec/18_mains_sense.md. -/
abbrev Reg.MSU_FREQ : Nat := 0x4000700C
abbrev MSU_FREQ.VALID : Field := ⟨Reg.MSU_FREQ, 31, 1⟩
abbrev MSU_FREQ.MHZ : Field := ⟨Reg.MSU_FREQ, 0, 17⟩
/-- MSU_FAVG10; spec/18_mains_sense.md. -/
abbrev Reg.MSU_FAVG10 : Nat := 0x40007010
abbrev MSU_FAVG10.VALID : Field := ⟨Reg.MSU_FAVG10, 31, 1⟩
abbrev MSU_FAVG10.UHZ : Field := ⟨Reg.MSU_FAVG10, 0, 27⟩
/-- MSU_FAVG600; spec/18_mains_sense.md. -/
abbrev Reg.MSU_FAVG600 : Nat := 0x40007014
abbrev MSU_FAVG600.VALID : Field := ⟨Reg.MSU_FAVG600, 31, 1⟩
abbrev MSU_FAVG600.UHZ : Field := ⟨Reg.MSU_FAVG600, 0, 27⟩
/-- MSU_FCNT; spec/18_mains_sense.md. -/
abbrev Reg.MSU_FCNT : Nat := 0x40007018
abbrev MSU_FCNT.C600 : Field := ⟨Reg.MSU_FCNT, 16, 16⟩
abbrev MSU_FCNT.C10 : Field := ⟨Reg.MSU_FCNT, 0, 16⟩
/-- MSU_RMS0; spec/18_mains_sense.md. -/
abbrev Reg.MSU_RMS0 : Nat := 0x40007020
abbrev MSU_RMS0.HIGH : Field := ⟨Reg.MSU_RMS0, 16, 16⟩
abbrev MSU_RMS0.LOW : Field := ⟨Reg.MSU_RMS0, 0, 16⟩
/-- MSU_RMS1; spec/18_mains_sense.md. -/
abbrev Reg.MSU_RMS1 : Nat := 0x40007024
abbrev MSU_RMS1.HIGH : Field := ⟨Reg.MSU_RMS1, 16, 16⟩
abbrev MSU_RMS1.LOW : Field := ⟨Reg.MSU_RMS1, 0, 16⟩
/-- MSU_NOM; spec/18_mains_sense.md. -/
abbrev Reg.MSU_NOM : Nat := 0x40007030
abbrev MSU_NOM.NOM : Field := ⟨Reg.MSU_NOM, 0, 16⟩
/-- MSU_THR; spec/18_mains_sense.md. -/
abbrev Reg.MSU_THR : Nat := 0x40007034
abbrev MSU_THR.SWELL : Field := ⟨Reg.MSU_THR, 24, 8⟩
abbrev MSU_THR.SAG : Field := ⟨Reg.MSU_THR, 16, 8⟩
abbrev MSU_THR.INTR : Field := ⟨Reg.MSU_THR, 8, 8⟩
abbrev MSU_THR.HYST : Field := ⟨Reg.MSU_THR, 0, 8⟩
/-- MSU_SRING; spec/18_mains_sense.md. -/
abbrev Reg.MSU_SRING : Nat := 0x40007040
abbrev MSU_SRING.ADDR : Field := ⟨Reg.MSU_SRING, 12, 20⟩
abbrev MSU_SRING.EN : Field := ⟨Reg.MSU_SRING, 4, 1⟩
abbrev MSU_SRING.SIZE : Field := ⟨Reg.MSU_SRING, 0, 3⟩
/-- MSU_HRING; spec/18_mains_sense.md. -/
abbrev Reg.MSU_HRING : Nat := 0x40007044
abbrev MSU_HRING.ADDR : Field := ⟨Reg.MSU_HRING, 11, 21⟩
abbrev MSU_HRING.EN : Field := ⟨Reg.MSU_HRING, 0, 1⟩
/-- MSU_HPTR; spec/18_mains_sense.md. -/
abbrev Reg.MSU_HPTR : Nat := 0x40007048
abbrev MSU_HPTR.DROP : Field := ⟨Reg.MSU_HPTR, 24, 8⟩
abbrev MSU_HPTR.RD : Field := ⟨Reg.MSU_HPTR, 16, 6⟩
abbrev MSU_HPTR.WR : Field := ⟨Reg.MSU_HPTR, 0, 6⟩
/-- MSU_IRQ; spec/18_mains_sense.md. -/
abbrev Reg.MSU_IRQ : Nat := 0x40007050
abbrev MSU_IRQ.BADCFG : Field := ⟨Reg.MSU_IRQ, 7, 1⟩
abbrev MSU_IRQ.CLIP : Field := ⟨Reg.MSU_IRQ, 6, 1⟩
abbrev MSU_IRQ.SCANOVR : Field := ⟨Reg.MSU_IRQ, 5, 1⟩
abbrev MSU_IRQ.NOZC : Field := ⟨Reg.MSU_IRQ, 4, 1⟩
abbrev MSU_IRQ.BADCYC : Field := ⟨Reg.MSU_IRQ, 3, 1⟩
abbrev MSU_IRQ.FAVG : Field := ⟨Reg.MSU_IRQ, 2, 1⟩
abbrev MSU_IRQ.DIST : Field := ⟨Reg.MSU_IRQ, 1, 1⟩
abbrev MSU_IRQ.HALF : Field := ⟨Reg.MSU_IRQ, 0, 1⟩
/-- MSU_IRQEN; spec/18_mains_sense.md. -/
abbrev Reg.MSU_IRQEN : Nat := 0x40007054
abbrev MSU_IRQEN.BADCFG : Field := ⟨Reg.MSU_IRQEN, 7, 1⟩
abbrev MSU_IRQEN.CLIP : Field := ⟨Reg.MSU_IRQEN, 6, 1⟩
abbrev MSU_IRQEN.SCANOVR : Field := ⟨Reg.MSU_IRQEN, 5, 1⟩
abbrev MSU_IRQEN.NOZC : Field := ⟨Reg.MSU_IRQEN, 4, 1⟩
abbrev MSU_IRQEN.BADCYC : Field := ⟨Reg.MSU_IRQEN, 3, 1⟩
abbrev MSU_IRQEN.FAVG : Field := ⟨Reg.MSU_IRQEN, 2, 1⟩
abbrev MSU_IRQEN.DIST : Field := ⟨Reg.MSU_IRQEN, 1, 1⟩
abbrev MSU_IRQEN.HALF : Field := ⟨Reg.MSU_IRQEN, 0, 1⟩
/-- MSU_CNT; spec/18_mains_sense.md. -/
abbrev Reg.MSU_CNT : Nat := 0x40007058
abbrev MSU_CNT.SCANOVR : Field := ⟨Reg.MSU_CNT, 16, 16⟩
abbrev MSU_CNT.BADCYC : Field := ⟨Reg.MSU_CNT, 0, 16⟩

/-! ### NVM -/
/-- NVM_CTRL; spec/19_nonvolatile_memory.md. -/
abbrev Reg.NVM_CTRL : Nat := 0x40008000
abbrev NVM_CTRL.SCRUBEN : Field := ⟨Reg.NVM_CTRL, 31, 1⟩
abbrev NVM_CTRL.AUTOSUSP : Field := ⟨Reg.NVM_CTRL, 30, 1⟩
abbrev NVM_CTRL.SCRUBPER : Field := ⟨Reg.NVM_CTRL, 0, 8⟩
/-- NVM_STAT; spec/19_nonvolatile_memory.md. -/
abbrev Reg.NVM_STAT : Nat := 0x40008004
abbrev NVM_STAT.READY : Field := ⟨Reg.NVM_STAT, 31, 1⟩
abbrev NVM_STAT.WEAR_WARN : Field := ⟨Reg.NVM_STAT, 16, 1⟩
abbrev NVM_STAT.RDONLY : Field := ⟨Reg.NVM_STAT, 8, 2⟩
abbrev NVM_STAT.SUSP : Field := ⟨Reg.NVM_STAT, 6, 2⟩
abbrev NVM_STAT.ERASE : Field := ⟨Reg.NVM_STAT, 4, 2⟩
abbrev NVM_STAT.PROG : Field := ⟨Reg.NVM_STAT, 2, 2⟩
abbrev NVM_STAT.STATUS_READ : Field := ⟨Reg.NVM_STAT, 0, 1⟩
/-- NVM_SUSP; spec/19_nonvolatile_memory.md. -/
abbrev Reg.NVM_SUSP : Nat := 0x40008008
abbrev NVM_SUSP.REQ : Field := ⟨Reg.NVM_SUSP, 0, 2⟩
/-- NVM_ADDR; spec/19_nonvolatile_memory.md. -/
abbrev Reg.NVM_ADDR : Nat := 0x40008010
abbrev NVM_ADDR.ADDR : Field := ⟨Reg.NVM_ADDR, 0, 32⟩
/-- NVM_SRC; spec/19_nonvolatile_memory.md. -/
abbrev Reg.NVM_SRC : Nat := 0x40008014
abbrev NVM_SRC.SRC : Field := ⟨Reg.NVM_SRC, 0, 32⟩
/-- NVM_OTPDATA; spec/19_nonvolatile_memory.md. -/
abbrev Reg.NVM_OTPDATA : Nat := 0x40008018
abbrev NVM_OTPDATA.DATA : Field := ⟨Reg.NVM_OTPDATA, 0, 32⟩
/-- NVM_CMD; spec/19_nonvolatile_memory.md. -/
abbrev Reg.NVM_CMD : Nat := 0x4000801C
abbrev NVM_CMD.OP : Field := ⟨Reg.NVM_CMD, 28, 4⟩
abbrev NVM_CMD.COUNT : Field := ⟨Reg.NVM_CMD, 0, 7⟩
/-- NVM_CMDSTAT; spec/19_nonvolatile_memory.md. -/
abbrev Reg.NVM_CMDSTAT : Nat := 0x40008020
abbrev NVM_CMDSTAT.BUSY : Field := ⟨Reg.NVM_CMDSTAT, 31, 1⟩
abbrev NVM_CMDSTAT.UNITS : Field := ⟨Reg.NVM_CMDSTAT, 8, 8⟩
abbrev NVM_CMDSTAT.STATUS : Field := ⟨Reg.NVM_CMDSTAT, 0, 8⟩
/-- NVM_ESTATk; spec/19_nonvolatile_memory.md. -/
abbrev Reg.NVM_ESTAT (n : Nat) : Nat := (0x40008024 + 0x4 * n)
abbrev NVM_ESTAT.BUSY (n : Nat) : Field := ⟨Reg.NVM_ESTAT n, 31, 1⟩
abbrev NVM_ESTAT.SUSP (n : Nat) : Field := ⟨Reg.NVM_ESTAT n, 30, 1⟩
abbrev NVM_ESTAT.BLOCK (n : Nat) : Field := ⟨Reg.NVM_ESTAT n, 16, 9⟩
abbrev NVM_ESTAT.STATUS (n : Nat) : Field := ⟨Reg.NVM_ESTAT n, 0, 8⟩
/-- NVM_LASTECC; spec/19_nonvolatile_memory.md. -/
abbrev Reg.NVM_LASTECC : Nat := 0x40008030
abbrev NVM_LASTECC.VALID : Field := ⟨Reg.NVM_LASTECC, 31, 1⟩
abbrev NVM_LASTECC.UNCORR : Field := ⟨Reg.NVM_LASTECC, 30, 1⟩
abbrev NVM_LASTECC.BANK : Field := ⟨Reg.NVM_LASTECC, 25, 1⟩
abbrev NVM_LASTECC.BLOCK : Field := ⟨Reg.NVM_LASTECC, 16, 9⟩
abbrev NVM_LASTECC.UNIT : Field := ⟨Reg.NVM_LASTECC, 8, 7⟩
abbrev NVM_LASTECC.BITS : Field := ⟨Reg.NVM_LASTECC, 0, 3⟩
/-- NVM_EW_THRESH; spec/19_nonvolatile_memory.md. -/
abbrev Reg.NVM_EW_THRESH : Nat := 0x40008034
abbrev NVM_EW_THRESH.THRESH : Field := ⟨Reg.NVM_EW_THRESH, 0, 3⟩
/-- NVM_ECCCNT; spec/19_nonvolatile_memory.md. -/
abbrev Reg.NVM_ECCCNT : Nat := 0x40008038
abbrev NVM_ECCCNT.EW : Field := ⟨Reg.NVM_ECCCNT, 16, 16⟩
abbrev NVM_ECCCNT.UNCORR : Field := ⟨Reg.NVM_ECCCNT, 0, 16⟩
/-- NVM_ECCADDR; spec/19_nonvolatile_memory.md. -/
abbrev Reg.NVM_ECCADDR : Nat := 0x4000803C
abbrev NVM_ECCADDR.ADDR : Field := ⟨Reg.NVM_ECCADDR, 0, 32⟩
/-- NVM_PVCOUNT; spec/19_nonvolatile_memory.md. -/
abbrev Reg.NVM_PVCOUNT : Nat := 0x40008040
abbrev NVM_PVCOUNT.MAX : Field := ⟨Reg.NVM_PVCOUNT, 8, 8⟩
abbrev NVM_PVCOUNT.LAST : Field := ⟨Reg.NVM_PVCOUNT, 0, 4⟩
/-- NVM_SCRUB; spec/19_nonvolatile_memory.md. -/
abbrev Reg.NVM_SCRUB : Nat := 0x40008050
abbrev NVM_SCRUB.BANK : Field := ⟨Reg.NVM_SCRUB, 31, 1⟩
abbrev NVM_SCRUB.BLOCK : Field := ⟨Reg.NVM_SCRUB, 16, 9⟩
abbrev NVM_SCRUB.PASSES : Field := ⟨Reg.NVM_SCRUB, 0, 16⟩
/-- NVM_SCRLOG; spec/19_nonvolatile_memory.md. -/
abbrev Reg.NVM_SCRLOG : Nat := 0x40008054
abbrev NVM_SCRLOG.ADDR : Field := ⟨Reg.NVM_SCRLOG, 10, 22⟩
abbrev NVM_SCRLOG.EN : Field := ⟨Reg.NVM_SCRLOG, 0, 1⟩
/-- NVM_SPARE; spec/19_nonvolatile_memory.md. -/
abbrev Reg.NVM_SPARE : Nat := 0x40008060
abbrev NVM_SPARE.RET1 : Field := ⟨Reg.NVM_SPARE, 24, 5⟩
abbrev NVM_SPARE.FREE1 : Field := ⟨Reg.NVM_SPARE, 16, 5⟩
abbrev NVM_SPARE.RET0 : Field := ⟨Reg.NVM_SPARE, 8, 5⟩
abbrev NVM_SPARE.FREE0 : Field := ⟨Reg.NVM_SPARE, 0, 5⟩
/-- NVM_WEARSEL; spec/19_nonvolatile_memory.md. -/
abbrev Reg.NVM_WEARSEL : Nat := 0x40008064
abbrev NVM_WEARSEL.BANK : Field := ⟨Reg.NVM_WEARSEL, 9, 1⟩
abbrev NVM_WEARSEL.BLOCK : Field := ⟨Reg.NVM_WEARSEL, 0, 9⟩
/-- NVM_WEARCNT; spec/19_nonvolatile_memory.md. -/
abbrev Reg.NVM_WEARCNT : Nat := 0x40008068
abbrev NVM_WEARCNT.COUNT : Field := ⟨Reg.NVM_WEARCNT, 0, 32⟩
/-- NVM_WEARMAX; spec/19_nonvolatile_memory.md. -/
abbrev Reg.NVM_WEARMAX : Nat := 0x4000806C
abbrev NVM_WEARMAX.COUNT : Field := ⟨Reg.NVM_WEARMAX, 0, 32⟩
/-- NVM_IRQ; spec/19_nonvolatile_memory.md. -/
abbrev Reg.NVM_IRQ : Nat := 0x40008080
abbrev NVM_IRQ.REERASE : Field := ⟨Reg.NVM_IRQ, 11, 1⟩
abbrev NVM_IRQ.CMDOVR : Field := ⟨Reg.NVM_IRQ, 10, 1⟩
abbrev NVM_IRQ.RDONLY : Field := ⟨Reg.NVM_IRQ, 9, 1⟩
abbrev NVM_IRQ.SPARELOW : Field := ⟨Reg.NVM_IRQ, 8, 1⟩
abbrev NVM_IRQ.WEAR_WARN : Field := ⟨Reg.NVM_IRQ, 7, 1⟩
abbrev NVM_IRQ.RETIRE : Field := ⟨Reg.NVM_IRQ, 6, 1⟩
abbrev NVM_IRQ.REFRESH : Field := ⟨Reg.NVM_IRQ, 5, 1⟩
abbrev NVM_IRQ.PVHIGH : Field := ⟨Reg.NVM_IRQ, 4, 1⟩
abbrev NVM_IRQ.UNCORR : Field := ⟨Reg.NVM_IRQ, 3, 1⟩
abbrev NVM_IRQ.EW : Field := ⟨Reg.NVM_IRQ, 2, 1⟩
abbrev NVM_IRQ.EDONE : Field := ⟨Reg.NVM_IRQ, 1, 1⟩
abbrev NVM_IRQ.CMDDONE : Field := ⟨Reg.NVM_IRQ, 0, 1⟩
/-- NVM_IRQEN; spec/19_nonvolatile_memory.md. -/
abbrev Reg.NVM_IRQEN : Nat := 0x40008084
abbrev NVM_IRQEN.REERASE : Field := ⟨Reg.NVM_IRQEN, 11, 1⟩
abbrev NVM_IRQEN.CMDOVR : Field := ⟨Reg.NVM_IRQEN, 10, 1⟩
abbrev NVM_IRQEN.RDONLY : Field := ⟨Reg.NVM_IRQEN, 9, 1⟩
abbrev NVM_IRQEN.SPARELOW : Field := ⟨Reg.NVM_IRQEN, 8, 1⟩
abbrev NVM_IRQEN.WEAR_WARN : Field := ⟨Reg.NVM_IRQEN, 7, 1⟩
abbrev NVM_IRQEN.RETIRE : Field := ⟨Reg.NVM_IRQEN, 6, 1⟩
abbrev NVM_IRQEN.REFRESH : Field := ⟨Reg.NVM_IRQEN, 5, 1⟩
abbrev NVM_IRQEN.PVHIGH : Field := ⟨Reg.NVM_IRQEN, 4, 1⟩
abbrev NVM_IRQEN.UNCORR : Field := ⟨Reg.NVM_IRQEN, 3, 1⟩
abbrev NVM_IRQEN.EW : Field := ⟨Reg.NVM_IRQEN, 2, 1⟩
abbrev NVM_IRQEN.EDONE : Field := ⟨Reg.NVM_IRQEN, 1, 1⟩
abbrev NVM_IRQEN.CMDDONE : Field := ⟨Reg.NVM_IRQEN, 0, 1⟩

/-! ### SPIM -/
/-- SPIM_CFG; spec/20_serial_ports.md. -/
abbrev Reg.SPIM_CFG : Nat := 0x40009000
abbrev SPIM_CFG.EN : Field := ⟨Reg.SPIM_CFG, 31, 1⟩
abbrev SPIM_CFG.DDR : Field := ⟨Reg.SPIM_CFG, 30, 1⟩
abbrev SPIM_CFG.CS1EN : Field := ⟨Reg.SPIM_CFG, 9, 1⟩
abbrev SPIM_CFG.CACHEEN : Field := ⟨Reg.SPIM_CFG, 8, 1⟩
abbrev SPIM_CFG.RXDLY : Field := ⟨Reg.SPIM_CFG, 4, 2⟩
abbrev SPIM_CFG.DIV : Field := ⟨Reg.SPIM_CFG, 0, 4⟩
/-- SPIM_MAP; spec/20_serial_ports.md. -/
abbrev Reg.SPIM_MAP : Nat := 0x40009004
abbrev SPIM_MAP.SPLIT : Field := ⟨Reg.SPIM_MAP, 0, 7⟩
/-- SPIM_DLYk; spec/20_serial_ports.md. -/
abbrev Reg.SPIM_DLY (n : Nat) : Nat := (0x40009010 + 0x4 * n)
abbrev SPIM_DLY.CSI (n : Nat) : Field := ⟨Reg.SPIM_DLY n, 8, 4⟩
abbrev SPIM_DLY.CSH (n : Nat) : Field := ⟨Reg.SPIM_DLY n, 4, 4⟩
abbrev SPIM_DLY.CSS (n : Nat) : Field := ⟨Reg.SPIM_DLY n, 0, 4⟩
/-- SPIM_RDk; spec/20_serial_ports.md. -/
abbrev Reg.SPIM_RD (n : Nat) : Nat := (0x40009020 + 0x8 * n)
abbrev SPIM_RD.DUMMY (n : Nat) : Field := ⟨Reg.SPIM_RD n, 16, 5⟩
abbrev SPIM_RD.ADDR4 (n : Nat) : Field := ⟨Reg.SPIM_RD n, 10, 1⟩
abbrev SPIM_RD.LINES (n : Nat) : Field := ⟨Reg.SPIM_RD n, 8, 2⟩
abbrev SPIM_RD.OPCODE (n : Nat) : Field := ⟨Reg.SPIM_RD n, 0, 8⟩
/-- SPIM_WRk; spec/20_serial_ports.md. -/
abbrev Reg.SPIM_WR (n : Nat) : Nat := (0x40009024 + 0x8 * n)
abbrev SPIM_WR.PAGE (n : Nat) : Field := ⟨Reg.SPIM_WR n, 30, 2⟩
abbrev SPIM_WR.PPLINES (n : Nat) : Field := ⟨Reg.SPIM_WR n, 28, 2⟩
abbrev SPIM_WR.BUSYBIT (n : Nat) : Field := ⟨Reg.SPIM_WR n, 24, 3⟩
abbrev SPIM_WR.RDSROP (n : Nat) : Field := ⟨Reg.SPIM_WR n, 16, 8⟩
abbrev SPIM_WR.WRENOP (n : Nat) : Field := ⟨Reg.SPIM_WR n, 8, 8⟩
abbrev SPIM_WR.PPOP (n : Nat) : Field := ⟨Reg.SPIM_WR n, 0, 8⟩
/-- SPIM_POLL; spec/20_serial_ports.md. -/
abbrev Reg.SPIM_POLL : Nat := 0x40009030
abbrev SPIM_POLL.POLLMAX : Field := ⟨Reg.SPIM_POLL, 16, 12⟩
abbrev SPIM_POLL.POLLGAP : Field := ⟨Reg.SPIM_POLL, 0, 8⟩
/-- SPIM_STAT; spec/20_serial_ports.md. -/
abbrev Reg.SPIM_STAT : Nat := 0x40009040
abbrev SPIM_STAT.WBUSY : Field := ⟨Reg.SPIM_STAT, 31, 1⟩
abbrev SPIM_STAT.DBUSY : Field := ⟨Reg.SPIM_STAT, 30, 1⟩
abbrev SPIM_STAT.PARTIAL : Field := ⟨Reg.SPIM_STAT, 29, 1⟩
abbrev SPIM_STAT.QLEVEL : Field := ⟨Reg.SPIM_STAT, 24, 3⟩
/-- SPIM_DCMD; spec/20_serial_ports.md. -/
abbrev Reg.SPIM_DCMD : Nat := 0x40009050
abbrev SPIM_DCMD.GO : Field := ⟨Reg.SPIM_DCMD, 31, 1⟩
abbrev SPIM_DCMD.WREN : Field := ⟨Reg.SPIM_DCMD, 30, 1⟩
abbrev SPIM_DCMD.POLL : Field := ⟨Reg.SPIM_DCMD, 29, 1⟩
abbrev SPIM_DCMD.CS : Field := ⟨Reg.SPIM_DCMD, 28, 1⟩
abbrev SPIM_DCMD.DIR : Field := ⟨Reg.SPIM_DCMD, 26, 2⟩
abbrev SPIM_DCMD.ADDR : Field := ⟨Reg.SPIM_DCMD, 25, 1⟩
abbrev SPIM_DCMD.LEN : Field := ⟨Reg.SPIM_DCMD, 16, 9⟩
abbrev SPIM_DCMD.DUMMY : Field := ⟨Reg.SPIM_DCMD, 11, 5⟩
abbrev SPIM_DCMD.LINES : Field := ⟨Reg.SPIM_DCMD, 8, 2⟩
abbrev SPIM_DCMD.OPCODE : Field := ⟨Reg.SPIM_DCMD, 0, 8⟩
/-- SPIM_DADDR; spec/20_serial_ports.md. -/
abbrev Reg.SPIM_DADDR : Nat := 0x40009054
abbrev SPIM_DADDR.ADDR : Field := ⟨Reg.SPIM_DADDR, 0, 32⟩
/-- SPIM_DBUF; spec/20_serial_ports.md. -/
abbrev Reg.SPIM_DBUF : Nat := 0x40009058
abbrev SPIM_DBUF.ADDR : Field := ⟨Reg.SPIM_DBUF, 2, 30⟩
/-- SPIM_IRQ; spec/20_serial_ports.md. -/
abbrev Reg.SPIM_IRQ : Nat := 0x40009060
abbrev SPIM_IRQ.DOVR : Field := ⟨Reg.SPIM_IRQ, 4, 1⟩
abbrev SPIM_IRQ.XTSPART : Field := ⟨Reg.SPIM_IRQ, 3, 1⟩
abbrev SPIM_IRQ.WTOUT : Field := ⟨Reg.SPIM_IRQ, 2, 1⟩
abbrev SPIM_IRQ.WDONE : Field := ⟨Reg.SPIM_IRQ, 1, 1⟩
abbrev SPIM_IRQ.DDONE : Field := ⟨Reg.SPIM_IRQ, 0, 1⟩
/-- SPIM_IRQEN; spec/20_serial_ports.md. -/
abbrev Reg.SPIM_IRQEN : Nat := 0x40009064
abbrev SPIM_IRQEN.DOVR : Field := ⟨Reg.SPIM_IRQEN, 4, 1⟩
abbrev SPIM_IRQEN.XTSPART : Field := ⟨Reg.SPIM_IRQEN, 3, 1⟩
abbrev SPIM_IRQEN.WTOUT : Field := ⟨Reg.SPIM_IRQEN, 2, 1⟩
abbrev SPIM_IRQEN.WDONE : Field := ⟨Reg.SPIM_IRQEN, 1, 1⟩
abbrev SPIM_IRQEN.DDONE : Field := ⟨Reg.SPIM_IRQEN, 0, 1⟩
/-- SPIM_CNT; spec/20_serial_ports.md. -/
abbrev Reg.SPIM_CNT : Nat := 0x40009068
abbrev SPIM_CNT.WDROP : Field := ⟨Reg.SPIM_CNT, 16, 16⟩
abbrev SPIM_CNT.TOUT : Field := ⟨Reg.SPIM_CNT, 0, 16⟩

/-! ### SPIS -/
/-- SPIS_CTRL; spec/20_serial_ports.md. -/
abbrev Reg.SPIS_CTRL : Nat := 0x4000A000
abbrev SPIS_CTRL.EN : Field := ⟨Reg.SPIS_CTRL, 31, 1⟩
/-- SPIS_STAT; spec/20_serial_ports.md. -/
abbrev Reg.SPIS_STAT : Nat := 0x4000A004
abbrev SPIS_STAT.RDY : Field := ⟨Reg.SPIS_STAT, 31, 1⟩
abbrev SPIS_STAT.PEND : Field := ⟨Reg.SPIS_STAT, 30, 1⟩
abbrev SPIS_STAT.INFRAME : Field := ⟨Reg.SPIS_STAT, 29, 1⟩
abbrev SPIS_STAT.LASTTAG : Field := ⟨Reg.SPIS_STAT, 16, 4⟩
abbrev SPIS_STAT.LASTCMD : Field := ⟨Reg.SPIS_STAT, 8, 8⟩
abbrev SPIS_STAT.LASTBRK : Field := ⟨Reg.SPIS_STAT, 0, 3⟩
/-- SPIS_ATTN; spec/20_serial_ports.md. -/
abbrev Reg.SPIS_ATTN : Nat := 0x4000A008
abbrev SPIS_ATTN.REPLY : Field := ⟨Reg.SPIS_ATTN, 9, 1⟩
abbrev SPIS_ATTN.MBOX : Field := ⟨Reg.SPIS_ATTN, 8, 1⟩
abbrev SPIS_ATTN.SW : Field := ⟨Reg.SPIS_ATTN, 0, 8⟩
/-- SPIS_ATTNEN; spec/20_serial_ports.md. -/
abbrev Reg.SPIS_ATTNEN : Nat := 0x4000A00C
abbrev SPIS_ATTNEN.EN : Field := ⟨Reg.SPIS_ATTNEN, 0, 10⟩
/-- SPIS_MBBASEk; spec/20_serial_ports.md. -/
abbrev Reg.SPIS_MBBASE (n : Nat) : Nat := (0x4000A010 + 0x8 * n)
abbrev SPIS_MBBASE.ADDR (n : Nat) : Field := ⟨Reg.SPIS_MBBASE n, 12, 20⟩
abbrev SPIS_MBBASE.EN (n : Nat) : Field := ⟨Reg.SPIS_MBBASE n, 4, 1⟩
abbrev SPIS_MBBASE.SIZE (n : Nat) : Field := ⟨Reg.SPIS_MBBASE n, 0, 2⟩
/-- SPIS_MBPTRk; spec/20_serial_ports.md. -/
abbrev Reg.SPIS_MBPTR (n : Nat) : Nat := (0x4000A014 + 0x8 * n)
abbrev SPIS_MBPTR.RD (n : Nat) : Field := ⟨Reg.SPIS_MBPTR n, 16, 16⟩
abbrev SPIS_MBPTR.WR (n : Nat) : Field := ⟨Reg.SPIS_MBPTR n, 0, 16⟩
/-- SPIS_CNT0; spec/20_serial_ports.md. -/
abbrev Reg.SPIS_CNT0 : Nat := 0x4000A030
abbrev SPIS_CNT0.SHORT : Field := ⟨Reg.SPIS_CNT0, 24, 8⟩
abbrev SPIS_CNT0.LONG : Field := ⟨Reg.SPIS_CNT0, 16, 8⟩
abbrev SPIS_CNT0.CRC : Field := ⟨Reg.SPIS_CNT0, 8, 8⟩
abbrev SPIS_CNT0.BUSY : Field := ⟨Reg.SPIS_CNT0, 0, 8⟩
/-- SPIS_CNT1; spec/20_serial_ports.md. -/
abbrev Reg.SPIS_CNT1 : Nat := 0x4000A034
abbrev SPIS_CNT1.BADLEN : Field := ⟨Reg.SPIS_CNT1, 8, 8⟩
abbrev SPIS_CNT1.OVERRUN : Field := ⟨Reg.SPIS_CNT1, 0, 8⟩
/-- SPIS_IRQ; spec/20_serial_ports.md. -/
abbrev Reg.SPIS_IRQ : Nat := 0x4000A040
abbrev SPIS_IRQ.MBGET : Field := ⟨Reg.SPIS_IRQ, 3, 1⟩
abbrev SPIS_IRQ.BROKEN : Field := ⟨Reg.SPIS_IRQ, 2, 1⟩
abbrev SPIS_IRQ.MBOX : Field := ⟨Reg.SPIS_IRQ, 1, 1⟩
abbrev SPIS_IRQ.FRAME : Field := ⟨Reg.SPIS_IRQ, 0, 1⟩
/-- SPIS_IRQEN; spec/20_serial_ports.md. -/
abbrev Reg.SPIS_IRQEN : Nat := 0x4000A044
abbrev SPIS_IRQEN.MBGET : Field := ⟨Reg.SPIS_IRQEN, 3, 1⟩
abbrev SPIS_IRQEN.BROKEN : Field := ⟨Reg.SPIS_IRQEN, 2, 1⟩
abbrev SPIS_IRQEN.MBOX : Field := ⟨Reg.SPIS_IRQEN, 1, 1⟩
abbrev SPIS_IRQEN.FRAME : Field := ⟨Reg.SPIS_IRQEN, 0, 1⟩

/-! ### DICT -/
/-- DICT_CTRL; spec/22_object_dictionary.md. -/
abbrev Reg.DICT_CTRL : Nat := 0x40019000
abbrev DICT_CTRL.EN : Field := ⟨Reg.DICT_CTRL, 31, 1⟩
abbrev DICT_CTRL.MESHEN : Field := ⟨Reg.DICT_CTRL, 30, 1⟩
abbrev DICT_CTRL.TTO : Field := ⟨Reg.DICT_CTRL, 8, 8⟩
abbrev DICT_CTRL.HOLDMAX : Field := ⟨Reg.DICT_CTRL, 0, 8⟩
/-- DICT_STAT; spec/22_object_dictionary.md. -/
abbrev Reg.DICT_STAT : Nat := 0x40019004
abbrev DICT_STAT.READY : Field := ⟨Reg.DICT_STAT, 31, 1⟩
abbrev DICT_STAT.RESTFAIL : Field := ⟨Reg.DICT_STAT, 30, 1⟩
abbrev DICT_STAT.APPBAD : Field := ⟨Reg.DICT_STAT, 29, 1⟩
abbrev DICT_STAT.NOSTORE : Field := ⟨Reg.DICT_STAT, 28, 1⟩
abbrev DICT_STAT.HOLD : Field := ⟨Reg.DICT_STAT, 27, 1⟩
abbrev DICT_STAT.APPLY : Field := ⟨Reg.DICT_STAT, 26, 1⟩
abbrev DICT_STAT.CBUSY : Field := ⟨Reg.DICT_STAT, 25, 1⟩
abbrev DICT_STAT.OPEN : Field := ⟨Reg.DICT_STAT, 8, 4⟩
abbrev DICT_STAT.FREE : Field := ⟨Reg.DICT_STAT, 0, 4⟩
/-- DICT_GEN; spec/22_object_dictionary.md. -/
abbrev Reg.DICT_GEN : Nat := 0x40019008
abbrev DICT_GEN.GEN : Field := ⟨Reg.DICT_GEN, 0, 32⟩
/-- DICT_TKHOLD; spec/22_object_dictionary.md. -/
abbrev Reg.DICT_TKHOLD : Nat := 0x4001900C
abbrev DICT_TKHOLD.WAIT : Field := ⟨Reg.DICT_TKHOLD, 8, 5⟩
abbrev DICT_TKHOLD.HOLD : Field := ⟨Reg.DICT_TKHOLD, 0, 5⟩
/-- DICT_STORE; spec/22_object_dictionary.md. -/
abbrev Reg.DICT_STORE : Nat := 0x40019010
abbrev DICT_STORE.EN : Field := ⟨Reg.DICT_STORE, 31, 1⟩
abbrev DICT_STORE.BANK : Field := ⟨Reg.DICT_STORE, 28, 1⟩
abbrev DICT_STORE.FIRST : Field := ⟨Reg.DICT_STORE, 16, 9⟩
abbrev DICT_STORE.NBLK : Field := ⟨Reg.DICT_STORE, 0, 6⟩
/-- DICT_BUFBASE; spec/22_object_dictionary.md. -/
abbrev Reg.DICT_BUFBASE : Nat := 0x40019014
abbrev DICT_BUFBASE.ADDR : Field := ⟨Reg.DICT_BUFBASE, 15, 17⟩
abbrev DICT_BUFBASE.EN : Field := ⟨Reg.DICT_BUFBASE, 0, 1⟩
/-- DICT_APPBASE; spec/22_object_dictionary.md. -/
abbrev Reg.DICT_APPBASE : Nat := 0x40019018
abbrev DICT_APPBASE.ADDR : Field := ⟨Reg.DICT_APPBASE, 4, 28⟩
abbrev DICT_APPBASE.EN : Field := ⟨Reg.DICT_APPBASE, 0, 1⟩
/-- DICT_APPN; spec/22_object_dictionary.md. -/
abbrev Reg.DICT_APPN : Nat := 0x4001901C
abbrev DICT_APPN.N : Field := ⟨Reg.DICT_APPN, 0, 11⟩
/-- DICT_MQBASE; spec/22_object_dictionary.md. -/
abbrev Reg.DICT_MQBASE : Nat := 0x40019020
abbrev DICT_MQBASE.ADDR : Field := ⟨Reg.DICT_MQBASE, 7, 25⟩
abbrev DICT_MQBASE.EN : Field := ⟨Reg.DICT_MQBASE, 0, 1⟩
/-- DICT_MQPTR; spec/22_object_dictionary.md. -/
abbrev Reg.DICT_MQPTR : Nat := 0x40019024
abbrev DICT_MQPTR.HEAD : Field := ⟨Reg.DICT_MQPTR, 8, 3⟩
abbrev DICT_MQPTR.TAIL : Field := ⟨Reg.DICT_MQPTR, 0, 3⟩
/-- DICT_CB; spec/22_object_dictionary.md. -/
abbrev Reg.DICT_CB : Nat := 0x40019030
abbrev DICT_CB.VALID : Field := ⟨Reg.DICT_CB, 31, 1⟩
abbrev DICT_CB.DESC : Field := ⟨Reg.DICT_CB, 0, 10⟩
/-- DICT_CBRES; spec/22_object_dictionary.md. -/
abbrev Reg.DICT_CBRES : Nat := 0x40019034
abbrev DICT_CBRES.GO : Field := ⟨Reg.DICT_CBRES, 31, 1⟩
abbrev DICT_CBRES.REFUSE : Field := ⟨Reg.DICT_CBRES, 8, 1⟩
abbrev DICT_CBRES.CODE : Field := ⟨Reg.DICT_CBRES, 0, 8⟩
/-- DICT_RESTERR; spec/22_object_dictionary.md. -/
abbrev Reg.DICT_RESTERR : Nat := 0x40019038
abbrev DICT_RESTERR.FIDX : Field := ⟨Reg.DICT_RESTERR, 16, 16⟩
abbrev DICT_RESTERR.FSUB : Field := ⟨Reg.DICT_RESTERR, 8, 8⟩
abbrev DICT_RESTERR.DETAIL : Field := ⟨Reg.DICT_RESTERR, 0, 8⟩
/-- DICT_IRQ; spec/22_object_dictionary.md. -/
abbrev Reg.DICT_IRQ : Nat := 0x40019040
abbrev DICT_IRQ.STOREERR : Field := ⟨Reg.DICT_IRQ, 6, 1⟩
abbrev DICT_IRQ.REPLAY : Field := ⟨Reg.DICT_IRQ, 5, 1⟩
abbrev DICT_IRQ.REFUSE : Field := ⟨Reg.DICT_IRQ, 4, 1⟩
abbrev DICT_IRQ.RESTORE : Field := ⟨Reg.DICT_IRQ, 3, 1⟩
abbrev DICT_IRQ.APPCHK : Field := ⟨Reg.DICT_IRQ, 2, 1⟩
abbrev DICT_IRQ.APPWR : Field := ⟨Reg.DICT_IRQ, 1, 1⟩
abbrev DICT_IRQ.MQ : Field := ⟨Reg.DICT_IRQ, 0, 1⟩
/-- DICT_IRQEN; spec/22_object_dictionary.md. -/
abbrev Reg.DICT_IRQEN : Nat := 0x40019044
abbrev DICT_IRQEN.STOREERR : Field := ⟨Reg.DICT_IRQEN, 6, 1⟩
abbrev DICT_IRQEN.REPLAY : Field := ⟨Reg.DICT_IRQEN, 5, 1⟩
abbrev DICT_IRQEN.REFUSE : Field := ⟨Reg.DICT_IRQEN, 4, 1⟩
abbrev DICT_IRQEN.RESTORE : Field := ⟨Reg.DICT_IRQEN, 3, 1⟩
abbrev DICT_IRQEN.APPCHK : Field := ⟨Reg.DICT_IRQEN, 2, 1⟩
abbrev DICT_IRQEN.APPWR : Field := ⟨Reg.DICT_IRQEN, 1, 1⟩
abbrev DICT_IRQEN.MQ : Field := ⟨Reg.DICT_IRQEN, 0, 1⟩
/-- DICT_CNT; spec/22_object_dictionary.md. -/
abbrev Reg.DICT_CNT : Nat := 0x40019050
abbrev DICT_CNT.REFUSED : Field := ⟨Reg.DICT_CNT, 16, 16⟩
abbrev DICT_CNT.SKIPPED : Field := ⟨Reg.DICT_CNT, 8, 8⟩
abbrev DICT_CNT.DROPPED : Field := ⟨Reg.DICT_CNT, 0, 8⟩

/-! ### TWIL -/
/-- TWIL_CFG; spec/23_twill_pair.md. -/
abbrev Reg.TWIL_CFG : Nat := 0x40018000
abbrev TWIL_CFG.EN : Field := ⟨Reg.TWIL_CFG, 31, 1⟩
abbrev TWIL_CFG.TFOLLOW : Field := ⟨Reg.TWIL_CFG, 30, 1⟩
abbrev TWIL_CFG.TFORCE : Field := ⟨Reg.TWIL_CFG, 29, 1⟩
abbrev TWIL_CFG.FWD : Field := ⟨Reg.TWIL_CFG, 28, 1⟩
abbrev TWIL_CFG.VER : Field := ⟨Reg.TWIL_CFG, 16, 8⟩
abbrev TWIL_CFG.STARTWAIT : Field := ⟨Reg.TWIL_CFG, 8, 8⟩
abbrev TWIL_CFG.SKIP : Field := ⟨Reg.TWIL_CFG, 0, 6⟩
/-- TWIL_STAT; spec/23_twill_pair.md. -/
abbrev Reg.TWIL_STAT : Nat := 0x40018004
abbrev TWIL_STAT.STATE : Field := ⟨Reg.TWIL_STAT, 30, 2⟩
abbrev TWIL_STAT.LINK : Field := ⟨Reg.TWIL_STAT, 29, 1⟩
abbrev TWIL_STAT.INSYNC : Field := ⟨Reg.TWIL_STAT, 28, 1⟩
abbrev TWIL_STAT.SPLIT : Field := ⟨Reg.TWIL_STAT, 27, 1⟩
abbrev TWIL_STAT.PLIVE : Field := ⟨Reg.TWIL_STAT, 26, 1⟩
abbrev TWIL_STAT.ROLECONF : Field := ⟨Reg.TWIL_STAT, 25, 1⟩
abbrev TWIL_STAT.KEYMIS : Field := ⟨Reg.TWIL_STAT, 24, 1⟩
abbrev TWIL_STAT.VERLOW : Field := ⟨Reg.TWIL_STAT, 23, 1⟩
abbrev TWIL_STAT.INCOMPAT : Field := ⟨Reg.TWIL_STAT, 22, 1⟩
abbrev TWIL_STAT.PVER : Field := ⟨Reg.TWIL_STAT, 0, 8⟩
/-- TWIL_CMD; spec/23_twill_pair.md. -/
abbrev Reg.TWIL_CMD : Nat := 0x40018008
abbrev TWIL_CMD.YIELD : Field := ⟨Reg.TWIL_CMD, 31, 1⟩
abbrev TWIL_CMD.FORCE : Field := ⟨Reg.TWIL_CMD, 30, 1⟩
abbrev TWIL_CMD.RESYNC : Field := ⟨Reg.TWIL_CMD, 29, 1⟩
/-- TWIL_PAIRADDR_LO; spec/23_twill_pair.md. -/
abbrev Reg.TWIL_PAIRADDR_LO : Nat := 0x40018010
abbrev TWIL_PAIRADDR_LO.ADDR : Field := ⟨Reg.TWIL_PAIRADDR_LO, 0, 32⟩
/-- TWIL_PAIRADDR_HI; spec/23_twill_pair.md. -/
abbrev Reg.TWIL_PAIRADDR_HI : Nat := 0x40018014
abbrev TWIL_PAIRADDR_HI.ADDR : Field := ⟨Reg.TWIL_PAIRADDR_HI, 0, 32⟩
/-- TWIL_TOFS; spec/23_twill_pair.md. -/
abbrev Reg.TWIL_TOFS : Nat := 0x40018018
abbrev TWIL_TOFS.TOFS : Field := ⟨Reg.TWIL_TOFS, 0, 32⟩
/-- TWIL_DELAY; spec/23_twill_pair.md. -/
abbrev Reg.TWIL_DELAY : Nat := 0x4001801C
abbrev TWIL_DELAY.DVALID : Field := ⟨Reg.TWIL_DELAY, 31, 1⟩
abbrev TWIL_DELAY.DELAY : Field := ⟨Reg.TWIL_DELAY, 0, 16⟩
/-- TWIL_HOLD; spec/23_twill_pair.md. -/
abbrev Reg.TWIL_HOLD : Nat := 0x40018020
abbrev TWIL_HOLD.ADDR : Field := ⟨Reg.TWIL_HOLD, 15, 17⟩
abbrev TWIL_HOLD.EN : Field := ⟨Reg.TWIL_HOLD, 0, 1⟩
/-- TWIL_IRQ; spec/23_twill_pair.md. -/
abbrev Reg.TWIL_IRQ : Nat := 0x40018030
abbrev TWIL_IRQ.DUALACT : Field := ⟨Reg.TWIL_IRQ, 9, 1⟩
abbrev TWIL_IRQ.HOLDDROP : Field := ⟨Reg.TWIL_IRQ, 8, 1⟩
abbrev TWIL_IRQ.ROLECONF : Field := ⟨Reg.TWIL_IRQ, 7, 1⟩
abbrev TWIL_IRQ.KEYMIS : Field := ⟨Reg.TWIL_IRQ, 6, 1⟩
abbrev TWIL_IRQ.MIRREJ : Field := ⟨Reg.TWIL_IRQ, 5, 1⟩
abbrev TWIL_IRQ.INSYNC : Field := ⟨Reg.TWIL_IRQ, 4, 1⟩
abbrev TWIL_IRQ.TAKEOVER : Field := ⟨Reg.TWIL_IRQ, 3, 1⟩
abbrev TWIL_IRQ.SPLIT : Field := ⟨Reg.TWIL_IRQ, 2, 1⟩
abbrev TWIL_IRQ.LINK : Field := ⟨Reg.TWIL_IRQ, 1, 1⟩
abbrev TWIL_IRQ.STATE : Field := ⟨Reg.TWIL_IRQ, 0, 1⟩
/-- TWIL_IRQEN; spec/23_twill_pair.md. -/
abbrev Reg.TWIL_IRQEN : Nat := 0x40018034
abbrev TWIL_IRQEN.DUALACT : Field := ⟨Reg.TWIL_IRQEN, 9, 1⟩
abbrev TWIL_IRQEN.HOLDDROP : Field := ⟨Reg.TWIL_IRQEN, 8, 1⟩
abbrev TWIL_IRQEN.ROLECONF : Field := ⟨Reg.TWIL_IRQEN, 7, 1⟩
abbrev TWIL_IRQEN.KEYMIS : Field := ⟨Reg.TWIL_IRQEN, 6, 1⟩
abbrev TWIL_IRQEN.MIRREJ : Field := ⟨Reg.TWIL_IRQEN, 5, 1⟩
abbrev TWIL_IRQEN.INSYNC : Field := ⟨Reg.TWIL_IRQEN, 4, 1⟩
abbrev TWIL_IRQEN.TAKEOVER : Field := ⟨Reg.TWIL_IRQEN, 3, 1⟩
abbrev TWIL_IRQEN.SPLIT : Field := ⟨Reg.TWIL_IRQEN, 2, 1⟩
abbrev TWIL_IRQEN.LINK : Field := ⟨Reg.TWIL_IRQEN, 1, 1⟩
abbrev TWIL_IRQEN.STATE : Field := ⟨Reg.TWIL_IRQEN, 0, 1⟩
/-- TWIL_CNT0; spec/23_twill_pair.md. -/
abbrev Reg.TWIL_CNT0 : Nat := 0x40018040
abbrev TWIL_CNT0.ERR : Field := ⟨Reg.TWIL_CNT0, 16, 16⟩
abbrev TWIL_CNT0.RETX : Field := ⟨Reg.TWIL_CNT0, 0, 16⟩
/-- TWIL_CNT1; spec/23_twill_pair.md. -/
abbrev Reg.TWIL_CNT1 : Nat := 0x40018044
abbrev TWIL_CNT1.POSSDUP : Field := ⟨Reg.TWIL_CNT1, 24, 8⟩
abbrev TWIL_CNT1.HOLDDROP : Field := ⟨Reg.TWIL_CNT1, 16, 8⟩
abbrev TWIL_CNT1.FWD : Field := ⟨Reg.TWIL_CNT1, 0, 16⟩

/-! ### EVR -/
/-- EVR_CFG; spec/24_event_recorder.md. -/
abbrev Reg.EVR_CFG : Nat := 0x4000E000
abbrev EVR_CFG.EN : Field := ⟨Reg.EVR_CFG, 31, 1⟩
abbrev EVR_CFG.STOP : Field := ⟨Reg.EVR_CFG, 30, 1⟩
abbrev EVR_CFG.COALT : Field := ⟨Reg.EVR_CFG, 0, 8⟩
/-- EVR_STORE; spec/24_event_recorder.md. -/
abbrev Reg.EVR_STORE : Nat := 0x4000E004
abbrev EVR_STORE.EN : Field := ⟨Reg.EVR_STORE, 31, 1⟩
abbrev EVR_STORE.BANK : Field := ⟨Reg.EVR_STORE, 28, 1⟩
abbrev EVR_STORE.FIRST : Field := ⟨Reg.EVR_STORE, 16, 9⟩
abbrev EVR_STORE.NBLK : Field := ⟨Reg.EVR_STORE, 0, 7⟩
/-- EVR_STAT; spec/24_event_recorder.md. -/
abbrev Reg.EVR_STAT : Nat := 0x4000E008
abbrev EVR_STAT.READY : Field := ⟨Reg.EVR_STAT, 31, 1⟩
abbrev EVR_STAT.FULL : Field := ⟨Reg.EVR_STAT, 30, 1⟩
abbrev EVR_STAT.STAGED : Field := ⟨Reg.EVR_STAT, 29, 1⟩
abbrev EVR_STAT.VCOPY : Field := ⟨Reg.EVR_STAT, 28, 1⟩
abbrev EVR_STAT.QLEVEL : Field := ⟨Reg.EVR_STAT, 0, 5⟩
/-- EVR_SEQ; spec/24_event_recorder.md. -/
abbrev Reg.EVR_SEQ : Nat := 0x4000E00C
abbrev EVR_SEQ.NEWEST : Field := ⟨Reg.EVR_SEQ, 16, 16⟩
abbrev EVR_SEQ.OLDEST : Field := ⟨Reg.EVR_SEQ, 0, 16⟩
/-- EVR_POS; spec/24_event_recorder.md. -/
abbrev Reg.EVR_POS : Nat := 0x4000E010
abbrev EVR_POS.BLK : Field := ⟨Reg.EVR_POS, 16, 6⟩
abbrev EVR_POS.UNIT : Field := ⟨Reg.EVR_POS, 0, 7⟩
/-- EVR_OPSEC; spec/24_event_recorder.md. -/
abbrev Reg.EVR_OPSEC : Nat := 0x4000E014
abbrev EVR_OPSEC.OPSEC : Field := ⟨Reg.EVR_OPSEC, 0, 32⟩
/-- EVR_PCYC; spec/24_event_recorder.md. -/
abbrev Reg.EVR_PCYC : Nat := 0x4000E018
abbrev EVR_PCYC.PCYC : Field := ⟨Reg.EVR_PCYC, 0, 24⟩
/-- EVR_RPTARGk; spec/24_event_recorder.md. -/
abbrev Reg.EVR_RPTARG (n : Nat) : Nat := (0x4000E020 + 0x4 * n)
abbrev EVR_RPTARG.ARG (n : Nat) : Field := ⟨Reg.EVR_RPTARG n, 0, 32⟩
/-- EVR_RPT; spec/24_event_recorder.md. -/
abbrev Reg.EVR_RPT : Nat := 0x4000E030
abbrev EVR_RPT.VAR : Field := ⟨Reg.EVR_RPT, 31, 1⟩
abbrev EVR_RPT.CLASS : Field := ⟨Reg.EVR_RPT, 24, 4⟩
abbrev EVR_RPT.SOURCE : Field := ⟨Reg.EVR_RPT, 16, 4⟩
abbrev EVR_RPT.NARG : Field := ⟨Reg.EVR_RPT, 8, 3⟩
abbrev EVR_RPT.LEN : Field := ⟨Reg.EVR_RPT, 0, 8⟩
/-- EVR_VADDR; spec/24_event_recorder.md. -/
abbrev Reg.EVR_VADDR : Nat := 0x4000E034
abbrev EVR_VADDR.ADDR : Field := ⟨Reg.EVR_VADDR, 0, 32⟩
/-- EVR_RPTSTAT; spec/24_event_recorder.md. -/
abbrev Reg.EVR_RPTSTAT : Nat := 0x4000E038
abbrev EVR_RPTSTAT.RESULT : Field := ⟨Reg.EVR_RPTSTAT, 0, 2⟩
/-- EVR_DROPk; spec/24_event_recorder.md. -/
abbrev Reg.EVR_DROP (n : Nat) : Nat := (0x4000E040 + 0x4 * n)
abbrev EVR_DROP.S3 (n : Nat) : Field := ⟨Reg.EVR_DROP n, 24, 8⟩
abbrev EVR_DROP.S2 (n : Nat) : Field := ⟨Reg.EVR_DROP n, 16, 8⟩
abbrev EVR_DROP.S1 (n : Nat) : Field := ⟨Reg.EVR_DROP n, 8, 8⟩
abbrev EVR_DROP.S0 (n : Nat) : Field := ⟨Reg.EVR_DROP n, 0, 8⟩
/-- EVR_LOST; spec/24_event_recorder.md. -/
abbrev Reg.EVR_LOST : Nat := 0x4000E050
abbrev EVR_LOST.COUNT : Field := ⟨Reg.EVR_LOST, 0, 32⟩
/-- EVR_CMD; spec/24_event_recorder.md. -/
abbrev Reg.EVR_CMD : Nat := 0x4000E054
abbrev EVR_CMD.FLUSH : Field := ⟨Reg.EVR_CMD, 1, 1⟩
abbrev EVR_CMD.CLEAR : Field := ⟨Reg.EVR_CMD, 0, 1⟩
/-- EVR_IRQ; spec/24_event_recorder.md. -/
abbrev Reg.EVR_IRQ : Nat := 0x4000E060
abbrev EVR_IRQ.BADCFG : Field := ⟨Reg.EVR_IRQ, 5, 1⟩
abbrev EVR_IRQ.NVMERR : Field := ⟨Reg.EVR_IRQ, 4, 1⟩
abbrev EVR_IRQ.FULL : Field := ⟨Reg.EVR_IRQ, 3, 1⟩
abbrev EVR_IRQ.GAP : Field := ⟨Reg.EVR_IRQ, 2, 1⟩
abbrev EVR_IRQ.DROP : Field := ⟨Reg.EVR_IRQ, 1, 1⟩
abbrev EVR_IRQ.REC : Field := ⟨Reg.EVR_IRQ, 0, 1⟩
/-- EVR_IRQEN; spec/24_event_recorder.md. -/
abbrev Reg.EVR_IRQEN : Nat := 0x4000E064
abbrev EVR_IRQEN.BADCFG : Field := ⟨Reg.EVR_IRQEN, 5, 1⟩
abbrev EVR_IRQEN.NVMERR : Field := ⟨Reg.EVR_IRQEN, 4, 1⟩
abbrev EVR_IRQEN.FULL : Field := ⟨Reg.EVR_IRQEN, 3, 1⟩
abbrev EVR_IRQEN.GAP : Field := ⟨Reg.EVR_IRQEN, 2, 1⟩
abbrev EVR_IRQEN.DROP : Field := ⟨Reg.EVR_IRQEN, 1, 1⟩
abbrev EVR_IRQEN.REC : Field := ⟨Reg.EVR_IRQEN, 0, 1⟩
/-- EVR_CLSc; spec/24_event_recorder.md. -/
abbrev Reg.EVR_CLS (n : Nat) : Nat := (0x4000E100 + 0x20 * n)
abbrev EVR_CLS.EN (n : Nat) : Field := ⟨Reg.EVR_CLS n, 31, 1⟩
abbrev EVR_CLS.NOCOAL (n : Nat) : Field := ⟨Reg.EVR_CLS n, 30, 1⟩
/-- EVR_SNAPc_k; spec/24_event_recorder.md. -/
abbrev Reg.EVR_SNAP (c k : Nat) : Nat := (0x4000E104 + 0x20 * c + 4 * k)
abbrev EVR_SNAP.SELHI (c k : Nat) : Field := ⟨Reg.EVR_SNAP c k, 16, 16⟩
abbrev EVR_SNAP.SELLO (c k : Nat) : Field := ⟨Reg.EVR_SNAP c k, 0, 16⟩

/-! ### ID -/
/-- ID_EXTADDR_LO; spec/25_boot_and_update.md. -/
abbrev Reg.ID_EXTADDR_LO : Nat := 0x4001A000
abbrev ID_EXTADDR_LO.ADDR : Field := ⟨Reg.ID_EXTADDR_LO, 0, 32⟩
/-- ID_EXTADDR_HI; spec/25_boot_and_update.md. -/
abbrev Reg.ID_EXTADDR_HI : Nat := 0x4001A004
abbrev ID_EXTADDR_HI.ADDR : Field := ⟨Reg.ID_EXTADDR_HI, 0, 32⟩
/-- ID_SERIAL; spec/25_boot_and_update.md. -/
abbrev Reg.ID_SERIAL : Nat := 0x4001A008
abbrev ID_SERIAL.SERIAL : Field := ⟨Reg.ID_SERIAL, 0, 32⟩
/-- ID_VENDOR; spec/25_boot_and_update.md. -/
abbrev Reg.ID_VENDOR : Nat := 0x4001A00C
abbrev ID_VENDOR.VENDOR : Field := ⟨Reg.ID_VENDOR, 0, 32⟩
/-- ID_PRODUCT; spec/25_boot_and_update.md. -/
abbrev Reg.ID_PRODUCT : Nat := 0x4001A010
abbrev ID_PRODUCT.PRODUCT : Field := ⟨Reg.ID_PRODUCT, 0, 32⟩
/-- ID_DEVTYPE; spec/25_boot_and_update.md. -/
abbrev Reg.ID_DEVTYPE : Nat := 0x4001A014
abbrev ID_DEVTYPE.DEVTYPE : Field := ⟨Reg.ID_DEVTYPE, 0, 32⟩
/-- ID_REV; spec/25_boot_and_update.md. -/
abbrev Reg.ID_REV : Nat := 0x4001A018
abbrev ID_REV.MAJOR : Field := ⟨Reg.ID_REV, 8, 8⟩
abbrev ID_REV.MINOR : Field := ⟨Reg.ID_REV, 0, 8⟩
/-- ID_BOOTSTAT; spec/25_boot_and_update.md. -/
abbrev Reg.ID_BOOTSTAT : Nat := 0x4001A100
abbrev ID_BOOTSTAT.TRIALEXP : Field := ⟨Reg.ID_BOOTSTAT, 31, 1⟩
abbrev ID_BOOTSTAT.FELLBACK : Field := ⟨Reg.ID_BOOTSTAT, 30, 1⟩
abbrev ID_BOOTSTAT.TRIAL : Field := ⟨Reg.ID_BOOTSTAT, 29, 1⟩
abbrev ID_BOOTSTAT.SLOT : Field := ⟨Reg.ID_BOOTSTAT, 24, 1⟩
abbrev ID_BOOTSTAT.MARKS : Field := ⟨Reg.ID_BOOTSTAT, 16, 2⟩
/-- ID_TRIAL; spec/25_boot_and_update.md. -/
abbrev Reg.ID_TRIAL : Nat := 0x4001A104
abbrev ID_TRIAL.RUN : Field := ⟨Reg.ID_TRIAL, 31, 1⟩
abbrev ID_TRIAL.STOP : Field := ⟨Reg.ID_TRIAL, 30, 1⟩
abbrev ID_TRIAL.REMAIN : Field := ⟨Reg.ID_TRIAL, 0, 8⟩
/-- ID_UPD; spec/25_boot_and_update.md. -/
abbrev Reg.ID_UPD : Nat := 0x4001A108
abbrev ID_UPD.PEND : Field := ⟨Reg.ID_UPD, 31, 1⟩
abbrev ID_UPD.STATUS : Field := ⟨Reg.ID_UPD, 16, 8⟩
abbrev ID_UPD.REQ : Field := ⟨Reg.ID_UPD, 0, 8⟩

end Sys2Proof.Machine
end

