-- ==== Sys2Proof/Config.lean ====
section
/-! DEFINITION. Config.lean: what the spec leaves open. Each constant has no body: nothing can be proved about its value,
so a statement holds whatever it is (log entry 2). The step applies them to `State.free`, a plain counter that each use
advances, or to the operands the open value depends on. -/
namespace Sys2Proof

/-- A value the spec leaves undefined or random, the `n`-th one of a run. -/
opaque Config.freeNat : Nat → Nat

/-- A 32-bit value the spec leaves undefined, the `n`-th one of a run. -/
opaque Config.freeWord : Nat → BitVec 32

/-- A general register the spec leaves undefined at a job's start (R148): the `n`-th draw, a register number. -/
opaque Config.freeReg : Nat → Nat → BitVec 32

/-- A byte of a memory whose contents the spec calls undefined: the `n`-th loss of contents, at an address. -/
opaque Config.freeByte : Nat → Nat → BitVec 8

/-- The corrected code that the ADC pair delivers, I and Q (R177): what the antenna gives is the environment's. Arguments: the
boundary count that starts the tick, the ADC sample, the analog gain code in force. -/
opaque Config.adcSample : Nat → Nat → Nat → BitVec 10 × BitVec 10

/-- The filter bank's output of a bin from the window's 1,024 words, newest first (R189): the spec gives no coefficients. -/
opaque Config.filterBank : Nat → List (Int × Int) → Int × Int

/-- A complex value after the NCO at a phase in 2^−16 turns (R194): the spec gives no sign of rotation and no precision. -/
opaque Config.ncoMix : Nat → Int × Int → Int × Int

/-- Whether a tie of the rounding of a lane sample goes up (R195). -/
opaque Config.tieUp : Int → Bool

/-- Whether the power mean or sum of levels is rounded up to the next 0.25 dB unit (R202, R203, R270): the spec gives no
rounding. -/
opaque Config.roundUp : List Int → Bool

/-- The level of a pad that nothing drives and whose pull is off (R66). -/
opaque Config.floatingPad : Nat → Bool

/-- The PA code that a power table gives for a drive with its corrections in 0.0005 dB (R243): the number of the table, 0 the
factory's; the spec gives no table. -/
opaque Config.paTable : Nat → Int → Nat

/-- A byte of the boot ROM (R36), whose contents are the vendor's. -/
opaque Config.romByte : Nat → BitVec 8

/-- The version of the boot ROM (R527), in the VERSION encoding, which the spec does not give. -/
opaque Config.romVersion : BitVec 32

/-- The hash index of the table has no room for a key beside the keys present (R319): the spec gives neither its size nor
its hash. Arguments: keys of the entries present, the new entry's bytes. -/
opaque Config.hashFull : List (List (BitVec 8)) → List (BitVec 8) → Bool

/-- The duration in counts of the SHR of an O-QPSK mode (R260: as the standard gives). -/
opaque Config.oqpskShr : Nat → Nat

/-- The duration in counts of PHR and PSDU of an O-QPSK frame of a mode: mode, rate mode, PSDU octets (R211: each chip rate has
its own table of rate modes, as the standard gives). -/
opaque Config.oqpskFrame : Nat → Nat → Nat → Nat

/-- The rate mode at which frames of an O-QPSK mode are sent: the spec names none. -/
opaque Config.oqpskTxRate : Nat → Nat

/-- The job class of the MAC assistance job (R277 step 9), which the spec does not name; none when there is no such class. -/
opaque Config.assistClass : Option Nat

end Sys2Proof
end

