-- ==== Sys2Proof/Machine/Sparse.lean ====
section
/-! DEFINITION. Machine/Sparse.lean: a map from addresses to words as a list of pairs over a default. The list is in
canonical form when its addresses rise strictly and it lists no value equal to the default; every operation keeps it. -/
namespace Sys2Proof.Machine

/-- Pairs of an address and a value. -/
abbrev Sparse (w : Nat) := List (Nat × BitVec w)

/-- The value at an address: the listed one, else the default. -/
def Sparse.get {w : Nat} (dflt : Nat → BitVec w) : Sparse w → Nat → BitVec w
  | [], a => dflt a
  | (k, v) :: m, a => if k = a then v else Sparse.get dflt m a

/-- The map without its entries at an address. -/
def Sparse.erase {w : Nat} : Sparse w → Nat → Sparse w
  | [], _ => []
  | (k, v) :: m, a => if k = a then Sparse.erase m a else (k, v) :: Sparse.erase m a

/-- The map with a value listed at an address, in its place. -/
def Sparse.insert {w : Nat} : Sparse w → Nat → BitVec w → Sparse w
  | [], a, x => [(a, x)]
  | (k, v) :: m, a, x =>
    if a < k then (a, x) :: (k, v) :: m
    else if a = k then (a, x) :: Sparse.erase m a
    else (k, v) :: Sparse.insert m a x

/-- The map with the value `x` at `a`: listed, or, if it is the default, not listed. -/
def Sparse.set {w : Nat} (dflt : Nat → BitVec w) (m : Sparse w) (a : Nat) (x : BitVec w) : Sparse w :=
  if x = dflt a then Sparse.erase m a else Sparse.insert m a x

/-- The map with every address satisfying `p` back at its default. -/
def Sparse.clear {w : Nat} (m : Sparse w) (p : Nat → Bool) : Sparse w := m.filter (fun e => !p e.1)

/-- Canonical form: addresses strictly rising, none listed with its default. -/
def Sparse.wf {w : Nat} (dflt : Nat → BitVec w) : Sparse w → Bool
  | [] => true
  | (k, v) :: m => decide (v ≠ dflt k) && m.all (fun e => decide (k < e.1)) && Sparse.wf dflt m

end Sys2Proof.Machine
end

