-- ==== Sys2Proof/Machine/State.lean ====
section
/-! DEFINITION. Machine/State.lean: the state of the part, plain data. Registers of the register tables stand in `regs`
by address (Regs.lean); what the rules name beside them stands in one structure a block. Each field's docstring names
the rule it comes from. -/
namespace Sys2Proof.Machine

/-- Why a step stops with a fault. -/
inductive Fault where
  /-- R63: TEST high at reset release puts the part in a factory test mode in which no function of the spec is
  specified. Raised by INTERNAL_RESET_RELEASE with TEST high. Safe: the model stops where the spec says nothing. -/
  | factoryTest
  deriving DecidableEq, Repr

/-- Why a step is refused. -/
inductive Refusal where
  /-- An arm of `exec` that has no meaning yet. Safe: the model stops. -/
  | notModelled (mnemonic : String)
  deriving DecidableEq, Repr

/-! ## Memories, bus (chapter 02) -/

/-- How often each memory has lost its contents (R83, R94, R107): an unlisted byte of a memory that has lost them reads
as a free value of that loss. Model's own field (log entry 3). -/
structure Losses where
  sram : Nat := 0
  retention : Nat := 0
  radio : Nat := 0
  table : Nat := 0
  deriving DecidableEq, Repr

/-- The memories of the address map (R36), one sparse list of bytes; the boot ROM's contents are not given. -/
structure Memory where
  cells : List Host.Cell := []
  lost : Losses := {}
  deriving DecidableEq, Repr

/-- Hold registers of the bus (R46, R47), keyed by 32 × master + block; an absent one is 0. -/
structure BusSt where
  readHold : Sparse 32 := []
  writeHold : Sparse 32 := []
  deriving DecidableEq, Repr

/-! ## Tick and commits (chapter 01) -/

/-- A commit captured by a block: the live registers it will give, and when GO was written (R26 to R28). -/
structure PendingSet where
  live : List (Nat × Word)
  goAt : Nat
  passed : Bool
  deriving DecidableEq, Repr

/-- The tick generator and the commits. -/
structure TickSt where
  /-- Boundaries since reset, counting every one (the model's own numbering of deadlines, R151). -/
  bnd : Nat := 0
  /-- The time-base count at the last boundary. -/
  startAt : Nat := 0
  /-- The length of the tick in progress in 2^−16 counts, as the generator steers the system PLL (R16): nominally 250,000 counts. -/
  len : Nat := 16384000000
  /-- R17: the realigned tick is running; the next boundary is B1. -/
  realigned : Bool := false
  /-- The half of the lane buffer that the Loom writes (chapter 01, step 1). -/
  half : Bool := false
  /-- The dictionary snapshot generation (chapter 01 step 1, R31). -/
  snapGen : Nat := 0
  /-- Own commits that are pending, per block (R26). -/
  loom : Option PendingSet := none
  shtl : Option PendingSet := none
  mac : Option PendingSet := none
  time : Option PendingSet := none
  ring : Option PendingSet := none
  /-- The pending group (R30): its mask as captured at GO and the count at GO. -/
  group : Option (BitVec 5 × Nat × Bool) := none
  deriving DecidableEq, Repr

/-! ## Pins (chapter 03) -/

/-- Pins that are no register. -/
structure PinSt where
  /-- Levels outside on GP0 to GP23, and the pads that something outside drives (R66); an open pad follows its pull. -/
  pads : BitVec 24 := 0
  ext : BitVec 24 := 0
  /-- The part is live: it pulls TW_LIVE low outside its window (R60, R485). -/
  twLive : Bool := false
  /-- The last sample of TW_LIVE in the part's own window was low: the partner is live (R60). -/
  partnerLive : Bool := false
  /-- The bypass switches of the ring are closed (R68). -/
  bypass : Bool := true
  /-- Pads of bank 1 and of bank 2 are fail-safe, their supply absent (R57, R74). -/
  io1Off : Bool := false
  io2Off : Bool := false
  /-- PA_EN, TRSW to transmit, LNA_EN, COEX_REQ, COEX_PRI, PPS_OUT, TT0 to TT3 and TUNE pins. -/
  paEn : Bool := false
  trswTx : Bool := false
  lnaEn : Bool := false
  coexReq : Bool := false
  coexPri : Bool := false
  coexGnt : Bool := false
  ppsOut : Bool := false
  tt : BitVec 4 := 0
  tune : BitVec 4 := 0
  /-- The level in mV that PA_RAMP makes for, 0 while the PA is not ramped up (R244). -/
  paRamp : Nat := 0
  /-- The level of HS_IRQ that its pad holds in deep sleep (R56). -/
  hsIrqHeld : Bool := true
  deriving DecidableEq, Repr

/-! ## Reset, clocks, power (chapters 04, 05) -/

/-- The low-power states that an entry may aim at. -/
inductive LowState where
  | sleep | deepSleep | off
  deriving DecidableEq, Repr

/-- The state machine of chapter 05, and reset. -/
inductive PState where
  | run | idle
  | draining (t : LowState)
  | saving (t : LowState)
  | sleep | deepSleep | off
  | waking (t : LowState)
  | reset
  deriving DecidableEq, Repr

/-- Supplies, reset, clocks and power states. -/
structure PowerSt where
  st : PState := .run
  /-- Reset causes asserted now that hold the reset (R83): VBAT below a threshold, RESET_N low. -/
  vbatLow : Bool := false
  pinLow : Bool := false
  /-- R81: the XO has not started or has stopped: the PLLs do not run until a reset. -/
  xoDead : Bool := false
  /-- Fraction of the low-power clock's accumulator, in 2^−17 counts (R103). -/
  lpFrac : Nat := 0
  /-- Core cycles in 1/250 of 2^−16 cycle, advanced by the core clock with each count (CYCLE, R16, R119). -/
  cycAcc : Nat := 0
  /-- Held writes of 1 to PDCTL while PLLRUN = 0 (R94). -/
  heldPd : BitVec 3 := 0
  /-- Levels of the GPIO pins sampled at the end of entry (R101). -/
  gpSample : BitVec 24 := 0
  /-- A wake source arrived during entry (R97). -/
  entryWake : BitVec 10 := 0
  /-- The wake in progress was given by the Zephyr (R106). -/
  zephWake : Bool := false
  /-- The time-base count at the watchdog's start or last feed, from which its count runs (R87). -/
  wdtFrom : Nat := 0
  /-- R91: the next enable of RADIO runs the full calibration. -/
  calFull : Bool := true
  /-- A calibration sequence runs since the enable (R91, R92); none when done. -/
  calRun : Bool := false
  /-- That sequence belongs to a deep-sleep wake: lanes search from its end, not from the next boundary (R106). -/
  calDeep : Bool := false
  /-- The Loom waits for the next boundary to start (R91, R92). -/
  loomStart : Bool := false
  /-- Debug is locked: DEBUGLOCK of OTP as found at the last reset release (R54, R65). -/
  debugLocked : Bool := false
  /-- Boundaries left before a remote reset asserts (R85). -/
  remoteIn : Option Nat := none
  /-- The RADIO part of the saved register set in the always-on store: registers and their values (R94, R108), empty when
  nothing has been saved or an alarm has zeroed it. The parts of CORE that deep sleep saves stay where they are. -/
  saved : List (Nat × Word) := []
  /-- An alarm has zeroed the store since deep sleep was entered (R310). -/
  storeGone : Bool := false
  /-- Ticks are stopped (R104): the next boundary starts the tick generator. -/
  ticksOff : Bool := false
  /-- A power-on reset is asserted (R83); the RTC section has lost its supplies too (R84). -/
  por : Bool := false
  rtcOff : Bool := false
  /-- R94: RADIO is switched off once the transmission in progress has ended. -/
  radioOffDue : Bool := false
  deriving DecidableEq, Repr

/-! ## Boot (chapter 25) -/

/-- The boot ROM. -/
structure BootSt where
  /-- The ROM has still to act on a reset (R523). -/
  due : Bool := true
  /-- The count at reset release (R531). -/
  relAt : Nat := 10000
  /-- The count at which ID_TRIAL was armed (R525). -/
  trialAt : Nat := 0
  /-- Recovery mode runs (R530): the port that owns it (true: the ring) after its first RERASE or RWRITE. -/
  recovery : Bool := false
  owner : Option Bool := none
  deriving DecidableEq, Repr

/-! ## The control core (chapter 06) -/

/-- The opcodes of R120 and R140, one name a row of the table. -/
inductive Op where
  | add | sub | and | or | xor | shl | shr | sar | min | max | minu | maxu
  | cmpeq | cmpne | cmplt | cmpltu | cmple | cmpleu | sel | clz | sextb | sexth | zexth
  | addi | andi | ori | xori | shli | shri | sari | cmpeqi | cmpnei | cmplti | cmpltui | cmplei | cmpleui
  | bz | bnz | j | call | jr | callr | eret | sys | brk
  | mul | mulh | mulhu | mac | mac16 | div | divu | rem | remu
  | cmul | cmac | cadd | csub | cmag2 | corr | acs | lms
  | ldb | ldbu | ldh | ldhu | ldw | ldp | ldwpi | stb | sth | stw | stp | stwpi | dinv | fence
  | mfsr | mtsr | iinv | iex | repi | repir | repn | k
  /-- An opcode that R120 and R140 do not list. -/
  | undef
  deriving DecidableEq, Repr

/-- A syllable with the fields of its format (R112): `imm` holds imm14, off19, off24, K or the repeat field. -/
structure Syl where
  op : Op
  rd : BitVec 5 := 0
  rs1 : BitVec 5 := 0
  rs2 : BitVec 5 := 0
  fn : BitVec 9 := 0
  imm : BitVec 24 := 0
  deriving DecidableEq, Repr

/-- A repeat in progress (R126 to R129). With RPT = 0 its body is skipped: a count of 0, or a return from an entry after the
last iteration. -/
structure Rep where
  /-- REPN, else REPI or REPIR (ESTATUS.INREP). -/
  noInt : Bool
  /-- The prefix has run and its first iteration has not begun (R127): its address and RPT before it, for R126's ILLEGAL. -/
  before : Option (Word × Word)
  deriving DecidableEq, Repr

/-- What the control core and a Weft engine both have: registers, pc, the repeat and the open bundle. -/
structure Cpu where
  /-- g0 to g31; g0 stays 0 (R116). -/
  g : Vector Word 32 := Vector.replicate 32 0
  pc : Word := 0
  /-- RPT (special register 0x010). -/
  rpt : Word := 0
  rep : Option Rep := none
  /-- The latched CYCLE_HI (R119). -/
  cycHold : Word := 0
  /-- Syllables of the bundle that has not yet met its stop bit (R111). -/
  open_ : List Syl := []
  deriving DecidableEq, Repr

/-- The control core. -/
structure CoreSt where
  cpu : Cpu := {}
  status : Word := 0
  estatus : Word := 0
  epc : Word := 0
  ecause : Word := 0
  eaddr : Word := 0
  vbase : Word := 0
  scratch0 : Word := 0
  scratch1 : Word := 0
  depc : Word := 0
  dcause : Word := 0
  iline : Word := 0
  mpuRb : Vector Word 16 := Vector.replicate 16 0
  mpuRl : Vector Word 16 := Vector.replicate 16 0
  mpuCtrl : Word := 6
  /-- R134: halted until a reset. -/
  halted : Bool := false
  /-- R134: inside the double-fault vector's code, before it clears EXL. -/
  inDouble : Bool := false
  /-- R134: an imprecise write fault is pending. -/
  storeBus : Bool := false
  /-- D-cache lines: line address and 32 bytes (R124). -/
  dcache : List (Nat × List Byte) := []
  /-- Line addresses in the I-cache (R124). -/
  icache : List Nat := []
  /-- R126: a repeat that an entry left before its first iteration: the prefix's address and RPT before it. -/
  repBefore : Option (Word × Word) := none
  /-- Software lines 56 to 63 (R137). -/
  swLines : BitVec 8 := 0
  deriving DecidableEq, Repr

/-! ## Weft engines and the Shuttle (chapter 07) -/

/-- Who posted a job (R153, R162). -/
inductive Poster where
  | shuttle | mac | loom | firmware
  deriving DecidableEq, Repr

/-- A job: its words (R148), the class parameters it was posted with (R29, R162) and when it was made. -/
structure Job where
  w0 : Word
  w1 : Word
  w2 : Word
  w3 : Word
  /-- Live PRIO, ENTRY and BUDGET of the class at the post. -/
  prio : Nat
  entry : Nat
  budget : Nat
  poster : Poster
  /-- The boundary at which a TAUT or SLACK job ends OVERRUN (R151, R160); none for LOOSE. -/
  endBnd : Option Nat
  /-- The boundary count at the post (LOOSE waiting, SHTL_LOOSE). -/
  postBnd : Nat
  deriving DecidableEq, Repr

/-- A Weft DMA command (R145). -/
inductive DmaKind where
  | laneIn | ctxIn | ctxOut | sramIn | sramOut | macOut
  deriving DecidableEq, Repr

structure DmaCmd where
  kind : DmaKind
  len : Nat
  loc : Nat
  remote : Word
  deriving DecidableEq, Repr

/-- The states of an engine (chapter 07). -/
inductive EngSt where
  | parked | idle | running | faulted
  deriving DecidableEq, Repr

/-- One Weft engine. -/
structure Engine where
  st : EngSt := .idle
  cpu : Cpu := {}
  /-- R141: the lines in the instruction buffer, the newest first. -/
  ibuf : List Nat := []
  dec : Word := 0
  dma : List DmaCmd := []
  /-- WIO_DMASTAT.BLANK. -/
  blank : Bool := false
  job : Option Job := none
  /-- The time-base count at the job's first bundle (WIO_JOBCYC). -/
  startAt : Nat := 0
  /-- The BUDGET overrun of this job has been counted (R153). -/
  overBudget : Bool := false
  /-- NEXT of WIO_GAIN as known at the job's start (R208). -/
  gainNext : Nat := 0
  /-- WIO_END has been written with this status and waits for the DMA (R149). -/
  ending : Option (BitVec 8) := none
  /-- Word A of a WIO_DMA pair (R145). -/
  dmaA : Word := 0
  /-- A running job on an engine taken out of service (R164). -/
  parking : Bool := false
  deque : List Job := []
  lastClass : Nat := 0
  flt : Bool := false
  fltCause : Nat := 0
  fltClass : Nat := 0
  fltPc : Nat := 0
  deriving DecidableEq, Repr

/-- The Shuttle. -/
structure ShtlSt where
  eng : Vector Engine 32 := Vector.replicate 32 {}
  slack : List Job := []
  loose : List Job := []
  /-- SHTL_POSTSTAT of each master (R162), keyed by master. -/
  postStat : Sparse 32 := []
  /-- Engine time spent running jobs in the tick in progress, in time-base counts (SHTL_LOAD.BUSY). -/
  busy : Nat := 0
  /-- The Weft cycle of the last dispatch and the lengths of the deques at its start (R158). -/
  scanAt : Nat := 0
  scanLen : List Nat := []
  /-- The longest LOOSE wait since reset, in ticks (0x2600:05). -/
  waitMax : Nat := 0
  deriving DecidableEq, Repr

/-! ## Receive front end (chapter 08) -/

/-- The front end. -/
structure RfrxSt where
  /-- The count of the last write of CENTRE while a retune is pending (R171). -/
  retuneAt : Nat := 0
  /-- Requested calibration steps that wait (R179), with their FORCE, the count of the first request, ticks waited. -/
  calWait : BitVec 4 := 0
  calForce : Bool := false
  calReqAt : Nat := 0
  calWaited : Nat := 0
  /-- Steps of the running calibration not yet completed (R178). -/
  calRun : BitVec 4 := 0
  /-- The count at which the running set's first step began or began again (R181, R239). -/
  calAt : Nat := 0
  /-- The trim in force (R184); TRIM's register holds the value written until the next boundary. -/
  trimLive : Int := 0
  /-- Frames of the slot in progress for the trim loop: e and SNR (R183). -/
  frames : List (Int × Nat) := []
  /-- TEMPREQ has been set since TCAL last changed (R182). -/
  tempDone : Bool := false
  deriving DecidableEq, Repr

/-! ## The Loom (chapter 09) -/

/-- A setting of a lane from a lane sample on, counted 400 a boundary: NCO, DG and the NCO's phase there in 2^−16 turns. -/
structure LaneSet where
  at_ : Nat
  nco : Int
  dg : Nat
  phase : Nat
  deriving DecidableEq, Repr

/-- One lane: its NCO, digital gain and the packet in progress on the channel whose lowest lane it is (R194, R195, R197). A
bonded channel's members run at the NCO and DG of its lowest lane. -/
structure LaneSt where
  nco : Int := 0
  dg : Nat := 0
  /-- Its settings of late, newest first, as far back as the lane buffer holds samples (R204). -/
  path : List LaneSet := []
  /-- Consecutive evaluations that have reached DETTHR, and the lane sample of the last evaluation (R196). -/
  hits : Nat := 0
  evalAt : Option Nat := none
  /-- The lane sample at which its first detection window may start (R201). -/
  from_ : Nat := 0
  /-- DG is frozen by an SFD match (R195). -/
  dgFrozen : Bool := false
  pkt : Option Nat := none
  /-- Lowest NOW of the slot in progress (LOOM_NRGn.FLOOR). -/
  slotMin : Int := -32768
  /-- Unblanked blocks of the tick in progress, newest first, and whether one was blanked (R203). -/
  blocks : List Int := []
  blankedBlock : Bool := false
  /-- Energies of past unblanked blocks, newest first, as far as the listening time of R254 can reach. -/
  hist : List Int := []
  deriving DecidableEq, Repr

/-- The states of a packet (R215). -/
inductive PktSt where
  | sync | header | payload
  deriving DecidableEq, Repr

/-- A packet that has not ended (R198, R215). -/
structure Packet where
  num : Nat
  lane : Nat
  bond : Nat
  mset : Nat
  st : PktSt := .sync
  metric : Nat
  level : Int
  /-- FIRST of its first chunk, none once that chunk has been made (R198). -/
  first : Option Nat
  /-- Samples per lane after those of the last chunk made, as WIO_REMAIN gave (R150). -/
  remain : Option Nat := none
  /-- Its tail job has been made (R150). -/
  tailMade : Bool := false
  /-- The intake has accepted a MAC_OUT of it (test 6 of R224), and has decided its status (R221, R222). -/
  macOut : Bool := false
  accepted : Bool := false
  /-- The lane sample, counted 400 a boundary, at which its detection completed, and past its last one (R197 to R199). -/
  detAt : Nat := 0
  endAt : Option Nat := none
  /-- No SFD was found within SFDWIN (R199). -/
  sfdOver : Bool := false
  /-- The count of the SFD end at the antenna (R199). -/
  sfdAt : Option Nat := none
  /-- TRIM in force at the detection (R184). -/
  trim : Int
  deriving DecidableEq, Repr

/-- An announced gain step (R205): up or down, the code after it, the boundary that starts its tick, its lane sample. -/
structure Announce where
  up : Bool
  code : Nat
  atBnd : Nat
  pos : Nat
  deriving DecidableEq, Repr

/-- One gain event of a tick (R208). -/
structure GainEvent where
  kind : Nat
  code : Nat
  phase : Nat
  sample : Nat
  deriving DecidableEq, Repr

/-- The gain notice of a tick (R208). -/
structure GainNotice where
  tick : Word := 0
  carry : Nat := 0
  code0 : Nat := 8
  events : List GainEvent := []
  /-- Every change of the code in the tick: its ADC sample and the new code; and the same of the tick before, after the code
  that tick began with (R188). -/
  codes : List (Nat × Nat) := []
  before : Nat × List (Nat × Nat) := (8, [])
  deriving DecidableEq, Repr

/-- What a half of the lane buffer was last filled with (R204): the boundary count and the index of the tick, its masks and
notice. -/
structure BufTick where
  bnd : Nat
  tick : Word
  blank : BitVec 400
  clip : BitVec 400
  notice : GainNotice
  deriving DecidableEq, Repr

/-- The Loom. -/
structure LoomSt where
  /-- The last whole tick written to half 0 and to half 1; none since RADIO was switched on. -/
  half0 : Option BufTick := none
  half1 : Option BufTick := none
  lanes : Vector LaneSt 96 := Vector.replicate 96 {}
  packets : List Packet := []
  /-- The Loom runs on a lane plan (step 7 of R91, R92, R106). -/
  running : Bool := false
  announce : Option Announce := none
  /-- The tick in progress held a step, a pending announcement or blanked samples (R205). -/
  unusable : Bool := false
  /-- A clip report waits for its step (R206): ADC sample of the step. -/
  clipStep : Option Nat := none
  /-- The ADC sample, counted 25,600 a boundary, at which the clip detector's next window starts; none while it searches over
  any 64 samples (R174). -/
  clipWin : Option Nat := none
  /-- The last run of clip marks, by lane samples counted 400 a boundary (R207). -/
  clipRun : Option (Nat × Nat) := none
  /-- One past the last lane sample, so counted, that no detection window may hold: blanked, or of a realigned tick (R17, R196). -/
  deadTo : Nat := 0
  noticeNow : GainNotice := {}
  noticePrev : GainNotice := {}
  /-- Clip mask and blank mask of the tick in progress and of the one before (R204, R207). -/
  clipMask : BitVec 400 := 0
  blankMask : BitVec 400 := 0
  clipPrev : BitVec 400 := 0
  blankPrev : BitVec 400 := 0
  /-- Lane samples at the start of the next tick that the last clip run still marks (R207). -/
  clipSpill : Nat := 0
  /-- The lane sample of the tick in progress from which samples have been blanked. -/
  blankFrom : Option Nat := none
  /-- Why lanes are blanked (R23, R171, R178, R185): transmission, calibration, and until which count a retune. -/
  blankTx : Bool := false
  blankCal : Bool := false
  blankUntil : Nat := 0
  deriving DecidableEq, Repr

/-! ## Receive intake (chapter 10) -/

/-- A frame that the intake hands to the MAC (R223, R224, R277). -/
structure RxFrame where
  pkt : Nat
  lane : Nat
  mset : Nat
  mode : Nat
  flags : Nat
  rssi : Int
  snr : Nat
  lqi : Nat
  /-- e of the frame (R226), none for a frame that passes none, and the TRIM live at its detection (R184). -/
  e : Option Int
  trim : Int := 0
  rxTime : Nat
  rate : Nat
  status : Nat
  psdu : List Byte
  /-- The descriptor as the intake leaves it (R223), for R490. -/
  desc : List Byte := []
  deriving DecidableEq, Repr

/-- The intake. -/
structure DemodSt where
  /-- Frames that wait for the MAC's processing, oldest first. -/
  done : List RxFrame := []
  /-- The open mode-switch window: the announced mode and the record's SFDTIME (R230). -/
  msw : Option (Nat × Nat) := none
  deriving DecidableEq, Repr

/-! ## Transmit chain (chapter 11) -/

/-- Who handed a request to the chain and gets its status (R233, R257): a transmit descriptor by its ring index, a beacon,
an acknowledgement, or a TX_REQUEST command of its own. -/
inductive TxOwner where
  | outside | desc (i : Nat) | beacon (i : Option Nat) | ack
  deriving DecidableEq, Repr

/-- Where a taken request stands (R238 to R244). -/
inductive TxPhase where
  | waiting | preparing | locked | grant | lead | paOn | ramp | down | downEnd | paOff
  deriving DecidableEq, Repr

/-- The request the chain has taken. -/
structure TxJob where
  req : TxReq
  owner : TxOwner
  phase : TxPhase := .waiting
  /-- The time R238 gives for preparation has come. -/
  prepDue : Bool := false
  /-- Carrier less centre, in synthesiser steps (R235). -/
  steps : Int
  /-- The band of the regulatory record that governs it (R251). -/
  band : Nat
  /-- P, the drive after its clamp, both in 0.5 dB units, and the PA code, fixed at sequencer start (R242, R243). -/
  p : Int := 0
  drive : Int := 0
  code : Nat := 0
  /-- The tuner entry in use, none for the default codes, and the codes (R247). -/
  entry : Option Nat := none
  ser : Nat := 16
  shu : Nat := 16
  /-- Network time of the first symbol. -/
  first : Nat := 0
  /-- The count at the start of the ramp up, and how many bucket boundaries have passed since (R252). -/
  rampAt : Option Nat := none
  age : Nat := 0
  /-- The grant was withdrawn with ABORT = 1 (R256). -/
  aborted : Bool := false
  deriving DecidableEq, Repr

/-- A tuner search on an entry (R249): the codes it began with and their return loss, the candidates still to be tried,
and those measured. -/
structure TunerSearch where
  entry : Nat
  orig : Nat × Nat
  origRl : Nat
  todo : List (Nat × Nat)
  tried : List ((Nat × Nat) × Nat) := []
  deriving DecidableEq, Repr

/-- The chain. -/
structure TxSt where
  job : Option TxJob := none
  /-- Requests that the MAC has handed over and the chain has not taken, oldest first (R233). -/
  queue : List (TxOwner × TxReq) := []
  /-- Requests that have ended and whose status the MAC has still to take. -/
  done : List (TxOwner × Nat) := []
  /-- Held writes, oldest first (R246). -/
  held : List (Nat × Word) := []
  /-- Requested calibrations (bit 0 VCO, bit 1 CHECK), and the one that runs (true: CHECK) (R239, R240). -/
  calReq : BitVec 2 := 0
  cal : Option Bool := none
  /-- The shadow of the regulatory record, 348 bytes (R250). -/
  record : List Byte := []
  /-- Duty buckets of each band, newest first, in µs; buckets beyond the list are 0 (R252). -/
  duty : Vector (List Nat) 4 := Vector.replicate 4 []
  search : List TunerSearch := []
  /-- The number of the PA power table in force: 0 the factory's, another after each refresh by a TX check (R241, R243). -/
  table : Nat := 0
  deriving DecidableEq, Repr

/-- The factory Gaussian of BT 0.5 as words of two taps; the taps sum to 32,768 (R237; log entry 5). -/
def firFactory : List Nat := [0, 0, 0, 0x00020000, 0x0038000C, 0x028800D5, 0x0C05062A, 0x176D12C1,
  0x12C1176D, 0x062A0C05, 0x00D50288, 0x000C0038, 0x00000002, 0, 0, 0]

/-! ## MAC and Zephyr (chapter 12) -/

/-- CSMA of a descriptor (R270). -/
structure Csma where
  idx : Nat
  /-- The link of the SHARED occurrence, none for IMMEDIATE, and the count at which its span ends. -/
  link : Option Nat
  spanEnd : Option Int
  /-- The lane of its channel. -/
  lane : Nat
  /-- The count of boundary 0. -/
  base : Int
  nb : Nat := 0
  be : Nat
  k : Nat := 0
  /-- Deferral has begun (R271), and its longest time has passed. -/
  deferred : Bool := false
  deferDone : Bool := false
  deriving DecidableEq, Repr

/-- A transmit descriptor the MAC has taken and not ended (R267), by its ring index. -/
structure MacDesc where
  idx : Nat
  tries : Nat := 0
  /-- The counter of its frame, and the PSDU with MIC and FCS as built at its first transmission (R268). -/
  counter : Nat := 0
  psdu : Option (List Byte) := none
  seq : Option Nat := none
  /-- Network time of the SFD end of its last transmission, and of the attempt that is with the chain. -/
  txTime : Nat := 0
  txAt : Nat := 0
  /-- The lane of the attempt. -/
  lane : Nat := 0
  /-- Its request is with the chain, or its acknowledgement is awaited. -/
  active : Bool := false
  /-- CSMA that its slot cut off and that goes on at the next occurrence (R270). -/
  loop : Option Csma := none
  deriving DecidableEq, Repr

/-- What occupies an interval of counts (R265): its rank and link, and whether it is a receive window. -/
structure MacAct where
  rank : Nat
  link : Nat
  fromAt : Int
  toAt : Int
  rx : Bool := false
  /-- The descriptor of a transmission. -/
  desc : Option Nat := none
  deriving DecidableEq, Repr

/-- The kinds of receive window (R261, R275, R281). -/
inductive WinKind where
  | beacon
  | link (n : Nat) (shared : Bool)
  | ackWait (desc : Nat)
  deriving DecidableEq, Repr

/-- An open receive window: counts of its ends and of the expected SFD end, its lanes, its peer. -/
structure RxWin where
  kind : WinKind
  fromAt : Int
  toAt : Int
  expect : Int
  lanes : List Nat
  peer : Nat
  /-- A beacon of the parent has been accepted in it. -/
  got : Bool := false
  deriving DecidableEq, Repr

/-- An acknowledgement the MAC built (R280): peer, counter of the frame it answers, octets. -/
structure AckEntry where
  peer : Nat
  counter : Option Nat
  psdu : List Byte
  deriving DecidableEq, Repr

/-- The last beacon sent (R272): its octets before the time IE, the offset of the IE's content, flags, peer and power. -/
structure BeaconMem where
  body : List Byte
  arg : Nat
  flags : Nat
  peer : Nat
  power : Int
  deriving DecidableEq, Repr

/-- The MAC. -/
structure MacSt where
  descs : List MacDesc := []
  csma : List Csma := []
  acts : List MacAct := []
  wins : List RxWin := []
  /-- At most 64, oldest first (R280). -/
  acks : List AckEntry := []
  /-- Records whose assistance job runs: packet number, lane, record (R277 step 9). -/
  assist : List (Nat × Nat × List Byte) := []
  /-- The count of the last synchronisation (R273). -/
  lastSync : Option Nat := none
  lastBeacon : Option BeaconMem := none
  /-- The count at which the handoff window closes (R287), and a match during entry whose window is still to open. -/
  hand : Option Nat := none
  handPend : Bool := false
  /-- The Lamyn vendor ID of entry 0x3000:0C, 3 octets (R272; log entry 5). -/
  vendor : List Byte := [0, 0, 0]
  deriving DecidableEq, Repr

/-! ## Security engine (chapter 13) -/

/-- A key slot (R294). -/
structure KeySlot where
  valid : Bool := false
  /-- SIZE: a 256-bit key. -/
  wide : Bool := false
  use : BitVec 5 := 0
  keyId : Nat := 0
  epoch : Nat := 0
  key : List Byte := []
  /-- The key check value: the first 8 octets of the encryption of the all-zero block (R294). -/
  kcv : List Byte := []
  deriving DecidableEq, Repr

/-- A reservation that is being made durable (R306): the block's start, whether its record has verified, whether the
partner has acknowledged it, whether a tick has passed without that. -/
structure Resv where
  start : Nat
  ledger : Bool
  ack : Bool
  late : Bool
  deriving DecidableEq, Repr

/-- The outgoing counter of a slot (R305). -/
structure Counter where
  /-- START of the newest durable block, none before the first. -/
  durable : Option Nat := none
  next : Nat := 0
  exhausted : Bool := false
  resv : Option Resv := none
  deriving DecidableEq, Repr

/-- One step of the ledger (R307): a record, or the erase of the ring's next block. -/
inductive LedgOp where
  | record (kind slot : Nat) (kcv : List Byte) (start : Nat)
  | erase
  deriving DecidableEq, Repr

/-- The security engine. -/
structure SecSt where
  slots : Vector KeySlot 32 := Vector.replicate 32 {}
  ctr : Vector Counter 32 := Vector.replicate 32 {}
  /-- SEQ of the next ledger record (R307). -/
  ledgSeq : Nat := 0
  /-- What the engine has still to do in the ledger, the first of it under way when `ledgBusy`; `closing` while the
  snapshots and the erase that end a block are among it (R307). -/
  ledgQ : List LedgOp := []
  ledgBusy : Bool := false
  closing : Bool := false
  /-- The engine's working copies of KWK and KMK have been zeroed by an alarm (R310). -/
  wkGone : Bool := false
  /-- The first write of SEC_ALMCFG since reset has come (R311). -/
  almLocked : Bool := false
  /-- The alarm record is still to enter the recorder's queue, and then to be stored (R310). -/
  almReport : Bool := false
  almStored : Bool := false
  /-- Operands 0 to 7 of the modular unit (R303). -/
  bn : Vector (BitVec 256) 8 := Vector.replicate 8 0
  /-- The result of the operation that runs and where it goes (R303). -/
  bnRes : Option (Fin 8 × BitVec 256) := none
  deriving DecidableEq, Repr

/-! ## Table engine (chapter 14) -/

/-- The table engine; entries stand in table SRAM, and the hash index and the counter map follow from them. -/
structure TblSt where
  /-- A dictionary request reads the table as it stood at its snapshot boundary (R325): the first earlier contents of each
  entry written since, and whether more than 128 changed. -/
  saving : Bool := false
  saves : List (Nat × List Byte) := []
  savesLost : Bool := false
  /-- PEER entries whose LASTCTR changed in the tick in progress (R482, CTR). -/
  ctrChanged : List Nat := []
  deriving DecidableEq, Repr

/-! ## Network time (chapter 15) -/

/-- An output pulse in progress on a pin (R342): its pin code and when it ends. -/
structure Pulse where
  pin : Nat
  endsAt : Nat
  deriving DecidableEq, Repr

/-- One capture entry (R346): count, network time, lane. -/
structure CapEntry where
  count : Nat
  nt : Nat
  lane : Nat
  deriving DecidableEq, Repr

/-- One unit of the live trigger program (R341 to R344): its target in 2^−48 s, its period in 2^−48 s. -/
structure CmpUnit where
  armed : Bool := false
  target : Nat := 0
  period : Nat := 0
  deriving DecidableEq, Repr

/-- The time block. -/
structure TimeSt where
  /-- VALID (R330). -/
  valid : Bool := false
  /-- Base pair (R329): the count BC, and BNT in units of 2^−32 s / `ntQ`, exact. -/
  bc : Nat := 0
  bnt : Int := 0
  /-- The slew rate in force in ppm, signed, 0 when no slew runs, and the slew remaining at BC in the unit of `bnt` (R334). -/
  sl : Int := 0
  slewA : Int := 0
  /-- Slew applied since the last tick boundary began to be counted, in the unit of `bnt` (R334). -/
  slewMark : Int := 0
  /-- Servo (R338, R339): integrator, ACCEPT pending, the count of the last used measurement of each source. -/
  integ : Int := 0
  accept : Bool := false
  usedAt : List (Nat × Nat) := []
  /-- The count of the last measurement delivered by each source (R337). -/
  measAt : List (Nat × Nat) := []
  /-- The count of the last firmware command SET, STEP, SLEW or RATE, and of the last command or servo update (R338, R340). -/
  cmdAt : Nat := 0
  updAt : Nat := 0
  cmp : Vector CmpUnit 7 := Vector.replicate 7 {}
  pulses : List Pulse := []
  caps : Vector (List CapEntry) 8 := Vector.replicate 8 []
  /-- The count of the last edge that each capture unit has recorded: it records at most one in any 8 ns (R346). -/
  capAt : Vector (Option Nat) 8 := Vector.replicate 8 none
  /-- The count latched with the last read of TIME_NOW_LO, its high word held (R331). -/
  nowc : Nat := 0
  /-- R348: the UTC offset in s, the announced one, and the network time of the change (0 for none): entries 0x4000:0C to 0E. -/
  utc : Int := 0
  utcNew : Int := 0
  utcAt : Nat := 0
  deriving DecidableEq, Repr

/-! ## Real-time clock (chapter 16) -/

/-- A legacy freeze (R354): the shadows of SEC, FRAC, CALT and CALD, and the count at its start. -/
structure Freeze where
  sec : Word
  frac : Word
  calt : Word
  cald : Word
  since : Nat
  deriving DecidableEq, Repr

/-- The clock's section. Counts are in units of 2^−39 s: SEC, FRAC and the 24-bit extension in one number (R351). -/
structure RtcSt where
  /-- The count at the low-power edge `baseEdge`, not wrapped. -/
  base : Nat := 0
  baseEdge : Nat := 0
  /-- A write of the count waits for its edge (R355). -/
  load : Option Word := none
  /-- The date held by a write of RTC_CALD (R357). -/
  held : Option Word := none
  /-- The count was at or past the target when the alarm was armed (R359). -/
  armedLate : Bool := false
  freeze : Option Freeze := none
  /-- The periodic wake's own accumulator since its restart or last wake, at the edge `perEdge` (R361). -/
  perBase : Nat := 0
  perEdge : Nat := 0
  /-- SYNCNT is armed (R358). -/
  sync : Bool := false
  /-- Network trim window (R362): the count in FRAC units and the network second at its start, none before the first
  capture; spoilt. -/
  winStart : Option (Nat × Nat) := none
  winBad : Bool := false
  /-- The mains window under way: the count in FRAC units at its start; spoilt by a write or the RC. -/
  mainsStart : Option Nat := none
  /-- The last 600 s window that the mains sense unit reported: R in FRAC units, cycles, nominal frequency, valid. -/
  mainsWin : Option (Nat × Nat × Nat × Bool) := none
  deriving DecidableEq, Repr

/-! ## Timers (chapter 17) -/

/-- One timer beside its registers. -/
structure TmrSt where
  /-- Edges of the source counted by the prescaler since the last count clock (R367, R368). -/
  presc : Nat := 0
  /-- LINK as taken at the last enable (R368, R375); even timers. -/
  link : Bool := false
  /-- Captured entries, oldest first, at most 4 (R373). -/
  caps : List Nat := []
  /-- Levels of the compare outputs (R372). -/
  out0 : Bool := false
  out1 : Bool := false
  deriving DecidableEq, Repr

/-! ## Mains sense unit (chapter 18) -/

/-- How the half cycle in progress began (R381): at a rising or falling crossing, or otherwise. -/
inductive HalfStart where
  | rising | falling | timeout
  deriving DecidableEq, Repr

/-- The half cycle in progress. -/
structure HalfCycle where
  begun : HalfStart := .timeout
  startAt : Nat := 0
  firstScan : Nat := 0
  n : Nat := 0
  /-- Sums of squares of A, B, C, N. -/
  sq : Vector Nat 4 := Vector.replicate 4 0
  clip : Bool := false
  tjump : Bool := false
  /-- Network time of the first scan's start. -/
  nt0 : Nat := 0
  /-- The cycle that ended at the rising crossing which began the half cycle: its frequency in mHz, 0 when invalid or none,
  and whether it was invalid (R383). -/
  freq : Nat := 0
  bad : Bool := false
  deriving DecidableEq, Repr

/-- An averaging window (R384): the count at its start, cycles so far, all valid so far. -/
structure AvgWin where
  startAt : Nat
  cycles : Nat := 0
  good : Bool := true
  deriving DecidableEq, Repr

/-- The event in progress on a phase (R385): half cycles so far, extreme RMS. -/
structure PhaseEvent where
  halves : Nat := 0
  extreme : Nat := 0
  deriving DecidableEq, Repr

/-- The mains sense unit. -/
structure MsuSt where
  /-- The number of the next scan (R380), the scan in progress and when it started. -/
  nextScan : Nat := 0
  scanAt : Option Nat := none
  half : HalfCycle := {}
  /-- Closes that wait for the end of a scan which started in the half cycle, oldest first: crossing direction (none for a
  timeout) and instant. -/
  closing : List (Option Bool × Nat) := []
  /-- The last accepted crossing; the count at which the half cycle closes without one. -/
  lastCross : Option Nat := none
  dueAt : Nat := 0
  /-- Crossing detector on channel A: polarity, the last sample and its count, the instant of the last sign change. -/
  pol : Option Bool := none
  prevA : Option (Int × Nat) := none
  zeroAt : Nat := 0
  /-- The last rising crossing, and whether a half cycle since was flagged NOZC or TJUMP (R382). -/
  lastRise : Option Nat := none
  cycNozc : Bool := false
  cycTjump : Bool := false
  win10 : Option AvgWin := none
  win600 : Option AvgWin := none
  events : Vector PhaseEvent 3 := Vector.replicate 3 {}
  /-- Sags, swells and interruptions begun since reset (0x5100:0A to 0C). -/
  sags : Nat := 0
  swells : Nat := 0
  intrs : Nat := 0
  deriving DecidableEq, Repr

/-! ## Non-volatile memory (chapter 19) -/

/-- Who asks for a program or an erase (R401). -/
inductive NvmUser where
  | sec | evr | dict | firmware | refresh
  deriving DecidableEq, Repr

/-- How a program's units are encrypted (R293, R300): not at all, under the keys and the base of its region as they stood when
its message started, or not possible. -/
inductive XtsUse where
  | plain
  | keys (k1 k2 : List Byte) (base : Nat)
  | unusable
  deriving DecidableEq, Repr

/-- A program in progress or waiting (R396): the address of the next unit, the data of the units still to come (as the
requester gave them, before any XTS encryption), units done, its status so far. -/
structure ProgJob where
  user : NvmUser
  addr : Nat
  /-- Control SRAM source of a firmware program, unit by unit; none when `data` holds the units. -/
  src : Option Nat
  data : List (List Byte)
  left : Nat
  done : Nat := 0
  retired : Bool := false
  /-- Taken when the program starts. -/
  xts : XtsUse := .plain
  /-- The count at which a unit ended and the next has not started: the reads that wait are served there (R396). -/
  gapAt : Option Nat := none
  deriving DecidableEq, Repr

/-- An erase in progress (R397, R399): its logical block and whether it is suspended. -/
structure EraseJob where
  user : NvmUser
  block : Nat
  susp : Bool := false
  deriving DecidableEq, Repr

/-- One bank (R388, R403, R404). -/
structure NvmBank where
  /-- Logical blocks held by another physical block: (logical, physical). -/
  map : List (Nat × Nat) := []
  /-- Free spares, physical. -/
  free : List Nat := [496, 497, 498, 499, 500, 501, 502, 503, 504, 505, 506, 507, 508, 509, 510, 511]
  retired : List Nat := []
  /-- Erase counts of physical blocks, 0 where none is listed. -/
  cycles : Sparse 32 := []
  /-- Units programmed since their block's last erase whose bytes are all ones, by address / 32; every other programmed
  unit shows by its bytes (R395). -/
  ones : List Nat := []
  prog : Option ProgJob := none
  /-- Programs that wait for the bank, in the order of R401. -/
  progQ : List ProgJob := []
  erase : Option EraseJob := none
  /-- Erases that wait for the bank, in the order of R401. -/
  eraseQ : List EraseJob := []
  /-- The newest journal record has no completion record: that block's erase was abandoned (R398). -/
  abandoned : Option Nat := none
  /-- Firmware's suspension bit as taken. -/
  suspReq : Bool := false
  deriving DecidableEq, Repr

/-- The NVM controller. -/
structure NvmSt where
  bank0 : NvmBank := {}
  bank1 : NvmBank := {}
  /-- NVM_LASTECC of each master (R392), keyed by master. -/
  lastEcc : Sparse 32 := []
  /-- The OTP word being programmed by OTPPROG: address and data (R407). -/
  otp : Option (Nat × Word) := none
  /-- The offsets of OTP words that have been programmed with 0 (R407). -/
  otpZero : List Nat := []
  /-- The scrub position as last journaled: step number 0 to 1023 (R406). -/
  scrubJ : Nat := 0
  scrubAt : Nat := 0
  /-- Since reset: most program pulses, refreshes, retirements (0x7100:0A, 0C). -/
  pvMax : Nat := 0
  refreshes : Nat := 0
  retires : Nat := 0
  deriving DecidableEq, Repr

/-! ## Serial ports (chapter 20) -/

/-- A store in the write queue of the memory port: its window address and bytes as they go out (R413, R415). -/
structure WqEntry where
  addr : Nat
  data : List Byte
  deriving DecidableEq, Repr

/-- The stages of a direct command (R417): it waits for the entries queued before it, runs, or is polled. -/
inductive DirectPhase where
  | waiting (ahead : Nat)
  | running
  | polling
  deriving DecidableEq, Repr

/-- The memory port. -/
structure SpimSt where
  /-- Lines of the XIP cache, plaintext, oldest fill first: line address and 32 bytes (R412). -/
  cache : List (Nat × List Byte) := []
  queue : List WqEntry := []
  /-- The select whose memory is being polled after a page program (R413). -/
  poll : Option Nat := none
  /-- The XTS block that is partly collected: its address and its bytes so far (R415). -/
  part : Option (Nat × List (Option Byte)) := none
  /-- The direct command: SPIM_DCMD and SPIM_DBUF as at GO, and its stage. -/
  direct : Option (Word × Nat × DirectPhase) := none
  deriving DecidableEq, Repr

/-- A reply of the host port (R421): STATUS, TAG, payload. -/
structure HostReply where
  status : Nat
  tag : Nat
  payload : List Byte
  deriving DecidableEq, Repr

/-- The host port. -/
structure SpisSt where
  /-- The reply to the last taken frame, none for NOREPLY (R424), and whether it is not ready yet (R423). -/
  kept : Option HostReply := none
  pend : Bool := false
  /-- BRK of the latest broken frame since the last taken one (R422). -/
  brk : Nat := 0
  /-- A frame has been answered busy since that frame was taken (R423). -/
  busySeen : Bool := false
  /-- Frames taken since reset (0x1F20:01). -/
  taken : Nat := 0
  deriving DecidableEq, Repr

/-! ## Selvage ring (chapter 21) -/

/-- A frame or ordered set that the ring block put on an output (R431, R434): TYPE, 0 for a CYCLE set; the port, 0 E_TX,
1 W_TX; ended by ABORT (R433). -/
structure RingOut where
  typ : Nat
  src : Nat
  dst : Nat
  flags : Nat
  seq : Nat
  payload : List Byte
  port : Nat := 0
  aborted : Bool := false
  deriving DecidableEq, Repr

/-- A response of the dictionary (R450), or a reply of recovery mode (R530), that waits for the part's slot. -/
structure RingResp where
  /-- TYPE: 0x10 SVC, or 0x11 APP for a recovery reply (R530). -/
  typ : Nat := 0x10
  dst : Nat
  seq : Nat
  payload : List Byte
  deriving DecidableEq, Repr

/-- One port beside its register. -/
structure RingPortSt where
  /-- The count at which the port went down while it is down since then (R444). -/
  downAt : Nat := 0
  /-- The count of the last DREQ's departure, none once answered (R439). -/
  t1 : Option Nat := none
  /-- The last exchanges' delays, newest first, at most 8, in half counts. -/
  delays : List Int := []
  deriving DecidableEq, Repr

/-- The ring block. -/
structure RingSt where
  east : RingPortSt := {}
  west : RingPortSt := {}
  /-- Ports gone down (0x5200:28). -/
  downs : Nat := 0
  /-- The bytes of the last CYCLE set, the count of its arrival or, in the manager, of its sending, and the manager's tick
  index as the last TIME frame gave it. -/
  cyc : Nat := 0
  cycAt : Nat := 0
  tick : Nat := 0
  /-- The plan in force (R437). -/
  plan : Word := 0x50200014
  bulkOwn : Nat := 0xFF
  /-- The numbering epoch (R449). -/
  epoch : Nat := 0
  /-- Positions and addresses of STATUS frames in the present cycle and in the one before; positions that asked for the
  bulk window (R440); the last owner. -/
  seen : List (Nat × Nat) := []
  present : List (Nat × Nat) := []
  bulkReq : List Nat := []
  lastOwner : Nat := 31
  /-- The manager sends NUMBER in its next slot; cycles since it last did. -/
  numDue : Bool := false
  numAge : Nat := 0
  /-- SEQ of the next frame. -/
  seq : Nat := 0
  /-- Dictionary responses that wait for the slot. -/
  svcOut : List RingResp := []
  /-- What the last command of the ring block put on its outputs. -/
  sent : List RingOut := []
  deriving DecidableEq, Repr

/-! ## Object dictionary (chapter 22) -/

/-- Where the response to a request goes: the host port; a ring position, with the SEQ of the request; a descriptor of the
mesh queue, plain or as an envelope under the key of a slot at a level; the Twill link; nobody (a restore, a mirrored
transaction). -/
inductive ReplyTo where
  | host
  | ring (dst seq : Nat)
  | desc (n : Nat)
  | mesh (n slot level : Nat)
  | relay
  | nobody
  deriving DecidableEq, Repr

/-- A request taken. -/
structure DReq where
  replyTo : ReplyTo
  sess : Sess
  svc : Nat
  rid : Nat
  deriving DecidableEq, Repr

/-- A staged value. -/
structure DItem where
  idx : Nat
  sub : Nat
  val : List Byte
  deriving DecidableEq, Repr

/-- A session's own state (R455, R461, R463, R466, R469, R470); the cursors of 0x3300:04 and 0x8000:05. -/
structure Session where
  trans : Option (List DItem) := none
  expired : Bool := false
  /-- A write to receive parameters of a set in use was refused within the open transaction: the entry (R232). -/
  doomed : Option (Nat × Nat) := none
  /-- SVC, RID and the response to the last executed request. -/
  kept : Option (Nat × Nat × List Byte) := none
  /-- The snapshot buffer: its number and the length of its list. -/
  snap : Option (Nat × Nat) := none
  /-- The last response envelope. -/
  keptEnv : List Byte := []
  tblCur : Nat := 0
  evrCur : Nat := 0
  deriving DecidableEq, Repr

/-- A READ or SNAPSHOT that waits for its boundary (R460, R461). -/
structure PendRead where
  req : DReq
  items : List (Nat × Nat)
  deriving DecidableEq, Repr

/-- Whose transaction runs: a session's, the restore (R476), the active part's (R488). -/
inductive RunKind where
  | user | restore | mirror
  deriving DecidableEq, Repr

/-- How far a COMMIT has come (R467): descriptors whose check is still to be given, the first one offered; waiting while
firmware holds blocks; the group's check; passed, waiting for the group's boundary; ready since a count, for the first
boundary 50 µs later. -/
inductive RunStage where
  | waiting
  | check (left : List Nat)
  | hold
  | group
  | armed
  | ready (since : Nat)
  deriving DecidableEq, Repr

/-- A COMMIT. -/
structure DRun where
  req : DReq
  kind : RunKind
  items : List DItem
  stage : RunStage := .waiting
  deriving DecidableEq, Repr

/-- A record in the persistent store (R475): the block of the ring it stands in, its sequence number, its entry, its part,
its bytes in whole units. -/
structure StoreRec where
  block : Nat
  seq : Nat
  idx : Nat
  sub : Nat
  part : Nat
  bytes : List Byte
  deriving DecidableEq, Repr

/-- Work on the store's ring that waits for the NVM; `note`: the mesh envelope that waits for this record. -/
inductive StoreOp where
  | prog (addr : Nat) (bytes : List Byte) (note : Bool)
  | erase (addr : Nat)
  deriving DecidableEq, Repr

/-- The store: its records, oldest first; the block of the ring being filled and the units used in it; erased blocks. -/
structure StoreSt where
  recs : List StoreRec := []
  cur : Nat := 0
  used : Nat := 0
  free : Nat := 0
  seq : Nat := 0
  ops : List StoreOp := []
  busy : Bool := false
  deriving DecidableEq, Repr

/-- An envelope that has passed its tests and waits for its counter's record (R470). -/
structure MeshWait where
  desc : Nat
  slot : Nat
  level : Nat
  counter : Nat
  msg : List Byte
  deriving DecidableEq, Repr

/-- The dictionary engine. -/
structure DictSt where
  /-- Sessions that differ from a fresh one. -/
  sessions : List (Sess × Session) := []
  reads : List PendRead := []
  run : Option DRun := none
  /-- COMMITs that wait for the one that runs, in arrival order. -/
  queue : List DRun := []
  store : StoreSt := {}
  meshWait : Option MeshWait := none
  /-- A response that waits for a counter of its envelope's key (R470, R306). -/
  respWait : Option (DReq × List Byte) := none
  /-- EN has risen with the store in use: the restore is to start (R476). -/
  restoreDue : Bool := false
  /-- Firmware's verdict in DICT_CBRES, not yet acted on (R473). -/
  verdict : Option Word := none
  /-- Descriptors of the mesh queue that have been served, as a count modulo 8 (TAIL), and the one being served. -/
  serving : Option Nat := none
  committed : Nat := 0
  /-- Values of 0x1008:00 and 0x5000:01 to 04, as they travel; absent: the default (R478). -/
  name : Option (List Byte) := none
  asset : List (Nat × List Byte) := []
  /-- R479: the locked values, kept outside the store for good. -/
  locked : Option (List (Nat × List Byte)) := none
  deriving DecidableEq, Repr

/-! ## Twill pair (chapter 23) -/

/-- A sequenced frame on the Twill link (R482, R483). -/
structure TwFrame where
  typ : Nat
  seq : Nat
  payload : List Byte
  /-- The count of its first and of its last sending. -/
  firstAt : Nat
  sentAt : Nat
  deriving DecidableEq, Repr

/-- A frame in the hold ring (R495): its record, the boundary count in whose tick its evaluation completed, its entry and
its counter. -/
structure HeldFrame where
  bnd : Nat
  peer : Nat
  counter : Nat
  record : List Byte
  deriving DecidableEq, Repr

/-- The Twill block. -/
structure TwilSt where
  /-- SEQ of the next sequenced frame, and the last SEQ received in order (R483). -/
  seqNext : Nat := 0
  rxSeq : Nat := 0xFFFF
  /-- Frames sent and not acknowledged, at most 64, oldest first, and those that wait for room (R483). -/
  unacked : List TwFrame := []
  waitq : List TwFrame := []
  /-- TYPE and payload of the last UNSEQ frame sent (R482). -/
  lastUnseq : Option (Nat × List Byte) := none
  /-- A HELLO of a compatible version has been received while the link trains (R484, R501). -/
  helloOk : Bool := false
  /-- What the partner's last HELLO said (R486): strap, factory address, key check values; its state as last told. -/
  partnerRole : Bool := false
  partnerAddr : Nat := 0
  partnerKcv : List Nat := []
  partnerState : Nat := 0
  /-- A HANDOVER has been sent or received: the tick index of the change (R499). -/
  handoverOut : Option Nat := none
  handoverIn : Option Nat := none
  /-- FORCE waits for the next boundary (R497). -/
  force : Bool := false
  /-- Announced blanking intervals of the partner, newest first: network times of the first TX sample and 80 µs after the
  last (R490). -/
  txb : List (Nat × Nat) := []
  held : List HeldFrame := []
  /-- Link delay measurement: the count of the last DREQ, none once answered, and the last delays (R439, R484). -/
  dreqAt : Option Nat := none
  delays : List Int := []
  /-- Mirrored reservations whose RESACK waits for the ledger: slot, KCV, START (R487). -/
  resPend : List (Nat × List Byte × Nat) := []
  /-- SEQ of the SYNC end record on its way to the standby (R487). -/
  endSeq : Option Nat := none
  /-- Sessions whose relayed requests wait for a response, oldest first (R498). -/
  relays : List DReq := []
  /-- A full synchronisation is to start (R487). -/
  syncDue : Bool := false
  /-- Takeovers since reset (0x9000:06). -/
  takeovers : Nat := 0
  deriving DecidableEq, Repr

/-! ## Event recorder (chapter 24) -/

/-- A report in the intake queue or the staging record (R503, R509). -/
structure Report where
  /-- FORM: 0 snapshot, 1 variable, 2 GAP (R507). -/
  form : Nat
  cls : Nat
  source : Nat
  arg0 : Word
  /-- Payload octets: arguments and captured registers, or the variable payload. -/
  payload : List Byte
  /-- Its registers have not yet been captured: the recorder's clock was gated (R506). -/
  raw : Bool := false
  offReg : Bool := false
  rep : Nat := 1
  deriving DecidableEq, Repr

/-- The event recorder. -/
structure EvrSt where
  queue : List Report := []
  /-- The alarm source's reserved place (R511). -/
  alarm : Option Report := none
  staged : Option Report := none
  /-- When the staging record was staged (count), and OPSEC and PCYC then are in its header (R507). -/
  stagedAt : Nat := 0
  stagedOps : Nat := 0
  stagedPcyc : Nat := 0
  /-- A write is in progress: of the staging record, or of a GAP record ahead of it. -/
  writing : Bool := false
  gap : Bool := false
  /-- Units from the ring's beginning to the next write, skipped ones included (R513). -/
  used : Nat := 0
  /-- SEQ of the next record. -/
  seq : Nat := 0
  /-- Result of each master's last report (EVR_RPTSTAT), keyed by master. -/
  rptStat : Sparse 32 := []
  /-- Count at the last OPSEC second. -/
  opsAt : Nat := 0
  /-- POR since the last scan: OPSEC and PCYC come from the newest record (R508). -/
  fromPor : Bool := true
  /-- EVR_CMD.CLEAR waits for the write in progress. -/
  clearWait : Bool := false
  /-- A CLEAR is erasing the ring: blocks whose erase has not ended (R514). -/
  clearing : Nat := 0
  deriving DecidableEq, Repr

/-! ## The whole part -/

/-- The state of the part. -/
structure State where
  /-- Commands that wait, first in, first out. -/
  pending : List Instr := []
  /-- The time-base count since the last POR, not wrapped (R328); every interval the rules give is measured by it. -/
  now : Nat := 10000
  /-- How many free values the run has used (Config): the model's own field (log entry 2). -/
  free : Nat := 0
  /-- Every register of the register tables that differs from its reset value, by address (Regs.lean). -/
  regs : List (Nat × Word) := []
  /-- How often each saturating counter field has counted since reset, by 32 × register address + lowest bit: the counters
  of the dictionary, which reads do not clear. -/
  totals : List (Nat × Word) := []
  mem : Memory := {}
  bus : BusSt := {}
  tick : TickSt := {}
  pins : PinSt := {}
  power : PowerSt := {}
  boot : BootSt := {}
  core : CoreSt := {}
  shtl : ShtlSt := {}
  rfrx : RfrxSt := {}
  loom : LoomSt := {}
  demod : DemodSt := {}
  tx : TxSt := {}
  mac : MacSt := {}
  sec : SecSt := {}
  tbl : TblSt := {}
  time : TimeSt := {}
  tmr : Vector TmrSt 8 := Vector.replicate 8 {}
  nvm : NvmSt := {}
  spim : SpimSt := {}
  spis : SpisSt := {}
  rtc : RtcSt := {}
  msu : MsuSt := {}
  twil : TwilSt := {}
  evr : EvrSt := {}
  ring : RingSt := {}
  dict : DictSt := {}
  deriving DecidableEq, Repr

/-- Right after the internal reset of a cold start has released (R83, R86, steps 1 to 9 of the power-up table): registers
at their reset values, BUCKOK and the locked XO and PLLs showing, the count at the 40 µs it has run (log entry 4). -/
def State.reset : State :=
  { regs := [(0x40000010, 0x1#32), (0x40000020, 0x47#32)] ++
    ((List.range 16).map (fun n => (Reg.RFTX_FIR n, BitVec.ofNat 32 (firFactory.getD n 0)))).filter (fun e => e.2 != 0#32) }

end Sys2Proof.Machine
end

