-- ==== Sys2Proof/Machine/Ops.lean ====
section
/-! DEFINITION. Machine/Ops.lean: the named operations over registers, memory and the clock that the meanings share. -/
namespace Sys2Proof.Machine

/-- What a step answers. -/
abbrev Out := Host.Outcome State Fault Refusal

/-! ## Registers -/

/-- The register at `a` (R7). -/
def State.reg (s : State) (a : Nat) : Word := Sparse.get resetVal s.regs a

/-- The state with the register at `a` holding `v`. -/
def State.setReg (s : State) (a : Nat) (v : Word) : State := { s with regs := Sparse.set resetVal s.regs a v }

/-- The bits of a field in a word. -/
def Field.of (f : Field) (r : Word) : Nat := r.toNat / 2 ^ f.lo % 2 ^ f.w

/-- A word with the bits of a field replaced by the low bits of `v`. -/
def Field.into (f : Field) (r : Word) (v : Nat) : Word :=
  let m : Word := BitVec.ofNat 32 (2 ^ f.w - 1) <<< f.lo
  (r &&& ~~~m) ||| ((BitVec.ofNat 32 v <<< f.lo) &&& m)

/-- The value of a field. -/
def State.get (s : State) (f : Field) : Nat := f.of (s.reg f.reg)

/-- The state with a field holding `v`. -/
def State.put (s : State) (f : Field) (v : Nat) : State := s.setReg f.reg (f.into (s.reg f.reg) v)

/-- A one-bit field is set. -/
def State.on (s : State) (f : Field) : Bool := s.get f == 1

/-- The signed value of a field. -/
def State.getI (s : State) (f : Field) : Int := signedOf f.w (s.get f)

/-- The state with a field holding a signed value, in two's complement. -/
def State.putI (s : State) (f : Field) (v : Int) : State := s.put f (wrapInt f.w v)

/-- The state with a Bool in a one-bit field. -/
def State.putB (s : State) (f : Field) (b : Bool) : State := s.put f (if b then 1 else 0)

/-- A counter field that saturates at its largest value goes up by one. -/
def State.sat (s : State) (f : Field) : State :=
  let k := 32 * f.reg + f.lo
  { s.put f (min (s.get f + 1) (2 ^ f.w - 1)) with
    totals := Sparse.set (fun _ => 0#32) s.totals k (Sparse.get (fun _ => 0#32) s.totals k + 1) }

/-- How often a saturating counter has counted since reset (the dictionary's counters). -/
def State.total (s : State) (f : Field) : Nat := (Sparse.get (fun _ => 0#32) s.totals (32 * f.reg + f.lo)).toNat

/-- A counter field that wraps goes up by one. -/
def State.inc (s : State) (f : Field) : State := s.put f (s.get f + 1)

/-- The mask of a field within its word. -/
def Field.mask (f : Field) : Word := BitVec.ofNat 32 (2 ^ f.w - 1) <<< f.lo

/-- A fresh free value (Config): the number that selects it, and the state in which the next one differs. -/
def State.draw (s : State) : Nat × State := (s.free, { s with free := s.free + 1 })

/-! ## Plain writes (R7, R8) -/

/-- The LK fields of a register (R7) take a write each while they hold their reset value: the bits that a write may still
change. Fields are the runs named by `lkFields`. -/
def lkFields (a : Nat) : List Field :=
  if a = Reg.SEC_CFG then [SEC_CFG.XTSLOCK] else []

/-- R7, R8: what a register holds after a plain write of `d`: RW and TK bits take `d`, W1C bits written 1 clear, LK fields
take `d` while they hold their reset value, every other bit keeps its value. -/
def plainWrite (row : RegRow) (a : Nat) (old d : Word) : Word :=
  let rw := BitVec.ofNat 32 row.rw
  let w1 := BitVec.ofNat 32 row.w1c
  let lk := (lkFields a).foldl (fun m f => if f.of old = f.of (BitVec.ofNat 32 row.reset) then m ||| f.mask else m) 0#32
  let take := rw ||| lk
  ((old &&& ~~~take) ||| (d &&& take)) &&& ~~~(d &&& w1)

/-- A plain register write; an offset that holds no register discards it (R38). -/
def State.plainWrite (s : State) (a : Nat) (d : Word) : State :=
  match regRow a with
  | some row => s.setReg a (Machine.plainWrite row a (s.reg a) d)
  | none => s

/-- A read of a register's RC fields clears them (R7, R9). -/
def State.clearRc (s : State) (a : Nat) : State :=
  match regRow a with
  | some row => if row.rc = 0 then s else s.setReg a (s.reg a &&& ~~~(BitVec.ofNat 32 row.rc))
  | none => s

/-! ## The address map (R36) -/

/-- The regions of the address map. -/
inductive Region where
  | rom | nvm | otp | xip | sram | retention | weftLocal | weftProg | laneBuf | ctxPool | table | regs | none
  deriving DecidableEq, Repr

/-- The region of an address. -/
def regionOf (a : Nat) : Region :=
  if a < 0x10000 then .rom
  else if 0x08000000 ≤ a ∧ a < 0x08400000 then .nvm
  else if 0x08800000 ≤ a ∧ a < 0x08804000 then .otp
  else if 0x10000000 ≤ a ∧ a < 0x14000000 then .xip
  else if 0x20000000 ≤ a ∧ a < 0x20100000 then .sram
  else if 0x20100000 ≤ a ∧ a < 0x20104000 then .retention
  else if 0x30000000 ≤ a ∧ a < 0x30040000 then .weftLocal
  else if 0x30040000 ≤ a ∧ a < 0x30050000 then .weftProg
  else if 0x31000000 ≤ a ∧ a < 0x31040000 then .laneBuf
  else if 0x31800000 ≤ a ∧ a < 0x31820000 then .ctxPool
  else if 0x32000000 ≤ a ∧ a < 0x32040000 then .table
  else if 0x40000000 ≤ a ∧ a < 0x4001B000 then .regs
  else .none

/-- Does the address range lie in control SRAM? -/
def inSram (a n : Nat) : Bool := decide (0x20000000 ≤ a) && decide (a + n ≤ 0x20100000)

/-- What a byte that no write has listed reads as: erased NVM and external memory 0xFF, the ROM the vendor's byte, a
memory that has lost its contents a free value of that loss, but an entry of table SRAM reads as a free entry apart from
its VER (R314), everything else 0 (log entry 3), but for the lock of the FACTORY area of OTP, which is set at the factory
(R407). -/
def memDefault (l : Losses) (a : Nat) : Byte :=
  let lost (n : Nat) : Byte := if n = 0 then 0 else Config.freeByte n a
  match regionOf a with
  | .rom => Config.romByte a
  | .nvm | .xip => 0xFF
  | .sram => lost l.sram
  | .retention => lost l.retention
  | .weftLocal | .weftProg | .laneBuf | .ctxPool => lost l.radio
  | .table => if a % 32 = 26 ∨ a % 32 = 27 then lost l.table else 0
  | .otp => if a = 0x08803F00 then 1 else 0
  | .regs | .none => 0

/-- One byte of memory. -/
def State.rb (s : State) (a : Nat) : Byte := Sparse.get (memDefault s.mem.lost) s.mem.cells a

/-- The state with one byte of memory changed. -/
def State.wb (s : State) (a : Nat) (v : Byte) : State :=
  { s with mem := { s.mem with cells := Sparse.set (memDefault s.mem.lost) s.mem.cells a v } }

/-- `n` bytes from `a` upward. -/
def State.bytes (s : State) (a : Nat) : Nat → List Byte
  | 0 => []
  | n + 1 => s.rb a :: State.bytes s (a + 1) n

/-- The state with bytes written from `a` upward. -/
def State.wbytes (s : State) (a : Nat) : List Byte → State
  | [] => s
  | b :: bs => State.wbytes (s.wb a b) (a + 1) bs

/-- The number that bytes spell, the first the least significant (R7). -/
def leNat : List Byte → Nat
  | [] => 0
  | b :: bs => b.toNat + 256 * leNat bs

/-- The `n` bytes of a number, least significant first. -/
def leBytes : Nat → Nat → List Byte
  | 0, _ => []
  | n + 1, v => BitVec.ofNat 8 v :: leBytes n (v / 256)

/-- The number in `n` bytes of memory, little-endian. -/
def State.rn (s : State) (a n : Nat) : Nat := leNat (s.bytes a n)

/-- The state with a number written in `n` bytes, little-endian. -/
def State.wn (s : State) (a n v : Nat) : State := s.wbytes a (leBytes n v)

/-- A word of memory. -/
def State.rw32 (s : State) (a : Nat) : Word := BitVec.ofNat 32 (s.rn a 4)

/-- The memory in canonical form. -/
def Memory.wf (m : Memory) : Bool := Sparse.wf (memDefault m.lost) m.cells

/-- The memory after the regions of `p` have lost their contents: nothing of them is listed, `l` counts the loss. -/
def Memory.lose (m : Memory) (p : Nat → Bool) (l : Losses) : Memory := { cells := Sparse.clear m.cells p, lost := l }

/-- Control SRAM loses its contents (R107, R109). -/
def Memory.loseSram (m : Memory) : Memory :=
  m.lose (fun a => regionOf a == .sram) { m.lost with sram := m.lost.sram + 1 }

/-- Retention SRAM loses its contents (R83). -/
def Memory.loseRetention (m : Memory) : Memory :=
  m.lose (fun a => regionOf a == .retention) { m.lost with retention := m.lost.retention + 1 }

/-- The memories of the RADIO domain lose their contents (R94). -/
def Memory.loseRadio (m : Memory) : Memory :=
  m.lose (fun a => regionOf a == .weftLocal || regionOf a == .weftProg || regionOf a == .laneBuf || regionOf a == .ctxPool)
    { m.lost with radio := m.lost.radio + 1 }

/-- Table SRAM loses its contents (R109). -/
def Memory.loseTable (m : Memory) : Memory :=
  m.lose (fun a => regionOf a == .table) { m.lost with table := m.lost.table + 1 }

/-! ## Domains and clocks (R34, R48, R94) -/

/-- The domain a target lies in. -/
inductive Domain where
  | aon | core | radio | ring | msu
  deriving DecidableEq, Repr

/-- The block number of a register address (R37): 0 SYSC to 26 ID. -/
def blockOf (a : Nat) : Nat := (a - 0x40000000) / 0x1000

/-- The domain of an address (R34). -/
def domainOf (a : Nat) : Domain :=
  match regionOf a with
  | .weftLocal | .weftProg | .laneBuf | .ctxPool => .radio
  | .retention => .aon
  | .regs =>
    let b := blockOf a
    if 16 ≤ b ∧ b ≤ 21 then .radio
    else if b = 22 then .aon
    else if b = 23 ∨ b = 24 then .ring
    else if b = 7 then .msu
    else .core
  | _ => .core

/-- The clocks of CORE run: in run and idle, until an entry completes, and from the restore of a deep-sleep wake (chapter
05, R106 step 5). -/
def State.clocked (s : State) : Bool :=
  match s.power.st with
  | .run | .idle | .draining _ | .saving _ => true
  | .waking .deepSleep => s.on SYSC_LPSTAT.PLLRUN
  | _ => false

/-- The control core executes: in run (R93), and not halted (R134). -/
def State.coreRuns (s : State) : Bool := s.power.st == .run && !s.core.halted

/-- A switchable domain is powered (SYSC_PDSTAT). -/
def State.radioOn (s : State) : Bool := s.on SYSC_PDSTAT.RADIO
def State.ringOn (s : State) : Bool := s.on SYSC_PDSTAT.RING
def State.msuOn (s : State) : Bool := s.on SYSC_PDSTAT.MSU

/-- The domain is powered. -/
def State.domainOn (s : State) : Domain → Bool
  | .radio => s.radioOn
  | .ring => s.ringOn
  | .msu => s.msuOn
  | .core | .aon => true

/-- The clock-gate field of a block (R90), none for a block that cannot be gated. -/
def gateOf (b : Nat) : Option Field :=
  if b = 3 then some SYSC_CLKGATE.EVM
  else if b = 6 then some SYSC_CLKGATE.TMR
  else if b = 9 then some SYSC_CLKGATE.SPIM
  else if b = 10 then some SYSC_CLKGATE.SPIS
  else if b = 11 then some SYSC_CLKGATE.GPIO
  else if b = 12 then some SYSC_CLKGATE.SEC
  else if b = 13 then some SYSC_CLKGATE.TBL
  else if b = 14 then some SYSC_CLKGATE.EVR
  else if b = 25 then some SYSC_CLKGATE.DICT
  else none

/-- The clock gate that an address depends on: its block's, SPIM's for the XIP window (R90). -/
def gateOfAddr (a : Nat) : Option Field :=
  match regionOf a with
  | .regs => gateOf (blockOf a)
  | .xip => some SYSC_CLKGATE.SPIM
  | _ => none

/-- A field's gate is open. -/
def State.gateOpen (s : State) : Option Field → Bool
  | none => true
  | some f => s.on f

/-! ## Time -/

/-- The low-power clock's increment of the count per edge, in 2^−17 counts: 250,000,000 / 32,768 = 7,629.39453125 (R103). -/
def lpStep : Nat := 1000000000

/-- The core clock in MHz (R35, R81, SYSC_CLKCFG.COREDIV). -/
def State.coreMHz (s : State) : Nat :=
  if s.on SYSC_CLKSTAT.CORERC || !(s.on SYSC_LPSTAT.PLLRUN) then 24 else if s.on SYSC_CLKCFG.COREDIV then 96 else 192

/-- The nominal length of a tick, 250,000 counts, in 2^−16 counts (R16). -/
def tickLen : Nat := 16384000000

/-- Cycles, in 2^−16 cycle, of a clock of `mhz` MHz derived from the system PLL in `n` counts of the tick in progress: it
follows the tick's steering (R16). -/
def State.pllCycles (s : State) (mhz n : Nat) : Nat := n * (mhz * 1000) * 2 ^ 32 / max 1 s.tick.len

/-- CYCLE's accumulator over `n` counts: the core clock runs from the system PLL, or from the RC unsteered (R81, R82, R119). -/
def State.coreAdvance (s : State) (n : Nat) : PowerSt :=
  if !s.coreRuns then s.power
  else if s.coreMHz = 24 then { s.power with cycAcc := s.power.cycAcc + n * 24 * 2 ^ 16 }
  else { s.power with cycAcc := s.power.cycAcc + 250 * s.pllCycles s.coreMHz n }

/-- One count of the time base passes (the model's idle step, log entry 1): 4 ns; while the XO is stopped, one low-power
edge with its 7,629 or 7,630 counts (R103). CYCLE advances while the core runs (R119). -/
def State.passTime (s : State) : State :=
  if s.on SYSC_LPSTAT.PLLRUN && !s.power.xoDead then { s with now := s.now + 1, power := s.coreAdvance 1 }
  else
    let f := s.power.lpFrac + lpStep
    { s with now := s.now + f / 2 ^ 17, power := { s.coreAdvance (f / 2 ^ 17) with lpFrac := f % 2 ^ 17 } }

/-- Counts in a number of microseconds. -/
abbrev us (n : Nat) : Nat := 250 * n

/-- The lane sample of the tick in progress that the Loom writes: exactly 400 a tick, whatever its length (R16, R204). -/
def State.laneSampleNow (s : State) : Nat := min 400 ((s.now - s.tick.startAt) * 400 * 2 ^ 16 / max 1 s.tick.len)

/-! ## Bit helpers -/

/-- Bit `n` of a number. -/
def bitOf (v n : Nat) : Bool := v / 2 ^ n % 2 == 1

/-- A Bool as 0 or 1. -/
def b2n (b : Bool) : Nat := if b then 1 else 0

/-- Division of an integer by a positive one, to the nearest, ties away from zero. -/
def roundDiv (a : Int) (d : Int) : Int :=
  if 0 ≤ a then (2 * a + d) / (2 * d) else -((2 * (-a) + d) / (2 * d))

/-- A state, if the condition holds, else the state unchanged. -/
def State.whenB (s : State) (b : Bool) (f : State → State) : State := if b then f s else s

/-- The ID of a master (chapter 02). -/
def masterId : Master → Nat
  | .coreInstr => 0 | .coreData => 1 | .debug => 2 | .host => 3 | .dict => 4 | .secDma => 5 | .nvm => 6 | .twill => 7
  | .shuttle => 8 | .mac => 9 | .ring => 10 | .evr => 11 | .scrub => 12

/-- The bytes of an access size. -/
def sizeBytes : Size → Nat
  | .b8 => 1 | .b16 => 2 | .b32 => 4 | .b64 => 8

/-- BUS_FINFO.SIZE of an access size. -/
def sizeCode : Size → Nat
  | .b8 => 0 | .b16 => 1 | .b32 => 2 | .b64 => 3

end Sys2Proof.Machine
end

