-- ==== Sys2Proof/Machine/Hash.lean ====
section
/-! DEFINITION. Machine/Hash.lean: SHA-256 (FIPS 180-4) and ECDSA P-256 verification, which R517 names. -/
namespace Sys2Proof.Machine

/-! ## SHA-256 -/

/-- The largest number of at most `b` bits whose `k`-th power does not exceed `v`. -/
def rootOf (k v b : Nat) : Nat :=
  (List.range b).foldl (fun r i =>
    let r' := r + 2 ^ (b - 1 - i)
    if r' ^ k ≤ v then r' else r) 0

/-- The first 64 primes. -/
def primes64 : List Nat := (List.range 312).filter (fun p => decide (2 ≤ p) && (List.range 18).all (fun d => decide (d < 2) || decide (p ≤ d) || p % d != 0))

/-- The first 32 bits of the fraction of the `k`-th root of a number. -/
def rootFrac (k p : Nat) : Word := BitVec.ofNat 32 (rootOf k (p * 2 ^ (32 * k)) 37)

/-- The round constants: from the cube roots of the first 64 primes. -/
def shaK : List Word := primes64.map (rootFrac 3)

/-- The initial hash value: from the square roots of the first 8. -/
def shaInit : List Word := (primes64.take 8).map (rootFrac 2)

/-- A big-endian number. -/
def beNat (l : List Byte) : Nat := l.foldl (fun a b => 256 * a + b.toNat) 0

/-- The `n` bytes of a number, most significant first. -/
def beBytes (n v : Nat) : List Byte := (leBytes n v).reverse

/-- The message, padded. -/
def shaPad (m : List Byte) : List Byte :=
  m ++ [0x80] ++ List.replicate ((119 - m.length % 64) % 64) 0 ++ beBytes 8 (8 * m.length)

/-- The words of the message schedule, newest first, `n` more of them. -/
def shaSchedule : Nat → List Word → List Word
  | 0, w => w
  | n + 1, w =>
    let g (i : Nat) : Word := w.getD i 0
    let s0 := (g 14).rotateRight 7 ^^^ (g 14).rotateRight 18 ^^^ (g 14 >>> 3)
    let s1 := (g 1).rotateRight 17 ^^^ (g 1).rotateRight 19 ^^^ (g 1 >>> 10)
    shaSchedule n ((s1 + g 6 + s0 + g 15) :: w)

/-- One round. -/
def shaRound (v : List Word) (kw : Word × Word) : List Word :=
  match v with
  | [a, b, c, d, e, f, g, h] =>
    let s1 := e.rotateRight 6 ^^^ e.rotateRight 11 ^^^ e.rotateRight 25
    let t1 := h + s1 + ((e &&& f) ^^^ (~~~e &&& g)) + kw.1 + kw.2
    let s0 := a.rotateRight 2 ^^^ a.rotateRight 13 ^^^ a.rotateRight 22
    let t2 := s0 + ((a &&& b) ^^^ (a &&& c) ^^^ (b &&& c))
    [t1 + t2, a, b, c, d + t1, e, f, g]
  | _ => v

/-- The words of a block. -/
def shaWords (b : List Byte) : List Word := (List.range 16).map (fun i => BitVec.ofNat 32 (beNat ((b.drop (4 * i)).take 4)))

/-- One block into the hash value. -/
def shaBlock (h : List Word) (b : List Byte) : List Word :=
  let w := (shaSchedule 48 (shaWords b).reverse).reverse
  (h.zip ((shaK.zip w).foldl shaRound h)).map (fun (x : Word × Word) => x.1 + x.2)

/-- The hash value after `n` blocks. -/
def shaBlocks : Nat → List Byte → List Word → List Word
  | 0, _, h => h
  | n + 1, m, h => shaBlocks n (m.drop 64) (shaBlock h (m.take 64))

/-- SHA-256. -/
def sha256 (m : List Byte) : List Byte :=
  let p := shaPad m
  (shaBlocks (p.length / 64) p shaInit).flatMap (fun w => beBytes 4 w.toNat)

/-! ## P-256 -/

def p256p : Nat := 0xffffffff00000001000000000000000000000000ffffffffffffffffffffffff
def p256n : Nat := 0xffffffff00000000ffffffffffffffffbce6faada7179e84f3b9cac2fc632551
def p256b : Nat := 0x5ac635d8aa3a93e7b3ebbd55769886bc651d06b0cc53b0f63bce3c3e27d2604b
def p256gx : Nat := 0x6b17d1f2e12c4247f8bce6e563a440f277037d812deb33a0f4a13945d898c296
def p256gy : Nat := 0x4fe342e2fe1a7f9b8ee7eb4a7c0f9e162bce33576b315ececbb6406837bf51f5

/-- `a` to the power `e` modulo `m`, over the low `n` bits of `e`. -/
def powMod (m a : Nat) : Nat → Nat → Nat
  | 0, _ => 1 % m
  | n + 1, e =>
    let h := powMod m a n (e / 2)
    let q := h * h % m
    if e % 2 = 1 then q * a % m else q

/-- The inverse modulo a prime. -/
def invMod (m a : Nat) : Nat := powMod m a 256 (m - 2)

/-- A point, none at infinity. -/
abbrev P256Pt := Option (Nat × Nat)

/-- The sum of two points. -/
def p256Add (a b : P256Pt) : P256Pt :=
  match a, b with
  | none, q => q
  | q, none => q
  | some (x1, y1), some (x2, y2) =>
    if x1 = x2 ∧ (y1 + y2) % p256p = 0 then none
    else
      let l := if x1 = x2 then (3 * x1 * x1 + (p256p - 3)) * invMod p256p (2 * y1 % p256p) % p256p
        else (y2 + p256p - y1) * invMod p256p ((x2 + p256p - x1) % p256p) % p256p
      let x := (l * l + 2 * p256p - x1 - x2) % p256p
      some (x, (l * (x1 + p256p - x) + p256p - y1) % p256p)

/-- A multiple of a point, by the low `n` bits of the factor. -/
def p256Mul (q : P256Pt) : Nat → Nat → P256Pt
  | 0, _ => none
  | n + 1, k =>
    let h := p256Mul q n (k / 2)
    let d := p256Add h h
    if k % 2 = 1 then p256Add d q else d

/-- The coordinates lie on the curve. -/
def p256On (x y : Nat) : Bool :=
  decide (x < p256p) && decide (y < p256p) && decide (y * y % p256p = (x * x * x + (p256p - 3) * x + p256b) % p256p)

/-- ECDSA verification of a signature over a digest under a public point. -/
def ecdsaOk (x y r s z : Nat) : Bool :=
  p256On x y && decide (0 < r) && decide (r < p256n) && decide (0 < s) && decide (s < p256n) &&
    (let w := invMod p256n s
     match p256Add (p256Mul (some (p256gx, p256gy)) 256 (z * w % p256n)) (p256Mul (some (x, y)) 256 (r * w % p256n)) with
     | some (v, _) => decide (v % p256n = r)
     | none => false)

end Sys2Proof.Machine
end

