-- ==== Sys2Proof/Machine/DictSess.lean ====
section
/-! DEFINITION. Machine/DictSess.lean: the sessions of the object dictionary (R455). -/
namespace Sys2Proof.Machine

/-- The dictionary engine changed. -/
def State.modDict (s : State) (f : DictSt → DictSt) : State := { s with dict := f s.dict }

/-- A session; one that is not kept is fresh. -/
def State.sess (s : State) (q : Sess) : Session := ((s.dict.sessions.find? (fun e => e.1 == q)).map (·.2)).getD {}

/-- A session changed. -/
def modSess (q : Sess) (f : Session → Session) (s : State) : State :=
  s.modDict (fun d => { d with sessions := (q, f (s.sess q)) :: d.sessions.filter (fun e => e.1 != q) })

/-- R455: an event ends the open transaction of sessions and discards their kept responses. -/
def endSess (p : Sess → Bool) (s : State) : State :=
  s.modDict (fun d => { d with sessions := d.sessions.map (fun e =>
    if p e.1 then (e.1, { e.2 with trans := none, expired := false, kept := none, keptEnv := [] }) else e) })

/-- The session is one of the ring. -/
def ringSess : Sess → Bool
  | .ring _ => true
  | _ => false

/-- The session is one of a mesh key. -/
def meshSess : Sess → Bool
  | .mesh _ => true
  | _ => false

/-- Buffers in use: open transactions, COMMITs that run or wait, snapshots (R463). -/
def State.dictUsed (s : State) : Nat :=
  (s.dict.sessions.map (fun e => b2n e.2.trans.isSome + b2n e.2.snap.isSome)).sum + s.dict.queue.length
    + b2n s.dict.run.isSome + (s.dict.reads.filter (fun r => r.req.svc == 6)).length

/-- Open transactions (0x1F00:01). -/
def State.dictOpen (s : State) : Nat := (s.dict.sessions.filter (fun e => e.2.trans.isSome)).length + s.dict.queue.length + b2n s.dict.run.isSome

/-- The store cannot be used: disabled, or in a bank whose data regions are read-only (R475). -/
def State.noStore (s : State) : Bool :=
  !(s.on DICT_STORE.EN) || (if s.on DICT_STORE.BANK then s.nvm.bank1.free.isEmpty else s.nvm.bank0.free.isEmpty)

/-- DICT_STAT. HOLD and APPLY read 0: what they cover happens within one step (log entry 34). -/
def State.dictStat (s : State) : Word :=
  let w := s.reg Reg.DICT_STAT
  let w := DICT_STAT.NOSTORE.into w (b2n (s.on DICT_CTRL.EN && s.noStore))
  let w := DICT_STAT.CBUSY.into w (b2n s.dict.run.isSome)
  let w := DICT_STAT.OPEN.into w s.dictOpen
  DICT_STAT.FREE.into w (if s.on DICT_CTRL.EN && s.on DICT_BUFBASE.EN then 8 - s.dictUsed else 0)

end Sys2Proof.Machine
end

