-- ==== Sys2Proof/Machine/Intc.lean ====
section
/-! DEFINITION. Machine/Intc.lean: the interrupt lines (R20, R137): a line is pending while its source's enabled flag is
set. INTC_PENDk shows them. -/
namespace Sys2Proof.Machine

/-- A flag register with an enable register of the same layout: some enabled flag is set. -/
def State.anyIrq (s : State) (irq en : Nat) : Bool := (s.reg irq &&& s.reg en) != 0

/-- The same within the bits `lo` to `hi`. -/
def State.anyIrqBits (s : State) (irq en lo hi : Nat) : Bool :=
  ((s.reg irq &&& s.reg en).toNat / 2 ^ lo) % 2 ^ (hi + 1 - lo) != 0

/-- R375: timer `n` is the upper one of a linked pair, whose lines only the lower one drives. -/
def State.upperLinked (s : State) (n : Nat) : Bool := n % 2 == 1 && (s.tmr[n - 1]?.getD {}).link

/-- R20, R137: line `n` of the interrupt controller is pending, whether enabled or not. Reserved lines never are. That line 5
follows the fault that BUS_FINFO holds, where another master than the core made it, is the model's choice (log entry 43). -/
def State.linePending (s : State) (n : Nat) : Bool :=
  match n with
  | 0 => s.on SYSC_IRQ.TICK && s.on SYSC_IRQEN.TICK
  | 1 => s.on SYSC_TICKSTAT.RETIME && s.on SYSC_IRQEN.RETIME
  | 2 => s.on SYSC_SUPSTAT.BOW && s.on SYSC_SUPCFG.BOWIE
  | 3 => (s.on SYSC_CLKSTAT.XOFAIL || s.on SYSC_CLKSTAT.XTFAIL) && s.on SYSC_IRQEN.CLK
  | 4 => (s.on SYSC_GCOMMIT.DONE || s.on SYSC_GCOMMIT.REJ || s.on SYSC_GCOMMIT.OVR) && s.on SYSC_IRQEN.GCOMMIT
  | 5 => s.on BUS_FINFO.VALID && decide (1 < s.get BUS_FINFO.MASTER)
  | 8 => s.anyIrqBits (Reg.TMR_STAT 0) (Reg.TMR_IEN 0) 0 5
  | 9 => !(s.upperLinked 1) && s.anyIrqBits (Reg.TMR_STAT 1) (Reg.TMR_IEN 1) 0 5
  | 10 => s.anyIrqBits (Reg.TMR_STAT 2) (Reg.TMR_IEN 2) 0 5
  | 11 => !(s.upperLinked 3) && s.anyIrqBits (Reg.TMR_STAT 3) (Reg.TMR_IEN 3) 0 5
  | 12 => s.anyIrqBits (Reg.TMR_STAT 4) (Reg.TMR_IEN 4) 0 5
  | 13 => !(s.upperLinked 5) && s.anyIrqBits (Reg.TMR_STAT 5) (Reg.TMR_IEN 5) 0 5
  | 14 => s.anyIrqBits (Reg.TMR_STAT 6) (Reg.TMR_IEN 6) 0 5
  | 15 => !(s.upperLinked 7) && s.anyIrqBits (Reg.TMR_STAT 7) (Reg.TMR_IEN 7) 0 5
  | 16 => s.anyIrqBits Reg.TIME_IRQ Reg.TIME_IRQEN 0 7
  | 17 => s.anyIrqBits Reg.TIME_IRQ Reg.TIME_IRQEN 8 16
  | 18 => s.anyIrqBits Reg.TIME_IRQ Reg.TIME_IRQEN 24 28
  | 19 => s.on TIME_COMMIT.DONE || s.on TIME_COMMIT.REJ
  | 20 => s.anyIrq Reg.RTC_IRQ Reg.RTC_IRQEN
  | 21 => s.anyIrq Reg.MSU_IRQ Reg.MSU_IRQEN
  | 22 => s.anyIrq Reg.NVM_IRQ Reg.NVM_IRQEN
  | 23 => s.anyIrq Reg.SPIM_IRQ Reg.SPIM_IRQEN
  | 24 => s.anyIrq Reg.SPIS_IRQ Reg.SPIS_IRQEN
  | 25 => s.anyIrq Reg.GPIO_IRQ Reg.GPIO_IRQEN
  | 26 => s.anyIrq Reg.SEC_IRQ Reg.SEC_IRQEN
  | 27 => s.on SEC_ALMSTAT.LATCHED
  | 28 => s.anyIrq Reg.TBL_IRQ Reg.TBL_IRQEN
  | 29 => s.anyIrq Reg.EVR_IRQ Reg.EVR_IRQEN
  | 30 => s.anyIrq Reg.DICT_IRQ Reg.DICT_IRQEN
  | 32 => s.anyIrq Reg.RFRX_IRQ Reg.RFRX_IRQEN
  | 33 => s.anyIrq Reg.RFTX_IRQ Reg.RFTX_IRQEN
  | 34 => s.anyIrq Reg.LOOM_IRQ Reg.LOOM_IRQEN
  | 35 => s.on LOOM_COMMIT.DONE || s.on LOOM_COMMIT.REJ
  | 36 => s.anyIrq Reg.SHTL_IRQ Reg.SHTL_IRQEN
  | 37 => s.on SHTL_COMMIT.DONE || s.on SHTL_COMMIT.REJ
  | 38 => s.shtl.eng.toList.any (fun e => e.flt)
  | 39 => s.anyIrqBits Reg.MAC_IRQ Reg.MAC_IRQEN 0 3
  | 40 => s.anyIrqBits Reg.MAC_IRQ Reg.MAC_IRQEN 4 7
  | 41 => s.anyIrqBits Reg.MAC_IRQ Reg.MAC_IRQEN 8 15
  | 42 => s.on MAC_COMMIT.DONE || s.on MAC_COMMIT.REJ
  | 43 => s.anyIrq Reg.ZEPH_IRQ Reg.ZEPH_IRQEN
  | 48 => s.anyIrq Reg.RING_IRQ Reg.RING_IRQEN
  | 49 => s.on RING_COMMIT.DONE || s.on RING_COMMIT.REJ
  | 50 => s.anyIrq Reg.TWIL_IRQ Reg.TWIL_IRQEN
  | 56 => s.core.swLines.getLsbD 0
  | 57 => s.core.swLines.getLsbD 1
  | 58 => s.core.swLines.getLsbD 2
  | 59 => s.core.swLines.getLsbD 3
  | 60 => s.core.swLines.getLsbD 4
  | 61 => s.core.swLines.getLsbD 5
  | 62 => s.core.swLines.getLsbD 6
  | 63 => s.core.swLines.getLsbD 7
  | _ => false

/-- INTC_ENk: line `n` is enabled. -/
def State.lineEnabled (s : State) (n : Nat) : Bool := bitOf (s.reg (Reg.INTC_EN (n / 32))).toNat (n % 32)

/-- INTC_PRIOk: the priority of line `n`, 0 to 7. -/
def State.linePrio (s : State) (n : Nat) : Nat := (s.reg (Reg.INTC_PRIO (n / 8))).toNat / 16 ^ (n % 8) % 8

/-- The word of INTC_PENDk. -/
def State.pendWord (s : State) (k : Nat) : Word :=
  BitVec.ofNat 32 ((List.range 32).foldl (fun v n => if s.linePending (32 * k + n) then v + 2 ^ n else v) 0)

/-- Some enabled line is pending, whatever its priority (R100: ends idle). -/
def State.anyEnabledLine (s : State) : Bool := (List.range 64).any (fun n => s.lineEnabled n && s.linePending n)

/-- R135: the line to take at a bundle boundary: enabled, pending, priority above the threshold `thr`; the highest
priority, then the lowest number. -/
def State.lineToTake (s : State) (thr : Nat) : Option Nat :=
  (List.range 64).foldl (fun b n =>
    if s.lineEnabled n && s.linePending n && decide (thr < s.linePrio n) then
      match b with
      | none => some n
      | some m => if s.linePrio m < s.linePrio n then some n else some m
    else b) none

/-- R137: a write of INTC_SW: SET wins over CLR on the same line. -/
def swLineWrite (set clr : BitVec 8) (s : State) : State :=
  { s with core := { s.core with swLines := (s.core.swLines &&& ~~~clr) ||| set } }

end Sys2Proof.Machine
end

