-- ==== Sys2Proof/Machine/Bus.lean ====
section
/-! DEFINITION. Machine/Bus.lean: bus accesses (chapter 02): windows, size and decode errors, off accesses, their capture,
hold registers, and reads and writes of the memories. -/
namespace Sys2Proof.Machine

/-- BUS_FINFO.CAUSE. -/
inductive BusCause where
  | off | decode | size
  deriving DecidableEq, Repr

/-- One access. -/
structure Access where
  m : Master
  addr : Nat
  size : Size
  write : Bool
  deriving DecidableEq, Repr

/-- The cause's code in BUS_FINFO. -/
def causeCode : BusCause → Nat
  | .off => 0 | .decode => 1 | .size => 2

/-- A fault raised by a master that is the control core. -/
def isCore : Master → Bool
  | .coreInstr | .coreData => true
  | _ => false

/-- R51, R52: the first fault since VALID was cleared is captured. A write by the core is reported after the store has
retired, IMPRECISE = 1 (log entry 6). -/
def captureFault (c : BusCause) (x : Access) (s : State) : State :=
  if s.on BUS_FINFO.VALID then s else
    let s := s.setReg Reg.BUS_FADDR (BitVec.ofNat 32 x.addr)
    s.setReg Reg.BUS_FINFO (BitVec.ofNat 32
      (2 ^ 31 + 2 ^ 10 * sizeCode x.size + 2 ^ 9 * (b2n (x.write && isCore x.m)) + 2 ^ 8 * b2n x.write
        + 2 ^ 6 * causeCode c + masterId x.m))

/-- R38: a decode error sets DECERR and is captured. -/
def decodeError (x : Access) (s : State) : State := captureFault .decode x (s.put BUS_STAT.DECERR 1)

/-- R44: a size error sets SIZEERR and is captured. -/
def sizeError (x : Access) (s : State) : State := captureFault .size x (s.put BUS_STAT.SIZEERR 1)

/-- BUS_OFFINFO.DOMAIN of an off access: 0 for a gated clock in a powered domain. -/
def offDomainCode (s : State) (a : Nat) : Nat :=
  if s.domainOn (domainOf a) then 0
  else match domainOf a with
    | .core => 1 | .radio => 2 | .ring => 3 | .msu => 4 | .aon => 0

/-- R300: the XTS region that covers an address of NVM or of the XIP window: the first active one, in order 0 to 3. -/
def State.xtsRegion (s : State) (a : Nat) : Option Nat :=
  if regionOf a == .nvm || regionOf a == .xip then
    (List.range 4).find? (fun n => s.on (SEC_XTSA.EN n) && decide (s.get (SEC_XTSA.BASE n) ≤ a / 4096)
      && decide (a / 4096 ≤ s.get (SEC_XTSB.LIMIT n)))
  else none

/-- R298: the keys of a region's slot pair: both slots valid, both with STORE, of one size; else none. -/
def State.xtsKeys (s : State) (n : Nat) : Option (List Byte × List Byte) :=
  let p := s.get (SEC_XTSA.PAIR n)
  let k1 := s.sec.slots[2 * p]?.getD {}
  let k2 := s.sec.slots[2 * p + 1]?.getD {}
  if k1.valid && k2.valid && k1.use.getLsbD 2 && k2.use.getLsbD 2 && k1.wide == k2.wide then some (k1.key, k2.key) else none

/-- R48, R312: does an access to `a` find its domain switched off or its block's clock gated? An XTS region depends on the
SEC clock too. -/
def State.isOff (s : State) (a : Nat) : Bool :=
  !(s.domainOn (domainOf a)) || !(s.gateOpen (gateOfAddr a))
    || ((s.xtsRegion a).isSome && !(s.on SYSC_CLKGATE.SEC))

/-- R300: the address lies in an XTS region whose pair is not usable. -/
def State.xtsUnusable (s : State) (a : Nat) : Bool :=
  match s.xtsRegion a with
  | some n => (s.xtsKeys n).isNone
  | none => false

/-- R50: a debug-port off access is silent unless DBG_FLAG = 1. -/
def State.offSilent (s : State) (m : Master) : Bool := m == .debug && !(s.on BUS_CTRL.DBG_FLAG)

/-- R48: an off access sets OFFACC, counts, is captured when OFFACC was clear, and faults when OFFACC_FAULT = 1. -/
def offAccess (x : Access) (s : State) : State :=
  if s.offSilent x.m then s else
    let first := !(s.on BUS_STAT.OFFACC)
    let s1 := if first then
        (s.setReg Reg.BUS_OFFADDR (BitVec.ofNat 32 x.addr)).setReg Reg.BUS_OFFINFO
          (BitVec.ofNat 32 (2 ^ 8 * offDomainCode s x.addr + 2 ^ 4 * b2n x.write + masterId x.m))
      else s
    let s2 := (s1.put BUS_STAT.OFFACC 1).sat BUS_STAT.OFFCNT
    if s.on BUS_CTRL.OFFACC_FAULT then captureFault .off x s2 else s2

/-- Does an off access by this master raise a fault? -/
def State.offFaults (s : State) (m : Master) : Bool := !(s.offSilent m) && s.on BUS_CTRL.OFFACC_FAULT

/-- The SEC operand registers (R54, R303). -/
def isSecOperand (a : Nat) : Bool := decide (0x4000C400 ≤ a) && decide (a < 0x4000C500)

/-- R39, R54: the window of a master; the instruction side fetches from five regions only. -/
def inWindow (s : State) (x : Access) : Bool :=
  let r := regionOf x.addr
  let b := blockOf x.addr
  match x.m with
  | .coreInstr => !x.write && (r == .rom || r == .nvm || r == .xip || r == .sram || r == .retention)
  | .coreData => true
  | .debug => !s.power.debugLocked
  | .host => r == .sram || (r == .regs && b == 10)
  | .dict => r == .sram || (r == .nvm && !x.write) || (r == .table && !x.write) || (r == .regs && !(isSecOperand x.addr))
  | .secDma => r == .sram || r == .nvm || r == .xip
  | .nvm => r == .nvm || r == .otp || r == .sram
  | .twill => r == .sram || (r == .table && !x.write) || (r == .regs && b == 24)
      || (x.addr == Reg.TIME_CORR_LO || x.addr == Reg.TIME_CORR_HI || x.addr == Reg.TIME_CMD)
  | .mac => r == .sram || (r == .table && !x.write) || (r == .regs && b == 21)
      || (x.write && (x.addr == Reg.SYSC_TWAKE_LO || x.addr == Reg.SYSC_TWAKE_HI))
  | .ring => r == .sram || (r == .table && !x.write) || (r == .regs && b == 23)
  | .evr => r == .sram || r == .nvm || (r == .regs && !x.write && !(isSecOperand x.addr))
  | .shuttle => r == .sram
  | .scrub => r == .sram || r == .retention || r == .table || r == .ctxPool

/-- R38, R143, R394: a write that the region does not take. -/
def writeForbidden (s : State) (r : Region) : Bool :=
  match r with
  | .rom | .laneBuf | .table | .nvm | .otp => true
  | .weftProg => !(s.on SHTL_CTRL.HALT && s.shtl.eng.toList.all (fun e => e.st != .running))
  | _ => false

/-- R410: the select and the memory address of a window offset; none for a disabled select, too long an address, or a port
that is off (R409). -/
def State.xipTarget (s : State) (off : Nat) : Option (Nat × Nat) :=
  let split := 1048576 * (min 64 (s.get SPIM_MAP.SPLIT))
  let t : Nat × Nat := if off < split then (0, off) else (1, off - split)
  if s.on SPIM_CFG.EN && (t.1 == 0 || s.on SPIM_CFG.CS1EN) && (s.on (SPIM_RD.ADDR4 t.1) || decide (t.2 < 2 ^ 24)) then some t else none

/-- PAGE of a select in bytes. -/
def State.xipPage (s : State) (sel : Nat) : Nat :=
  let p := s.get (SPIM_WR.PAGE sel)
  if p = 1 then 512 else if p = 2 then 1024 else 256

/-- R409, R410, R413: the window answers the access as a decode error. -/
def State.xipBad (s : State) (x : Access) : Bool :=
  match s.xipTarget (x.addr - 0x10000000) with
  | none => true
  | some (sel, o) => x.write && decide (s.xipPage sel < o % s.xipPage sel + sizeBytes x.size)

/-- How the bus answers an access before any target acts: none when the target takes it. The window, the region, the
size test, the domain and clock test, then what the region refuses (R38, R44, R48, R54). A refused read changes no RC
field and no hold register (R45). The spec does not order these tests: that a window or map error goes before a size error,
and an off access before a forbidden write, is the model's choice (log entry 43). -/
def busRefusal (s : State) (x : Access) : Option BusCause :=
  let r := regionOf x.addr
  if r == .none || !(inWindow s x) then some .decode
  else if r == .regs && (x.size != .b32 || x.addr % 4 != 0) then some .size
  else if x.addr % sizeBytes x.size != 0 then some .size
  else if s.isOff x.addr then some .off
  else if s.xtsUnusable x.addr || (x.write && writeForbidden s r) || (r == .xip && s.xipBad x) then some .decode
  else none

/-- The state after the bus has refused an access, and whether that raises a fault. -/
def refuse (c : BusCause) (x : Access) (s : State) : State :=
  match c with
  | .decode => decodeError x s
  | .size => sizeError x s
  | .off => offAccess x s

/-- Does a refusal raise a fault (R51)? -/
def faults (c : BusCause) (x : Access) (s : State) : Bool :=
  match c with
  | .decode | .size => true
  | .off => s.offFaults x.m

/-! ## Hold registers (R46, R47) -/

/-- The key of a hold register: per master and per block. -/
def holdKey (m : Master) (a : Nat) : Nat := 32 * masterId m + blockOf a

/-- R46: the latched high word that a read of _HI returns, 0 when nothing has been latched. -/
def State.readHold (s : State) (m : Master) (a : Nat) : Word := Sparse.get (fun _ => 0#32) s.bus.readHold (holdKey m a)

/-- R46: a read of _LO latches the high word. -/
def State.latchHi (s : State) (m : Master) (a : Nat) (hi : Word) : State :=
  { s with bus := { s.bus with readHold := Sparse.set (fun _ => 0#32) s.bus.readHold (holdKey m a) hi } }

/-- R47: the write-hold, 0 when no _HI write has come since the last transfer. -/
def State.writeHold (s : State) (m : Master) (a : Nat) : Word := Sparse.get (fun _ => 0#32) s.bus.writeHold (holdKey m a)

/-- R47: a write of _HI loads the write-hold; a transfer empties it (writes 0). -/
def State.setWriteHold (s : State) (m : Master) (a : Nat) (hi : Word) : State :=
  { s with bus := { s.bus with writeHold := Sparse.set (fun _ => 0#32) s.bus.writeHold (holdKey m a) hi } }

/-! ## Memory accesses of the engines -/

/-- The pieces of the `n` bytes from `a` that lie in one 32-byte unit each. -/
def pieces (a n : Nat) : List (Nat × Nat) :=
  (List.range ((a % 32 + n + 31) / 32)).map (fun i =>
    let lo := max a (a / 32 * 32 + 32 * i)
    (lo, min (a + n) (a / 32 * 32 + 32 * i + 32) - lo))

/-- The first access that the bus refuses of those over the `n` bytes from `a`, of size `sz` in each unit, with its cause. -/
def engineRefusal (m : Master) (a n : Nat) (sz : Size) (w : Bool) (s : State) : Option (BusCause × Access) :=
  (pieces a n).findSome? (fun p => (busRefusal s ⟨m, p.1, sz, w⟩).map (fun c => (c, ⟨m, p.1, sz, w⟩)))

/-- R48, R51, R54: an engine's accesses over `n` bytes: a refusal is recorded; true when the bus takes them all. -/
def engineAccess (m : Master) (a n : Nat) (sz : Size) (w : Bool) (s : State) : State × Bool :=
  match engineRefusal m a n sz w s with
  | some (c, x) => (refuse c x s, false)
  | none => (s, true)

/-- An engine writes bytes to memory as one access of `sz` at `a`; refused, nothing is written. -/
def memWrite (m : Master) (a : Nat) (sz : Size) (v : Nat) (s : State) : State × Bool :=
  let x : Access := ⟨m, a, sz, true⟩
  match busRefusal s x with
  | some c => (refuse c x s, false)
  | none => (s.wn a (sizeBytes sz) v, true)

end Sys2Proof.Machine
end

