-- ==== Sys2Proof/Machine/NetTime.lean ====
section
/-! DEFINITION. Machine/NetTime.lean: network time as a function of the count (R11, R329), its base pair and the slew. -/
namespace Sys2Proof.Machine

/-- The scale of the base pair: `bnt` counts units of 2^−32 s / 64·10^15, in which one count adds a whole number. -/
def ntQ : Int := 64000000000000000

/-- R329: what one count adds to network time, in the unit of `bnt`: 4 ns × (1 + ADJ + SL). -/
def State.ntRate (s : State) : Int := 2 ^ 40 * 1000000 + 1000000 * s.getI TIME_ADJ.ADJ + 2 ^ 40 * s.time.sl

/-- R334: what the slew in force has given network time from BC to the count `c`, in the unit of `bnt`: no more than its
remaining amount. -/
def State.slewPart (s : State) (c : Int) : Int :=
  let x := (c - (s.time.bc : Int)) * (2 ^ 40 * s.time.sl)
  if 0 ≤ s.time.sl then min x (max 0 s.time.slewA) else max x (min 0 s.time.slewA)

/-- Network time at a count in the unit of `bnt`, exact, under the present rates. -/
def State.ntUnits (s : State) (c : Int) : Int :=
  s.time.bnt + (c - (s.time.bc : Int)) * (2 ^ 40 * 1000000 + 1000000 * s.getI TIME_ADJ.ADJ) + s.slewPart c

/-- Network time at the present count in the unit of `bnt`, exact. -/
def State.ntExact (s : State) : Int := s.ntUnits s.now

/-- R329: network time at the present count, 32.32 seconds, modulo 2^64, its fraction cut off. -/
def State.nt (s : State) : Nat := (s.ntExact.fdiv ntQ % 2 ^ 64).toNat

/-- What TIME_NOW reads: network time, 0 while VALID = 0 (R330). -/
def State.ntRead (s : State) : Nat := if s.time.valid then s.nt else 0

/-- R11: the signed 64-bit difference of two network times. -/
def ntDiff (a b : Nat) : Int := signedOf 64 (wrapInt 64 ((a : Int) - (b : Int)))

/-- The slew remaining at the present count, in the unit of `bnt` (R334). -/
def State.slewLeft (s : State) : Int := s.time.slewA - s.slewPart s.now

/-- The slew applied since `slewMark` was set to the remainder, in the unit of `bnt`. -/
def State.slewDone (s : State) : Int := s.time.slewMark - s.slewLeft

/-- R329: re-basing: BC takes the present count, BNT network time and the slew its remainder under the old values. -/
def State.rebase (s : State) : State :=
  { s with time := { s.time with bc := s.now, bnt := s.ntExact, slewA := s.slewLeft } }

/-- Whole milliseconds of network time. -/
def State.ntMs (s : State) : Nat := 1000 * s.nt / 2 ^ 32

/-- R16: the alignment error at the present count: boundary time minus the nearest whole millisecond, in counts. -/
def State.alignErr (s : State) : Int :=
  let r : Int := (1000 * s.nt % 2 ^ 32 : Nat)
  let e := if r < 2 ^ 31 then r else r - 2 ^ 32
  (250000 * e).tdiv (2 ^ 32)

/-- R16: the length of a tick that starts with the alignment error `e`, in 2^−16 counts: it follows the rate of network time,
slews the error by at most 100 ns, and stays within 150 ppm of nominal. -/
def State.steered (s : State) (e : Int) : Nat :=
  let follow := (ntQ * 2 ^ 48 / 1000) / s.ntRate
  (clampInt (16384000000 - 2457600) (16384000000 + 2457600) (follow - 65536 * clampInt (-25) 25 e)).toNat

/-- R18: while network time is not valid the tick runs free: FREE = 1, and ALIGN_ERR and SLEW read 0. -/
def ticksFree (s : State) : State := ((s.put SYSC_TICKSTAT.FREE 1).put SYSC_TICKSTAT.ALIGN_ERR 0).put SYSC_TICKSTAT.SLEW 0

/-- The whole millisecond of network time nearest to the present count. -/
def State.nearestMs (s : State) : Nat := (1000 * s.nt + 2 ^ 31) / 2 ^ 32

/-- Counts in the unit of `bnt` at nominal rate: for the schedule offset, which counts 4 ns (R274). -/
def countsOfNt (x : Int) : Int := x.tdiv (2 ^ 40 * 1000000)

/-- Nanoseconds of a time in the unit of `bnt`. -/
def nsOfNt (x : Int) : Int := (x * 4).tdiv (2 ^ 40 * 1000000)

end Sys2Proof.Machine
end

