-- ==== Sys2Proof/Machine/Captures.lean ====
section
/-! DEFINITION. Machine/Captures.lean: the capture units of the time block (R346, R347). -/
namespace Sys2Proof.Machine

/-- R346: network time that a count gives under the present state, 0 while VALID = 0. -/
def State.ntAt (s : State) (count : Nat) : Nat :=
  if s.time.valid then ((s.ntUnits count).fdiv ntQ % 2 ^ 64).toNat else 0

/-- The head entry of capture unit `n` shows in its registers, LEVEL and LANE follow the queue (R346). -/
def showCaps (n : Fin 8) (q : List CapEntry) (s : State) : State :=
  let h : CapEntry := q.head?.getD ⟨0, 0, 0⟩
  let s := { s with time := { s.time with caps := s.time.caps.set n q } }
  let s := (s.put (TIME_CAPCFG.LEVEL n) q.length).put (TIME_CAPCFG.LANE n) h.lane
  let s := (s.setReg (Reg.TIME_CAPC_LO n) (BitVec.ofNat 32 h.count)).setReg (Reg.TIME_CAPC_HI n) (BitVec.ofNat 32 (h.count / 2 ^ 32))
  (s.setReg (Reg.TIME_CAPNT_LO n) (BitVec.ofNat 32 h.nt)).setReg (Reg.TIME_CAPNT_HI n) (BitVec.ofNat 32 (h.nt / 2 ^ 32))

/-- R346: unit `n` takes an event: an entry, or a drop with OVF, CAPOVF counted and flagged when 4 wait. -/
def capEvent (n : Fin 8) (count lane : Nat) (s : State) : State :=
  let q := s.time.caps[n]
  if 4 ≤ q.length then ((s.put (TIME_CAPCFG.OVF n) 1).sat TIME_ERRCNT.CAPOVF).put TIME_IRQ.CAPOVF 1
  else (showCaps n (q ++ [⟨count, s.ntAt count, lane⟩]) s).setReg Reg.TIME_IRQ
    (s.reg Reg.TIME_IRQ ||| BitVec.ofNat 32 (2 ^ (8 + n.val)))

/-- The capture units. -/
def capUnits : List (Fin 8) := List.finRange 8

/-- The edge of a kind is one that a unit's EDGE takes: 1 rising, 2 falling, 3 both. -/
def edgeTaken (edge : Nat) (rising : Bool) : Bool := if rising then bitOf edge 0 else bitOf edge 1

/-- R346: unit `n` has recorded no edge in the last 8 ns. -/
def State.capFree (s : State) (n : Fin 8) : Bool := (s.time.capAt[n]).all (fun c => decide (c + 2 ≤ s.now))

/-- R346: an edge on source code `src` reaches every enabled unit that takes it, while the CORE clocks run; one within 8 ns
of the last that the unit recorded is lost. -/
def capEdge (src : Nat) (rising : Bool) (s : State) : State :=
  if !s.clocked then s
  else capUnits.foldl (fun s (n : Fin 8) =>
    if s.on (TIME_CAPCFG.EN n) && s.get (TIME_CAPCFG.SRC n) == src && edgeTaken (s.get (TIME_CAPCFG.EDGE n)) rising
        && s.capFree n then
      capEvent n s.now 0 { s with time := { s.time with capAt := s.time.capAt.set n (some s.now) } }
    else s) s

/-- R347: the sentinel of the channel at `lane` signals an SFD whose end was at `count`; EDGE is ignored. -/
def capSfd (lane count : Nat) (s : State) : State :=
  if !s.clocked then s
  else capUnits.foldl (fun s (n : Fin 8) =>
    if s.on (TIME_CAPCFG.EN n) && (s.get (TIME_CAPCFG.SRC n) == 0x40 + lane || s.get (TIME_CAPCFG.SRC n) == 0xFF) then
      capEvent n count lane s
    else s) s

/-- R346: POP removes the head entry; on an empty queue it is ignored. -/
def capPop (n : Fin 8) (s : State) : State :=
  match s.time.caps[n] with
  | [] => s
  | _ :: q => showCaps n q s

/-- R346: a write of TIME_CAPCFGn: a change of SRC or EDGE empties the queue; POP removes the head. -/
def capCfgWrite (n : Fin 8) (d : Word) (s : State) : State :=
  let old := (s.get (TIME_CAPCFG.SRC n), s.get (TIME_CAPCFG.EDGE n))
  let s := s.plainWrite (Reg.TIME_CAPCFG n) d
  let s := if (s.get (TIME_CAPCFG.SRC n), s.get (TIME_CAPCFG.EDGE n)) = old then s else showCaps n [] s
  if d.getLsbD 30 then capPop n s else s

end Sys2Proof.Machine
end

