-- ==== Sys2Proof/Machine/Timer.lean ====
section
/-! DEFINITION. Machine/Timer.lean: the timers (chapter 17) beside their rows: count cycle, matches, captures, linked pairs. -/
namespace Sys2Proof.Machine

/-- A timer's state. -/
def State.tm (s : State) (n : Fin 8) : TmrSt := s.tmr[n]

/-- The state with a timer's state changed. -/
def State.modTm (s : State) (n : Fin 8) (f : TmrSt → TmrSt) : State := { s with tmr := s.tmr.set n (f s.tmr[n]) }

/-- The even timer of a pair. -/
def pairLo (n : Fin 8) : Fin 8 := ⟨n.val / 2 * 2, by omega⟩

/-- The odd timer of a pair. -/
def pairHi (n : Fin 8) : Fin 8 := ⟨n.val / 2 * 2 + 1, by omega⟩

/-- R375: the timer's pair is linked, as taken at the last enable of its even timer. -/
def State.linked (s : State) (n : Fin 8) : Bool := (s.tm (pairLo n)).link

/-- R375: the timer that a timer's count, fields and queue belong to. -/
def State.tmHead (s : State) (n : Fin 8) : Fin 8 := if s.linked n then pairLo n else n

/-- A value of the timer: the 64 bits of a linked pair, else its own 32. -/
def State.tmVal (s : State) (n : Fin 8) (r : Nat → Nat) : Nat :=
  if s.linked n then (s.reg (r (pairLo n))).toNat + 2 ^ 32 * ((s.reg (r (pairHi n))).toNat) else (s.reg (r n)).toNat

/-- The state with a value of the timer written. -/
def State.setTmVal (s : State) (n : Fin 8) (r : Nat → Nat) (v : Nat) : State :=
  if s.linked n then
    (s.setReg (r (pairLo n)) (BitVec.ofNat 32 v)).setReg (r (pairHi n)) (BitVec.ofNat 32 (v / 2 ^ 32))
  else s.setReg (r n) (BitVec.ofNat 32 v)

/-- The largest count. -/
def State.tmTop (s : State) (n : Fin 8) : Nat := if s.linked n then 2 ^ 64 - 1 else 2 ^ 32 - 1

/-- The timers' clock runs (R368): the CORE clocks and SYSC_CLKGATE.TMR. -/
def State.tmClocked (s : State) : Bool := s.clocked && s.on SYSC_CLKGATE.TMR

/-- STAT.LEVEL, STAT.CAP and the head in TMR_CAP follow the queue (R373, R376). -/
def showTmCaps (n : Fin 8) (q : List Nat) (s : State) : State :=
  let s := s.modTm n (fun t => { t with caps := q })
  let s := (s.put (TMR_STAT.LEVEL n) q.length).put (TMR_STAT.CAP n) (if q = [] then 0 else 1)
  let h := q.headD 0
  let s := s.setReg (Reg.TMR_CAP n) (BitVec.ofNat 32 h)
  if s.linked n then s.setReg (Reg.TMR_CAP (pairHi n)) (BitVec.ofNat 32 (h / 2 ^ 32)) else s

/-- R373: the count is captured; a full queue drops the edge with CAPOVF and OVFCNT. -/
def tmCapture (n : Fin 8) (s : State) : State :=
  let n := s.tmHead n
  let q := (s.tm n).caps
  if 4 ≤ q.length then (s.put (TMR_STAT.CAPOVF n) 1).sat (TMR_STAT.OVFCNT n)
  else showTmCaps n (q ++ [s.tmVal n Reg.TMR_COUNT]) s

/-- R373: a read of TMR_CAP removes the head entry. -/
def tmCapRead (n : Fin 8) (s : State) : State :=
  let n := s.tmHead n
  match (s.tm n).caps with
  | [] => s
  | _ :: q => showTmCaps n q s

/-- R370: a restart: count and prescaler 0, no match, no reload event. -/
def tmRestart (n : Fin 8) (s : State) : State :=
  let n := s.tmHead n
  (s.setTmVal n Reg.TMR_COUNT 0).modTm n (fun t => { t with presc := 0 })

/-- R374: a synchronisation event acts as SYNC selects. -/
def tmSync (n : Fin 8) (s : State) : State :=
  let n := s.tmHead n
  if !s.tmClocked then s
  else if s.get (TMR_CTRL.SYNC n) = 1 then tmRestart n s
  else if s.get (TMR_CTRL.SYNC n) = 2 then tmCapture n s
  else s

/-- R373, R375: an edge on a timer's capture source; a linked pair captures on timer 2p's source. `line` is the
event-matrix line, none for the pin GP(2n + 1). -/
def tmCapEdge (line : Option Nat) (pinTimer : Nat) (rising : Bool) (s : State) : State :=
  (List.finRange 8).foldl (fun s (n : Fin 8) =>
    let mine := match line with
      | some l => s.on (TMR_CTRL.CAPSRC n) && s.get (TMR_CTRL.CAPLINE n) == l
      | none => !(s.on (TMR_CTRL.CAPSRC n)) && n.val == pinTimer
    if mine && s.tmClocked && s.tmHead n == n && edgeTaken (s.get (TMR_CTRL.CAPEDGE n)) rising then tmCapture n s else s) s

/-- R372: channel 1 drives its pin only while capture from the pin is off. -/
def State.out1Drives (s : State) (n : Fin 8) : Bool :=
  !(s.get (TMR_CTRL.CAPEDGE n) != 0 && !(s.on (TMR_CTRL.CAPSRC n)))

/-- R372: an output after a step: a step to zero acts first, a match last. -/
def outAfter (om : Nat) (zero mtch old : Bool) : Bool :=
  match om with
  | 1 => if mtch then !old else old
  | 2 => if mtch then false else if zero then true else old
  | 3 => if mtch then true else if zero then false else old
  | _ => false

/-- R369, R371, R372: one count clock: the count steps, flags are set, channels match, outputs act. It answers which
channels matched. -/
def tmCount (n : Fin 8) (s : State) : State × Bool × Bool :=
  let c := s.tmVal n Reg.TMR_COUNT
  let reload := s.tmVal n Reg.TMR_RELOAD
  let wrap := decide (c = s.tmTop n) && decide (reload < c)
  let c' := if c = reload ∨ wrap then 0 else c + 1
  let s := s.setTmVal n Reg.TMR_COUNT c'
  let s := if c = reload then s.put (TMR_STAT.RELOAD n) 1 else if wrap then s.put (TMR_STAT.WRAP_LONG n) 1 else s
  let m0 := decide (s.tmVal n Reg.TMR_CMP0 = c')
  let m1 := decide (s.tmVal n Reg.TMR_CMP1 = c')
  let s := if m0 then s.put (TMR_STAT.MATCH0 n) 1 else s
  let s := if m1 then s.put (TMR_STAT.MATCH1 n) 1 else s
  let z := decide (c' = 0)
  let s := s.modTm n (fun t => { t with
    out0 := outAfter (s.get (TMR_CTRL.OM0 n)) z m0 t.out0
    out1 := outAfter (s.get (TMR_CTRL.OM1 n)) z m1 t.out1 })
  (s, m0, m1)

/-- R368, R372: a write of TMR_CTRL. CLK, TBSH, PRESC and LINK are taken only while EN = 0; EN 0 to 1 starts the count with
the prescaler at 0 and the outputs low. -/
def tmCtrlWrite (n : Fin 8) (d : Word) (s : State) : State :=
  let was := s.on (TMR_CTRL.EN n)
  let old := s.reg (Reg.TMR_CTRL n)
  let hold : Word := (TMR_CTRL.CLK n).mask ||| (TMR_CTRL.TBSH n).mask ||| (TMR_CTRL.PRESC n).mask ||| (TMR_CTRL.LINK n).mask
  let d1 := if was then (d &&& ~~~hold) ||| (old &&& hold) else d
  let d2 := if n.val % 2 = 1 then d1 &&& ~~~((TMR_CTRL.LINK n).mask) else d1
  let s := s.plainWrite (Reg.TMR_CTRL n) d2
  let on := s.on (TMR_CTRL.EN n)
  if on && !was then
    let s := if n.val % 2 = 0 then s.modTm n (fun t => { t with link := s.on (TMR_CTRL.LINK n) }) else s
    let s := s.modTm n (fun t => { t with presc := 0, out0 := false, out1 := false })
    if s.linked n then s.modTm (pairHi n) (fun t => { t with out0 := false, out1 := false }) else s
  else if was && !on then s.modTm n (fun t => { t with out0 := false, out1 := false })
  else s.modTm n (fun t => { t with
    out0 := t.out0 && decide (s.get (TMR_CTRL.OM0 n) ≠ 0), out1 := t.out1 && decide (s.get (TMR_CTRL.OM1 n) ≠ 0) })

/-- R370: a RELOAD write of a timer, or of a linked pair once both words are in: below the count it sets WRAP_LONG. -/
def tmReloadWrite (n : Fin 8) (v : Nat) (s : State) : State :=
  let n := s.tmHead n
  let s := s.setTmVal n Reg.TMR_RELOAD v
  if v < s.tmVal n Reg.TMR_COUNT then s.put (TMR_STAT.WRAP_LONG n) 1 else s

/-- R368, R369, R375: an edge of the timer's source: the prescaler divides by PRESC + 1. True when a count clock results. -/
def tmSourceEdge (n : Fin 8) (s : State) : State × Bool :=
  if !s.tmClocked || !(s.on (TMR_CTRL.EN n)) || s.tmHead n != n then (s, false)
  else
    let p := (s.tm n).presc
    if s.get (TMR_CTRL.PRESC n) ≤ p then (s.modTm n (fun t => { t with presc := 0 }), true)
    else (s.modTm n (fun t => { t with presc := p + 1 }), false)

end Sys2Proof.Machine
end

