-- ==== Sys2Proof/Machine/Evm.lean ====
section
/-! DEFINITION. Machine/Evm.lean: pads, the GPIO inputs and the event matrix (R64 to R67): levels, edges, pulses. -/
namespace Sys2Proof.Machine

/-- R64: the function code of GP`p`. -/
def State.pinCode (s : State) (p : Nat) : Nat := (s.reg (Reg.GPIO_FSEL (p / 8))).toNat / 16 ^ (p % 8) % 16

/-- R64, R66, R372: the level that the part drives on GP`p`, none while it drives nothing. A trace pin is driven low
while debug is locked (R65); what an unlocked trace port drives is not the spec's, and is taken from outside (log entry 9). -/
def State.driven (s : State) (p : Nat) : Option Bool :=
  let c := s.pinCode p
  if c = 0 then
    if bitOf (s.reg Reg.GPIO_DIR).toNat p then some (bitOf (s.reg Reg.GPIO_OUT).toNat p) else none
  else if c = 1 then
    if h : p < 16 then
      let n : Fin 8 := ⟨p / 2, by omega⟩
      if p % 2 = 0 then some (s.tm n).out0
      else if s.out1Drives n then some (s.tm n).out1 else none
    else none
  else if c = 2 ∧ 8 ≤ p ∧ p ≤ 12 ∧ s.power.debugLocked then some false
  else none

/-- The supply of a pad's bank is present (R56: GP0 to GP11 on VDDIO1, GP12 to GP23 on VDDIO2). -/
def State.bankOn (s : State) (p : Nat) : Bool := if p < 12 then !s.pins.io1Off else !s.pins.io2Off

/-- R66: the level of a pad that the part does not drive: the outside's, else its pull's; free where neither acts. -/
def State.openLevel (s : State) (p : Nat) : Bool :=
  if s.pins.ext.getLsbD p then s.pins.pads.getLsbD p
  else if bitOf (s.reg Reg.GPIO_PULLEN).toNat p then bitOf (s.reg Reg.GPIO_PULLSEL).toNat p
  else Config.floatingPad p

/-- R66: the level of pad GP`p` as GPIO_IN shows it. -/
def State.padLevel (s : State) (p : Nat) : Bool := s.bankOn p && (s.driven p).getD (s.openLevel p)

/-- A word from the 24 pins or lines. -/
def word24 (f : Nat → Bool) : Nat := (List.range 24).foldl (fun v p => if f p then v + 2 ^ p else v) 0

/-- GPIO_IN. -/
def State.gpioIn (s : State) : Nat := word24 s.padLevel

/-- R67: the level of event-matrix line `l`: a pin source passes the pin's level while its code is 0x3, every other source
rests low; INV inverts. -/
def State.lineLevel (s : State) (l : Nat) : Bool :=
  let src := s.get (EVM_SRC.SRC l)
  let pin := if src = 0 then some l else if 1 ≤ src ∧ src ≤ 0x18 then some (src - 1) else none
  let lvl := match pin with
    | some p => s.pinCode p == 3 && s.padLevel p
    | none => false
  lvl != s.on (EVM_SRC.INV l)

/-- EVM_LEVEL. -/
def State.evmLevel (s : State) : Nat := word24 s.lineLevel

/-- The GPIO block's clock runs (R90). -/
def State.gpioClocked (s : State) : Bool := s.clocked && s.on SYSC_CLKGATE.GPIO

/-- The event matrix's clock runs (R90). -/
def State.evmClocked (s : State) : Bool := s.clocked && s.on SYSC_CLKGATE.EVM

/-- An edge on event-matrix line `l`: the capture units and the timers that take the line see it (R67, R346, R373). -/
def lineEdge (l : Nat) (rising : Bool) (s : State) : State :=
  if s.evmClocked then tmCapEdge (some l) 0 rising (capEdge (0x10 + l) rising s) else s

/-- What follows from levels that have changed between two states: GPIO_IRQ bits (R66), captures from pins (R373) and
edges on event-matrix lines (R67). A change while the block's clock stands still makes no edge later (log entry 43). -/
def edgesFrom (b : State) (s : State) : State :=
  let gi := b.gpioIn; let go := s.gpioIn
  let li := b.evmLevel; let lo := s.evmLevel
  let rise := word24 (fun p => !(bitOf gi p) && bitOf go p)
  let fall := word24 (fun p => bitOf gi p && !(bitOf go p))
  let s := if s.gpioClocked then
      s.setReg Reg.GPIO_IRQ (s.reg Reg.GPIO_IRQ ||| (BitVec.ofNat 32 rise &&& s.reg Reg.GPIO_RISE)
        ||| (BitVec.ofNat 32 fall &&& s.reg Reg.GPIO_FALL))
    else s
  let s := (List.range 8).foldl (fun s n =>
    let p := 2 * n + 1
    if s.pinCode p = 1 ∧ bitOf gi p ≠ bitOf go p then tmCapEdge none n (bitOf go p) s else s) s
  (List.range 24).foldl (fun s l => if bitOf li l = bitOf lo l then s else lineEdge l (bitOf lo l) s) s

/-- A change of the state with what the pins and lines make of it. -/
def watchPins (f : State → State) (s : State) : State := edgesFrom s (f s)

/-- R67: a pulse of one bus cycle on line `l`: both edges, the second the opposite of the first. -/
def linePulse (l : Nat) (s : State) : State :=
  let up := !(s.on (EVM_SRC.INV l))
  lineEdge l (!up) (lineEdge l up s)

/-- R67: an internal source with code `src` gives its pulse on every line that takes it. -/
def evmPulse (src : Nat) (s : State) : State :=
  (List.range 24).foldl (fun s l => if s.get (EVM_SRC.SRC l) = src then linePulse l s else s) s

/-- R67: EVM_SWPULSE: a pulse on each named line whose SRC is 0x3F. -/
def evmSw (bits : BitVec 24) (s : State) : State :=
  (List.range 24).foldl (fun s l => if bits.getLsbD l && s.get (EVM_SRC.SRC l) == 0x3F then linePulse l s else s) s

/-- R369: a count clock of timer `n` with what follows outside it: outputs on pins, matches on the event matrix. -/
def tmStep (n : Fin 8) (s : State) : State :=
  let r := tmCount n s
  let s := edgesFrom s r.1
  let s := if r.2.1 then evmPulse (0x20 + n.val) s else s
  if r.2.2 then evmPulse (0x28 + n.val) s else s

end Sys2Proof.Machine
end

