-- ==== Sys2Proof/Machine/Aes.lean ====
section
/-! DEFINITION. Machine/Aes.lean: the ciphers of R290: AES, CMAC (SP 800-38B), CCM* of IEEE 802.15.4, XTS (IEEE 1619). A
block is a list of 16 octets. -/
namespace Sys2Proof.Machine

/-! ## AES -/

/-- Multiplication by x in the field of AES. -/
def xtime (a : Byte) : Byte := (a <<< 1) ^^^ (if a.getLsbD 7 then 0x1B else 0)

/-- Multiplication in the field of AES, over the low `n` bits of the second factor. -/
def gmulN : Nat → Byte → Byte → Byte
  | 0, _, _ => 0
  | n + 1, a, b => (if b.getLsbD 0 then a else 0) ^^^ gmulN n (xtime a) (b >>> 1)

/-- Multiplication in the field of AES by a constant below 16. -/
def gmul (c a : Byte) : Byte := gmulN 4 a c

/-- The S-box of FIPS 197: its entries 32 × k to 32 × k + 31, the lowest entry in the low octet. -/
def sboxRow : Nat → Nat
  | 0 => 0xC072A49CAFA2D4ADF04759FA7DC982CA76ABD7FE2B670130C56F6BF27B777C63
  | 1 => 0x75B227EBE28012079A059618C323C7041531D871F1E5A534CCF73F362693FDB7
  | 2 => 0xCF584C4A39BECB6A5BB1FC20ED00D153842FE329B3D63B52A05A6E1B1A2C8309
  | 3 => 0xD2F3FF1021DAB6BCF5389D928F40A351A89F3C507F02F94585334D43FBAAEFD0
  | 4 => 0xDB0B5EDE14B8EE4688902A22DC4F816073195D643D7EA7C41744975FEC130CCD
  | 5 => 0x08AE7A65EAF4566CA94ED58D6D37C8E779E4959162ACD3C25C2406490A3A32E0
  | 6 => 0x9E1DC186B95735610EF6034866B53E708A8BBD4B1F74DDE8C6B4A61C2E2578BA
  | _ => 0x16BB54B00F2D99416842E6BF0D89A18CDF2855CEE9871E9B948ED9691198F8E1

/-- The inverse S-box, laid out alike. -/
def invSboxRow : Nat → Nat
  | 0 => 0xCBE9DEC444438E3487FF2F9B8239E37CFBD7F3819EA340BF38A53630D56A0952
  | 1 => 0x25D18B6D49A25B76B224D92866A12E084EC3FA420B954CEE3D23C2A632947B54
  | 2 => 0x849D8DA75746155EDAB9EDFD5048706C92B6655DCC5CA4D41698688664F6F872
  | 3 => 0x6B8A130103BDAFC1020F3FCA8F1E2CD00645B3B80558E4F70AD3BC8C00ABD890
  | 4 => 0x6EDF751CE837F9E28535ADE72274AC9673E6B4F0CECFF297EADC674F4111913A
  | 5 => 0xF45ACD78FEC0DB9A2079D2C64B3E56FC1BBE18AA0E62B76F89C5291D711AF147
  | 6 => 0xEF9CC9939F7AE52D0D4AB519A97F51605FEC8027591012B131C7078833A8DD1F
  | _ => 0x7D0C2155631469E126D677BA7E042B17619953833CBBEBC8B0F52AAE4D3BE0A0

/-- The S-box. -/
def subByte (a : Byte) : Byte := BitVec.ofNat 8 (sboxRow (a.toNat / 32) >>> (8 * (a.toNat % 32)))

/-- The inverse S-box. -/
def invSubByte (a : Byte) : Byte := BitVec.ofNat 8 (invSboxRow (a.toNat / 32) >>> (8 * (a.toNat % 32)))

/-- XOR of octet strings, as long as the shorter. -/
def xorB (a b : List Byte) : List Byte := List.zipWith (· ^^^ ·) a b

/-- The octet of a block. -/
def oct (b : List Byte) (i : Nat) : Byte := b.getD i 0

/-- The rows of the state shifted; the state is held column by column. -/
def shiftRows (b : List Byte) : List Byte := (List.range 16).map (fun i => oct b ((i + 4 * (i % 4)) % 16))

/-- The rows shifted back. -/
def invShiftRows (b : List Byte) : List Byte := (List.range 16).map (fun i => oct b ((i + 16 - 4 * (i % 4)) % 16))

/-- Each column multiplied by a circulant of four octets. -/
def mixWith (c0 c1 c2 c3 : Byte) (b : List Byte) : List Byte :=
  (List.range 16).map (fun i =>
    let col := 4 * (i / 4)
    gmul c0 (oct b (col + i % 4)) ^^^ gmul c1 (oct b (col + (i + 1) % 4))
      ^^^ gmul c2 (oct b (col + (i + 2) % 4)) ^^^ gmul c3 (oct b (col + (i + 3) % 4)))

/-- The key schedule: words of four octets, newest first, `i` of them made, `nk` in the key. -/
def expandFrom (nk : Nat) : Nat → Nat → Byte → List (List Byte) → List (List Byte)
  | 0, _, _, ws => ws
  | n + 1, i, rcon, ws =>
    let t := ws.headD []
    let back := ws.getD (nk - 1) []
    let (t, rcon') :=
      if i % nk = 0 then
        let r := (List.range 4).map (fun j => subByte (oct t ((j + 1) % 4)))
        (xorB r [rcon, 0, 0, 0], xtime rcon)
      else if nk = 8 ∧ i % nk = 4 then (t.map subByte, rcon)
      else (t, rcon)
    expandFrom nk n (i + 1) rcon' (xorB back t :: ws)

/-- The octets in groups of four. -/
def words4 : Nat → List Byte → List (List Byte)
  | 0, _ => []
  | n + 1, l => l.take 4 :: words4 n (l.drop 4)

/-- The round keys of a key of 16 or 32 octets, in order. -/
def roundKeys (key : List Byte) : List (List Byte) :=
  let nk := if key.length = 32 then 8 else 4
  let rounds := nk + 6
  let ws := (expandFrom nk (4 * (rounds + 1) - nk) nk 1 (words4 nk key).reverse).reverse
  (List.range (rounds + 1)).map (fun r => ((ws.drop (4 * r)).take 4).flatten)

/-- AES encryption of a block. -/
def aesEnc (key b : List Byte) : List Byte :=
  match roundKeys key with
  | [] => b
  | k0 :: ks =>
    let mid := ks.dropLast.foldl (fun st k => xorB (mixWith 2 3 1 1 (shiftRows (st.map subByte))) k) (xorB b k0)
    xorB (shiftRows (mid.map subByte)) (ks.getLastD [])

/-- AES decryption of a block. -/
def aesDec (key b : List Byte) : List Byte :=
  match (roundKeys key).reverse with
  | [] => b
  | k0 :: ks =>
    let mid := ks.dropLast.foldl (fun st k => mixWith 14 11 13 9 (xorB ((invShiftRows st).map invSubByte) k)) (xorB b k0)
    xorB ((invShiftRows mid).map invSubByte) (ks.getLastD [])

/-! ## Strings of blocks -/

/-- The octets in groups of 16, the last one short. -/
def chunks16 : Nat → List Byte → List (List Byte)
  | 0, _ => []
  | n + 1, l => if l = [] then [] else l.take 16 :: chunks16 n (l.drop 16)

/-- All blocks of a string. -/
def blocksOf (l : List Byte) : List (List Byte) := chunks16 (l.length / 16 + 1) l

/-- Zeros to a whole block. -/
def padZero (l : List Byte) : List Byte := l ++ List.replicate ((16 - l.length % 16) % 16) 0

/-- ECB. -/
def ecbEnc (key l : List Byte) : List Byte := ((blocksOf l).map (aesEnc key)).flatten
def ecbDec (key l : List Byte) : List Byte := ((blocksOf l).map (aesDec key)).flatten

/-- The CBC-MAC of whole blocks. -/
def cbcMac (key l : List Byte) : List Byte :=
  (blocksOf l).foldl (fun x b => aesEnc key (xorB x b)) (List.replicate 16 0)

/-! ## CMAC -/

/-- Doubling of a block, its first octet the most significant. -/
def dblBE (b : List Byte) : List Byte :=
  let sh := (List.range 16).map (fun i => (oct b i <<< 1) ||| (if i < 15 then (oct b (i + 1)) >>> 7 else (0 : Byte)))
  if (oct b 0).getLsbD 7 then sh.take 15 ++ [oct sh 15 ^^^ 0x87] else sh

/-- CMAC. -/
def cmac (key m : List Byte) : List Byte :=
  let k1 := dblBE (aesEnc key (List.replicate 16 0))
  let k2 := dblBE k1
  let whole := m ≠ [] ∧ m.length % 16 = 0
  let nfull := if whole then m.length / 16 - 1 else m.length / 16
  let last := m.drop (16 * nfull)
  let last' := if whole then xorB last k1 else xorB (padZero (last ++ [0x80])) k2
  aesEnc key (xorB (cbcMac key (m.take (16 * nfull))) last')

/-! ## CCM* -/

/-- A length of two octets, most significant first. -/
def be2 (n : Nat) : List Byte := [BitVec.ofNat 8 (n / 256), BitVec.ofNat 8 n]

/-- The additional data with its length field. -/
def ccmAad (a : List Byte) : List Byte :=
  if a = [] then [] else
    padZero ((if a.length < 0xFF00 then be2 a.length else [0xFF, 0xFE] ++ be2 (a.length / 65536) ++ be2 a.length) ++ a)

/-- The key stream block `i`. -/
def ccmStream (key nonce : List Byte) (i : Nat) : List Byte := aesEnc key ([1] ++ nonce ++ be2 i)

/-- Counter-mode encryption or decryption of the payload. -/
def ccmCrypt (key nonce m : List Byte) : List Byte :=
  (((blocksOf m).zipIdx).map (fun x => xorB x.1 (ccmStream key nonce (x.2 + 1)))).flatten

/-- The MIC of `mlen` octets over the additional data and the plain payload; none of length 0. -/
def ccmMic (key nonce aad plain : List Byte) (mlen : Nat) : List Byte :=
  if mlen = 0 then [] else
    let flags := (if aad = [] then 0 else 64) + (mlen - 2) / 2 * 8 + 1
    let t := cbcMac key ([BitVec.ofNat 8 flags] ++ nonce ++ be2 plain.length ++ ccmAad aad ++ padZero plain)
    (xorB t (ccmStream key nonce 0)).take mlen

/-! ## XTS -/

/-- Multiplication of a tweak by α: the first octet is the least significant. -/
def dblLE (b : List Byte) : List Byte :=
  let sh := (List.range 16).map (fun i => (oct b i <<< 1) ||| (if i = 0 then (0 : Byte) else (oct b (i - 1)) >>> 7))
  if (oct b 15).getLsbD 7 then (oct sh 0 ^^^ 0x87) :: sh.drop 1 else sh

/-- The tweak of block `j` of sector `sec`. -/
def xtsTweak (k2 : List Byte) (sec j : Nat) : List Byte :=
  (List.range j).foldl (fun t _ => dblLE t) (aesEnc k2 (leBytes 16 sec))

/-- One block of a sector, encrypted or decrypted. -/
def xtsEnc (k1 k2 : List Byte) (sec j : Nat) (b : List Byte) : List Byte :=
  let t := xtsTweak k2 sec j
  xorB (aesEnc k1 (xorB b t)) t
def xtsDec (k1 k2 : List Byte) (sec j : Nat) (b : List Byte) : List Byte :=
  let t := xtsTweak k2 sec j
  xorB (aesDec k1 (xorB b t)) t

end Sys2Proof.Machine
end

