-- ==== Sys2Proof/Machine/Nvm.lean ====
section
/-! DEFINITION. Machine/Nvm.lean: the NVM controller (chapter 19) beside its rows: banks, mapping, requests and their tests,
programs, erases, suspension, retirement. -/
namespace Sys2Proof.Machine

/-! ## Addresses (R388) -/

/-- The bank of an NVM address: true for bank 1. -/
def nvmBankOf (a : Nat) : Bool := decide (0x08200000 ≤ a)

/-- The logical block of an NVM address in its bank. -/
def nvmBlockOf (a : Nat) : Nat := (a - 0x08000000) / 4096 % 512

/-- The address of a block. -/
def nvmBlockAddr (bank : Bool) (block : Nat) : Nat := 0x08000000 + 0x200000 * b2n bank + 4096 * block

/-- A bank's state. -/
def State.bank (s : State) (k : Bool) : NvmBank := if k then s.nvm.bank1 else s.nvm.bank0

/-- The state with a bank changed. -/
def State.modBank (s : State) (k : Bool) (f : NvmBank → NvmBank) : State :=
  { s with nvm := if k then { s.nvm with bank1 := f s.nvm.bank1 } else { s.nvm with bank0 := f s.nvm.bank0 } }

/-- R403: the physical block that holds a logical one. -/
def NvmBank.phys (b : NvmBank) (block : Nat) : Nat := ((b.map.find? (fun e => e.1 = block)).map (·.2)).getD block

/-- R388: the logical block whose data a bus address of a block reads: a spare in use reads the block it replaced, a free
one reads erased. -/
def NvmBank.alias (b : NvmBank) (block : Nat) : Option Nat :=
  if block < 496 then some block else (b.map.find? (fun e => e.2 = block)).map (·.1)

/-- A bit of a two-bit field of NVM_STAT, one bit a bank. -/
def nvmStatBit (f : Field) (k v : Bool) (s : State) : State :=
  let m := b2n k + 1
  s.put f (if v then s.get f ||| m else s.get f &&& (3 - m))

/-! ## Raw and plain data (R300, R390) -/

/-- The byte of an NVM address as the array holds it. -/
def State.nvmRaw (s : State) (a : Nat) : Byte :=
  match (s.bank (nvmBankOf a)).alias (nvmBlockOf a) with
  | some b => s.rb (nvmBlockAddr (nvmBankOf a) b + a % 4096)
  | none => 0xFF

/-- R300: the 16 octets of the block that holds `a`, from a raw reader, decrypted when a region covers it. -/
def State.xtsPlain (s : State) (raw : Nat → Byte) (a : Nat) : List Byte :=
  let b := (List.range 16).map (fun i => raw (a / 16 * 16 + i))
  match s.xtsRegion a with
  | none => b
  | some n => match s.xtsKeys n with
    | some (k1, k2) => xtsDec k1 k2 (a / 4096 - s.get (SEC_XTSA.BASE n)) (a % 4096 / 16) b
    | none => List.replicate 16 0

/-- A byte of NVM as the bus reads it, idle bank. -/
def State.nvmByte (s : State) (a : Nat) : Byte := oct (s.xtsPlain s.nvmRaw a) (a % 16)

/-- R413, R414: a byte of the external memory as a read that has waited for the queued stores finds it. -/
def State.xipRaw (s : State) (a : Nat) : Byte :=
  s.spim.queue.foldl (fun v e => if e.addr ≤ a ∧ a < e.addr + e.data.length then e.data.getD (a - e.addr) v else v) (s.rb a)

/-- R415: a byte of the window fetched from the memory, decrypted, the bytes of a partly collected block laid over it. -/
def State.xipFetch (s : State) (a : Nat) : Byte :=
  let v := oct (s.xtsPlain s.xipRaw a) (a % 16)
  match s.spim.part with
  | some (b, l) => if b = a / 16 * 16 then ((l.getD (a % 16) none).getD v) else v
  | none => v

/-- R412: a byte of the window: from the XIP cache where it keeps the line, else fetched. -/
def State.xipByte (s : State) (a : Nat) : Byte :=
  match (if s.on SPIM_CFG.CACHEEN then s.spim.cache.find? (fun l => l.1 == a / 32 * 32) else none) with
  | some l => l.2.getD (a % 32) 0
  | none => s.xipFetch a

/-- R412: a read of the window fills its line, unless it is cached, the cache is off, or a block of it is partly
collected. The least recently filled line of a full set goes. -/
def xipFill (a : Nat) (s : State) : State :=
  let l := a / 32 * 32
  let part := match s.spim.part with
    | some (b, _) => b / 32 * 32 == l
    | none => false
  if !(s.on SPIM_CFG.CACHEEN) || part || s.spim.cache.any (fun e => e.1 == l) then s
  else
    let line := (l, (List.range 32).map (fun i => s.xipFetch (l + i)))
    let set := s.spim.cache.filter (fun e => e.1 / 32 % 64 == l / 32 % 64)
    let c := match set with
      | old :: _ => if set.length < 4 then s.spim.cache else s.spim.cache.erase old
      | [] => s.spim.cache
    { s with spim := { s.spim with cache := c ++ [line] } }

/-- Bytes of NVM. -/
def State.nvmBytes (s : State) (a n : Nat) : List Byte := (List.range n).map (fun i => s.nvmByte (a + i))

/-- R293, R300: how a program at `a` is encrypted as its message starts. -/
def State.xtsUse (s : State) (a : Nat) : XtsUse :=
  match s.xtsRegion a with
  | none => .plain
  | some n => match s.xtsKeys n with
    | some (k1, k2) => .keys k1 k2 (s.get (SEC_XTSA.BASE n))
    | none => .unusable

/-- R300: 32 octets for the unit at `a`, encrypted; none when the pair is not usable. -/
def xtsUnit (u : XtsUse) (a : Nat) (d : List Byte) : Option (List Byte) :=
  match u with
  | .plain => some d
  | .keys k1 k2 base =>
    let sec := a / 4096 - base
    let j := a % 4096 / 16
    some (xtsEnc k1 k2 sec j (d.take 16) ++ xtsEnc k1 k2 sec (j + 1) (d.drop 16))
  | .unusable => none

/-! ## Statuses (R402) -/

def nvOk : Nat := 0x00
def nvBadarg : Nat := 0x01
def nvProtected : Nat := 0x02
def nvOverwrite : Nat := 0x03
def nvSuspended : Nat := 0x04
def nvRdonly : Nat := 0x05
def nvPfail : Nat := 0x06
def nvRetired : Nat := 0x07
def nvLowv : Nat := 0x08
def nvEfail : Nat := 0x09
def nvBus : Nat := 0x0A
def nvNokey : Nat := 0x0B

/-- R388, R389: blocks that only the controller programs and erases. -/
def nvmProtectedBlock (b : Nat) : Bool := (decide (384 ≤ b) && decide (b < 388)) || decide (496 ≤ b)

/-- R405: the bank's data regions are read-only and the block is one of theirs. -/
def nvmReadOnly (s : State) (k : Bool) (b : Nat) : Bool := decide ((s.bank k).free = []) && decide (388 ≤ b) && decide (b ≤ 495)

/-- R395: a unit is erased: all ones and not programmed since its block's erase. -/
def State.unitErased (s : State) (a : Nat) : Bool :=
  (s.bytes a 32).all (· == 0xFF) && !((s.bank (nvmBankOf a)).ones.contains (a / 32))

/-- The tests of a program of `n` units at `a`, in the order of R402, then the source (R402 BUS) and the XTS pair
(R401 NOKEY). A suspended erase lets programs to other blocks run (R400); a program of the block that an erase runs in waits
for its end, and its units are then erased. -/
def progTest (a n : Nat) (src : Option Nat) (s : State) : Option Nat :=
  let k := nvmBankOf a
  let b := nvmBlockOf a
  if regionOf a != .nvm || a % 32 != 0 || decide (128 < a % 4096 / 32 + n) then some nvBadarg
  else if nvmProtectedBlock b then some nvProtected
  else if nvmReadOnly s k b then some nvRdonly
  else if ((s.bank k).erase.map (fun e => e.susp && e.block == b)).getD false then some nvSuspended
  else if !(((s.bank k).erase.map (fun e => e.block == b)).getD false) && (List.range n).any (fun i => !(s.unitErased (a + 32 * i))) then
    some nvOverwrite
  else if (match src with
    | some x => decide (x % 4 ≠ 0) || !(inSram x (32 * n))
    | none => false) then some nvBus
  else if s.xtsUnusable a then some nvNokey
  else none

/-- The tests of an erase of the block of `a`. -/
def eraseTest (a : Nat) (s : State) : Option Nat :=
  let k := nvmBankOf a
  let b := nvmBlockOf a
  if regionOf a != .nvm then some nvBadarg
  else if nvmProtectedBlock b then some nvProtected
  else if nvmReadOnly s k b then some nvRdonly
  else if ((s.bank k).erase.map (·.susp)).getD false then some nvSuspended
  else none

/-! ## Queues of a bank (R399, R401) -/

/-- The rank of a requester: the security engine, the recorder, the dictionary, firmware, the controller. -/
def userRank : NvmUser → Nat
  | .sec => 0 | .evr => 1 | .dict => 2 | .firmware => 3 | .refresh => 4

/-- A job joins those waiting, behind those of its rank or a better one. -/
def rankInsert {α : Type} (u : α → NvmUser) (j : α) : List α → List α
  | [] => [j]
  | k :: ks => if userRank (u j) < userRank (u k) then j :: k :: ks else k :: rankInsert u j ks

/-- The running unit's data: a firmware program reads its source unit by unit. -/
def loadUnit (j : ProgJob) (s : State) : ProgJob :=
  match j.src with
  | some x => { j with data := [s.bytes (x + 32 * j.done) 32] }
  | none => j

/-- The suspension of a bank's erase shows (R399). -/
def showErase (k : Bool) (s : State) : State :=
  let e := (s.bank k).erase
  let run := (e.map (fun j => !j.susp)).getD false
  let sus := (e.map (fun j => j.susp)).getD false
  let s := nvmStatBit NVM_STAT.ERASE k run (nvmStatBit NVM_STAT.SUSP k sus s)
  let s := (s.putB (NVM_ESTAT.BUSY (b2n k)) e.isSome).putB (NVM_ESTAT.SUSP (b2n k)) sus
  match e with
  | some j => s.put (NVM_ESTAT.BLOCK (b2n k)) j.block
  | none => s

/-- The running program shows (NVM_STAT.PROG). -/
def showProg (k : Bool) (s : State) : State := nvmStatBit NVM_STAT.PROG k (s.bank k).prog.isSome s

/-- R397, R402: an erase begins: its journal record is in the metadata; a firmware ERASE clears BUSY with OK. -/
def beginErase (k : Bool) (e : EraseJob) (s : State) : State :=
  let s := s.modBank k (fun b => { b with erase := some { e with susp := false }, abandoned := some e.block })
  let s := if e.user = .firmware then (s.put NVM_CMDSTAT.BUSY 0).put NVM_CMDSTAT.STATUS nvOk else s
  showErase k s

/-- The automatic suspension (R399): a program for another block of the bank waits while an erase runs. -/
def autoSuspend (k : Bool) (s : State) : State :=
  match (s.bank k).erase with
  | some e =>
    if !e.susp && s.on NVM_CTRL.AUTOSUSP && (s.bank k).progQ.any (fun j => e.block != nvmBlockOf j.addr) then
      showErase k (s.modBank k (fun b => { b with erase := some { e with susp := true } }))
    else s
  | none => s

/-- R400: a waiting program may run beside an erase: it is of another block. -/
def progBeside (e : Option EraseJob) (j : ProgJob) : Bool := (e.map (fun e => e.block != nvmBlockOf j.addr)).getD true

/-- R399: an automatic suspension ends when no program of another block waits or runs and firmware has not set the bit. -/
def autoResume (k : Bool) (s : State) : State :=
  match (s.bank k).erase with
  | some e =>
    if e.susp && !(s.bank k).suspReq && (s.bank k).prog.isNone && !((s.bank k).progQ.any (progBeside (some e))) then
      showErase k (s.modBank k (fun b => { b with erase := some { e with susp := false } }))
    else s
  | none => s

/-- R401: an idle bank takes its next operation: the best-ranked of those waiting, a program before an erase of the same
rank. Nothing starts before READY (R398). -/
def kickBank (k : Bool) (s : State) : State :=
  if !(s.on NVM_STAT.READY) then s
  else
    let s := autoSuspend k s
    let b := s.bank k
    let eraseRuns := (b.erase.map (fun e => !e.susp)).getD false
    let progOk : Bool := b.prog.isNone && !eraseRuns
    let go := b.progQ.find? (progBeside b.erase)
    let pRank := (go.map (fun j => userRank j.user)).getD 9
    let eRank := if b.erase.isNone then (b.eraseQ.head?.map (fun j => userRank j.user)).getD 9 else 9
    if progOk && decide (pRank ≤ eRank) then
      match go with
      | some j =>
        showProg k (s.modBank k (fun b => { b with prog := some (loadUnit { j with xts := s.xtsUse j.addr } s), progQ := b.progQ.erase j }))
      | none => autoResume k s
    else if progOk && decide (eRank < 9) then
      match b.eraseQ with
      | e :: es => beginErase k e (s.modBank k (fun b => { b with eraseQ := es }))
      | [] => s
    else s

/-- A program request: refused with a status, or taken and waiting for its bank. -/
def nvmProgram (u : NvmUser) (a n : Nat) (src : Option Nat) (data : List (List Byte)) (s : State) : State × Option Nat :=
  match progTest a n src s with
  | some st =>
    -- the source outside the controller's window, or misaligned, is refused by the bus too (R51, R54)
    (if st = nvBus then (engineAccess .nvm (src.getD 0) (32 * n) .b32 false s).1 else s, some st)
  | none =>
    let k := nvmBankOf a
    let j : ProgJob := { user := u, addr := a, src := src, data := data, left := n }
    (kickBank k (s.modBank k (fun b => { b with progQ := rankInsert ProgJob.user j b.progQ })), none)

/-- An erase request: refused with a status, or taken and waiting for its bank. -/
def nvmErase (u : NvmUser) (a : Nat) (s : State) : State × Option Nat :=
  match eraseTest a s with
  | some st => (s, some st)
  | none =>
    let k := nvmBankOf a
    let e : EraseJob := { user := u, block := nvmBlockOf a }
    (kickBank k (s.modBank k (fun b => { b with eraseQ := rankInsert EraseJob.user e b.eraseQ })), none)

/-! ## Retirement (R403, R405) -/

/-- Flags that follow the number of free spares (R405). -/
def spareFlags (k : Bool) (s : State) : State :=
  let n := (s.bank k).free.length
  let s := if n ≤ 2 then s.put NVM_IRQ.SPARELOW 1 else s
  if n = 0 then (nvmStatBit NVM_STAT.RDONLY k true s).put NVM_IRQ.RDONLY 1 else s

/-- R403: the block moves to a free spare of its bank (which one the spec leaves open: free) and its old physical block is
retired; false when there is none. -/
def retire (k : Bool) (block : Nat) (s : State) : State × Bool :=
  let b := s.bank k
  if b.free = [] then (s, false)
  else
    let (d, s) := s.draw
    let spare := b.free.getD (Config.freeNat d % b.free.length) 0
    let old := b.phys block
    let s := s.modBank k (fun b => { b with
      map := (block, spare) :: b.map.filter (fun e => e.1 ≠ block)
      free := b.free.filter (· ≠ spare), retired := old :: b.retired })
    (spareFlags k { s.put NVM_IRQ.RETIRE 1 with nvm := { s.nvm with retires := s.nvm.retires + 1 } }, true)

/-- The bytes of a block all ones, nothing programmed in it (R397). -/
def wipeBlock (k : Bool) (block : Nat) (s : State) : State :=
  let a := nvmBlockAddr k block
  let s := { s with mem := { s.mem with cells := Sparse.clear s.mem.cells (fun x => decide (a ≤ x) && decide (x < a + 4096)) } }
  s.modBank k (fun b => { b with ones := b.ones.filter (fun u => u / 128 ≠ a / 4096) })

/-- R404: the erase count of the physical block that holds a block goes up by one. -/
def countErase (k : Bool) (block : Nat) (s : State) : State :=
  s.modBank k (fun b =>
    let p := b.phys block
    { b with cycles := Sparse.set (fun _ => 0#32) b.cycles p (Sparse.get (fun _ => 0#32) b.cycles p + 1) })

/-- R404: some count has reached 90,000,000. -/
def State.wearHigh (s : State) : Bool :=
  (s.nvm.bank0.cycles ++ s.nvm.bank1.cycles).any (fun e => decide (90000000 ≤ e.2.toNat))

/-- NVM_WEARCNT as read. -/
def State.wearCnt (s : State) : Word :=
  let b := s.bank (s.on NVM_WEARSEL.BANK)
  Sparse.get (fun _ => 0#32) b.cycles (b.phys (s.get NVM_WEARSEL.BLOCK))

/-- NVM_WEARMAX as read. -/
def State.wearMax (s : State) : Word :=
  BitVec.ofNat 32 ((s.nvm.bank0.cycles ++ s.nvm.bank1.cycles).foldl (fun m e => max m e.2.toNat) 0)

/-- NVM_SPARE as read. -/
def State.nvmSpare (s : State) : Word :=
  BitVec.ofNat 32 (2 ^ 24 * s.nvm.bank1.retired.length + 2 ^ 16 * s.nvm.bank1.free.length
    + 2 ^ 8 * s.nvm.bank0.retired.length + s.nvm.bank0.free.length)

/-- What the end of an operation tells its requester: who, and the status. -/
abbrev NvmEnd := NvmUser × Nat

/-- A firmware command has ended with a status (R402). -/
def cmdStatus (st : Nat) (s : State) : State := (s.put NVM_CMDSTAT.BUSY 0).put NVM_CMDSTAT.STATUS st

/-- A firmware program or OTP program has ended (R402). -/
def cmdEnd (st : Nat) (s : State) : State := (cmdStatus st s).put NVM_IRQ.CMDDONE 1

/-- The program of a bank ends with a status. -/
def progEnd (k : Bool) (j : ProgJob) (st : Nat) (s : State) : State × Option NvmEnd :=
  let s := showProg k (s.modBank k (fun b => { b with prog := none }))
  let s := if j.user = .firmware then cmdEnd st (s.put NVM_CMDSTAT.UNITS j.done) else s
  (kickBank k (autoResume k s), some (j.user, st))

/-- The unit of a program is in the array: its bytes, encrypted in an XTS region. -/
def storeUnit (k : Bool) (a : Nat) (d : List Byte) (s : State) : State :=
  let s := s.wbytes a d
  if d.all (· == 0xFF) then s.modBank k (fun b => { b with ones := (a / 32) :: b.ones }) else s

/-- R395, R396, R403: the running unit of a bank has verified after `pulses`, or has failed after 8; the program goes on
with its next unit or ends. A unit that fails verify moves its block to a spare; with no spare its contents are free. -/
def progUnit (k : Bool) (ok : Bool) (pulses : Nat) (s : State) : State × Option NvmEnd :=
  match (s.bank k).prog with
  | none => (s, none)
  | some j =>
    let p := if ok then max 1 (min 8 pulses) else 8
    let s := { (s.put NVM_PVCOUNT.LAST p).put NVM_PVCOUNT.MAX (max p (s.get NVM_PVCOUNT.MAX)) with
      nvm := { s.nvm with pvMax := max p s.nvm.pvMax } }
    let s := if 6 < p then s.put NVM_IRQ.PVHIGH 1 else s
    match xtsUnit j.xts j.addr (j.data.headD []) with
    | none => progEnd k j nvNokey s
    | some d =>
      let r := if ok then (s, true) else retire k (nvmBlockOf j.addr) s
      if !r.2 then
        let (f, s) := r.1.draw
        progEnd k j nvPfail (storeUnit k j.addr ((List.range 32).map (fun i => Config.freeByte f (j.addr + i))) s)
      else
        let s := storeUnit k j.addr d r.1
        let j := { j with addr := j.addr + 32, data := j.data.drop 1, left := j.left - 1, done := j.done + 1, retired := j.retired || !ok }
        if j.left = 0 then progEnd k j (if j.retired then nvRetired else nvOk) s
        else
          let s := if j.user = .firmware then s.put NVM_CMDSTAT.UNITS j.done else s
          (s.modBank k (fun b => { b with prog := some (loadUnit { j with gapAt := some s.now } s) }), none)

/-- R397, R403, R404: the erase that runs in a bank ends, verified or not. A block whose failed erase finds no spare keeps
its mapping; its contents are free. -/
def eraseEnd (k : Bool) (ok : Bool) (s : State) : State × Option NvmEnd :=
  match (s.bank k).erase with
  | none => (s, none)
  | some e =>
    if e.susp then (s, none)
    else
      let s := countErase k e.block s
      let r : State × Nat :=
        if ok then (wipeBlock k e.block s, nvOk)
        else
          let q := retire k e.block s
          if q.2 then (wipeBlock k e.block q.1, nvRetired)
          else
            let (d, s) := q.1.draw
            let a := nvmBlockAddr k e.block
            (s.wbytes a ((List.range 4096).map (fun i => Config.freeByte d (a + i))), nvEfail)
      let s := r.1.modBank k (fun b => { b with erase := none, abandoned := none, suspReq := false })
      let s := s.put NVM_SUSP.REQ (s.get NVM_SUSP.REQ &&& (3 - (b2n k + 1)))
      let s := ((showErase k s).put (NVM_ESTAT.STATUS (b2n k)) r.2).put NVM_IRQ.EDONE 1
      (kickBank k s, some (e.user, r.2))

/-- R399: a write of a bank's bit in NVM_SUSP. A 1 with no erase running or suspended is discarded. -/
def setSuspend (k v : Bool) (s : State) : State :=
  let m := b2n k + 1
  match (s.bank k).erase with
  | none => if v then s else (s.modBank k (fun b => { b with suspReq := false })).put NVM_SUSP.REQ (s.get NVM_SUSP.REQ &&& (3 - m))
  | some e =>
    let s := s.put NVM_SUSP.REQ (if v then s.get NVM_SUSP.REQ ||| m else s.get NVM_SUSP.REQ &&& (3 - m))
    let s := s.modBank k (fun b => { b with suspReq := v })
    if v then kickBank k (showErase k (s.modBank k (fun b => { b with erase := some { e with susp := true } })))
    else autoResume k s

/-- R393: the address lies in a block whose erase is suspended. -/
def State.nvmInSusp (s : State) (a : Nat) : Bool :=
  ((s.bank (nvmBankOf a)).erase.map (fun e => e.susp && e.block == nvmBlockOf a)).getD false

/-- R393, R396: the program whose unit runs in a bank: none between two units. -/
def State.unitRuns (s : State) (k : Bool) : Option ProgJob := (s.bank k).prog.filter (fun j => j.gapAt != some s.now)

/-- R393: the status word of a data read at `a`, none when the read is served normally. -/
def State.nvmStatus (s : State) (a : Nat) : Option Word :=
  let k := nvmBankOf a
  let b := s.bank k
  let word (esusp er pr : Bool) (blk : Nat) : Word :=
    BitVec.ofNat 32 (2 ^ 24 * 0xC3 + 2 ^ 23 * b2n esusp + 2 ^ 22 * b2n er + 2 ^ 21 * b2n pr + 2 ^ 9 * b2n k + blk)
  let inSusp := s.nvmInSusp a
  match s.unitRuns k with
  | some j => some (word inSusp false true (nvmBlockOf j.addr))
  | none => match b.erase with
    | some e => if !e.susp then some (word false true false e.block) else if inSusp then some (word true false false e.block) else none
    | none => none

/-- The bank of an address runs a program unit or an erase (R393). -/
def State.nvmBusy (s : State) (a : Nat) : Bool :=
  let k := nvmBankOf a
  (s.unitRuns k).isSome || ((s.bank k).erase.map (fun e => !e.susp)).getD false

/-! ## OTP (R407) -/

/-- The lock word of an OTP offset's area, none for a reserved offset. -/
def otpLock (o : Nat) : Option Nat :=
  if o < 0x1000 then some 0x3F00 else if o < 0x3000 then some 0x3F04 else if o < 0x3C00 then some 0x3F08
  else if o < 0x3E00 then some 0x3D58 else if o < 0x3E44 then some 0x3E40
  else if 0x3F00 ≤ o ∧ o < 0x3F10 then some (o / 4 * 4) else none

/-- A word of OTP as programmed (the engine's view; the bus reads the KEYS area as 0, R295). -/
def State.otpWord (s : State) (o : Nat) : Word := s.rw32 (0x08800000 + o)

/-- The tests of OTPPROG (R402, R407). -/
def otpTest (a : Nat) (vbatOk : Bool) (s : State) : Option Nat :=
  let o := a - 0x08800000
  if regionOf a != .otp || a % 4 != 0 then some nvBadarg
  else match otpLock o with
    | none => some nvBadarg
    | some l =>
      if (s.otpWord l).getLsbD 0 then some nvProtected
      else if s.otpWord o != 0 || s.nvm.otpZero.contains o then some nvOverwrite
      else if !vbatOk then some nvLowv
      else none

/-- R407: the word at an OTP address is programmed. -/
def otpSet (a v : Nat) (s : State) : State :=
  let s := s.wn a 4 v
  if v = 0 then { s with nvm := { s.nvm with otpZero := (a - 0x08800000) :: s.nvm.otpZero } } else s

/-- A byte of the OTP as the bus reads it: the wrapping keys read 0 (R295). -/
def State.otpByte (s : State) (a : Nat) : Byte := if 0x08803E00 ≤ a ∧ a < 0x08803E40 then 0 else s.rb a

end Sys2Proof.Machine
end

