-- ==== Sys2Proof/Machine/Crc.lean ====
section
/-! DEFINITION. Machine/Crc.lean: the checksums that the rules name. -/
namespace Sys2Proof.Machine

/-- One bit of a reflected CRC: the register shifted right, the polynomial XORed in when a 1 falls out. -/
def crcBitR {w : Nat} (poly : BitVec w) (c : BitVec w) : BitVec w :=
  if c.getLsbD 0 then (c >>> 1) ^^^ poly else c >>> 1

/-- Eight bits of a reflected CRC. -/
def crcByteR {w : Nat} (poly c : BitVec w) (b : Byte) : BitVec w :=
  (List.range 8).foldl (fun c _ => crcBitR poly c) (c ^^^ b.setWidth w)

/-- One bit of a CRC that runs from the most significant bit. -/
def crcBitL {w : Nat} (poly c : BitVec w) : BitVec w :=
  if c.getMsbD 0 then (c <<< 1) ^^^ poly else c <<< 1

/-- Eight bits of a CRC that runs from the most significant bit. -/
def crcByteL (poly c : BitVec 16) (b : Byte) : BitVec 16 :=
  (List.range 8).foldl (fun c _ => crcBitL poly c) (c ^^^ (b.setWidth 16 <<< 8))

/-- The 2-octet FCS of IEEE 802.15.4: x^16 + x^12 + x^5 + 1, first bit first, starting at 0 (R224). -/
def crc16Fcs (l : List Byte) : Nat := (l.foldl (crcByteR 0x8408#16) 0#16).toNat

/-- CRC-32 of IEEE 802.3. -/
def crc32 (l : List Byte) : Nat := (~~~(l.foldl (crcByteR 0xEDB88320#32) 0xFFFFFFFF#32)).toNat

/-- The 4-octet FCS (R224): the standard's CRC-32 of a field of fewer than 4 octets counts it filled up with zeros to 4. -/
def crc32Fcs (l : List Byte) : Nat := crc32 (l ++ List.replicate (4 - l.length) 0)

/-- CRC-16 of the host frames: x^16 + x^12 + x^5 + 1 from the most significant bit, starting at 0xFFFF (chapter 20). -/
def crc16Host (l : List Byte) : Nat := (l.foldl (crcByteL 0x1021#16) 0xFFFF#16).toNat

/-- The FCS of a PSDU matches its last octets (R224): 2 or 4 of them, least significant first. -/
def fcsOk (two : Bool) (psdu : List Byte) : Bool :=
  let n := if two then 2 else 4
  let body := psdu.take (psdu.length - n)
  decide (n ≤ psdu.length) && leNat (psdu.drop (psdu.length - n)) == (if two then crc16Fcs body else crc32Fcs body)

end Sys2Proof.Machine
end

