-- ==== Sys2Proof/Machine/RtcView.lean ====
section
/-! DEFINITION. Machine/RtcView.lean: the count of the real-time clock, the calendar and what its registers read (R351 to
R357). -/
namespace Sys2Proof.Machine

/-- Change of the clock's state. -/
def State.modRtc (s : State) (f : RtcSt → RtcSt) : State := { s with rtc := f s.rtc }

/-- Low-power clock edges since the count's start: one each 250,000,000 / 32,768 counts (R103). -/
def State.lpEdge (s : State) : Nat := 2 ^ 17 * s.now / 1000000000

/-- R351: what each edge adds: 2^24 + TRIM. -/
def State.rtcStep (s : State) : Nat := (2 ^ 24 + s.getI RTC_TRIM.TRIM).toNat

/-- The count in units of 2^−39 s, not wrapped. -/
def State.rtcRaw (s : State) : Nat := s.rtc.base + (s.lpEdge - s.rtc.baseEdge) * s.rtcStep

/-- The count of 2^−15 s, wrapped at 2^47 (R351). -/
def State.rtcFracs (s : State) : Nat := s.rtcRaw / 2 ^ 24 % 2 ^ 47

/-- SEC and FRAC of the count. -/
def State.rtcSec (s : State) : Nat := s.rtcFracs / 2 ^ 15
def State.rtcFrac (s : State) : Nat := s.rtcFracs % 2 ^ 15

/-- The periodic wake's accumulator. -/
def State.perRaw (s : State) : Nat := s.rtc.perBase + (s.lpEdge - s.rtc.perEdge) * s.rtcStep

/-- Count and accumulator are taken over at the present edge, ready for a new TRIM or a new count of the time base. -/
def rtcRebase (s : State) : State :=
  s.modRtc (fun r => { r with base := s.rtcRaw, baseEdge := s.lpEdge, perBase := s.perRaw, perEdge := s.lpEdge })

/-! ## Calendar (R356, R357) -/

/-- A leap year of the Gregorian calendar; years since 2000. -/
def leapYear (y : Nat) : Bool := (y % 4 == 0 && (2000 + y) % 100 != 0) || (2000 + y) % 400 == 0

/-- Days of a month. -/
def monthDays (y m : Nat) : Nat :=
  if m = 2 then (if leapYear y then 29 else 28) else if m = 4 ∨ m = 6 ∨ m = 9 ∨ m = 11 then 30 else 31

/-- Days of a year. -/
def yearDays (y : Nat) : Nat := if leapYear y then 366 else 365

/-- Days before a year since 2000-01-01. -/
def daysBeforeYear (y : Nat) : Nat := (List.range y).foldl (fun d k => d + yearDays k) 0

/-- Days before a month of a year. -/
def daysBeforeMonth (y m : Nat) : Nat := (List.range (m - 1)).foldl (fun d k => d + monthDays y (k + 1)) 0

/-- The year of a day number, and the day within it, over years from `y`. -/
def yearOfDay : Nat → Nat → Nat → Nat × Nat
  | 0, y, d => (y, d)
  | n + 1, y, d => if d < yearDays y then (y, d) else yearOfDay n (y + 1) (d - yearDays y)

/-- The month of a day within a year, and the day within the month, both from 1. -/
def monthOfDay : Nat → Nat → Nat → Nat → Nat × Nat
  | 0, _, m, d => (m, d + 1)
  | n + 1, y, m, d => if d < monthDays y m then (m, d + 1) else monthOfDay n y (m + 1) (d - monthDays y m)

/-- V = SEC − CALOFS, none outside 0 to 2^32 − 1. -/
def State.calView (s : State) : Option Nat :=
  let v : Int := (s.rtcSec : Int) - s.getI RTC_CALOFS.OFS
  if 0 ≤ v ∧ v < 2 ^ 32 then some v.toNat else none

/-- RTC_CALD of a view: day 0 is a Saturday (WDAY 6). -/
def caldOf (v : Nat) : Word :=
  let d := v / 86400
  let (y, dy) := yearOfDay 137 0 d
  let (m, dm) := monthOfDay 11 y 1 dy
  BitVec.ofNat 32 (2 ^ 24 * ((d + 5) % 7 + 1) + 2 ^ 16 * y + 2 ^ 8 * m + dm)

/-- RTC_CALT of a view. -/
def caltOf (v : Nat) : Word :=
  let t := v % 86400
  BitVec.ofNat 32 (t / 3600 * 2 ^ 16 + t / 60 % 60 * 2 ^ 8 + t % 60)

/-- The live views of RTC_CALD and RTC_CALT, 0 outside the range. -/
def State.cald (s : State) : Word := (s.calView.map caldOf).getD 0
def State.calt (s : State) : Word := (s.calView.map caltOf).getD 0

/-- R357: V of a date and a time, none when a field is refused. -/
def calValue (d t : Word) : Option Nat :=
  let y := d.toNat / 2 ^ 16 % 256
  let m := d.toNat / 2 ^ 8 % 16
  let dd := d.toNat % 32
  let h := t.toNat / 2 ^ 16 % 32
  let mi := t.toNat / 2 ^ 8 % 64
  let sec := t.toNat % 64
  if m = 0 ∨ 12 < m ∨ 136 < y ∨ dd = 0 ∨ monthDays y m < dd ∨ 23 < h ∨ 59 < mi ∨ 59 < sec then none
  else some (86400 * (daysBeforeYear y + daysBeforeMonth y m + dd - 1) + 3600 * h + mi * 60 + sec)

/-! ## Reads -/

/-- What a read of a clock register returns: the shadows while a freeze is in force, else the live values, which the
dictionary takes always (R354). -/
def State.rtcRead (s : State) (m : Master) (a : Nat) : Word :=
  let f := if m = .dict then none else s.rtc.freeze
  if a = Reg.RTC_SEC then (f.map (·.sec)).getD (BitVec.ofNat 32 s.rtcSec)
  else if a = Reg.RTC_FRAC then (f.map (·.frac)).getD (BitVec.ofNat 32 s.rtcFrac)
  else if a = Reg.RTC_CALT then (f.map (·.calt)).getD s.calt
  else if a = Reg.RTC_CALD then (f.map (·.cald)).getD s.cald
  else if a = Reg.RTC_STAT then
    let w := RTC_STAT.FROZEN.into (s.reg a) (b2n s.rtc.freeze.isSome)
    let w := RTC_STAT.WBUSY.into w (b2n s.rtc.load.isSome)
    let w := RTC_STAT.RCCLK.into w (s.get SYSC_CLKSTAT.LPRC)
    RTC_STAT.CALRANGE.into w (b2n s.calView.isNone)
  else s.reg a

end Sys2Proof.Machine
end

