-- ==== Sys2Proof/Machine/Views.lean ====
section
/-! DEFINITION. Machine/Views.lean: registers of several chapters whose value follows from the state, and what they follow
from. -/
namespace Sys2Proof.Machine

/-- The address of an entry. -/
def tblAddr (i : Nat) : Nat := 0x32000000 + 32 * i

/-- Kinds. -/
def kFree : Nat := 0
def kPeer : Nat := 1
def kRoute : Nat := 2

/-- KIND of an entry. -/
def State.eKind (s : State) (i : Nat) : Nat := (s.rb (tblAddr i)).toNat

/-- Indexes of the entries present, rising: a free entry reads zero at offset 0 (R314), so a present one is listed. -/
def State.tblUsed (s : State) : List Nat :=
  s.mem.cells.filterMap (fun c => if 0x32000000 ≤ c.1 ∧ c.1 < 0x32040000 ∧ c.1 % 32 = 0 then some ((c.1 - 0x32000000) / 32) else none)

/-- Entries of a kind. -/
def State.tblOf (s : State) (k : Nat) : List Nat := s.tblUsed.filter (fun i => s.eKind i == k)

/-- TBL_COUNT. -/
def State.tblCount (s : State) : Word :=
  BitVec.ofNat 32 (65536 * ((s.tblOf kRoute).length) + (s.tblOf kPeer).length)

/-- A number in the record's shadow. -/
def State.rrec (s : State) (o n : Nat) : Nat := leNat ((s.tx.record.drop o).take n)

/-- The record is valid: MAGIC and CRC. -/
def State.recValid (s : State) : Bool := s.rrec 0 4 == 0x4C4D5247 && crc32 (s.tx.record.take 0x154) == s.rrec 0x154 4

/-- RFTX_DUTYn: the sum of the band's buckets. -/
def State.dutyUsed (s : State) (b : Nat) : Nat := ((s.tx.duty[b]?).getD []).foldl (· + ·) 0

/-- The FIR taps sum to 32,768 (R237). -/
def State.firOk (s : State) : Bool :=
  ((List.range 16).foldl (fun (a : Int) n =>
    let w := (s.reg (Reg.RFTX_FIR n)).toNat
    a + signedOf 16 w + signedOf 16 (w / 2 ^ 16)) 0) == 32768

/-- The sequencer holds the front end in transmit. -/
def TxPhase.onAir : TxPhase → Bool
  | .waiting | .preparing | .locked | .grant => false
  | .lead | .paOn | .ramp | .down | .downEnd | .paOff => true

/-- PA_EN is active in this phase. -/
def TxPhase.paActive : TxPhase → Bool
  | .paOn | .ramp | .down | .downEnd => true
  | .waiting | .preparing | .locked | .grant | .lead | .paOff => false

/-- From the start of preparation to the last TX sample (R233). -/
def TxPhase.busy : TxPhase → Bool
  | .waiting => false
  | .preparing | .locked | .grant | .lead | .paOn | .ramp | .down | .downEnd | .paOff => true

/-- R239: the TX synthesiser is free of calibrations: the start-up sequence has set DONE, no TX calibration runs, and an RX
calibration in progress (R181) is not in the first 40 µs of its step 0. -/
def State.synthFree (s : State) : Bool :=
  s.tx.cal.isNone && (s.on RFRX_CALSTAT.DONE ||
    (s.rfrx.calRun != 0 && !(s.rfrx.calRun.getLsbD 0 && decide (s.now < s.rfrx.calAt + 40 * 250))))

/-- The chain is busy (RFTX_STAT.BUSY): a transmission lasts from the start of its preparation to its last TX sample (R233). A
request whose preparation is due prepares as soon as no calibration stands in its way (R239). -/
def State.txBusy (s : State) : Bool := match s.tx.job with
  | some j => j.phase.busy || (j.phase == .waiting && j.prepDue && s.synthFree)
  | none => false

/-- A transmission is between its first and its last TX sample (R234). -/
def State.onAir (s : State) : Bool := match s.tx.job with
  | some j => j.phase.onAir
  | none => false

/-- The registers whose writes are held while the chain is busy. -/
def txHeldReg (a : Nat) : Bool :=
  a == Reg.RFTX_CTRL || a == Reg.RFTX_PWR || a == Reg.RFTX_SEQ || a == Reg.RFTX_COEX || a == Reg.RFTX_MISM
    || (decide (Reg.RFTX_FIR 0 ≤ a) && decide (a < Reg.RFTX_TUNE 8))

/-- What a read of one of these registers returns: the value written (R246). -/
def State.txRead (s : State) (a : Nat) : Word :=
  match regRow a with
  | some row => (s.tx.held.filter (fun e => e.1 == a)).foldl (fun v e => Machine.plainWrite row a v e.2) (s.reg a)
  | none => 0

/-- RFTX_STAT. -/
def State.rftxStat (s : State) : Word :=
  let locked := match s.tx.job with
    | some j => j.phase.busy && j.phase != .preparing && j.phase != .waiting
    | none => false
  BitVec.ofNat 32 (2 ^ 24 * s.get RFTX_STAT.LAST + b2n ((s.otpWord 0x3D58).getLsbD 0) * 128 + b2n (!s.recValid) * 64
    + b2n (!s.firOk) * 32 + s.get RFTX_STAT.MASKF * 16 + b2n (!s.tx.held.isEmpty) * 8 + b2n s.tx.cal.isSome * 4
    + b2n locked * 2 + b2n s.txBusy)

/-- Ticks run free of network time (R18). -/
def State.freeRun (s : State) : Bool := s.on SYSC_TICKSTAT.FREE

/-- R259: the slot number at the present count. -/
def State.slotNumber (s : State) : Nat := if s.freeRun then s.tick.bnd / 10 else s.ntMs / 10

/-! ## Serial ports (chapter 20) -/

/-- HS_RDY between frames: the port is enabled, its clock runs, and no entry drains (R426). -/
def State.hsRdy (s : State) : Bool :=
  s.on SPIS_CTRL.EN && s.on SYSC_CLKGATE.SPIS && (s.power.st == .run || s.power.st == .idle)

/-- Mailbox 1 holds a record (R428). -/
def State.mbox1 (s : State) : Bool := s.on (SPIS_MBBASE.EN 1) && s.get (SPIS_MBPTR.RD 1) != s.get (SPIS_MBPTR.WR 1)

/-- SPIS_ATTN. -/
def State.spisAttn (s : State) : Word := SPIS_ATTN.MBOX.into (s.reg Reg.SPIS_ATTN) (b2n s.mbox1)

/-- HS_IRQ is driven low (R427). -/
def State.hsIrq (s : State) : Bool := (s.spisAttn &&& s.reg Reg.SPIS_ATTNEN) != 0

/-- SPIS_STAT. -/
def State.spisStat (s : State) : Word :=
  SPIS_STAT.PEND.into (SPIS_STAT.RDY.into (s.reg Reg.SPIS_STAT) (b2n s.hsRdy)) (b2n s.spis.pend)

/-- The memory port polls (R413, R417). -/
def State.spimPolls (s : State) : Bool :=
  s.spim.poll.isSome || (match s.spim.direct with
    | some (_, _, .polling) => true
    | _ => false)

/-- SPIM_STAT. -/
def State.spimStat (s : State) : Word :=
  BitVec.ofNat 32 (2 ^ 31 * (b2n (!s.spim.queue.isEmpty || s.spimPolls)) + 2 ^ 30 * b2n s.spim.direct.isSome
    + 2 ^ 29 * b2n s.spim.part.isSome + 2 ^ 24 * s.spim.queue.length)

end Sys2Proof.Machine
end

