-- ==== Sys2Proof/Machine/Commit.lean ====
section
/-! DEFINITION. Machine/Commit.lean: the commit register of the TK blocks and the group commit (R25 to R30, R98): capture,
rejection, going live. What a block's own check tests stands in the block's file. -/
namespace Sys2Proof.Machine

/-- The base address of a TK block (R37). -/
def blkBase : Blk → Nat
  | .loom => 0x40012000 | .shtl => 0x40013000 | .mac => 0x40015000 | .time => 0x40004000 | .ring => 0x40017000

/-- A field of a block's BLK_COMMIT register, given as the field of LOOM_COMMIT (R25: one layout). -/
def cf (b : Blk) (f : Field) : Field := f.at (blkBase b + 0xFF0)

/-- The mask bit of a block in SYSC_GCOMMIT.MASK. -/
def blkBit : Blk → Nat
  | .loom => 0 | .shtl => 1 | .mac => 2 | .time => 3 | .ring => 4

/-- The five TK blocks, lowest mask bit first. -/
def blks : List Blk := [.loom, .shtl, .mac, .time, .ring]

/-- The members a mask names. -/
def members (mask : BitVec 5) : List Blk := blks.filter (fun b => mask.getLsbD (blkBit b))

/-- The domain of a TK block is powered. -/
def State.blkOn (s : State) : Blk → Bool
  | .loom | .shtl | .mac => s.radioOn
  | .time => true
  | .ring => s.ringOn

/-- The own pending commit of a block. -/
def State.pend (s : State) : Blk → Option PendingSet
  | .loom => s.tick.loom | .shtl => s.tick.shtl | .mac => s.tick.mac | .time => s.tick.time | .ring => s.tick.ring

/-- The state with a block's pending commit replaced. -/
def State.setPend (s : State) (b : Blk) (p : Option PendingSet) : State :=
  { s with tick := match b with
      | .loom => { s.tick with loom := p } | .shtl => { s.tick with shtl := p } | .mac => { s.tick with mac := p }
      | .time => { s.tick with time := p } | .ring => { s.tick with ring := p } }

/-- The shadow registers of a block and the live registers they give (the TK fields of its chapter). -/
def shadowPairs : Blk → List (Nat × Nat)
  | .loom => (Reg.LOOM_CCACFG, Reg.LOOM_CCACFG_LIVE) ::
      ((List.range 16).flatMap (fun n => [(Reg.LOOM_MSA n, Reg.LOOM_MSA_LIVE n), (Reg.LOOM_MSB n, Reg.LOOM_MSB_LIVE n),
        (Reg.LOOM_MSC n, Reg.LOOM_MSC_LIVE n), (Reg.LOOM_MSD n, Reg.LOOM_MSD_LIVE n)]) ++
       (List.range 96).map (fun n => (Reg.LOOM_LANE n, Reg.LOOM_LANE_LIVE n)))
  | .shtl => (Reg.SHTL_ENGCFG, Reg.SHTL_ENGCFG_LIVE) ::
      (List.range 32).flatMap (fun n => [(Reg.SHTL_JCA n, Reg.SHTL_JCA_LIVE n), (Reg.SHTL_JCB n, Reg.SHTL_JCB_LIVE n)])
  | .mac => [(Reg.MAC_TIMING, Reg.MAC_TIMING_LIVE), (Reg.MAC_BCNCFG, Reg.MAC_BCNCFG_LIVE),
      (Reg.MAC_BCNSLOT, Reg.MAC_BCNSLOT_LIVE), (Reg.MAC_HOPCFG, Reg.MAC_HOPCFG_LIVE)] ++
      (List.range 4).map (fun n => (Reg.MAC_HOP n, Reg.MAC_HOP_LIVE n)) ++
      (List.range 8).map (fun n => (Reg.MAC_SF n, Reg.MAC_SF_LIVE n)) ++
      (List.range 64).flatMap (fun n => [(Reg.MAC_LINKA n, Reg.MAC_LINKA_LIVE n), (Reg.MAC_LINKB n, Reg.MAC_LINKB_LIVE n)])
  | .time => (List.range 7).flatMap (fun n => [(Reg.TIME_CCTL n, Reg.TIME_CCTL_LIVE n),
      (Reg.TIME_CTGT_LO n, Reg.TIME_CTGT_LO_LIVE n), (Reg.TIME_CTGT_HI n, Reg.TIME_CTGT_HI_LIVE n),
      (Reg.TIME_CPER_LO n, Reg.TIME_CPER_LO_LIVE n), (Reg.TIME_CPER_HI n, Reg.TIME_CPER_HI_LIVE n)])
  | .ring => [(Reg.RING_PLAN, Reg.RING_PLAN_LIVE)]

/-- R26: the whole shadow of a block, as the live registers it will give. -/
def State.shadow (s : State) (b : Blk) : List (Nat × Word) := (shadowPairs b).map (fun p => (p.2, s.reg p.1))

/-- The state with live registers taking their pending values; the data path reads live registers only (R12). -/
def State.takeLive (s : State) (l : List (Nat × Word)) : State := l.foldl (fun s e => s.setReg e.1 e.2) s

/-- R27: a rejected commit: REJ and COMMIT_ERR set, PEND clears, the live set and the shadow stay. -/
def rejectOwn (b : Blk) (code : Nat) (s : State) : State :=
  (((s.setPend b none).put (cf b LOOM_COMMIT.PEND) 0).put (cf b LOOM_COMMIT.REJ) 1).put (cf b LOOM_COMMIT.COMMIT_ERR) code

/-- A member of a rejected group: REJ and its code; nothing of it is pending any more. -/
def rejectMember (b : Blk) (code : Nat) (s : State) : State :=
  ((s.put (cf b LOOM_COMMIT.PEND) 0).put (cf b LOOM_COMMIT.REJ) 1).put (cf b LOOM_COMMIT.COMMIT_ERR) code

/-- The codes of BLK_COMMIT.COMMIT_ERR that every block has (R25). -/
def errGroup : Nat := 1
def errBusy : Nat := 2

/-- R30: the group is rejected: REJ and FAILBLK, PEND clears; each listed member that is powered sets REJ with its code. -/
def rejectGroup (failblk : Nat) (codes : List (Blk × Nat)) (s : State) : State :=
  let s := codes.foldl (fun s e => if s.blkOn e.1 then rejectMember e.1 e.2 s else s) s
  ((({ s with tick := { s.tick with group := none } }.put SYSC_GCOMMIT.PEND 0).put SYSC_GCOMMIT.REJ 1).put
    SYSC_GCOMMIT.FAILBLK failblk)

/-- R26, R30: a block's own GO: captured when nothing of the block is pending, else discarded with OVR. -/
def commitGo (b : Blk) (s : State) : State :=
  let inGroup := match s.tick.group with
    | some (m, _, _) => m.getLsbD (blkBit b)
    | none => false
  if (s.pend b).isSome || inGroup then s.put (cf b LOOM_COMMIT.OVR) 1
  else (s.setPend b (some ⟨s.shadow b, s.now, false⟩)).put (cf b LOOM_COMMIT.PEND) 1

/-- R30: a group GO. In order: a GO while PEND = 1 is discarded with OVR; a member's domain is off; a member's own commit
is pending; otherwise every member captures. The check of the captured sets completes with `groupChecked`. -/
def groupGo (mask : BitVec 5) (s : State) : State :=
  if s.tick.group.isSome then s.put SYSC_GCOMMIT.OVR 1
  else
    let s := s.put SYSC_GCOMMIT.MASK mask.toNat
    let ms := members mask
    if ms.any (fun b => !(s.blkOn b)) then
      (s.put SYSC_GCOMMIT.REJ 1).put SYSC_GCOMMIT.FAILBLK 0xF
    else match ms.find? (fun b => (s.pend b).isSome) with
      | some b =>
        let s := ms.foldl (fun s c =>
          if (s.pend c).isSome then s.put (cf c LOOM_COMMIT.COMMIT_ERR) errBusy else rejectMember c errGroup s) s
        (s.put SYSC_GCOMMIT.REJ 1).put SYSC_GCOMMIT.FAILBLK (blkBit b)
      | none =>
        let s := ms.foldl (fun s c => (s.setPend c (some ⟨s.shadow c, s.now, false⟩)).put (cf c LOOM_COMMIT.PEND) 1) s
        ({ s with tick := { s.tick with group := some (mask, s.now, ms.isEmpty) } }).put SYSC_GCOMMIT.PEND 1

/-- R27, R30: the check of the group has a verdict: `codes` gives each failing member its code. -/
def groupChecked (mask : BitVec 5) (goAt : Nat) (codes : List (Blk × Nat)) (s : State) : State :=
  let ms := members mask
  match codes with
  | [] => { s with tick := { s.tick with group := some (mask, goAt, true) } }
  | (f, _) :: _ =>
    let s := ms.foldl (fun s b => s.setPend b none) s
    rejectGroup (blkBit f) (ms.map (fun b => (b, ((codes.find? (fun e => e.1 == b)).map (·.2)).getD errGroup))) s

/-- R27, R28: a commit of a block goes live, its own or a group's: DONE, GEN, PEND, COMMIT_ERR. -/
def goLive (b : Blk) (l : List (Nat × Word)) (s : State) : State :=
  let s := ((s.takeLive l).setPend b none).inc (cf b LOOM_COMMIT.GEN)
  ((s.put (cf b LOOM_COMMIT.DONE) 1).put (cf b LOOM_COMMIT.COMMIT_ERR) 0).put (cf b LOOM_COMMIT.PEND) 0

/-- R28: at least 50 µs have passed since GO. -/
def State.settled (s : State) (goAt : Nat) : Bool := decide (goAt + us 50 ≤ s.now)

/-- R28, R30: the blocks whose commits go live at this boundary (`slot`: it is a slot boundary), each with its set. -/
def dueOwn (slot : Bool) (s : State) : List (Blk × PendingSet) :=
  let inGroup (b : Blk) : Bool := match s.tick.group with
    | some (m, _, _) => m.getLsbD (blkBit b)
    | none => false
  blks.filterMap (fun b => match s.pend b with
    | some p => if p.passed && s.settled p.goAt && (b != .mac || slot) && !(inGroup b) then some (b, p) else none
    | none => none)

/-- R30: the group goes live at this boundary. -/
def groupDue (slot : Bool) (s : State) : Bool :=
  match s.tick.group with
  | some (m, goAt, passed) => passed && s.settled goAt && (!(m.getLsbD 2) || slot)
  | none => false

/-- R30: at its boundary a group goes live in every member; the empty group changes no block. -/
def groupLive (s : State) : State :=
  match s.tick.group with
  | none => s
  | some (m, _, _) =>
    let s := (members m).foldl (fun s b => match s.pend b with
      | some p => goLive b p.live s
      | none => s) s
    (({ s with tick := { s.tick with group := none } }).put SYSC_GCOMMIT.PEND 0).put SYSC_GCOMMIT.DONE 1

/-- R30, R98: domains of members switch off: own commits there are lost with PEND cleared and neither DONE nor REJ; a
group that names one of them is rejected with FAILBLK = 0xF, its members still powered report GROUP. `off` are the blocks
that lose power; apply it after their power state has changed. -/
def commitsLost (off : List Blk) (s : State) : State :=
  let grp : Option (BitVec 5) := match s.tick.group with
    | some (m, _, _) => if off.any (fun b => m.getLsbD (blkBit b)) then some m else none
    | none => none
  let s := match grp with
    | some m =>
      let s := (members m).foldl (fun s b => s.setPend b none) s
      rejectGroup 0xF ((members m).filterMap (fun b => if off.contains b then none else some (b, errGroup))) s
    | none => s
  off.foldl (fun s b => (s.setPend b none).put (cf b LOOM_COMMIT.PEND) 0) s

/-- R98: at entry to deep sleep every pending commit and the group are lost without DONE or REJ. -/
def commitsDropped (s : State) : State :=
  let s := blks.foldl (fun s b => (s.setPend b none).put (cf b LOOM_COMMIT.PEND) 0) s
  ({ s with tick := { s.tick with group := none } }).put SYSC_GCOMMIT.PEND 0

end Sys2Proof.Machine
end

