-- ==== Sys2Proof/Machine/Samples.lean ====
section
/-! DEFINITION. Machine/Samples.lean: from ADC codes to lane samples (R188, R189, R194, R195, R204). The codes are the
environment's, the coefficients of the bank and the arithmetic of the NCO are not given (log entry 2); shift, bin, window,
NCO phase and digital gain are the rules'. -/
namespace Sys2Proof.Machine

/-- A tick has 25,600 ADC samples and 400 lane samples (R16). -/
def adcPerTick : Nat := 25600
def lanePerTick : Nat := 400

/-- The analog code after the changes that fell at or before an ADC sample. -/
def codeIn (start : Nat) (changes : List (Nat × Nat)) (k : Nat) : Nat :=
  match (changes.filter (fun e => decide (e.1 ≤ k))).getLast? with
  | some e => e.2
  | none => start

/-- The code in force at an ADC sample of the notice's tick; a negative one lies in the tick before. -/
def GainNotice.codeAt (g : GainNotice) (k : Int) : Nat :=
  if 0 ≤ k then codeIn g.code0 g.codes k.toNat else codeIn g.before.1 g.before.2 (k + adcPerTick).toNat

/-- R188: the 18-bit word of an ADC sample: its code shifted left by 8 − CODE. -/
def adcWord (g : GainNotice) (b : Nat) (k : Int) : Int × Int :=
  let c := g.codeAt k
  let x := if 0 ≤ k then Config.adcSample b k.toNat c else Config.adcSample (b - 1) (k + adcPerTick).toNat c
  (x.1.toInt * 2 ^ (8 - c), x.2.toInt * 2 ^ (8 - c))

/-- R189: the wide output of a lane: bin n + 16 over the 1,024 words that end at ADC sample 64s + 63. -/
def wideSample (g : GainNotice) (b n s : Nat) : Int × Int :=
  Config.filterBank (n + 16) ((List.range 1024).map (fun (i : Nat) => adcWord g b ((64 * s + 63 : Nat) - (i : Int))))

/-- A value times 2^(DG − 15), rounded (to which side of a tie is not given), saturated to 10 bits (R195). -/
def dgScale (dg : Nat) (x : Int) : Int :=
  let u : Int := 2 ^ (15 - dg)
  let q := x / u
  clampInt (-512) 511 (if 2 * (x % u) < u ∨ (2 * (x % u) = u ∧ Config.tieUp x = false) then q else q + 1)

/-- The setting of a lane at a lane sample counted from reset. -/
def LaneSt.setAt (x : LaneSt) (i : Nat) : LaneSet :=
  match x.path.find? (fun e => decide (e.at_ ≤ i)) with
  | some e => e
  | none => { at_ := i, nco := x.nco, dg := x.dg, phase := 0 }

/-- The phase of the NCO at a lane sample, in 2^−16 turns. -/
def LaneSt.phaseAt (x : LaneSt) (i : Nat) : Nat :=
  let e := x.setAt i
  (((e.phase : Int) + e.nco * ((i - e.at_ : Nat) : Int)) % 65536).toNat

/-- NCO and DG take new values from a lane sample on; settings too old for the lane buffer are forgotten. -/
def LaneSt.setFrom (i : Nat) (nco : Int) (dg : Nat) (x : LaneSt) : LaneSt :=
  let young := x.path.takeWhile (fun e => decide (i < e.at_ + 4 * lanePerTick))
  { x with nco := nco, dg := dg, path := { at_ := i, nco := nco, dg := dg, phase := x.phaseAt i } :: (young ++ (x.path.drop young.length).take 1) }

/-- R194, R195, R204: sample `s` of lane `n` in the tick that boundary `b` started, as the lane buffer holds it. -/
def laneSample (x : LaneSt) (g : GainNotice) (b n s : Nat) : BitVec 20 :=
  let i := lanePerTick * b + s
  let w := Config.ncoMix (x.phaseAt i) (wideSample g b n s)
  let d := (x.setAt i).dg
  (BitVec.ofInt 10 (dgScale d w.2) ++ BitVec.ofInt 10 (dgScale d w.1) : BitVec 20)

end Sys2Proof.Machine
end

