-- ==== Sys2Proof/Machine/Shuttle.lean ====
section
/-! DEFINITION. Machine/Shuttle.lean: packets, jobs, deques and the Shuttle's rules (chapter 07), with the packet states
and statuses they end (chapters 09 and 10). -/
namespace Sys2Proof.Machine

/-! ## Lanes, packets, sentinels -/

/-- A lane's state. -/
def State.lane (s : State) (n : Nat) : LaneSt := if h : n < 96 then s.loom.lanes[n] else {}

/-- The state with a lane's state changed. -/
def State.modLane (s : State) (n : Nat) (f : LaneSt → LaneSt) : State :=
  if h : n < 96 then { s with loom := { s.loom with lanes := s.loom.lanes.set n (f (s.loom.lanes[n])) } } else s

/-- Lanes of a channel by BOND (R190). -/
def bondLanes (b : Nat) : Nat := if b = 0 then 1 else if b = 1 then 2 else if b = 2 then 4 else 8

/-- A live field of a lane's entry or of a mode set (R192). -/
def State.laneF (s : State) (n : Nat) (f : Nat → Field) : Nat := s.get ((f n).at (Reg.LOOM_LANE_LIVE n))
def State.msA (s : State) (n : Nat) (f : Nat → Field) : Nat := s.get ((f n).at (Reg.LOOM_MSA_LIVE n))
def State.msB (s : State) (n : Nat) (f : Nat → Field) : Nat := s.get ((f n).at (Reg.LOOM_MSB_LIVE n))
def State.msC (s : State) (n : Nat) (f : Nat → Field) : Nat := s.get ((f n).at (Reg.LOOM_MSC_LIVE n))
def State.msD (s : State) (n : Nat) (f : Nat → Field) : Nat := s.get ((f n).at (Reg.LOOM_MSD_LIVE n))

/-- A live field of a job class (R153). -/
def State.jcA (s : State) (n : Nat) (f : Nat → Field) : Nat := s.get ((f n).at (Reg.SHTL_JCA_LIVE n))
def State.jcB (s : State) (n : Nat) (f : Nat → Field) : Nat := s.get ((f n).at (Reg.SHTL_JCB_LIVE n))

/-- R170: the lane's 200 kHz lie within 750.0 to 960.0 MHz at the live centre; frequencies in 50 kHz from 750 MHz. -/
def State.inBand (s : State) (n : Nat) : Bool :=
  let centre : Int := 2 * (s.get RFRX_SPAN.LIVE : Int) + (2 * (n : Int) - 95) * 2
  decide (2 ≤ centre) && decide (centre + 2 ≤ 4200)

/-- The lane is the lowest lane of an enabled channel of the live plan (R190). -/
def State.planChan (s : State) (n : Nat) : Bool :=
  decide (n < 96) && s.laneF n LOOM_LANE.EN == 1 && n % bondLanes (s.laneF n LOOM_LANE.BOND) == 0

/-- Such a lane whose channel is in band: it has a sentinel (R192). An out-of-band lane is absent from the plan (R170), and a
channel that lacks one of its lanes is none (log entry 27). -/
def State.isChannel (s : State) (n : Nat) : Bool :=
  s.planChan n && (List.range (bondLanes (s.laneF n LOOM_LANE.BOND))).all (fun i => s.inBand (n + i))

/-- The lowest lane of the channel that holds a lane. -/
def State.channelOf (s : State) (n : Nat) : Nat := n - n % bondLanes (s.laneF n LOOM_LANE.BOND)

/-- An enabled lane of a channel in band. -/
def State.served (s : State) (n : Nat) : Bool := s.laneF n LOOM_LANE.EN == 1 && s.isChannel (s.channelOf n)

/-- The lane sample that the Loom writes next, counted 400 a boundary. -/
def State.laneIdx (s : State) : Nat := lanePerTick * s.tick.bnd + s.laneSampleNow

/-- The lanes of a channel take NCO and DG from a lane sample on: the members run at the values of the lowest (R194, R195). -/
def setTuning (lane bond i : Nat) (nco : Int) (dg : Nat) (s : State) : State :=
  (List.range (bondLanes bond)).foldl (fun s k => s.modLane (lane + k) (LaneSt.setFrom i nco dg)) s

/-- The sentinel's state codes (R201, LOOM_SENTn.STATE). -/
def sentOff : Nat := 0
def sentSearch : Nat := 1
def sentPreamble : Nat := 2
def sentFrame : Nat := 3
def sentLocked : Nat := 4

/-- The members of a channel report the lowest lane's state (R196). -/
def setSent (lane bond st : Nat) (s : State) : State :=
  (List.range (bondLanes bond)).foldl (fun s i => if lane + i < 96 then s.put (LOOM_SENT.STATE (lane + i)) st else s) s

/-- The packet with a number. -/
def State.packet (s : State) (num : Nat) : Option Packet := s.loom.packets.find? (fun p => p.num == num)

/-- The state with a packet changed. -/
def State.modPacket (s : State) (num : Nat) (f : Packet → Packet) : State :=
  { s with loom := { s.loom with packets := s.loom.packets.map (fun p => if p.num = num then f p else p) } }

/-- Channels with a packet in progress (LOOM_STAT.ACTIVE). -/
def State.active (s : State) : Nat := (s.loom.lanes.toList.filter (fun l => l.pkt.isSome)).length

/-- R194, R197: the packet's samples end: the sentinel returns to SEARCH, the NCO to NCOFS, DG to AGC control. -/
def releaseLane (lane bond : Nat) (s : State) : State :=
  let ncofs := s.getI ((LOOM_LANE.NCOFS lane).at (Reg.LOOM_LANE_LIVE lane))
  let s := (setTuning lane bond s.laneIdx ncofs (s.lane lane).dg s).modLane lane (fun l => { l with pkt := none, dgFrozen := false })
  let s := setSent lane bond (if s.isChannel lane then sentSearch else sentOff) s
  s.put LOOM_STAT.ACTIVE s.active

/-- R222: packet statuses, and the counter each is counted in. -/
def stDone : Nat := 0x01
def stModesw : Nat := 0x05
def stRestarted : Nat := 0x40
def stCaptured : Nat := 0x41
def stBlanked : Nat := 0x42
def stRetime : Nat := 0x43
def stPlanChange : Nat := 0x44
def stHalted : Nat := 0x45
def stOverrun : Nat := 0x46
def stFault : Nat := 0x47
def stNodeque : Nat := 0x48
def stCrcfail : Nat := 0x50
def stNobuf : Nat := 0x51
def stBaddesc : Nat := 0x52

/-- The MAC_RXCNTn that a status is counted in (R222); an unlisted code is OTHER. -/
def rxCounterOf (st : Nat) : Nat :=
  if st = 0x01 then 0 else if st = 0x02 then 1 else if st = 0x03 then 2 else if st = 0x04 then 3
  else if st = 0x06 then 4 else if st = 0x05 then 5 else if st = 0x40 then 6 else if st = 0x41 then 7
  else if st = 0x42 then 8 else if st = 0x43 ∨ st = 0x44 ∨ st = 0x45 ∨ st = 0x48 then 9
  else if st = 0x46 then 10 else if st = 0x47 then 11 else if st = 0x50 then 12 else if st = 0x51 then 13 else 14

/-- R222: a packet status is counted, and MAC_RXLAST takes a status other than DONE. -/
def countStatus (st lane num : Nat) (s : State) : State :=
  let s := s.inc (MAC_RXCNT.COUNT (rxCounterOf st))
  if st = stDone then s
  else ((s.put MAC_RXLAST.STATUS st).put MAC_RXLAST.LANE lane).put MAC_RXLAST.PKT num

/-! ## Engines -/

/-- An engine's state. -/
def State.eng (s : State) (n : Fin 32) : Engine := s.shtl.eng[n]

/-- The state with an engine changed. -/
def State.modEng (s : State) (n : Fin 32) (f : Engine → Engine) : State :=
  { s with shtl := { s.shtl with eng := s.shtl.eng.set n (f s.shtl.eng[n]) } }

/-- Engines in service (R164): the live COUNT, as the commit check keeps it within 1 to 32. -/
def State.engCount (s : State) : Nat := s.get (SHTL_ENGCFG.COUNT.at Reg.SHTL_ENGCFG_LIVE)

/-- Weft cycles since the job's first bundle (WIO_JOBCYC): the Weft clock is 96 MHz (R35). -/
def State.jobCycles (s : State) (n : Fin 32) : Nat := (s.now - (s.eng n).startAt) * 96 / 250

/-- W0 fields of a job. -/
def Job.tag (j : Job) : Nat := j.w0.toNat / 2 ^ 16
def Job.lane (j : Job) : Nat := j.w0.toNat / 2 ^ 8 % 256
def Job.jclass (j : Job) : Nat := j.w0.toNat % 32
def Job.ctx (j : Job) : Nat := j.w3.toNat / 2 ^ 24
/-- W2 KIND, FIRST and COUNT of a TAUT job. -/
def Job.kind (j : Job) : Nat := j.w2.toNat / 2 ^ 30
def Job.count (j : Job) : Nat := j.w2.toNat % 1024

/-- Is the job one of this packet's (R148: TAG is the packet number modulo 2^16)? -/
def Job.ofPacket (j : Job) (p : Packet) : Bool := j.poster == .shuttle && j.tag == p.num % 2 ^ 16 && j.lane == p.lane

/-- The packet a TAUT job belongs to. -/
def State.packetOf (s : State) (j : Job) : Option Packet := s.loom.packets.find? (fun p => j.ofPacket p)

/-- Priority codes (SHTL_JCAn.PRIO). -/
def prioTaut : Nat := 0
def prioSlack : Nat := 1
def prioLoose : Nat := 2

/-- The status that the Shuttle assigns (R149). -/
def jobOverrun : Nat := 0x80
def jobFault : Nat := 0x81
def jobOverbudget : Nat := 0x82
def jobCancelled : Nat := 0x83

/-- R163: the completion entry of a firmware-posted job. -/
def completion (j : Job) (status cycles : Nat) (s : State) : State :=
  if !(s.on SHTL_CQBASE.EN) then s
  else if (s.get SHTL_CQIDX.HEAD + 1) % 64 = s.get SHTL_CQIDX.TAIL then s.sat SHTL_CQIDX.DROP
  else
    let a := s.get SHTL_CQBASE.ADDR * 512 + 8 * s.get SHTL_CQIDX.HEAD
    let w0 := 2 ^ 16 * j.tag + 2 ^ 8 * status + j.jclass
    let (s1, ok) := memWrite .shuttle a .b64 (w0 + cycles % 2 ^ 32 * 2 ^ 32) s
    if ok then ((s1.put SHTL_CQIDX.HEAD ((s.get SHTL_CQIDX.HEAD + 1) % 64)).put SHTL_IRQ.CQ 1)
    else s1.sat SHTL_CQIDX.DROP

/-- SHTL_LOAD.BUSY: the engine has run its job since the later of its start and the tick's. -/
def chargeBusy (n : Fin 32) (s : State) : State :=
  { s with shtl := { s.shtl with busy := s.shtl.busy + (s.now - max (s.eng n).startAt s.tick.startAt) } }

/-- The running job of an engine ends: the engine is idle, or parks when it has left service (R164). -/
def freeEngine (n : Fin 32) (s : State) : State :=
  (chargeBusy n s).modEng n (fun e => { e with
    st := if e.parking then .parked else .idle, parking := false, job := none, dma := [], ending := none,
    lastClass := ((e.job.map Job.jclass).getD e.lastClass) })

/-- R161: a queued job is taken off every deque. -/
def dropQueued (p : Job → Bool) (s : State) : State :=
  { s with shtl := { s.shtl with eng := s.shtl.eng.map (fun e => { e with deque := e.deque.filter (fun j => !(p j)) }) } }

/-- All engine numbers. -/
def engines : List (Fin 32) := List.finRange 32

/-- R160, R161: the running jobs that satisfy `p` stop; their engines are free. -/
def stopRunning (p : Job → Bool) (s : State) : State :=
  engines.foldl (fun s n => match (s.eng n).job with
    | some j => if (s.eng n).st == .running && p j then freeEngine n s else s
    | none => s) s

/-- R161: every queued and running job of a packet ends CANCELLED. -/
def cancelJobs (p : Packet) (s : State) : State := stopRunning (fun j => j.ofPacket p) (dropQueued (fun j => j.ofPacket p) s)

/-- R197, R222: a packet ends with a status: its jobs end, its status is counted unless the intake has already decided it
(R221), its lane returns to SEARCH when the packet is still the one in progress there. -/
def endPacket (p : Packet) (st : Nat) (s : State) : State :=
  let s := cancelJobs p s
  let s := if p.accepted then s else countStatus st p.lane p.num s
  let s := { s with loom := { s.loom with packets := s.loom.packets.filter (fun q => !(q.num == p.num)) } }
  if (s.lane p.lane).pkt == some p.num then releaseLane p.lane p.bond s else s

/-- R197: the packet is in progress on its channel: its last lane sample has not passed. -/
def State.inAir (s : State) (p : Packet) : Bool := (s.lane p.lane).pkt == some p.num

/-- Every packet that satisfies `f` ends with a status. -/
def endPackets (f : Packet → Bool) (st : Nat) (s : State) : State :=
  (s.loom.packets.filter f).foldl (fun s p => endPacket p st s) s

/-! ## Making and placing jobs -/

/-- Insertion into a deque, kept by DEADLINE then lane (R155). -/
def dequeInsert (j : Job) : List Job → List Job
  | [] => [j]
  | k :: ks =>
    let a := j.endBnd.getD 0; let b := k.endBnd.getD 0
    if a < b ∨ (a = b ∧ j.lane < k.lane) then j :: k :: ks else k :: dequeInsert j ks

/-- The engines from `home` on in ring order, modulo COUNT (R155). -/
def State.ringFrom (s : State) (home : Nat) : List (Fin 32) :=
  (List.range s.engCount).map (fun i => Fin.ofNat 32 ((home + i) % s.engCount))

/-- R155: the job goes to its home deque, or the first after it that is neither faulted nor full; none when no engine has
room. -/
def pushJob (j : Job) (s : State) : Option State :=
  match (s.ringFrom (j.lane % s.engCount)).find? (fun n => (s.eng n).st != .faulted && decide ((s.eng n).deque.length < 8)) with
  | some n => some (s.modEng n (fun e => { e with deque := dequeInsert j e.deque }))
  | none => none

/-- R148, R151: a TAUT job of a packet: class, KIND, FIRST, COUNT, the number of boundaries to its end. -/
def tautJob (p : Packet) (cls kind first count ends : Nat) (s : State) : Job :=
  { w0 := BitVec.ofNat 32 (p.num % 2 ^ 16 * 2 ^ 16 + 2 ^ 8 * p.lane + cls)
    w1 := BitVec.ofNat 32 (s.get SYSC_TICK.TICK + (ends - 1))
    w2 := BitVec.ofNat 32 (2 ^ 30 * kind + 2 ^ 16 * first + count)
    w3 := BitVec.ofNat 32 (2 ^ 24 * p.lane + 2 ^ 16 * p.bond + p.mset)
    prio := prioTaut, entry := s.jcA cls SHTL_JCA.ENTRY, budget := s.jcB cls SHTL_JCB.BUDGET
    poster := .shuttle, endBnd := some (s.tick.bnd + ends), postBnd := s.tick.bnd }

/-- R155, R161, R165: a TAUT job is made for a packet: HALT discards it and ends the packet HALTED, no room ends it
NODEQUE. -/
def makeTaut (p : Packet) (j : Job) (s : State) : State :=
  if s.on SHTL_CTRL.HALT then endPacket p stHalted s
  else match pushJob j s with
    | some s' => s'
    | none => endPacket p stNodeque s

/-- The job of a packet is queued or running. -/
def State.hasJob (s : State) (p : Packet) : Bool :=
  s.shtl.eng.toList.any (fun e => e.deque.any (fun j => j.ofPacket p)
    || (e.st == .running && ((e.job.map (fun j => j.ofPacket p)).getD false)))

/-- R150, R151, R198: at a boundary the Shuttle makes the chunk of each packet in progress, in ascending order of lane: the
first chunk from FIRST, a continuing one of 400 samples, none when at most 400 samples are still to come and the mode set
names a tail class. -/
def makeChunk (num : Nat) (s : State) : State :=
  match s.packet num with
  | none => s
  | some p =>
    let cls := s.msA p.mset LOOM_MSA.CHUNKCLS
    let tail := s.msA p.mset LOOM_MSA.TAILEN == 1
    match p.first with
    | some f => makeTaut { p with first := none } (tautJob p cls 0 f (400 - f) 1 s) (s.modPacket num (fun p => { p with first := none }))
    | none =>
      match p.remain with
      | some r =>
        if tail && decide (r ≤ 400) then s
        else makeTaut p (tautJob p cls 1 0 400 1 s)
          (s.modPacket num (fun p => { p with remain := if tail then some (r - 400) else p.remain }))
      | none => makeTaut p (tautJob p cls 1 0 400 1 s) s

/-- The numbers of the packets, by ascending lane. -/
def State.packetsByLane (s : State) : List Nat :=
  (List.range 96).flatMap (fun l => (s.loom.packets.filter (fun p => p.lane == l)).map (·.num))

/-- R150: the tail job of the packet on a channel: at most 400 samples still to come, its mode set names a tail class, the
writing chunk has ended, and the Loom write position has passed the last of them. -/
def tailDue (s : State) (p : Packet) : Bool :=
  match p.remain with
  | some r => decide (r ≤ 400) && s.msA p.mset LOOM_MSA.TAILEN == 1 && !p.tailMade && p.first.isNone
      && !(s.hasJob p) && decide (r ≤ s.laneSampleNow) && !s.tick.realigned
  | none => false

/-- R150: the tail jobs of a channel's packets that have become due are made, with COUNT = REMAIN. -/
def makeTail (lane : Nat) (s : State) : State :=
  (s.loom.packets.filter (fun p => p.lane == lane && tailDue s p)).foldl (fun s p =>
    makeTaut { p with tailMade := true } (tautJob p (s.msA p.mset LOOM_MSA.TAILCLS) 2 0 (p.remain.getD 0) 2 s)
      (s.modPacket p.num (fun p => { p with tailMade := true }))) s

/-! ## Posting (R162) -/

/-- SHTL_POSTSTAT codes. -/
def postOk : Nat := 0
def postFull : Nat := 1
def postClass : Nat := 2
def postCtx : Nat := 3

/-- The job that a poster makes of W0, W2, W3 (R151, R162). -/
def postedJob (who : Poster) (w0 w2 w3 : Word) (s : State) : Job :=
  let c := w0.toNat % 32
  let slack := s.jcA c SHTL_JCA.PRIO == prioSlack
  { w0 := w0, w1 := if slack then BitVec.ofNat 32 (s.get SYSC_TICK.TICK + 1) else 0, w2 := w2, w3 := w3
    prio := s.jcA c SHTL_JCA.PRIO, entry := s.jcA c SHTL_JCA.ENTRY, budget := s.jcB c SHTL_JCB.BUDGET
    poster := who, endBnd := if slack then some (s.tick.bnd + 2) else none, postBnd := s.tick.bnd }

/-- The result of a post: CLASS, then CTX, then FULL. -/
def postResult (w0 w3 : Word) (s : State) : Nat :=
  let c := w0.toNat % 32
  let ctx := w3.toNat / 2 ^ 24
  let pr := s.jcA c SHTL_JCA.PRIO
  if s.jcA c SHTL_JCA.EN = 0 ∨ (pr ≠ prioSlack ∧ pr ≠ prioLoose) then postClass
  else if ctx ≠ 0xFF ∧ ¬ (96 ≤ ctx ∧ ctx ≤ 127) then postCtx
  else if 64 ≤ (if pr = prioSlack then s.shtl.slack else s.shtl.loose).length then postFull
  else postOk

/-- The job joins its queue; SLACK is ordered by DEADLINE then posting order, which one posting rule makes posting order. -/
def enqueue (j : Job) (s : State) : State :=
  if j.prio = prioSlack then
    let before := s.shtl.slack.filter (fun k => decide (k.endBnd.getD 0 ≤ j.endBnd.getD 0))
    let after := s.shtl.slack.filter (fun k => decide (j.endBnd.getD 0 < k.endBnd.getD 0))
    { s with shtl := { s.shtl with slack := before ++ [j] ++ after } }
  else { s with shtl := { s.shtl with loose := s.shtl.loose ++ [j] } }

/-- R162: a post of firmware: the result shows in SHTL_POSTSTAT of the writing master. -/
def firmwarePost (m : Master) (w0 : Word) (s : State) : State :=
  let w2 := s.reg Reg.SHTL_PW2
  let w3 := s.reg Reg.SHTL_PW3
  let r := postResult w0 w3 s
  let s1 := { s with shtl := { s.shtl with
    postStat := Sparse.set (fun _ => 0#32) s.shtl.postStat (masterId m) (BitVec.ofNat 32 r) } }
  if r = postOk then enqueue (postedJob .firmware w0 w2 w3 s) s1
  else if r = postFull then s1.put SHTL_IRQ.PREJ 1
  else s1

/-- R162: a post of the MAC or the Loom; answers whether it was accepted. A full queue sets PREJ. -/
def internalPost (who : Poster) (w0 w2 w3 : Word) (s : State) : State × Bool :=
  let r := postResult w0 w3 s
  if r = postOk then (enqueue (postedJob who w0 w2 w3 s) s, true)
  else if r = postFull then (s.put SHTL_IRQ.PREJ 1, false)
  else (s, false)

/-! ## Taking jobs (R156 to R158) -/

/-- The lengths of the deques. -/
def State.dequeLens (s : State) : List Nat := s.shtl.eng.toList.map (fun e => e.deque.length)

/-- R157: the deque that a thief picks by their lengths: the most entries, the first met on a tie, from its neighbour on. -/
def victim (len : List Nat) (s : State) (n : Fin 32) : Option (Fin 32) :=
  ((s.ringFrom (n.val + 1)).filter (fun m => m != n && (s.eng m).st != .faulted && (s.eng m).st != .parked)).foldl
    (fun b m => if len.getD m.val 0 = 0 then b else match b with
      | none => some m
      | some k => if len.getD k.val 0 < len.getD m.val 0 then some m else some k) none

/-- R157, R158: the deque whose tail a thief takes: its pick by the lengths at the start of the cycle, or, when none is left
there, by those now. -/
def stealFrom (len : List Nat) (s : State) (n : Fin 32) : Option (Fin 32) :=
  match victim len s n with
  | some v => if (s.eng v).deque = [] then victim s.dequeLens s n else some v
  | none => none

/-- R208: NEXT of a notice: the announcement for the tick that a boundary count starts. -/
def State.noticeNext (s : State) (forBnd : Nat) : Nat :=
  match s.loom.announce with
  | some a => if a.atBnd = forBnd then (if a.up then 1 else 2) else 0
  | none => 0

/-- R151: the boundary count that starts a job's sample tick, DEADLINE − 1; a LOOSE job has no deadline, and the tick before
the one in progress is taken (log entry 43). -/
def sampleBnd (j : Job) (s : State) : Nat := match j.endBnd with
  | some e => e - 2
  | none => s.tick.bnd - 1

/-- R148: an engine starts a job: its words in g1 to g4, DEC and WIO_DMASTAT 0, the other registers undefined (free). -/
def startJob (n : Fin 32) (j : Job) (s : State) : State :=
  let (d, s) := s.draw
  let s := if j.prio = prioLoose then
      { s.put SHTL_LOOSE.MAXWAIT (max (s.get SHTL_LOOSE.MAXWAIT) (min 65535 (s.tick.bnd - j.postBnd))) with
        shtl := { s.shtl with waitMax := max s.shtl.waitMax (min 65535 (s.tick.bnd - j.postBnd)) } }
    else s
  s.modEng n (fun e => { e with
    st := .running, job := some j, startAt := s.now, overBudget := false, ending := none, dec := 0, dma := [],
    blank := false, dmaA := 0, gainNext := s.noticeNext (sampleBnd j s + 1),
    cpu := { g := Vector.ofFn (fun i => if i.val = 0 then 0 else if i.val = 1 then j.w0 else if i.val = 2 then j.w1
                else if i.val = 3 then j.w2 else if i.val = 4 then j.w3 else Config.freeReg d i.val),
             pc := BitVec.ofNat 32 (4 * j.entry) } })

/-- An engine takes jobs: in service, idle, and HALT = 0 (R156, R165). -/
def State.takes (s : State) (n : Fin 32) : Bool :=
  (s.eng n).st == .idle && !(s.on SHTL_CTRL.HALT) && decide (n.val < s.engCount)

/-- R156: an engine pops the head of its own deque. -/
def popOwn (n : Fin 32) (s : State) : State :=
  if !(s.takes n) then s
  else match (s.eng n).deque with
    | j :: js => startJob n j (s.modEng n (fun e => { e with deque := js }))
    | [] => s

/-- R156: an idle engine whose deque is empty steals, else takes the SLACK head, else the LOOSE head when no deque holds an
entry; `len` are the lengths of the deques at the start of the cycle. -/
def takeOther (len : List Nat) (n : Fin 32) (s : State) : State :=
  if !(s.takes n) then s
  else match stealFrom len s n with
    | some v => match (s.eng v).deque.getLast? with
      | some j => startJob n j (s.modEng v (fun e => { e with deque := e.deque.dropLast }))
      | none => s
    | none => match s.shtl.slack with
      | j :: js => startJob n j { s with shtl := { s.shtl with slack := js } }
      | [] =>
        if s.shtl.eng.toList.all (fun e => e.deque.isEmpty) then match s.shtl.loose with
          | j :: js => startJob n j { s with shtl := { s.shtl with loose := js } }
          | [] => s
        else s

/-- R156, R158: the engines of `who` take their next jobs in one Weft cycle: owners pop first, then the others steal or take
from the queues, the lower-numbered engine first. A later command of the same cycle goes by the same lengths of deques. -/
def dispatch (who : BitVec 32) (s : State) : State :=
  let c := s.now * 96 / 250
  let len := if s.shtl.scanLen = [] ∨ s.shtl.scanAt ≠ c then s.dequeLens else s.shtl.scanLen
  let s := { s with shtl := { s.shtl with scanAt := c, scanLen := len } }
  let es := engines.filter (fun n => who.getLsbD n.val)
  es.foldl (fun s n => takeOther len n s) (es.foldl (fun s n => popOwn n s) s)

/-! ## Budgets (R153) -/

/-- R153: a TAUT or SLACK job's cycles have passed its BUDGET: counted and flagged once per job. -/
def budgetExceeded (n : Fin 32) (s : State) : State :=
  match (s.eng n).job with
  | some j =>
    if (s.eng n).st == .running && j.prio != prioLoose && !(s.eng n).overBudget && decide (j.budget < s.jobCycles n) then
      ((s.modEng n (fun e => { e with overBudget := true })).sat SHTL_ERRCNT.BUDGET).put SHTL_IRQ.BUDGET 1
    else s
  | none => s

/-! ## Halt, resume, engine count (R152, R164, R165) -/

/-- R165: HALT = 1 ends the queued TAUT jobs CANCELLED and their packets HALTED; HALT = 0 resumes dispatch. -/
def setHalt (v : Bool) (s : State) : State :=
  let s := s.putB SHTL_CTRL.HALT v
  if v then
    endPackets (fun p => s.shtl.eng.toList.any (fun e => e.deque.any (fun j => j.ofPacket p))) stHalted s
  else s

/-- R152: RESUME returns a faulted engine to idle. -/
def resume (n : Fin 32) (s : State) : State :=
  if (s.eng n).st == .faulted then
    s.modEng n (fun e => { e with st := if s.engCount ≤ n.val then .parked else .idle, job := none })
  else s

/-- R155: the entries of a deque move to their places again; a job that finds none ends its packet NODEQUE. -/
def rehome (js : List Job) (s : State) : State :=
  js.foldl (fun s j => match pushJob j s with
    | some s' => s'
    | none => match s.packetOf j with
      | some p => endPacket p stNodeque s
      | none => s) s

/-- R164: a new COUNT is live: engines beyond it park (a running job runs to its end), engines within it start idle. -/
def serviceChange (s : State) : State :=
  let moved := (engines.filter (fun n => decide (s.engCount ≤ n.val))).flatMap (fun n => (s.eng n).deque)
  let s := engines.foldl (fun s n =>
    if s.engCount ≤ n.val then s.modEng n (fun e => { e with
        deque := [], st := if e.st == .idle then .parked else e.st, parking := e.st == .running })
    else s.modEng n (fun e => { e with st := if e.st == .parked then .idle else e.st, parking := false })) s
  rehome moved s

/-- SHTL_STAT as read. -/
def State.shtlStat (s : State) : Word :=
  let taut := (s.shtl.eng.toList.map (fun e => e.deque.length)).sum
  let quiet := s.on SHTL_CTRL.HALT && s.shtl.eng.toList.all (fun e => e.st != .running)
  BitVec.ofNat 32 (2 ^ 24 * s.shtl.loose.length + 2 ^ 16 * s.shtl.slack.length + 2 ^ 7 * taut + b2n quiet)

/-- WEFT_STATn as read. -/
def State.weftStat (s : State) (n : Fin 32) : Word :=
  let e := s.eng n
  let cls := match e.job with
    | some j => j.jclass
    | none => if e.st == .faulted then e.fltClass else e.lastClass
  let st := match e.st with
    | .parked => 0 | .idle => 1 | .running => 2 | .faulted => 3
  let lane := match e.st, e.job with
    | .running, some j => j.lane
    | _, _ => 0xFF
  BitVec.ofNat 32 (2 ^ 28 * b2n e.flt + 2 ^ 24 * e.deque.length + 2 ^ 16 * lane + 2 ^ 8 * cls + st)

/-- WEFT_FAULTn as read. -/
def State.weftFaultReg (s : State) (n : Fin 32) : Word :=
  let e := s.eng n
  BitVec.ofNat 32 (2 ^ 28 * e.fltCause + 2 ^ 16 * e.fltClass + e.fltPc)

end Sys2Proof.Machine
end

