-- ==== Sys2Proof/Machine/Intake.lean ====
section
/-! DEFINITION. Machine/Intake.lean: the MAC receive intake (R221 to R226, R230). -/
namespace Sys2Proof.Machine

/-- The context slot of a lane or job (R159). -/
def ctxSlot (n : Nat) : Nat := 0x31800000 + 1024 * n

/-- The window after a mode-switch record, in counts (MAC_RXCFG.MSWWIN, 0 acts as 1). -/
def State.mswWindow (s : State) : Nat := us (100 * max 1 (s.get MAC_RXCFG.MSWWIN))

/-- R230: the announced mode of a New Mode value: the lowest-numbered valid entry that matches. -/
def State.mswMode (s : State) (v : Nat) : Option Nat :=
  ((List.range 8).find? (fun n => s.on (MAC_MSWMAP.VALID n) && s.get (MAC_MSWMAP.NEWMODE n) == v)).map
    (fun n => s.get (MAC_MSWMAP.MODE n))

/-- A miss is counted (MAC_RXMSW.MISS). -/
def mswMiss (s : State) : State := s.sat MAC_RXMSW.MISS

/-- R230: a mode-switch record: its New Mode is mapped; with no entry a miss is counted; with MSWEN = 1 a window opens. A
window still open is closed by the new record and counts a miss (log entry 7). -/
def mswRecord (newMode time : Nat) (s : State) : State :=
  let s := if s.demod.msw.isSome then mswMiss s else s
  match s.mswMode newMode with
  | none => mswMiss { s with demod := { s.demod with msw := none } }
  | some m => { s with demod := { s.demod with msw := if s.on MAC_RXCFG.MSWEN then some (m, time) else none } }

/-- R230: the first DONE frame of the announced mode whose RXTIME lies in the window is marked, and closes it. -/
def mswFrame (mode rxTime : Nat) (s : State) : State × Bool :=
  match (if s.on MAC_RXCFG.MSWEN then s.demod.msw else none) with
  | some (m, t) =>
    if m = mode ∧ t ≤ rxTime ∧ rxTime ≤ t + s.mswWindow then
      (({ s with demod := { s.demod with msw := none } }).sat MAC_RXMSW.MATCH, true)
    else (s, false)
  | none => (s, false)

/-- The nominal centre of a channel in Hz (R190). -/
def State.channelHz (s : State) (lane bond : Nat) : Int :=
  750000000 + 100000 * (s.get RFRX_SPAN.LIVE : Int) + 100000 * (2 * (lane : Int) + ((bondLanes bond : Int) - 1) - 95)

/-- R226: e of FOFS, in 0.01 ppm, to the nearest, ties away from zero. -/
def eOfFofs (fofs : Int) (hz : Int) : Int := roundDiv (400000 * fofs * 100000000) (2 ^ 20 * hz)

/-- R183: the frame is one the crystal-error loop takes. -/
def trimFrame (status flags snr : Nat) (e : Int) (s : State) : State :=
  if status = stDone ∧ ¬ bitOf flags 0 ∧ s.get RFRX_TRIMCFG.SNRMIN ≤ snr ∧ s.get RFRX_TRIMCFG.MODE = 1 then
    { s with rfrx := { s.rfrx with frames := s.rfrx.frames ++ [(e, snr)] } }
  else s

/-- R224: the tests of a MAC_OUT in order, over the 32-byte header `h` and the transfer length; true when it is malformed. -/
def badDesc (j : Job) (p : Packet) (h : List Byte) (len : Nat) (s : State) : Bool :=
  let u8 (i : Nat) : Nat := (h.getD i 0).toNat
  let st := u8 0x15
  let plen := u8 0x06 + 256 * u8 0x07
  !(st == 0x01 || st == 0x05)
    || !(u8 0x02 == j.lane && u8 0x03 == j.w3.toNat % 16)
    || !(u8 0x04 == s.msA p.mset LOOM_MSA.MODE)
    || !(if st == 0x01 then decide (3 ≤ plen) && decide (plen ≤ 2047) else plen == 0)
    || !(len == 32 + (plen + 3) / 4 * 4)
    || p.macOut

/-- R224: the intake takes the block of a MAC_OUT whose transfer completes: tests, FCS, status; a DONE frame, or a CRCFAIL
one under KEEPBAD, goes on to the MAC. -/
def intakeAccept (j : Job) (blk : List Byte) (s : State) : State :=
  match s.packetOf j with
  | none => s
  | some p =>
    let u8 (i : Nat) : Nat := (blk.getD i 0).toNat
    let u (i n : Nat) : Nat := leNat ((blk.drop i).take n)
    if badDesc j p (blk.take 32) blk.length s then
      if p.macOut then s
      else countStatus stBaddesc p.lane p.num (s.modPacket p.num (fun p => { p with macOut := true, accepted := true }))
    else if u8 0x15 = 0x05 then
      mswRecord (u8 0x12 % 128) (u 0x18 8) (s.modPacket p.num (fun p => { p with macOut := true }))
    else
      let s := s.modPacket p.num (fun p => { p with macOut := true, accepted := true })
      let psdu := (blk.drop 32).take (u 0x06 2)
      let clip := bitOf (s.rb (ctxSlot p.lane + 3)).toNat 1
      let rx := wrapInt 64 ((u 0x18 8 : Int) + signedOf 16 (u 0x10 2))
      let e := eOfFofs (signedOf 32 (u 0x0C 4)) (s.channelHz p.lane p.bond)
      let ok := fcsOk (bitOf (u8 0x05) 3) psdu
      let st := if ok then stDone else stCrcfail
      let s := countStatus st p.lane p.num s
      if !ok && !(s.on MAC_RXCFG.KEEPBAD) then s
      else
        let (s, msw) := if ok then mswFrame (u8 0x04) rx s else (s, false)
        let flags := (u8 0x05 / 2 % 16) * 2 + b2n clip + b2n msw * 32 + (u8 0x05 / 64 % 2) * 64
        let s := if clip then s.inc (MAC_RXCNT.COUNT 15) else s
        let s := trimFrame st flags (u8 0x0A) e s
        let f : RxFrame :=
          { pkt := p.num, lane := p.lane, mset := p.mset, mode := u8 0x04, flags := flags
            rssi := signedOf 16 (u 0x08 2), snr := u8 0x0A, lqi := u8 0x0B
            e := if ok && !clip then some e else none
            trim := p.trim
            rxTime := rx, rate := u8 0x12, status := st, psdu := psdu
            desc := (blk.take 5) ++ leBytes 1 flags ++ (blk.drop 6).take 26 }
        { s with demod := { s.demod with done := s.demod.done ++ [f] } }

/-- R230: the window closes without a follow-on frame: its time has passed, and no packet of the announced mode whose SFD ended
by then can still be DONE with an RXTIME in it (|TADJ| is at most a quarter symbol, R227, 10 µs in the slowest mode). -/
def mswExpiry (s : State) : State :=
  match s.demod.msw with
  | some (m, t) =>
    if t + s.mswWindow < s.now && !(s.loom.packets.any (fun p => s.msA p.mset LOOM_MSA.MODE == m && !p.accepted
        && (p.sfdAt.map (fun a => decide (a ≤ t + s.mswWindow + us 80))).getD false)) then
      mswMiss { s with demod := { s.demod with msw := none } }
    else s
  | none => s

end Sys2Proof.Machine
end

