-- ==== Sys2Proof/Machine/MacQueue.lean ====
section
/-! DEFINITION. Machine/MacQueue.lean: the receive queue of the MAC (R282) and the end of its assistance jobs (R277
step 9). -/
namespace Sys2Proof.Machine

/-- Bytes of the ring: 4 KiB × 2^SIZE. -/
def State.rxqSize (s : State) : Nat := 4096 * 2 ^ min 6 (s.get MAC_RXQBASE.SIZE)

/-- The ring is in use and lies in control SRAM. -/
def State.rxqOn (s : State) : Bool := s.on MAC_RXQBASE.EN && inSram (4096 * s.get MAC_RXQBASE.ADDR) s.rxqSize

/-- WR in bytes, within the ring. -/
def State.rxqWr (s : State) : Nat := 8 * s.get MAC_RXQPTR.WR % s.rxqSize

/-- Bytes that are free from WR up to RD; all of them when the two agree. -/
def State.rxqRoom (s : State) : Nat :=
  let d := (8 * s.get MAC_RXQPTR.RD % s.rxqSize + s.rxqSize - s.rxqWr) % s.rxqSize
  if d = 0 then s.rxqSize else d

/-- R282: a record of `n` bytes placed at `pos` with `room` bytes free, after a PAD where it would cross the end; none
when less than 8 bytes would stay free. -/
def rxqPlace (size : Nat) (p : Nat × Nat) (n : Nat) : Option (Nat × Nat) :=
  let pad := if size < p.1 + n then size - p.1 else 0
  if pad + n + 8 ≤ p.2 then some ((p.1 + pad + n) % size, p.2 - pad - n) else none

/-- R277 step 7: is there space for a record of `n` bytes beside those already reserved? -/
def State.rxqFits (s : State) (n : Nat) : Bool :=
  s.rxqOn && ((s.mac.assist.map (fun a => a.2.2.length) ++ [n]).foldl
    (fun p k => p.bind (fun p => rxqPlace s.rxqSize p k)) (some (s.rxqWr, s.rxqRoom))).isSome

/-- R282: a record enters the queue: the PAD record before it where it would cross the end, the record, WR, RXQ. -/
def rxqWrite (rec_ : List Byte) (s : State) : State :=
  let base := 4096 * s.get MAC_RXQBASE.ADDR
  match rxqPlace s.rxqSize (s.rxqWr, s.rxqRoom) rec_.length with
  | none => s
  | some (next, _) =>
    let pos := s.rxqWr
    let cross := decide (s.rxqSize < pos + rec_.length)
    let s := if cross then (s.wn (base + pos) 2 (s.rxqSize - pos)).wb (base + pos + 2) 0x02 else s
    let s := s.wbytes (base + if cross then 0 else pos) rec_
    (s.put MAC_RXQPTR.WR (next / 8)).put MAC_IRQ.RXQ 1

/-- R277 step 9: an assistance job of the MAC has ended: its record enters the queue, or, when the job did not run to its
end, is withdrawn (an OVERRUN counts it). -/
def assistEnded (j : Job) (status : Nat) (s : State) : State :=
  match s.mac.assist.find? (fun a => a.1 % 2 ^ 16 == j.tag && a.2.1 == j.lane) with
  | none => s
  | some a =>
    let s := { s with mac := { s.mac with assist := s.mac.assist.filter (fun x => !(x.1 == a.1 && x.2.1 == a.2.1)) } }
    if status < 0x80 then rxqWrite a.2.2 s else if status = jobOverrun then s.sat (MAC_CNT.HI 5) else s

/-- R277 step 9: the assistance job of an accepted frame is posted; without such a class the record enters at once. A
refused post withdraws the record (R162). -/
def rxqAssist (pkt lane : Nat) (rec_ : List Byte) (s : State) : State :=
  match Config.assistClass with
  | none => rxqWrite rec_ s
  | some c =>
    let w0 := BitVec.ofNat 32 (pkt % 2 ^ 16 * 2 ^ 16 + 2 ^ 8 * lane + c % 32)
    match internalPost .mac w0 0 0xFF000000 s with
    | (s, true) => { s with mac := { s.mac with assist := s.mac.assist ++ [(pkt, lane, rec_)] } }
    | (s, false) => s.sat (MAC_CNT.HI 5)

end Sys2Proof.Machine
end

