-- ==== Sys2Proof/Machine/WeftJob.lean ====
section
/-! DEFINITION. Machine/WeftJob.lean: how a job runs to its end on an engine: the DMA channel (R144, R145), the I/O page
(R147), WIO_REMAIN and WIO_END (R149, R150), faults (R152), deadlines (R160). -/
namespace Sys2Proof.Machine

/-- Base of an engine's local memory on the bus (R142). -/
def weftLocal (n : Fin 32) : Nat := 0x30000000 + 0x2000 * n.val

/-- R222, R149: what the end of a TAUT job does to its packet. -/
def packetAfterJob (p : Packet) (j : Job) (status : Nat) (s : State) : State :=
  if status = 0 ∧ j.kind ≠ 2 then s
  else if status = 0 ∨ status = 1 then
    if p.accepted then endPacket p stDone s else endPacket p stBaddesc s
  else endPacket p status s

/-- R149, R163: a job ends on its engine with a status: the engine is free, a TAUT job's packet follows, a firmware job's
completion is written, a MAC job's frame goes on. -/
def endJob (n : Fin 32) (status : Nat) (s : State) : State :=
  match (s.eng n).job with
  | none => s
  | some j =>
    let cyc := s.jobCycles n
    let s := freeEngine n s
    match j.poster with
    | .shuttle => match s.packetOf j with
      | some p => packetAfterJob p j status s
      | none => s
    | .firmware => completion j (if status = 0 then 1 else status) cyc s
    | .mac => assistEnded j status s
    | .loom => s

/-- Fault causes (R152, WEFT_FAULTn.CAUSE). -/
inductive WeftFault where
  | illegal | align | window | brk | dma | fetch | badEnd
  deriving DecidableEq, Repr

def weftFaultCode : WeftFault → Nat
  | .illegal => 1 | .align => 2 | .window => 3 | .brk => 4 | .dma => 5 | .fetch => 6 | .badEnd => 7

/-- R152: a fault stops the job at once, with status FAULT: captured, counted, flagged; the packet ends FAULT; with
FAULTPARK = 1 the engine stays faulted and its deque is emptied into the others. -/
def weftFault (n : Fin 32) (c : WeftFault) (s : State) : State :=
  match (s.eng n).job with
  | none => s
  | some j =>
    let pc := (s.eng n).cpu.pc.toNat / 4 % 2 ^ 14
    let cyc := s.jobCycles n
    let s := freeEngine n s
    let s := s.modEng n (fun e => { e with
      flt := true, fltCause := weftFaultCode c, fltClass := j.jclass, fltPc := pc, cpu := { e.cpu with open_ := [] } })
    let s := (s.sat SHTL_ERRCNT.FAULT).put SHTL_IRQ.FAULT 1
    let s := if s.on SHTL_CTRL.FAULTPARK && (s.eng n).st == .idle then
        let js := (s.eng n).deque
        rehome js (s.modEng n (fun e => { e with st := .faulted, deque := [] }))
      else s
    match j.poster with
    | .shuttle => match s.packetOf j with
      | some p => endPacket p stFault s
      | none => s
    | .firmware => completion j jobFault cyc s
    | .mac => assistEnded j jobFault s
    | .loom => s

/-- R149: WIO_END: a reserved status faults; the job ends once no DMA command is outstanding. -/
def wioEnd (n : Fin 32) (status : BitVec 8) (s : State) : State :=
  let e := s.eng n
  if e.st != .running || e.ending.isSome then s
  else if 0x80 ≤ status.toNat then weftFault n .badEnd s
  else if e.dma = [] then endJob n status.toNat s
  else s.modEng n (fun e => { e with ending := some status })

/-- R150, R216: WIO_REMAIN by a job of a packet: the samples still to come; the sentinel moves to LOCKED and the packet to
PAYLOAD. Without a tail class the figure is ignored but the sentinel still locks (R201). -/
def wioRemain (n : Fin 32) (v : Nat) (s : State) : State :=
  match (s.eng n).job with
  | none => s
  | some j =>
    if (s.eng n).st != .running || j.poster != .shuttle then s
    else match s.packetOf j with
      | none => s
      | some p =>
        let s := s.modPacket p.num (fun p => { p with st := .payload, remain := some v })
        if (s.lane p.lane).pkt == some p.num then setSent p.lane p.bond sentLocked s else s

/-! ## DMA (R144, R145) -/

/-- R145: a command with a local or remote range outside its limits faults the job with cause DMA. -/
def dmaBad (j : Job) (c : DmaCmd) : Bool :=
  let r := c.remote.toNat
  let bytes := if c.kind == .laneIn then 4 * c.len else c.len
  let lenBad := if c.kind == .laneIn then decide (c.len = 0) || decide (400 < c.len)
    else decide (c.len < 4) || decide (4092 < c.len) || c.len % 4 != 0
  let remoteBad := match c.kind with
    | .laneIn => decide (400 < r / 2 ^ 16 % 1024 + c.len) || decide (95 < r % 256) || r / 2 ^ 26 != 0 || r / 2 ^ 8 % 256 != 0
    | .ctxIn | .ctxOut => decide (1024 < r + c.len) || decide (1020 < r) || j.ctx == 0xFF
    | .sramIn | .sramOut => r % 4 != 0 || !(inSram r c.len)
    | .macOut => r != 0
  lenBad || remoteBad || c.loc % 4 != 0 || decide (0x2000 < c.loc + bytes)

/-- R145: a DMA command is queued; a fifth one would stall the bundle and is not taken. -/
def queueDma (n : Fin 32) (c : DmaCmd) (s : State) : State :=
  let e := s.eng n
  match e.job with
  | none => s
  | some j =>
    if e.st != .running || e.ending.isSome then s
    else if dmaBad j c then weftFault n .dma s
    else if 4 ≤ e.dma.length then s
    else s.modEng n (fun e => { e with dma := e.dma ++ [c] })

/-- R145: word A and word B of a DMA command written to WIO_DMA; an undefined kind or a nonzero reserved bit faults. -/
def dmaWords (n : Fin 32) (a b : Word) (s : State) : State :=
  let k := a.toNat / 2 ^ 28
  let kind : Option DmaKind := if k = 1 then some .laneIn else if k = 2 then some .ctxIn else if k = 3 then some .ctxOut
    else if k = 4 then some .sramIn else if k = 5 then some .sramOut else if k = 6 then some .macOut else none
  match kind with
  | some kd => if a.toNat / 2 ^ 13 % 8 ≠ 0 then weftFault n .dma s
    else queueDma n ⟨kd, a.toNat / 2 ^ 16 % 2 ^ 12, a.toNat % 2 ^ 13, b⟩ s
  | none => weftFault n .dma s

/-- One past the last lane sample of the tick in progress that the blanking under way covers so far: with no other cause left,
up to the end of the retune's blanking. -/
def State.blankTop (s : State) : Nat :=
  if s.loom.blankTx || s.loom.blankCal then s.laneSampleNow + 1
  else min (s.laneSampleNow + 1) ((s.loom.blankUntil - s.tick.startAt + 624) / 625)

/-- The blank mask of the tick in progress as far as it has been written. -/
def State.blankNow (s : State) : BitVec 400 :=
  match s.loom.blankFrom with
  | some f => (List.range 400).foldl (fun m i => if f ≤ i ∧ i < s.blankTop then m ||| (1#400 <<< i) else m) s.loom.blankMask
  | none => s.loom.blankMask

/-- R204: a lane sample as the lane buffer holds it: 0 when blanked, else what the lane gave. -/
def State.sample (s : State) (cur : Bool) (lane i : Nat) : BitVec 20 :=
  if (if cur then s.blankNow else s.loom.blankPrev).getLsbD i then 0
  else laneSample (s.lane lane) (if cur then s.loom.noticeNow else s.loom.noticePrev) (if cur then s.tick.bnd else s.tick.bnd - 1) lane i

/-- R144: a sample unpacked into a word: I in bits 15:0 and Q in bits 31:16, each sign-extended from 10 bits. -/
def unpackSample (x : BitVec 20) : Word :=
  ((x.extractLsb' 10 10).signExtend 16 ++ (x.extractLsb' 0 10).signExtend 16 : BitVec 32)

/-- R144: samples of a lane into consecutive words; a blanked one sets WIO_DMASTAT.BLANK. -/
def laneIn (n : Fin 32) (cur : Bool) (lane first loc : Nat) : Nat → State → State
  | 0, s => s
  | k + 1, s =>
    let s := laneIn n cur lane first loc k s
    let s := if (if cur then s.blankNow else s.loom.blankPrev).getLsbD (first + k) then s.modEng n (fun e => { e with blank := true }) else s
    s.wn (weftLocal n + loc + 4 * k) 4 (unpackSample (s.sample cur lane (first + k))).toNat

/-- Bytes copied from one place to another. -/
def copyBytes (src dst len : Nat) (s : State) : State := s.wbytes dst (s.bytes src len)

/-- R145: the transfer of a command; none while a LANE_IN still waits for samples of the tick in progress, which come in blocks
of 10 (R22). -/
def dmaTransfer (n : Fin 32) (j : Job) (c : DmaCmd) (s : State) : Option State :=
  let r := c.remote.toNat
  let loc := weftLocal n + c.loc
  match c.kind with
  | .laneIn =>
    let cur := sampleBnd j s == s.tick.bnd
    let first := r / 2 ^ 16 % 1024
    if cur && decide (s.laneSampleNow < (first + c.len + 9) / 10 * 10) then none
    else some (laneIn n cur (r % 256) first c.loc c.len s)
  | .ctxIn => some (copyBytes (ctxSlot j.ctx + r) loc c.len s)
  | .ctxOut => some (copyBytes loc (ctxSlot j.ctx + r) c.len s)
  | .sramIn => some (copyBytes r loc c.len s)
  | .sramOut => some (copyBytes loc r c.len s)
  | .macOut => some (intakeAccept j (s.bytes loc c.len) s)

/-- R145, R149: the oldest command of an engine completes; with none left, a pending WIO_END ends the job. -/
def dmaComplete (n : Fin 32) (s : State) : State :=
  match (s.eng n).job, (s.eng n).dma with
  | some j, c :: cs =>
    if (s.eng n).st != .running then s
    else match dmaTransfer n j c s with
      | none => s
      | some s =>
        let s := s.modEng n (fun e => { e with dma := cs })
        match cs, (s.eng n).ending with
        | [], some st => endJob n st.toNat s
        | _, _ => s
  | _, _ => s

/-! ## The I/O page (R147) and gain notices (R208) -/

/-- The words of a gain notice. -/
def GainNotice.word (g : GainNotice) (next : Nat) (i : Nat) : Word :=
  if i = 0 then
    BitVec.ofNat 32 (g.tick.toNat % 2 ^ 16 * 2 ^ 16 + 2 ^ 10 * g.carry + 2 ^ 8 * next + 2 ^ 4 * g.code0
      + b2n (decide (7 < g.events.length)) * 8 + min 7 g.events.length)
  else match (g.events.take 7)[i - 1]? with
    | some e => BitVec.ofNat 32 (2 ^ 30 * e.kind + 2 ^ 24 * e.code + 2 ^ 16 * e.phase + e.sample)
    | none => 0


/-- A load from the I/O page at an offset; offsets not listed read 0. -/
def wioRead (n : Fin 32) (off : Nat) (s : State) : Word :=
  let e := s.eng n
  if off = 0x008 then BitVec.ofNat 32 (e.dma.length + 2 ^ 8 * b2n e.blank)
  else if off = 0x014 then BitVec.ofNat 32 (s.jobCycles n)
  else if off = 0x018 then BitVec.ofNat 32 ((e.job.map (·.budget)).getD 0)
  else if off = 0x01C then s.reg Reg.SYSC_TICK
  else if off = 0x020 then BitVec.ofNat 32 s.laneSampleNow
  else if 0x040 ≤ off ∧ off < 0x060 then
    let cur := (e.job.map (fun j => sampleBnd j s == s.tick.bnd)).getD false
    (if cur then s.loom.noticeNow else s.loom.noticePrev).word e.gainNext ((off - 0x040) / 4)
  else 0

/-- A store of a word to the I/O page. -/
def wioWrite (n : Fin 32) (off : Nat) (v : Word) (s : State) : State :=
  if off = 0x000 then s.modEng n (fun e => { e with dmaA := v })
  else if off = 0x004 then dmaWords n (s.eng n).dmaA v s
  else if off = 0x010 then wioEnd n (v.setWidth 8) s
  else if off = 0x024 then wioRemain n v.toNat s
  else s

/-! ## Deadlines (R21, R160) and LOOSE budgets -/

/-- A job ends OVERRUN: counted once, flagged; its packet ends OVERRUN, a MAC job drops its frame. -/
def jobOverrunAt (j : Job) (cyc : Nat) (s : State) : State :=
  let s := (s.inc SHTL_OVRCNT.COUNT).put SHTL_IRQ.OVR 1
  match j.poster with
  | .shuttle => match s.packetOf j with
    | some p => endPacket p stOverrun s
    | none => s
  | .firmware => completion j jobOverrun cyc s
  | .mac => assistEnded j jobOverrun s
  | .loom => s

/-- The job's deadline has passed at boundary `b`. -/
def Job.late (j : Job) (b : Nat) : Bool := match j.endBnd with
  | some e => decide (e ≤ b)
  | none => false

/-- R160: at a boundary every TAUT and SLACK job past its deadline ends OVERRUN, queued ones without running. -/
def deadlines (s : State) : State :=
  let b := s.tick.bnd
  let running := engines.filterMap (fun n => match (s.eng n).st, (s.eng n).job with
    | .running, some j => if j.late b then some (n, j, s.jobCycles n) else none
    | _, _ => none)
  let queued := engines.flatMap (fun n => (s.eng n).deque.filter (fun j => j.late b)) ++ s.shtl.slack.filter (fun j => j.late b)
  let s := running.foldl (fun s x => freeEngine x.1 s) s
  let s := dropQueued (fun j => j.late b) s
  let s := { s with shtl := { s.shtl with slack := s.shtl.slack.filter (fun j => !(j.late b)) } }
  let s := running.foldl (fun s x => jobOverrunAt x.2.1 x.2.2 s) s
  queued.foldl (fun s j => jobOverrunAt j 0 s) s

/-- R153: a LOOSE job that has reached its BUDGET is stopped with OVERBUDGET. -/
def overBudget (n : Fin 32) (s : State) : State :=
  match (s.eng n).job with
  | some j => if (s.eng n).st == .running && j.prio == prioLoose && decide (j.budget ≤ s.jobCycles n) then endJob n jobOverbudget s else s
  | none => s

/-- R33, SHTL_LOOSE: at a boundary the oldest wait, and the LWAIT flag of each job whose wait reaches LWTHR. -/
def looseWaits (s : State) : State :=
  let w (j : Job) : Nat := s.tick.bnd - j.postBnd
  let thr := max 1 (s.get SHTL_CTRL.LWTHR)
  let s1 := s.put SHTL_LOOSE.OLDEST (min 65535 ((s.shtl.loose.map w).foldl max 0))
  if s.shtl.loose.any (fun j => w j == thr) then s1.put SHTL_IRQ.LWAIT 1 else s1

/-- SHTL_LOAD at a boundary: the engine time of the tick that ends, in units of 1,000 Weft cycles rounded up. -/
def loadFigures (s : State) : State :=
  let s := engines.foldl (fun s n => if (s.eng n).st == .running then chargeBusy n s else s) s
  let b := min 65535 ((s.shtl.busy * 96 / 250 + 999) / 1000)
  let s := (s.put SHTL_LOAD.BUSY b).put SHTL_LOAD.PEAK (max b (s.get SHTL_LOAD.PEAK))
  { s with shtl := { s.shtl with busy := 0 } }

end Sys2Proof.Machine
end

