-- ==== Sys2Proof/Machine/Peek.lean ====
section
/-! DEFINITION. Machine/Peek.lean: registers whose value follows from the state: what a read returns, without the side
effects of a read. Every other register reads as it is kept. -/
namespace Sys2Proof.Machine

/-- TIME_STAT (R330, R334, R340): VALID, SLEWING and the validity byte follow from the state. -/
def State.timeStat (s : State) : Word :=
  let w := TIME_STAT.VALID.into (s.reg Reg.TIME_STAT) (b2n s.time.valid)
  let w := TIME_STAT.SLEWING.into w (b2n (s.slewLeft != 0))
  let q := b2n s.time.valid + 2 * s.get TIME_STAT.TRACE + 4 * s.get TIME_STAT.HOLDOVER + 8 * s.get TIME_STAT.SERVO
    + 16 * s.get TIME_STAT.SRC
  TIME_STAT.QUAL.into w q

/-- MSU_STAT: no scan is being started by a compare unit while network time is not valid (R379). -/
def State.msuStat (s : State) : Word :=
  MSU_STAT.RUN.into (s.reg Reg.MSU_STAT) (b2n (s.on MSU_STAT.RUN && (s.on MSU_CFG.TRIG || s.time.valid)))

/-- R340: the validity byte QUAL. -/
def State.qual (s : State) : Nat := TIME_STAT.QUAL.of s.timeStat

/-- TIME_SLEWREM: the slew remaining in ns, saturating (R334). -/
def State.slewRem (s : State) : Word :=
  BitVec.ofNat 32 (wrapInt 32 (clampInt (-(2 ^ 31 - 1)) (2 ^ 31 - 1) (1000000000 * s.slewLeft / (2 ^ 32 * ntQ))))

/-- EVR_OPSEC: whole seconds of operation (R508). -/
def State.opsec (s : State) : Nat := ((s.reg Reg.EVR_OPSEC).toNat + (s.now - s.evr.opsAt) / 250000000) % 2 ^ 32

/-- EVR_STAT. -/
def State.evrStat (s : State) : Word :=
  let w := EVR_STAT.STAGED.into (s.reg Reg.EVR_STAT) (b2n (s.evr.staged.isSome))
  let v := s.evr.queue.any (fun r => r.form == 1) || ((s.evr.staged.map (fun r => r.form == 1)).getD false)
  let w := EVR_STAT.VCOPY.into w (b2n v)
  EVR_STAT.QLEVEL.into w s.evr.queue.length

/-- A key slot. -/
def State.slot (s : State) (n : Nat) : KeySlot := s.sec.slots[n]?.getD {}

/-- The outgoing counter of a slot. -/
def State.counter (s : State) (n : Nat) : Counter := s.sec.ctr[n]?.getD {}

/-- SEC_KSTATn. -/
def State.kstat (s : State) (n : Nat) : Word :=
  let k := s.slot n
  if k.valid then
    BitVec.ofNat 32 (2 ^ 31 + 2 ^ 30 * b2n k.wide + 2 ^ 24 * k.use.toNat + k.keyId % 256 * 2 ^ 16 + leNat (k.kcv.take 2))
  else 0

/-- SEC_CRESn. -/
def State.cres (s : State) (n : Nat) : Word :=
  let c := s.counter n
  BitVec.ofNat 32 ((c.durable.getD 0) / 1024 * 1024 + b2n c.exhausted * 2 + b2n c.resv.isSome)

/-- R295: a wrapping key as the engine holds it: from OTP, zeroed by an alarm. -/
def State.wrapKey (s : State) (o : Nat) : List Byte :=
  if s.sec.wkGone then List.replicate 32 0 else s.bytes (0x08803E00 + o) 32

/-- R295: neither wrapping key is all zero or all one. -/
def State.wkeys (s : State) : Bool :=
  let ok (k : List Byte) : Bool := !(k.all (· == 0)) && !(k.all (· == 0xFF))
  ok (s.wrapKey 0) && ok (s.wrapKey 32)

/-- A slot with an outgoing counter: valid, FRAME or DICT (R305). -/
def State.counts (s : State) (n : Nat) : Bool :=
  (s.slot n).valid && ((s.slot n).use.getLsbD 0 || (s.slot n).use.getLsbD 1)

/-- R306: the counter of a slot has reached the end of what is durable. -/
def State.ctrBlocked (s : State) (n : Nat) : Bool :=
  let c := s.counter n
  match c.durable with
  | some d => decide (d + 1024 ≤ c.next) || decide (c.next < d)
  | none => true

/-- SEC_STAT. -/
def State.secStat (s : State) : Word :=
  let wait := (List.range 32).any (fun n => s.counts n && s.ctrBlocked n && !(s.counter n).exhausted)
  BitVec.ofNat 32 (b2n (!(s.on SEC_LEDGER.EN)) * 128 + b2n ((s.otpWord 0x3E40).getLsbD 0) * 64 + b2n s.wkeys * 32
    + s.get SEC_ALMSTAT.LATCHED * 16 + b2n wait * 8
    + b2n (s.on SEC_CMDBASE.EN && s.get SEC_CMDPTR.HEAD != s.get SEC_CMDPTR.TAIL) * 2)

/-- SEC_WKCV. -/
def State.wkcv (s : State) : Word :=
  if s.wkeys then BitVec.ofNat 32 (leNat ((aesEnc (s.wrapKey 0) (List.replicate 16 0)).take 4)) else 0

/-- A word of a modular operand (R303): operand k at SEC offset 0x400 + 32 k, least significant word first. -/
def State.bnWord (s : State) (o : Nat) : Word := ((s.sec.bn[o / 32 % 8]?.getD 0).extractLsb' (o % 32 * 8) 32)

/-- ID_TRIAL (R525): the seconds left follow the count since the arming. -/
def State.idTrial (s : State) : Word :=
  if s.on ID_TRIAL.RUN then
    ID_TRIAL.REMAIN.into (s.reg Reg.ID_TRIAL) (120 - (s.now - s.boot.trialAt) / 250000000)
  else s.reg Reg.ID_TRIAL

/-- What a read of the register at `a` by a master returns. -/
def State.peek (s : State) (m : Master) (a : Nat) : Word :=
  if a = Reg.INTC_PEND 0 then s.pendWord 0
  else if a = Reg.INTC_PEND 1 then s.pendWord 1
  else if a = Reg.EVM_LEVEL then BitVec.ofNat 32 s.evmLevel
  else if a = Reg.GPIO_IN then BitVec.ofNat 32 s.gpioIn
  else if a = Reg.TIME_STAT then s.timeStat
  else if a = Reg.MSU_STAT then s.msuStat
  else if a = Reg.TIME_CNT_LO then BitVec.ofNat 32 s.now
  else if a = Reg.TIME_CNT_HI then BitVec.ofNat 32 (s.now / 2 ^ 32)
  else if a = Reg.TIME_NOW_LO then BitVec.ofNat 32 s.ntRead
  else if a = Reg.TIME_NOW_HI then BitVec.ofNat 32 (s.ntRead / 2 ^ 32)
  else if a = Reg.TIME_NOWC_LO then BitVec.ofNat 32 s.time.nowc
  else if a = Reg.TIME_NOWC_HI then BitVec.ofNat 32 (s.time.nowc / 2 ^ 32)
  else if a = Reg.TIME_SLEWREM then s.slewRem
  else if a = Reg.EVR_STAT then s.evrStat
  else if a = Reg.EVR_OPSEC then BitVec.ofNat 32 s.opsec
  else if a = Reg.EVR_RPTSTAT then Sparse.get (fun _ => 0#32) s.evr.rptStat (masterId m)
  else if a = Reg.NVM_LASTECC then Sparse.get (fun _ => 0#32) s.nvm.lastEcc (masterId m)
  else if a = Reg.NVM_SPARE then s.nvmSpare
  else if a = Reg.NVM_WEARCNT then s.wearCnt
  else if a = Reg.NVM_WEARMAX then s.wearMax
  else if regionOf a == .regs && blockOf a == 5 then s.rtcRead m a
  else if a = Reg.SHTL_STAT then s.shtlStat
  else if a = Reg.SHTL_POSTSTAT then Sparse.get (fun _ => 0#32) s.shtl.postStat (masterId m)
  else if a = Reg.SEC_STAT then s.secStat
  else if a = Reg.SEC_WKCV then s.wkcv
  else if Reg.SEC_KSTAT 0 ≤ a ∧ a < Reg.SEC_KSTAT 32 ∧ a % 4 = 0 then s.kstat ((a - Reg.SEC_KSTAT 0) / 4)
  else if Reg.SEC_CNEXT 0 ≤ a ∧ a < Reg.SEC_CNEXT 32 ∧ a % 4 = 0 then BitVec.ofNat 32 (s.counter ((a - Reg.SEC_CNEXT 0) / 4)).next
  else if Reg.SEC_CRES 0 ≤ a ∧ a < Reg.SEC_CRES 32 ∧ a % 4 = 0 then s.cres ((a - Reg.SEC_CRES 0) / 4)
  else if isSecOperand a then s.bnWord (a - 0x4000C400)
  else if regionOf a == .regs && blockOf a == 20 && a % 0x80 == 0 then s.weftStat (Fin.ofNat 32 (a % 0x1000 / 0x80))
  else if regionOf a == .regs && blockOf a == 20 && a % 0x80 == 4 then s.weftFaultReg (Fin.ofNat 32 (a % 0x1000 / 0x80))
  else if a = Reg.RFTX_STAT then s.rftxStat
  else if txHeldReg a then s.txRead a
  else if Reg.RFTX_DUTY 0 ≤ a ∧ a < Reg.RFTX_DUTY 4 ∧ a % 4 = 0 then BitVec.ofNat 32 (s.dutyUsed ((a - Reg.RFTX_DUTY 0) / 4))
  else if a = Reg.TBL_COUNT then s.tblCount
  else if a = Reg.MAC_SLOTNUM then BitVec.ofNat 32 s.slotNumber
  else if a = Reg.SPIS_ATTN then s.spisAttn
  else if a = Reg.SPIS_STAT then s.spisStat
  else if a = Reg.SPIM_STAT then s.spimStat
  else if a = Reg.ID_TRIAL then s.idTrial
  else if a = Reg.DICT_STAT then s.dictStat
  else if a = Reg.DICT_GEN then BitVec.ofNat 32 s.tick.snapGen
  else s.reg a

end Sys2Proof.Machine
end

