-- ==== Sys2Proof/Machine/Evr.lean ====
section
/-! DEFINITION. Machine/Evr.lean: the event recorder (chapter 24): reports, intake, coalescing, records, the ring. -/
namespace Sys2Proof.Machine

/-- The recorder's clock runs (R90). -/
def State.evrClocked (s : State) : Bool := s.clocked && s.on SYSC_CLKGATE.EVR

/-- Change of the recorder's state. -/
def State.modEvr (s : State) (f : EvrSt → EvrSt) : State := { s with evr := f s.evr }

/-! ## Capture (R505, R506) -/

/-- The selectors of a class, in order, those that are skipped left out. -/
def State.selectors (s : State) (c : Nat) : List Nat :=
  ((List.range 6).flatMap (fun k => [s.get (EVR_SNAP.SELLO c k), s.get (EVR_SNAP.SELHI c k)])).filter (fun x => decide (x ≤ 0x6BFF))

/-- R506: the value captured for a selector, and whether its block was off. An operand register captures 0 (R303). -/
def State.capture (s : State) (sel : Nat) : Word × Bool :=
  let a := 0x40000000 + 4 * sel
  if s.isOff a then (0, true) else if isSecOperand a then (0, false) else (s.peek .evr a, false)

/-- R303, R54: a selector that names an operand register makes an access that is answered as a decode error. -/
def captureBus (sel : Nat) (s : State) : State :=
  let a := 0x40000000 + 4 * sel
  if isSecOperand a && !(s.isOff a) then refuse .decode ⟨.evr, a, .b32, false⟩ s else s

/-- R505: the payload of a snapshot: the arguments, then the selected registers, 12 words in all; whether a block was off; the
state after the accesses. -/
def snapPayload (c : Nat) (args : List Byte) (s : State) : List Byte × Bool × State :=
  let sels := (s.selectors c).take (12 - args.length / 4)
  let got := sels.map s.capture
  (args ++ got.flatMap (fun x => leBytes 4 x.1.toNat), got.any (·.2), sels.foldl (fun s x => captureBus x s) s)

/-! ## The ring (R507, R513) -/

/-- Blocks in the ring. -/
def State.evrBlocks (s : State) : Nat := s.get EVR_STORE.NBLK

/-- The address of a unit of the ring. -/
def State.evrUnitAddr (s : State) (blk unit : Nat) : Nat :=
  nvmBlockAddr (s.on EVR_STORE.BANK) (s.get EVR_STORE.FIRST + blk) + 32 * unit

/-- The octets of a record (R507): header, CRC-16, payload. -/
def recordBytes (r : Report) (rep ops pcyc seq : Nat) : List Byte :=
  let ty := r.form * 64 + b2n r.offReg * 32 + r.cls
  let h := [BitVec.ofNat 8 ty, BitVec.ofNat 8 r.source] ++ leBytes 2 rep ++ leBytes 4 ops ++ leBytes 3 pcyc
    ++ [BitVec.ofNat 8 r.payload.length] ++ leBytes 2 seq
  h ++ leBytes 2 (crc16Host (h ++ r.payload)) ++ r.payload

/-- Units of a record. -/
def recordUnits (r : Report) : Nat := if r.form = 0 then 2 else if r.form = 2 then 1 else (16 + r.payload.length + 31) / 32

/-- The octets cut into units of 32, `n` of them. -/
def units32 : Nat → List Byte → List (List Byte)
  | 0, _ => []
  | n + 1, l => l.take 32 :: units32 n (l.drop 32)

/-- A record in the ring at a unit: its SEQ and units, none when no valid record starts there (R508). -/
def State.recordAt (s : State) (a : Nat) : Option (Nat × Nat) :=
  let h := s.nvmBytes a 16
  let ty := (oct h 0).toNat
  let len := (oct h 11).toNat
  let body := s.nvmBytes (a + 16) len
  if ty / 64 = 3 ∨ ¬ (leNat (h.drop 14) = crc16Host (h.take 14 ++ body)) then none
  else some (leNat ((h.drop 12).take 2), if ty / 64 = 0 then 2 else if ty / 64 = 2 then 1 else (16 + len + 31) / 32)

/-- The valid records of the ring: unit index in the ring, SEQ, units. -/
def State.evrRecords (s : State) : List (Nat × Nat × Nat) :=
  (List.range (128 * s.evrBlocks)).filterMap (fun u =>
    (s.recordAt (s.evrUnitAddr (u / 128) (u % 128))).map (fun r => (u, r.1, r.2)))

/-- EVR_SEQ.OLDEST: the SEQ of the oldest valid record, the one the furthest behind the newest. -/
def evrOldest (newest : Nat) (rs : List (Nat × Nat × Nat)) : Nat :=
  let back (q : Nat) : Nat := (newest + 65536 - q) % 65536
  rs.foldl (fun o r => if back o < back r.2.1 then r.2.1 else o) newest

/-- Where a record of `n` units goes: block and unit, and the units skipped before it (R507). -/
def State.evrPlace (s : State) (n : Nat) : Nat × Nat × Nat :=
  let b := s.get EVR_POS.BLK
  let u := s.get EVR_POS.UNIT
  if u + n ≤ 128 then (b, u, 0) else ((b + 1) % s.evrBlocks, 0, 128 - u)

/-! ## Writing (R509, R513, R514) -/

/-- R310, R513: an alarm record that is stored, or that cannot be, is reported to the security engine as stored. -/
def almTold (r : Report) (s : State) : State :=
  if r.source = 0x03 ∧ r.cls = 2 then { s with sec := { s.sec with almStored := true } } else s

/-- A record is lost after leaving staging (R514, EVR_LOST). -/
def evrLose (r : Report) (s : State) : State := almTold r (s.inc EVR_LOST.COUNT)

/-- The header of the record that is staged now: OPSEC and PCYC as it leaves the queue. -/
def stage (r : Report) (s : State) : State :=
  s.modEvr (fun e => { e with staged := some r, stagedAt := s.now, stagedOps := s.opsec, stagedPcyc := s.get EVR_PCYC.PCYC })

/-- The next report moves from the queue into staging: the alarm's first (R509, R511). -/
def stageNext (s : State) : State :=
  if s.evr.staged.isSome then s
  else match s.evr.alarm with
    | some r => stage r (s.modEvr (fun e => { e with alarm := none }))
    | none => match s.evr.queue with
      | r :: q => stage r (s.modEvr (fun e => { e with queue := q }))
      | [] => s

/-- Some drop counter is nonzero. -/
def State.anyDrop (s : State) : Bool := (List.range 4).any (fun k => s.reg (Reg.EVR_DROP k) != 0)

/-- The GAP record of the present drop counters (R507, R511). -/
def gapReport (s : State) : Report :=
  { form := 2, cls := 0, source := 0xFF, arg0 := 0
    payload := (List.range 4).flatMap (fun k => leBytes 4 (s.reg (Reg.EVR_DROP k)).toNat) }

/-- Phase 1 of an entry runs (R96). -/
def State.draining (s : State) : Bool := match s.power.st with
  | .draining _ => true
  | _ => false

/-- A trigger of R509 for the staging record: something waits, its staging time is over, its class or form; `force` for the
drain of R96 and for FLUSH. -/
def State.evrTrigger (s : State) (force : Bool) : Bool :=
  match s.evr.staged with
  | none => false
  | some r => force || s.draining || !s.evr.queue.isEmpty || s.evr.alarm.isSome || r.form != 0 || r.cls == 2
      || s.on (EVR_CLS.NOCOAL r.cls) || decide (s.evr.stagedAt + 25000000 * max 1 (s.get EVR_CFG.COALT) ≤ s.now)

/-- R513, R514: a record goes to its place in the ring: the program is requested, and in wrap mode the erase of the next
block when it starts a block. True when a write is then in progress. -/
def evrWrite (r : Report) (rep ops pcyc : Nat) (s : State) : State × Bool :=
  let n := recordUnits r
  let (blk, unit, skip) := s.evrPlace n
  if !(s.on EVR_STORE.EN) then (evrLose r s, false)
  else if s.on EVR_CFG.STOP && (s.on EVR_STAT.FULL || decide (128 * s.evrBlocks < s.evr.used + skip + n)) then
    (evrLose r (if s.on EVR_STAT.FULL then s else (s.put EVR_STAT.FULL 1).put EVR_IRQ.FULL 1), false)
  else
    let (d, s) := s.draw
    let raw := recordBytes r rep ops pcyc s.evr.seq
    let pad := (List.range (32 * n - raw.length)).map (fun i => if r.form = 0 then 0 else Config.freeByte d i)
    let (s, refused) := nvmProgram .evr (s.evrUnitAddr blk unit) n none (units32 n (raw ++ pad)) s
    match refused with
    | some _ => ((evrLose r s).put EVR_IRQ.NVMERR 1, false)
    | none =>
      let s := if unit = 0 && !(s.on EVR_CFG.STOP) && decide (1 < s.evrBlocks) then
          (nvmErase .evr (s.evrUnitAddr ((blk + 1) % s.evrBlocks) 0) s).1
        else s
      let after := (s.evrBlocks - 2) * 128 + unit + n
      let used := s.evr.used + skip + n
      let s := (s.put EVR_POS.BLK blk).put EVR_POS.UNIT unit
      (s.modEvr (fun e => { e with used := if s.on EVR_CFG.STOP then used else min used after, writing := true }), true)

/-- R509, R511: the staging record's write starts when it is due; a GAP record that is owed goes first, and its counters
clear as its write starts; a full ring in stop mode takes none (R513). `n` bounds the records that may be lost on the way. -/
def evrKick (force : Bool) : Nat → State → State
  | 0, s => s
  | n + 1, s =>
    if s.evr.writing || s.evr.clearWait || s.evr.clearing != 0 || !(s.on EVR_STAT.READY) || !s.evrClocked then s
    else
      let s := stageNext s
      if !(s.evrTrigger force) then s
      else if s.anyDrop && decide (s.evr.queue.length < 16) && !(s.on EVR_CFG.STOP && s.on EVR_STAT.FULL) then
        let g := gapReport s
        let s := (List.range 4).foldl (fun s k => s.setReg (Reg.EVR_DROP k) 0) s
        let (s, w) := evrWrite g 1 s.opsec (s.get EVR_PCYC.PCYC) s
        if w then s.modEvr (fun e => { e with gap := true }) else evrKick force n s
      else match s.evr.staged with
        | none => s
        | some r =>
          let (s, w) := evrWrite r r.rep s.evr.stagedOps s.evr.stagedPcyc s
          if w then s else evrKick force n (s.modEvr (fun e => { e with staged := none }))

/-- R514: the ring's erase: every block is requested. -/
def evrClearGo (s : State) : State :=
  let s := s.modEvr (fun e => { e with clearWait := false, clearing := s.evrBlocks })
  (List.range s.evrBlocks).foldl (fun s b =>
    match (nvmErase .evr (s.evrUnitAddr b 0) s) with
    | (s, some _) => ((s.inc EVR_LOST.COUNT).put EVR_IRQ.NVMERR 1).modEvr (fun e => { e with clearing := e.clearing - 1 })
    | (s, none) => s) s

/-- R514: the ring is empty: the write position is unit 0 of FIRST and FULL is clear. -/
def evrCleared (s : State) : State :=
  let s := ((s.put EVR_POS.BLK 0).put EVR_POS.UNIT 0).put EVR_STAT.FULL 0
  evrKick false 40 (s.modEvr (fun e => { e with used := 0 }))

/-- R509, R514: the recorder's program has ended with a status. -/
def evrProgEnd (st : Nat) (s : State) : State :=
  if !s.evr.writing then s
  else
    let gap := s.evr.gap
    let rec_ := if gap then some (gapReport s) else s.evr.staged
    let n := (rec_.map recordUnits).getD 0
    let s := s.modEvr (fun e => { e with writing := false, gap := false, staged := if gap then e.staged else none })
    let s := if st = nvOk ∨ st = nvRetired then
        let u := s.get EVR_POS.UNIT + n
        let s := if u = 128 then (s.put EVR_POS.BLK ((s.get EVR_POS.BLK + 1) % s.evrBlocks)).put EVR_POS.UNIT 0 else s.put EVR_POS.UNIT u
        let seq := s.evr.seq
        let s := s.modEvr (fun e => { e with seq := (seq + 1) % 65536 })
        let s := (s.put EVR_SEQ.NEWEST seq).put EVR_SEQ.OLDEST (evrOldest seq s.evrRecords)
        let s := (s.put EVR_IRQ.REC 1)
        if gap then s.put EVR_IRQ.GAP 1 else s
      else (s.inc EVR_LOST.COUNT).put EVR_IRQ.NVMERR 1
    let s := (rec_.map (fun r => almTold r s)).getD s
    if s.evr.clearWait then evrClearGo s else evrKick false 40 s

/-- R514: an erase that the recorder asked for has ended. -/
def evrEraseEnd (st : Nat) (s : State) : State :=
  let s := if st = nvOk ∨ st = nvRetired then s else (s.inc EVR_LOST.COUNT).put EVR_IRQ.NVMERR 1
  if s.evr.clearing = 0 then s
  else
    let left := s.evr.clearing - 1
    let s := s.modEvr (fun e => { e with clearing := left })
    if left = 0 then evrCleared s else s

/-- R514: EVR_CMD.CLEAR. One more while the ring is being erased asks for nothing new. -/
def evrClear (s : State) : State :=
  if s.evr.clearing ≠ 0 then s
  else if s.evr.writing then s.modEvr (fun e => { e with clearWait := true }) else evrClearGo s

/-! ## Reports (R503, R509 to R511) -/

/-- EVR_RPTSTAT codes. -/
def rpAccepted : Nat := 0
def rpCoalesced : Nat := 1
def rpDropped : Nat := 2
def rpRefused : Nat := 3

/-- R510: two snapshot reports are identical. -/
def sameReport (a b : Report) : Bool := a.form == 0 && b.form == 0 && a.cls == b.cls && a.source == b.source && a.arg0 == b.arg0

/-- R511: a report is dropped: its source's counter, saturating, and IRQ.DROP. -/
def evrDrop (source : Nat) (s : State) : State :=
  (s.sat ⟨Reg.EVR_DROP (source / 4), 8 * (source % 4), 8⟩).put EVR_IRQ.DROP 1

/-- The last entry of the queue with its REPEAT raised. -/
def bumpLast (q : List Report) : List Report :=
  match q.getLast? with
  | some r => q.dropLast ++ [{ r with rep := r.rep + 1 }]
  | none => q

/-- R503 to R512: a report arrives; the answer is its result code. A class with NOCOAL, and class 2, never coalesces; before
the scan has ended reports wait in the queue. -/
def evrReport (r : Report) (s : State) : State × Nat :=
  let folds : Bool := r.cls != 2 && !(s.on (EVR_CLS.NOCOAL r.cls))
  if !(s.on EVR_CFG.EN) || !(s.on (EVR_CLS.EN r.cls)) then (s, rpRefused)
  else if folds && (s.evr.queue.getLast?.map (fun q => sameReport q r && decide (q.rep < 65535))).getD false then
    (s.modEvr (fun e => { e with queue := bumpLast e.queue }), rpCoalesced)
  else if folds && s.evr.queue.isEmpty && !(s.evr.writing && !s.evr.gap)
      && (s.evr.staged.map (fun q => sameReport q r && decide (q.rep < 65535))).getD false then
    (s.modEvr (fun e => { e with staged := e.staged.map (fun q => { q with rep := q.rep + 1 }) }), rpCoalesced)
  else if r.form = 1 ∧ EVR_STAT.VCOPY.of s.evrStat = 1 then (evrDrop r.source s, rpDropped)
  else
    let gated := !s.evrClocked
    let (r, s) := if r.form = 0 && !gated then
        let p := snapPayload r.cls r.payload s
        ({ r with payload := p.1, offReg := p.2.1 }, p.2.2)
      else ({ r with raw := r.form == 0 }, s)
    if !gated && s.on EVR_STAT.READY && s.evr.queue.isEmpty && s.evr.staged.isNone && s.evr.alarm.isNone then
      (evrKick false 40 (stage r s), rpAccepted)
    else if r.source = 0x03 ∧ s.evr.alarm.isNone then
      (evrKick false 40 (s.modEvr (fun e => { e with alarm := some r })), rpAccepted)
    else if r.source = 0x03 then
      (evrKick false 40 (s.modEvr (fun e => { e with queue := r :: e.queue })), rpAccepted)
    else if 16 ≤ s.evr.queue.length then (evrDrop r.source s, rpDropped)
    else (evrKick false 40 (s.modEvr (fun e => { e with queue := e.queue ++ [r] })), rpAccepted)

/-- A snapshot report of a hardware reporter (R504). -/
def hwReport (source cls : Nat) (args : List Nat) (s : State) : State :=
  (evrReport { form := 0, cls := cls, source := source, arg0 := BitVec.ofNat 32 (args.headD 0)
               payload := args.flatMap (leBytes 4) } s).1

/-- R504: a report of the NVM controller. -/
def nvmReport (kind addr : Nat) (s : State) : State := hwReport 0x04 3 [kind, addr] s

/-- The recorder's clock opens again: waiting reports are captured (R506). -/
def evrUngated (s : State) : State :=
  let fix (r : Report) : Report := if r.raw then
      let p := snapPayload r.cls r.payload s
      { r with payload := p.1, offReg := p.2.1, raw := false }
    else r
  let t := (s.evr.queue ++ s.evr.alarm.toList).foldl (fun s r => if r.raw then (snapPayload r.cls r.payload s).2.2 else s) s
  evrKick false 40 (t.modEvr (fun e => { e with queue := e.queue.map fix, alarm := e.alarm.map fix }))

/-- R503: a write of EVR_RPT by firmware: a snapshot or a variable report; SOURCE, CLASS, NARG and LEN outside their ranges
are refused. A variable payload is copied from control SRAM; one outside it is refused, by the bus too where the recorder
does not reach it (R54). -/
def firmwareReport (m : Master) (d : Word) (s : State) : State :=
  let var := d.getLsbD 31
  let cls := d.toNat / 2 ^ 24 % 16
  let src := d.toNat / 2 ^ 16 % 16
  let narg := d.toNat / 2 ^ 8 % 8
  let len := d.toNat % 256
  let ok := (cls == 1 || decide (6 ≤ cls)) && (src == 0 || decide (0xD ≤ src))
    && (if var then decide (len ≤ 240) else decide (narg ≤ 4))
  let va := (s.reg Reg.EVR_VADDR).toNat
  let out := ok && var && !(inSram va len)
  let s := if out then (engineAccess .evr va len .b8 false s).1 else s
  let ok := ok && !out
  let args := (List.range 4).map (fun k => (s.reg (Reg.EVR_RPTARG k)).toNat)
  let r : State × Nat :=
    if !ok then (s, rpRefused)
    else if var then
      evrReport { form := 1, cls := cls, source := src, arg0 := 0, payload := s.bytes va len } s
    else evrReport { form := 0, cls := cls, source := src, arg0 := BitVec.ofNat 32 (if narg = 0 then 0 else args.headD 0)
                     payload := (args.take narg).flatMap (leBytes 4) } s
  r.1.modEvr (fun e => { e with rptStat := Sparse.set (fun _ => 0#32) e.rptStat (masterId m) (BitVec.ofNat 32 r.2) })

/-- A write of EVR_STORE: discarded with BADCFG while EVR_CFG.EN = 1 or when it breaks a range. -/
def evrStoreWrite (d : Word) (s : State) : State :=
  let first := d.toNat / 2 ^ 16 % 512
  let n := d.toNat % 128
  if s.on EVR_CFG.EN || decide (first < 388) || decide (495 < first) || decide (n < 2) || decide (64 < n) || decide (495 < first + n - 1) then
    s.put EVR_IRQ.BADCFG 1
  else s.plainWrite Reg.EVR_STORE d

/-- R512, R508: the scan: the newest valid record decides where the recorder goes on and, after a POR, OPSEC and PCYC. -/
def evrScan (s : State) : State :=
  let rs := s.evrRecords
  let s := match rs with
    | [] =>
      let s := (s.put EVR_POS.BLK 0).put EVR_POS.UNIT 0
      let s := if s.evr.fromPor then { (s.setReg Reg.EVR_OPSEC 0).setReg Reg.EVR_PCYC 0 with evr := { s.evr with opsAt := s.now } } else s
      s.modEvr (fun e => { e with used := 0, seq := 0 })
    | r :: rs' =>
      let newest := rs'.foldl (fun (b x : Nat × Nat × Nat) => if (x.2.1 + 65536 - b.2.1) % 65536 < 32768 then x else b) r
      let oldest := evrOldest newest.2.1 rs
      let startU := ((rs.find? (fun (x : Nat × Nat × Nat) => x.2.1 = oldest)).map (fun (x : Nat × Nat × Nat) => x.1)).getD 0
      let total := 128 * s.evrBlocks
      let nxt := (newest.1 + newest.2.2) % total
      let h := s.nvmBytes (s.evrUnitAddr (newest.1 / 128) (newest.1 % 128)) 16
      let s := ((s.put EVR_POS.BLK (nxt / 128)).put EVR_POS.UNIT (nxt % 128)).put EVR_SEQ.NEWEST newest.2.1
      let s := s.put EVR_SEQ.OLDEST oldest
      let s := if s.evr.fromPor then
          let p := min (2 ^ 24 - 1) (leNat ((h.drop 8).take 3) + 1)
          { (s.setReg Reg.EVR_OPSEC (BitVec.ofNat 32 (leNat ((h.drop 4).take 4)))).setReg Reg.EVR_PCYC (BitVec.ofNat 32 p)
            with evr := { s.evr with opsAt := s.now } }
        else s
      s.modEvr (fun e => { e with seq := (newest.2.1 + 1) % 65536, used := if nxt = startU then total else (nxt + total - startU) % total })
  evrKick false 40 ((s.put EVR_STAT.READY 1).modEvr (fun e => { e with fromPor := false }))

end Sys2Proof.Machine
end

