-- ==== Sys2Proof/Machine/NvmRead.lean ====
section
/-! DEFINITION. Machine/NvmRead.lean: reads of the NVM array (R390 to R393) and the start of the controller (R398, R406). -/
namespace Sys2Proof.Machine

/-- NVM_LASTECC of a read (R392). -/
def eccWord (a : Nat) (unc : Bool) (bits : Nat) : Word :=
  BitVec.ofNat 32 (2 ^ 31 + 2 ^ 30 * b2n unc + 2 ^ 25 * (b2n (nvmBankOf a)) + 2 ^ 16 * nvmBlockOf a + a % 4096 / 32 * 2 ^ 8 + bits)

/-- The threshold of NVM_EW_THRESH. -/
def State.ewThresh (s : State) : Nat := max 1 (min 4 (s.get NVM_EW_THRESH.THRESH))

/-- R391: an uncorrectable unit: flagged, counted, its address captured, a report sent. -/
def nvmUncorr (a : Nat) (s : State) : State :=
  let s := if s.on NVM_IRQ.UNCORR then s else s.setReg Reg.NVM_ECCADDR (BitVec.ofNat 32 a)
  nvmReport 0x01 a ((s.put NVM_IRQ.UNCORR 1).sat NVM_ECCCNT.UNCORR)

/-- A read of NVM at `a` by a master, `wrong` bits of its unit being wrong (5 for more than can be corrected): what follows
in the controller, and the data, none when the read is answered as a decode error. A busy bank answers the core's data side
and the debug port with the status word, a block whose erase is suspended every data read (R393). -/
def nvmFetch (m : Master) (a n wrong : Nat) (s : State) : State × Option (List Byte) :=
  let byStatus := (m == .coreData || m == .debug || s.nvmInSusp a)
  match (if byStatus then s.nvmStatus a else none) with
  | some w => (s.put NVM_STAT.STATUS_READ 1, some ((List.range n).map (fun i => oct (leBytes 4 w.toNat) ((a + i) % 4))))
  | none =>
    let last (unc : Bool) (b : Nat) (s : State) : State :=
      { s with nvm := { s.nvm with lastEcc := Sparse.set (fun _ => 0#32) s.nvm.lastEcc (masterId m) (eccWord a unc b) } }
    if 5 ≤ wrong then (nvmUncorr a (last true 0 s), none)
    else
      let s := last false wrong s
      let s := if s.ewThresh ≤ wrong then (s.put NVM_IRQ.EW 1).sat NVM_ECCCNT.EW else s
      (s, some (s.nvmBytes a n))

/-- R404: WEAR_WARN follows the counts; newly set it is flagged and reported. -/
def wearCheck (a : Nat) (s : State) : State :=
  if s.wearHigh && !(s.on NVM_STAT.WEAR_WARN) then
    nvmReport 0x04 a ((s.put NVM_STAT.WEAR_WARN 1).put NVM_IRQ.WEAR_WARN 1)
  else s

/-- R398: an abandoned erase of a bank is repeated. -/
def reErase (k : Bool) (s : State) : State :=
  match (s.bank k).abandoned with
  | none => s
  | some b =>
    let s := wipeBlock k b (countErase k b s)
    nvmReport 0x02 (nvmBlockAddr k b) ((s.modBank k (fun x => { x with abandoned := none })).put NVM_IRQ.REERASE 1)

/-- R398, R404, R405, R406: the metadata is loaded: abandoned erases are repeated, the mapping and the wear figures stand
again, the scrub goes on from its journaled position, READY sets and what waits starts. -/
def metadataLoad (s : State) : State :=
  if s.on NVM_STAT.READY then s
  else
    let s := reErase true (reErase false s)
    let s := s.putB NVM_STAT.WEAR_WARN s.wearHigh
    let s := s.put NVM_STAT.RDONLY (b2n (s.nvm.bank0.free.isEmpty) + 2 * b2n (s.nvm.bank1.free.isEmpty))
    let at_ := s.nvm.scrubJ
    let s := { s with nvm := { s.nvm with scrubAt := at_ } }
    let s := (s.put NVM_SCRUB.BANK (at_ / 512)).put NVM_SCRUB.BLOCK (at_ % 512)
    evrKick false 40 (kickBank true (kickBank false (s.put NVM_STAT.READY 1)))

/-- R406: the block is refreshed onto a free spare: the mapping switches, the old physical block is erased and is then the
free spare. -/
def refreshBlock (k : Bool) (block : Nat) (s : State) : State :=
  let b := s.bank k
  let (d, s) := s.draw
  let spare := b.free.getD (Config.freeNat d % b.free.length) 0
  let old := b.phys block
  let s := s.modBank k (fun b => { b with
    map := if spare = block then b.map.filter (fun e => e.1 ≠ block) else (block, spare) :: b.map.filter (fun e => e.1 ≠ block)
    free := old :: b.free.filter (· ≠ spare)
    cycles := Sparse.set (fun _ => 0#32) b.cycles old (Sparse.get (fun _ => 0#32) b.cycles old + 1) })
  { s.put NVM_IRQ.REFRESH 1 with nvm := { s.nvm with refreshes := s.nvm.refreshes + 1 } }

/-- R406: one scrub step reads one block; `units` lists its units with wrong bits and how many (5 for more than can be
corrected). While a program unit or an erase runs in the bank the read is suspended, and the step is not made (R32). -/
def scrubStep (units : List (Fin 128 × Fin 6)) (s : State) : State :=
  let worst := units.foldl (fun m (u : Fin 128 × Fin 6) => if u.2.val < 5 then max m u.2.val else m) 0
  let lost := units.any (fun (u : Fin 128 × Fin 6) => decide (5 ≤ u.2.val))
  let n := s.nvm.scrubAt
  let k := decide (512 ≤ n)
  if !(s.on NVM_CTRL.SCRUBEN) || !s.clocked || !(s.on NVM_STAT.READY) || s.nvmBusy (nvmBlockAddr k 0) then s
  else
    let block := n % 512
    let a := nvmBlockAddr k block
    let s := units.foldl (fun s (u : Fin 128 × Fin 6) =>
      if 5 ≤ u.2.val then nvmUncorr (a + 32 * u.1.val) s
      else if s.ewThresh ≤ u.2.val then (s.put NVM_IRQ.EW 1).sat NVM_ECCCNT.EW else s) s
    let busy := (s.bank k).prog.isSome || (s.bank k).erase.isSome
    let fresh := decide (s.ewThresh ≤ worst) && !lost && !((s.bank k).free.isEmpty) && decide (block < 496) && !busy
    let s := if fresh then wearCheck a (refreshBlock k block s) else s
    let s := if s.on NVM_SCRLOG.EN then
        (memWrite .nvm (1024 * s.get NVM_SCRLOG.ADDR + 512 * b2n k + block) .b8 (worst + b2n fresh * 64 + b2n lost * 128) s).1
      else s
    let n' := (n + 1) % 1024
    let s := { s with nvm := { s.nvm with scrubAt := n', scrubJ := if n' % 64 = 0 then n' else s.nvm.scrubJ } }
    let s := (s.put NVM_SCRUB.BANK (n' / 512)).put NVM_SCRUB.BLOCK (n' % 512)
    if n' = 0 then s.inc NVM_SCRUB.PASSES else s

end Sys2Proof.Machine
end

