-- ==== Sys2Proof/Machine/Level.lean ====
section
/-! DEFINITION. Machine/Level.lean: sums and means of powers given as levels in 0.25 dB (R202, R203, R270): exact but for the
last rounding, which the spec leaves open (log entry 12). -/
namespace Sys2Proof.Machine

/-- 10^(k/40) for k = 0 to 39, in 2^−64: the power ratio of k quarter-decibels. -/
def decadeTable : List Nat :=
  [0x10000000000000000, 0x10F2B408BCD78FF8B, 0x11F3C99F6BC4366C5, 0x13041AE9610AD8B93, 0x14248EF8FC2603ADD] ++
  [0x15561A91BA81443DD, 0x1699C0F7E86E0FA41, 0x17F094CCA08E1BEA8, 0x195BB8F6D460527E0, 0x1ADC619A23AD360B3] ++
  [0x1C73D51C54470E30F, 0x1E236D3A47FB5FC34, 0x1FEC982D5BB8AF655, 0x21D0D9E228D86DE27, 0x23D1CD41B03D0AD13] ++
  [0x25F1258E069406E5A, 0x2830AFD3A998BDE91, 0x2A925470B7BC8BC24, 0x2D1818B3562AC875E, 0x2FC42090A4CA9E65C] ++
  [0x3298B075B4B6A5240, 0x35982F340BB41FF85, 0x38C5280B56947BEB5, 0x3C224CD2052F04135, 0x3FB2783EA4DBBF29E] ++
  [0x4378B053EA2149090, 0x477828F177B5D1203, 0x4BB4468B90202D68F, 0x5030A10C004B9BD9C, 0x54F106DEB45B60141] ++
  [0x59F9802C8D1896574, 0x5F4E52473393C826C, 0x64F40348D22657FE5, 0x6AEF5DEAC608FE73B, 0x714575968B59B202E] ++
  [0x77FBAAB456D3FFE0C, 0x7F17AF3B04D5048AC, 0x869F8B853CB43F21E, 0x8E99A36FE23375861, 0x970CBBC62CFB9C988]

/-- The power of a level of `v` quarter-decibels, −32,768 and more, in a fixed unit. -/
def powerAt (v : Int) : Nat := decadeTable.getD ((v + 32768).toNat % 40) 0 * 10 ^ ((v + 32768).toNat / 40)

/-- The highest level within 16 dB of `m` whose power is at most `p`. -/
def levelBelow (m : Int) (p : Nat) : Int :=
  (List.range 129).foldl (fun (b : Int) (k : Nat) => if powerAt (m - 64 + (k : Int)) ≤ p then m - 64 + (k : Int) else b) (m - 64)

/-- The level of a power near level `m`: exact, or one of its two neighbours. -/
def levelOfPower (m : Int) (p : Nat) (up : Bool) : Int :=
  let v := levelBelow m p
  if up && powerAt v != p then v + 1 else v

/-- The level of the sum of the powers of levels (R202, R270); of none, −32,768. -/
def powerSum (l : List Int) : Int :=
  if l.isEmpty then -32768
  else levelOfPower (l.foldl max (-32768)) ((l.map powerAt).sum) (Config.roundUp l)

/-- The level of the mean of the powers of levels (R203). -/
def powerMean (l : List Int) : Int :=
  if l.isEmpty then -32768
  else levelOfPower (l.foldl max (-32768)) ((l.map powerAt).sum / l.length) (Config.roundUp l)

end Sys2Proof.Machine
end

