-- ==== Sys2Proof/Machine/CoreEntry.lean ====
section
/-! DEFINITION. Machine/CoreEntry.lean: how the control core enters an exception (R131, R132, R134), and what a refused
access of its own does to it (R51). -/
namespace Sys2Proof.Machine

/-- The core changed. -/
def State.modCore (s : State) (f : CoreSt → CoreSt) : State := { s with core := f s.core }

/-- Its registers and pc changed. -/
def State.modCpu (s : State) (f : Cpu → Cpu) : State := s.modCore (fun c => { c with cpu := f c.cpu })

def CoreSt.exl (c : CoreSt) : Bool := c.status.getLsbD 9

/-! ## Entries (R131, R132, R134) -/

/-- ESTATUS.INREP for an entry taken now. -/
def Cpu.inrep (c : Cpu) : Nat := match c.rep with
  | some r => if r.noInt then 2 else 1
  | none => 0

/-- Causes of R131. -/
def xcFetchBus : Nat := 0x03
def xcMpuFetch : Nat := 0x06
def xcIllegal : Nat := 0x01
def xcPriv : Nat := 0x02
def xcAlign : Nat := 0x09
def xcMpuLoad : Nat := 0x07
def xcMpuStore : Nat := 0x08
def xcLoadBus : Nat := 0x04
def xcSys : Nat := 0x0A
def xcBrk : Nat := 0x0B
def xcStoreBus : Nat := 0x05

/-- R132 steps 1 to 3: STATUS is saved with INREP, EPC written, UM = 0, EXL = 1, IE = 0; the repeat is left, what stood before an
iteration that has not begun is kept for R126. -/
def CoreSt.enter (c : CoreSt) (epc : Word) : CoreSt :=
  { c with
    estatus := (c.status &&& 0x371#32) ||| BitVec.ofNat 32 (2 ^ 10 * c.cpu.inrep), epc := epc
    status := (c.status &&& 0x070#32) ||| 0x200#32, cpu := { c.cpu with rep := none, open_ := [] }
    repBefore := (c.cpu.rep.bind (·.before)).or c.repBefore }

/-- An exception of the bundle at pc, or at a boundary: the entry of R132, or of R134 while EXL = 1. -/
def CoreSt.exception (c : CoreSt) (code : Nat) (eaddr epc : Word) : CoreSt :=
  if c.exl then
    if c.inDouble then { c with halted := true }
    else
      { c with depc := c.cpu.pc, dcause := BitVec.ofNat 32 code, eaddr := eaddr, inDouble := true
               cpu := { c.cpu with pc := c.vbase + 0x40, rep := none, open_ := [] } }
  else
    let c := c.enter epc
    { c with ecause := BitVec.ofNat 32 code, eaddr := eaddr, cpu := { c.cpu with pc := c.vbase } }

/-- The exception of a bundle at pc: EPC is the bundle's address. -/
def bundleFault (code : Nat) (a : Word) (s : State) : State := s.modCore (fun c => c.exception code a c.cpu.pc)

/-! ## A refused access of the core (R51) -/

/-- R51: an access of the control core has faulted: a read takes its bus-fault exception, a write waits to be reported. A
fault of another master raises none. -/
def coreFaulted (x : Access) (s : State) : State :=
  let a := BitVec.ofNat 32 x.addr
  let read (code : Nat) : State := if s.coreRuns then bundleFault code a s else s
  match x.m with
  | .coreInstr => read xcFetchBus
  | .coreData => if x.write then s.modCore (fun c => { c with storeBus := true }) else read xcLoadBus
  | _ => s

/-- The bus refuses an access: its capture, and what a fault does to the core. -/
def answered (c : BusCause) (x : Access) (s : State) : State :=
  if faults c x s then coreFaulted x (refuse c x s) else refuse c x s

end Sys2Proof.Machine
end

