-- ==== Sys2Proof/Machine/Pins.lean ====
section
/-! DEFINITION. Machine/Pins.lean: the rows of the GPIO block, the event matrix and TW_LIVE (chapter 03). -/
namespace Sys2Proof.Machine

/-- A write by the control core that reaches the register block at `a`, or what the bus makes of it (R38, R48); none while the clocks of CORE stand still. -/
def viaBus (a : Nat) (f : State → State) (s : State) : State :=
  let x : Access := ⟨.coreData, a, .b32, true⟩
  if !s.clocked then s
  else match busRefusal s x with
    | some c => answered c x s
    | none => f s

/-- The same of a read. -/
def viaRead (a : Nat) (f : State → State) (s : State) : State :=
  let x : Access := ⟨.coreData, a, .b32, false⟩
  if !s.clocked then s
  else match busRefusal s x with
    | some c => answered c x s
    | none => f s

/-- A 32-bit register write by a given master: it comes into force only when the bus takes the access. -/
def viaMaster (m : Master) (a : Nat) (f : State → State) (s : State) : State :=
  let x : Access := ⟨m, a, .b32, true⟩
  if !s.clocked then s
  else match busRefusal s x with
    | some c => answered c x s
    | none => f s

/-- GPIO_EDGE: the level outside on GP`pin` changes (R66). -/
def execGpioEdge (pin : Fin 24) (level : Bool) (s : State) : Out :=
  .next (watchPins (fun s => { s with pins := { s.pins with
    ext := s.pins.ext ||| (1#24 <<< pin.val)
    pads := if level then s.pins.pads ||| (1#24 <<< pin.val) else s.pins.pads &&& ~~~(1#24 <<< pin.val) } }) s)

/-- A write of GPIO_SET (R66). -/
def gpioSet (bits : BitVec 24) (s : State) : State :=
  watchPins (fun s => s.setReg Reg.GPIO_OUT (s.reg Reg.GPIO_OUT ||| bits.setWidth 32)) s

/-- A write of GPIO_CLR (R66). -/
def gpioClr (bits : BitVec 24) (s : State) : State :=
  watchPins (fun s => s.setReg Reg.GPIO_OUT (s.reg Reg.GPIO_OUT &&& ~~~(bits.setWidth 32))) s

/-- GPIO_SET. -/
def execGpioSet (bits : BitVec 24) (s : State) : Out := .next (viaBus Reg.GPIO_SET (gpioSet bits) s)

/-- GPIO_CLR. -/
def execGpioClr (bits : BitVec 24) (s : State) : Out := .next (viaBus Reg.GPIO_CLR (gpioClr bits) s)

/-- EVM_SWPULSE. -/
def execEvmSwpulse (bits : BitVec 24) (s : State) : Out := .next (viaBus Reg.EVM_SWPULSE (evmSw bits) s)

/-- A plain register write that the pins and lines may feel (GPIO, EVM, timer outputs). -/
def pinWrite (a : Nat) (d : Word) (s : State) : State := watchPins (fun s => s.plainWrite a d) s

/-- TIMER_ENABLE: a write of TMRn_CTRL (R368). -/
def execTimerEnable (n : Fin 8) (data : Word) (s : State) : Out :=
  .next (viaBus (Reg.TMR_CTRL n) (watchPins (tmCtrlWrite n data)) s)

/-- TIMER_COUNT_STEP: an edge of the timer's source clock; each PRESC + 1-th is a count clock (R367, R369). Edges of the
external pin are lost while the pin is in another mode. -/
def execTimerCountStep (n : Fin 8) (s : State) : Out :=
  .next (if s.get (TMR_CTRL.CLK n) = 3 ∧ s.pinCode (16 + n.val) ≠ 1 then s
    else
      let r := tmSourceEdge n s
      if r.2 then tmStep n r.1 else r.1)

/-- RELOAD_WRITE: a write of TMRn_RELOAD, both words of a linked pair (R370, R376). -/
def execReloadWrite (n : Fin 8) (v : BitVec 64) (s : State) : Out :=
  .next (viaBus (Reg.TMR_RELOAD n) (fun s => tmReloadWrite n (v.toNat % (s.tmTop n + 1)) s) s)

/-- TIMER_RESTART: TMRn_CMD.RESTART (R370); for a linked pair it is written in timer 2p. -/
def execTimerRestart (n : Fin 8) (s : State) : Out :=
  .next (viaBus (Reg.TMR_CMD n) (fun s => if s.tmHead n = n then tmRestart n s else s) s)

/-- TIMER_CAPTURE: an edge on the timer's capture source (R373). -/
def execTimerCapture (n : Fin 8) (rising : Bool) (s : State) : Out :=
  .next (if s.tmClocked && s.tmHead n == n && edgeTaken (s.get (TMR_CTRL.CAPEDGE n)) rising then tmCapture n s else s)

/-- TIMER_CAP_READ: a read of TMRn_CAP by the control core removes the head entry and, in a linked pair, latches its high
word (R373, R376). -/
def execTimerCapRead (n : Fin 8) (s : State) : Out :=
  .next (viaRead (Reg.TMR_CAP n) (fun s =>
    if s.tmHead n = n then
      let s := if s.linked n then s.latchHi .coreData (Reg.TMR_CAP n) (s.reg (Reg.TMR_CAP (pairHi n))) else s
      tmCapRead n s
    else s) s)

end Sys2Proof.Machine
end

