-- ==== Sys2Proof/Machine/Spim.lean ====
section
/-! DEFINITION. Machine/Spim.lean: the serial memory port (R409 to R417). The memory behind a select belongs to the board:
the model keeps what its window would read, and takes a programmed byte as written (log entry 24). -/
namespace Sys2Proof.Machine

/-- The memory port changed. -/
def State.modSpim (s : State) (f : SpimSt → SpimSt) : State := { s with spim := f s.spim }

/-- The port runs. -/
def State.spimOn (s : State) : Bool := s.clocked && s.on SYSC_CLKGATE.SPIM && s.on SPIM_CFG.EN

/-! ## Stores (R413, R415) -/

/-- The cache loses the line of an address. -/
def xipInval (a : Nat) (s : State) : State :=
  s.modSpim (fun p => { p with cache := p.cache.filter (fun l => !(l.1 == a / 32 * 32)) })

/-- A window write is discarded. -/
def wdrop (s : State) : State := s.sat SPIM_CNT.WDROP

/-- An entry joins the queue; none when the queue is full and the store waits. -/
def wqPush (e : WqEntry) (s : State) : Option State :=
  if 4 ≤ s.spim.queue.length then none else some (s.modSpim (fun p => { p with queue := p.queue ++ [e] }))

/-- A partly collected block is discarded. -/
def partDrop (s : State) : State :=
  if s.spim.part.isSome then wdrop ((s.modSpim (fun p => { p with part := none })).put SPIM_IRQ.XTSPART 1) else s

/-- R415: the bytes of a store in the buffer of their block. -/
def collect (l : List (Option Byte)) (o : Nat) (d : List Byte) : List (Option Byte) :=
  l.take o ++ d.map some ++ l.drop (o + d.length)

/-- R413, R415: a store of bytes at a window address that the port takes; none while it waits at a full queue. -/
def xipStore (a : Nat) (d : List Byte) (s : State) : Option State :=
  let b := a / 16 * 16
  match s.xtsRegion a with
  | none => wqPush ⟨a, d⟩ (xipInval a (partDrop s))
  | some n =>
    let other := match s.spim.part with
      | some (c, _) => c != b
      | none => false
    let s := if other then partDrop s else s
    let l := collect ((s.spim.part.map (·.2)).getD (List.replicate 16 none)) (a % 16) d
    let s := xipInval a s
    if l.all (·.isSome) then
      match s.xtsKeys n with
      | some (k1, k2) =>
        let c := xtsEnc k1 k2 (a / 4096 - s.get (SEC_XTSA.BASE n)) (a % 4096 / 16) (l.map (·.getD 0))
        (wqPush ⟨b, c⟩ s).map (fun s => s.modSpim (fun p => { p with part := none }))
      | none => some s
    else some (s.modSpim (fun p => { p with part := some (b, l) }))

/-! ## The queue's work and direct commands (R413, R416, R417) -/

/-- A direct command that waits starts when no entry is ahead of it and no poll runs. -/
def directStart (s : State) : State :=
  match s.spim.direct with
  | some (w, b, .waiting 0) => if s.spim.poll.isSome then s else s.modSpim (fun p => { p with direct := some (w, b, .running) })
  | _ => s

/-- The queue has drained. -/
def wqDrained (s : State) : State :=
  directStart (if s.spim.queue.isEmpty && s.spim.poll.isNone then s.put SPIM_IRQ.WDONE 1 else s)

/-- R413: the oldest entry is sent: write enable, page program; the poll begins. Entries behind a direct command wait. -/
def wqSend (s : State) : State :=
  if !s.spimOn || s.spimPolls then s
  else
    let go := match s.spim.direct with
      | none => true
      | some (_, _, .waiting n) => decide (0 < n)
      | some _ => false
    match s.spim.queue with
    | e :: rest =>
      if !go then s
      else
        let sel := ((s.xipTarget (e.addr - 0x10000000)).map (·.1)).getD 0
        (s.wbytes e.addr e.data).modSpim (fun p => { p with
          queue := rest, poll := some sel
          direct := match p.direct with
            | some (w, b, .waiting n) => some (w, b, .waiting (n - 1))
            | d => d })
    | [] => s

/-- The end of a direct command: with WREN the cache is invalid; DDONE. -/
def directEnd (s : State) : State :=
  match s.spim.direct with
  | some (w, _, _) =>
    let s := s.modSpim (fun p => { p with direct := none, cache := if SPIM_DCMD.WREN.of w = 1 then [] else p.cache })
    s.put SPIM_IRQ.DDONE 1
  | none => s

/-- R413: a poll reads a status byte: with BUSYBIT 0 the program or the direct command has ended. -/
def statusPoll (v : BitVec 8) (s : State) : State :=
  if !s.spimOn then s
  else match s.spim.poll with
    | some sel =>
      if v.getLsbD (s.get (SPIM_WR.BUSYBIT sel)) then s else wqDrained (s.modSpim (fun p => { p with poll := none }))
    | none => match s.spim.direct with
      | some (w, _, .polling) => if v.getLsbD (s.get (SPIM_WR.BUSYBIT (SPIM_DCMD.CS.of w))) then s else directEnd s
      | _ => s

/-- R416: a poll has lasted POLLMAX. -/
def pollTimeout (s : State) : State :=
  if !s.spimPolls then s
  else
    let s := (List.range s.spim.queue.length).foldl (fun s _ => wdrop s) s
    let s := ((s.modSpim (fun p => { p with queue := [] })).put SPIM_IRQ.WTOUT 1).sat SPIM_CNT.TOUT
    if s.spim.poll.isSome then
      directStart (s.modSpim (fun p => { p with poll := none, direct := match p.direct with
        | some (w, b, .waiting _) => some (w, b, .waiting 0)
        | d => d }))
    else directEnd s

/-- R417: a write of SPIM_DCMD. A GO while a direct command waits or runs is discarded. -/
def dcmdWrite (d : Word) (s : State) : State :=
  if SPIM_DCMD.GO.of d = 0 then s.plainWrite Reg.SPIM_DCMD d
  else if s.spim.direct.isSome then s.put SPIM_IRQ.DOVR 1
  else
    let s := s.plainWrite Reg.SPIM_DCMD d
    directStart (s.modSpim (fun p => { p with
      direct := some (d, s.get SPIM_DBUF.ADDR * 4, .waiting p.queue.length) }))

/-- R417: the transfer of the running direct command ends: `rd` is what the memory sent, `ext` what it changed in itself. -/
def directDone (rd : List Byte) (ext : List (BitVec 26 × BitVec 8)) (s : State) : State :=
  match s.spim.direct with
  | some (w, b, .running) =>
    if !s.spimOn then s
    else
      let n := min 256 (SPIM_DCMD.LEN.of w)
      let s := if SPIM_DCMD.DIR.of w = 1 ∧ inSram b n then s.wbytes b ((rd ++ List.replicate n 0).take n) else s
      let s := ext.foldl (fun (s : State) (e : BitVec 26 × BitVec 8) => s.wb (0x10000000 + e.1.toNat) e.2) s
      if SPIM_DCMD.POLL.of w = 1 then s.modSpim (fun p => { p with direct := some (w, b, .polling) }) else directEnd s
  | _ => s

/-! ## Commands -/

/-- R412: a read of the window by a master that reaches it. -/
def xipLineFill (m : Master) (a : Nat) (s : State) : State :=
  let x : Access := ⟨m, a, .b32, false⟩
  if !s.clocked || regionOf a != .xip then s
  else match busRefusal s x with
    | some c => refuse c x s
    | none => if !s.spim.queue.isEmpty || s.spimPolls then s else xipFill a s

def execXipLineFill (m : Master) (addr : Word) (s : State) : Out := .next (xipLineFill m (addr.toNat / 4 * 4) s)

/-- R413: a store of 8 to 64 bits into the window. -/
def xipWrite (m : Master) (a : Nat) (sz : Size) (v : Nat) (s : State) : State :=
  let x : Access := ⟨m, a, sz, true⟩
  if !s.clocked || regionOf a != .xip then s
  else match busRefusal s x with
    | some c => refuse c x s
    | none => (xipStore a (leBytes (sizeBytes sz) v) s).getD s

def execXipWrite (m : Master) (addr : Word) (size : Size) (data : BitVec 64) (s : State) : Out :=
  .next (xipWrite m addr.toNat size data.toNat s)

/-- R413. -/
def execWriteQueueEntry (s : State) : Out := .next (wqSend s)

/-- R413. -/
def execStatusPoll (status : BitVec 8) (s : State) : Out := .next (statusPoll status s)

/-- R416. -/
def execPollTimeout (s : State) : Out := .next (if s.spimOn then pollTimeout s else s)

/-- R417: GO. -/
def execDirectCommand (data : Word) (s : State) : Out := .next (viaBus Reg.SPIM_DCMD (dcmdWrite (data ||| 0x80000000#32)) s)

/-- R417. -/
def execDirectCommandEnd (read : List (BitVec 8)) (changed : List (BitVec 26 × BitVec 8)) (s : State) : Out :=
  .next (directDone read changed s)

end Sys2Proof.Machine
end

