-- ==== Sys2Proof/Machine/EngRead.lean ====
section
/-! DEFINITION. Machine/EngRead.lean: reads of NVM, the XIP window and the RAMs (R390 to R393, R412), and the reads of an
engine's DMA (R48, R51, R54). -/
namespace Sys2Proof.Machine

/-- `n` bytes of NVM, of the XIP window or of a RAM: none while a bank of NVM keeps the master waiting (R393) or a store
waits at the memory port; `some none` when the read is answered as a decode error (R391, R393). -/
def storeRead (m : Master) (a n : Nat) (wrong : Nat) (s : State) : Option (State × Option (List Byte)) :=
  match regionOf a with
  | .nvm =>
    if !(s.on NVM_STAT.READY) then none
    else if m == .coreInstr && s.nvmInSusp a then some (s, none)
    else if !(m == .coreData || m == .debug || s.nvmInSusp a) && s.nvmBusy a then none
    else some (nvmFetch m a n wrong s)
  | .xip =>
    if !s.spim.queue.isEmpty || s.spimPolls then none
    else some (xipFill a s, some ((List.range n).map (fun i => s.xipByte (a + i))))
  | _ => some (s, some (s.bytes a n))

/-- How the reads of an engine's DMA end. -/
inductive DmaGot where
  | bytes (l : List Byte)
  | fault
  | wait
  deriving DecidableEq, Repr

/-- An engine reads piece after piece; what the bus refuses is recorded, and ends the reads where it faults; an off access
that raises no fault reads 0. -/
def dmaReads (m : Master) : List (Nat × Nat) → State → State × DmaGot
  | [], s => (s, .bytes [])
  | (a, n) :: rest, s =>
    let x : Access := ⟨m, a, .b8, false⟩
    let r : State × DmaGot := match busRefusal s x with
      | some c => (refuse c x s, if faults c x s then .fault else .bytes (List.replicate n 0))
      | none => match storeRead m a n 0 s with
        | none => (s, .wait)
        | some (s, none) => (decodeError x s, .fault)
        | some (s, some b) => (s, .bytes b)
    match r with
    | (s, .bytes b) => match dmaReads m rest s with
      | (s, .bytes l) => (s, .bytes (b ++ l))
      | e => e
    | e => e

/-- The `n` bytes from `a` as an engine's DMA reads them. -/
def dmaRead (m : Master) (a n : Nat) (s : State) : State × DmaGot := dmaReads m (pieces a n) s

end Sys2Proof.Machine
end

