-- ==== Sys2Proof/Machine/TwSend.lean ====
section
/-! DEFINITION. Machine/TwSend.lean: the pair state and the sending side of the Twill link (R483, R485). -/
namespace Sys2Proof.Machine

/-- TWIL_STAT.STATE (R485). -/
def pairOff : Nat := 0
def pairStart : Nat := 1
def pairStandby : Nat := 2
def pairActive : Nat := 3

/-- The state of the pair. -/
def State.pairState (s : State) : Nat := s.get TWIL_STAT.STATE

/-- The part is a standby. -/
def State.standby (s : State) : Bool := s.pairState == pairStandby

/-- The part is active in a pair whose link is up (R487: mirroring runs). -/
def State.mirrors (s : State) : Bool := s.pairState == pairActive && s.on TWIL_STAT.LINK

/-- The Twill block changed. -/
def State.modTwil (s : State) (f : TwilSt → TwilSt) : State := { s with twil := f s.twil }

/-- R483: a sequenced frame goes out; beyond 64 unacknowledged frames it waits. -/
def twSend (typ : Nat) (payload : List Byte) (s : State) : State :=
  let f : TwFrame := ⟨typ, s.twil.seqNext, payload, s.now, s.now⟩
  s.modTwil (fun t =>
    if t.unacked.length < 64 then { t with seqNext := (t.seqNext + 1) % 65536, unacked := t.unacked ++ [f] }
    else { t with seqNext := (t.seqNext + 1) % 65536, waitq := t.waitq ++ [f] })

/-- A frame that mirrors, while mirroring runs (R487). -/
def twMirror (typ : Nat) (payload : List Byte) (s : State) : State := if s.mirrors then twSend typ payload s else s

/-- An UNSEQ frame goes out (R482). -/
def twUnseq (typ : Nat) (payload : List Byte) (s : State) : State := s.modTwil (fun t => { t with lastUnseq := some (typ, payload) })

end Sys2Proof.Machine
end

