-- ==== Sys2Proof/Machine/Ledger.lean ====
section
/-! DEFINITION. Machine/Ledger.lean: outgoing frame counters and their ledger (R305 to R308). -/
namespace Sys2Proof.Machine

/-- The security engine changed. -/
def State.modSec (s : State) (f : SecSt → SecSt) : State := { s with sec := f s.sec }

/-- The outgoing counter of a slot changed. -/
def State.modCtr (s : State) (n : Nat) (f : Counter → Counter) : State :=
  s.modSec (fun x => { x with ctr := x.ctr.setIfInBounds n (f (s.counter n)) })

/-- The engine is clocked and not gated (R312). -/
def State.secClocked (s : State) : Bool := s.clocked && s.on SYSC_CLKGATE.SEC

/-! ## The ledger in NVM (R307) -/

/-- The address of a unit of a ledger block. -/
def State.ledgAddr (s : State) (blk unit : Nat) : Nat :=
  0x08000000 + 0x200000 * s.get SEC_LEDGER.BANK + 4096 * (s.get SEC_LEDGER.FIRST + blk) + 32 * unit

/-- The number of ledger blocks. -/
def State.ledgBlocks (s : State) : Nat := s.get SEC_LEDGER.NBLK

/-- A record's 32 bytes. -/
def ledgBytes (kind slot seq : Nat) (kcv : List Byte) (start : Nat) : List Byte :=
  let b := leBytes 2 0x4C47 ++ leBytes 1 kind ++ leBytes 1 slot ++ leBytes 4 seq ++ kcv.take 8 ++ leBytes 4 start ++ leBytes 8 0
  b ++ leBytes 4 (crc32 b)

/-- A unit holds a record: MAGIC and CRC pass. -/
def isLedgRecord (b : List Byte) : Bool := leNat (b.take 2) == 0x4C47 && crc32 (b.take 28) == leNat (b.drop 28)

/-- Every unit of the ledger that holds a record: block, unit, bytes. -/
def State.ledgRecords (s : State) : List (Nat × Nat × List Byte) :=
  (List.range s.ledgBlocks).flatMap (fun b => (List.range 128).filterMap (fun u =>
    let r := s.nvmBytes (s.ledgAddr b u) 32
    if isLedgRecord r then some (b, u, r) else none))

/-- The largest START of the records of a key (R307). -/
def State.ledgStart (s : State) (kcv : List Byte) : Option Nat :=
  (s.ledgRecords.filter (fun r => (r.2.2.drop 8).take 8 == kcv)).foldl (fun (m : Option Nat) r =>
    let v := leNat ((r.2.2.drop 16).take 4)
    some (max v (m.getD 0))) none

/-- The engine finds its place after the newest record when the ledger is enabled; a block whose last unit is written still
waits for the erase of the next. -/
def ledgLocate (s : State) : State :=
  let seqOf (r : Nat × Nat × List Byte) : Nat := leNat ((r.2.2.drop 4).take 4)
  let best : Option (Nat × Nat × List Byte) := s.ledgRecords.foldl (fun (m : Option (Nat × Nat × List Byte)) r => match m with
    | some q => if seqOf q < seqOf r then some r else some q
    | none => some r) none
  match best with
  | some r =>
    let s := ((s.put SEC_LEDSTAT.BLK r.1).put SEC_LEDSTAT.UNIT (r.2.1 + 1)).modSec (fun x => { x with ledgSeq := (seqOf r + 1) % 2 ^ 32 })
    if r.2.1 = 127 then s.modSec (fun x => { x with closing := true, ledgQ := .erase :: x.ledgQ }) else s
  | none => ((s.put SEC_LEDSTAT.BLK 0).put SEC_LEDSTAT.UNIT 0).modSec (fun x => { x with ledgSeq := 0 })

/-- The newest reservation of a slot: its START. -/
def State.newestStart (s : State) (n : Nat) : Option Nat :=
  ((s.counter n).resv.map (·.start)).orElse (fun _ => (s.counter n).durable)

/-- The operations that close a block: a snapshot of every slot that has a reservation, then the erase (R307). -/
def State.closeOps (s : State) : List LedgOp :=
  ((List.range 32).filterMap (fun n => if s.counts n then (s.newestStart n).map (fun st => LedgOp.record 2 n (s.slot n).kcv st) else none))
    ++ [.erase]

/-- A ledger program has failed: LEDGERR, and the engine goes to the next unit. -/
def ledgFail (s : State) : State := (((s.sat SEC_LEDSTAT.ERRCNT).put SEC_IRQ.LEDGERR 1).inc SEC_LEDSTAT.UNIT)

/-- R307: one turn of the ledger engine: it starts an operation (false), or has dealt with the front of its queue without
one and turns again (true); after unit 95 the block closes, and a snapshot that finds the block full (the unit has passed
127) is left out. -/
def ledgTurn (s : State) : State × Bool :=
  if s.sec.ledgBusy || !(s.on SEC_LEDGER.EN) || !s.secClocked then (s, false)
  else
    let u := s.get SEC_LEDSTAT.UNIT
    if !s.sec.closing && decide (96 ≤ u) && !s.sec.ledgQ.isEmpty then
      (s.modSec (fun x => { x with closing := true, ledgQ := s.closeOps ++ x.ledgQ }), true)
    else match s.sec.ledgQ with
      | [] => (s, false)
      | .erase :: rest =>
        let b := (s.get SEC_LEDSTAT.BLK + 1) % max 1 s.ledgBlocks
        match nvmErase .sec (s.ledgAddr b 0) s with
        | (s, none) => (s.modSec (fun x => { x with ledgBusy := true }), false)
        | (s, some _) =>
          (((s.sat SEC_LEDSTAT.ERRCNT).put SEC_IRQ.LEDGERR 1 |>.put SEC_LEDSTAT.BLK b |>.put SEC_LEDSTAT.UNIT 0).modSec
            (fun x => { x with ledgQ := rest, closing := false }), false)
      | .record k n kcv st :: rest =>
        if s.sec.closing && decide (u < 96) then (s.modSec (fun x => { x with ledgQ := rest }), true)
        else match nvmProgram .sec (s.ledgAddr (s.get SEC_LEDSTAT.BLK) u) 1 none [ledgBytes k n s.sec.ledgSeq kcv st] s with
          | (s, none) => (s.modSec (fun x => { x with ledgBusy := true }), false)
          | (s, some _) => (ledgFail s, true)

/-- R307: the engine turns until it has started an operation or has none to start. -/
def ledgKick : Nat → State → State
  | 0, s => s
  | fuel + 1, s => let r := ledgTurn s
    if r.2 then ledgKick fuel r.1 else r.1

/-- R487: a mirrored reservation whose record has verified is acknowledged to the active part. -/
def resack (n : Nat) (kcv : List Byte) (start : Nat) (s : State) : State :=
  if s.twil.resPend.any (fun x => x == (n, kcv, start)) then
    twSend 0x12 (leBytes 1 n ++ [0, 0, 0] ++ kcv.take 8 ++ leBytes 4 start)
      (s.modTwil (fun t => { t with resPend := t.resPend.filter (fun x => x != (n, kcv, start)) }))
  else s

/-- R306, R307: a ledger program of the engine has ended. -/
def ledgProgEnd (st : Nat) (s : State) : State :=
  match s.sec.ledgQ with
  | .record k n kcv start :: rest =>
    let s := s.modSec (fun x => { x with ledgBusy := false })
    if st = nvOk ∨ st = nvRetired then
      let s := (s.modSec (fun x => { x with ledgQ := rest, ledgSeq := (x.ledgSeq + 1) % 2 ^ 32 })).inc SEC_LEDSTAT.UNIT
      let s := if k = 1 ∧ (s.slot n).kcv = kcv then
          s.modCtr n (fun c => { c with resv := c.resv.map (fun r => if r.start = start then { r with ledger := true } else r) })
        else s
      let s := resack n kcv start s
      let full := decide (s.get SEC_LEDSTAT.UNIT = 96) && !s.sec.closing
      let s := if full then s.modSec (fun x => { x with closing := true, ledgQ := s.closeOps ++ x.ledgQ }) else s
      ledgKick 200 s
    else ledgKick 200 (ledgFail s)
  | _ => s

/-- R307: the erase that ends a block is done: the engine continues there at unit 0. -/
def ledgEraseEnd (s : State) : State :=
  match s.sec.ledgQ with
  | .erase :: rest =>
    let b := (s.get SEC_LEDSTAT.BLK + 1) % max 1 s.ledgBlocks
    ledgKick 200 (((s.put SEC_LEDSTAT.BLK b).put SEC_LEDSTAT.UNIT 0).modSec
      (fun x => { x with ledgQ := rest, ledgBusy := false, closing := false }))
  | _ => s

/-! ## Reservations (R305, R306) -/

/-- R306: the conditions of a reservation: its record verified, unless the ledger is off; in pair mode the partner's
acknowledgement, or a tick without it. -/
def State.resvHolds (s : State) (r : Resv) : Bool :=
  (r.ledger || !(s.on SEC_LEDGER.EN)) && (r.ack || r.late || s.pairState != pairActive)

/-- A reservation has become durable; TWILLW tells that it did without the partner's acknowledgement. -/
def makeDurable (n : Nat) (s : State) : State :=
  match (s.counter n).resv with
  | some r =>
    let s := (s.modCtr n (fun c => { c with durable := some r.start, resv := none })).put SEC_IRQ.RESV 1
    if r.late && !r.ack then s.put SEC_IRQ.TWILLW 1 else s
  | none => s

/-- R306: the block at `start` is reserved: a ledger record unless the ledger is off, and in pair mode a RES frame. With
neither it is durable at once. -/
def reserve (n start : Nat) (s : State) : State :=
  let led := s.on SEC_LEDGER.EN
  let pair := s.pairState == pairActive
  let s := s.modCtr n (fun c => { c with resv := some ⟨start, !led, !pair, false⟩ })
  let kcv := (s.slot n).kcv
  let s := if led then ledgKick 200 (s.modSec (fun x => { x with ledgQ := x.ledgQ ++ [.record 1 n kcv start] })) else s
  let s := twMirror 0x12 (leBytes 1 n ++ [0, 0, 0] ++ kcv.take 8 ++ leBytes 4 start) s
  if !led && !pair then makeDurable n s else s

/-- RESLEAD, within 16 to 1,008. -/
def State.resLead (s : State) : Nat := max 16 (min 1008 (s.get SEC_CFG.RESLEAD))

/-- R305: the next block is reserved when NEXT − START has reached 1,024 − RESLEAD. -/
def reserveIfDue (n : Nat) (s : State) : State :=
  let c := s.counter n
  if !(s.counts n) || c.resv.isSome || c.exhausted || !s.secClocked then s
  else match c.durable with
    | some d => if d + 1024 < 2 ^ 32 ∧ 1024 - s.resLead + d ≤ c.next then reserve n (max (d + 1024) (c.next / 1024 * 1024)) s else s
    | none => reserve n (c.next / 1024 * 1024) s

/-- R305, R306, R308: a frame takes NEXT of a slot; none when the slot has no counter to give now. -/
def takeCounter (n : Nat) (s : State) : Option Nat × State :=
  let c := s.counter n
  if !(s.counts n) || c.exhausted || s.ctrBlocked n || !s.secClocked then (none, s)
  else
    let s := s.modCtr n (fun c => { c with next := c.next + 1, exhausted := decide (0xFFFFFFFE ≤ c.next) })
    let s := if 0xFFFFFFFE ≤ c.next then s.put SEC_IRQ.EXHAUST 1 else s
    (some c.next, reserveIfDue n s)

/-- R307: a FRAME or DICT key that comes into a slot recovers its counter, and the block of its first counter is reserved. -/
def recoverCounter (n : Nat) (s : State) : State :=
  let s := s.modCtr n (fun _ => {})
  if !(s.counts n) then s
  else
    let next := match (if s.on SEC_LEDGER.EN then s.ledgStart (s.slot n).kcv else none) with
      | some st => st + 1024
      | none => 0
    if 0xFFFFFFFE < next then (s.modCtr n (fun c => { c with next := 0xFFFFFFFF, exhausted := true })).put SEC_IRQ.EXHAUST 1
    else reserve n next (s.modCtr n (fun c => { c with next := next }))

/-- R306, R494, R499: after a takeover or handover counters come from the block after the newest one the part holds. -/
def counterTakeover (s : State) : State :=
  (List.range 32).foldl (fun s n =>
    match s.counts n, s.newestStart n with
    | true, some st =>
      let s := s.modCtr n (fun c => { c with next := max c.next (st + 1024), durable := some st, resv := none })
      reserveIfDue n s
    | _, _ => s) s

/-- R494, R306: a standby records a block as held: in its ledger, unless that is off, and as the newest of the slot. -/
def holdBlock (n start : Nat) (s : State) : State :=
  if start < 2 ^ 32 ∧ ((s.newestStart n).map (fun x => decide (x < start))).getD true then
    let s := s.modCtr n (fun c => { c with durable := some start })
    if s.on SEC_LEDGER.EN then ledgKick 200 (s.modSec (fun x => { x with ledgQ := x.ledgQ ++ [.record 1 n (s.slot n).kcv start] })) else s
  else s

/-- R487: a standby takes a mirrored reservation: its ledger records it under the KCV carried and acknowledges it once the
record verifies, or at once while the ledger is off; it is the newest of the slot when the slot holds that key. -/
def holdRes (n : Nat) (kcv : List Byte) (start : Nat) (s : State) : State :=
  let s := if (s.slot n).kcv = kcv ∧ ((s.newestStart n).map (fun x => decide (x < start))).getD true then
      s.modCtr n (fun c => { c with durable := some start }) else s
  let s := s.modTwil (fun t => { t with resPend := t.resPend ++ [(n, kcv, start)] })
  if s.on SEC_LEDGER.EN then ledgKick 200 (s.modSec (fun x => { x with ledgQ := x.ledgQ ++ [.record 1 n kcv start] }))
  else resack n kcv start s

end Sys2Proof.Machine
end

