-- ==== Sys2Proof/Machine/Wake.lean ====
section
/-! DEFINITION. Machine/Wake.lean: how a wake source reaches the power state machine (R97, R100). -/
namespace Sys2Proof.Machine

/-- The bit of a source in SYSC_WAKESRC. -/
def wakeBit : WakeSrc → Nat
  | .wakePin => 0 | .hsCs => 1 | .gpio => 2 | .rtcAlm => 3 | .rtcPer => 4 | .tWake => 5 | .zeph => 6 | .bow => 8 | .alarm => 9

/-- R100: the source may wake the part: enabled in SYSC_WAKEEN, the brown-out warning in SYSC_SUPCFG, an alarm always. -/
def State.wakeEnabled (s : State) : WakeSrc → Bool
  | .alarm => true
  | .bow => s.on SYSC_SUPCFG.BOWWAKE
  | src => bitOf (s.get ⟨Reg.SYSC_WAKEEN, 0, 7⟩) (wakeBit src)

/-- A wake from sleep or deep sleep begins: the sources that are pending show in SYSC_WAKESRC (R100, R105, R106). -/
def startWake (t : LowState) (bits : Nat) (dur : Bool) (s : State) : State :=
  let s := s.setReg Reg.SYSC_WAKESRC (s.reg Reg.SYSC_WAKESRC ||| BitVec.ofNat 32 (bits + 2 ^ 16 * b2n dur))
  let s := s.put SYSC_LPSTAT.LAST (match t with | .sleep => 1 | .deepSleep => 2 | .off => 3)
  { s with power := { s.power with st := .waking t, entryWake := 0, zephWake := bitOf bits 6 } }

/-- R97, R100: an enabled source arrives: in sleep and deep sleep the wake begins; during entry it is kept until the entry
has completed; in every other state it wakes nothing. -/
def wake (src : WakeSrc) (s : State) : State :=
  if !(s.wakeEnabled src) then s
  else match s.power.st with
    | .sleep => startWake .sleep (2 ^ wakeBit src) false s
    | .deepSleep => startWake .deepSleep (2 ^ wakeBit src) false s
    | .draining t | .saving t =>
      if t = .off then s
      else { s with power := { s.power with entryWake := s.power.entryWake ||| (1#10 <<< wakeBit src) } }
    | _ => s

end Sys2Proof.Machine
end

