-- ==== Sys2Proof/Machine/Sec.lean ====
section
/-! DEFINITION. Machine/Sec.lean: the security engine's commands, modular unit and alarms (R290 to R312). -/
namespace Sys2Proof.Machine

/-! ## Status codes (R302) -/

def secOk : Nat := 0x01
def secNokey : Nat := 0x02
def secUse : Nat := 0x03
def secAuth : Nat := 0x04
def secBaddesc : Nat := 0x05
def secAlarm : Nat := 0x06
def secEpoch : Nat := 0x07
def secNowrap : Nat := 0x08
def secBus : Nat := 0x09

/-- One byte as the bus gives it from control SRAM, NVM or the XIP window, decrypted in an XTS region (R300). -/
def State.dataByte (s : State) (a : Nat) : Byte :=
  match regionOf a with
  | .nvm => s.nvmByte a
  | .xip => s.xipByte a
  | _ => s.rb a

/-- Bytes as the engine's DMA reads them. -/
def State.dataBytes (s : State) (a n : Nat) : List Byte := (List.range n).map (fun i => s.dataByte (a + i))

/-- The bytes from `a` lie in the engine's window for this direction (R301). -/
def secRange (a n : Nat) (write : Bool) : Bool :=
  let ok (x : Nat) : Bool := let r := regionOf x
    r == .sram || (!write && (r == .nvm || r == .xip))
  n == 0 || (ok a && ok (a + n - 1) && regionOf a == regionOf (a + n - 1))

/-! ## LOAD and ERASE (R296 to R298) -/

/-- R296: the tests of a LOAD, over the blob's bytes. -/
def loadTests (slot : Nat) (blob : List Byte) (s : State) : Nat :=
  let u (o n : Nat) : Nat := leNat ((blob.drop o).take n)
  let klen := if u 2 1 = 1 then 32 else 16
  if s.on SEC_ALMSTAT.LATCHED then secAlarm
  else if !s.wkeys then secNowrap
  else if u 0 1 ≠ 1 ∨ 1 < u 2 1 ∨ 32 ≤ u 3 1 ∨ u 5 3 ≠ 0 ∨ u 12 4 ≠ 0 ∨ blob.length ≠ 32 + klen ∨ u 1 1 ≠ slot ∨ 32 ≤ slot then secBaddesc
  else if cmac (s.wrapKey 32) (blob.take (16 + klen)) ≠ blob.drop (16 + klen) then secAuth
  else if u 8 4 < s.get SEC_EPOCH.FLOOR then secEpoch
  else secOk

/-- R296: a LOAD that has passed its tests. -/
def loadKey (slot : Nat) (blob : List Byte) (s : State) : State :=
  let u (o n : Nat) : Nat := leNat ((blob.drop o).take n)
  let wide := u 2 1 == 1
  let key := ecbDec (s.wrapKey 0) ((blob.drop 16).take (if wide then 32 else 16))
  let k : KeySlot :=
    { valid := true, wide := wide, use := BitVec.ofNat 5 (u 3 1), keyId := u 4 1, epoch := u 8 4, key := key
      kcv := (aesEnc key (List.replicate 16 0)).take 8 }
  recoverCounter slot (endSess (· == .mesh slot) (s.modSec (fun x => { x with slots := x.slots.setIfInBounds slot k })))

/-- LOAD of a blob into a slot, and its status. -/
def keyLoad (slot : Nat) (blob : List Byte) (s : State) : State × Nat :=
  let st := loadTests slot blob s
  if st = secOk then (loadKey slot blob s, secOk) else (s, st)

/-- R298: ERASE. -/
def keyErase (slot : Nat) (s : State) : State :=
  endSess (· == .mesh slot) ((s.modSec (fun x => { x with slots := x.slots.setIfInBounds slot {} })).modCtr slot (fun _ => {}))

/-! ## Firmware descriptors (R301) -/

/-- The descriptor at TAIL. -/
def State.secDesc (s : State) : Nat := s.get SEC_CMDBASE.ADDR * 512 + 32 * s.get SEC_CMDPTR.TAIL

/-- A field of it. -/
def State.secField (s : State) (o n : Nat) : Nat := s.rn (s.secDesc + o) n

/-- A descriptor ends: STATUS, TAIL, CMDDONE. A ring outside control SRAM takes no STATUS. -/
def secEnd (st : Nat) (s : State) : State :=
  let t := (s.get SEC_CMDPTR.TAIL + 1) % 16
  let s := if inSram s.secDesc 32 then s.wb (s.secDesc + 3) (BitVec.ofNat 8 st) else s
  (s.put SEC_CMDPTR.TAIL t).put SEC_IRQ.CMDDONE 1

/-- A MIC length (R301). -/
def micLenOk (n : Nat) : Bool := n == 0 || n == 4 || n == 8 || n == 16

/-- The key of a slot for an operation that needs one of the USE bits `mask`: a status, or the key (log entry 22 for the
order of the tests). -/
def State.secKey (s : State) (slot : Nat) (mask : BitVec 5) : Nat ⊕ List Byte :=
  if 32 ≤ slot then .inl secBaddesc
  else if !(s.slot slot).valid then .inl secNokey
  else if (s.slot slot).use &&& mask = 0 then .inl secUse
  else .inr (s.slot slot).key

/-- The engine's reads for one message, one range after another, and what it then makes of the bytes: a fault ends the
command BUS (R302); while the memory keeps the engine waiting nothing has happened. -/
def secReads (k : List (List Byte) → State → State) : List (Nat × Nat) → List (List Byte) → State → Option State
  | [], got, s => some (k got.reverse s)
  | (a, n) :: rest, got, s =>
    match dmaRead .secDma a n s with
    | (s, .bytes b) => secReads k rest (b :: got) s
    | (s, .fault) => some (secEnd secBus s)
    | (_, .wait) => none

/-- A command over the ranges that it reads. -/
def secOver (l : List (Nat × Nat)) (k : List (List Byte) → State → State) (s : State) : State := (secReads k l [] s).getD s

/-- ECB. -/
def secEcb (enc : Bool) (s : State) : State :=
  let src := s.secField 4 4; let dst := s.secField 8 4; let len := s.secField 12 4
  if len % 16 ≠ 0 ∨ !(secRange src len false) ∨ !(secRange dst len true) then secEnd secBaddesc s
  else match s.secKey (s.secField 1 1) 0x10 with
    | .inl st => secEnd st s
    | .inr key => secOver [(src, len)] (fun g s =>
        let d := g.headD []
        secEnd secOk (s.wbytes dst (if enc then ecbEnc key d else ecbDec key d))) s

/-- CCM*. -/
def secCcm (enc : Bool) (s : State) : State :=
  let src := s.secField 4 4; let dst := s.secField 8 4; let len := s.secField 12 4
  let aad := s.secField 16 4; let alen := s.secField 20 2; let non := s.secField 24 4; let mic := s.secField 28 4
  let mlen := s.secField 2 1
  if !(micLenOk mlen) ∨ 65536 ≤ len ∨ !(secRange src len false) ∨ !(secRange dst len true) ∨ !(secRange aad alen false)
      ∨ !(secRange non 13 false) ∨ !(secRange mic mlen enc) then secEnd secBaddesc s
  else match s.secKey (s.secField 1 1) 0x10 with
    | .inl st => secEnd st s
    | .inr key => secOver ([(non, 13), (aad, alen), (src, len)] ++ (if enc then [] else [(mic, mlen)])) (fun g s =>
        let n := g.getD 0 []
        let a := g.getD 1 []
        let d := g.getD 2 []
        let c := ccmCrypt key n d
        if enc then secEnd secOk ((s.wbytes dst c).wbytes mic (ccmMic key n a d mlen))
        else if ccmMic key n a c mlen = g.getD 3 [] then secEnd secOk (s.wbytes dst c)
        else secEnd secAuth (s.wbytes dst (List.replicate len 0))) s

/-- CMAC. -/
def secCmac (s : State) : State :=
  let src := s.secField 4 4; let len := s.secField 12 4; let mic := s.secField 28 4; let mlen := s.secField 2 1
  if !(micLenOk mlen) ∨ !(secRange src len false) ∨ !(secRange mic mlen true) then secEnd secBaddesc s
  else match s.secKey (s.secField 1 1) 0x18 with
    | .inl st => secEnd st s
    | .inr key => secOver [(src, len)] (fun g s => secEnd secOk (s.wbytes mic ((cmac key (g.headD [])).take mlen))) s

/-- LOAD. -/
def secLoad (s : State) : State :=
  let src := s.secField 4 4; let len := s.secField 12 4; let slot := s.secField 1 1
  let bad := 64 < len ∨ !(secRange src len false)
  secOver (if bad then [] else [(src, len)]) (fun g s =>
    let r := keyLoad slot (g.headD []) s
    secEnd r.2 r.1) s

/-- ERASE. -/
def secErase (s : State) : State :=
  let slot := s.secField 1 1
  if 32 ≤ slot then secEnd secBaddesc s else secEnd secOk (keyErase slot s)

/-- The engine runs the descriptor at TAIL when its OP is `op`; one with an undefined OP ends BADDESC whichever command
row takes it up, one outside control SRAM ends BUS (log entry 43). While the alarm is latched every descriptor ends ALARM (R302). -/
def secRun (op : Nat) (f : State → State) (s : State) : State :=
  if !s.secClocked || !(s.on SEC_CMDBASE.EN) || s.get SEC_CMDPTR.HEAD == s.get SEC_CMDPTR.TAIL then s
  else if !(inSram s.secDesc 32) then secEnd secBus (engineAccess .secDma s.secDesc 32 .b32 false s).1
  else
    let o := s.secField 0 1
    if !([1, 2, 3, 4, 5, 0x10, 0x11].contains o) then secEnd secBaddesc s
    else if o ≠ op then s
    else if s.on SEC_ALMSTAT.LATCHED then secEnd secAlarm s
    else f s

/-- ECB_ENCRYPT. -/
def execEcbEncrypt (s : State) : Out := .next (secRun 0x01 (secEcb true) s)
/-- ECB_DECRYPT. -/
def execEcbDecrypt (s : State) : Out := .next (secRun 0x02 (secEcb false) s)
/-- CCM_ENCRYPT. -/
def execCcmEncrypt (s : State) : Out := .next (secRun 0x03 (secCcm true) s)
/-- CCM_DECRYPT_VERIFY. -/
def execCcmDecryptVerify (s : State) : Out := .next (secRun 0x04 (secCcm false) s)
/-- CMAC_COMMAND. -/
def execCmacCommand (s : State) : Out := .next (secRun 0x05 secCmac s)
/-- KEY_LOAD. -/
def execKeyLoad (s : State) : Out := .next (secRun 0x10 secLoad s)
/-- KEY_ERASE. -/
def execKeyErase (s : State) : Out := .next (secRun 0x11 secErase s)

/-! ## The modular unit (R303) -/

/-- −N⁻¹ modulo 2^256 for an odd N, by Newton's iteration. -/
def negInv (n : Nat) : Nat :=
  let x := (List.range 8).foldl (fun x _ => x * (2 + 2 ^ 256 - n * x % 2 ^ 256) % 2 ^ 256) 1
  (2 ^ 256 - x) % 2 ^ 256

/-- The Montgomery product a · b · 2^−256 modulo an odd n. -/
def montMul (n a b : Nat) : Nat :=
  let t := a * b
  let m := t % 2 ^ 256 * negInv n % 2 ^ 256
  let u := (t + m * n) / 2 ^ 256
  if n ≤ u then u - n else u

/-- A free 256-bit value. -/
def freeOperand (d : Nat) : BitVec 256 :=
  (List.range 8).foldl (fun (v : BitVec 256) i => (v <<< 32) ||| (Config.freeReg d i).setWidth 256) 0

/-- The result of an operation on operands below the modulus; for others the spec states none, and it is free. -/
def bnResult (op : Nat) (n a b : Nat) (s : State) : State × BitVec 256 :=
  if a < n ∧ b < n ∧ (op = 0 → n % 2 = 1) then
    (s, BitVec.ofNat 256 (if op = 0 then montMul n a b else if op = 1 then (a + b) % n else (a + n - b) % n))
  else
    let r := s.draw
    (r.2, freeOperand r.1)

/-- A write of SEC_BNCMD with GO = 1: discarded while an operation runs; the reserved OP ends at once (R303). -/
def bnCommand (op : Nat) (dst b a : BitVec 3) (s : State) : State :=
  if s.on SEC_BNCMD.GO then s
  else
    let s := (((s.put SEC_BNCMD.OP op).put SEC_BNCMD.DST dst.toNat).put SEC_BNCMD.SRCB b.toNat).put SEC_BNCMD.SRCA a.toNat
    if 2 < op then s.put SEC_IRQ.BNDONE 1
    else
      let v (i : BitVec 3) : Nat := ((s.sec.bn[i.toNat]?).getD 0).toNat
      let r := bnResult op (v 7) (v a) (v b) s
      (r.1.modSec (fun x => { x with bnRes := some (Fin.ofNat 8 dst.toNat, r.2) })).put SEC_BNCMD.GO 1

/-- MONTGOMERY_MULTIPLY. -/
def execMontgomeryMultiply (dst b a : BitVec 3) (s : State) : Out := .next (viaBus Reg.SEC_BNCMD (bnCommand 0 dst b a) s)
/-- MODULAR_ADD. -/
def execModularAdd (dst b a : BitVec 3) (s : State) : Out := .next (viaBus Reg.SEC_BNCMD (bnCommand 1 dst b a) s)
/-- MODULAR_SUBTRACT. -/
def execModularSubtract (dst b a : BitVec 3) (s : State) : Out := .next (viaBus Reg.SEC_BNCMD (bnCommand 2 dst b a) s)

/-- BN_DONE: the operation that runs ends. -/
def execBnDone (s : State) : Out :=
  .next (match s.sec.bnRes with
    | some (d, v) =>
      if s.secClocked then
        ((s.modSec (fun x => { x with bn := x.bn.set d v, bnRes := none })).put SEC_BNCMD.GO 0).put SEC_IRQ.BNDONE 1
      else s
    | none => s)

/-! ## Counters -/

/-- COUNTER_RESERVE (R305). -/
def execCounterReserve (slot : Fin 32) (s : State) : Out := .next (reserveIfDue slot.val s)

/-- R306: a reservation whose conditions hold becomes durable. -/
def settle (n : Nat) (s : State) : State :=
  match (s.counter n).resv with
  | some r => if s.resvHolds r then makeDurable n s else s
  | none => s

/-- RESERVATION_DURABLE (R306): both conditions of a reservation hold. -/
def execReservationDurable (slot : Fin 32) (s : State) : Out := .next (settle slot.val s)

/-- RESERVATION_ACK_TIMEOUT (R306): no acknowledgement came within a tick; the ledger record alone makes it durable. -/
def execReservationAckTimeout (slot : Fin 32) (s : State) : Out :=
  .next (settle slot.val (s.modCtr slot.val (fun c => { c with resv := c.resv.map (fun r => { r with late := true }) })))

/-! ## Alarms (R309 to R311) -/

/-- R310 step 3: the alarm record enters the recorder's queue when CORE runs. -/
def alarmReport (s : State) : State :=
  if s.sec.almReport && s.clocked then
    hwReport 0x03 2 [(s.reg Reg.SEC_ALMSTAT).toNat] (s.modSec (fun x => { x with almReport := false }))
  else s

/-- R310: a message under way in a bank's program ends with the alarm: its keys are gone. -/
def dropKeys (k : Bool) (s : State) : State :=
  s.modBank k (fun b => { b with prog := b.prog.map (fun j =>
    { j with xts := match j.xts with
        | .keys _ _ _ => .unusable
        | u => u }) })

/-- R61, R310: an alarm from an enabled source while the AON domain has power: in every state except off, and in reset from
the AON domain's power-up on. Every slot is erased, so the sessions of mesh keys end (R455). -/
def alarm (src : BitVec 4) (s : State) : State :=
  let fired := src.toNat &&& ((s.reg Reg.SEC_ALMCFG).toNat % 16)
  if fired = 0 ∨ s.power.st = .off ∨ (s.power.st = .reset ∧ s.power.por ∧ s.power.vbatLow) then s
  else
    let s := (s.put SEC_ALMSTAT.LATCHED 1).put SEC_ALMSTAT.SRC (s.get SEC_ALMSTAT.SRC ||| fired)
    let s := s.sat SEC_ALMSTAT.COUNT
    let s := s.modSec (fun x => { x with slots := Vector.replicate 32 {}, ctr := Vector.replicate 32 {}, wkGone := true
                                         almReport := true, almStored := false, ledgQ := [], ledgBusy := false })
    let s := dropKeys true (dropKeys false s)
    let s := endSess meshSess { s with power := { s.power with saved := [], storeGone := true } }
    alarmReport (wake .alarm s)

/-- SECURITY_ALARM: sources that fire, bit 0 SUPPLY, 1 CLOCK, 2 TEMP, 3 TAMPER. -/
def execSecurityAlarm (src : BitVec 4) (s : State) : Out := .next (alarm src s)

/-- R311: the first write to SEC_ALMCFG after reset takes and locks the register. -/
def almcfgWrite (d : Word) (s : State) : State :=
  if s.sec.almLocked then s
  else (s.setReg Reg.SEC_ALMCFG (d &&& 0x10F#32)).modSec (fun x => { x with almLocked := true })

/-- ALMCFG_WRITE. -/
def execAlmcfgWrite (data : Word) (s : State) : Out := .next (viaBus Reg.SEC_ALMCFG (almcfgWrite data) s)

/-- R297: SEC_EPOCH.FLOOR only rises. -/
def epochWrite (d : Word) (s : State) : State :=
  if s.get SEC_EPOCH.FLOOR ≤ d.toNat then s.setReg Reg.SEC_EPOCH d else s

/-- EPOCH_WRITE. -/
def execEpochWrite (data : Word) (s : State) : Out := .next (viaBus Reg.SEC_EPOCH (epochWrite data) s)

/-- A SEC_LEDGER write: discarded with LEDGERR when it would enable a ledger out of range; while EN = 1 only EN changes. -/
def ledgerWrite (d : Word) (s : State) : State :=
  let en := SEC_LEDGER.EN.of d == 1
  if s.on SEC_LEDGER.EN then s.putB SEC_LEDGER.EN en
  else
    let f := SEC_LEDGER.FIRST.of d; let n := SEC_LEDGER.NBLK.of d
    if en ∧ (f < 388 ∨ 495 < f + n - 1 ∨ n < 2 ∨ 16 < n) then s.put SEC_IRQ.LEDGERR 1
    else
      let s := s.plainWrite Reg.SEC_LEDGER d
      if en then ledgKick 200 (ledgLocate s) else s

/-- LEDGER_CFG_WRITE. -/
def execLedgerCfgWrite (data : Word) (s : State) : Out := .next (viaBus Reg.SEC_LEDGER (ledgerWrite data) s)

end Sys2Proof.Machine
end

