-- ==== Sys2Proof/Machine/Table.lean ====
section
/-! DEFINITION. Machine/Table.lean: the peer and route table (chapter 14). -/
namespace Sys2Proof.Machine

/-! ## Entries (R314 to R316) -/

/-- The 32 bytes of an entry. -/
def State.entry (s : State) (i : Nat) : List Byte := s.bytes (tblAddr i) 32

/-- A number in an entry's bytes. -/
def eN (e : List Byte) (o n : Nat) : Nat := leNat ((e.drop o).take n)

/-- An entry's bytes with a number put into them. -/
def ePut (e : List Byte) (o n v : Nat) : List Byte := e.take o ++ leBytes n v ++ e.drop (o + n)

/-- FLAGS bits. -/
def eExtV (e : List Byte) : Bool := bitOf (eN e 1 1) 0
def eShortV (e : List Byte) : Bool := bitOf (eN e 1 1) 1

/-- A PEER entry is valid at an index. -/
def State.isPeer (s : State) (i : Nat) : Bool := decide (i < 8192) && s.eKind i == kPeer

/-- Two entries have a key in common: the same EXT, or the same PANID and SHORT (R319 test 4). -/
def sameKey (a b : List Byte) : Bool :=
  eN a 0 1 == eN b 0 1 &&
    ((eExtV a && eExtV b && eN a 8 8 == eN b 8 8)
      || (eShortV a && eShortV b && eN a 2 2 == eN b 2 2 && eN a 4 2 == eN b 4 2))

/-- R318: the RESSLOT that serves a key slot: of the PEER entries that name it. -/
def State.resOf (s : State) (keyslot : Nat) : Option Nat :=
  ((s.tblOf kPeer).find? (fun i => eN (s.entry i) 6 1 == keyslot)).map (fun i => eN (s.entry i) 7 1)

/-- The present network time as entries keep it: bits 55:24. -/
def State.ntStamp (s : State) : Nat := s.nt / 2 ^ 24 % 2 ^ 32

/-! ## Writing an entry -/

/-- Every write of an entry: VER is incremented (R314), a dictionary request keeps the earlier contents (R325), and an
active part mirrors the entry (R326, R487). -/
def tblPut (i : Nat) (e : List Byte) (s : State) : State :=
  let old := s.entry i
  let ver := (eN old 26 2 + 1) % 65536
  let new := ePut e 26 2 ver
  let s := if s.tbl.saving && !(s.tbl.saves.any (fun x => x.1 == i)) then
      if s.tbl.saves.length < 128 then { s with tbl := { s.tbl with saves := s.tbl.saves ++ [(i, old)] } }
      else { s with tbl := { s.tbl with savesLost := true } }
    else s
  let s := if eN old 16 4 ≠ eN new 16 4 ∧ eN new 0 1 = kPeer ∧ !(s.tbl.ctrChanged.contains i) then
      { s with tbl := { s.tbl with ctrChanged := s.tbl.ctrChanged ++ [i] } } else s
  twMirror 0x10 (leBytes 2 i ++ [0, 0] ++ new) (s.wbytes (tblAddr i) new)

/-- The entry is freed: it reads as zero apart from VER. -/
def tblFree (i : Nat) (s : State) : State := tblPut i (List.replicate 32 0) s

/-! ## Tests (R319) -/

def tbOk : Nat := 0x00
def tbMiss : Nat := 0x01
def tbEmpty : Nat := 0x02
def tbOccupied : Nat := 0x03
def tbQuota : Nat := 0x04
def tbDupkey : Nat := 0x05
def tbBadentry : Nat := 0x06
def tbHashfull : Nat := 0x07
def tbInuse : Nat := 0x08
def tbCtrmap : Nat := 0x09
def tbNextbad : Nat := 0x0A
def tbStandby : Nat := 0x0B

/-- A key slot field: 0 to 31 or 0xFF. -/
def slotField (v : Nat) : Bool := decide (v < 32) || v == 255

/-- R319 test 1. -/
def entryOk (e : List Byte) : Bool :=
  let k := eN e 0 1
  (eExtV e || eShortV e) &&
    (if k = kPeer then decide (eN e 1 1 < 64) && slotField (eN e 6 1) && slotField (eN e 7 1)
     else if k = kRoute then decide (eN e 1 1 < 8) && decide (eN e 6 2 < 8192) && (decide (eN e 18 2 < 8192) || eN e 18 2 == 65535)
     else false)

/-- The quota of a kind. -/
def State.quota (s : State) (k : Nat) : Nat := if k = kPeer then s.get TBL_SPLIT.PQUOTA else s.get TBL_SPLIT.RQUOTA

/-- R319: the tests of ADD (`add`) and WRITE at an index, in order. -/
def entryTests (add : Bool) (i : Nat) (e : List Byte) (s : State) : Nat :=
  let k := eN e 0 1
  let others := s.tblUsed.filter (· ≠ i)
  if !(entryOk e) then tbBadentry
  else if add && s.eKind i != kFree then tbOccupied
  else if !add && s.eKind i == kFree then tbEmpty
  else if s.quota k < (others.filter (fun j => s.eKind j == k)).length + 1 then tbQuota
  else if others.any (fun j => sameKey (s.entry j) e) then tbDupkey
  else if k == kPeer && eN e 6 1 != 255 && (s.resOf (eN e 6 1)).isSome && s.resOf (eN e 6 1) != some (eN e 7 1) then tbCtrmap
  else if Config.hashFull (others.map s.entry) e then tbHashfull
  else tbOk

/-! ## Commands (R319) -/

/-- The lowest free index. -/
def State.lowestFree (s : State) : Nat :=
  s.tblUsed.foldl (fun n i => if i = n then n + 1 else n) 0

/-- ADD: status, index. `mirror` is the mirror engine's write, which the standby does not refuse (R326, R487). -/
def tblAdd (mirror auto : Bool) (idx : Nat) (e : List Byte) (s : State) : State × Nat × Nat :=
  let i := if auto then s.lowestFree else idx
  if s.standby && !mirror then (s, tbStandby, idx)
  else if 8192 ≤ i then (s, if entryOk e then tbOccupied else tbBadentry, idx)
  else match entryTests true i e s with
    | 0 => (tblPut i e s, tbOk, i)
    | st => (s, st, i)

/-- WRITE. -/
def tblWrite (idx : Nat) (e : List Byte) (s : State) : State × Nat × Nat :=
  if s.standby then (s, tbStandby, idx)
  else match entryTests false idx e s with
    | 0 =>
      let old := s.entry idx
      let same := eN old 0 1 == kPeer && eN e 0 1 == kPeer && eN old 8 8 == eN e 8 8
      let e := if same then ePut e 16 4 (max (eN old 16 4) (eN e 16 4)) else e
      (tblPut idx e s, tbOk, idx)
    | st => (s, st, idx)

/-- An enabled link of a set of MAC registers names the entry. -/
def linkNames (get : Nat → Word) (i : Nat) : Bool :=
  (List.range 64).any (fun n =>
    bitOf (get (Reg.MAC_LINKA_LIVE n)).toNat 31 && (get (Reg.MAC_LINKB_LIVE n)).toNat % 8192 == i)

/-- DELETE of a PEER entry is refused while it is the time parent or a link names it. -/
def State.inUse (s : State) (i : Nat) : Bool :=
  (s.on MAC_PARENT.EN && s.get MAC_PARENT.ENTRY == i) || linkNames s.reg i ||
    (match s.pend .mac with
     | some p => linkNames (fun a => ((p.live.find? (fun e => e.1 == a)).map (·.2)).getD 0) i
     | none => false)

/-- DELETE. -/
def tblDelete (idx : Nat) (s : State) : State × Nat × Nat :=
  if s.standby then (s, tbStandby, idx)
  else if s.eKind idx == kFree then (s, tbEmpty, idx)
  else if s.isPeer idx && s.inUse idx then (s, tbInuse, idx)
  else (tblFree idx s, tbOk, idx)

/-- REFRESH. -/
def tblRefresh (idx : Nat) (s : State) : State × Nat × Nat :=
  if s.standby then (s, tbStandby, idx)
  else if s.eKind idx == kFree then (s, tbEmpty, idx)
  else if s.eKind idx != kRoute then (s, tbBadentry, idx)
  else if !s.time.valid then (s, tbOk, idx)
  else (tblPut idx (ePut (s.entry idx) 28 4 s.ntStamp) s, tbOk, idx)

/-- The entry of a kind with an extended address. -/
def State.findExt (s : State) (k ext : Nat) : Option Nat :=
  (s.tblOf k).find? (fun i => eExtV (s.entry i) && eN (s.entry i) 8 8 == ext)

/-- The entry of a kind with a PAN and a short address. -/
def State.findShort (s : State) (k pan short : Nat) : Option Nat :=
  (s.tblOf k).find? (fun i => eShortV (s.entry i) && eN (s.entry i) 4 2 == pan && eN (s.entry i) 2 2 == short)

/-- LOOKUP: status and index. -/
def tblLookup (short : Bool) (k hi lo : Nat) (s : State) : Nat × Nat :=
  match (if short then s.findShort k (lo / 65536) (lo % 65536) else s.findExt k (2 ^ 32 * hi + lo)) with
  | none => (tbMiss, 0)
  | some i => (if k = kRoute ∧ !(s.isPeer (eN (s.entry i) 6 2)) then tbNextbad else tbOk, i)

/-! ## The command register -/

/-- TBL_DATA as an entry. -/
def State.tblData (s : State) : List Byte := ((List.range 8).map (fun n => leBytes 4 (s.reg (Reg.TBL_DATA n)).toNat)).flatten

/-- An entry copied into TBL_DATA. -/
def tblCopy (i : Nat) (s : State) : State :=
  let e := s.entry i
  (List.range 8).foldl (fun s n => s.setReg (Reg.TBL_DATA n) (BitVec.ofNat 32 (eN e (4 * n) 4))) s

/-- A command ends: TBL_RES and DONE. It ends within the command that starts it, so BUSY reads 0 (log entry 21). -/
def tblEnd (st idx : Nat) (s : State) : State :=
  ((s.setReg Reg.TBL_RES 0).put TBL_RES.STATUS st).put TBL_RES.INDEX idx |>.put TBL_IRQ.DONE 1

/-- A write of TBL_CMD. -/
def tblCmd (d : Word) (s : State) : State :=
  let idx := d.toNat % 8192
  let fin (r : State × Nat × Nat) : State := tblEnd r.2.1 r.2.2 r.1
  match d.toNat / 2 ^ 28 with
  | 1 =>
    let r := tblLookup (d.toNat / 2 ^ 24 % 4 == 1) (if bitOf d.toNat 20 then kRoute else kPeer)
      (s.reg Reg.TBL_KEY_HI).toNat (s.reg Reg.TBL_KEY_LO).toNat s
    if r.1 = tbMiss then tblEnd tbMiss idx s else tblEnd r.1 r.2 (tblCopy r.2 s)
  | 2 => if s.eKind idx = kFree then tblEnd tbEmpty idx s else tblEnd tbOk idx (tblCopy idx s)
  | 3 => fin (tblAdd false (bitOf d.toNat 16) idx s.tblData s)
  | 4 => fin (tblWrite idx s.tblData s)
  | 5 => fin (tblDelete idx s)
  | 6 => fin (tblRefresh idx s)
  | _ => tblEnd tbBadentry idx s

/-- R317: a write of TBL_SPLIT. -/
def tblSplitWrite (d : Word) (s : State) : State :=
  let p := TBL_SPLIT.PQUOTA.of d
  let r := TBL_SPLIT.RQUOTA.of d
  if 4096 < p ∨ 4096 < r ∨ p < (s.tblOf kPeer).length ∨ r < (s.tblOf kRoute).length then s.put TBL_IRQ.BADCFG 1
  else s.plainWrite Reg.TBL_SPLIT d

/-- The age of a stamp in units of 2^−8 s: the signed 32-bit difference (R324). -/
def State.ageOf (s : State) (stamp : Nat) : Int := signedOf 32 (wrapInt 32 ((s.ntStamp : Int) - (stamp : Int)))

/-- R324: the scan visits one entry. -/
def ageEntry (s : State) (i : Nat) : State :=
  let e := s.entry i
  let k := eN e 0 1
  let fl := eN e 1 1
  if bitOf fl 2 then s
  else if k = kPeer then
    let lim := s.get TBL_AGE.PSTALE
    if lim ≠ 0 ∧ ((lim * 256 : Nat) : Int) ≤ s.ageOf (eN e 28 4) ∧ !(bitOf fl 4) then
      (tblPut i (ePut e 1 1 (fl + 16)) s).put TBL_IRQ.STALE 1
    else s
  else if k = kRoute then
    let lim := s.get TBL_AGE.RMAX
    if lim ≠ 0 ∧ ((lim * 256 : Nat) : Int) ≤ s.ageOf (eN e 28 4) then
      ((tblFree i s).put TBL_IRQ.AGED 1).inc TBL_AGECNT.COUNT
    else s
  else s

/-- R324: the ageing scan. -/
def ageScan (s : State) : State := if s.time.valid then s.tblUsed.foldl ageEntry s else s

/-- A TBL_CMD word. -/
def tblWord (op keyt kind auto idx : Nat) : Word :=
  BitVec.ofNat 32 (2 ^ 28 * op + 2 ^ 24 * keyt + 2 ^ 20 * kind + 2 ^ 16 * auto + idx)

/-! ## The rows -/

/-- TBL_LOOKUP: TBL_CMD with OP 1. -/
def execTblLookup (short route : Bool) (s : State) : Out :=
  .next (viaBus Reg.TBL_CMD (tblCmd (tblWord 1 (b2n short) (b2n route) 0 0)) s)
/-- TBL_READ. -/
def execTblRead (idx : BitVec 13) (s : State) : Out := .next (viaBus Reg.TBL_CMD (tblCmd (tblWord 2 0 0 0 idx.toNat)) s)
/-- TBL_ADD. -/
def execTblAdd (auto : Bool) (idx : BitVec 13) (s : State) : Out :=
  .next (viaBus Reg.TBL_CMD (tblCmd (tblWord 3 0 0 (b2n auto) idx.toNat)) s)
/-- TBL_WRITE. -/
def execTblWrite (idx : BitVec 13) (s : State) : Out := .next (viaBus Reg.TBL_CMD (tblCmd (tblWord 4 0 0 0 idx.toNat)) s)
/-- TBL_DELETE. -/
def execTblDelete (idx : BitVec 13) (s : State) : Out := .next (viaBus Reg.TBL_CMD (tblCmd (tblWord 5 0 0 0 idx.toNat)) s)
/-- TBL_REFRESH. -/
def execTblRefresh (idx : BitVec 13) (s : State) : Out := .next (viaBus Reg.TBL_CMD (tblCmd (tblWord 6 0 0 0 idx.toNat)) s)
/-- AGEING_SCAN: once per second while the block is clocked and network time is valid. -/
def execAgeingScan (s : State) : Out := .next (if s.clocked && s.on SYSC_CLKGATE.TBL then ageScan s else s)
/-- TBL_SPLIT_WRITE. -/
def execTblSplitWrite (data : Word) (s : State) : Out := .next (viaBus Reg.TBL_SPLIT (tblSplitWrite data) s)

end Sys2Proof.Machine
end

