-- ==== Sys2Proof/Machine/Blank.lean ====
section
/-! DEFINITION. Machine/Blank.lean: lane blanking (R23, R178, R185, R204): its causes overlap, and a lane sample is
blanked when any cause blanks it. -/
namespace Sys2Proof.Machine

/-- Some cause blanks the lanes at the present count (R185). -/
def State.blanked (s : State) : Bool := s.loom.blankTx || s.loom.blankCal || decide (s.now < s.loom.blankUntil)

/-- A retune's blanking whose time has passed is settled: the mask of the tick stands as far as it reached. -/
def blankSettle (s : State) : State :=
  if s.loom.blankFrom.isSome && !s.blanked then
    { s with loom := { s.loom with blankMask := s.blankNow, blankFrom := none, deadTo := lanePerTick * s.tick.bnd + s.blankTop } }
  else s

/-- A cause begins to blank: packets in progress abort BLANKED, and the lane sample of the tick is noted (R23). -/
def blankBegin (f : LoomSt → LoomSt) (s : State) : State :=
  let s := blankSettle s
  if s.blanked then { s with loom := f s.loom }
  else
    let s := endPackets s.inAir stBlanked s
    { s with loom := f { s.loom with blankFrom := some s.laneSampleNow, unusable := true } }

/-- A cause ends; when no cause is left the mask of the tick is complete so far. -/
def blankEnd (f : LoomSt → LoomSt) (s : State) : State :=
  let s := blankSettle s
  let m := s.blankNow
  let t := { s with loom := f s.loom }
  if t.blanked || s.loom.blankFrom.isNone then t
  else { t with loom := { t.loom with blankMask := m, blankFrom := none, deadTo := lanePerTick * s.tick.bnd + s.blankTop } }

end Sys2Proof.Machine
end

