-- ==== Sys2Proof/Machine/Tx.lean ====
section
/-! DEFINITION. Machine/Tx.lean: the transmit chain (R233 to R257): requests, tests, synthesiser, power, sequence, tuner. -/
namespace Sys2Proof.Machine

/-- The chain changed. -/
def State.modTx (s : State) (f : TxSt → TxSt) : State := { s with tx := f s.tx }

/-- The taken request changed. -/
def State.modJob (s : State) (f : TxJob → TxJob) : State := s.modTx (fun t => { t with job := t.job.map f })

/-! ## Status codes (R257) -/

def txSent : Nat := 0x01
def txLate : Nat := 0x02
def txLockFail : Nat := 0x03
def txMaskfail : Nat := 0x04
def txNoreg : Nat := 0x05
def txChannel : Nat := 0x06
def txDuty : Nat := 0x07
def txLbt : Nat := 0x08
def txDenied : Nat := 0x09
def txAborted : Nat := 0x0A
def txFirbad : Nat := 0x0B

/-! ## Regulatory record (R250) -/

/-- Fields of band `b`. -/
def State.bandLow (s : State) (b : Nat) : Nat := s.rrec (0x0C + 16 * b) 2
def State.bandHigh (s : State) (b : Nat) : Nat := s.rrec (0x0E + 16 * b) 2
def State.bandPmax (s : State) (b : Nat) : Int := signedOf 8 (s.rrec (0x10 + 16 * b) 1)
def State.bandFlag (s : State) (b n : Nat) : Bool := bitOf (s.rrec (0x11 + 16 * b) 1) n
def State.bandDuty (s : State) (b : Nat) : Nat := s.rrec (0x12 + 16 * b) 2
def State.bandLbtThr (s : State) (b : Nat) : Int := signedOf 16 (s.rrec (0x14 + 16 * b) 2)
def State.bandLbtMin (s : State) (b : Nat) : Nat := s.rrec (0x16 + 16 * b) 2

/-- A cell is allowed in MASK. -/
def State.cellAllowed (s : State) (c : Nat) : Bool := decide (c < 2100) && bitOf (s.rrec (0x4C + c / 8) 1) (c % 8)

/-- The part loads the shadow at a reset release (R250). -/
def recordLoad (s : State) : State := s.modTx (fun t => { t with record := s.bytes 0x08803C00 348 })

/-! ## Carrier, cells (R235, R251) -/

/-- Frequencies are counted in 2^−22 Hz; a synthesiser step is 48 MHz / 2^22. -/
def fUnit : Int := 4194304

/-- The carrier less the centre in synthesiser steps (R235), rounded as the example of R257 rounds it (log entry 20). -/
def State.precomp (s : State) (r : TxReq) : Int :=
  if s.on RFTX_CTRL.PRECOMP then roundDiv (1000 * (r.centre : Int) * clampInt (-5000) 5000 r.offset * fUnit) (48000000 * 100000000)
  else 0

/-- The carrier. -/
def carrierOf (centre : Nat) (steps : Int) : Int := 1000 * (centre : Int) * fUnit + 48000000 * steps

/-- Lanes that a mode bonds (R191); OOK takes one. -/
def modeLanes (m : Option (BitVec 4)) : Nat :=
  match m with
  | none => 1
  | some m => match m.toNat with
    | 2 | 3 | 4 => 2
    | 6 => 4
    | 7 => 8
    | _ => 1

/-- The mode passes the shaping FIR (R236, R237). -/
def usesFir (m : Option (BitVec 4)) : Bool :=
  match m with
  | none => false
  | some m => decide (m.toNat < 5) || m.toNat == 8

/-- The taps of the shaping FIR (R237), two to a word. -/
def State.firTaps (s : State) : List Int :=
  (List.range 16).flatMap (fun n => let w := (s.reg (Reg.RFTX_FIR n)).toNat; [signedOf 16 w, signedOf 16 (w / 2 ^ 16)])

/-- R236, R237: sample `m` of a symbol sequence at 8 samples a symbol; outside it nothing is sent. -/
def symSample (syms : List Int) (m : Int) : Int := if m < 0 then 0 else syms.getD (m.toNat / 8) 0

/-- R236: the frequency deviation at sample `m` of a symbol sequence, in 2^−15 of the mode's deviation: through the shaping
FIR for FSK, 4-FSK and Lamyn LR; the rectangular pulse of the equivalent MSK waveform for O-QPSK; none for OOK, which keys
the carrier. -/
def State.txDeviation (s : State) (mode : Option (BitVec 4)) (syms : List Int) (m : Int) : Int :=
  if mode.isNone then 0
  else if usesFir mode then (s.firTaps.zipIdx.map (fun e => e.1 * symSample syms (m - e.2))).sum
  else 32768 * symSample syms m

/-- R236: the carrier of an OOK burst `t` µs after its first chip: chips of 500 µs, on for 1, with ramps of 2 µs; the level in
halves of full, one count a µs of ramp. -/
def ookLevel (chips : List Bool) (t : Nat) : Nat :=
  let on (c : Nat) : Bool := chips.getD c false
  let prev := decide (500 ≤ t) && on (t / 500 - 1)
  if t % 500 < 2 then (if on (t / 500) then (if prev then 2 else t % 500) else (if prev then 2 - t % 500 else 0))
  else if on (t / 500) then 2 else 0

/-- The occupied range of a transmission (R251). -/
def occupied (m : Option (BitVec 4)) (f : Int) : Int × Int :=
  let h : Int := 100000 * modeLanes m * fUnit
  (f - h, f + h)

/-- The first and last cell that a range overlaps, none when it leaves cells 0 to 2,099. -/
def cellRange (r : Int × Int) : Option (Nat × Nat) :=
  let c : Int := 100000 * fUnit
  let lo := (r.1 - 750000000 * fUnit) / c
  let hi := -((-(r.2 - 750000000 * fUnit)) / c) - 1
  if 0 ≤ lo ∧ hi < 2100 then some (lo.toNat, hi.toNat) else none

/-- R251: the band that governs a range: the lowest-numbered one in use that holds every cell of it, all allowed. -/
def State.bandOf (s : State) (r : Int × Int) : Option Nat :=
  match cellRange r with
  | none => none
  | some (lo, hi) =>
    if (List.range (hi + 1 - lo)).all (fun i => s.cellAllowed (lo + i)) then
      (List.range (min 4 (s.rrec 5 1))).find? (fun b => decide (s.bandLow b ≤ lo) && decide (hi ≤ s.bandHigh b))
    else none

/-! ## Timing fields (RFTX_SEQ) -/

/-- RAMPT in µs; 0 and 1 act as 2. -/
def State.rampT (s : State) : Nat := max 2 (s.get RFTX_SEQ.RAMPT)

/-- The TX set-up in µs (R240). -/
def State.txSetup (s : State) : Nat := s.get RFTX_SEQ.TRLEAD + s.get RFTX_SEQ.PALEAD + s.rampT

/-- A number of µs in network-time units of 2^−32 s. -/
def usNt (n : Nat) : Nat := 2 ^ 32 * n / 1000000

/-! ## Tests at the take (R252, R255) -/

/-- R255: the five tests of a request when the chain takes it: a status, or the carrier's steps and the band. -/
def txTests (r : TxReq) (s : State) : Nat ⊕ (Int × Nat) :=
  if !s.recValid then .inl txNoreg
  else if s.on RFTX_STAT.MASKF then .inl txMaskfail
  else if usesFir r.mode && !s.firOk then .inl txFirbad
  else
    let k := s.precomp r
    match s.bandOf (occupied r.mode (carrierOf r.centre k)) with
    | none => .inl txChannel
    | some b =>
      if s.bandFlag b 2 && decide (360000 * s.bandDuty b < s.dutyUsed b + r.airtime + 2 * s.rampT) then .inl txDuty
      else .inr (k, b)

/-! ## Pins (R244, R247) -/

/-- R244, R247: the levels of PA_EN, LNA_EN, TRSW and TUNE0 to TUNE3, and the level PA_RAMP makes for. -/
def txPins (s : State) : State :=
  let pa := (s.tx.job.map (·.phase.paActive)).getD false
  let ext := s.on RFTX_CTRL.EXTEN
  let tune := match s.tx.job with
    | some j => if j.phase.onAir then (match j.entry with
        | some n => s.get (RFTX_TUNE.PINS n)
        | none => 0) else s.get RFTX_CTRL.RXPINS
    | none => s.get RFTX_CTRL.RXPINS
  { s with pins := { s.pins with
      paEn := (ext && pa) != s.on RFTX_SEQ.PAPOL
      lnaEn := !(ext && s.onAir) != s.on RFTX_SEQ.LNAPOL
      trswTx := (ext && s.onAir) != s.on RFTX_SEQ.TRPOL
      tune := BitVec.ofNat 4 tune
      paRamp := if (s.tx.job.map (·.phase == .ramp)).getD false then 300 + 100 * s.get RFTX_CTRL.RAMPV else 0 } }

/-! ## Writes (R246) -/

/-- The coexistence wires (R256). -/
def coexWires (req pri : Bool) (s : State) : State := { s with pins := { s.pins with coexReq := req, coexPri := pri } }

/-- A write to one of these registers applies. With RFTX_COEX.EN = 0 the coexistence wires are low (R256). -/
def txApply (a : Nat) (d : Word) (s : State) : State :=
  let s := s.plainWrite a d
  let s := if s.on RFTX_COEX.EN then s else coexWires false false s
  let s := if Reg.RFTX_FIR 0 ≤ a ∧ a < Reg.RFTX_FIR 16 then s.put RFTX_STAT.MASKF 1 else s
  let s := if a = Reg.RFTX_MISM ∧ !(s.on RFTX_MISM.EN) then s.put RFTX_RL.ACTIVE 0 else s
  let s := if Reg.RFTX_TUNE 0 ≤ a ∧ a < Reg.RFTX_TUNE 8 then
      s.modTx (fun t => { t with search := t.search.filter (fun x => !(x.entry == (a - Reg.RFTX_TUNE 0) / 4)) })
    else s
  txPins s

/-- R246: a write while the chain is busy is held. -/
def txWrite (a : Nat) (d : Word) (s : State) : State :=
  if txHeldReg a && s.txBusy then s.modTx (fun t => { t with held := t.held ++ [(a, d)] }) else txApply a d s

/-- Held writes apply in write order. -/
def txHeldApply (s : State) : State :=
  let h := s.tx.held
  h.foldl (fun s e => txApply e.1 e.2 s) (s.modTx (fun t => { t with held := [] }))

/-! ## The life of a request -/

/-- A request ends: RFTX_STAT.LAST, its counter and interrupt (R240, R255, R256). -/
def txEnded (owner : TxOwner) (st : Nat) (s : State) : State :=
  let s := (s.put RFTX_STAT.LAST st).modTx (fun t => { t with done := t.done ++ [(owner, st)] })
  if st = txLate ∨ st = txLockFail then (s.sat RFTX_CNT0.LOCKERR).put RFTX_IRQ.LOCKERR 1
  else if st = txNoreg ∨ st = txChannel ∨ st = txDuty ∨ st = txLbt then (s.sat RFTX_CNT0.REGREF).put RFTX_IRQ.REGREF 1
  else if st = txDenied ∨ st = txAborted then (s.sat RFTX_CNT1.COEX).put RFTX_IRQ.COEX 1
  else s

/-- Preparation begins when it is due and no calibration stands in its way (R238, R239). -/
def txPrep (s : State) : State :=
  match s.tx.job with
  | some j =>
    if j.phase == .waiting && j.prepDue && s.synthFree then s.modJob (fun j => { j with phase := .preparing })
    else s
  | none => s

/-- The chain takes a request (R255): a failed test ends it, else it prepares when the time has come (R238). -/
def txTake (owner : TxOwner) (r : TxReq) (s : State) : State :=
  match txTests r s with
  | .inl st => txEnded owner st s
  | .inr (k, b) =>
    let s := s.modTx (fun t => { t with job := some { req := r, owner := owner, steps := k, band := b, prepDue := r.start.isNone } })
    let s := if r.start.isNone && s.on RFTX_COEX.EN then coexWires true r.prio s else s
    txPrep s

/-- R233, R239: an idle chain starts a requested calibration (VCO before CHECK, log entry 20), else takes the oldest
request that waits, and the next when that one ends at once. -/
def txNext : Nat → State → State
  | 0, s => s
  | n + 1, s =>
    if s.tx.job.isSome || s.power.radioOffDue then s
    else if s.tx.cal.isNone && s.tx.calReq != 0 then
      if s.tx.calReq.getLsbD 0 then s.modTx (fun t => { t with cal := some false, calReq := t.calReq &&& 2 })
      else s.modTx (fun t => { t with cal := some true, calReq := 0 })
    else match s.tx.queue with
      | [] => s
      | (o, r) :: rest => txNext n (txTake o r (s.modTx (fun t => { t with queue := rest })))

/-- The chain goes on; with a switch-off of RADIO due it takes nothing more (R94, R245). -/
def txKick (s : State) : State := txNext (s.tx.queue.length + 1) s

/-- The MAC hands a request to the chain. -/
def txOffer (owner : TxOwner) (r : TxReq) (s : State) : State :=
  txKick (s.modTx (fun t => { t with queue := t.queue ++ [(owner, r)] }))

/-- The taken request ends without transmitting, or at its last TX sample: wires, held writes, status, next request. -/
def txFinish (st : Nat) (s : State) : State :=
  match s.tx.job with
  | none => s
  | some j =>
    let s := coexWires false false (s.modTx (fun t => { t with job := none }))
    txKick (txPins (txHeldApply (txEnded j.owner st s)))

/-- R240: the synthesiser locks; a preparation that stood behind the first part of an RX calibration has begun by then. -/
def txLocked (s : State) : State :=
  let s := txPrep s
  match s.tx.job with
  | some j =>
    if j.phase == .preparing then
      match j.req.start with
      | some t => if 0 < ntDiff s.nt ((t.toNat + 2 ^ 64 - usNt s.txSetup) % 2 ^ 64) then txFinish txLate s
        else s.modJob (fun j => { j with phase := .locked })
      | none => s.modJob (fun j => { j with phase := .locked })
    else s
  | none => s

/-- R254: the lanes whose 200 kHz overlap a range, none when it leaves the span. -/
def State.lanesOver (s : State) (r : Int × Int) : Option (List Nat) :=
  let lo (n : Nat) : Int := (750000000 + 100000 * (s.get RFRX_SPAN.LIVE : Int) + 100000 * (2 * (n : Int) - 96)) * fUnit
  if lo 0 ≤ r.1 ∧ r.2 ≤ lo 96 then some ((List.range 96).filter (fun n => decide (lo n < r.2) && decide (r.1 < lo (n + 1)))) else none

/-- R254: every unblanked block that covers LBTMIN lies below LBTTHR on a lane. An out-of-band lane reads −32,768 (R202);
blocks that do not cover LBTMIN do not pass (log entry 20). -/
def State.lbtLane (s : State) (need : Nat) (thr : Int) (n : Nat) : Bool :=
  let h := (s.lane n).hist.take need
  !(s.inBand n) || (decide (need ≤ h.length) && h.all (fun v => decide (v < thr)))

/-- R254: the request passes LBT. -/
def State.lbtOk (s : State) (j : TxJob) : Bool :=
  !(s.bandFlag j.band 0) || (s.bandFlag j.band 1 && j.req.ack) ||
    (match s.lanesOver (occupied j.req.mode (carrierOf j.req.centre j.steps)) with
     | none => false
     | some l => l.all (s.lbtLane ((s.bandLbtMin j.band + 24) / 25) (s.bandLbtThr j.band)))

/-- R256: COEX_GNT grants. -/
def State.granted (s : State) : Bool := !(s.on RFTX_COEX.EN) || (s.pins.coexGnt != s.on RFTX_COEX.GNTPOL)

/-- R247: the tuner entry for a carrier. -/
def State.tuneEntry (s : State) (f : Int) : Option Nat :=
  let c := (f - 750000000 * fUnit) / (100000 * fUnit)
  let en := (List.range 8).filter (fun n => s.on (RFTX_TUNE.EN n))
  (en.find? (fun n => decide (c ≤ (s.get (RFTX_TUNE.UPPER n) : Int)))).orElse (fun _ => en.getLast?)

/-- R242: the internal drive within −20 dBm and its upper limit, +14 dBm or, at low VBAT, +10 dBm; in 0.5 dB units. -/
def driveClamp (lowBat : Bool) (d : Int) : Int := clampInt (-40) (if lowBat then 20 else 28) d

/-- Linear interpolation among points `v 0` to `v 7` at 0, `step`, 2 `step` …, multiplied by `step`; outside the span the end
point (R243). -/
def interp (v : Nat → Int) (step : Nat) (x : Int) : Int :=
  if x ≤ 0 then step * v 0
  else
    let i := x.toNat / step
    if 7 ≤ i then step * v 7 else step * v i + (v (i + 1) - v i) * ((x.toNat % step : Nat) : Int)

/-- R243: the PA code of a drive: the power table in force, with TCORR at RFRX_TEMP.TNOW and VCORR at the VBAT measured in mV, in
0.0005 dB. -/
def State.paCode (s : State) (drive : Int) (vbat : Nat) : Nat :=
  let tc := interp (fun n => s.getI (RFTX_TCOMP.TCORR n)) 100 (s.getI RFRX_TEMP.TNOW + 160)
  let vc := interp (fun n => s.getI (RFTX_TCOMP.VCORR n)) 250 ((vbat : Int) - 1800)
  Config.paTable s.tx.table (1000 * drive + 5 * tc + 2 * vc)

/-- R242: P, and the internal drive before its clamp, in 0.5 dB units. -/
def State.txPower (s : State) (j : TxJob) : Int × Int :=
  let cap := min j.req.power (min (s.bandPmax j.band) (s.getI RFTX_PWR.PWRMAX))
  let p := cap - (if s.on RFTX_RL.ACTIVE && s.on RFTX_MISM.EN then (min 40 (s.get RFTX_MISM.BACKOFF) : Nat) else 0 : Nat)
  (p, p - signedOf 8 (s.rrec 7 1))

/-- R234, R490: an active part announces the blanking interval: network times of the first TX sample, which is the sequencer
start, and of 80 µs after the last, the end of TRLAG. -/
def txbFrame (j : TxJob) (s : State) : State :=
  let len := s.txSetup + j.req.airtime + s.rampT + s.get RFTX_SEQ.PALAG + s.get RFTX_SEQ.TRLAG + 80
  if s.mirrors then twUnseq 0x14 (leBytes 8 s.nt ++ leBytes 8 ((s.nt + usNt len) % 2 ^ 64)) s else s

/-- Step 1 of R244: power and codes are fixed, the pins move, blanking begins. The VBAT measured is free on its side of
2.2 V. -/
def txGo (lowBat : Bool) (j : TxJob) (s : State) : State :=
  let e := s.tuneEntry (carrierOf j.req.centre j.steps)
  let regCodes : Nat × Nat := match e with
    | some n => (s.get (RFTX_TUNE.SER n), s.get (RFTX_TUNE.SHU n))
    | none => (16, 16)
  let codes : Nat × Nat := match e.bind (fun n => s.tx.search.find? (fun x => x.entry == n)) with
    | some x => (x.todo.head?).getD regCodes
    | none => regCodes
  let pd := s.txPower j
  let drive := driveClamp lowBat pd.2
  let s := if drive < pd.2 then s.put RFTX_IRQ.CLAMP 1 else s
  let (dn, s) := s.draw
  let code := s.paCode drive (if lowBat then Config.freeNat dn % 2200 else 2200 + Config.freeNat dn % 1401)
  let s := s.putI RFTX_PWR.LASTP pd.1
  let s := (s.put RFTX_RL.SER codes.1).put RFTX_RL.SHU codes.2
  let first := match j.req.start with
    | some t => t.toNat
    | none => (s.nt + usNt s.txSetup) % 2 ^ 64
  let s := s.modJob (fun j => { j with phase := .lead, p := pd.1, drive := drive, code := code, entry := e, ser := codes.1, shu := codes.2, first := first })
  txbFrame j (txPins (blankBegin (fun l => { l with blankTx := true }) s))

/-- R255, R256: sequencer start: lock, LBT, grant. -/
def txStart (lowBat : Bool) (s : State) : State :=
  match s.tx.job with
  | none => s
  | some j =>
    let sched := j.req.start.isSome
    match j.phase with
    | .waiting | .preparing => if sched then txFinish txLate s else s
    | .locked | .grant =>
      if !(s.lbtOk j) then txFinish txLbt s
      else if s.granted then txGo lowBat j s
      else if sched || s.get RFTX_COEX.GNTWAIT == 0 then txFinish txDenied s
      else s.modJob (fun j => { j with phase := .grant })
    | .lead | .paOn | .ramp | .down | .downEnd | .paOff => s

/-- A step of the sequence, from one phase to the next. -/
def txAdvance (a b : TxPhase) (f : TxJob → TxJob) (s : State) : State :=
  match s.tx.job with
  | some j => if j.phase == a then txPins (s.modJob (fun j => { f j with phase := b })) else s
  | none => s

/-- R252: on-air time, rounded up to 1 µs, is charged to the bucket in which it started. -/
def chargeDuty (s : State) : State :=
  match s.tx.job with
  | some j => match j.rampAt with
    | some t =>
      let u := (s.now - t + 249) / 250
      let l := (s.tx.duty[j.band]?).getD []
      let l := l ++ List.replicate (j.age + 1 - l.length) 0
      s.modTx (fun x => { x with duty := x.duty.setIfInBounds j.band ((l.set j.age (l.getD j.age 0 + u)).take 360) })
    | none => s
  | none => s

/-- A transmission is cut off: the on-air time so far of a ramp not yet down is charged (R252). -/
def cutCharge (s : State) : State :=
  match s.tx.job with
  | some j => if j.phase == .ramp || j.phase == .down then chargeDuty s else s
  | none => s

/-- R249: the candidates of a search. -/
def tunerCandidates (ser shu : Nat) : List (Nat × Nat) :=
  let f (a b : Int) : Option (Nat × Nat) :=
    let x := (ser : Int) + a; let y := (shu : Int) + b
    if 0 ≤ x ∧ x ≤ 31 ∧ 0 ≤ y ∧ y ≤ 31 then some (x.toNat, y.toNat) else none
  [f 1 0, f (-1) 0, f 0 1, f 0 (-1), f 1 1, f 1 (-1), f (-1) 1, f (-1) (-1)].filterMap id

/-- R249: the codes a finished search adopts: the highest return loss, the original first, then the earlier candidate. -/
def tunerBest (x : TunerSearch) : Nat × Nat :=
  (x.tried.foldl (fun (b : (Nat × Nat) × Nat) c => if b.2 < c.2 then c else b) (x.orig, x.origRl)).1

/-- R249: a valid measurement of a candidate. -/
def tunerMeasured (n rl : Nat) (s : State) : State :=
  match s.tx.search.find? (fun x => x.entry == n) with
  | none => s
  | some x =>
    let x := { x with todo := x.todo.drop 1, tried := x.tried ++ (x.todo.take 1).map (fun c => (c, rl)) }
    let rest := s.tx.search.filter (fun y => !(y.entry == n))
    if x.todo.isEmpty then
      let b := tunerBest x
      (((s.modTx (fun t => { t with search := rest })).put (RFTX_TUNE.SER n) b.1).put (RFTX_TUNE.SHU n) b.2).put RFTX_IRQ.TUNED 1
    else s.modTx (fun t => { t with search := x :: rest })

/-- R248, R249: the return loss of the transmission is evaluated. -/
def txMeasure (j : TxJob) (rl : Nat) (s : State) : State :=
  let valid := decide (0 ≤ j.p) && j.rampAt.isSome
  let s := (s.putB RFTX_RL.VALID valid).put RFTX_RL.RL (min 60 rl)
  if !valid then s
  else
    let min' := max 2 (min 40 (s.get RFTX_MISM.RLMIN))
    let searching := match j.entry with
      | some n => s.tx.search.any (fun x => x.entry == n)
      | none => false
    let s := match j.entry with
      | some n => tunerMeasured n (min 60 rl) s
      | none => s
    if !(s.on RFTX_MISM.EN) then s
    else if rl < min' then
      let s := ((s.sat RFTX_CNT1.MISM).put RFTX_IRQ.MISMATCH 1).put RFTX_RL.ACTIVE 1
      match j.entry with
      | some n =>
        if s.on RFTX_CTRL.AUTOTUNE && !searching then
          s.modTx (fun t => { t with search :=
            { entry := n, orig := (j.ser, j.shu), origRl := min 60 rl, todo := tunerCandidates j.ser j.shu } :: t.search })
        else s
      | none => s
    else if min' + 4 ≤ rl then s.put RFTX_RL.ACTIVE 0
    else s

/-- R244 step 8: the last TX sample. -/
def txLastSample (rl : Nat) (s : State) : State :=
  match s.tx.job with
  | some j => if j.phase == .paOff then txFinish (if j.aborted then txAborted else txSent) (txMeasure j rl s) else s
  | none => s

/-- R256: the grant is withdrawn: the chain ramps down at once and runs steps 6 to 8, or what of them is left; before step 2 the
PA stays inactive to step 8. -/
def grantGone (s : State) : State :=
  let s := { s with pins := { s.pins with coexGnt := s.on RFTX_COEX.GNTPOL } }
  if !(s.on RFTX_COEX.EN) || !(s.on RFTX_COEX.ABORT) then s
  else match s.tx.job with
    | some j => match j.phase with
      | .lead => txPins (s.modJob (fun j => { j with phase := .paOff, aborted := true }))
      | .paOn | .ramp => txPins (s.modJob (fun j => { j with phase := .down, aborted := true }))
      | .down | .downEnd | .paOff => s.modJob (fun j => { j with aborted := true })
      | .waiting | .preparing | .locked | .grant => s
    | none => s

/-- RFTX_CALREQ (R239). -/
def txCalRequest (bits : BitVec 2) (s : State) : State := txKick (s.modTx (fun t => { t with calReq := t.calReq ||| bits }))

/-- R241: a TX check refreshes the power table. -/
def tableRefresh (s : State) : State :=
  let (d, s) := s.draw
  s.modTx (fun t => { t with table := d + 1 })

/-- R239, R241: a TX calibration ends; `acp` is the worst adjacent-channel power the check measured, in dB below the carrier. -/
def txCalDone (acp : Nat) (s : State) : State :=
  match s.tx.cal with
  | none => s
  | some check =>
    let s := (s.modTx (fun t => { t with cal := none })).put RFTX_IRQ.CALEND 1
    let s := if check then tableRefresh s else s
    let s := if !check then s
      else if acp < s.rrec 8 1 then (s.put RFTX_STAT.MASKF 1).put RFRX_CALSTAT.TXCHKF 1
      else s.put RFTX_STAT.MASKF 0
    txKick (txPrep s)

/-- R252: a bucket boundary. -/
def dutyAdvance (s : State) : State :=
  (s.modTx (fun t => { t with duty := t.duty.map (fun l => (0 :: l).take 360) })).modJob (fun j => { j with age := j.age + 1 })

/-- R253: every bucket preset to DUTY × 1,000 µs after off. -/
def dutyPreset (s : State) : State :=
  s.modTx (fun t => { t with duty := Vector.ofFn (fun b : Fin 4 => List.replicate 360 (1000 * s.bandDuty b)) })

end Sys2Proof.Machine
end

