-- ==== Sys2Proof/Machine/MacFrame.lean ====
section
/-! DEFINITION. Machine/MacFrame.lean: IEEE 802.15.4-2020 frames as the MAC reads and builds them (R4, R277, R299): the MHR,
CCM* security, durations. The formats are the standard's, which the spec names and does not repeat (log entry 23). -/
namespace Sys2Proof.Machine

/-! ## The MHR -/

/-- An address field: its mode (0 none, 2 short, 3 extended), PAN and address. -/
structure MacAddr where
  mode : Nat := 0
  pan : Option Nat := none
  addr : Nat := 0
  deriving DecidableEq, Repr

/-- What the MAC reads of an MHR. -/
structure Mhr where
  typ : Nat
  ver : Nat
  sec : Bool
  ar : Bool
  seq : Option Nat
  dst : MacAddr
  src : MacAddr
  level : Nat := 0
  keyMode : Nat := 0
  /-- Key source and index octets of the key identifier field. -/
  keySrc : List Byte := []
  keyIdx : Nat := 0
  counter : Nat := 0
  /-- Offset of the frame counter, when the header carries one. -/
  ctrAt : Option Nat := none
  /-- Header IEs: element ID and content. -/
  ies : List (Nat × List Byte) := []
  /-- Octets of the MHR. -/
  len : Nat
  deriving DecidableEq, Repr

/-- A number at an offset of a frame. -/
def fN (b : List Byte) (o n : Nat) : Nat := leNat ((b.drop o).take n)

/-- The octets of an address mode. -/
def addrLen (m : Nat) : Nat := if m = 2 then 2 else if m = 3 then 8 else 0

/-- Which PAN identifiers are present (802.15.4-2020): destination, source. -/
def panPresent (ver d s : Nat) (comp : Bool) : Bool × Bool :=
  if ver < 2 then (d != 0, s != 0 && !(comp && d != 0))
  else if d = 0 ∧ s = 0 then (comp, false)
  else if s = 0 then (!comp, false)
  else if d = 0 then (false, !comp)
  else if d = 3 ∧ s = 3 then (!comp, false)
  else (true, !comp)

/-- Header IEs from an offset: a descriptor of length, element ID and type 0; 0x7E and 0x7F end the list. -/
def headerIes (b : List Byte) : Nat → Nat → Option (List (Nat × List Byte) × Nat)
  | 0, _ => none
  | fuel + 1, o =>
    if b.length = o then some ([], o)
    else if b.length < o + 2 then none
    else
      let d := fN b o 2
      let len := d % 128
      let id := d / 128 % 256
      if d / 32768 = 1 then none
      else if id = 0x7E ∨ id = 0x7F then (if len = 0 then some ([], o + 2) else none)
      else if b.length < o + 2 + len then none
      else (headerIes b fuel (o + 2 + len)).map (fun r => ((id, (b.drop (o + 2)).take len) :: r.1, r.2))

/-- The MIC octets of a security level. -/
def micOctets (level : Nat) : Nat := match level % 4 with
  | 1 => 4
  | 2 => 8
  | 3 => 16
  | _ => 0

/-- R277 step 1: the MHR of a frame without its FCS, `trail` octets of MIC at its end belonging to no IE. -/
def parseMhr (b : List Byte) : Option Mhr :=
  if b.length < 2 then none
  else
    let f := fN b 0 2
    let typ := f % 8
    let ver := f / 4096 % 4
    let dm := f / 1024 % 4
    let sm := f / 16384
    let comp := bitOf f 6
    let sec := bitOf f 3
    let noSeq := bitOf f 8 && ver == 2
    if 3 < typ ∨ 2 < ver ∨ dm = 1 ∨ sm = 1 then none
    else
      let o := 2
      let seq := if noSeq then none else some (fN b o 1)
      let o := if noSeq then o else o + 1
      let p := panPresent ver dm sm comp
      let dpan := if p.1 then some (fN b o 2) else none
      let o := if p.1 then o + 2 else o
      let daddr := fN b o (addrLen dm)
      let o := o + addrLen dm
      let span := if p.2 then some (fN b o 2) else none
      let o := if p.2 then o + 2 else o
      let saddr := fN b o (addrLen sm)
      let o := o + addrLen sm
      let sc := fN b o 1
      let level := if sec then sc % 8 else 0
      let km := if sec then sc / 8 % 4 else 0
      let noCtr := bitOf sc 5
      let oc := o + 1
      let ok := if noCtr then oc else oc + 4
      let ks := if km = 2 then 4 else if km = 3 then 8 else 0
      let ki := if km = 0 then 0 else 1
      let oe := if sec then ok + ks + ki else o
      if b.length < oe then none
      else
        let body := b.take (b.length - micOctets level)
        let r := if bitOf f 9 && ver == 2 then headerIes body (b.length + 1) oe else some ([], oe)
        match r with
        | none => none
        | some (ies, len) =>
          if body.length < len then none
          else some
            { typ := typ, ver := ver, sec := sec, ar := bitOf f 5, seq := seq
              dst := ⟨dm, dpan, daddr⟩, src := ⟨sm, if sm ≠ 0 ∧ span.isNone then dpan else span, saddr⟩
              level := level, keyMode := km, keySrc := (b.drop ok).take ks, keyIdx := if km = 0 then 0 else fN b (ok + ks) 1
              counter := if sec ∧ !noCtr then fN b oc 4 else 0, ctrAt := if sec ∧ !noCtr then some oc else none
              ies := ies, len := len }

/-- Octets after the MHR that stay open under encryption: those of a beacon of version 0 or 1 before its payload, and the
command identifier of a command of version 0 or 1. -/
def openOctets (m : Mhr) (b : List Byte) : Nat :=
  if 2 ≤ m.ver then 0
  else if m.typ = 3 then 1
  else if m.typ = 0 then
    let g := fN b (m.len + 2) 1 % 8
    let gl := if g = 0 then 1 else 2 + 3 * g
    let p := fN b (m.len + 2 + gl) 1
    2 + gl + 1 + 2 * (p % 8) + 8 * (p / 16 % 8)
  else 0

/-! ## Own identity (R481) -/

/-- The extended address by which the part names itself: the pair address in pair mode, else the factory's. -/
def State.ownExt (s : State) : Nat :=
  let p := 2 ^ 32 * ((s.reg Reg.TWIL_PAIRADDR_HI).toNat) + (s.reg Reg.TWIL_PAIRADDR_LO).toNat
  if s.pairState != pairOff && p != 0 then p
  else 2 ^ 32 * ((s.reg Reg.ID_EXTADDR_HI).toNat) + (s.reg Reg.ID_EXTADDR_LO).toNat

/-! ## CCM* (R299) -/

/-- The nonce: the source's extended address, the frame counter, the security level. -/
def macNonce (ext ctr level : Nat) : List Byte :=
  (leBytes 8 ext).reverse ++ (leBytes 4 ctr).reverse ++ [BitVec.ofNat 8 level]

/-- Is the payload encrypted at this level? -/
def encrypts (level : Nat) : Bool := decide (4 < level)

/-- R299: the levels and key of a frame that the engine accepts: a valid slot with FRAME whose KEYID matches the header's. -/
def State.frameKey (s : State) (m : Mhr) (slot : Nat) : Option (List Byte) :=
  let k := s.slot slot
  if s.secClocked && decide (slot < 32) && k.valid && k.use.getLsbD 0 && m.level != 0 && m.level != 4
      && (m.keyMode == 0 || m.keyIdx == k.keyId) then some k.key
  else none

/-- The MIC over a frame without MIC, with its payload in clear. -/
def frameMic (m : Mhr) (key nonce body : List Byte) : List Byte :=
  let h := m.len + openOctets m body
  if encrypts m.level then ccmMic key nonce (body.take h) (body.drop h) (micOctets m.level)
  else ccmMic key nonce body [] (micOctets m.level)

/-- A secured frame without FCS becomes its clear MHR and payload, if its MIC passes. -/
def frameOpen (m : Mhr) (key nonce b : List Byte) : Option (List Byte) :=
  let n := b.length - micOctets m.level
  let body := b.take n
  let h := m.len + openOctets m body
  let plain := if encrypts m.level then body.take h ++ ccmCrypt key nonce (body.drop h) else body
  if frameMic m key nonce plain = b.drop n then some plain else none

/-- A clear frame without MIC becomes the secured frame without FCS. -/
def frameSeal (m : Mhr) (key nonce body : List Byte) : List Byte :=
  let h := m.len + openOctets m body
  let mic := frameMic m key nonce body
  (if encrypts m.level then body.take h ++ ccmCrypt key nonce (body.drop h) else body) ++ mic

/-- The MHR of an outgoing frame, which carries no MIC yet: the level in its header says how many octets will follow. -/
def parseOut (body : List Byte) : Option Mhr :=
  [0, 4, 8, 16].findSome? (fun n => match parseMhr (body ++ List.replicate n 0) with
    | some m => if micOctets m.level = n then some m else none
    | none => none)

/-- Own frames end with a 2-octet FCS (log entry 23). -/
def withFcs (b : List Byte) : List Byte := b ++ leBytes 2 (crc16Fcs b)

/-! ## Durations in counts (R211, R260) -/

/-- Symbol rate of an FSK mode or Lamyn LR, and bits a symbol. -/
def fskRate (mode : Nat) : Option (Nat × Nat) :=
  match mode with
  | 0 => some (50000, 1)
  | 1 => some (100000, 1)
  | 2 => some (150000, 1)
  | 3 => some (100000, 2)
  | 4 => some (150000, 2)
  | 8 => some (25000, 1)
  | _ => none

/-- Counts of a number of symbols. -/
def symCounts (n baud : Nat) : Nat := 250000000 * n / baud

/-- The SHR of a mode: PRELEN octets of preamble and a 2-octet SFD, or the standard's for O-QPSK (R260). -/
def State.shrCounts (s : State) (mode : Nat) : Nat :=
  match fskRate mode with
  | some (b, _) => symCounts (8 * (s.get MAC_RADIO.PRELEN + 2)) b
  | none => Config.oqpskShr mode

/-- From the SFD end to the end of the last symbol of a frame of `n` PSDU octets: uncoded FSK, or Lamyn LR's block at rate
1/2 with its 6 tail bits (R213, R229). -/
def frameCounts (mode n : Nat) : Nat :=
  match fskRate mode with
  | some (b, bps) => if mode = 8 then symCounts (2 * (24 + 8 * n + 6)) b else symCounts ((16 + 8 * n + bps - 1) / bps) b
  | none => Config.oqpskFrame mode (Config.oqpskTxRate mode) n

/-- R229: the bits of a coded SUN FSK frame before the rate 1/2 code: PHR, PSDU and 3 tail bits, filled up with pad bits to
whole interleaver blocks of 16 (those of the standard) when the frame is interleaved. -/
def codedBits (n : Nat) (interleaved : Bool) : Nat :=
  if interleaved then (16 + 8 * n + 3 + 15) / 16 * 16 else 16 + 8 * n + 3

/-- The same for a received frame, coded or not, of `n` PSDU octets at a rate mode (R211, R229). -/
def rxFrameCounts (mode rate n : Nat) (coded interleaved : Bool) : Nat :=
  match fskRate mode with
  | some (b, bps) =>
    if mode = 8 then symCounts (2 * (24 + 8 * n + 6)) b
    else if coded then symCounts ((2 * codedBits n interleaved + bps - 1) / bps) b
    else symCounts ((16 + 8 * n + bps - 1) / bps) b
  | none => Config.oqpskFrame mode rate n

end Sys2Proof.Machine
end

