-- ==== Sys2Proof/Machine/Rtc.lean ====
section
/-! DEFINITION. Machine/Rtc.lean: the real-time clock and its rows (chapter 16). -/
namespace Sys2Proof.Machine

/-- R354: a read in LEGACY mode starts a freeze; the read of RTC_CALD ends it after it has returned. -/
def legacyRead (a : Nat) (s : State) : State :=
  if s.on RTC_CFG.LEGACY && (a == Reg.RTC_SEC || a == Reg.RTC_FRAC || a == Reg.RTC_CALT || a == Reg.RTC_CALD) then
    let s := if s.rtc.freeze.isSome then s
      else s.modRtc (fun r => { r with freeze := some ⟨BitVec.ofNat 32 s.rtcSec, BitVec.ofNat 32 s.rtcFrac, s.calt, s.cald, s.now⟩ })
    if a = Reg.RTC_CALD then s.modRtc (fun r => { r with freeze := none }) else s
  else s

/-! ## The alarm (R359, R360) -/

/-- The target, in 2^−15 s. -/
def State.rtcTarget (s : State) : Nat := 2 ^ 15 * ((s.reg Reg.RTC_ALMSEC).toNat) + s.get RTC_ALMCTL.FRAC

/-- The alarm fires. -/
def rtcFire (late : Bool) (s : State) : State :=
  wake .rtcAlm (((s.put RTC_ALMCTL.EN 0).putB RTC_ALMCTL.LATE late).put RTC_IRQ.ALM 1)

/-- Arming: LATE clears; a count at or past the target fires at the next edge, late. -/
def rtcArm (s : State) : State :=
  (s.put RTC_ALMCTL.LATE 0).modRtc (fun r => { r with armedLate := decide (s.rtcTarget ≤ s.rtcFracs) })

/-! ## Loads (R355, R358) -/

/-- A write of the count is requested. -/
def rtcRequest (v : Word) (s : State) : State := s.modRtc (fun r => { r with load := some v, freeze := none })

/-- The count is loaded: SEC takes `v`, FRAC and the extension clear; the alarm is tested (R360), open trim windows are
spoilt (R362). -/
def rtcLoad (v : Word) (s : State) : State :=
  let before := s.rtcFracs
  let s := rtcRebase s
  let s := s.modRtc (fun r => { r with base := 2 ^ 39 * v.toNat, load := none, held := none, freeze := none
                                       winBad := true, mainsStart := none })
  let s := s.put RTC_STAT.PWRLOST 0
  if s.on RTC_ALMCTL.EN then
    if s.rtcTarget ≤ before then s.modRtc (fun r => { r with armedLate := r.armedLate && decide (s.rtcTarget ≤ s.rtcFracs) })
    else if s.rtcTarget ≤ s.rtcFracs then (rtcFire true s).put RTC_IRQ.ALMLATE 1
    else s
  else s

/-! ## Trim (R362, R363) -/

/-- TRIM takes a value, saturated; true when it was. -/
def setTrim (t : Int) (s : State) : State × Bool :=
  let c := clampInt (-4295) 4295 t
  ((rtcRebase s).putI RTC_TRIM.TRIM c, c != t)

/-- R363: one window is used: R and L in the same unit. -/
def trimWindow (r l : Nat) (s : State) : State :=
  let e := roundDiv (2 ^ 24 * ((r : Int) - l)) l
  let step : Int := max 1 (s.get RTC_TRIMCFG.MAXSTEP)
  let d := clampInt (-step) step (e.fdiv (2 ^ (min 7 (s.get RTC_TRIMCFG.GAINSH))))
  let s := (s.putI RTC_TRIMSTAT.E (clampInt (-32767) 32767 e)).sat RTC_TRIMSTAT.WIN
  let (s, sat) := setTrim (s.getI RTC_TRIM.TRIM - d) s
  if sat then s.put RTC_IRQ.TRIMSAT 1 else s

/-- The network window's exponent (R362). -/
def State.netPer (s : State) : Nat := max 4 (min 12 (s.get RTC_TRIMCFG.NETPER))

/-- A change of the clock's source or of network time that a window may not contain (R362). -/
def trimSpoil (s : State) : State := s.modRtc (fun r => { r with winBad := true })

/-- R362: the mains trim window that is open is discarded. -/
def mainsSpoil (s : State) : State := s.modRtc (fun r => { r with mainsStart := none })

/-! ## Rows -/

/-- RTC_SEC_WRITE (R355). -/
def execRtcSecWrite (v : Word) (s : State) : Out := .next (viaBus Reg.RTC_SEC (rtcRequest v) s)

/-- RTC_COUNT_LOAD: the edge after a write of the count. -/
def execRtcCountLoad (s : State) : Out :=
  .next (match s.rtc.load with
    | some v => rtcLoad v s
    | none => s)

/-- RTC_CALD_WRITE: the date is held (R357). -/
def execRtcCaldWrite (d : Word) (s : State) : Out :=
  .next (viaBus Reg.RTC_CALD (fun s => s.modRtc (fun r => { r with held := some d })) s)

/-- A write of RTC_CALT (R357). -/
def caltWrite (t : Word) (s : State) : State :=
  let bad := (s.put RTC_STAT.BADDATE 1).put RTC_IRQ.BADDATE 1
  match calValue (s.rtc.held.getD s.cald) t with
  | none => bad
  | some v =>
    let sec : Int := (v : Int) + s.getI RTC_CALOFS.OFS
    if 0 ≤ sec ∧ sec < 2 ^ 32 then rtcRequest (BitVec.ofInt 32 sec) s else bad

/-- RTC_CALT_WRITE. -/
def execRtcCaltWrite (t : Word) (s : State) : Out := .next (viaBus Reg.RTC_CALT (caltWrite t) s)

/-- A write of RTC_CMD (R358). -/
def rtcSyncnt (s : State) : State :=
  if s.time.valid then s.modRtc (fun r => { r with sync := true }) else s.put RTC_STAT.NOSYNC 1

/-- SYNCNT. -/
def execSyncnt (s : State) : Out := .next (viaBus Reg.RTC_CMD rtcSyncnt s)

/-- RTC_SYNC_LOAD: the edge after an integer second of network time, while a synchronisation is armed. -/
def execRtcSyncLoad (s : State) : Out :=
  .next (if s.rtc.sync && s.time.valid then
    ((rtcLoad (BitVec.ofNat 32 (s.nt / 2 ^ 32)) s).modRtc (fun r => { r with sync := false })).put RTC_IRQ.SYNC 1
  else s)

/-- LEGACY_FREEZE_READ: a read of one of the four views by the control core. -/
def execLegacyFreezeRead (addr : Word) (s : State) : Out :=
  .next (viaRead addr.toNat (legacyRead addr.toNat) s)

/-- FREEZE_TIMEOUT: 2 ms after the freeze began it ends (R354). -/
def execFreezeTimeout (s : State) : Out :=
  .next (match s.rtc.freeze with
    | some f => if f.since + us 2000 ≤ s.now then
        ((s.modRtc (fun r => { r with freeze := none })).put RTC_STAT.FRZTO 1).put RTC_IRQ.FRZTO 1 else s
    | none => s)

/-- A write of RTC_ALMSEC (`ctl` false) or of RTC_ALMCTL (R359). -/
def alarmWrite (ctl : Bool) (d : Word) (s : State) : State :=
  let s := s.plainWrite (if ctl then Reg.RTC_ALMCTL else Reg.RTC_ALMSEC) d
  if s.on RTC_ALMCTL.EN then rtcArm s else s

/-- ALARM_ARM. -/
def execAlarmArm (ctl : Bool) (data : Word) (s : State) : Out :=
  .next (viaBus (if ctl then Reg.RTC_ALMCTL else Reg.RTC_ALMSEC) (alarmWrite ctl data) s)

/-- RTC_ALARM: an edge at which the armed count is at its target or past it (R359). -/
def execRtcAlarm (s : State) : Out :=
  .next (if s.on RTC_ALMCTL.EN && decide (s.rtcTarget ≤ s.rtcFracs) then
    let late := s.rtc.armedLate
    let s := if late then (rtcFire true s).put RTC_IRQ.ALMLATE 1 else rtcFire false s
    s.modRtc (fun r => { r with armedLate := false })
  else s)

/-- A write of RTC_PER (R361). -/
def perWrite (d : Word) (s : State) : State :=
  let s := s.plainWrite Reg.RTC_PER d
  if s.on RTC_PER.EN then s.modRtc (fun r => { r with perBase := 0, perEdge := s.lpEdge }) else s

/-- PERIODIC_RESTART. -/
def execPeriodicRestart (data : Word) (s : State) : Out := .next (viaBus Reg.RTC_PER (perWrite data) s)

/-- PERIODIC_WAKE: N ticks of 2^−8 s have passed (R361). -/
def execPeriodicWake (s : State) : Out :=
  let n := 2 ^ 31 * (s.get RTC_PER.NM1 + 1)
  .next (if s.on RTC_PER.EN && decide (n ≤ s.perRaw) then
    let s := s.modRtc (fun r => { r with perBase := s.perRaw - n, perEdge := s.lpEdge })
    wake .rtcPer (evmPulse 0x39 (s.put RTC_IRQ.PER 1))
  else s)

/-- TRIM_WINDOW: a mains window that the mains sense unit has reported, or an integer second of network time that is a
multiple of 2^NETPER s, is taken as the source selects; a network window is one of 2^NETPER s by its two captures (R362). -/
def execTrimWindow (s : State) : Out :=
  let rc := s.on SYSC_CLKSTAT.LPRC
  .next (if s.get RTC_TRIMCFG.SRC = 1 then
    match s.rtc.mainsWin with
    | some (r, c, fn, ok) =>
      let s := s.modRtc (fun x => { x with mainsWin := none })
      if ok && !rc && decide (0 < c) then trimWindow (r * fn) (2 ^ 15 * c) s else s
    | none => s
  else if s.get RTC_TRIMCFG.SRC = 2 ∧ s.time.valid ∧ s.nt / 2 ^ 32 % 2 ^ s.netPer = 0 then
    let c := s.rtcFracs
    let now := s.nt / 2 ^ 32
    let s1 := match s.rtc.winStart with
      | some (b, t) =>
        if !s.rtc.winBad && !rc && now == t + 2 ^ s.netPer then trimWindow ((c + 2 ^ 47 - b) % 2 ^ 47) (2 ^ s.netPer * 2 ^ 15) s else s
      | none => s
    s1.modRtc (fun x => { x with winStart := some (c, now), winBad := rc })
  else s)

/-- BACKUP_CHECK: VBACKUP is compared with 1.6 V while VBAT feeds the section (R364). -/
def execBackupCheck (low : Bool) (s : State) : Out :=
  .next (if s.on SYSC_SUPSTAT.ONBACKUP then s else s.putB RTC_STAT.BKLOW low)

/-- A write of RTC_CHG (R365). -/
def chargerWrite (d : Word) (s : State) : State := if d.toNat / 2 ^ 24 = 0xA5 then s.plainWrite Reg.RTC_CHG d else s

/-- CHARGER_WRITE. -/
def execChargerWrite (data : Word) (s : State) : Out := .next (viaBus Reg.RTC_CHG (chargerWrite data) s)

/-- RTC_COUNT_WRAP: the count has passed 0xFFFF_FFFF.7FFF (R351). -/
def execRtcCountWrap (s : State) : Out :=
  .next (if 2 ^ 71 ≤ s.rtcRaw then
    let s := rtcRebase s
    (s.modRtc (fun r => { r with base := r.base % 2 ^ 71 })).put RTC_STAT.WRAP 1
  else s)

/-- A write of RTC_TRIM: saturated, which TRIMSAT tells (R362). -/
def trimWrite (d : Word) (s : State) : State :=
  let (s, sat) := setTrim (signedOf 14 d.toNat) s
  if sat then s.put RTC_IRQ.TRIMSAT 1 else s

end Sys2Proof.Machine
end

