-- ==== Sys2Proof/Machine/Mains.lean ====
section
/-! DEFINITION. Machine/Mains.lean: the mains sense unit and its rows (chapter 18). -/
namespace Sys2Proof.Machine

/-- Change of the unit's state. -/
def State.modMsu (s : State) (f : MsuSt → MsuSt) : State := { s with msu := f s.msu }

/-- The unit runs: EN, its domain on, clocks running. -/
def State.msuRuns (s : State) : Bool := s.on MSU_CFG.EN && s.msuOn && s.clocked

/-- A nominal half cycle in counts: 10 ms, or 8.333 ms at 60 Hz. -/
def State.halfNominal (s : State) : Nat := if s.on MSU_CFG.FNOM then 2083333 else 2500000

/-- R381: 1.5 nominal half cycles: 15 ms, or 12.5 ms at 60 Hz. -/
def State.halfTimeout (s : State) : Nat := if s.on MSU_CFG.FNOM then 3125000 else 3750000

/-- The square root of a number below 4^n, rounded down. -/
def isqrt : Nat → Nat → Nat → Nat
  | 0, r, _ => r
  | n + 1, r, v => let t := r + 2 ^ n; if t * t ≤ v then isqrt n t v else isqrt n r v

/-- R382: round(16 · sqrt(sum / n)). -/
def rms16 (sum n : Nat) : Nat := (isqrt 20 0 (1024 * sum / n) + 1) / 2

/-! ## Scans (R379, R380) -/

/-- R379: a scan starts; while one is busy the start is dropped and counted, and the half cycle is flagged TJUMP. A late
compare match flags it too. -/
def scanStart (late : Bool) (s : State) : State :=
  if !s.msuRuns then s
  else
    let s := if late then s.modMsu (fun m => { m with half := { m.half with tjump := true } }) else s
    if (s.msu.scanAt.map (fun t => decide (s.now < t + us 60))).getD false then
      ((s.sat MSU_CNT.SCANOVR).put MSU_IRQ.SCANOVR 1).modMsu (fun m => { m with half := { m.half with tjump := true } })
    else
      let h := s.msu.half
      let h := if h.n = 0 then { h with firstScan := s.msu.nextScan, nt0 := s.ntRead } else h
      (s.modMsu (fun m => { m with scanAt := some s.now, half := { h with n := h.n + 1 } })).put MSU_STAT.RUN 1

/-! ## Detectors (R385) -/

/-- The phase states of MSU_STAT.PHST. -/
def phNormal : Nat := 0
def phSag : Nat := 1
def phSwell : Nat := 2
def phIntr : Nat := 3

/-- R385: the class of an RMS value against the previous state. -/
def classify (s : State) (r old : Nat) : Nat :=
  let nom := s.get MSU_NOM.NOM
  let hy := s.get MSU_THR.HYST
  let intr := s.get MSU_THR.INTR + if old = phIntr then hy else 0
  let sag := s.get MSU_THR.SAG + if old = phSag ∨ old = phIntr then hy else 0
  let swell := s.get MSU_THR.SWELL - if old = phSwell then hy else 0
  if 100 * r < intr * nom then phIntr
  else if 100 * r < sag * nom then phSag
  else if swell * nom < 100 * r then phSwell
  else phNormal

/-- The MAINS report of an end or a start (R385, R504). -/
def mainsReport (ph old new dur ext nt0 : Nat) (s : State) : State :=
  hwReport 0x05 4 [ph + 2 ^ 4 * old + 2 ^ 6 * new + 2 ^ 16 * min 65535 dur, ext, nt0 % 2 ^ 32, nt0 / 2 ^ 32] s

/-- R385: the detector of a phase at a closed half cycle. -/
def detect (ph : Fin 3) (r nt0 : Nat) (s : State) : State :=
  let f : Field := ⟨Reg.MSU_STAT, 2 * ph.val, 2⟩
  let old := s.get f
  let new := classify s r old
  let ev := s.msu.events[ph]
  if new = old then
    let ev' : PhaseEvent := ⟨ev.halves + 1, if old = phSwell then max ev.extreme r else min ev.extreme r⟩
    s.modMsu (fun m => { m with events := m.events.set ph ev' })
  else
    let s := (s.put f new).put MSU_IRQ.DIST 1
    let s := if old = phNormal then s else mainsReport ph old new ev.halves ev.extreme nt0 s
    let s := if new = phNormal then s else mainsReport ph old new 0 0 nt0 s
    s.modMsu (fun m => { m with
      events := m.events.set ph ⟨1, r⟩
      sags := m.sags + b2n (decide (new = phSag)), swells := m.swells + b2n (decide (new = phSwell))
      intrs := m.intrs + b2n (decide (new = phIntr)) })

/-! ## Averages (R384) -/

/-- A rising crossing at a window: the window goes on with one cycle more, or ends after `len` counts and a new one starts.
The ended window is answered. -/
def avgStep (w : Option AvgWin) (at_ len : Nat) (good : Bool) : AvgWin × Option (AvgWin × Nat) :=
  match w with
  | none => ({ startAt := at_ }, none)
  | some w =>
    let w := { w with cycles := w.cycles + 1, good := w.good && good }
    if w.startAt + len ≤ at_ then ({ startAt := at_ }, some (w, at_ - w.startAt)) else (w, none)

/-- The average frequency in µHz, to the nearest. -/
def avgUhz (c d : Nat) : Nat := (roundDiv (250000000000000 * (c : Int)) d).toNat

/-- R384: the averaging windows at a rising crossing that ends a cycle, valid or not. -/
def averages (at_ : Nat) (good : Bool) (s : State) : State :=
  let (w10, e10) := avgStep s.msu.win10 at_ 2500000000 good
  let (w600, e600) := avgStep s.msu.win600 at_ 150000000000 good
  let starts600 := s.msu.win600.isNone || e600.isSome
  let s := match e10 with
    | some (w, d) =>
      let s := (s.put MSU_FCNT.C10 w.cycles).put MSU_IRQ.FAVG 1
      if w.good then (s.put MSU_FAVG10.VALID 1).put MSU_FAVG10.UHZ (avgUhz w.cycles d) else s.put MSU_FAVG10.VALID 0
    | none => s
  let s := match e600 with
    | some (w, d) =>
      let s := s.put MSU_FCNT.C600 w.cycles
      let s := if w.good then (s.put MSU_FAVG600.VALID 1).put MSU_FAVG600.UHZ (avgUhz w.cycles d) else s.put MSU_FAVG600.VALID 0
      match s.rtc.mainsStart with
      | some b => s.modRtc (fun r => { r with
          mainsWin := some ((s.rtcFracs + 2 ^ 47 - b) % 2 ^ 47, w.cycles, if s.on MSU_CFG.FNOM then 60 else 50, w.good) })
      | none => s
    | none => s
  let s := s.modMsu (fun m => { m with win10 := some w10, win600 := some w600 })
  if starts600 then s.modRtc (fun r => { r with mainsStart := some s.rtcFracs }) else s

/-! ## Half cycles (R381 to R383) -/

/-- R383: the record of a closed half cycle goes to the ring, or is dropped. -/
def halfRecord (flags n first nt0 : Nat) (rms : List Nat) (freq : Nat) (s : State) : State :=
  if !(s.on MSU_HRING.EN) then s
  else if (s.get MSU_HPTR.WR + 1) % 64 = s.get MSU_HPTR.RD then s.sat MSU_HPTR.DROP
  else
    let a := 2048 * s.get MSU_HRING.ADDR + 32 * s.get MSU_HPTR.WR
    let bytes := leBytes 4 first ++ leBytes 2 n ++ leBytes 1 flags ++ leBytes 1 (s.get MSU_STAT.PHST) ++ leBytes 8 nt0
      ++ rms.flatMap (leBytes 2) ++ leBytes 4 freq ++ leBytes 4 0
    let s := if inSram a 32 then s.wbytes a bytes else s
    (s.put MSU_HPTR.WR ((s.get MSU_HPTR.WR + 1) % 64)).put MSU_IRQ.HALF 1

/-- R381 to R385: the half cycle in progress closes, at a crossing (its direction) or a timeout, at the count `at_`. -/
def closeHalf (cross : Option Bool) (at_ : Nat) (s : State) : State :=
  let h := s.msu.half
  let (d, s) := s.draw
  let nozc := cross.isNone
  let rms := (List.finRange 4).map (fun (k : Fin 4) =>
    if bitOf (s.get MSU_CFG.CHEN) k.val then (if h.n = 0 then Config.freeNat (d + k.val) % 65536 else rms16 h.sq[k] h.n) else 0)
  let first := if h.n = 0 then Config.freeNat (d + 5) % 2 ^ 32 else h.firstScan
  let nt0 := if h.n = 0 then (if s.time.valid then Config.freeNat (d + 6) % 2 ^ 64 else 0) else h.nt0
  let s := { s with free := s.free + 7 }
  let pos : Bool := match h.begun with
    | .rising => true
    | .falling => false
    | .timeout => Config.freeNat (d + 4) % 2 == 1
  let s := ((s.put MSU_RMS0.LOW (rms.getD 0 0)).put MSU_RMS0.HIGH (rms.getD 1 0))
  let s := ((s.put MSU_RMS1.LOW (rms.getD 2 0)).put MSU_RMS1.HIGH (rms.getD 3 0))
  let s := s.putB MSU_STAT.ZCOK (!nozc)
  let s := if nozc then s.put MSU_IRQ.NOZC 1 else s
  let s := if h.clip then s.put MSU_IRQ.CLIP 1 else s
  let cycNozc := s.msu.cycNozc || nozc
  let cycTj := s.msu.cycTjump || h.tjump
  let (s, freq, bad) : State × Nat × Bool :=
    match cross, s.msu.lastRise with
    | some true, some r =>
      let f := (roundDiv 250000000000 ((at_ : Int) - r)).toNat
      let ok := decide (r < at_) && decide (40000 ≤ f) && decide (f ≤ 75000) && !cycNozc && !(s.on MSU_CFG.ZCSRC && cycTj)
      let s := if ok then (s.put MSU_FREQ.VALID 1).put MSU_FREQ.MHZ f
        else ((s.put MSU_FREQ.VALID 0).sat MSU_CNT.BADCYC).put MSU_IRQ.BADCYC 1
      (averages at_ ok s, if ok then f else 0, !ok)
    | some true, none => (averages at_ true s, 0, false)
    | _, _ => (s, 0, false)
  let s := if s.get MSU_NOM.NOM = 0 then s
    else (List.finRange 3).foldl (fun s (ph : Fin 3) =>
      if bitOf (s.get MSU_CFG.CHEN) ph.val then detect ph (rms.getD ph.val 0) nt0 s else s) s
  let flags := b2n pos + b2n nozc * 2 + b2n h.clip * 4 + b2n h.tjump * 8 + b2n h.bad * 16
  let s := halfRecord flags h.n first nt0 rms h.freq s
  let rise := cross == some true
  let s := s.modMsu (fun m => { m with
    half := { begun := match cross with
                | some true => .rising
                | some false => .falling
                | none => .timeout
              startAt := at_, freq := freq, bad := bad }
    lastCross := if nozc then m.lastCross else some at_
    dueAt := at_ + (if nozc then s.halfNominal else s.halfTimeout)
    lastRise := if rise then some at_ else m.lastRise
    cycNozc := if rise then false else cycNozc, cycTjump := if rise then false else cycTj })
  evmPulse 0x38 s

/-- A crossing or a timeout closes the half cycle; while a scan that started in it is being converted, at the scan's end. -/
def requestClose (cross : Option Bool) (at_ : Nat) (s : State) : State :=
  if s.msu.scanAt.isSome then
    s.modMsu (fun m => { m with closing := m.closing ++ [(cross, at_)], lastCross := if cross.isSome then some at_ else m.lastCross })
  else closeHalf cross at_ s

/-- R381: a crossing on channel A with hysteresis: the sign change is interpolated between the two samples about it. -/
def zcSample (x : Int) (at_ : Nat) (s : State) : State :=
  let hy : Int := max 1 (s.get MSU_CFG.ZCHYST)
  let s := match s.msu.prevA with
    | some (p, t) =>
      if (p < 0 ∧ 0 ≤ x) ∨ (0 ≤ p ∧ x < 0) then
        let z := ((t : Int) + (0 - p) * ((at_ : Int) - t) / (x - p)).toNat
        s.modMsu (fun m => { m with zeroAt := z })
      else s
    | none => s
  let s := s.modMsu (fun m => { m with prevA := some (x, at_) })
  let turn : Option Bool := if hy ≤ x then some true else if x ≤ -hy then some false else none
  match turn, s.msu.pol with
  | some d, some p => if d = p then s else requestClose (some d) s.msu.zeroAt (s.modMsu (fun m => { m with pol := some d }))
  | some d, none => s.modMsu (fun m => { m with pol := some d })
  | none, _ => s

/-- R380: a scan completes: MSU_SCAN, the sample ring, the half cycle's sums; a close that waited follows. Codes are signed. -/
def scanEnd (codes : Vector (BitVec 10) 4) (s : State) : State :=
  match s.msu.scanAt with
  | none => s
  | some t =>
    let idx := s.msu.nextScan
    let en (k : Nat) : Bool := bitOf (s.get MSU_CFG.CHEN) k
    let s := s.setReg Reg.MSU_SCAN (BitVec.ofNat 32 idx)
    let s := if s.on MSU_SRING.EN then
        let size := 512 * 2 ^ (min 5 (s.get MSU_SRING.SIZE))
        let a := 4096 * s.get MSU_SRING.ADDR / (8 * size) * (8 * size) + 8 * (idx % size)
        let bytes := (List.finRange 4).flatMap (fun (k : Fin 4) => leBytes 2 (if en k.val then wrapInt 16 codes[k].toInt else 0x8000))
        if inSram a 8 then s.wbytes a bytes else s
      else s
    let sq := Vector.ofFn (fun (k : Fin 4) => s.msu.half.sq[k] + if en k.val then (codes[k].toInt * codes[k].toInt).toNat else 0)
    let clip := (List.finRange 4).any (fun (k : Fin 4) => en k.val && (codes[k].toInt == -512 || codes[k].toInt == 511))
    let s := s.modMsu (fun m => { m with
      scanAt := none, nextScan := (idx + 1) % 2 ^ 32, half := { m.half with sq := sq, clip := m.half.clip || clip } })
    let s := s.msu.closing.foldl (fun s c => closeHalf c.1 c.2 s) (s.modMsu (fun m => { m with closing := [] }))
    if s.on MSU_CFG.ZCSRC && en 0 then zcSample codes[0].toInt t s else s

/-! ## Rows -/

/-- SCAN_START: the pacer's start, with TRIG = 1; compare starts come with COMPARE_MATCH (R379). -/
def execScanStart (s : State) : Out := .next (if s.on MSU_CFG.TRIG then scanStart false s else s)

/-- SCAN_END. -/
def execScanEnd (codes : Vector (BitVec 10) 4) (s : State) : Out := .next (if s.msuRuns then scanEnd codes s else s)

/-- ZERO_CROSSING: an edge on ZC_IN; within ZCHOLD of the last accepted edge it is ignored. With ZCSRC = 1 crossings come
from the samples of channel A (SCAN_END). -/
def execZeroCrossing (rising : Bool) (s : State) : Out :=
  let hold := 25000 * max 1 (s.get MSU_CFG.ZCHOLD)
  let s := if s.msuOn then capEdge 0x01 rising s else s
  .next (if !s.msuRuns || s.on MSU_CFG.ZCSRC || (s.msu.lastCross.map (fun t => decide (s.now < t + hold))).getD false then s
    else requestClose (some rising) s.now s)

/-- NOZC_TIMEOUT: no crossing within 1.5 nominal half cycles, or a nominal half cycle after the last timeout. -/
def execNozcTimeout (s : State) : Out :=
  .next (if s.msuRuns && decide (s.msu.dueAt ≤ s.now) && s.msu.closing.isEmpty then requestClose none s.msu.dueAt s else s)

/-- R386: a write of MSU_CFG: fields other than EN are taken only while EN = 0; EN set starts the unit, EN cleared returns
the phases to NORMAL without reports and discards open windows. -/
def msuCfgWrite (d : Word) (s : State) : State :=
  let was := s.on MSU_CFG.EN
  let s := s.plainWrite Reg.MSU_CFG (if was then (s.reg Reg.MSU_CFG &&& 0x7FFFFFFF#32) ||| (d &&& 0x80000000#32) else d)
  let on := s.on MSU_CFG.EN
  if on && !was then
    s.modMsu (fun m => { sags := m.sags, swells := m.swells, intrs := m.intrs
                         half := { startAt := s.now }, dueAt := s.now + s.halfTimeout })
  else if was && !on then
    let s := (s.put MSU_STAT.PHST 0).put MSU_STAT.RUN 0
    (s.modMsu (fun m => { m with win10 := none, win600 := none, scanAt := none, closing := []
                                 events := Vector.replicate 3 {} })).modRtc (fun r => { r with mainsStart := none })
  else s

/-- MSU_ENABLE, MSU_DISABLE: MSU_CFG written with EN as named. -/
def execMsuEnable (cfg : Word) (s : State) : Out := .next (viaBus Reg.MSU_CFG (msuCfgWrite (cfg ||| 0x80000000#32)) s)
def execMsuDisable (s : State) : Out :=
  .next (viaBus Reg.MSU_CFG (fun s => msuCfgWrite (s.reg Reg.MSU_CFG &&& 0x7FFFFFFF#32) s) s)

/-- A write of MSU_THR: discarded whole with BADCFG when a field is out of range or INTR + HYST ≥ SAG. -/
def msuThrWrite (d : Word) (s : State) : State :=
  let swell := d.toNat / 2 ^ 24
  let sag := d.toNat / 2 ^ 16 % 256
  let intr := d.toNat / 2 ^ 8 % 256
  let hy := d.toNat % 256
  if 101 ≤ swell ∧ swell ≤ 200 ∧ 50 ≤ sag ∧ sag ≤ 99 ∧ 1 ≤ intr ∧ intr ≤ 49 ∧ hy ≤ 10 ∧ intr + hy < sag then
    s.plainWrite Reg.MSU_THR d
  else s.put MSU_IRQ.BADCFG 1

/-- MSU_THR_WRITE. -/
def execMsuThrWrite (data : Word) (s : State) : Out := .next (viaBus Reg.MSU_THR (msuThrWrite data) s)

end Sys2Proof.Machine
end

