-- ==== Sys2Proof/Machine/Time.lean ====
section
/-! DEFINITION. Machine/Time.lean: corrections, the servo, the trigger program (chapter 15) and the rows of the block. -/
namespace Sys2Proof.Machine

/-- Change of the block's state. -/
def State.modTime (s : State) (f : TimeSt → TimeSt) : State := { s with time := f s.time }

/-! ## Compare units (R341 to R344) -/

/-- A live field of unit `n`. -/
def State.cc (s : State) (n : Fin 7) (f : Nat → Field) : Nat := s.get ((f n).at (Reg.TIME_CCTL_LIVE n))

/-- The pins of the trigger program: TT0 to TT3 (codes 1 to 4), PPS_OUT (code 5). -/
def State.trigPin (s : State) (pin : Nat) : Bool := if pin = 5 then s.pins.ppsOut else s.pins.tt.getLsbD (pin - 1)

/-- The state with a trigger pin at a level. -/
def setTrigPin (pin : Nat) (v : Bool) (s : State) : State :=
  if pin = 5 then { s with pins := { s.pins with ppsOut := v } }
  else if 1 ≤ pin ∧ pin ≤ 4 then
    { s with pins := { s.pins with tt := if v then s.pins.tt ||| (1#4 <<< (pin - 1)) else s.pins.tt &&& ~~~(1#4 <<< (pin - 1)) } }
  else s

/-- The width of a PULSE in counts. -/
def State.pulseWidth (s : State) (n : Fin 7) : Nat :=
  let w := max 1 (s.cc n TIME_CCTL.PW)
  match s.cc n TIME_CCTL.PWU with
  | 0 => w
  | 1 => us w
  | _ => us (1000 * w)

/-- R341: the signed difference of network time and the target of unit `n`. -/
def State.cmpDiff (s : State) (n : Fin 7) : Int := ntDiff s.nt ((s.time.cmp[n]).target / 2 ^ 16 % 2 ^ 64)

/-- R341: unit `n` is due: armed, network time valid, the CORE clocks running, the target reached. -/
def State.cmpDue (s : State) (n : Fin 7) : Bool :=
  (s.time.cmp[n]).armed && s.time.valid && s.clocked && decide (0 ≤ s.cmpDiff n)

/-- A unit's state. -/
def setCmp (n : Fin 7) (c : CmpUnit) (s : State) : State :=
  (s.modTime (fun t => { t with cmp := t.cmp.set n c })).putB (TIME_CSTAT.ARMED n) c.armed

/-- R343, R344: the unit after a match: a one-shot disarms; a periodic one takes the first target of its grid later than
network time, and counts the targets passed over. -/
def cmpNext (n : Fin 7) (s : State) : State :=
  let c := s.time.cmp[n]
  if s.cc n TIME_CCTL.PERIODIC = 1 ∧ 0 < c.period then
    let behind : Nat := 2 ^ 16 * ((ntDiff s.nt (c.target / 2 ^ 16 % 2 ^ 64)).toNat) + 2 ^ 16 - 1 - c.target % 2 ^ 16
    let k := behind / c.period + 1
    let s := setCmp n { c with target := (c.target + k * c.period) % 2 ^ 80 } s
    s.put (TIME_CSTAT.SKIP n) (min 255 (s.get (TIME_CSTAT.SKIP n) + (k - 1)))
  else setCmp n { c with armed := false } s

/-- R342: the pin action of a match. -/
def cmpPin (n : Fin 7) (s : State) : State :=
  let pin := s.cc n TIME_CCTL.PIN
  if pin = 0 ∨ 5 < pin then s
  else match s.cc n TIME_CCTL.ACT with
    | 0 => setTrigPin pin true s
    | 1 => setTrigPin pin false s
    | 2 => setTrigPin pin (!(s.trigPin pin)) s
    | _ => (setTrigPin pin true s).modTime (fun t => { t with
        pulses := ⟨pin, s.now + s.pulseWidth n⟩ :: t.pulses.filter (fun p => p.pin ≠ pin) })

/-- R342, R379: a match of unit `n`, late or on time: flags, pin, mains scan (with TRIG = 0), timer synchronisation, event-matrix pulse. -/
def cmpMatch (n : Fin 7) (late : Bool) (s : State) : State :=
  let s := s.sat (TIME_CSTAT.FIRED n)
  let s := if late then (s.put (TIME_CSTAT.LATE n) 1).put TIME_IRQ.LATE 1 else s
  let s := if s.cc n TIME_CCTL.IRQ = 1 then s.setReg Reg.TIME_IRQ (s.reg Reg.TIME_IRQ ||| BitVec.ofNat 32 (2 ^ n.val)) else s
  let s := cmpPin n s
  let s := if s.cc n TIME_CCTL.MSU = 1 ∧ s.get MSU_CFG.TRIG = 0 then scanStart late s else s
  let s := if s.cc n TIME_CCTL.TMR = 1 then watchPins (tmSync (Fin.ofNat 8 (s.cc n TIME_CCTL.TMRSEL))) s else s
  evmPulse (0x30 + n.val) (cmpNext n s)

/-- R344: every unit that is due matches at once, flagged LATE: after a jump, a SET, a resume of the CORE clocks. -/
def cmpLate (s : State) : State := (List.finRange 7).foldl (fun s (n : Fin 7) => if s.cmpDue n then cmpMatch n true s else s) s

/-- R29, R341: the trigger program that has become live: units whose entry differs from `old` are armed as their EN says;
one whose time has passed fires late. -/
def cmpLive (old : State) (s : State) : State :=
  (List.finRange 7).foldl (fun s (n : Fin 7) =>
    let ws : List Nat := [Reg.TIME_CCTL_LIVE n, Reg.TIME_CTGT_LO_LIVE n, Reg.TIME_CTGT_HI_LIVE n, Reg.TIME_CPER_LO_LIVE n, Reg.TIME_CPER_HI_LIVE n]
    if ws.all (fun a => old.reg a == s.reg a) then s
    else
      let w (a : Nat) : Nat := (s.reg a).toNat
      let c : CmpUnit := { armed := s.cc n TIME_CCTL.EN == 1
                           target := 2 ^ 16 * (w (Reg.TIME_CTGT_LO_LIVE n) + 2 ^ 32 * (w (Reg.TIME_CTGT_HI_LIVE n)))
                           period := w (Reg.TIME_CPER_LO_LIVE n) + 2 ^ 32 * (w (Reg.TIME_CPER_HI_LIVE n)) }
      let s := setCmp n c s
      if s.cmpDue n then cmpMatch n true s else s) s

/-- R345: the check of a candidate trigger program: the first failure's code. -/
def timeCheck (s : State) : Option Nat :=
  let us_ := (List.finRange 7).filter (fun (n : Fin 7) => s.cc n TIME_CCTL.EN == 1)
  let pin (n : Fin 7) : Nat := s.cc n TIME_CCTL.PIN
  let per (n : Fin 7) : Nat := (s.reg (Reg.TIME_CPER_LO_LIVE n)).toNat + 2 ^ 32 * ((s.reg (Reg.TIME_CPER_HI_LIVE n)).toNat)
  if us_.any (fun n => decide (5 < pin n) || (s.cc n TIME_CCTL.ACT == 3 && pin n == 0)) then some 0x10
  else if us_.any (fun n => us_.any (fun m => decide (n.val < m.val) && pin n == pin m && pin n != 0)) then some 0x11
  else if us_.any (fun n => s.cc n TIME_CCTL.PERIODIC == 1 &&
      (decide (1000000 * per n < 2 ^ 48) || (s.cc n TIME_CCTL.ACT == 3 && decide (250000000 * per n ≤ 2 ^ 48 * s.pulseWidth n)))) then some 0x12
  else none

/-! ## Corrections (R332 to R334) -/

/-- R274: the MAC adds a change of network time to its schedule offset; the argument is in the unit of the base pair. -/
def addSched (d : Int) (s : State) : State :=
  if s.radioOn then s.putI MAC_SCHEDOFS.OFS (s.getI MAC_SCHEDOFS.OFS + countsOfNt d) else s

/-- SLEWMAX in ppm, 1 to 50. -/
def State.slewMax (s : State) : Int := max 1 (min 50 (s.get TIME_SRVLIM.SLEWMAX))

/-- R334: the slew remaining becomes `a`; SL follows its sign. -/
def setSlew (a : Int) (s : State) : State :=
  let s := s.rebase
  s.modTime (fun t => { t with slewA := a, sl := if 0 < a then s.slewMax else if a < 0 then -s.slewMax else 0 })

/-- A jump of network time by `d`, in the unit of the base pair, at the present count, with all that follows (R333, R344). -/
def applyJump (d : Int) (s : State) : State :=
  if d = 0 then s
  else
    let s := s.rebase
    cmpLate (trimSpoil (addSched d (s.modTime (fun t => { t with bnt := t.bnt + d }))))

/-- A firmware command or a servo update has been applied: HOLDOVER clears (R340). -/
def timeUpdated (s : State) : State := (s.put TIME_STAT.HOLDOVER 0).modTime (fun t => { t with updAt := s.now })

/-- A firmware command has been applied: the servo is no longer active, the takeover interval starts again (R338). -/
def timeCommanded (s : State) : State := timeUpdated ((s.put TIME_STAT.SERVO 0).modTime (fun t => { t with cmdAt := s.now }))

/-- R333: a jump is larger than JUMPMAX. -/
def State.jumpTooFar (s : State) (d : Int) : Bool := decide (2 ^ 32 * s.get TIME_JUMPMAX.MAX < 1000000000 * d.natAbs)

/-- RESULT codes of TIME_CMD. -/
def tmOk : Nat := 0
def tmRefused : Nat := 1
def tmInvalid : Nat := 2
def tmBadarg : Nat := 3

/-- A refusal for its size: counted and flagged (R333). -/
def jumpRefused (s : State) : State := (s.sat TIME_ERRCNT.JUMPREF).put TIME_IRQ.JUMPREF 1

/-- R332: a command with its operand (64 bits of TIME_CORR) and FORCE; the answer is its result. -/
def timeCommand (op : Nat) (force : Bool) (opnd : Nat) (s : State) : State × Nat :=
  let x := signedOf 64 opnd
  match op with
  | 0x1 =>
    let d := if s.time.valid then ntDiff opnd s.nt else 0
    if s.jumpTooFar d && !force then (jumpRefused s, tmRefused)
    else if s.time.valid then (timeCommanded (applyJump (d * ntQ) s), tmOk)
    else
      let s := s.rebase
      let s := s.modTime (fun t => { t with valid := true, bnt := (opnd : Int) * ntQ })
      (cmpLate (timeCommanded (trimSpoil s)), tmOk)
  | 0x2 =>
    if !s.time.valid then (s, tmInvalid)
    else if s.jumpTooFar x && !force then (jumpRefused s, tmRefused)
    else (timeCommanded (applyJump (x * ntQ) s), tmOk)
  | 0x3 =>
    if 2 ^ 32 < x.natAbs then (s, tmBadarg)
    else if !s.time.valid then (s, tmInvalid)
    else
      let s := setSlew (s.slewLeft + x * ntQ) (s.modTime (fun t => { t with slewMark := t.slewMark + x * ntQ }))
      (timeCommanded s, tmOk)
  | 0x4 =>
    let r := signedOf 32 opnd
    if 549755813 < r.natAbs then (s, tmBadarg)
    else if !s.time.valid then (s, tmInvalid)
    else (timeCommanded (s.rebase.putI TIME_ADJ.ADJ r), tmOk)
  | 0x5 =>
    let left := s.slewLeft
    let s := (setSlew 0 s).modTime (fun t => { t with valid := false, slewMark := t.slewMark - left })
    (timeCommanded (ticksFree s), tmOk)
  | 0x6 => (s.modTime (fun t => { t with accept := true }), tmOk)
  | _ => (s, tmBadarg)

/-- A write of TIME_CMD with OP ≠ 0: the operand stands in TIME_CORR, the result is shown (R332). -/
def timeCmd (op : Nat) (force : Bool) (s : State) : State :=
  if op = 0 then s
  else
    let o := (s.reg Reg.TIME_CORR_LO).toNat + 2 ^ 32 * ((s.reg Reg.TIME_CORR_HI).toNat)
    let r := timeCommand op force o s
    r.1.put TIME_CMD.RESULT r.2

/-! ## The servo (R336 to R340) -/

/-- A source's entry in a list of counts. -/
def lastOf (l : List (Nat × Nat)) (k : Nat) : Option Nat := (l.find? (fun e => e.1 = k)).map (·.2)
def setLast (l : List (Nat × Nat)) (k v : Nat) : List (Nat × Nat) := (k, v) :: l.filter (fun e => e.1 ≠ k)

/-- Seconds of counter time in counts. -/
abbrev secCounts (n : Nat) : Nat := 250000000 * n

/-- R337: the source selected: 0 none, 1 PPS_IN, 2 ring, 3 beacon. -/
def State.selSource (s : State) : Nat :=
  let ok (k : Nat) (en : Field) : Bool := s.on en &&
    ((lastOf s.time.measAt k).map (fun t => decide (s.now ≤ t + secCounts (max 1 (s.get TIME_SRVLIM.SRCLOSS))))).getD false
  if ok 0 TIME_SRVCFG.PPS then 1 else if ok 1 TIME_SRVCFG.RING then 2 else if ok 2 TIME_SRVCFG.BCN then 3 else 0

/-- R337: the selection follows; a change is flagged. -/
def reselect (s : State) : State :=
  if s.selSource = s.get TIME_STAT.SRC then s else (s.put TIME_STAT.SRC s.selSource).put TIME_IRQ.SRCCHG 1

/-- A write of TIME_SRVLIM: a running slew takes the new rate at once (R334). -/
def srvlimWrite (d : Word) (s : State) : State :=
  let s := s.rebase.plainWrite Reg.TIME_SRVLIM d
  reselect (if s.time.sl = 0 then s else setSlew s.time.slewA s)

/-- R339: a measurement of the selected source, in ns, by the active servo. -/
def servoStep (src : Nat) (x : Int) (s : State) : State :=
  let used (s : State) : State := timeUpdated (s.modTime (fun t => { t with usedAt := setLast t.usedAt src s.now }))
  if s.time.accept then used (applyJump (-x * (2 ^ 32 * 64000000)) (s.modTime (fun t => { t with accept := false })))
  else if s.get TIME_JUMPMAX.MAX < x.natAbs then jumpRefused s
  else
    let t : Int := clampInt 1000000 16000000000 ((lastOf s.time.usedAt src).elim (1000000000 : Int) (fun u => 4 * ((s.now : Int) - u)))
    let lim : Int := 1099512 * (max 1 (min 100 (s.get TIME_SRVLIM.RLIM)) : Nat)
    let f := roundDiv (2 ^ 40 * x) t
    let i := clampInt (-lim) lim (s.time.integ - f.fdiv (2 ^ s.get TIME_SRVCFG.KISH))
    let adj := clampInt (-lim) lim (i - f.fdiv (2 ^ s.get TIME_SRVCFG.KPSH))
    used ((s.rebase.putI TIME_ADJ.ADJ adj).modTime (fun t => { t with integ := i }))

/-- R336: a source (0 PPS_IN, 1 ring, 2 beacon) delivers a measurement in ns. -/
def measurement (src : Nat) (x : Int) (s : State) : State :=
  let s := s.putI (TIME_MEAS.X src) (clampInt (-(2 ^ 31 - 1)) (2 ^ 31 - 1) x)
  let s := (s.put TIME_IRQ.MEAS 1).modTime (fun t => { t with measAt := setLast t.measAt src s.now })
  let s := reselect s
  if s.on TIME_STAT.SERVO && s.time.valid && s.get TIME_STAT.SRC == src + 1 then servoStep src x s else s

/-- R336: the measurement of a PPS_IN edge at the present count: the fraction of network time in −0.5 to +0.5 s, in ns to
the nearest, less PPSDLY. -/
def ppsX (s : State) : Int := roundDiv (1000000000 * signedOf 32 s.nt) (2 ^ 32) - s.getI TIME_DLY.PPSDLY

/-! ## Rows -/

/-- TIME_SET, TIME_STEP, TIME_SLEW, TIME_RATE, TIME_CLEAR, TIME_ACCEPT: a write of TIME_CMD (R332). -/
def execTimeSet (force : Bool) (s : State) : Out := .next (viaBus Reg.TIME_CMD (timeCmd 0x1 force) s)
def execTimeStep (force : Bool) (s : State) : Out := .next (viaBus Reg.TIME_CMD (timeCmd 0x2 force) s)
def execTimeSlew (s : State) : Out := .next (viaBus Reg.TIME_CMD (timeCmd 0x3 false) s)
def execTimeRate (s : State) : Out := .next (viaBus Reg.TIME_CMD (timeCmd 0x4 false) s)
def execTimeClear (s : State) : Out := .next (viaBus Reg.TIME_CMD (timeCmd 0x5 false) s)
def execTimeAccept (s : State) : Out := .next (viaBus Reg.TIME_CMD (timeCmd 0x6 false) s)

/-- SLEW_END: the slew remaining has reached zero: SL returns to 0 (R334). -/
def execSlewEnd (s : State) : Out :=
  .next (if s.time.sl ≠ 0 ∧ s.slewLeft = 0 then s.rebase.modTime (fun t => { t with sl := 0 }) else s)

/-- PPS_MEASUREMENT: a rising edge of PPS_IN (R336, R346). -/
def execPpsMeasurement (s : State) : Out :=
  .next (if s.clocked then measurement 0 (ppsX s) (capEdge 0x00 true s) else s)

/-- SERVO_TAKEOVER (R338). -/
def execServoTakeover (s : State) : Out :=
  .next (if s.on TIME_SRVCFG.EN && s.time.valid && s.get TIME_STAT.SRC != 0 && !(s.on TIME_STAT.SERVO)
      && decide (s.time.cmdAt + secCounts (max 1 (s.get TIME_SRVCFG.TAKEOVER)) ≤ s.now) then
    ((s.put TIME_STAT.SERVO 1).put TIME_IRQ.TAKEOVER 1).modTime (fun t => { t with integ := s.getI TIME_ADJ.ADJ })
  else s)

/-- SOURCE_LOSS: a source has delivered nothing for SRCLOSS seconds: the selection follows (R337). -/
def execSourceLoss (s : State) : Out := .next (reselect s)

/-- HOLDOVER (R340). -/
def execTimeHoldover (s : State) : Out :=
  .next (if s.time.valid && !(s.on TIME_STAT.HOLDOVER) && decide (s.time.updAt + secCounts (max 1 (s.get TIME_SRVLIM.HOLD)) ≤ s.now) then
    (s.put TIME_STAT.HOLDOVER 1).put TIME_IRQ.HOLDOVER 1 else s)

/-- COMPARE_MATCH: the first count at which a unit's target is reached (R341). -/
def execCompareMatch (n : Fin 7) (s : State) : Out := .next (if s.cmpDue n then cmpMatch n false s else s)

/-- PULSE_END: the width of a PULSE on a pin has elapsed (R342). -/
def execPulseEnd (pin : Fin 8) (s : State) : Out :=
  .next (if s.time.pulses.any (fun p => p.pin = pin.val && decide (p.endsAt ≤ s.now)) then
    (setTrigPin pin.val false s).modTime (fun t => { t with pulses := t.pulses.filter (fun p => p.pin ≠ pin.val) })
  else s)

/-- CAPTURE: an edge at a capture source (SRC codes of TIME_CAPCFGn), the source's domain on. The entry of an SFD source is
written when the sentinel signals, which is SFD_MATCH (R347). -/
def execTimeCapture (src : BitVec 8) (rising : Bool) (s : State) : Out :=
  let c := src.toNat
  .next (if c = 0x01 ∧ ¬ s.msuOn then s
    else if c ≤ 0x01 ∨ (0x10 ≤ c ∧ c ≤ 0x27) then capEdge c rising s else s)

/-- CAPTURE_POP (R346). -/
def execCapturePop (n : Fin 8) (s : State) : Out := .next (viaBus (Reg.TIME_CAPCFG n) (capPop n) s)

/-- CAPCFG_WRITE (R346). -/
def execCapcfgWrite (n : Fin 8) (data : Word) (s : State) : Out := .next (viaBus (Reg.TIME_CAPCFG n) (capCfgWrite n data) s)

/-- R331: a read of TIME_NOW_LO by a master latches TIME_NOW_HI and the count. -/
def nowRead (m : Master) (s : State) : State :=
  (s.latchHi m Reg.TIME_NOW_LO (BitVec.ofNat 32 (s.ntRead / 2 ^ 32))).modTime (fun t => { t with nowc := s.now })

/-- NOW_READ. -/
def execNowRead (m : Master) (s : State) : Out :=
  let x : Access := ⟨m, Reg.TIME_NOW_LO, .b32, false⟩
  .next (match busRefusal s x with
    | some c => refuse c x s
    | none => nowRead m s)

/-- UTC_OFFSET_CHANGE: network time has reached the announced instant (R348). -/
def execUtcOffsetChange (s : State) : Out :=
  .next (if s.time.utcAt ≠ 0 ∧ s.time.valid ∧ 0 ≤ ntDiff s.nt s.time.utcAt then
    s.modTime (fun x => { x with utc := x.utcNew, utcAt := 0 }) else s)

end Sys2Proof.Machine
end

