-- ==== Sys2Proof/Machine/Mac.lean ====
section
/-! DEFINITION. Machine/Mac.lean: schedule, links, transmit queue, CSMA, own beacons (R259 to R272, R288). Instants are
counts of the time base, as integers. -/
namespace Sys2Proof.Machine

/-- The MAC changed. -/
def State.modMac (s : State) (f : MacSt → MacSt) : State := { s with mac := f s.mac }

/-- A live field of the MAC's TK registers. -/
def State.ml (s : State) (f : Field) (live : Nat) : Nat := s.get (f.at live)
def State.linkA (s : State) (n : Nat) (f : Nat → Field) : Nat := s.get ((f n).at (Reg.MAC_LINKA_LIVE n))
def State.linkB (s : State) (n : Nat) (f : Nat → Field) : Nat := s.get ((f n).at (Reg.MAC_LINKB_LIVE n))

/-- TXOFS, ACKTURN, ACKGUARD in counts. -/
def State.txOfs (s : State) : Int := us (s.ml MAC_TIMING.TXOFS Reg.MAC_TIMING_LIVE)
def State.ackTurn (s : State) : Int := us (s.ml MAC_TIMING.ACKTURN Reg.MAC_TIMING_LIVE)
def State.ackGuard (s : State) : Int := us (s.ml MAC_TIMING.ACKGUARD Reg.MAC_TIMING_LIVE)

/-- SCHEDOFS in counts (R273). -/
def State.schedOfs (s : State) : Int := s.getI MAC_SCHEDOFS.OFS

/-! ## Schedule time (R259, R260) -/

/-- The count at which network time reads a 32.32 value, at the present rate. -/
def State.countAtNt (s : State) (t : Int) : Int := (s.now : Int) + -((s.ntExact - t * ntQ) / s.ntRate)

/-- Network time at a count, 32.32. -/
def State.ntAtCount (s : State) (c : Int) : Nat := ((s.ntUnits c).fdiv ntQ % 2 ^ 64).toNat

/-- The slot whose start in schedule time is nearest to the present count (R260). -/
def State.schedSlot (s : State) : Nat :=
  if s.freeRun then s.tick.bnd / 10
  else (s.ntAtCount ((s.now : Int) - s.schedOfs) * 100 + 2 ^ 31) / 2 ^ 32

/-- R260: the count at which a slot starts: its first millisecond, plus SCHEDOFS. -/
def State.slotStart (s : State) (n : Nat) : Int :=
  (if s.freeRun then (s.tick.startAt : Int) + 250000 * (10 * (n : Int) - (s.tick.bnd : Int))
   else s.countAtNt (-((-(2 ^ 32 * (n : Int))) / 100))) + s.schedOfs

/-! ## Lanes (R262, R264) -/

/-- A hop entry. -/
def State.hopEntry (s : State) (i : Nat) : Nat := (s.reg (Reg.MAC_HOP_LIVE (i / 4))).toNat / 2 ^ (8 * (i % 4)) % 128

/-- R262: the lane of a link in a slot. -/
def State.linkLane (s : State) (n slot : Nat) : Nat :=
  let c := s.linkA n MAC_LINKA.CHAN
  if s.linkA n MAC_LINKA.HOP = 0 then c
  else
    let len := s.ml MAC_HOPCFG.LEN Reg.MAC_HOPCFG_LIVE
    if len = 0 then 255 else s.hopEntry ((slot + c) % len)

/-- The PHY mode of a channel. -/
def State.laneMode (s : State) (l : Nat) : Nat := s.msA (s.laneF l LOOM_LANE.MSET) LOOM_MSA.MODE

/-- The centre of a channel in kHz (R190). -/
def State.laneKHz (s : State) (l : Nat) : Nat := (s.channelHz l (s.laneF l LOOM_LANE.BOND) / 1000).toNat

/-- R264: an action has no lane. -/
def noLane (s : State) : State := (s.sat (MAC_CNT.LO 3)).put MAC_IRQ.NOLANE 1

/-- R265: an action is skipped. -/
def conflict (s : State) : State := s.sat (MAC_CNT.HI 3)

/-! ## Links (R261) -/

/-- A slotframe's LEN, 0 meaning 4,096. -/
def State.sfLen (s : State) (f : Nat) : Nat :=
  let l := s.get ((MAC_SF.LEN f).at (Reg.MAC_SF_LIVE f))
  if l = 0 then 4096 else l

/-- The link is enabled in a defined slotframe. -/
def State.linkOn (s : State) (n : Nat) : Bool :=
  s.linkA n MAC_LINKA.EN == 1 && s.get ((MAC_SF.EN (s.linkA n MAC_LINKA.SF)).at (Reg.MAC_SF_LIVE (s.linkA n MAC_LINKA.SF))) == 1

/-- The link occurs in a slot. -/
def State.linkOccurs (s : State) (n slot : Nat) : Bool :=
  s.linkOn n && slot % s.sfLen (s.linkA n MAC_LINKA.SF) == s.linkA n MAC_LINKA.SLOTOFS

/-- Types. -/
def lkTx : Nat := 0
def lkRx : Nat := 1
def lkShared : Nat := 2

/-- The links of a type that occur in a slot, rising. -/
def State.linksIn (s : State) (typ slot : Nat) : List Nat :=
  (List.range 64).filter (fun n => s.linkOccurs n slot && s.linkA n MAC_LINKA.TYPE == typ)

/-- Counts of a link's span. -/
def State.spanCounts (s : State) (n : Nat) : Int := 2500000 * (s.linkA n MAC_LINKA.SPAN + 1 : Nat)

/-! ## The transmit ring (R267) -/

/-- The number of descriptors of the ring. -/
def State.txqLen (s : State) : Nat := max 15 (s.get MAC_TXQBASE.LAST) + 1

/-- The address of a descriptor. -/
def State.descAt (s : State) (i : Nat) : Nat := 8192 * s.get MAC_TXQBASE.ADDR + 32 * i

/-- The ring is served: enabled, within control SRAM. -/
def State.txqOn (s : State) : Bool := s.on MAC_TXQBASE.EN && inSram (s.descAt 0) (32 * s.txqLen)

/-- A field of a descriptor. -/
def State.dF (s : State) (i o n : Nat) : Nat := s.rn (s.descAt i + o) n

/-- Ring indexes from TAIL up to HEAD. -/
def State.ringIdx (s : State) : List Nat :=
  let n := s.txqLen
  let t := s.get MAC_TXQPTR.TAIL % n
  let h := s.get MAC_TXQPTR.HEAD % n
  (List.range ((h + n - t) % n)).map (fun k => (t + k) % n)

/-- Descriptors that are ready, oldest first. -/
def State.readyDescs (s : State) : List Nat := if s.txqOn then s.ringIdx.filter (fun i => s.dF i 0 1 == 1) else []

/-- R267: for each peer only the oldest ready descriptor is attempted; those without a peer stand behind none. -/
def State.headDescs (s : State) : List Nat :=
  s.readyDescs.foldl (fun l i =>
    if s.dF i 4 2 != 65535 && l.any (fun j => s.dF j 4 2 == s.dF i 4 2) then l else l ++ [i]) []

/-- Kinds. -/
def dkLink : Nat := 0
def dkShared : Nat := 1
def dkImm : Nat := 2
def dkBeacon : Nat := 3
def dkZburst : Nat := 4

/-- FLAGS bits of a descriptor. -/
def State.dFlag (s : State) (i b : Nat) : Bool := bitOf (s.dF i 2 1) b

/-- A taken descriptor. -/
def State.desc (s : State) (i : Nat) : Option MacDesc := s.mac.descs.find? (fun d => d.idx == i)

/-- A taken descriptor changed. -/
def State.modDesc (s : State) (i : Nat) (f : MacDesc → MacDesc) : State :=
  s.modMac (fun m => { m with descs := m.descs.map (fun d => if d.idx = i then f d else d) })

/-- The octets at FRAME. -/
def State.dBody (s : State) (i : Nat) : List Byte := s.bytes (s.dF i 8 4) (s.dF i 12 2)

/-- The PSDU octets a descriptor's frame will have: with MIC and FCS. -/
def State.dPsduLen (s : State) (i : Nat) : Nat :=
  s.dF i 12 2 + (if s.dFlag i 1 then (match parseOut (s.dBody i) with
    | some m => micOctets m.level
    | none => 0) else 0) + 2

/-! ## Statuses (R269) -/

def msNoack : Nat := 0x20
def msNack : Nat := 0x21
def msCafail : Nat := 0x22
def msToolong : Nat := 0x23
def msNopeer : Nat := 0x24
def msParentlost : Nat := 0x25
def msBaddesc : Nat := 0x26

/-- TAIL advances over ended descriptors. -/
def advanceTail : Nat → State → State
  | 0, s => s
  | n + 1, s =>
    let t := s.get MAC_TXQPTR.TAIL % s.txqLen
    if t = s.get MAC_TXQPTR.HEAD % s.txqLen then s
    else if s.dF t 0 1 = 2 then advanceTail n (s.put MAC_TXQPTR.TAIL ((t + 1) % s.txqLen))
    else s

/-- R267: a descriptor ends: STATUS, TRIES, COUNTER, TXTIME, then STATE, TXDONE; TAIL advances. -/
def descEnd (i st : Nat) (s : State) : State :=
  let d := (s.desc i).getD { idx := i }
  let a := s.descAt i
  let s := s.modMac (fun m => { m with
    descs := m.descs.filter (fun d => !(d.idx == i)), csma := m.csma.filter (fun c => !(c.idx == i))
    wins := m.wins.filter (fun w => !(w.kind == .ackWait i)) })
  let s := (((s.wn (a + 0x10) 2 (st + 256 * min 255 d.tries)).wn (a + 0x14) 4 d.counter).wn (a + 0x18) 8 d.txTime).wb a 2
  let s := s.put MAC_IRQ.TXDONE 1
  let s := if st = msNoack ∨ st = msNack then s.put MAC_IRQ.NOACK 1 else s
  let s := if st = msCafail then s.sat (MAC_CNT.LO 5) else s
  advanceTail 256 s

/-- RETRIES of a descriptor; 8 to 254 act as 7 (log entry 23). -/
def State.retries (s : State) (i : Nat) : Nat :=
  let r := s.dF i 3 1
  if r = 255 then s.get MAC_CSMA.MAXRETRY else min 7 r

/-- R269, R322: a SECURE descriptor's entry has its slots and the key slot has a key. -/
def State.peerOk (s : State) (i : Nat) : Bool :=
  let p := s.dF i 4 2
  if s.dFlag i 1 then
    s.isPeer p && decide (eN (s.entry p) 6 1 < 32) && decide (eN (s.entry p) 7 1 < 32) && s.secClocked
      && (s.slot (eN (s.entry p) 6 1)).valid && !(s.counter (eN (s.entry p) 7 1)).exhausted
  else p == 65535 || s.isPeer p

/-- R261: a frame of `n` octets whose first symbol is at `first` fits a span, with the longest acknowledgement, 47 octets
(log entry 23), when it asks for one. -/
def State.fits (s : State) (mode n : Nat) (ar : Bool) (first spanEnd : Int) : Bool :=
  let air : Int := s.shrCounts mode + frameCounts mode n
  let ack : Int := if ar then s.ackTurn + (s.shrCounts mode + frameCounts mode 47 : Nat) else 0
  decide (first + air + ack + us 300 ≤ spanEnd)

/-- R268: an enabled TX link to the peer fits the descriptor on some lane it may use. -/
def State.linkFits (s : State) (i : Nat) : Bool :=
  (List.range 64).any (fun n => s.linkOn n && s.linkA n MAC_LINKA.TYPE == lkTx && s.linkB n MAC_LINKB.PEER == s.dF i 4 2 &&
    (let lanes := if s.linkA n MAC_LINKA.HOP = 0 then [s.linkA n MAC_LINKA.CHAN]
       else (List.range (s.ml MAC_HOPCFG.LEN Reg.MAC_HOPCFG_LIVE)).map s.hopEntry
     lanes.any (fun l => s.isChannel l &&
       s.fits (s.laneMode l) (s.dPsduLen i) (s.dFlag i 0) (s.txOfs - s.shrCounts (s.laneMode l)) (s.spanCounts n))))

/-- Beacon tracking states (R276). -/
def bsNone : Nat := 0
def bsTrack : Nat := 1
def bsSearch : Nat := 2
def bsLost : Nat := 3

/-- The descriptor is for the time parent. -/
def State.toParent (s : State) (i : Nat) : Bool := s.on MAC_PARENT.EN && s.dF i 4 2 == s.get MAC_PARENT.ENTRY

/-- R276: descriptors to the parent are held in SEARCH. -/
def State.heldDesc (s : State) (i : Nat) : Bool := s.toParent i && s.get MAC_BSTAT.STATE == bsSearch

/-- The tests of a descriptor when the MAC first takes it: a status that ends it, or none. -/
def takeTests (i : Nat) (s : State) : Option Nat :=
  let k := s.dF i 1 1
  if 4 < k ∨ !(inSram (s.dF i 8 4) (s.dF i 12 2)) then some msBaddesc
  else if !(s.peerOk i) then some msNopeer
  else if s.toParent i && s.get MAC_BSTAT.STATE == bsLost then some msParentlost
  else if k = dkLink ∧ !(s.linkFits i) then some msToolong
  else if k = dkBeacon ∧ 127 < s.dPsduLen i then some msToolong
  else none

/-- A ready descriptor is taken, or ends. -/
def takeDesc (i : Nat) (s : State) : State :=
  match takeTests i s with
  | some st => descEnd i st s
  | none => s.modMac (fun m => { m with descs := m.descs ++ [{ idx := i }] })

/-- Ready descriptors that the MAC has not taken are taken, oldest of each peer. -/
def takeDescs : Nat → State → State
  | 0, s => s
  | fuel + 1, s =>
    match s.headDescs.find? (fun i => (s.desc i).isNone) with
    | none => s
    | some i => takeDescs fuel (takeDesc i s)

/-! ## Ranks (R265) -/

/-- Two intervals overlap. -/
def overlaps (a b c d : Int) : Bool := decide (a < d) && decide (c < b)

/-- The rank of a receive window. -/
def winRank : WinKind → Nat
  | .beacon => 3
  | .ackWait _ => 4
  | .link _ _ => 7

/-- CSMA of a descriptor is over. -/
def dropCsma (i : Nat) (s : State) : State := s.modMac (fun m => { m with csma := m.csma.filter (fun x => !(x.idx == i)) })

/-- A descriptor waits again; one for a parent that has been lost meanwhile ends (R276). -/
def descIdle (i : Nat) (s : State) : State :=
  if s.toParent i && s.get MAC_BSTAT.STATE == bsLost then descEnd i msParentlost s
  else dropCsma i (s.modDesc i (fun d => { d with active := false }))

/-- A try has failed: the descriptor is tried again, or ends. -/
def tryFailed (i st : Nat) (s : State) : State :=
  let t := ((s.desc i).map (·.tries)).getD 0
  let s := s.modMac (fun m => { m with wins := m.wins.filter (fun w => !(w.kind == .ackWait i)) })
  if s.retries i < t then descEnd i st s else descIdle i s

/-- The MAC may transmit: its domain on, not a standby (R285), and not about to hand the pair over (R499). -/
def State.macTx (s : State) : Bool := s.radioOn && !s.standby && s.pairState != pairStart && s.twil.handoverOut.isNone

/-- The owners that a request for an interval may have. -/
def MacAct.owners (a : MacAct) : List TxOwner := match a.desc with
  | some i => [.desc i, .beacon (some i)]
  | none => if a.rank = 2 then [.beacon none] else []

/-- The transmission of an interval has not begun its sequence and can still be called back. -/
def State.callable (s : State) (a : MacAct) : Bool :=
  s.tx.queue.any (fun q => a.owners.contains q.1) || (match s.tx.job with
    | some j => a.owners.contains j.owner && (j.phase == .waiting || j.phase == .preparing || j.phase == .locked)
    | none => false)

/-- A request of the MAC is taken back from the chain; its descriptor stays queued. -/
def uncall (a : MacAct) (s : State) : State :=
  let s := s.modMac (fun x => { x with acts := x.acts.filter (fun b => !(b == a)) })
  let s := match a.desc with
    | some i => descIdle i s
    | none => s
  let s := s.modTx (fun t => { t with queue := t.queue.filter (fun q => !(a.owners.contains q.1)) })
  let s := match s.tx.job with
    | some j => if a.owners.contains j.owner then coexWires false false (txHeldApply (s.modTx (fun t => { t with job := none }))) else s
    | none => s
  s

/-- R265: a lower-ranked transmission is skipped. -/
def callBack (a : MacAct) (s : State) : State := conflict (uncall a s)

/-- R285: the MAC sends nothing more: CSMA ends, and what the chain has not begun leaves it. -/
def macStill (s : State) : State :=
  let s := (s.mac.acts.filter s.callable).foldl (fun s a => uncall a s) s
  let s := (s.modMac (fun m => { m with csma := [] })).modTx (fun t => { t with queue := t.queue.filter (fun q => q.1 == .outside) })
  match s.tx.job with
  | some j =>
    if j.owner == .ack && (j.phase == .waiting || j.phase == .preparing || j.phase == .locked) then
      txKick (coexWires false false (txHeldApply (s.modTx (fun t => { t with job := none }))))
    else s
  | none => s

/-- R265: an action stands before one of rank `r` and link `l`. -/
def MacAct.standsBefore (a : MacAct) (r l : Nat) : Bool := decide (a.rank < r) || (a.rank == r && decide (a.link ≤ l))

/-- Is a transmission of rank `r` and link `l` over these intervals stood against by an action that outranks it, or by one of a
lower rank that can no longer be called back? -/
def State.outranked (s : State) (r l : Nat) (segs : List (Int × Int)) : Bool :=
  s.mac.acts.any (fun a => decide ((s.now : Int) < a.toAt) && segs.any (fun x => overlaps x.1 x.2 a.fromAt a.toAt)
      && (a.standsBefore r l || !(s.callable a)))
    || s.mac.wins.any (fun w => decide ((s.now : Int) < w.toAt) && (decide (winRank w.kind < r) || (winRank w.kind == r && (match w.kind with
        | .link n _ => decide (n ≤ l)
        | _ => true)))
      && segs.any (fun x => overlaps x.1 x.2 w.fromAt w.toAt))

/-- Receive windows are skipped; an acknowledgement wait that is skipped fails its try. -/
def skipWins (hit : RxWin → Bool) (s : State) : State :=
  (s.mac.wins.filter hit).foldl (fun s w => match w.kind with
    | .ackWait i => tryFailed i msNoack (conflict s)
    | .beacon | .link _ _ => conflict (s.modMac (fun m => { m with wins := m.wins.erase w }))) s

/-- The transmissions and the windows that an action of rank `r` and link `l` skips. -/
def skipLower (r l : Nat) (segs : List (Int × Int)) (s : State) : State :=
  let hit (a b : Int) : Bool := segs.any (fun x => overlaps x.1 x.2 a b)
  let s := (s.mac.acts.filter (fun a => hit a.fromAt a.toAt && !(a.standsBefore r l) && s.callable a)).foldl (fun s a => callBack a s) s
  skipWins (fun w => decide (r < winRank w.kind) && hit w.fromAt w.toAt) s

/-- The interval of a transmission whose first symbol is at `first`: sequencer start to 80 µs after its last TX sample. -/
def State.txInterval (s : State) (first : Int) (air : Nat) : Int × Int :=
  (first - us s.txSetup, first + air + (us (s.rampT + s.get RFTX_SEQ.PALAG + s.get RFTX_SEQ.TRLAG + 80) : Nat))

/-- R281: the window for the acknowledgement of a frame. -/
def State.ackWindow (s : State) (mode : Nat) (lastSym : Int) : Int × Int :=
  let c := lastSym + s.ackTurn + s.shrCounts mode
  (c - s.ackGuard, c + s.ackGuard + 1)

/-! ## Handing a request to the chain -/

/-- Microseconds of a number of counts, rounded up. -/
def usUp (n : Nat) : Nat := (n + 249) / 250

/-- The request of a frame on a channel. -/
def State.frameReq (s : State) (lane peer n : Nat) (power : Int) (prio ack : Bool) (first : Int) : TxReq :=
  let mode := s.laneMode lane
  { start := some (BitVec.ofNat 64 (s.ntAtCount first)), centre := s.laneKHz lane, mode := some (BitVec.ofNat 4 mode), power := power
    offset := if s.isPeer peer then signedOf 16 (eN (s.entry peer) 22 2) else 0
    prio := prio, airtime := usUp (s.shrCounts mode + frameCounts mode n), ack := ack }

/-- R268: the PSDU of a descriptor's frame, built at its first transmission: with a counter, MIC and FCS when SECURE. The
second value is false when the frame must wait for a counter (R306), and a status ends a descriptor without key. -/
def buildFrame (i : Nat) (body : List Byte) (s : State) : State × (Nat ⊕ Bool) :=
  if !(s.dFlag i 1) then
    let b := withFcs body
    (s.modDesc i (fun d => { d with psdu := some b, seq := (parseOut body).bind (·.seq) }), .inr true)
  else if !(s.peerOk i) then (s, .inl msNopeer)
  else
    let e := s.entry (s.dF i 4 2)
    match parseOut body with
    | none => (s.modDesc i (fun d => { d with psdu := some (withFcs body) }), .inr true)
    | some m =>
      match s.frameKey m (eN e 6 1), takeCounter (eN e 7 1) s with
      | none, _ => (s, .inl msNopeer)
      | some _, (none, s) => (s, .inr false)
      | some key, (some c, s) =>
        let body := match m.ctrAt with
          | some o => ePut body o 4 c
          | none => body
        let b := withFcs (frameSeal { m with counter := c } key (macNonce s.ownExt c m.level) body)
        (s.modDesc i (fun d => { d with psdu := some b, counter := c, seq := m.seq }), .inr true)

/-- A descriptor's frame goes to the chain with its first symbol at `first`, if nothing outranks it. The Bool says whether
it went. -/
def handDesc (i lane rank link : Nat) (first : Int) (s : State) : State × Bool :=
  let mode := s.laneMode lane
  let n := s.dPsduLen i
  let air := s.shrCounts mode + frameCounts mode n
  let iv := s.txInterval first air
  let segs := if s.dFlag i 0 then [iv, s.ackWindow mode (first + air)] else [iv]
  if !s.macTx || s.heldDesc i then (s, false)
  else if s.outranked rank link segs then (conflict s, false)
  else
    let r : State × (Nat ⊕ Bool) := match s.desc i with
      | some d => if d.psdu.isSome then (s, .inr true) else buildFrame i (s.dBody i) s
      | none => (s, .inr false)
    match r with
    | (s, .inl st) => (descEnd i st s, false)
    | (s, .inr false) => (s, false)
    | (s, .inr true) =>
      let s := skipLower rank link segs s
      let s := s.modMac (fun m => { m with acts := m.acts ++ [⟨rank, link, iv.1, iv.2, false, some i⟩] })
      let s := s.modDesc i (fun d => { d with
        active := true, txAt := s.ntAtCount (first + s.shrCounts mode), lane := lane, loop := none })
      (txOffer (.desc i) (s.frameReq lane (s.dF i 4 2) n (signedOf 8 (s.dF i 7 1)) (s.dFlag i 3) false first) s, true)

/-! ## CSMA (R270, R271) -/

/-- CSMA parameters; values outside their ranges act as the nearer limit. -/
def State.maxBe (s : State) : Nat := max 3 (min 8 (s.get MAC_CSMA.MAXBE))
def State.minBe (s : State) : Nat := min s.maxBe (s.get MAC_CSMA.MINBE)
def State.maxBo (s : State) : Nat := min 5 (s.get MAC_CSMA.MAXBO)
def State.boUnit (s : State) : Int := us (20 * max 5 (min 50 (s.get MAC_CSMA.BOUNIT)))

/-- From the assessment to the boundary: SHR, set-up and 130 µs. -/
def State.ccaLead (s : State) (lane : Nat) : Int := (s.shrCounts (s.laneMode lane) + us (s.txSetup + 130) : Nat)

/-- The instant of back-off boundary k. -/
def State.boundary (s : State) (c : Csma) : Int := c.base + (c.k : Int) * s.boUnit

/-- The boundary still fits the span. -/
def State.boFits (s : State) (c : Csma) : Bool :=
  match c.spanEnd with
  | some e => s.fits (s.laneMode c.lane) (s.dPsduLen c.idx) (s.dFlag c.idx 0) (s.boundary c - s.shrCounts (s.laneMode c.lane)) e
  | none => true

/-- CSMA of a descriptor replaced. -/
def setCsma (c : Csma) (s : State) : State :=
  s.modMac (fun m => { m with csma := m.csma.filter (fun x => !(x.idx == c.idx)) ++ [c] })

/-- R270: the loop is cut off at the end of its slot and goes on at the next occurrence with NB and BE as they are. -/
def stopCsma (c : Csma) (s : State) : State := dropCsma c.idx (s.modDesc c.idx (fun d => { d with loop := some c }))

/-- A boundary whose assessment has passed gives way to the first one whose has not (log entry 23). -/
def State.boNext (s : State) (c : Csma) : Csma :=
  let late := (s.now : Int) - (s.boundary c - s.ccaLead c.lane)
  if 0 < late then { c with k := c.k + ((late + s.boUnit - 1) / s.boUnit).toNat } else c

/-- k grows by a uniform draw of 0 to 2^BE − 1, which is free; a boundary that no longer fits the span stops the loop. The
boundaries of an IMMEDIATE descriptor are counted from its take. -/
def csmaDraw (c : Csma) (s : State) : State :=
  let (d, s) := s.draw
  let c := { c with k := c.k + Config.freeNat d % 2 ^ c.be }
  let c := if c.link.isNone then s.boNext c else c
  if s.boFits c then setCsma c s else stopCsma c s

/-- A busy assessment, or an LBT refusal. -/
def csmaBusy (c : Csma) (s : State) : State :=
  let c := { c with nb := c.nb + 1, be := min (c.be + 1) s.maxBe }
  if s.maxBo < c.nb then descEnd c.idx msCafail s else csmaDraw { c with k := c.k + 1 } s

/-- CSMA of a descriptor starts, or goes on from an earlier occurrence. -/
def csmaStart (i lane : Nat) (link : Option Nat) (base : Int) (spanEnd : Option Int) (s : State) : State :=
  let c : Csma := { idx := i, link := link, spanEnd := spanEnd, lane := lane, base := base, be := s.minBe }
  csmaDraw (match (s.desc i).bind (·.loop) with
    | some o => { c with nb := o.nb, be := o.be, deferred := o.deferred, deferDone := o.deferDone }
    | none => c) s

/-- The energy of a channel: NOW, or the power sum of the members of a bonded one (R202). -/
def State.channelEnergy (s : State) (l : Nat) : Int :=
  let now (n : Nat) : Int := s.getI (LOOM_NRG.NOW n)
  let b := bondLanes (s.laneF l LOOM_LANE.BOND)
  if b = 1 then now l else powerSum ((List.range b).map (fun k => now (l + k)))

/-- R270: the channel is busy. -/
def State.ccaBusy (s : State) (l : Nat) : Bool :=
  let m := s.get MAC_CSMA.CCAMODE
  let st := s.get (LOOM_SENT.STATE l)
  (bitOf m 0 && decide (s.getI MAC_RADIO.CCATHR ≤ s.channelEnergy l))
    || (bitOf m 1 && (st == sentPreamble || st == sentFrame || st == sentLocked))

/-- R271: some channel has a packet in PAYLOAD. -/
def State.anyPayload (s : State) : Bool := s.loom.packets.any (fun p => p.st == .payload)

/-- IMMEDIATE: boundaries are counted from the take (R270). -/
def startImmediate (i : Nat) (s : State) : State :=
  let l := s.dF i 6 1
  if !(s.planChan l) then noLane s
  else csmaStart i l none s.now none s

/-- R270: the assessment of a descriptor's boundary. -/
def ccaAssess (i : Nat) (s : State) : State :=
  match s.mac.csma.find? (fun c => c.idx == i) with
  | none => s
  | some c =>
    if ((s.desc i).map (·.active)).getD true then s
    else if !s.macTx || s.heldDesc i then stopCsma c s
    else if s.on MAC_CFG.DEFERRX && !c.deferDone && s.anyPayload then setCsma { c with deferred := true } s
    else
      -- a boundary whose assessment has passed in a deferral gives way to the next one
      let c := if c.deferred then s.boNext c else c
      if !(s.boFits c) then stopCsma c s
      else if s.ccaBusy c.lane then csmaBusy c s
      else
        let s := setCsma c s
        let r := handDesc i c.lane 6 (c.link.getD 64) (s.boundary c - s.shrCounts (s.laneMode c.lane)) s
        if r.2 || (r.1.desc i).isNone then r.1
        else match c.link with
          | some _ => dropCsma i r.1
          | none => csmaDraw { c with k := c.k + 1 } r.1

/-! ## Bursts (R288) -/

/-- The chips of a number's low 16 bits, Manchester-coded, most significant bit first: a 1 is on then off (R286). -/
def manchester (v : Nat) : List Bool := (List.range 16).flatMap (fun k => let b := bitOf v (15 - k); [b, !b])

/-- PRE. -/
def State.preChips (s : State) : Nat := max 8 (min 64 (s.get MAC_ZBURST.PRE))

/-- R288: the chips of a burst to a Zephyr address: PRE alternating from on, the local SYNC, the address. -/
def State.burstChips (s : State) (addr : Nat) : List Bool :=
  (List.range s.preChips).map (fun k => k % 2 == 0) ++ manchester (s.get ZEPH_CTRL.SYNC) ++ manchester addr

/-- A ZBURST goes to the chain, unscheduled. -/
def startZburst (i : Nat) (s : State) : State :=
  let l := s.dF i 6 1
  if !(s.planChan l) then noLane s
  else
    let air := (s.preChips + 64) * 500
    let first : Int := (s.now : Int) + us (50 + s.txSetup)
    let iv := s.txInterval first (us air)
    if !s.macTx || s.heldDesc i then s
    else if s.outranked 6 64 [iv] then conflict s
    else
      let s := skipLower 6 64 [iv] s
      let s := s.modMac (fun m => { m with acts := m.acts ++ [⟨6, 64, iv.1, iv.2, false, some i⟩] })
      let s := s.modDesc i (fun d => { d with active := true, txAt := s.ntAtCount first, lane := l })
      txOffer (.desc i)
        { start := none, centre := s.laneKHz l, mode := none, power := signedOf 8 (s.dF i 7 1)
          offset := if s.isPeer (s.dF i 4 2) then signedOf 16 (eN (s.entry (s.dF i 4 2)) 22 2) else 0
          prio := s.dFlag i 3, airtime := air, ack := false, chips := s.burstChips (s.dF i 14 2) } s

/-- IMMEDIATE and ZBURST descriptors that are ready start when nothing of theirs runs. -/
def macPump (s : State) : State :=
  if !s.macTx then s
  else
    let s := takeDescs 300 s
    s.headDescs.foldl (fun s i =>
      match s.desc i with
      | some d =>
        if d.active || s.mac.csma.any (fun c => c.idx == i) || s.heldDesc i then s
        else if s.dF i 1 1 = dkImm then startImmediate i s
        else if s.dF i 1 1 = dkZburst then startZburst i s
        else s
      | none => s) s

/-! ## The end of a request (R269, R281) -/

/-- FOLLOW (R288), once the burst's descriptor `i` has ended: the next descriptor of the ring is an IMMEDIATE one to the same peer: its first symbol lies ZGAP after
the burst, without CSMA. -/
def followOn (i : Nat) (burstEnd : Int) (s : State) : State :=
  let n := (i + 1) % s.txqLen
  if s.dFlag i 2 && s.readyDescs.contains n && s.dF n 1 1 == dkImm && s.dF n 4 2 == s.dF i 4 2 then
    let s := takeDescs 300 s
    let l := s.dF n 6 1
    if (s.desc n).isNone then s
    else if !(s.planChan l) then noLane s
    else (handDesc n l 6 64 (burstEnd + us (max 1000 (s.get MAC_ZBURST.ZGAP))) s).1
  else s

/-- The chain has ended a request of the MAC. `first` is the network time of its first symbol, `air` its airtime in µs. -/
def descTxEnded (i st : Nat) (s : State) : State :=
  let act := s.mac.acts.find? (fun a => a.desc == some i)
  let s := s.modMac (fun m => { m with acts := m.acts.filter (fun a => !(a.desc == some i)) })
  match s.desc i with
  | none => s
  | some d =>
    let inCsma := s.mac.csma.find? (fun c => c.idx == i)
    let idle (s : State) : State := s.modDesc i (fun d => { d with active := false })
    let kind := s.dF i 1 1
    if st = txLate ∨ st = txLockFail then descIdle i s
    else if st = txLbt ∧ inCsma.isSome then
      match inCsma with
      | some c => csmaBusy c (idle s)
      | none => s
    else if st ≠ txSent then descEnd i st s
    else
      let s := s.modDesc i (fun d => { d with tries := d.tries + 1, txTime := d.txAt })
      let e : Int := match act with
        | some a => a.toAt - us (s.rampT + s.get RFTX_SEQ.PALAG + s.get RFTX_SEQ.TRLAG + 80)
        | none => (s.now : Int)
      -- the interval stays taken until 80 µs after the last TX sample
      let s := match act with
        | some a => s.modMac (fun m => { m with acts := m.acts ++ [{ a with desc := none }] })
        | none => s
      if kind = dkZburst then followOn i e (descEnd i txSent s)
      else if kind = dkBeacon then descEnd i txSent (s.put MAC_IRQ.BCNSENT 1)
      else if s.dFlag i 0 then
        let lane := d.lane
        let w := s.ackWindow (s.laneMode lane) e
        s.modMac (fun m => { m with wins := m.wins ++
          [{ kind := .ackWait i, fromAt := w.1, toAt := w.2, expect := w.1 + s.ackGuard, lanes := [lane], peer := s.dF i 4 2 }] })
      else descEnd i txSent s

/-- Requests that the chain has ended go back to the MAC, which may start others. -/
def macSettle : Nat → State → State
  | 0, s => s
  | fuel + 1, s =>
    match s.tx.done with
    | [] => s
    | (o, st) :: rest =>
      let s := s.modTx (fun t => { t with done := rest })
      let s := match o with
        | .desc i => descTxEnded i st s
        | .beacon (some i) => descTxEnded i st s
        | .beacon none => if st = txSent then s.put MAC_IRQ.BCNSENT 1 else s
        | .ack | .outside => s
      macSettle fuel (macPump s)

/-- The MAC takes what the chain has ended, and starts what it can. -/
def macGo (s : State) : State := macSettle 64 (macPump s)

/-! ## Own beacons (R272) -/

/-- The slot is a beacon slot. -/
def State.beaconSlot (s : State) (slot : Nat) : Bool :=
  let per := s.ml MAC_BCNSLOT.BCNPER Reg.MAC_BCNSLOT_LIVE
  let per := if per = 0 then 4096 else per
  s.ml MAC_BCNCFG.EN Reg.MAC_BCNCFG_LIVE == 1 && slot % per == s.ml MAC_BCNSLOT.BCNOFS Reg.MAC_BCNSLOT_LIVE

/-- The content of the Lamyn time IE: vendor ID, subtype, network time of the SFD end, TIER, validity (R272). -/
def State.timeIe (s : State) (sfd : Int) : List Byte :=
  s.mac.vendor ++ [0x01] ++ leBytes 8 (s.ntAtCount sfd) ++ leBytes 1 (s.get MAC_PARENT.TIER) ++ leBytes 1 s.qual

/-- The oldest ready BEACON descriptor. -/
def State.beaconDesc (s : State) : Option Nat :=
  s.readyDescs.find? (fun i => s.dF i 1 1 == dkBeacon && !(((s.desc i).map (·.active)).getD false))

/-- The interval of the own beacon of a slot, when the slot holds one. -/
def State.ownBeacon (s : State) (slot : Nat) : Option (Int × Int) :=
  if s.beaconSlot slot && s.ml MAC_BCNCFG.ROLE Reg.MAC_BCNCFG_LIVE == 0 && (s.beaconDesc.isSome || s.mac.lastBeacon.isSome) then
    let l := s.ml MAC_BCNCFG.LANE Reg.MAC_BCNCFG_LIVE
    let mode := s.laneMode l
    let n := match s.beaconDesc with
      | some i => s.dPsduLen i
      | none => (s.mac.lastBeacon.map (fun b => b.body.length + 10)).getD 0
    some (s.txInterval (s.slotStart slot + s.txOfs - s.shrCounts mode) (s.shrCounts mode + frameCounts mode n))
  else none

/-- The secured octets of a beacon resent with a new counter; none when it must wait for one. -/
def resealBeacon (b : BeaconMem) (body : List Byte) (s : State) : Option (List Byte) × State :=
  if !(bitOf b.flags 1) then (some (withFcs body), s)
  else match parseOut body with
    | none => (some (withFcs body), s)
    | some m =>
      let e := s.entry b.peer
      match (if s.isPeer b.peer then s.frameKey m (eN e 6 1) else none), takeCounter (eN e 7 1) s with
      | none, _ => (none, s)
      | some _, (none, s) => (none, s)
      | some key, (some c, s) =>
        let body := match m.ctrAt with
          | some o => ePut body o 4 c
          | none => body
        (some (withFcs (frameSeal { m with counter := c } key (macNonce s.ownExt c m.level) body)), s)

/-- R272: the own beacon of a slot. -/
def sendBeacon (slot : Nat) (s : State) : State :=
  let l := s.ml MAC_BCNCFG.LANE Reg.MAC_BCNCFG_LIVE
  match s.ownBeacon slot with
  | none => s
  | some iv =>
    if !(s.planChan l) then noLane s
    else if s.outranked 2 0 [iv] then conflict s
    else
      let sfd := s.slotStart slot + s.txOfs
      let first := sfd - s.shrCounts (s.laneMode l)
      let act (i : Option Nat) (s : State) : State :=
        (skipLower 2 0 [iv] s).modMac (fun m => { m with acts := m.acts ++ [⟨2, 0, iv.1, iv.2, false, i⟩] })
      match s.beaconDesc with
      | some i =>
        let s := if (s.desc i).isNone then takeDesc i s else s
        if (s.desc i).isNone then s
        else
          let body := ePut (s.dBody i) (s.dF i 14 2) 14 (leNat (s.timeIe sfd))
          let mem : BeaconMem := ⟨s.dBody i, s.dF i 14 2, s.dF i 2 1, s.dF i 4 2, signedOf 8 (s.dF i 7 1)⟩
          match buildFrame i body s with
          | (s, .inl st) => descEnd i st s
          | (s, .inr false) => s
          | (s, .inr true) =>
            let s := (act (some i) s).modMac (fun m => { m with lastBeacon := some mem })
            let s := s.modDesc i (fun d => { d with active := true, txAt := s.ntAtCount sfd, lane := l })
            txOffer (.beacon (some i)) (s.frameReq l mem.peer (((s.desc i).bind (·.psdu)).getD []).length mem.power (bitOf mem.flags 3) false first) s
      | none =>
        match s.mac.lastBeacon with
        | none => s
        | some b =>
          match resealBeacon b (ePut b.body b.arg 14 (leNat (s.timeIe sfd))) s with
          | (none, s) => s
          | (some psdu, s) => txOffer (.beacon none) (s.frameReq l b.peer psdu.length b.power (bitOf b.flags 3) false first) (act none s)

/-! ## Windows (R261, R275) -/

/-- R275: the half-width of a window of the time parent centred at `c`. -/
def State.guard (s : State) (c : Int) : Int :=
  let since : Int := c - (s.mac.lastSync.getD 0 : Nat)
  (us (10 * max 1 (s.get MAC_BCNTRK.GBASE)) : Nat) + (max 1 (s.get MAC_BCNTRK.DRIFT) : Nat) * (max 0 since) / 1000000

/-- R275: the half-width in force: at least 2,000 µs in SEARCH. -/
def State.halfWidth (s : State) (c : Int) : Int :=
  if s.get MAC_BSTAT.STATE = bsSearch then max (s.guard c) (us 2000) else s.guard c

/-- A window opens; the shown half-width is that of the last window (MAC_BSTAT.GUARD). -/
def openWindow (w : RxWin) (half : Option Int) (s : State) : State :=
  let s := match half with
    | some h => s.put MAC_BSTAT.GUARD (min 65535 (h / 250).toNat)
    | none => s
  s.modMac (fun m => { m with wins := m.wins ++ [w] })

/-- R275: the lanes of a SEARCH window around BL. -/
def State.searchLanes (s : State) (bl : Nat) : List Nat :=
  let lo := min 88 (bl - 3)
  ((List.range 8).map (fun k => lo + k)).filter (fun l => s.isChannel l && s.laneF l LOOM_LANE.MSET == s.laneF bl LOOM_LANE.MSET)

/-- The interval of the window for the parent's beacon of a slot, when the slot holds one. -/
def State.parentBeacon (s : State) (slot : Nat) : Option (Int × Int) :=
  let st := s.get MAC_BSTAT.STATE
  if s.beaconSlot slot && s.ml MAC_BCNCFG.ROLE Reg.MAC_BCNCFG_LIVE == 1 && (st == bsTrack || st == bsSearch) then
    let c := s.slotStart slot + s.txOfs
    some (c - s.halfWidth c, c + s.halfWidth c + 1)
  else none

/-- R275, R276: the beacon window of a slot. Of the actions that overlap it those of a lower rank are called back; one that
outranks it, or has begun, skips the window. -/
def beaconWindow (slot : Nat) (s : State) : State :=
  let l := s.ml MAC_BCNCFG.LANE Reg.MAC_BCNCFG_LIVE
  match s.parentBeacon slot with
  | none => s
  | some iv =>
    if !(s.planChan l) then noLane s
    else
      let hits := s.mac.acts.filter (fun a => decide ((s.now : Int) < a.toAt) && overlaps iv.1 iv.2 a.fromAt a.toAt)
      if hits.any (fun a => decide (a.rank < 3) || !(s.callable a)) then conflict s
      else
        let s := hits.foldl (fun s a => callBack a s) s
        let c := s.slotStart slot + s.txOfs
        openWindow ⟨.beacon, iv.1, iv.2, c, if s.get MAC_BSTAT.STATE = bsSearch then s.searchLanes l else [l],
          s.get MAC_PARENT.ENTRY, false⟩ (some (s.halfWidth c)) s

/-- The receive window of a link in a slot: centred with GUARD for the time parent, else the link's span (log entry 23). -/
def linkWindow (slot : Nat) (n : Nat) (s : State) : State :=
  let lane := s.linkLane n slot
  if !(s.planChan lane) then s
  else
    let t0 := s.slotStart slot
    let c := t0 + s.txOfs
    let parent := s.on MAC_PARENT.EN && s.linkB n MAC_LINKB.PEER == s.get MAC_PARENT.ENTRY
    let shared := s.linkA n MAC_LINKA.TYPE == lkShared
    let h := s.halfWidth c
    let iv : Int × Int := if parent && !shared then (c - h, c + h + 1) else (t0, t0 + s.spanCounts n)
    if s.mac.acts.any (fun a => overlaps iv.1 iv.2 a.fromAt a.toAt) then conflict s
    else openWindow ⟨.link n shared, iv.1, iv.2, c, [lane], s.linkB n MAC_LINKB.PEER, false⟩ (if parent && !shared then some h else none) s

/-- Windows and intervals that have ended are forgotten; windows of links stay 500 ms longer, for frames whose SFD fell in
them, beacon windows and acknowledgement waits until their close is decided. -/
def macExpire (s : State) : State :=
  s.modMac (fun m => { m with
    acts := m.acts.filter (fun a => decide ((s.now : Int) < a.toAt) || a.desc.isSome)
    wins := m.wins.filter (fun w => decide ((s.now : Int) < w.toAt) || (match w.kind with
      | .link _ _ => decide ((s.now : Int) < w.toAt + us 500000)
      | _ => true)) })

/-- R261: the TX link `n` in a slot, ranked behind a beacon of the part or of its parent in that slot. -/
def txLink (slot n : Nat) (s : State) : State :=
  let lane := s.linkLane n slot
  let cand := s.headDescs.find? (fun i => s.dF i 1 1 == dkLink && s.dF i 4 2 == s.linkB n MAC_LINKB.PEER && !(s.heldDesc i)
    && ((s.desc i).map (fun d => !d.active)).getD false)
  match cand with
  | none => s
  | some i =>
    let mode := s.laneMode lane
    let first := s.slotStart slot + s.txOfs - s.shrCounts mode
    if !(s.planChan lane) || !(s.fits mode (s.dPsduLen i) (s.dFlag i 0) first (s.slotStart slot + s.spanCounts n)) then s
    else
      let air := s.shrCounts mode + frameCounts mode (s.dPsduLen i)
      let iv := s.txInterval first air
      let aw := s.ackWindow mode (first + air)
      let own (b : Int × Int) : Bool := overlaps iv.1 iv.2 b.1 b.2 || (s.dFlag i 0 && overlaps aw.1 aw.2 b.1 b.2)
      let parents (b : Int × Int) : Bool := overlaps iv.1 iv.2 b.1 b.2
      if ((s.ownBeacon slot).map own).getD false || ((s.parentBeacon slot).map parents).getD false then conflict s
      else (handDesc i lane 5 n first s).1

/-- R261: CSMA on the SHARED link `n` in a slot. -/
def sharedLink (slot n : Nat) (s : State) : State :=
  let lane := s.linkLane n slot
  let any := s.linkB n MAC_LINKB.ANY == 1
  let cand := s.headDescs.find? (fun i => s.dF i 1 1 == dkShared && (any || s.dF i 4 2 == s.linkB n MAC_LINKB.PEER) && !(s.heldDesc i)
    && ((s.desc i).map (fun d => !d.active)).getD false && !(s.mac.csma.any (fun c => c.idx == i)))
  match cand with
  | none => s
  | some i =>
    if !(s.planChan lane) then s
    else csmaStart i lane (some n) (s.slotStart slot + s.txOfs) (some (s.slotStart slot + s.spanCounts n)) s

/-- R261, R264, R265: the links that occur in the slot that begins: each occurrence without a lane counts once; then TX links,
CSMA of SHARED links, windows. -/
def slotLinks (s : State) : State :=
  let slot := s.schedSlot
  let s := macExpire s
  let occ := s.linksIn lkTx slot ++ s.linksIn lkShared slot ++ s.linksIn lkRx slot
  let s := (occ.filter (fun n => !(s.planChan (s.linkLane n slot)))).foldl (fun s _ => noLane s) s
  let s := if s.macTx then
      let s := (s.linksIn lkTx slot).foldl (fun s n => txLink slot n s) (takeDescs 300 s)
      (s.linksIn lkShared slot).foldl (fun s n => sharedLink slot n s) s
    else s
  if s.on MAC_CFG.COORD then s
  else (s.linksIn lkRx slot ++ s.linksIn lkShared slot).foldl (fun s n => linkWindow slot n s) s

/-- R272, R275: the beacon slot that begins. -/
def slotBeacon (s : State) : State :=
  let slot := s.schedSlot
  let s := macExpire s
  if !(s.beaconSlot slot) then s
  else if s.ml MAC_BCNCFG.ROLE Reg.MAC_BCNCFG_LIVE = 1 then beaconWindow slot s
  else if s.macTx then sendBeacon slot s
  else s

end Sys2Proof.Machine
end

