-- ==== Sys2Proof/Machine/MacRx.lean ====
section
/-! DEFINITION. Machine/MacRx.lean: receiving a frame: the steps of R277, acknowledgements (R279, R280), resynchronisation
(R273), the table update (R321), the record (R282), and what a standby does instead (R490, R494, R495). -/
namespace Sys2Proof.Machine

/-! ## Addresses (R277 steps 2 and 3) -/

/-- The destination is broadcast: the short address 0xFFFF, or no address at all (log entry 23). -/
def Mhr.broadcast (m : Mhr) : Bool := m.dst.mode == 0 || (m.dst.mode == 2 && m.dst.addr == 0xFFFF)

/-- Step 2: the frame is broadcast, or for the part's PAN and short or extended address. -/
def State.forMe (s : State) (m : Mhr) : Bool :=
  let pan := s.get MAC_ADDR.PANID
  let short := s.get MAC_ADDR.SHORT
  let panOk := match m.dst.pan with
    | none => true
    | some p => p == pan || p == 0xFFFF
  m.broadcast || (panOk && ((m.dst.mode == 2 && decide (short < 0xFFFE) && m.dst.addr == short)
    || (m.dst.mode == 3 && m.dst.addr == s.ownExt)))

/-- A frame's instant lies in a window, on one of its lanes. -/
def RxWin.has (w : RxWin) (f : RxFrame) : Bool :=
  decide (w.fromAt ≤ (f.rxTime : Int)) && decide ((f.rxTime : Int) < w.toAt) && w.lanes.contains f.lane

/-- Step 3, R321: the PEER entry of the source. An acknowledgement that names no source is looked for under the peer whose
acknowledgement is awaited on its lane (log entry 23). -/
def State.srcPeer (s : State) (m : Mhr) (f : RxFrame) : Option Nat :=
  if m.src.mode = 3 then s.findExt kPeer m.src.addr
  else if m.src.mode = 2 then s.findShort kPeer ((m.src.pan).getD (s.get MAC_ADDR.PANID)) m.src.addr
  else if m.typ = 2 then
    (s.mac.wins.find? (fun w => (match w.kind with
      | .ackWait _ => true
      | _ => false) && w.has f && s.isPeer w.peer)).map (·.peer)
  else none

/-- Step 5: the clear frame under a key slot, its MIC checked (R299). -/
def State.openWith (s : State) (m : Mhr) (slot ext : Nat) (b : List Byte) : Option (List Byte) :=
  (s.frameKey m slot).bind (fun key => frameOpen m key (macNonce ext m.counter m.level) b)

/-- The extended address of the source: the frame's, else the entry's. -/
def State.srcExt (s : State) (m : Mhr) (peer : Nat) : Nat := if m.src.mode = 3 then m.src.addr else eN (s.entry peer) 8 8

/-! ## Windows (R273) -/

/-- The slot that holds a count. -/
def State.slotAt (s : State) (c : Int) : Nat :=
  let c := c - s.schedOfs
  if s.freeRun then ((s.tick.bnd : Int) + (c - (s.tick.startAt : Int)).fdiv 250000).toNat / 10 else s.ntAtCount c * 100 / 2 ^ 32

/-- R266: the windows of links that a coordinator's receive side has without ranking them, around a frame. -/
def State.implicitWins (s : State) (f : RxFrame) : List RxWin :=
  if !(s.on MAC_CFG.COORD) then []
  else
    let s0 := s.slotAt f.rxTime
    (List.range 64).flatMap (fun n =>
      let t := s.linkA n MAC_LINKA.TYPE
      if s.linkOn n && (t == lkRx || t == lkShared) then
        (List.range (s.linkA n MAC_LINKA.SPAN + 1)).filterMap (fun k =>
          if k ≤ s0 ∧ s.linkOccurs n (s0 - k) then
            let t0 := s.slotStart (s0 - k)
            some ⟨.link n (t == lkShared), t0, t0 + s.spanCounts n, t0 + s.txOfs, [s.linkLane n (s0 - k)], s.linkB n MAC_LINKB.PEER, false⟩
          else none)
      else [])

/-- The window of a peer in which a frame arrived; an acknowledgement wait comes before the others. -/
def State.frameWin (s : State) (f : RxFrame) (peer : Nat) : Option RxWin :=
  let ws := (s.mac.wins ++ s.implicitWins f).filter (fun w => w.has f && w.peer == peer)
  (ws.find? (fun w => match w.kind with
    | .ackWait _ => true
    | _ => false)).or ws.head?

/-- The link of a window. -/
def RxWin.linkNo (w : RxWin) : Nat := match w.kind with
  | .link n _ => n
  | _ => 0xFFFF

/-- RXTIME less the expected SFD end; of a SHARED link reduced modulo BOUNIT into half of it on either side. -/
def State.winOff (s : State) (w : RxWin) (f : RxFrame) : Int :=
  let d := (f.rxTime : Int) - w.expect
  match w.kind with
  | .link _ true => (d + s.boUnit / 2).emod s.boUnit - s.boUnit / 2
  | _ => d

/-- The network time of a Lamyn time IE (R272). -/
def State.ieTime (s : State) (m : Mhr) : Option Nat :=
  (m.ies.find? (fun e => e.1 == 0 && e.2.length == 14 && e.2.take 3 == s.mac.vendor && fN e.2 3 1 == 1)).map (fun e => fN e.2 4 8)

/-- The Time Correction IE: its value in µs and NACK. -/
def Mhr.tc (m : Mhr) : Option (Int × Bool) :=
  (m.ies.find? (fun e => e.1 == 0x1E && e.2.length == 2)).map (fun e => (signedOf 12 (fN e.2 0 2), bitOf (fN e.2 0 2) 15))

/-- R273: the residual of a parent frame, in counts. The table gives none for a frame without time IE in a beacon window, and a
time IE names no instant while network time is not valid: there the residual is free. -/
def State.residual (s : State) (m : Mhr) (w : RxWin) (f : RxFrame) : Int × State :=
  let known : Option Int := match m.typ, s.ieTime m with
    | 0, some t => if s.time.valid then some ((f.rxTime : Int) - s.countAtNt t - s.schedOfs) else none
    | _, _ => match w.kind with
      | .link _ _ => some (s.winOff w f)
      | .ackWait _ => match (if m.typ = 2 then m.tc else none) with
        | some t => some (-t.1 * 250)
        | none => some (s.winOff w f)
      | .beacon => none
  match known with
  | some d => (d, s)
  | none =>
    let (n, s) := s.draw
    ((Config.freeWord n).toInt, s)

/-- R321: DRIFT of the time-parent entry, on a resynchronisation at least 1 s after the last. -/
def driftUpdate (peer : Nat) (d : Int) (rx : Nat) (s : State) : State :=
  match s.mac.lastSync with
  | some l =>
    let n : Int := (rx : Int) - l
    if 250000000 ≤ n then
      let e := s.entry peer
      let old := signedOf 16 (eN e 24 2)
      let r := roundDiv (100000000 * d) n
      tblPut peer (ePut e 24 2 (wrapInt 16 (clampInt (-32768) 32767 (old + (r - old).fdiv (2 ^ min 4 (s.get TBL_CFG.FSH)))))) s
    else s
  | none => s

/-- R273: a frame of the time parent in one of its windows resynchronises the part. The Bool says whether it did. -/
def resync (m : Mhr) (peer : Nat) (f : RxFrame) (s : State) : State × Bool :=
  let st := s.get MAC_BSTAT.STATE
  if !(s.on MAC_PARENT.EN) || s.get MAC_PARENT.ENTRY != peer || !(st == bsTrack || st == bsSearch) then (s, false)
  else match s.frameWin f peer with
    | none => (s, false)
    | some w =>
        let (d, s) := s.residual m w f
        let s := if s.standby then s else driftUpdate peer d f.rxTime s
        let s := (s.putI MAC_SCHEDOFS.OFS (s.schedOfs + d)).put MAC_IRQ.RESYNC 1
        let s := (s.put MAC_BSTAT.STATE bsTrack).put MAC_BSTAT.MISS 0
        let beacon := m.typ == 0
        let s := s.modMac (fun x => { x with
          lastSync := some f.rxTime
          wins := x.wins.map (fun w => if beacon && w.kind == .beacon && w.has f then { w with got := true } else w) })
        let s := if beacon && (s.ieTime m).isSome then measurement 2 (4 * s.schedOfs - s.getI TIME_DLY.BCNDLY) s else s
        (s, true)

/-! ## Acknowledgements (R279, R280) -/

/-- The Time Correction value for a frame, in µs. -/
def State.tcValue (s : State) (peer : Nat) (f : RxFrame) : Int :=
  match s.frameWin f peer with
  | some w => clampInt (-2047) 2047 (roundDiv (-(s.winOff w f)) 250)
  | none => 0

/-- The octets of an acknowledgement before security: sequence number, destination, auxiliary header, Time Correction IE
(log entry 23). -/
def ackBody (m : Mhr) (ctr : Nat) (ie : Option Nat) : List Byte :=
  let fcf := 2 + b2n m.sec * 8 + b2n (m.src.mode != 0) * 64 + b2n m.seq.isNone * 256 + b2n ie.isSome * 512 + 1024 * m.src.mode + 8192
  leBytes 2 fcf ++ (match m.seq with
    | some q => leBytes 1 q
    | none => [])
    ++ leBytes (addrLen m.src.mode) m.src.addr
    ++ (if m.sec then leBytes 1 (m.level + 8 * m.keyMode) ++ leBytes 4 ctr ++ m.keySrc ++ (if m.keyMode = 0 then [] else leBytes 1 m.keyIdx) else [])
    ++ (match ie with
      | some v => leBytes 2 (2 + 0x1E * 128) ++ leBytes 2 v
      | none => [])

/-- R279: the acknowledgement of a frame is built and cached; none when no counter or key can be had now. -/
def buildAck (m : Mhr) (peer : Nat) (nack : Bool) (tc : Int) (s : State) : Option (List Byte) × State :=
  let ie := if s.on MAC_CFG.ACKTC then some (wrapInt 12 tc + 32768 * b2n nack) else if nack then some 32768 else none
  let keep (psdu : List Byte) (s : State) : State :=
    let l := s.mac.acks ++ [⟨peer, if m.sec then some m.counter else none, psdu⟩]
    s.modMac (fun x => { x with acks := l.drop (l.length - 64) })
  if !m.sec then
    let p := withFcs (ackBody m 0 ie)
    (some p, keep p s)
  else
    let e := s.entry peer
    match s.frameKey m (eN e 6 1), takeCounter (eN e 7 1) s with
    | some key, (some c, s) =>
      let body := ackBody m c ie
      let mh : Mhr := { m with typ := 2, ver := 2, counter := c, len := body.length, ies := [] }
      let p := withFcs (frameSeal mh key (macNonce s.ownExt c m.level) body)
      (some p, keep p s)
    | _, (_, s) => (none, s)

/-- The count of the first symbol of a frame's acknowledgement (R279). -/
def State.ackFirst (s : State) (f : RxFrame) : Int :=
  (f.rxTime : Int) + rxFrameCounts f.mode f.rate f.psdu.length (bitOf f.flags 1) (s.rb (0x200FF000 + 32 * f.mset + 6) != 0) + s.ackTurn

/-- The acknowledgement was not sent in time. -/
def ackLate (s : State) : State := (s.sat (MAC_CNT.HI 4)).put MAC_IRQ.ACKLATE 1

/-- R233: a request that waits for its time stands back in the chain for one that comes before it. -/
def txStandBack (s : State) : State :=
  match s.tx.job with
  | some j => if j.phase == .waiting && j.req.start.isSome then s.modTx (fun t => { t with job := none, queue := (j.owner, j.req) :: t.queue }) else s
  | none => s

/-- R279, R265: an acknowledgement goes to the chain as rank 1. The Bool says whether it went. -/
def sendAck (peer : Nat) (f : RxFrame) (psdu : List Byte) (s : State) : State × Bool :=
  let first := s.ackFirst f
  if first - us 150 < (s.now : Int) then (ackLate s, false)
  else
    let air := s.shrCounts f.mode + frameCounts f.mode psdu.length
    let iv := s.txInterval first air
    let hits := s.mac.acts.filter (fun a => decide ((s.now : Int) < a.toAt) && overlaps iv.1 iv.2 a.fromAt a.toAt)
    if hits.any (fun a => decide (a.rank ≤ 1) || !(s.callable a)) then (conflict s, false)
    else
      let s := hits.foldl (fun s a => callBack a s) s
      let s := skipWins (fun w => decide ((s.now : Int) < w.fromAt) && overlaps iv.1 iv.2 w.fromAt w.toAt) s
      let s := s.modMac (fun x => { x with acts := x.acts ++ [⟨1, 64, iv.1, iv.2, false, none⟩] })
      let e := s.entry peer
      let r : TxReq :=
        { start := some (BitVec.ofNat 64 (s.ntAtCount first)), centre := s.laneKHz f.lane, mode := some (BitVec.ofNat 4 f.mode)
          power := s.getI MAC_RADIO.ACKPWR, offset := if s.isPeer peer then signedOf 16 (eN e 22 2) else 0
          prio := false, airtime := usUp air, ack := true }
      let s := txStandBack s
      (txKick (s.modTx (fun t => { t with queue := (.ack, r) :: t.queue })), true)

/-- R279: a frame is acknowledged; the time correction sent, if it went. A standby sends none (R285). -/
def acknowledge (m : Mhr) (peer : Nat) (nack : Bool) (f : RxFrame) (s : State) : State × Option (Option Int) :=
  if !s.macTx then (s, none)
  else
    let tc := s.tcValue peer f
    match buildAck m peer nack tc s with
    | (none, s) => (ackLate s, none)
    | (some psdu, s) => match sendAck peer f psdu s with
      | (s, true) => (s, some (if s.on MAC_CFG.ACKTC then some tc else if nack then some 0 else none))
      | (s, false) => (s, none)

/-- R280: a duplicate is answered from the cache, or not at all. -/
def ackAgain (m : Mhr) (peer : Nat) (f : RxFrame) (s : State) : State :=
  if !s.macTx then s
  else match s.mac.acks.reverse.find? (fun a => a.peer == peer && a.counter == some m.counter) with
    | some a => (sendAck peer f a.psdu s).1
    | none => s.sat (MAC_CNT.LO 4)

/-! ## Step 8: the table (R321) -/

/-- One write of the entry of an accepted frame. -/
def peerHeard (peer : Nat) (f : RxFrame) (s : State) : State :=
  let e := s.entry peer
  let fl := eN e 1 1
  let lq := eN e 20 1
  let lq' : Int := if bitOf fl 3 then (lq : Int) + ((f.lqi : Int) - lq).fdiv 8 else f.lqi
  let fofs := signedOf 16 (eN e 22 2)
  let fofs' : Int := match f.e with
    | some x =>
      let x := clampInt (-32768) 32767 (x + f.trim)
      if bitOf fl 5 then fofs + (x - fofs).fdiv (2 ^ min 4 (s.get TBL_CFG.FSH)) else x
    | none => fofs
  let fl' := fl % 8 + 8 + (if f.e.isSome then 32 else fl / 32 % 2 * 32) + fl / 64 * 64
  let e := ePut (ePut (ePut (ePut e 1 1 fl') 20 1 (wrapInt 8 lq')) 21 1 (wrapInt 8 (clampInt (-128) 127 (roundDiv f.rssi 4)))) 22 2 (wrapInt 16 fofs')
  let e := if s.time.valid then ePut e 28 4 (s.ntAtCount f.rxTime / 2 ^ 24 % 2 ^ 32) else e
  tblPut peer e s

/-! ## The record (R282) -/

/-- FLAGS bits 6 and 7 of a pair. -/
def flagPossdup : Nat := 0x40
def flagFwd : Nat := 0x80

/-- E of a frame that passes none: the spec states no value, so a free one. -/
def recordE (f : RxFrame) (s : State) : Nat × State :=
  match f.e with
  | some x => (wrapInt 16 (clampInt (-32768) 32767 x), s)
  | none => let (n, s) := s.draw; (Config.freeNat n % 65536, s)

/-- The record of a frame: header and octets, padded to a multiple of 8. -/
def State.record (s : State) (f : RxFrame) (flags peer ctr e : Nat) (tc : Option Int) (link : Nat) (octets : List Byte) : List Byte :=
  let n := octets.length
  let size := (48 + n + 7) / 8 * 8
  let nt := if s.time.valid then s.ntAtCount f.rxTime else 0
  leBytes 2 size ++ leBytes 1 1 ++ leBytes 1 f.status ++ leBytes 2 flags ++ leBytes 2 n ++ leBytes 2 peer ++ leBytes 1 f.lane
    ++ leBytes 1 f.mode ++ leBytes 2 (wrapInt 16 f.rssi) ++ leBytes 1 f.snr ++ leBytes 1 f.lqi ++ leBytes 4 ctr ++ leBytes 2 e
    ++ leBytes 2 (match tc with
      | some t => wrapInt 16 t
      | none => 0x8000)
    ++ leBytes 8 (f.rxTime % 2 ^ 64) ++ leBytes 8 nt ++ leBytes 4 (s.slotAt ((f.rxTime : Int) + s.schedOfs) % 2 ^ 32) ++ leBytes 2 link
    ++ [0, 0] ++ octets ++ List.replicate (size - 48 - n) 0

/-- Bytes of the record of a frame of `n` octets. -/
def recordSize (n : Nat) : Nat := (48 + n + 7) / 8 * 8

/-- CLIP and MSW of a record. -/
def RxFrame.marks (f : RxFrame) : Nat := b2n (bitOf f.flags 0) + b2n (bitOf f.flags 5) * 2

/-- A frame ends NOBUF (R222). -/
def noBuf (f : RxFrame) (s : State) : State := countStatus stNobuf f.lane f.pkt s

/-! ## A standby (R285, R490, R494, R495) -/

/-- R494: a frame from the pair address whose MIC passes under a slot with FRAME and the frame's KEYID: its block is held. -/
def standbyTrack (m : Mhr) (b : List Byte) (s : State) : State :=
  if m.sec && m.src.mode == 3 && m.src.addr == s.ownExt then
    (List.range 32).foldl (fun s n =>
      if m.keyMode != 0 && (s.openWith m n m.src.addr b).isSome then holdBlock n (m.counter / 1024 * 1024) s else s) s
  else s

/-- The hold ring lies in control SRAM and is on. -/
def State.holdOn (s : State) : Bool := s.on TWIL_HOLD.EN && inSram (32768 * s.get TWIL_HOLD.ADDR) 32768

/-- The oldest records give way until the rest fit the ring. -/
def holdTrim : List HeldFrame → List HeldFrame
  | [] => []
  | h :: t => if 32768 < ((h :: t).map (fun x => x.record.length)).foldl (· + ·) 0 then holdTrim t else h :: t

/-- R495: a frame enters the hold ring. -/
def holdFrame (h : HeldFrame) (s : State) : State :=
  if s.holdOn then s.modTwil (fun t => { t with held := holdTrim (t.held ++ [h]) })
  else (s.sat TWIL_CNT1.HOLDDROP).put TWIL_IRQ.HOLDDROP 1

/-- R490: a standby forwards a frame that fell in an announced blanking interval. -/
def forward (f : RxFrame) (s : State) : State :=
  let nt := s.ntAtCount f.rxTime
  if s.on TWIL_STAT.LINK && s.on TWIL_CFG.FWD && s.twil.txb.any (fun x => decide (0 ≤ ntDiff nt x.1) && decide (0 ≤ ntDiff x.2 nt)) then
    twUnseq 0x15 (leBytes 8 nt ++ f.desc ++ f.psdu) (s.sat TWIL_CNT1.FWD)
  else s

/-! ## The end of the pipeline -/

/-- R281: an acknowledgement that matches ends its descriptor, or fails the try when it says NACK. -/
def ackMatch (m : Mhr) (peer : Nat) (f : RxFrame) (s : State) : State :=
  match s.mac.wins.findSome? (fun w => match w.kind with
    | .ackWait i => if w.has f && (w.peer == peer || w.peer == 65535) && ((s.desc i).map (fun d => d.seq == m.seq)).getD false then some i else none
    | _ => none) with
  | none => s
  | some i => if (m.tc.map (·.2)).getD false then tryFailed i msNack s else descEnd i txSent s

/-- R287: the first frame accepted on the handoff lane within the window and addressed to the part. -/
def handoff (m : Mhr) (f : RxFrame) (s : State) : State :=
  match s.mac.hand with
  | some e => if !m.broadcast ∧ f.lane = s.get ZEPH_HAND.LANE ∧ s.now ≤ e then (s.modMac (fun x => { x with hand := none })).put MAC_IRQ.ZHAND 1 else s
  | none => s

/-- The last accepted counter of an entry (R278). -/
def putLast (peer ctr : Nat) (s : State) : State := tblPut peer (ePut (s.entry peer) 16 4 ctr) s

/-- Steps 7 to 9 of an accepted frame of `octets`. -/
def accept (fwd : Bool) (m : Mhr) (peer : Option Nat) (octets : List Byte) (f : RxFrame) (s : State) : State :=
  let p := peer.getD 0xFFFF
  let reply := m.ar && !m.broadcast
  let fl := f.marks + b2n (!m.sec) * 4 + b2n fwd * flagFwd
  let ctr := if m.sec then m.counter else 0
  let link := ((s.frameWin f p).map RxWin.linkNo).getD 0xFFFF
  if s.standby then
    -- R490, R495: no delivery, no table update
    let s := forward f s
    let s := (resync m p f s).1
    let (e, s) := recordE f s
    holdFrame ⟨s.tick.bnd, p, ctr, s.record f fl p ctr e none link octets⟩ s
  else if m.typ = 2 then
    let s := match peer with
      | some i => peerHeard i f (if m.sec then putLast i ctr s else s)
      | none => s
    ackMatch m p f (resync m p f s).1
  else if !(s.rxqFits (recordSize octets.length)) then
    noBuf f (if reply then (acknowledge m p true f s).1 else s)
  else
    let s := match peer with
      | some i => if m.sec then putLast i ctr s else s
      | none => s
    let (s, ack) := if reply then acknowledge m p false f s else (s, none)
    let (s, par) := resync m p f s
    let s := match peer with
      | some i => peerHeard i f s
      | none => s
    let s := handoff m f s
    let fl := fl + b2n ack.isSome * 16 + b2n par * 32
    let (e, s) := recordE f s
    rxqAssist f.pkt f.lane (s.record f fl p ctr e (ack.getD none) link octets) s

/-- A failure that MAC_IRQ.SECERR reports (R278). -/
def secErr (cnt : Field) (s : State) : State := (s.sat cnt).put MAC_IRQ.SECERR 1

/-- R277: the steps on one frame; `fwd` says that the partner forwarded it (R491). -/
def rxFrame (fwd : Bool) (f : RxFrame) (s : State) : State :=
  let fcs := if bitOf f.flags 3 then 2 else 4
  let b := f.psdu.take (f.psdu.length - fcs)
  let plainRecord (flags peer : Nat) (s : State) : State :=
    if s.standby then s
    else if !(s.rxqFits (recordSize b.length)) then noBuf f s
    else
      let (e, s) := recordE f s
      rxqAssist f.pkt f.lane (s.record f flags peer 0 e none 0xFFFF b) s
  if f.status ≠ stDone then
    if s.standby then s
    else if !(s.rxqFits (recordSize b.length)) then noBuf f s
    else
      let (e, s) := recordE f s
      rxqWrite (s.record f f.marks 0xFFFF 0 e none 0xFFFF b) s
  else match parseMhr b with
    | none => s.sat (MAC_CNT.HI 2)
    | some m =>
      let s := if s.standby then standbyTrack m b s else s
      let tbl := s.on SYSC_CLKGATE.TBL
      if !(s.forMe m) then
        let s := s.sat (MAC_CNT.LO 2)
        if s.on MAC_CFG.SNOOP then plainRecord (f.marks + b2n (!m.sec) * 4 + 8) ((if tbl then s.srcPeer m f else none).getD 0xFFFF) s else s
      else if !tbl then secErr (MAC_CNT.LO 1) s
      else
        let peer := s.srcPeer m f
        if !m.sec then
          if s.on MAC_CFG.ACCUNSEC then accept fwd m peer b f s else s
        else match peer with
          | none => secErr (MAC_CNT.LO 1) s
          | some i =>
            match s.openWith m (eN (s.entry i) 6 1) (s.srcExt m i) b with
            | none => secErr (MAC_CNT.HI 1) s
            | some plain =>
              let last := eN (s.entry i) 16 4
              if m.counter < last then secErr (MAC_CNT.HI 0) s
              else if m.counter = last then
                let s := (s.sat (MAC_CNT.LO 0)).put MAC_IRQ.DUP 1
                let s := if m.ar && !m.broadcast then ackAgain m i f s else s
                (resync m i f s).1
              else accept fwd m (some i) plain f s

/-- MAC_RX_FRAME: the oldest frame that the intake handed over. -/
def macRxFrame (s : State) : State :=
  match s.demod.done with
  | [] => s
  | f :: rest => if s.radioOn then macGo (rxFrame false f { s with demod := { s.demod with done := rest } }) else s

end Sys2Proof.Machine
end

