-- ==== Sys2Proof/Machine/MacRows.lean ====
section
/-! DEFINITION. Machine/MacRows.lean: the commands of the MAC and the Zephyr (chapter 12), the MAC's commit check (R263)
and MAC_NEXTWAKE (R283). -/
namespace Sys2Proof.Machine

/-- An event of the MAC in a powered RADIO domain. -/
def onMac (f : State → State) (s : State) : Out := .next (if s.radioOn then macGo (f s) else s)

/-- R261: links occur in the slot that begins. -/
def execLinkOccurrence (s : State) : Out := onMac slotLinks s

/-- R272, R275: the beacon slot. -/
def execBeaconSlot (s : State) : Out := onMac slotBeacon s

/-- R267: HEAD is written. -/
def txqHeadWrite (head : BitVec 8) (s : State) : State := macGo (s.put MAC_TXQPTR.HEAD head.toNat)

def execTxqHeadWrite (head : BitVec 8) (s : State) : Out := .next (viaBus Reg.MAC_TXQPTR (txqHeadWrite head) s)

/-- R270: the assessment of a descriptor's back-off boundary. -/
def execCcaAssess (desc : BitVec 8) (s : State) : Out := onMac (ccaAssess desc.toNat) s

/-- R271: DEFERMAX × 100 µs after its first deferral a descriptor is deferred no more; an assessment that waits is made. -/
def deferExpiry (i : Nat) (s : State) : State :=
  match s.mac.csma.find? (fun c => c.idx == i) with
  | some c =>
    if !c.deferred then s
    else
      let s := setCsma { c with deferDone := true } s
      if s.boundary c - s.ccaLead c.lane ≤ (s.now : Int) then ccaAssess i s else s
  | none => s

def execDeferExpiry (desc : BitVec 8) (s : State) : Out := onMac (deferExpiry desc.toNat) s

/-- R277: the oldest frame from the intake. -/
def execMacRxFrame (s : State) : Out := .next (macRxFrame s)

/-- A packet whose SFD fell in a window has not ended, or its frame has not been processed. -/
def State.winPending (s : State) (w : RxWin) : Bool :=
  let inside (t : Nat) (l : Nat) : Bool := decide (w.fromAt ≤ (t : Int)) && decide ((t : Int) < w.toAt) && w.lanes.contains l
  s.loom.packets.any (fun p => (p.sfdAt.map (fun t => inside t p.lane)).getD false) || s.demod.done.any (fun f => w.has f)

/-- R276: the parent is lost: descriptors held for it end. -/
def parentLost (s : State) : State :=
  let s := (s.put MAC_BSTAT.STATE bsLost).put MAC_IRQ.LOST 1
  let ds := (s.mac.descs.filter (fun d => !d.active && s.toParent d.idx)).map (·.idx)
  ds.foldl (fun s i => descEnd i msParentlost s) s

/-- R275, R276: a beacon window is missed. -/
def beaconMissed (s : State) : State :=
  let st := s.get MAC_BSTAT.STATE
  if st = bsTrack then
    let n := satInc 255 (s.get MAC_BSTAT.MISS)
    let s := s.put MAC_BSTAT.MISS n
    if 3 ≤ n then (s.put MAC_BSTAT.STATE bsSearch).put MAC_IRQ.DOUBT 1 else s
  else if st = bsSearch then
    let n := satInc 255 (s.get MAC_BSTAT.MISS)
    let s := s.put MAC_BSTAT.MISS n
    if max 4 (s.get MAC_BCNTRK.LOSTN) ≤ n then parentLost s else s
  else s

/-- R275: the oldest beacon window closes, unless a packet of it is still to end. -/
def rxWindowClose (s : State) : State :=
  match s.mac.wins.find? (fun w => w.kind == .beacon) with
  | none => s
  | some w =>
    if s.winPending w then s
    else
      let s := s.modMac (fun x => { x with wins := x.wins.erase w })
      if w.got then s else beaconMissed s

def execRxWindowClose (s : State) : Out := onMac rxWindowClose s

/-- R281: the acknowledgement wait of a descriptor closes without a match. -/
def ackWaitClose (i : Nat) (s : State) : State :=
  match s.mac.wins.find? (fun w => w.kind == .ackWait i) with
  | none => s
  | some w => if s.winPending w then s else tryFailed i msNoack s

def execAckWaitClose (desc : BitVec 8) (s : State) : Out := onMac (ackWaitClose desc.toNat) s

/-- R276: MAC_PARENT is written. -/
def parentWrite (d : Word) (s : State) : State :=
  let s := s.plainWrite Reg.MAC_PARENT d
  macGo (if s.on MAC_PARENT.EN then (s.put MAC_BSTAT.STATE bsSearch).put MAC_BSTAT.MISS 0 else s.put MAC_BSTAT.STATE bsNone)

def execParentWrite (data : Word) (s : State) : Out := .next (viaBus Reg.MAC_PARENT (parentWrite data) s)

/-! ## The Zephyr (R286, R287) -/

/-- R287: the handoff window closes: ZTIMEOUT. -/
def handClose (s : State) : State := (s.modMac (fun x => { x with hand := none })).put MAC_IRQ.ZTIMEOUT 1

/-- R287: an open handoff window whose LANE is no channel closes at once, counted NOLANE. -/
def handCheck (s : State) : State :=
  if s.mac.hand.isSome && !(s.planChan (s.get ZEPH_HAND.LANE)) then noLane (handClose s) else s

/-- R287: the handoff window opens at the present count. -/
def handOpen (s : State) : State :=
  let s := s.modMac (fun x => { x with hand := some (s.now + us (1000 * max 1 (min 1000 (s.get ZEPH_HAND.WIN)))), handPend := false })
  if s.radioOn then handCheck s else s

/-- The Zephyr is on and hears: not in off, and not while its own part transmits (R286). -/
def State.zephHears (s : State) : Bool := s.on ZEPH_CTRL.EN && s.power.st != .off && s.power.st != .reset && !s.loom.blankTx

/-- R286: the chips of a signature that differ from a sync word's. -/
def syncErrors (heard : List Bool) (sync : Nat) : Nat := ((heard.zip (manchester sync)).filter (fun x => x.1 != x.2)).length

/-- R286: the lowest enabled entry whose address the 32 address chips spell: 16 valid pairs of its value. -/
def State.zephEntry (s : State) (chips : List Bool) : Option (Fin 8) :=
  (List.finRange 8).find? (fun i => s.on (ZEPH_ADDR.EN i) && chips == manchester (s.get (ZEPH_ADDR.ADDR i)))

/-- R287: entry `i` has matched: flags, wake, and the handoff window; during entry it opens at the entry's end (R97), whether or
not SYSC_WAKEEN.ZEPH lets the match wake the part (log entry 44). -/
def zephMatched (i : Fin 8) (s : State) : State :=
  let s := ((s.sat ZEPH_STAT.MATCH).put ZEPH_STAT.LASTIDX i).put ZEPH_IRQ.MATCH 1
  let s := match s.power.st with
    | .draining _ | .saving _ => s.modMac (fun x => { x with handPend := true })
    | .run | .idle => if s.radioOn then handOpen s else s
    | _ => if s.wakeEnabled .zeph then handOpen s else s
  wake .zeph s

/-- R286: the Zephyr has heard 64 chips, the first in bit 63: a sync with at most SYNCERR chip errors (at most 4), then an
address. -/
def zephMatch (chips : BitVec 64) (s : State) : State :=
  let l := (List.range 64).map (fun k => chips.getLsbD (63 - k))
  if !s.zephHears || decide (min 4 (s.get ZEPH_CTRL.SYNCERR) < syncErrors (l.take 32) (s.get ZEPH_CTRL.SYNC)) then s
  else match s.zephEntry (l.drop 32) with
    | some i => zephMatched i s
    | none => s.sat ZEPH_STAT.SYNCONLY

def execZephyrMatch (chips : BitVec 64) (s : State) : Out := .next (zephMatch chips s)

/-- R287: WIN has passed without a frame. -/
def execZephyrHandoffTimeout (s : State) : Out := .next (if s.radioOn && s.mac.hand.isSome then handClose s else s)

/-- R286: a sync without a matching address. -/
def execZephyrSynconly (s : State) : Out := .next (if s.zephHears then s.sat ZEPH_STAT.SYNCONLY else s)

/-! ## The commit check (R263) -/

/-- The hop entries in use. -/
def State.hopLanes (s : State) : List Nat := (List.range (min 16 (s.ml MAC_HOPCFG.LEN Reg.MAC_HOPCFG_LIVE))).map s.hopEntry

/-- R263: the check of a candidate whose live registers hold the pending sets: the first failure's code. -/
def macCheck (s : State) : Option Nat :=
  let on := (List.range 64).filter (fun n => s.linkA n MAC_LINKA.EN == 1)
  let hops := on.any (fun n => s.linkA n MAC_LINKA.HOP == 1)
  let sfEn (n : Nat) : Bool := s.get ((MAC_SF.EN (s.linkA n MAC_LINKA.SF)).at (Reg.MAC_SF_LIVE (s.linkA n MAC_LINKA.SF))) == 1
  let hopLen := s.ml MAC_HOPCFG.LEN Reg.MAC_HOPCFG_LIVE
  let bcn := s.ml MAC_BCNCFG.EN Reg.MAC_BCNCFG_LIVE == 1
  let ofs := s.ml MAC_TIMING.TXOFS Reg.MAC_TIMING_LIVE
  let turn := s.ml MAC_TIMING.ACKTURN Reg.MAC_TIMING_LIVE
  let per := s.ml MAC_BCNSLOT.BCNPER Reg.MAC_BCNSLOT_LIVE
  if on.any (fun n => !(sfEn n)) then some 0x10
  else if on.any (fun n => decide (s.sfLen (s.linkA n MAC_LINKA.SF) < s.linkA n MAC_LINKA.SLOTOFS + (s.linkA n MAC_LINKA.SPAN + 1))) then some 0x11
  else if on.any (fun n => s.linkA n MAC_LINKA.TYPE == 3) then some 0x12
  else if hops && (hopLen == 0 || s.hopLanes.any (fun l => decide (95 < l))) then some 0x13
  else if on.any (fun n => s.linkA n MAC_LINKA.HOP == 0 && !(s.planChan (s.linkA n MAC_LINKA.CHAN)))
      || (hops && s.hopLanes.any (fun l => !(s.planChan l)))
      || (bcn && !(s.planChan (s.ml MAC_BCNCFG.LANE Reg.MAC_BCNCFG_LIVE))) then some 0x14
  else if ofs < 500 ∨ 8000 < ofs ∨ turn < 400 ∨ 1000 < turn ∨ s.ml MAC_TIMING.ACKGUARD Reg.MAC_TIMING_LIVE < 20 then some 0x15
  else if bcn && decide ((if per = 0 then 4096 else per) ≤ s.ml MAC_BCNSLOT.BCNOFS Reg.MAC_BCNSLOT_LIVE) then some 0x16
  else none

/-! ## The next wake (R283) -/

/-- The first slots from `cur` on with a remainder, three of them, within the next 4,096. -/
def slotsFrom (cur per ofs : Nat) : List Nat :=
  let first := cur + (ofs + per - cur % per) % per
  ([first, first + per, first + 2 * per]).filter (fun n => decide (n ≤ cur + 4096) && decide (ofs < per))

/-- The earliest instants to come of the actions, less their wake margins, in counts. -/
def State.wakeInstants (s : State) : List Int :=
  let cur := s.schedSlot
  let due (at_ margin : Int) : Option Int := if (s.now : Int) ≤ at_ then some (at_ - margin) else none
  let shr (l : Nat) : Int := s.shrCounts (s.laneMode l)
  let bst := s.get MAC_BSTAT.STATE
  let bl := s.ml MAC_BCNCFG.LANE Reg.MAC_BCNCFG_LIVE
  let per := s.ml MAC_BCNSLOT.BCNPER Reg.MAC_BCNSLOT_LIVE
  let beacons : List Int :=
    if (bst == bsTrack || bst == bsSearch) && s.ml MAC_BCNCFG.EN Reg.MAC_BCNCFG_LIVE == 1 && s.ml MAC_BCNCFG.ROLE Reg.MAC_BCNCFG_LIVE == 1 then
      ((slotsFrom cur (if per = 0 then 4096 else per) (s.ml MAC_BCNSLOT.BCNOFS Reg.MAC_BCNSLOT_LIVE)).findSome? (fun n =>
        let c := s.slotStart n + s.txOfs
        due (c - s.halfWidth c - shr bl) (us (100 * s.get MAC_BCNTRK.WAKEOFS)))).toList
    else []
  let links : List Int := ((List.range 64).filter s.linkOn).flatMap (fun l =>
    let t := s.linkA l MAC_LINKA.TYPE
    let peer := s.linkB l MAC_LINKB.PEER
    let margin : Int := us (100 * s.linkB l MAC_LINKB.WAKEOFS)
    let slots := slotsFrom cur (s.sfLen (s.linkA l MAC_LINKA.SF)) (s.linkA l MAC_LINKA.SLOTOFS)
    let rx : Option Int :=
      if (t == lkRx || t == lkShared) && !(s.on MAC_CFG.COORD) then
        slots.findSome? (fun n =>
          let c := s.slotStart n + s.txOfs
          let parent := s.on MAC_PARENT.EN && peer == s.get MAC_PARENT.ENTRY && t == lkRx
          let opening := if parent then c - s.halfWidth c else s.slotStart n
          due (opening - shr (s.linkLane l n)) margin)
      else none
    let ready := s.headDescs.any (fun i => !(s.heldDesc i) &&
      ((t == lkTx && s.dF i 1 1 == dkLink && s.dF i 4 2 == peer)
        || (t == lkShared && s.dF i 1 1 == dkShared && (s.linkB l MAC_LINKB.ANY == 1 || s.dF i 4 2 == peer))))
    let tx : Option Int :=
      if (t == lkTx || t == lkShared) && ready then
        slots.findSome? (fun n => due (s.slotStart n + s.txOfs - shr (s.linkLane l n) - us (s.txSetup + 120)) margin)
      else none
    rx.toList ++ tx.toList)
  beacons ++ links

/-- R283: MAC_NEXTWAKE at a tick; all ones when there is no next action, or no network time to name it in. -/
def nextWake (s : State) : State :=
  let v : Nat := match s.wakeInstants with
    | [] => 2 ^ 64 - 1
    | c :: cs => if s.time.valid then s.ntAtCount (cs.foldl min c) else 2 ^ 64 - 1
  (s.setReg Reg.MAC_NEXTWAKE_LO (BitVec.ofNat 32 v)).setReg Reg.MAC_NEXTWAKE_HI (BitVec.ofNat 32 (v / 2 ^ 32))

end Sys2Proof.Machine
end

