-- ==== Sys2Proof/Machine/Ring.lean ====
section
/-! DEFINITION. Machine/Ring.lean: the Selvage ring (chapter 21): states, ports, frames, the cycle, queues. A command that
delivers a frame carries what arrived at the primary input; what the part puts on its outputs stands in `RingSt.sent`. -/
namespace Sys2Proof.Machine

/-! ## State -/

/-- RING_STAT.STATE (R447). -/
def rgBypass : Nat := 0
def rgListen : Nat := 1
def rgJoin : Nat := 2
def rgClaim : Nat := 3
def rgMember : Nat := 4
def rgRun : Nat := 5
def rgManager : Nat := 6

/-- The state of the ring block. -/
def State.rg (s : State) : Nat := s.get RING_STAT.STATE

/-- Change of the ring block's own state. -/
def State.modRing (s : State) (f : RingSt → RingSt) : State := { s with ring := f s.ring }

/-- A part with a position (R435): RUN or MANAGER. -/
def State.numbered (s : State) : Bool := s.rg == rgRun || s.rg == rgManager

/-- The switches are open and the part acts on frames (R447). -/
def State.inRing (s : State) : Bool := decide (rgClaim ≤ s.rg)

/-- Own position. -/
def State.pos (s : State) : Nat := s.get RING_STAT.POS

/-- The extended address of the part itself (R448; log entry 25). -/
def State.factoryExt (s : State) : Nat := 2 ^ 32 * ((s.reg Reg.ID_EXTADDR_HI).toNat) + (s.reg Reg.ID_EXTADDR_LO).toNat

/-- The output of the primary direction: W_TX while the east port is wrapped (R444). -/
def State.primaryOut (s : State) : Nat := b2n (s.on RING_STAT.WRAPE)

/-- The port of the primary input: 1 west, 0 east while wrapped. -/
def State.primaryIn (s : State) : Nat := if s.on RING_STAT.WRAPW then 0 else 1

/-- SRC of the part's frames. -/
def State.ringSrc (s : State) : Nat := if s.numbered then s.pos else 0xFE

/-- A frame goes out on a port. -/
def ringPut (f : RingOut) (s : State) : State := s.modRing (fun r => { r with sent := r.sent ++ [f] })

/-- R434: a frame of the part's own goes out in the primary direction. -/
def ringSend (typ dst flags : Nat) (payload : List Byte) (s : State) : State :=
  let f : RingOut := { typ := typ, src := s.ringSrc, dst := dst, flags := flags % 16 + s.ring.epoch % 16 * 16,
                       seq := s.ring.seq, payload := payload, port := s.primaryOut }
  ringPut f (s.modRing (fun r => { r with seq := (r.seq + 1) % 65536 }))

/-- The port's own state. -/
def State.rport (s : State) (k : Nat) : RingPortSt := if k = 0 then s.ring.east else s.ring.west
def setRport (k : Nat) (p : RingPortSt) (s : State) : State :=
  s.modRing (fun r => if k = 0 then { r with east := p } else { r with west := p })

/-! ## Queues of firmware (R451) -/

/-- The descriptor ring is served. -/
def State.ringTxOn (s : State) : Bool := s.on RING_TXQBASE.EN && inSram (s.get RING_TXQBASE.ADDR * 256) 256

/-- The address of descriptor `i`. -/
def State.ringDesc (s : State) (i : Nat) : Nat := s.get RING_TXQBASE.ADDR * 256 + 16 * (i % 16)

/-- Descriptors between TAIL and HEAD, oldest first, that are ready. -/
def State.ringReady (s : State) : List Nat :=
  if s.ringTxOn then
    let n := (s.get RING_TXQPTR.HEAD + 16 - s.get RING_TXQPTR.TAIL) % 16
    ((List.range n).map (fun k => (s.get RING_TXQPTR.TAIL + k) % 16)).filter (fun i => s.rb (s.ringDesc i) == 1)
  else []

/-- Statuses of R451. -/
def rdSent : Nat := 1
def rdBaddesc : Nat := 2
def rdNopos : Nat := 3
def rdFlushed : Nat := 4

/-- TAIL advances over ended descriptors. -/
def ringTail (fuel : Nat) (s : State) : State :=
  match fuel with
  | 0 => s
  | n + 1 =>
    if s.get RING_TXQPTR.TAIL ≠ s.get RING_TXQPTR.HEAD ∧ s.rb (s.ringDesc (s.get RING_TXQPTR.TAIL)) = 2 then
      ringTail n (s.put RING_TXQPTR.TAIL (s.get RING_TXQPTR.TAIL + 1))
    else s

/-- A descriptor ends: TICK, STATUS, then STATE. -/
def ringEnd (i status : Nat) (s : State) : State :=
  let d := s.ringDesc i
  let s := ((s.wn (d + 12) 4 s.ring.tick).wn (d + 6) 1 status).wn d 1 2
  ringTail 16 (s.put RING_IRQ.TXDONE 1)

/-- The payload limit of a slot (R439): 12.5 × SLOT − 60. -/
def State.ringLimit (s : State) : Nat := 25 * RING_PLAN.SLOT.of s.ring.plan / 2 - 60

/-- A descriptor's fields. -/
def State.rdTyp (s : State) (i : Nat) : Nat := s.rn (s.ringDesc i + 1) 1
def State.rdLen (s : State) (i : Nat) : Nat := s.rn (s.ringDesc i + 4) 2
def State.rdAddr (s : State) (i : Nat) : Nat := s.rn (s.ringDesc i + 8) 4

/-- R451: a descriptor has a bad TYPE, LEN or ADDR. -/
def State.rdBad (s : State) (i : Nat) : Bool :=
  let t := s.rdTyp i
  !(t == 0x10 || t == 0x11 || t == 0x20) || decide ((if t = 0x20 then 1024 else s.ringLimit) < s.rdLen i)
    || !(inSram (s.rdAddr i) (s.rdLen i))

/-- A descriptor's frame goes out. -/
def ringSendDesc (i : Nat) (s : State) : State :=
  let t := s.rdTyp i
  let mask := if t = 0x10 then 2 else if t = 0x20 then 4 else 0
  ringEnd i rdSent (ringSend t (s.rn (s.ringDesc i + 2) 1) (s.rn (s.ringDesc i + 3) 1 &&& mask)
    (s.bytes (s.rdAddr i) (s.rdLen i)) s)

/-- Every ready descriptor ends with a status. -/
def ringEndAll (status : Nat) (s : State) : State := s.ringReady.foldl (fun s i => ringEnd i status s) s

/-- R451: without a position every ready descriptor ends NOPOS. -/
def ringNopos (s : State) : State := if s.numbered then s else ringEndAll rdNopos s

/-- R439, R440: descriptors of the class go out, oldest first, while their frames end within `room` half symbols; `used` is
what the window has used so far, `first` whether the next frame is the one that R439's limit leaves room for. Bad ones
end BADDESC. -/
def ringServe (room : Nat) (l : List Nat) (used : Nat) (first : Bool) (s : State) : State :=
  match l with
  | [] => s
  | i :: l =>
    if s.rdBad i then ringServe room l used first (ringEnd i rdBaddesc s)
    else
      let used' := used + 2 * ((if used = 0 then 0 else 12) + 14 + s.rdLen i)
      if used' ≤ room || first then ringServe room l used' false (ringSendDesc i s) else s

/-- A position's bulk request (R440): a ready BULK descriptor. -/
def State.bulkReady (s : State) : Bool := s.ringReady.any (fun i => s.rdTyp i == 0x20 && !(s.rdBad i))

/-- Bytes of the receive ring (R451, as R282). -/
def State.rrxSize (s : State) : Nat := 4096 * 2 ^ min 6 (s.get RING_RXQBASE.SIZE)

/-- R451: a frame enters the receive queue; without room it is dropped. -/
def ringDeliver (typ : Nat) (h : RingHdr) (payload : List Byte) (s : State) : State :=
  let size := s.rrxSize
  let base := 4096 * s.get RING_RXQBASE.ADDR
  if !(s.on RING_RXQBASE.EN) || !(inSram base size) then s
  else
    let wr := 8 * s.get RING_RXQPTR.WR % size
    let d := (8 * s.get RING_RXQPTR.RD % size + size - wr) % size
    let n := 8 + (payload.length + 7) / 8 * 8
    match rxqPlace size (wr, if d = 0 then size else d) n with
    | none => s
    | some (next, _) =>
      let cross := decide (size < wr + n)
      let s := if cross then (s.wn (base + wr) 2 (size - wr)).wb (base + wr + 2) 0x02 else s
      let r := leBytes 2 n ++ leBytes 1 typ ++ leBytes 1 h.src.toNat ++ leBytes 1 h.flags.toNat ++ [0] ++
        leBytes 2 payload.length ++ payload ++ List.replicate (n - 8 - payload.length) 0
      let s := s.wbytes (base + if cross then 0 else wr) r
      (s.put RING_RXQPTR.WR (next / 8)).put RING_IRQ.RXQ 1

/-! ## Changes of state (R446, R447) -/

/-- A change of state with its interrupt; a part that loses its position ends its ready descriptors (R451). -/
def rgEnter (st : Nat) (s : State) : State :=
  if s.rg = st then s
  else
    let s := (s.put RING_STAT.STATE st).put RING_IRQ.STATE 1
    if st = rgMember || st = rgClaim then ringNopos s else s

/-- The switches open (R446). -/
def rgOpen (s : State) : State := { s with pins := { s.pins with bypass := false } }

/-- A write of RING_CFG with what a change of EN does (R446, R447, R451): EN = 0 closes the switches at once and flushes
the descriptors; the ports and what was learnt of the ring are forgotten. -/
def ringCfgWrite (d : Word) (s : State) : State :=
  let was := s.on RING_CFG.EN
  let s := s.plainWrite Reg.RING_CFG d
  if s.on RING_CFG.EN then
    if was then s else rgEnter rgListen (s.modRing (fun r => { r with cycAt := s.now }))
  else if was then
    let s := ringEndAll rdFlushed s
    let s := rgEnter rgBypass s
    let s := ((s.setReg Reg.RING_STAT 0).setReg (Reg.RING_PORT 0) 0).setReg (Reg.RING_PORT 1) 0
    { s with ring := { downs := s.ring.downs, epoch := s.ring.epoch, seq := s.ring.seq, sent := s.ring.sent },
             pins := { s.pins with bypass := true } }
  else s

/-- A write of RING_TXQPTR: HEAD advances; without a position the descriptors end at once. -/
def ringHeadWrite (d : Word) (s : State) : State :=
  ringNopos (s.put RING_TXQPTR.HEAD (RING_TXQPTR.HEAD.of d))

/-! ## Arrival of frames (R433 to R436) -/

/-- R433: a frame goes on in the primary direction. -/
def ringForward (typ : Nat) (h : RingHdr) (payload : List Byte) (s : State) : State :=
  ringPut { typ := typ, src := h.src.toNat, dst := h.dst.toNat, flags := h.flags.toNat, seq := h.seq.toNat,
            payload := payload, port := s.primaryOut, aborted := h.fate == .codeErr || h.fate == .aborted } s

/-- R436: a frame is removed: its SRC is the own position, or, in the manager, names no present position. -/
def State.ringStrips (s : State) (h : RingHdr) : Bool :=
  s.numbered && (h.src.toNat == s.pos
    || (s.rg == rgManager && !(s.ring.present.any (fun e => e.1 == h.src.toNat))))

/-- R436: addressed to the part. -/
def State.ringMine (s : State) (h : RingHdr) : Bool := h.dst.toNat == 0xFF || (s.numbered && h.dst.toNat == s.pos)

/-- What is counted of a frame that came in badly (R433, R435, R436): `mine` for one that would be copied. -/
def ringCount (mine : Bool) (h : RingHdr) (s : State) : State :=
  match h.fate with
  | .good => s
  | .badCrc => if mine then s.sat RING_CNT0.CRC else s
  | .badType => s.sat RING_CNT0.CRC
  | .aborted => s.sat RING_CNT0.ABORT
  | .codeErr => s.sat RING_CNT1.CODEERR

/-- A frame that arrives with TYPE, as it goes on (`out`), and what the part does with a copy of it. A part that is not in
the ring sees none. -/
def ringFrame (typ : Nat) (h : RingHdr) (out : State → List Byte) (mine : State → Bool) (act : State → State) (s : State) : State :=
  if !s.inRing then s
  else
    let own := s.numbered && h.src.toNat == s.pos
    let s1 := if s.ringStrips h then s else ringForward typ h (out s) s
    if own then s1
    else
      let s1 := ringCount (mine s) h s1
      if h.fate == .good && mine s then act s1 else s1

/-- A command of the ring block: with the domain on and EN = 1 (R447); its outputs begin afresh. -/
def onRing (f : State → State) (s : State) : State :=
  if s.ringOn && s.on RING_CFG.EN && s.clocked then f (s.modRing (fun r => { r with sent := [] })) else s

/-- R449: a service frame with another numbering epoch is discarded. -/
def ringService (h : RingHdr) (act : State → State) (s : State) : State :=
  if !s.numbered then s
  else if h.flags.toNat / 16 ≠ s.ring.epoch % 16 then s.sat RING_CNT1.STALE
  else act s

/-! ## The cycle (R437 to R440) -/

/-- R437: a CYCLE set with its two bytes arrives at the primary input. In the manager it is its own, back round the loop. -/
def cycleReceived (low : Nat) (s : State) : State :=
  if s.rg = rgManager then s.put RING_LAT.LAT (min 65535 (4 * (s.now - s.ring.cycAt)))
  else
    let s := if s.inRing then ringPut { typ := 0, src := 0, dst := 0xFF, flags := 0, seq := 0,
                                         payload := leBytes 2 low, port := s.primaryOut } s else s
    let s := s.modRing (fun r => { r with cyc := low, cycAt := s.now, present := r.seen, seen := [] })
    if s.rg = rgListen then rgEnter rgJoin s else s

/-- R447: no CYCLE for 3 ms or 3 cycles. -/
def cycleLoss (s : State) : State :=
  let cand := s.get RING_CFG.MGRPRI != 0
  if s.rg = rgListen then if cand then rgEnter rgClaim (rgOpen s) else s
  else if s.rg = rgMember ∨ s.rg = rgRun ∨ s.rg = rgManager then
    if cand then rgEnter rgClaim s else rgEnter rgMember s
  else s

/-- R438: the check of a candidate plan: the first failure's code. -/
def ringCheck (s : State) : Option Nat :=
  let p := s.reg Reg.RING_PLAN_LIVE
  let gap := RING_PLAN.GAP.of p
  let n := RING_PLAN.NSLOT.of p
  let slot := RING_PLAN.SLOT.of p
  let mgr := s.rg == rgManager
  if slot < 8 ∨ 40 < slot ∨ n < 1 ∨ 32 < n ∨ gap < 20 ∨ 200 < gap then some 0x10
  else if 1000 < 8 + n * slot + gap then some 0x11
  else if mgr ∧ 1000 * gap < 2 * s.get RING_LAT.LAT + 4000 then some 0x12
  else if mgr ∧ n < s.ring.present.length then some 0x13
  else none

/-- R440: the next owner of the bulk window: the first requester after the last owner. -/
def nextBulk (req : List Nat) (last : Nat) : Nat :=
  (((List.range 32).map (fun k => (last + 1 + k) % 32)).find? (fun p => req.contains p)).getD 0xFF

/-- The manager's claim rank (R448): MGRPRI, then the extended address. -/
def claimRank (pri ext : Nat) : Nat := pri * 2 ^ 64 + ext

/-- R437, R440, R441, R449: the manager's tick boundary: what it saw in the cycle that ends, NUMBER when the order has
changed or 100 cycles have passed, the bulk grant, CYCLE, and TIME 1 µs later. -/
def managerTick (s : State) : State :=
  let changed := s.ring.seen != s.ring.present
  let req := if s.bulkReady then s.pos :: s.ring.bulkReq else s.ring.bulkReq
  let own := nextBulk req s.ring.lastOwner
  let tk := (s.reg Reg.SYSC_TICK).toNat
  let plan := s.reg Reg.RING_PLAN_LIVE
  let due := s.ring.numDue || changed || decide (99 ≤ s.ring.numAge)
  let s := s.modRing (fun r => { r with
    present := r.seen, seen := [], bulkReq := [], bulkOwn := own, lastOwner := if own = 0xFF then r.lastOwner else own,
    epoch := if changed then (r.epoch + 1) % 65536 else r.epoch,
    numDue := due, numAge := r.numAge + 1, cyc := tk % 65536, cycAt := s.now, tick := tk, plan := plan })
  let s := if changed then endSess ringSess s else s
  let npos := s.ring.present.length
  let s := s.put RING_STAT.NPOS npos
  let s := ringPut { typ := 0, src := s.pos, dst := 0xFF, flags := 0, seq := 0, payload := leBytes 2 tk, port := s.primaryOut } s
  let origin := if s.time.valid then ((s.ntUnits (s.now + 250)).fdiv ntQ % 2 ^ 64).toNat else 0
  ringSend 0x01 0xFF 0 (leBytes 1 1 ++ leBytes 1 s.qual ++ leBytes 1 npos ++ leBytes 1 own ++ leBytes 4 plan.toNat ++
    leBytes 8 origin ++ leBytes 4 0 ++ leBytes 4 tk) s

/-- R448: a candidate's claim on its own tick. -/
def claimTick (s : State) : State :=
  ringSend 0x03 0xFF 0 (leBytes 1 (s.get RING_CFG.MGRPRI) ++ List.replicate 7 0 ++ leBytes 8 s.factoryExt) s

/-- What the ring block does at the part's tick boundary. -/
def ringTick (s : State) : State :=
  onRing (fun s => if s.rg = rgManager then managerTick s else if s.rg = rgClaim then claimTick s else s) s

/-! ## Time (R441, R442) -/

/-- What a TIME frame carries (R441). -/
def timePayload (qual npos bulk : Nat) (plan : Word) (origin : Nat) (corr : Int) (tick : Nat) : List Byte :=
  leBytes 1 1 ++ leBytes 1 qual ++ leBytes 1 npos ++ leBytes 1 bulk ++ leBytes 4 plan.toNat ++ leBytes 8 origin ++
    leBytes 4 (wrapInt 32 corr) ++ leBytes 4 tick

/-- R441: CORR as the part sends it on: plus its residence in counts of 4 ns and the DELAY of the input port, to 1 ps. -/
def corrOn (corr : Int) (resid delay : Nat) : Int := corr + roundDiv (8000 * resid + 125 * delay) 2

/-- R442: the reference time of a frame: ORIGIN + CORR + DELAY, 32.32. -/
def timeRef (origin : Nat) (corr : Int) (delay : Nat) : Nat :=
  wrapInt 64 (origin + roundDiv (2 ^ 32 * (2 * corr + 125 * delay)) 2000000000000)

/-- R437, R442: the TIME frame at the primary input; the present count is Crx. -/
def timeFrame (qual npos bulk : Nat) (plan : Word) (origin : Nat) (corr : Int) (tick resid : Nat) (s : State) : State :=
  let s := s.modRing (fun r => { r with plan := plan, bulkOwn := bulk, tick := tick })
  let s := (s.put RING_STAT.NPOS npos).put RING_LAT.RESID resid
  if !s.numbered then s
  else
    let k := s.primaryIn
    let ref_ := timeRef origin corr (s.get (RING_PORT.DELAY k))
    let s := ((s.setReg Reg.RING_TREF_LO (BitVec.ofNat 32 ref_)).setReg Reg.RING_TREF_HI (BitVec.ofNat 32 (ref_ / 2 ^ 32)))
    let s := ((s.setReg Reg.RING_TRXC_LO (BitVec.ofNat 32 s.now)).setReg Reg.RING_TRXC_HI (BitVec.ofNat 32 (s.now / 2 ^ 32)))
    let s := s.put RING_IRQ.TIME 1
    if s.on RING_CFG.TMEAS && bitOf qual 0 && s.on (RING_PORT.DVALID k) && s.time.valid then
      measurement 1 (roundDiv (1000000000 * ntDiff s.nt ref_) (2 ^ 32)) s
    else s

/-! ## Numbering (R448, R449) -/

/-- R449: NUMBER with its hop count and epoch. -/
def ringNumber (hop epoch : Nat) (s : State) : State :=
  if !(s.rg == rgMember || s.rg == rgRun) then s
  else
    let s := if epoch = s.ring.epoch then s else endSess ringSess (s.modRing (fun r => { r with epoch := epoch }))
    if hop < 32 then
      let moved := s.rg != rgRun || s.pos != hop
      let s := rgEnter rgRun ((s.put RING_STAT.POS hop).put RING_STAT.NOPOS 0)
      if moved then endSess ringSess (s.put RING_IRQ.POSCHG 1) else s
    else (rgEnter rgMember (s.put RING_STAT.NOPOS 1)).put RING_IRQ.NOPOS 1

/-- The hop count that goes on. -/
def hopOn (hop : Nat) : Nat := if hop < 32 then hop + 1 else hop

/-- R448: what a candidate does with a claim of a rank: a lower one is stripped, its own has won, to a higher one it
yields. -/
def ringClaim (rank own : Nat) (s : State) : State :=
  if rank = own then
    if s.rg = rgClaim then
      let moved := s.pos != 0
      let s := rgEnter rgManager ((s.put RING_STAT.POS 0).put RING_STAT.NOPOS 0)
      let s := s.modRing (fun r => { r with numDue := true, numAge := 0, seen := [], present := [], bulkReq := [], cycAt := s.now })
      if moved then endSess ringSess (s.put RING_IRQ.POSCHG 1) else s
    else s
  else if own < rank ∧ (s.rg = rgClaim ∨ s.rg = rgManager) then rgEnter rgMember s
  else s

/-- R435, R440, R449: a STATUS frame of a position. -/
def ringStatus (src ext : Nat) (bulk : Bool) (s : State) : State :=
  if 32 ≤ src then s
  else s.modRing (fun r => { r with
    seen := r.seen.filter (fun e => decide (e.1 < src)) ++ (src, ext) :: r.seen.filter (fun e => decide (src < e.1)),
    bulkReq := if bulk then src :: r.bulkReq.filter (fun p => p != src) else r.bulkReq })

/-! ## Slots and windows (R439, R440) -/

/-- R450: dictionary responses go out while they fit; the Bool says whether none has gone out before. -/
def ringReplies (room : Nat) (l : List RingResp) (used : Nat) (first : Bool) (s : State) : State :=
  match l with
  | [] => ringServe room (s.ringReady.filter (fun i => s.rdTyp i != 0x20)) used first s
  | x :: l =>
    let used' := used + 2 * (12 + 14 + x.payload.length)
    if used' ≤ room || first then
      let f : RingOut := { typ := x.typ, src := s.pos, dst := x.dst, flags := 2 * b2n (x.typ == 0x10) + s.ring.epoch % 16 * 16, seq := x.seq,
                           payload := x.payload, port := s.primaryOut }
      ringReplies room l used' false (ringPut f (s.modRing (fun r => { r with svcOut := r.svcOut.drop 1 })))
    else s

/-- R439: the part's own slot begins: STATUS, in the manager NUMBER when it is due, dictionary responses, then SVC and APP
frames from the transmit queue. Half symbols: 25 a µs. -/
def serviceSlot (s : State) : State :=
  if !s.numbered || decide (RING_PLAN.NSLOT.of s.ring.plan ≤ s.pos) then s
  else
    let wrap := s.get RING_STAT.WRAPE + 2 * s.get RING_STAT.WRAPW
    let bulk := s.bulkReady
    let s := ringStatus s.pos s.factoryExt false s
    let s := ringSend 0x04 0xFF (b2n bulk) (leBytes 8 s.factoryExt ++ leBytes 1 s.rg ++ leBytes 1 wrap ++ List.replicate 6 0) s
    let num := s.rg == rgManager && s.ring.numDue
    let s := if num then
        (ringSend 0x02 0xFF 0 (leBytes 1 1 ++ [0] ++ leBytes 2 s.ring.epoch) s).modRing (fun r => { r with numDue := false, numAge := 0 })
      else s
    let used := 2 * 30 + if num then 2 * (12 + 14 + 4) else 0
    ringReplies (25 * (RING_PLAN.SLOT.of s.ring.plan - 1)) s.ring.svcOut used (!num) s

/-- R440: the bulk window begins. -/
def bulkWindow (s : State) : State :=
  if s.numbered && s.ring.bulkOwn == s.pos then
    let p := s.ring.plan
    let len := 1000 - RING_PLAN.GAP.of p - (8 + RING_PLAN.NSLOT.of p * RING_PLAN.SLOT.of p)
    ringServe (25 * (len - 1)) (s.ringReady.filter (fun i => s.rdTyp i == 0x20)) 0 false s
  else s

/-- R439, R446: the gap begins: a joining part opens its switches; DREQ goes out on each port in every 16th cycle, which the
model takes as the cycles whose TICK is a multiple of 16 (log entry 25). -/
def ringGap (s : State) : State :=
  let s := if s.rg = rgJoin then rgEnter rgMember (rgOpen s) else s
  if s.inRing && s.ring.cyc % 16 == 0 then
    [0, 1].foldl (fun s k =>
      ringPut { typ := 0x30, src := s.ringSrc, dst := 0xFF, flags := 0, seq := 0, payload := [], port := k }
        (setRport k { s.rport k with t1 := some s.now } s)) s
  else s

/-- R439: a DREQ arrives at a port and is answered after `turn` counts. -/
def ringDreq (k turn : Nat) (s : State) : State :=
  ringPut { typ := 0x31, src := s.ringSrc, dst := 0xFF, flags := 0, seq := 0,
            payload := leBytes 8 s.now ++ leBytes 8 (s.now + turn), port := k } s

/-- R439: a DRSP arrives at a port: the delay of the exchange, the mean of the last 8, DVALID after 4. -/
def ringDrsp (k t2 t3 : Nat) (s : State) : State :=
  let p := s.rport k
  match p.t1 with
  | none => s
  | some t1 =>
    let d : Int := ((s.now : Int) - t1) - signedOf 64 (wrapInt 64 ((t3 : Int) - t2))
    let ds := (d :: p.delays).take 8
    let s := setRport k { p with t1 := none, delays := ds } s
    let mean := roundDiv (32 * ds.foldl (· + ·) 0) ds.length
    let s := s.put (RING_PORT.DELAY k) (clampInt 0 65535 mean).toNat
    if 4 ≤ ds.length then s.put (RING_PORT.DVALID k) 1 else s

/-! ## Breaks and wrap (R443 to R445) -/

/-- ISOL follows the ports. -/
def ringIsol (s : State) : State := s.putB RING_STAT.ISOL (!(s.on (RING_PORT.UP 0)) && !(s.on (RING_PORT.UP 1)))

/-- R443: a port goes down; `viol` code violations were found. -/
def portDown (k : Nat) (rxok nbok : Bool) (viol : Nat) (s : State) : State :=
  let s := s.put RING_CNT1.CODEERR (min 65535 (s.get RING_CNT1.CODEERR + viol))
  if !(s.on (RING_PORT.UP k)) || (rxok && nbok) then s
  else
    let s := s.setReg (Reg.RING_PORT k) (BitVec.ofNat 32 (2 ^ 30 * b2n rxok + 2 ^ 29 * b2n nbok + s.get (RING_PORT.DELAY k)))
    let s := setRport k { downAt := s.now } s
    ringIsol ((s.modRing (fun r => { r with downs := r.downs + 1 })).put RING_IRQ.DOWN 1)

/-- R443: a port comes up. -/
def portUp (k : Nat) (s : State) : State :=
  if s.on (RING_PORT.UP k) then s
  else ringIsol ((((s.put (RING_PORT.UP k) 1).put (RING_PORT.RXOK k) 1).put (RING_PORT.NBOK k) 1).put RING_IRQ.UP 1)

/-- R444: the first gap that begins at least 10 µs after a port went down. -/
def ringWrap (s : State) : State :=
  let down (k : Nat) : Bool := !(s.on (RING_PORT.UP k)) && decide ((s.rport k).downAt + us 10 ≤ s.now)
  let e := down 0 && !(s.on RING_STAT.WRAPE)
  let w := down 1 && !(s.on RING_STAT.WRAPW)
  if s.inRing && (e || w) then
    let s := if e then s.put RING_STAT.WRAPE 1 else s
    let s := if w then s.put RING_STAT.WRAPW 1 else s
    s.put RING_IRQ.WRAP 1
  else s

/-- R445: the gap of a cycle whose TICK is a multiple of 128: ports that are up again unwrap. -/
def ringUnwrap (s : State) : State :=
  let e := s.on (RING_PORT.UP 0) && s.on RING_STAT.WRAPE
  let w := s.on (RING_PORT.UP 1) && s.on RING_STAT.WRAPW
  if s.inRing && s.ring.cyc % 128 == 0 && (e || w) then
    let s := if e then s.put RING_STAT.WRAPE 0 else s
    let s := if w then s.put RING_STAT.WRAPW 0 else s
    s.put RING_IRQ.WRAP 1
  else s

end Sys2Proof.Machine
end

