-- ==== Sys2Proof/Machine/RingRows.lean ====
section
/-! DEFINITION. Machine/RingRows.lean: the commands of the ring block (chapter 21) but SVC and APP and BULK. -/
namespace Sys2Proof.Machine

/-- A port's number. -/
def portNo : Port → Nat
  | .east => 0 | .west => 1

/-- R443. -/
def execPortDown (p : Port) (rxok nbok : Bool) (viol : BitVec 16) (s : State) : Out :=
  .next (onRing (portDown (portNo p) rxok nbok viol.toNat) s)

/-- R443. -/
def execPortUp (p : Port) (s : State) : Out := .next (onRing (fun s => if s.inRing then portUp (portNo p) s else s) s)

/-- R444. -/
def execRingWrap (s : State) : Out := .next (onRing ringWrap s)

/-- R445. -/
def execRingUnwrap (s : State) : Out := .next (onRing ringUnwrap s)

/-- R437. -/
def execCycleReceived (low : BitVec 16) (s : State) : Out := .next (onRing (cycleReceived low.toNat) s)

/-- R447. -/
def execCycleLoss (s : State) : Out := .next (onRing cycleLoss s)

/-- R441, R442: the manager's own frame returns to it and is stripped. -/
def execRingTimeFrame (h : RingHdr) (qual npos bulkown : BitVec 8) (plan : Word) (origin : DWord) (corr tick : Word)
    (resid : BitVec 16) (s : State) : Out :=
  .next (onRing (fun s =>
    if s.rg = rgManager then s
    else
      let out (s : State) : List Byte := timePayload qual.toNat npos.toNat bulkown.toNat plan origin.toNat
        (corrOn corr.toInt resid.toNat (s.get (RING_PORT.DELAY s.primaryIn))) tick.toNat
      ringFrame 0x01 h out (fun _ => true)
        (timeFrame qual.toNat npos.toNat bulkown.toNat plan origin.toNat corr.toInt tick.toNat resid.toNat) s) s)

/-- R449: the frame takes the count plus 1 on. The manager strips its own. -/
def execRingNumber (h : RingHdr) (hop : BitVec 8) (epoch : BitVec 16) (s : State) : Out :=
  .next (onRing (fun s =>
    if s.rg = rgManager then s
    else
      let out (_ : State) : List Byte := leBytes 1 (hopOn hop.toNat) ++ [0] ++ leBytes 2 epoch.toNat
      let s1 := ringForward 0x02 h (out s) s
      if !s.inRing then s
      else
        let s1 := ringCount true h s1
        if h.fate == .good then ringNumber hop.toNat epoch.toNat s1 else s1) s)

/-- R448: a candidate forwards a claim that ranks above its own and strips any other; everybody else forwards it. -/
def execRingClaim (h : RingHdr) (pri : BitVec 8) (ext : DWord) (s : State) : Out :=
  .next (onRing (fun s =>
    if !s.inRing then s
    else
      let cand := s.get RING_CFG.MGRPRI != 0
      let own := claimRank (s.get RING_CFG.MGRPRI) s.factoryExt
      let rank := claimRank pri.toNat ext.toNat
      let s1 := if cand && decide (rank ≤ own) then s
        else ringForward 0x03 h (leBytes 1 pri.toNat ++ List.replicate 7 0 ++ leBytes 8 ext.toNat) s
      let s1 := ringCount true h s1
      if h.fate == .good && cand then ringClaim rank own s1 else s1) s)

/-- R435. -/
def execStatusFrame (h : RingHdr) (ext : DWord) (state wrap : BitVec 8) (s : State) : Out :=
  .next (onRing (ringFrame 0x04 h (fun _ => leBytes 8 ext.toNat ++ leBytes 1 state.toNat ++ leBytes 1 wrap.toNat ++ List.replicate 6 0)
    (fun _ => true) (ringStatus h.src.toNat ext.toNat (h.flags.getLsbD 0))) s)

/-- R439: link-local frames are taken from the port's own cable; a bad one is counted only. -/
def execRingDreq (p : Port) (fate : RingFate) (turn : BitVec 16) (s : State) : Out :=
  .next (onRing (fun s =>
    if !s.inRing then s
    else
      let s := ringCount true ⟨0, 0xFF, 0, 0, fate⟩ s
      if fate == .good then ringDreq (portNo p) turn.toNat s else s) s)

/-- R439. -/
def execRingDrsp (p : Port) (fate : RingFate) (t2 t3 : DWord) (s : State) : Out :=
  .next (onRing (fun s =>
    if !s.inRing then s
    else
      let s := ringCount true ⟨0, 0xFF, 0, 0, fate⟩ s
      if fate == .good then ringDrsp (portNo p) t2.toNat t3.toNat s else s) s)

/-- R439. -/
def execServiceSlot (s : State) : Out := .next (onRing serviceSlot s)

/-- R440. -/
def execBulkWindow (s : State) : Out := .next (onRing bulkWindow s)

/-- R446. -/
def execRingGap (s : State) : Out := .next (onRing ringGap s)

/-- R447: a write of RING_CFG with EN = 1. -/
def execRingEnable (data : Word) (s : State) : Out :=
  .next (viaBus Reg.RING_CFG (fun s => ringCfgWrite (data ||| 0x80000000#32) (s.modRing (fun r => { r with sent := [] }))) s)

/-- R447: a write of RING_CFG with EN = 0. -/
def execRingDisable (data : Word) (s : State) : Out :=
  .next (viaBus Reg.RING_CFG (fun s => ringCfgWrite (data &&& 0x7FFFFFFF#32) (s.modRing (fun r => { r with sent := [] }))) s)

end Sys2Proof.Machine
end

