-- ==== Sys2Proof/Machine/Loom.lean ====
section
/-! DEFINITION. Machine/Loom.lean: sentinels, gain and energy (chapter 09). What the antenna delivers is the environment's:
a command says which lane, which levels, which samples; the rules decide what follows. -/
namespace Sys2Proof.Machine

/-- The Loom changed. -/
def State.modLoom (s : State) (f : LoomSt → LoomSt) : State := { s with loom := f s.loom }

/-- Lanes are served: the domain on, the Loom started on a plan (R91). -/
def State.loomRuns (s : State) : Bool := s.radioOn && s.loom.running

/-- Sentinels search: the Loom runs, the samples are kept (R17) and not blanked (R196). -/
def State.searching (s : State) : Bool := s.loomRuns && !s.tick.realigned && !s.blanked

/-- RFRX_RSSIOFS applied to a level, held to −150 to +20 dBm (R186, R202). -/
def State.levelOf (s : State) (raw : Int) : Int := clampInt (-600) 80 (raw + s.getI RFRX_RSSIOFS.OFS)

/-- R201: lanes without a packet follow the live plan: SEARCH when they are enabled in a channel in band, else OFF; the NCO at
NCOFS; an out-of-band lane's energy reads −32,768 (R202). -/
def refreshLane (s : State) (l : Nat) : State :=
  let s := if s.inBand l then s else (s.put (LOOM_NRG.NOW l) 0x8000).modLane l (fun x => { x with slotMin := -32768 })
  let on := s.served l
  if on && (s.lane (s.channelOf l)).pkt.isSome then s
  else
    let run := s.loomRuns && on
    let fresh := run && s.get (LOOM_SENT.STATE l) == sentOff
    let s := s.put (LOOM_SENT.STATE l) (if fresh then sentSearch else if run then s.get (LOOM_SENT.STATE l) else sentOff)
    let n := if on then s.channelOf l else l
    let i := s.laneIdx
    s.modLane l (fun x =>
      let x := if fresh then { x with from_ := i, hits := 0, evalAt := none } else x
      { x.setFrom i (s.getI ((LOOM_LANE.NCOFS n).at (Reg.LOOM_LANE_LIVE n))) (s.lane n).dg with dgFrozen := false })

/-- Every lane. -/
def refreshLanes (s : State) : State := (List.range 96).foldl refreshLane s

/-! ## Shared gain (R205 to R208) -/

/-- The live code. -/
def State.gcode (s : State) : Nat := s.get RFRX_GAIN.CODE

/-- An announcement ends: NEXT shows none. -/
def clearAnnounce (s : State) : State := (s.modLoom (fun l => { l with announce := none })).put LOOM_GAINSTAT.NEXT 0

/-- R205: an announced step is cancelled: counted, flagged. -/
def cancelStep (s : State) : State :=
  if s.loom.announce.isSome then ((clearAnnounce s).sat LOOM_GAINCNT.CANCEL).put LOOM_IRQ.CANCEL 1 else s

/-- The code changes at an ADC sample of the tick. -/
def setCode (code adc : Nat) (s : State) : State :=
  (s.modLoom (fun l => { l with noticeNow := { l.noticeNow with codes := l.noticeNow.codes ++ [(adc, code)] } })).put RFRX_GAIN.CODE code

/-- A step takes effect at an ADC sample of the tick: the code, the notice, the counter. -/
def gainStep (kind code adc : Nat) (cnt : Field) (s : State) : State :=
  let e : GainEvent := { kind := kind, code := code, phase := adc % 64, sample := adc / 64 }
  let s := s.modLoom (fun l => { l with unusable := true, noticeNow := { l.noticeNow with events := l.noticeNow.events ++ [e] } })
  ((setCode code adc s).sat cnt).put LOOM_IRQ.STEP 1

/-- The gain is frozen or belongs to the calibration (R185, R206). -/
def State.gainHeld (s : State) : Bool := s.blanked || s.on RFRX_CALSTAT.BUSY

/-- GAIN_STEP: the instant of the announced step (R205); blanking that covers it cancels the step. -/
def gainInstant (s : State) : State :=
  match s.loom.announce with
  | some a =>
    if a.atBnd ≠ s.tick.bnd then s
    else if s.gainHeld then cancelStep s
    else gainStep (if a.up then 1 else 2) a.code (64 * a.pos) (if a.up then LOOM_GAINCNT.UP else LOOM_GAINCNT.DOWN) (clearAnnounce s)
  | none => s

/-- CLIP_STEP: the 32nd ADC sample after a clip report (R206); a pending announcement is cancelled. -/
def clipStep (s : State) : State :=
  match s.loom.clipStep with
  | some adc =>
    let s := s.modLoom (fun l => { l with clipStep := none })
    if s.gainHeld || decide (s.gcode ≤ s.get RFRX_GAIN.MINCODE) then s
    else gainStep 3 (s.gcode - 1) adc LOOM_GAINCNT.CLIPSTEP (cancelStep s)
  | none => s

/-- Bits `a` to `b` of a mask. -/
def maskRun (a b : Nat) (m : BitVec 400) : BitVec 400 :=
  (List.range 400).foldl (fun m i => if a ≤ i ∧ i ≤ b then m ||| (1#400 <<< i) else m) m

/-- R207: a packet's header gets FLAGS.CLIP. -/
def markClip (s : State) (p : Packet) : State := s.wb (ctxSlot p.lane + 3) (s.rb (ctxSlot p.lane + 3) ||| 2)

/-- R207: the run of marks from lane sample `a` to `b`, counted 400 a boundary, in the masks of the tick before, of the tick in
progress and, when it is written, of the next. -/
def clipMarks (a b : Nat) (s : State) : State :=
  let z := lanePerTick * s.tick.bnd
  let back (m : BitVec 400) : BitVec 400 := if a < z then maskRun (a + lanePerTick - z) (b + lanePerTick - z) m else m
  let half (h : Option BufTick) : Option BufTick := h.map (fun t => if t.bnd + 1 = s.tick.bnd then { t with clip := back t.clip } else t)
  s.modLoom (fun l => { l with
    clipPrev := back l.clipPrev, half0 := half l.half0, half1 := half l.half1
    clipMask := if z ≤ b then maskRun (a - z) (b - z) l.clipMask else l.clipMask
    clipSpill := max l.clipSpill (b - z - 399)
    clipRun := match l.clipRun with
      | some (a', b') => if a ≤ b' then some (a', max b b') else some (a, b)
      | none => some (a, b) })

/-- The packet was in progress at a lane sample or after it (R207); the header of its slot is still its own. -/
def State.clipHits (s : State) (a : Nat) (p : Packet) : Bool :=
  s.inAir p || ((p.endAt.map (fun e => decide (a < e))).getD false && (s.lane p.lane).pkt.isNone)

/-- A clip event (R174, R206, R207): first and last clipped ADC sample, counted 25,600 a boundary, and the ADC sample of the
report in the tick. The detector's next window starts at the step that follows, or after the report. -/
def clipReport (first last report : Nat) (s : State) : State :=
  let s := (s.sat RFRX_CLIP.COUNT).put RFRX_IRQ.CLIP 1
  let s := clipMarks (first / 64) (last / 64 + 15) s
  let ps := s.loom.packets.filter (s.clipHits (first / 64))
  let s := if ps.isEmpty then s else (ps.foldl markClip s).put LOOM_IRQ.CLIPMARK 1
  let base := adcPerTick * s.tick.bnd + report
  if s.get RFRX_GAIN.MINCODE < s.gcode && !s.gainHeld then
    s.modLoom (fun l => { l with clipStep := some (report + 32), clipWin := some (base + 32) })
  else s.modLoom (fun l => { l with clipWin := some (base + 1) })

/-- Clipped samples of 64 that make a clip event (RFRX_CLIP.NCLIP): 0 acts as 1, 17 to 31 as 16. -/
def State.nclip (s : State) : Nat := max 1 (min 16 (s.get RFRX_CLIP.NCLIP))

/-- CLIP_EVENT (R174): the clip detector on the 64 ADC samples that end at sample `last` of the tick, `clip` its clipped ones,
bit 0 the oldest; a search reports `delay` samples later, a window that follows a report at its end. A command inside such a
window says nothing; one past its end finds the detector searching again. -/
def clipEvent (clip : BitVec 64) (last delay : Nat) (s : State) : State :=
  if s.blanked || !s.loomRuns then s
  else
    let g := adcPerTick * s.tick.bnd + last
    let ones := (List.range 64).filter (fun i => clip.getLsbD i)
    let enough := decide (s.nclip ≤ ones.length)
    let at_ (i : Nat) : Nat := g + i - 63
    let report (d : Nat) : State := clipReport (at_ (ones.headD 0)) (at_ (ones.getLastD 63)) (last + d) s
    match s.loom.clipWin with
    | some w =>
      if g < w + 63 then s
      else if !enough then s.modLoom (fun l => { l with clipWin := none })
      else report (if g = w + 63 then 0 else delay)
    | none => if enough then report delay else s

/-- ADC samples of a tick whose max(|I|, |Q|) lies from a level to the tick's peak. -/
def samplesAt (v peak : Nat) (levels : List (BitVec 10 × Nat)) : Nat :=
  ((levels.filter (fun e => decide (v ≤ e.1.toNat) && decide (e.1.toNat ≤ peak))).map (·.2)).sum

/-- R205: the decision at a boundary on the levels of the tick that ended. The boundary counter already names the tick that
begins. DNLVL 0 acts as 1. -/
def gainDecision (levels : List (BitVec 10 × Nat)) (peak : Nat) (s : State) : State :=
  if s.loom.announce.isSome then s.put LOOM_GAINSTAT.HOLD 0
  else
    let strong := samplesAt (max 1 (s.get LOOM_GAINCFG0.DNLVL)) peak levels
    let usable := !s.loom.unusable
    let hold := if usable && decide (peak < s.get LOOM_GAINCFG1.UPLVL) then min 255 (s.get LOOM_GAINSTAT.HOLD + 1) else 0
    let s := s.put LOOM_GAINSTAT.HOLD hold
    let code := s.gcode
    let lo := s.get RFRX_GAIN.MINCODE
    let hi := s.get RFRX_GAIN.MAXCODE
    let auto := s.on LOOM_GAINCFG0.AUTO
    let down := decide (lo < code) && ((auto && usable && decide (max 1 (s.get LOOM_GAINCFG0.DNCNT) ≤ strong)) || decide (hi < code))
    let up := decide (code < hi) && ((auto && decide (max 1 (s.get LOOM_GAINCFG1.UPHOLD) ≤ hold)) || decide (code < lo))
      && s.active == 0 && !(s.on RFRX_CALSTAT.BUSY) && !(s.on RFRX_CALSTAT.WAITING)
    if down || up then
      let a : Announce := { up := !down, code := if down then code - 1 else code + 1, atBnd := s.tick.bnd + 1
                            pos := min 399 (s.get LOOM_GAINCFG1.STEPPOS) }
      let s := s.modLoom (fun l => { l with announce := some a, unusable := true })
      (s.put LOOM_GAINSTAT.NEXT (if down then 2 else 1)).put LOOM_GAINSTAT.NEXTTICK ((s.reg Reg.SYSC_TICK).toNat + 1)
    else s

/-! ## Energy (R202, R203) -/

/-- Blocks of history that LBT can ask for: 65,535 µs (R254). -/
def histLen : Nat := 2622

/-- The block of 10 lane samples that ends now held a blanked sample. -/
def State.blockBlanked (s : State) : Bool :=
  let i := s.laneSampleNow
  s.blanked || (List.range 10).any (fun k => decide (k < i) && s.blankNow.getLsbD (i - 1 - k))

/-- ENERGY_BLOCK: a lane's block ends with a level, before RFRX_RSSIOFS. -/
def energyBlock (l : Nat) (raw : Int) (s : State) : State :=
  if !s.loomRuns then s
  else if s.blockBlanked then s.modLane l (fun x => { x with blankedBlock := true })
  else if !(s.inBand l) then s
  else
    let v := s.levelOf raw
    let s := s.modLane l (fun x => { x with slotMin := min x.slotMin v, blocks := v :: x.blocks, hist := (v :: x.hist).take histLen })
    s.putI (LOOM_NRG.NOW l) v

/-- R203: a lane's record for the tick that ended. -/
def ccaRecord (realigned : Bool) (s : State) (l : Nat) : List Byte :=
  let x := s.lane l
  let b := x.blocks.take 60
  let lvl := s.getI (LOOM_CCACFG.BUSYLVL.at Reg.LOOM_CCACFG_LIVE)
  let i16 (v : Int) : List Byte := leBytes 2 (wrapInt 16 v)
  let body : List Byte := if b.isEmpty then i16 (-32768) ++ i16 (-32768) ++ i16 (-32768) ++ [0]
    else i16 (powerMean b) ++ i16 (b.foldl max (-32768)) ++ i16 (b.foldl min 32767)
      ++ leBytes 1 (b.filter (fun v => decide (lvl ≤ v))).length
  let fl := b2n x.blankedBlock + b2n (s.served l && (s.lane (s.channelOf l)).pkt.isSome) * 2 + b2n (!(s.inBand l)) * 4
    + b2n realigned * 8
  body ++ leBytes 1 fl

/-- R203: at a boundary the records of the tick that ended (its index, whether it was realigned) and the summary job. -/
def ccaRecords (tick : Nat) (realigned : Bool) (s : State) : State :=
  let cc (f : Field) : Nat := s.get (f.at Reg.LOOM_CCACFG_LIVE)
  let s1 := if s.loomRuns && cc LOOM_CCACFG.EN == 1 then
      let slot := 126 + tick % 2
      let s := (List.range 96).foldl (fun s l => s.wbytes (ctxSlot slot + 8 * l) (ccaRecord realigned s l)) s
      (internalPost .loom (BitVec.ofNat 32 (tick % 2 ^ 16 * 2 ^ 16 + 0xFF00 + cc LOOM_CCACFG.JCLASS)) 0
        (BitVec.ofNat 32 (2 ^ 24 * slot)) s).1
    else s
  { s1 with loom := { s1.loom with lanes := s1.loom.lanes.map (fun x => { x with blocks := [], blankedBlock := false }) } }

/-- LOOM_NRGn.FLOOR at the end of a slot. -/
def slotFloors (s : State) : State :=
  (List.range 96).foldl (fun s l =>
    (s.putI (LOOM_NRG.FLOOR l) (s.lane l).slotMin).modLane l (fun x => { x with slotMin := s.getI (LOOM_NRG.NOW l) })) s

/-! ## Digital gain (R195) -/

/-- AGC_STEP: every 16 lane samples of SEARCH: the lane's RMS in 0.25 dB below (negative) full scale. -/
def agcStep (l : Nat) (rms : Int) (s : State) : State :=
  if !s.searching || !(s.isChannel l) || s.get (LOOM_SENT.STATE l) != sentSearch then s
  else
    let tgt : Int := -4 * (s.msB (s.laneF l LOOM_LANE.MSET) LOOM_MSB.AGCTGT : Nat)
    let x := s.lane l
    setTuning l (s.laneF l LOOM_LANE.BOND) s.laneIdx x.nco
      (if tgt + 12 < rms then x.dg - 1 else if rms < tgt - 12 then min 15 (x.dg + 1) else x.dg) s

/-! ## Sentinels (R196 to R201) -/

/-- R191, R211: lane samples a sentinel symbol, as a fraction: a bonded channel's B lanes count together at B × 400 kS/s, and
an O-QPSK symbol is 32 chips. -/
def symbolLane (mode : Nat) : Nat × Nat :=
  [(8, 1), (4, 1), (8, 3), (4, 1), (8, 3), (128, 1), (32, 1), (64, 5), (16, 1)].getD mode (8, 1)

/-- Lane samples of `n` symbols, a part of one counted whole. -/
def symbolSpan (mode n : Nat) : Nat := (n * (symbolLane mode).1 + (symbolLane mode).2 - 1) / (symbolLane mode).2

/-- R196: the detection window, PWIN symbols, in lane samples; and the SFD search of R199, SFDWIN × 8 symbols. -/
def State.window (s : State) (mset : Nat) (part : Bool) : Nat :=
  let m := s.msA mset LOOM_MSA.MODE
  if part then symbolSpan m (s.msB mset LOOM_MSB.PWIN) else s.msB mset LOOM_MSB.PWIN * (symbolLane m).1 / (symbolLane m).2
def State.sfdSpan (s : State) (mset : Nat) : Nat := symbolSpan (s.msA mset LOOM_MSA.MODE) (8 * s.msB mset LOOM_MSB.SFDWIN)

/-- The window of lane samples from `a` to before `b` holds one that a clip run marks (R207). -/
def State.windowClip (s : State) (a b : Nat) : Bool := match s.loom.clipRun with
  | some (x, y) => decide (x < b) && decide (a ≤ y)
  | none => false

/-- R196: an evaluation of the window that ends at lane sample `g`: consecutive ones that reach DETTHR, counted; they come once
a symbol. None: no evaluation, for the window is not whole yet, holds a sample it may not hold, or comes within the symbol. -/
def State.evalHits (s : State) (l metric g : Nat) (part : Bool) : Option Nat :=
  let m := s.laneF l LOOM_LANE.MSET
  let mode := s.msA m LOOM_MSA.MODE
  let x := s.lane l
  if g < max x.from_ s.loom.deadTo + s.window m part then none
  else
    let early := match x.evalAt with
      | some e => decide (g * (symbolLane mode).2 < e * (symbolLane mode).2 + (symbolLane mode).1 - ((symbolLane mode).2 - 1))
      | none => false
    if early then none
    else if metric < s.msB m LOOM_MSB.DETTHR then some 0
    else match x.evalAt with
      | some e => if g ≤ e + symbolSpan mode 1 then some (x.hits + 1) else some 1
      | none => some 1

/-- R198: the header of a detection. -/
def detHeader (num mset flags tick idx metric dg : Nat) (level fest : Int) (acode : Nat) : List Byte :=
  leBytes 2 num ++ leBytes 1 mset ++ leBytes 1 flags ++ leBytes 4 tick ++ leBytes 2 idx ++ leBytes 1 metric ++ leBytes 1 dg
    ++ leBytes 2 (wrapInt 16 level) ++ leBytes 2 (wrapInt 16 fest) ++ leBytes 1 acode ++ List.replicate 15 0
    ++ leBytes 2 0xFFFF ++ [0xFF, 0] ++ List.replicate 28 0

/-- R200: a detection replaces the packet in progress. -/
def State.replaces (s : State) (p : Packet) (metric : Nat) (level : Int) : Bool :=
  let d (f : Nat → Field) : Nat := s.msD p.mset f
  if s.get (LOOM_SENT.STATE p.lane) = sentLocked then
    d LOOM_MSD.CAPEN == 1 && decide (p.level + 4 * (d LOOM_MSD.CAPTDB : Nat) ≤ level)
  else decide (p.metric + d LOOM_MSD.RSTM ≤ metric) || decide (p.level + 4 * (d LOOM_MSD.RSTDB : Nat) ≤ level)

/-- R194, R195, R198: what a detection does: number, header, corrections, the packet in progress. NCO and DG start from the
values the lane runs at; an earlier packet ends. -/
def detected (l metric : Nat) (level fest dgc : Int) (idx : Nat) (part : Bool) (s : State) : State :=
  let mset := s.laneF l LOOM_LANE.MSET
  let bond := s.laneF l LOOM_LANE.BOND
  let g := lanePerTick * s.tick.bnd + idx
  let x := s.lane l
  let old := x.pkt.bind s.packet
  let s := match old with
    | some p => endPacket p (if p.st == PktSt.payload then stCaptured else stRestarted) s
    | none => s
  let num := s.get LOOM_STAT.PKTNUM
  let dg := (clampInt 0 15 ((x.dg : Int) + clampInt (-3) 3 dgc)).toNat
  let nco := clampInt (-8192) 8192 (x.nco + fest)
  let clip := s.windowClip (g - s.window mset part) (g + 1)
  let h := detHeader num mset (b2n old.isSome + b2n clip * 2) (s.reg Reg.SYSC_TICK).toNat idx metric dg level fest s.gcode
  let p : Packet := { num := num, lane := l, bond := bond, mset := mset, metric := metric, level := level
                      first := some (idx - s.window mset part), trim := s.rfrx.trimLive, detAt := g }
  let s := (s.wbytes (ctxSlot l) h).put LOOM_STAT.PKTNUM (num + 1)
  let s := (setTuning l bond (g + 1) nco dg s).modLane l (fun x => { x with dgFrozen := false, pkt := some num })
  let s := { s with loom := { s.loom with packets := s.loom.packets ++ [p] } }
  let s := ((setSent l bond sentPreamble s).sat (LOOM_SENT.DETCNT l)).put LOOM_STAT.ACTIVE s.active
  let s := s.whenB clip (fun s => s.put LOOM_IRQ.CLIPMARK 1)
  if (s.loom.announce.map (·.up)).getD false then cancelStep s else s

/-- SENTINEL_DETECTION: an evaluation on a channel's lowest lane (R196) with its metric, level (0.25 dB, before RFRX_RSSIOFS),
frequency estimate and gain correction, in the window that ends at lane sample `idx`; a detection when DETN + 1 consecutive
ones have reached DETTHR, unless a packet in progress stands (R200). `part`: a window of no whole number of lane samples began
in the earlier one (log entry 27). -/
def detection (l metric : Nat) (raw fest dgc : Int) (idx : Nat) (part : Bool) (s : State) : State :=
  let mset := s.laneF l LOOM_LANE.MSET
  let g := lanePerTick * s.tick.bnd + idx
  if !s.searching || !(s.isChannel l) || s.get (LOOM_SENT.STATE l) == sentOff then s
  else match s.evalHits l metric g part with
    | none => s
    | some n =>
      let level := s.levelOf raw
      let old := (s.lane l).pkt.bind s.packet
      let go := decide (s.msB mset LOOM_MSB.DETN < n) && (match old with
        | some p => s.replaces p metric level
        | none => true)
      let s := (List.range (bondLanes (s.laneF l LOOM_LANE.BOND))).foldl (fun s i => s.put (LOOM_SENT.METRIC (l + i)) metric) s
      let s := s.modLane l (fun x => { x with hits := n, evalAt := some g })
      if go then detected l metric level fest dgc idx part s else s

/-- The packet in progress on a channel whose sentinel is in a state. -/
def State.inProgress (s : State) (l st : Nat) : Option Packet :=
  if s.get (LOOM_SENT.STATE l) = st then ((s.lane l).pkt).bind s.packet else none

/-- SFD_MATCH (R199): SFDTIME first, then the record at 0x20 in one write; DG frozen; the capture units see the event. -/
def sfdMatch (l : Nat) (sfd1 : Bool) (idx time : Nat) (s : State) : State :=
  match s.inProgress l sentPreamble with
  | some p =>
    if !s.searching || (sfd1 && s.msD p.mset LOOM_MSD.SFDN2 == 0) || p.sfdOver
        || decide (p.detAt + s.sfdSpan p.mset < lanePerTick * s.tick.bnd + idx) then s
    else
      let s := s.wn (ctxSlot l + 0x28) 8 time
      let s := s.wbytes (ctxSlot l + 0x20) (leBytes 2 idx ++ leBytes 1 (b2n sfd1) ++ [0] ++ leBytes 4 (s.reg Reg.SYSC_TICK).toNat)
      let s := s.modLane l (fun x => { x with dgFrozen := true })
      let s := setSent l p.bond sentFrame (s.modPacket p.num (fun p => { p with st := .header, sfdAt := some time }))
      capSfd l time s
  | none => s

/-- SFD_TIMEOUT (R199): SFDWIN × 8 symbols after the detection no SFD has matched; the search ends. -/
def sfdTimeout (l : Nat) (s : State) : State :=
  match s.inProgress l sentPreamble with
  | some p =>
    if s.searching && !p.sfdOver && decide (p.detAt + s.sfdSpan p.mset ≤ s.laneIdx) then
      (s.modPacket p.num (fun p => { p with sfdOver := true })).wb (ctxSlot l + 0x22) 0xFE
    else s
  | none => s

/-- R197: the last lane sample of the packet on a channel, as the Shuttle knows it from WIO_REMAIN, has been written. -/
def State.samplesEnded (s : State) (p : Packet) : Bool :=
  match p.remain with
  | some r => s.msA p.mset LOOM_MSA.TAILEN == 1 && p.first.isNone && decide (r ≤ 400) && decide (r ≤ s.laneSampleNow)
  | none => false

/-- PACKET_END (R197). -/
def packetSamplesEnd (l : Nat) (s : State) : State :=
  match ((s.lane l).pkt).bind s.packet with
  | some p =>
    if s.samplesEnded p && s.radioOn then
      macGo (releaseLane l p.bond (s.modPacket p.num (fun p => { p with endAt := some s.laneIdx })))
    else s
  | none => s

end Sys2Proof.Machine
end

