-- ==== Sys2Proof/Machine/RxFront.lean ====
section
/-! DEFINITION. Machine/RxFront.lean: the receive front end (chapter 08) and the commands of the front end, the Loom and the
intake. -/
namespace Sys2Proof.Machine

/-- The front end changed. -/
def State.modRx (s : State) (f : RfrxSt → RfrxSt) : State := { s with rfrx := f s.rfrx }

/-! ## Span and gain limits (R170, R171, R173) -/

/-- A write of RFRX_SPAN. -/
def spanWrite (d : Word) (s : State) : State :=
  let n := RFRX_SPAN.CENTRE.of d
  if 2100 < n then s.put RFRX_IRQ.BADSPAN 1
  else if n = s.get RFRX_SPAN.LIVE then
    if s.on RFRX_SPAN.PEND then (s.put RFRX_SPAN.CENTRE n).put RFRX_SPAN.PEND 0 else s
  else ((s.put RFRX_SPAN.CENTRE n).put RFRX_SPAN.PEND 1).modRx (fun r => { r with retuneAt := s.now })

/-- RETUNE: the boundary of a pending retune: 50 µs have passed since the last write; `band`: the new centre lies in
another VCO band. -/
def rxRetune (band : Bool) (s : State) : State :=
  if !(s.on RFRX_SPAN.PEND) || decide (s.now < s.rfrx.retuneAt + us 50) || !s.radioOn then s
  else
    let s := (s.put RFRX_SPAN.LIVE (s.get RFRX_SPAN.CENTRE)).put RFRX_SPAN.PEND 0
    let s := endPackets s.inAir stPlanChange s
    let s := blankBegin (fun l => { l with blankUntil := max l.blankUntil (s.now + us (if band then 200 else 140)) }) s
    refreshLanes s

/-- A write of RFRX_GAIN (R173). -/
def gainLimitWrite (d : Word) (s : State) : State :=
  let lo := RFRX_GAIN.MINCODE.of d
  let hi := RFRX_GAIN.MAXCODE.of d
  if hi < lo ∨ 8 < hi then s.put RFRX_IRQ.BADGAIN 1
  else
    let s := (s.put RFRX_GAIN.MINCODE lo).put RFRX_GAIN.MAXCODE hi
    match s.loom.announce with
    | some a => if a.code < lo ∨ hi < a.code then cancelStep s else s
    | none => s

/-- A write of RFRX_RSSIOFS saturates (R186). -/
def rssiOfsWrite (d : Word) (s : State) : State :=
  s.putI RFRX_RSSIOFS.OFS (clampInt (-160) 160 (signedOf 16 (RFRX_RSSIOFS.OFS.of d)))

/-! ## Calibration (R178 to R182) -/

/-- A write of RFRX_CALREQ with steps (R179, R180). -/
def calRequest (steps : BitVec 4) (force : Bool) (s : State) : State :=
  if steps = 0 then s
  else if s.on RFRX_CALSTAT.BUSY then s.put RFRX_IRQ.REQOVR 1
  else
    let new := s.rfrx.calWait == 0
    let w := s.rfrx.calWait ||| steps
    let s := s.modRx (fun r => { r with calWait := w, calForce := r.calForce || force,
                                        calReqAt := if new then s.now else r.calReqAt, calWaited := if new then 0 else r.calWaited })
    (s.put RFRX_CALSTAT.WAITING 1).put RFRX_CALSTAT.PENDSTEPS w.toNat

/-- R178: the blanking of the steps, in counts. -/
def calCounts (steps : BitVec 4) : Nat :=
  us ((if steps.getLsbD 0 then 100 else 0) + (if steps.getLsbD 1 then 400 else 0)
    + (if steps.getLsbD 2 then 500 else 0) + (if steps.getLsbD 3 then 1000 else 0))

/-- R179: the MAC's schedule holds nothing within `len` counts from now: links and beacon slots of the slots around, open
and planned actions and windows. The RX links of a coordinator, implicit by R266, do not count. -/
def State.macIdle (s : State) (len : Nat) : Bool :=
  let a : Int := s.now
  let b : Int := s.now + len
  let slots := (List.range 20).map (fun k => s.schedSlot + k - min s.schedSlot 17)
  !(slots.any (fun n =>
      (List.range 64).any (fun l => s.linkOccurs l n && !(s.on MAC_CFG.COORD && s.linkA l MAC_LINKA.TYPE == lkRx) && overlaps a b (s.slotStart n) (s.slotStart n + s.spanCounts l))
      || (s.beaconSlot n && overlaps a b (s.slotStart n) (s.slotStart (n + 1)))))
    && !(s.mac.acts.any (fun x => overlaps a b x.fromAt x.toAt)) && !(s.mac.wins.any (fun x => overlaps a b x.fromAt x.toAt))

/-- R179: the boundary qualifies. -/
def State.calQualifies (s : State) : Bool :=
  s.active == 0 && s.macIdle (calCounts s.rfrx.calWait) && s.tx.job.isNone && s.tx.queue.isEmpty

/-- RX_CAL_START: the boundary at which a waiting calibration starts. -/
def calStart (s : State) : State :=
  if !(s.on RFRX_CALSTAT.WAITING) || decide (s.now < s.rfrx.calReqAt + us 50) || !s.radioOn
      || !(s.rfrx.calForce || s.calQualifies) then s
  else
    let s := ((s.put RFRX_CALSTAT.WAITING 0).put RFRX_CALSTAT.BUSY 1).put RFRX_CALSTAT.DONE 0
    let s := s.putB RFRX_CALSTAT.FORCED s.rfrx.calForce
    let s := s.modRx (fun r => { r with calRun := r.calWait, calWait := 0, calForce := false, calAt := s.now })
    blankBegin (fun l => { l with blankCal := true }) s

/-- CAL_WAIT_LIMIT (R179): WAITLIM ticks have passed; the next boundary starts the calibration as if forced. -/
def calWaitLimit (s : State) : State :=
  let lim := s.get RFRX_CALCFG.WAITLIM
  if s.on RFRX_CALSTAT.WAITING && lim != 0 && decide (lim ≤ s.rfrx.calWaited) then s.modRx (fun r => { r with calForce := true }) else s

/-- The first step of a set. -/
def firstStep (b : BitVec 4) : Option Nat := (List.range 4).find? (fun n => b.getLsbD n)

/-- RX_CAL_STEP_DONE: the step that runs completes, with its verdict and the temperature at its end (R178, R182). A step pauses
for a transmission and the 80 µs that follow it (R181). -/
def calStepDone (failed : Bool) (temp : Int) (s : State) : State :=
  match (if s.loom.blankTx then none else firstStep s.rfrx.calRun) with
  | none => s
  | some n =>
    let left := s.rfrx.calRun &&& ~~~(1#4 <<< n)
    let s := (s.modRx (fun r => { r with calRun := left })).put RFRX_CALSTAT.PENDSTEPS left.toNat
    let s := if failed then
        s.put (if n = 0 then RFRX_CALSTAT.VCOF else if n = 1 then RFRX_CALSTAT.ADCF else if n = 2 then RFRX_CALSTAT.DCF else RFRX_CALSTAT.IQF) 1
      else s
    let s := if 2 ≤ n then (s.putI RFRX_TEMP.TCAL temp).modRx (fun r => { r with tempDone := false }) else s
    if left = 0 then
      let s := ((s.put RFRX_CALSTAT.BUSY 0).put RFRX_CALSTAT.DONE 1).put RFRX_IRQ.CALEND 1
      let s := setCode (s.get RFRX_GAIN.MAXCODE) (64 * s.laneSampleNow) s
      txKick (txPrep (blankEnd (fun l => { l with blankCal := false }) s))
    else s

/-- TEMP_MEASURE: the measurement of a slot (R182), in 0.25 °C. -/
def tempMeasure (temp : Int) (s : State) : State :=
  let s := s.putI RFRX_TEMP.TNOW temp
  let lim : Nat := 4 * max 2 (min 30 (s.get RFRX_CALCFG.TDELTA))
  if lim < (temp - s.getI RFRX_TEMP.TCAL).natAbs ∧ !s.rfrx.tempDone then
    (s.put RFRX_IRQ.TEMPREQ 1).modRx (fun r => { r with tempDone := true })
  else s

/-! ## The crystal-error loop (R183, R184) -/

/-- R184: a tick boundary: the value written to TRIM comes into force, held to its range. -/
def trimApply (s : State) : State :=
  let v := s.getI RFRX_TRIM.TRIM
  let t := clampInt (-5000) 5000 v
  ((s.putI RFRX_TRIM.TRIM t).modRx (fun r => { r with trimLive := t })).whenB (t != v) (fun s => s.put RFRX_IRQ.TRIMSAT 1)

/-- R183: m of a slot's frames; with weights that sum to zero the spec states none, and it is a free value. -/
def slotMean (fs : List (Int × Nat)) (s : State) : Int × State :=
  let w (x : Int × Nat) : Int := (min 30 x.2 : Nat)
  let sw : Int := (fs.map w).foldl (· + ·) 0
  if sw = 0 then
    let (n, s) := s.draw
    (signedOf 16 (Config.freeNat n), s)
  else (roundDiv ((fs.map (fun x => w x * x.1)).foldl (· + ·) 0) sw, s)

/-- TRIM_UPDATE: the first boundary of a slot (R183). -/
def trimUpdate (s : State) : State :=
  let fs := s.rfrx.frames
  let s := s.modRx (fun r => { r with frames := [] })
  if s.get RFRX_TRIMCFG.MODE ≠ 1 then s
  else
    let (m, s) := slotMean fs s
    let s := (s.putI RFRX_TRIMSTAT.MEAN (clampInt (-32767) 32767 m)).put RFRX_TRIMSTAT.N (min 255 fs.length)
    if fs.length < max 1 (s.get RFRX_TRIMCFG.NMIN) then s
    else
      let top : Int := (max 1 (s.get RFRX_TRIMCFG.MAXSTEP) : Nat)
      let d := clampInt (-top) top (roundDiv m (2 ^ s.get RFRX_TRIMCFG.GAINSH))
      let t := clampInt (-5000) 5000 (s.getI RFRX_TRIM.TRIM) + d
      trimApply ((s.whenB (decide (t < -5000) || decide (5000 < t)) (fun s => s.put RFRX_IRQ.TRIMSAT 1)).putI RFRX_TRIM.TRIM
        (clampInt (-5000) 5000 t))

/-! ## Commands -/

/-- A command of the front end or the Loom: with the RADIO domain on and the clocks running. -/
def onRx (f : State → State) (s : State) : Out := .next (if s.radioOn && s.clocked then f s else s)

def execSpanWrite (data : Word) (s : State) : Out := .next (viaBus Reg.RFRX_SPAN (spanWrite data) s)
def execRxRetune (band : Bool) (s : State) : Out := onRx (rxRetune band) s
def execGainLimitWrite (data : Word) (s : State) : Out := .next (viaBus Reg.RFRX_GAIN (gainLimitWrite data) s)
def execClipEvent (clip : BitVec 64) (last : Fin 25600) (delay : Fin 65) (s : State) : Out := onRx (clipEvent clip last.val delay.val) s
def execClipStep (s : State) : Out := onRx clipStep s
def execGainStep (s : State) : Out := onRx gainInstant s
def execAgcStep (lane : Fin 96) (rms : Int) (s : State) : Out := onRx (agcStep lane.val rms) s
def execEnergyBlock (lane : Fin 96) (level : Int) (s : State) : Out := onRx (energyBlock lane.val level) s
def execCalReqVco (force : Bool) (s : State) : Out := .next (viaBus Reg.RFRX_CALREQ (calRequest 1 force) s)
def execCalReqAdc (force : Bool) (s : State) : Out := .next (viaBus Reg.RFRX_CALREQ (calRequest 2 force) s)
def execCalReqDc (force : Bool) (s : State) : Out := .next (viaBus Reg.RFRX_CALREQ (calRequest 4 force) s)
def execCalReqIq (force : Bool) (s : State) : Out := .next (viaBus Reg.RFRX_CALREQ (calRequest 8 force) s)
def execRxCalStart (s : State) : Out := onRx calStart s
def execCalWaitLimit (s : State) : Out := onRx calWaitLimit s
def execRxCalStepDone (failed : Bool) (temp : BitVec 16) (s : State) : Out := onRx (calStepDone failed temp.toInt) s
def execTempMeasure (temp : BitVec 16) (s : State) : Out := onRx (tempMeasure temp.toInt) s
def execTrimUpdate (s : State) : Out := onRx trimUpdate s
def execSentinelDetection (lane : Fin 96) (metric : BitVec 8) (level fest dgCorr : Int) (idx : Fin 400) (part : Bool) (s : State) : Out :=
  onRx (detection lane.val metric.toNat level fest dgCorr idx.val part) s
def execSfdMatch (lane : Fin 96) (sfd1 : Bool) (idx : Fin 400) (time : DWord) (s : State) : Out :=
  onRx (sfdMatch lane.val sfd1 idx.val time.toNat) s
def execSfdTimeout (lane : Fin 96) (s : State) : Out := onRx (sfdTimeout lane.val) s
def execPacketEnd (lane : Fin 96) (s : State) : Out := onRx (packetSamplesEnd lane.val) s
def execTailJobRunnable (lane : Fin 96) (s : State) : Out := onRx (makeTail lane.val) s

/-! ## Weft engines and the Shuttle, seen from outside (chapter 07) -/

/-- A DMA command that code of an engine writes to WIO_DMA (R145). -/
def execLaneIn (n : Fin 32) (len : BitVec 12) (loc : BitVec 13) (remote : Word) (s : State) : Out :=
  onRx (queueDma n ⟨.laneIn, len.toNat, loc.toNat, remote⟩) s
def execCtxIn (n : Fin 32) (len : BitVec 12) (loc : BitVec 13) (remote : Word) (s : State) : Out :=
  onRx (queueDma n ⟨.ctxIn, len.toNat, loc.toNat, remote⟩) s
def execCtxOut (n : Fin 32) (len : BitVec 12) (loc : BitVec 13) (remote : Word) (s : State) : Out :=
  onRx (queueDma n ⟨.ctxOut, len.toNat, loc.toNat, remote⟩) s
def execSramIn (n : Fin 32) (len : BitVec 12) (loc : BitVec 13) (remote : Word) (s : State) : Out :=
  onRx (queueDma n ⟨.sramIn, len.toNat, loc.toNat, remote⟩) s
def execSramOut (n : Fin 32) (len : BitVec 12) (loc : BitVec 13) (remote : Word) (s : State) : Out :=
  onRx (queueDma n ⟨.sramOut, len.toNat, loc.toNat, remote⟩) s
def execMacOut (n : Fin 32) (len : BitVec 12) (loc : BitVec 13) (remote : Word) (s : State) : Out :=
  onRx (queueDma n ⟨.macOut, len.toNat, loc.toNat, remote⟩) s

/-- DMA_COMPLETE: the oldest command of an engine completes. -/
def execDmaComplete (n : Fin 32) (s : State) : Out := onRx (dmaComplete n) s

/-- INTAKE_ACCEPT: the intake takes the block of an engine's oldest command, a MAC_OUT (R224). -/
def execIntakeAccept (n : Fin 32) (s : State) : Out :=
  onRx (fun s => match (s.eng n).dma with
    | c :: _ => if c.kind == .macOut then dmaComplete n s else s
    | [] => s) s

/-- WIO_DMAWAIT (R147): a load that waits until no command is outstanding and then gives 0; g0 stays 0. -/
def execWioDmawait (n : Fin 32) (rd : BitVec 5) (s : State) : Out :=
  onRx (fun s => if (s.eng n).st == .running && (s.eng n).dma.isEmpty then
      s.modEng n (fun e => { e with cpu := { e.cpu with g := e.cpu.g.set rd.toFin 0 } })
    else s) s

/-- WIO_END, WIO_REMAIN (R149, R150). -/
def execWioEnd (n : Fin 32) (status : BitVec 8) (s : State) : Out := onRx (wioEnd n status) s
def execWioRemain (n : Fin 32) (v : Word) (s : State) : Out := onRx (wioRemain n v.toNat) s

/-- JOB_POST: a write of SHTL_POST (R162). -/
def execJobPost (m : Master) (w0 : Word) (s : State) : Out := .next (viaMaster m Reg.SHTL_POST (firmwarePost m w0) s)

/-- JOB_DISPATCH (R156, R158): these engines take their next jobs. -/
def execJobDispatch (who : BitVec 32) (s : State) : Out := onRx (dispatch who) s

/-- BUDGET_EXCEEDED, OVERBUDGET (R153). -/
def execBudgetExceeded (n : Fin 32) (s : State) : Out := onRx (budgetExceeded n) s
def execOverbudget (n : Fin 32) (s : State) : Out := onRx (overBudget n) s

/-- HALT: a write of SHTL_CTRL.HALT (R165). -/
def execShtlHalt (on : Bool) (s : State) : Out := .next (viaBus Reg.SHTL_CTRL (setHalt on) s)

/-- RESUME: a write of WEFT_STATn.RESUME (R152). -/
def execWeftResume (n : Fin 32) (s : State) : Out := .next (viaBus (Reg.WEFT_STAT n.val) (resume n) s)

/-- MSW_WINDOW_EXPIRY (R230). -/
def execMswWindowExpiry (s : State) : Out := onRx mswExpiry s

end Sys2Proof.Machine
end

