-- ==== Sys2Proof/Machine/Spis.lean ====
section
/-! DEFINITION. Machine/Spis.lean: the host port: frames, replies, mailboxes (R419 to R428). A command carries a whole frame
as the host clocked it, or says how it was broken. -/
namespace Sys2Proof.Machine

/-- The host port changed. -/
def State.modSpis (s : State) (f : SpisSt → SpisSt) : State := { s with spis := f s.spis }

/-- Statuses of R421. -/
def hsOk : Nat := 0x00
def hsNoreply : Nat := 0x01
def hsBadcmd : Nat := 0x02
def hsFull : Nat := 0x03

/-- BRK codes of R422. -/
def brkShort : Nat := 1
def brkLong : Nat := 2
def brkCrc : Nat := 3
def brkOverrun : Nat := 4
def brkBadlen : Nat := 5

/-- The bytes of a frame or reply with its CRC (R420). -/
def hostBytes (first flags : Nat) (payload : List Byte) : List Byte :=
  let b := leBytes 1 first ++ leBytes 1 flags ++ leBytes 2 payload.length ++ payload
  b ++ (leBytes 2 (crc16Host b)).reverse

/-- What HS_MISO carries while the next frame is clocked (R421, R423): 0xE5 throughout while the reply is not ready. -/
def State.hostMiso (s : State) (n : Nat) : List Byte :=
  if s.spis.pend then List.replicate n 0xE5
  else
    let r := s.spis.kept.getD ⟨hsNoreply, 0, []⟩
    (hostBytes r.status (r.tag + 16 * s.spis.brk + 128 * b2n s.hsIrq) r.payload ++ List.replicate n 0).take n

/-- R422: a frame is broken. -/
def hostBroken (code : Nat) (s : State) : State :=
  let s := if code = brkShort then s.sat SPIS_CNT0.SHORT else if code = brkLong then s.sat SPIS_CNT0.LONG
    else if code = brkCrc then s.sat SPIS_CNT0.CRC else if code = brkOverrun then s.sat SPIS_CNT1.OVERRUN else s.sat SPIS_CNT1.BADLEN
  ((s.put SPIS_STAT.LASTBRK code).put SPIS_IRQ.BROKEN 1).modSpis (fun p => { p with brk := code })

/-- R423: a frame that begins before the reply is ready. -/
def hostBusy (s : State) : State := (s.sat SPIS_CNT0.BUSY).modSpis (fun p => { p with busySeen := true })

/-- R423: a frame of `n` bytes has clocked out the kept reply: SPIS_ATTN.REPLY clears when it went whole. -/
def replySent (n : Nat) (s : State) : State :=
  if ((s.spis.kept.map (fun r => r.payload.length)).getD 0) + 6 ≤ n then s.put SPIS_ATTN.REPLY 0 else s

/-- R422, R423: a frame found broken: whether its clocks have carried the kept reply whole is not told, so whether
SPIS_ATTN.REPLY clears is free. -/
def brokenSent (s : State) : State :=
  if s.on SPIS_ATTN.REPLY then
    let (d, s) := s.draw
    if Config.freeNat d % 2 = 1 then s.put SPIS_ATTN.REPLY 0 else s
  else s

/-- The reply to the last taken frame becomes ready. -/
def hostReply (status : Nat) (payload : List Byte) (s : State) : State :=
  let late := s.spis.pend && s.spis.busySeen
  let s := s.modSpis (fun p => { p with
    kept := some ⟨status, s.get SPIS_STAT.LASTTAG, payload⟩, pend := false, busySeen := false })
  if late then s.put SPIS_ATTN.REPLY 1 else s

/-- A frame that passes the tests of R422 arrives with CMD, TAG and payload: taken and executed; answered busy
while the reply before is not ready, whatever it holds (R423); or, while HS_RDY is low, broken with OVERRUN. -/
def hostFrame (cmd : Nat) (tag : BitVec 4) (payload : List Byte) (f : State → State) (s : State) : State :=
  if !(s.on SPIS_CTRL.EN) || !(s.on SYSC_CLKGATE.SPIS) || !s.clocked then s
  else if s.spis.pend then hostBusy s
  else if 2048 < payload.length then hostBroken brkBadlen (replySent (6 + payload.length) s)
  else if !s.hsRdy then hostBroken brkOverrun (replySent (6 + payload.length) s)
  else
    let s := replySent (6 + payload.length) s
    let s := ((s.put SPIS_STAT.LASTTAG tag.toNat).put SPIS_STAT.LASTCMD cmd).put SPIS_IRQ.FRAME 1
    f (s.modSpis (fun p => { p with brk := 0, busySeen := false, taken := p.taken + 1 }))

/-! ## Mailboxes (R428) -/

/-- Bytes of a mailbox ring. -/
def State.mbSize (s : State) (k : Nat) : Nat := 4096 * 2 ^ s.get (SPIS_MBBASE.SIZE k)

/-- Its base. -/
def State.mbBase (s : State) (k : Nat) : Nat := 4096 * (s.get (SPIS_MBBASE.ADDR k))

/-- The mailbox is in use, in control SRAM. -/
def State.mbOn (s : State) (k : Nat) : Bool := s.on (SPIS_MBBASE.EN k) && inSram (s.mbBase k) (s.mbSize k)

/-- A record: U16 length, U16 0, the data, padded to words. -/
def mbRecord (d : List Byte) : List Byte := leBytes 2 d.length ++ [0, 0] ++ d ++ List.replicate ((4 - d.length % 4) % 4) 0

/-- MBOX_PUT: the record enters mailbox 0, or FULL. -/
def mboxPut (d : List Byte) (s : State) : State :=
  if d = [] then hostReply hsBadcmd [] s
  else if !(s.mbOn 0) then hostReply hsFull [] s
  else
    let size := s.mbSize 0
    let r := mbRecord d
    let wr := 4 * s.get (SPIS_MBPTR.WR 0) % size
    let rd := 4 * s.get (SPIS_MBPTR.RD 0) % size
    let free := if rd = wr then size else (rd + size - wr) % size
    let pad := if size < wr + r.length then size - wr else 0
    if free < pad + r.length + 4 then hostReply hsFull [] s
    else
      let s := if 0 < pad then s.wn (s.mbBase 0 + wr) 4 0xFFFF else s
      let at_ := if 0 < pad then 0 else wr
      let s := s.wbytes (s.mbBase 0 + at_) r
      hostReply hsOk [] ((s.put (SPIS_MBPTR.WR 0) ((at_ + r.length) % size / 4)).put SPIS_IRQ.MBOX 1)

/-- MBOX_GET: the oldest record of mailbox 1 leaves it, any PAD record with it. -/
def mboxGet (s : State) : State :=
  if !(s.mbOn 1) || !s.mbox1 then hostReply hsOk [] s
  else
    let size := s.mbSize 1
    let rd := 4 * s.get (SPIS_MBPTR.RD 1) % size
    let rd := if s.rn (s.mbBase 1 + rd) 2 = 0xFFFF then 0 else rd
    let wr := 4 * s.get (SPIS_MBPTR.WR 1) % size
    if rd = wr then hostReply hsOk [] (s.put (SPIS_MBPTR.RD 1) (rd / 4))
    else
      let len := min 2048 (s.rn (s.mbBase 1 + rd) 2)
      let d := s.bytes (s.mbBase 1 + rd + 4) len
      hostReply hsOk d ((s.put (SPIS_MBPTR.RD 1) ((rd + 4 + (len + 3) / 4 * 4) % size / 4)).put SPIS_IRQ.MBGET 1)

/-- ATTN: SW bits named in the mask clear. -/
def hostAttn (d : List Byte) (s : State) : State :=
  if d.length ≠ 4 then hostReply hsBadcmd [] s
  else
    let s := s.put SPIS_ATTN.SW (s.get SPIS_ATTN.SW &&& (255 - leNat d % 256))
    hostReply hsOk (leBytes 4 s.spisAttn.toNat) s

/-- R424: a write of SPIS_CTRL: EN = 0 clears the kept reply and ends the host's dictionary session (R455). -/
def spisCtrlWrite (d : Word) (s : State) : State :=
  let s := s.plainWrite Reg.SPIS_CTRL d
  if s.on SPIS_CTRL.EN then s
  else endSess (· == .host) (s.modSpis (fun p => { p with kept := none, pend := false, busySeen := false }))

/-- SPIS_MBPTRk: the pointer that the bridge keeps is not written (R428). -/
def mbptrWrite (k : Nat) (d : Word) (s : State) : State :=
  if k = 0 then s.put (SPIS_MBPTR.RD 0) ((SPIS_MBPTR.RD 0).of d) else s.put (SPIS_MBPTR.WR 1) ((SPIS_MBPTR.WR 1).of d)

/-! ## Commands -/

/-- R425: NOP, any payload. -/
def execHostNop (tag : BitVec 4) (payload : List (BitVec 8)) (s : State) : Out :=
  .next (hostFrame 0x00 tag payload (hostReply hsOk []) s)

/-- R425: REPEAT: the kept reply stays, with its TAG. -/
def execHostRepeat (tag : BitVec 4) (payload : List (BitVec 8)) (s : State) : Out := .next (hostFrame 0x01 tag payload id s)

/-- R425, R428. -/
def execMboxPut (tag : BitVec 4) (payload : List (BitVec 8)) (s : State) : Out := .next (hostFrame 0x03 tag payload (mboxPut payload) s)

/-- R425, R428. -/
def execMboxGet (tag : BitVec 4) (payload : List (BitVec 8)) (s : State) : Out :=
  .next (hostFrame 0x04 tag payload (if payload = [] then mboxGet else hostReply hsBadcmd []) s)

/-- R425. -/
def execHostAttn (tag : BitVec 4) (payload : List (BitVec 8)) (s : State) : Out := .next (hostFrame 0x05 tag payload (hostAttn payload) s)

/-- R422: a broken frame (a busy one while the reply before is not ready, R423): 1 SHORT, 2 LONG, 3 CRC, 4 OVERRUN, 5 BADLEN. -/
def execBrokenFrame (code : BitVec 3) (s : State) : Out :=
  .next (if s.on SPIS_CTRL.EN && s.on SYSC_CLKGATE.SPIS && s.clocked && decide (1 ≤ code.toNat) && decide (code.toNat ≤ 5) then
    (if s.spis.pend then hostBusy s else hostBroken code.toNat (brokenSent s)) else s)

/-- R423. -/
def execBusyFrame (s : State) : Out := .next (if s.on SPIS_CTRL.EN && s.on SYSC_CLKGATE.SPIS && s.clocked && s.spis.pend then hostBusy s else s)

/-- R424. -/
def execSpisEnableWrite (data : Word) (s : State) : Out := .next (viaBus Reg.SPIS_CTRL (spisCtrlWrite data) s)

end Sys2Proof.Machine
end

