-- ==== Sys2Proof/Machine/Twil.lean ====
section
/-! DEFINITION. Machine/Twil.lean: the Twill pair (chapter 23): states, the link, time at the standby, takeover, split. The
parts that carry dictionary items stand in TwilRows.lean. -/
namespace Sys2Proof.Machine

/-! ## States (R485) -/

/-- TW_LIVE follows the state (R485). -/
def twLiveFollow (s : State) : State := { s with pins := { s.pins with twLive := s.pairState != pairOff } }

/-- A change of state with its interrupt. -/
def pairEnter (st : Nat) (s : State) : State :=
  if s.pairState = st then s
  else
    let s := twLiveFollow ((s.put TWIL_STAT.STATE st).put TWIL_IRQ.STATE 1)
    if st = pairStandby ∨ st = pairStart then macStill s else s

/-- INSYNC with its interrupt (R487). -/
def setInsync (b : Bool) (s : State) : State :=
  if s.on TWIL_STAT.INSYNC = b then s else (s.putB TWIL_STAT.INSYNC b).put TWIL_IRQ.INSYNC 1

/-- R496: SPLIT follows the link and PLIVE in a part that is STANDBY or ACTIVE. -/
def splitFollow (s : State) : State :=
  let live := s.on TWIL_STAT.PLIVE
  if s.on TWIL_STAT.LINK || !live then s.put TWIL_STAT.SPLIT 0
  else if (s.standby || s.pairState == pairActive) && !(s.on TWIL_STAT.SPLIT) then
    (s.put TWIL_STAT.SPLIT 1).put TWIL_IRQ.SPLIT 1
  else s

/-- A part becomes ACTIVE: a former standby issues counters from the block after its newest held block (R494, R499), its
hold ring is emptied, and its MAC goes on. -/
def becomeActive (s : State) : State :=
  if s.pairState = pairActive then s
  else
    let was := s.standby
    let s := pairEnter pairActive (s.modTwil (fun t => { t with held := [], txb := [], force := false, handoverIn := none }))
    let s := if was then counterTakeover s else s
    if s.radioOn then macGo s else s

/-- A part becomes or stays STANDBY on resolution of the roles: INSYNC clears (R486). -/
def becomeStandby (s : State) : State := setInsync false (pairEnter pairStandby s)

/-! ## The link (R482 to R484) -/

/-- R482: what the part's HELLO carries. -/
def State.hello (s : State) : List Byte :=
  leBytes 1 (s.get TWIL_CFG.VER) ++ leBytes 1 s.pairState ++ leBytes 1 (s.get GPIO_STRAP.ROLE) ++ [0] ++ leBytes 8 s.factoryExt
    ++ ((List.range 32).map (fun n => leBytes 2 (s.kstat n).toNat)).flatten

/-- R483: ACK takes frames off the list of unacknowledged ones, and waiting ones take their place. The acknowledged end
record of a synchronisation sets INSYNC in the active part (R487; log entry 26). -/
def twAck (ack : Nat) (s : State) : State :=
  let acked (f : TwFrame) : Bool := decide ((ack + 65536 - f.seq) % 65536 < 32768)
  let gone := s.twil.unacked.filter acked
  let rest := s.twil.unacked.filter (fun f => !(acked f))
  let n := 64 - rest.length
  let s1 := s.modTwil (fun t => { t with unacked := rest ++ (t.waitq.take n).map (fun f => { f with firstAt := s.now, sentAt := s.now }), waitq := t.waitq.drop n })
  match s.twil.endSeq with
  | some e => if gone.any (fun f => f.seq == e) then setInsync true (s1.modTwil (fun t => { t with endSeq := none })) else s1
  | none => s1

/-- A command of the Twill link: with the domain on and the pair mode on. -/
def onTwil (f : State → State) (s : State) : State := if s.ringOn && s.pairState != pairOff && s.clocked then f s else s

/-- R482: a frame arrives; a bad one is counted. The ACK it carries is taken. -/
def twFrame (h : TwHdr) (act : State → State) (s : State) : State :=
  onTwil (fun s =>
    if h.bad then s.sat TWIL_CNT0.ERR
    else if s.on TWIL_STAT.LINK then act (twAck h.ack.toNat s) else s) s

/-- R483: a sequenced frame: only the next SEQ is taken. -/
def twSeq (h : TwHdr) (act : State → State) (s : State) : State :=
  twFrame h (fun s =>
    if h.seq.toNat = (s.twil.rxSeq + 1) % 65536 then act (s.modTwil (fun t => { t with rxSeq := h.seq.toNat })) else s) s

/-- R487: an item of a mirror frame counts at the standby only. -/
def mirrorSeq (h : TwHdr) (act : State → State) (s : State) : State :=
  twSeq h (fun s => if s.standby then act s else s) s

/-- R501: two protocol versions are compatible. -/
def versOk (a b : Nat) : Bool := a / 16 == b / 16 && decide (a % 16 ≤ b % 16 + 1) && decide (b % 16 ≤ a % 16 + 1)

/-- R484, R486, R501: a HELLO while the link is down; the part answers with its own. -/
def twHello (ver state role addr : Nat) (kcv : List Nat) (s : State) : State :=
  if s.on TWIL_STAT.LINK then s
  else
    let ok := versOk (s.get TWIL_CFG.VER) ver
    let s := (s.put TWIL_STAT.PVER ver).putB TWIL_STAT.INCOMPAT (!ok)
    let s := s.modTwil (fun t => { t with helloOk := ok, partnerRole := decide (role % 2 = 1), partnerAddr := addr, partnerState := state % 4, partnerKcv := kcv })
    twUnseq 0x01 s.hello s

/-- R486: the part's role as the link comes up. -/
def resolveRole (s : State) : State :=
  let own := s.on GPIO_STRAP.ROLE
  let same := own == s.twil.partnerRole
  let higher := decide (s.twil.partnerAddr < s.factoryExt)
  let s := s.putB TWIL_STAT.ROLECONF same
  let s := if same then s.put TWIL_IRQ.ROLECONF 1 else s
  let act := s.pairState == pairActive
  let pact := s.twil.partnerState == pairActive
  if act && pact then
    let s := s.put TWIL_IRQ.DUALACT 1
    if (if same then higher else !own) then s else becomeStandby s
  else if act then s
  else if pact then becomeStandby s
  else if (if same then higher else !own) then becomeActive s
  else becomeStandby s

/-- R487: KCVs of the partner's HELLO differ from the part's own. -/
def State.keysDiffer (s : State) : Bool := s.twil.partnerKcv != (List.range 32).map (fun n => (s.kstat n).toNat % 65536)

/-- INSYNC clears and a full synchronisation is to start, in whichever part is active (R486, R487). -/
def twFresh (s : State) : State := setInsync false (s.modTwil (fun t => { t with syncDue := true }))

/-- R484: the link comes up: numbering of frames begins afresh, roles are resolved, key check values compared. A
synchronisation by the active part follows. -/
def twLinkUp (s : State) : State :=
  if s.on TWIL_STAT.LINK || !s.twil.helloOk then s
  else
    let s := s.modTwil (fun t => { t with seqNext := 0, rxSeq := 0xFFFF, unacked := [], waitq := [], helloOk := false, resPend := [], endSeq := none, relays := [] })
    let s := (s.put TWIL_STAT.LINK 1).put TWIL_IRQ.LINK 1
    let s := s.putB TWIL_STAT.VERLOW (s.get TWIL_STAT.PVER % 16 != s.get TWIL_CFG.VER % 16)
    let s := twFresh (resolveRole (splitFollow s))
    if s.standby && s.keysDiffer then (s.put TWIL_STAT.KEYMIS 1).put TWIL_IRQ.KEYMIS 1 else s.put TWIL_STAT.KEYMIS 0

/-- SKIP: 0 acts as 1. -/
def State.twSkip (s : State) : Nat := max 1 (s.get TWIL_CFG.SKIP)

/-- R484, R494, R496: the link goes down: INSYNC clears; a standby records for each slot the block SKIP beyond its newest. -/
def twLinkDown (s : State) : State :=
  if !(s.on TWIL_STAT.LINK) then s
  else
    let s := (s.put TWIL_STAT.LINK 0).put TWIL_IRQ.LINK 1
    let s := setInsync false ((s.put TWIL_DELAY.DVALID 0).modTwil (fun t => { t with delays := [], dreqAt := none, handoverOut := none, handoverIn := none }))
    let s := if s.standby then
        (List.range 32).foldl (fun s n => match s.counts n, s.newestStart n with
          | true, some st => holdBlock n (st + 1024 * s.twSkip) s
          | _, _ => s) s
      else s
    splitFollow s

/-- R483: the oldest unacknowledged frame is 200 µs old: sending begins again from it. -/
def twRetransmit (s : State) : State :=
  if s.twil.unacked.isEmpty || !(s.on TWIL_STAT.LINK) then s
  else (s.modTwil (fun t => { t with unacked := t.unacked.map (fun f => { f with sentAt := s.now }) })).sat TWIL_CNT0.RETX

/-! ## Registers -/

/-- The pair mode ends: EN = 0 or the domain switches off. -/
def twOff (s : State) : State :=
  let s := pairEnter pairOff s
  let s := ((s.setReg Reg.TWIL_STAT 0).setReg Reg.TWIL_DELAY 0)
  twLiveFollow { s with twil := { takeovers := s.twil.takeovers, partnerAddr := s.twil.partnerAddr } }

/-- A write of TWIL_CFG: VER stays while EN = 1; EN starts or ends the pair mode (R485). -/
def twilCfgWrite (d : Word) (s : State) : State :=
  let was := s.on TWIL_CFG.EN
  let ver := s.get TWIL_CFG.VER
  let s := s.plainWrite Reg.TWIL_CFG d
  let s := if was then s.put TWIL_CFG.VER ver else s
  if s.on TWIL_CFG.EN then (if was then s else twUnseq 0x01 s.hello (pairEnter pairStart s)) else if was then twOff s else s

/-- R481: TWIL_PAIRADDR, discarded while EN = 1. -/
def pairAddrWrite (v : Nat) (s : State) : State :=
  if s.on TWIL_CFG.EN then s
  else (s.setReg Reg.TWIL_PAIRADDR_LO (BitVec.ofNat 32 v)).setReg Reg.TWIL_PAIRADDR_HI (BitVec.ofNat 32 (v / 2 ^ 32))

/-- R487: RESYNC: INSYNC clears and a full synchronisation is to start. -/
def twResync (s : State) : State := twFresh s

/-- R497: FORCE. -/
def twForce (s : State) : State := if s.standby then s.modTwil (fun t => { t with force := true }) else s

/-- R499: YIELD: a HANDOVER that names the next boundary goes out, and nothing more is transmitted. -/
def twYield (s : State) : State :=
  if s.pairState == pairActive && s.on TWIL_STAT.LINK && s.twil.partnerState == pairStandby && s.on TWIL_STAT.INSYNC
      && s.twil.handoverOut.isNone then
    let t := ((s.reg Reg.SYSC_TICK).toNat + 1) % 2 ^ 32
    twSend 0x18 (leBytes 4 t) (s.modTwil (fun x => { x with handoverOut := some t }))
  else s

/-! ## Time (R489) -/

/-- DELAY of the link in 32.32, to the nearest. -/
def State.twDelay (s : State) : Int := roundDiv (2 ^ 32 * s.get TWIL_DELAY.DELAY) 16000000000

/-- R489: the TICK frame of the active part at the present count. -/
def twTick (state origin : Nat) (s : State) : State :=
  let s := s.modTwil (fun t => { t with partnerState := state % 4 })
  if s.standby && state % 4 == pairActive && s.on TWIL_DELAY.DVALID then
    let ref_ := wrapInt 64 ((origin : Int) + s.twDelay)
    let d := ntDiff s.ntRead ref_
    let ns := roundDiv (1000000000 * d) (2 ^ 32)
    let s := s.putI TWIL_TOFS.TOFS (clampInt (-(2 ^ 31 - 1)) (2 ^ 31 - 1) ns)
    if !(s.on TWIL_CFG.TFOLLOW) then s
    else
      let cmd (op : Nat) (force : Bool) (v : Int) (s : State) : State :=
        let w := wrapInt 64 v
        timeCmd op force ((s.setReg Reg.TIME_CORR_LO (BitVec.ofNat 32 w)).setReg Reg.TIME_CORR_HI (BitVec.ofNat 32 (w / 2 ^ 32)))
      if !s.time.valid then cmd 0x1 false ref_ s
      else if ns.natAbs ≤ s.get TIME_JUMPMAX.MAX then cmd 0x3 false (-d - s.slewLeft.tdiv ntQ) s
      else cmd 0x2 (s.on TWIL_CFG.TFORCE) (-d) s
  else s

/-- R484, R439: a DREQ arrives and is answered after `turn` counts. -/
def twDreq (turn : Nat) (s : State) : State := twUnseq 0x03 (leBytes 8 s.now ++ leBytes 8 (s.now + turn)) s

/-- R484, R439: a DRSP arrives. -/
def twDrsp (t2 t3 : Nat) (s : State) : State :=
  match s.twil.dreqAt with
  | none => s
  | some t1 =>
    let d : Int := ((s.now : Int) - t1) - signedOf 64 (wrapInt 64 ((t3 : Int) - t2))
    let ds := (d :: s.twil.delays).take 8
    let s := s.modTwil (fun t => { t with dreqAt := none, delays := ds })
    let s := s.put TWIL_DELAY.DELAY (clampInt 0 65535 (roundDiv (32 * ds.foldl (· + ·) 0) ds.length)).toNat
    if 4 ≤ ds.length then s.put TWIL_DELAY.DVALID 1 else s

/-! ## Mirrored items (R487) -/

/-- A table entry. -/
def mirrorEntry (i : Nat) (e : List Byte) (s : State) : State := if i < 8192 then tblPut i (e.take 32) s else s

/-- TBL items of 36 bytes each. -/
def mirrorEntries : Nat → List Byte → State → State
  | 0, _, s => s
  | n + 1, b, s => if b.length < 36 then s else mirrorEntries n (b.drop 36) (mirrorEntry (leNat (b.take 2)) (b.drop 4) s)

/-- R487: last accepted counters, taken as given. -/
def mirrorCounter (s : State) (p : Nat × Nat) : State := if p.1 < 8192 then tblPut p.1 (ePut (s.entry p.1) 16 4 p.2) s else s

/-- RES items of 16 bytes each. -/
def mirrorRes : Nat → List Byte → State → State
  | 0, _, s => s
  | n + 1, b, s =>
    if b.length < 16 then s
    else mirrorRes n (b.drop 16) (holdRes (leNat (b.take 1) % 32) ((b.drop 4).take 8) (leNat ((b.drop 12).take 4)) s)

/-- R499: the CTR frame of the boundary that a HANDOVER named has come: the partner becomes ACTIVE. -/
def handoverArrived (s : State) : State :=
  match s.twil.handoverIn with
  | some t =>
    if 0 ≤ signedOf 32 (wrapInt 32 (((s.reg Reg.SYSC_TICK).toNat : Int) - t)) then becomeActive s else s
  | none => s

/-- CTR frames of a boundary, 264 pairs each at most (R482). -/
def ctrFrames : Nat → List Nat → State → State
  | 0, _, s => s
  | n + 1, l, s =>
    let item (i : Nat) : List Byte := leBytes 2 i ++ [0, 0] ++ leBytes 4 (eN (s.entry i) 16 4)
    let s := twSend 0x11 ((l.take 264).map item).flatten s
    if l.length ≤ 264 then s else ctrFrames n (l.drop 264) s

/-- R491: a FWD frame at the active part: it goes through the MAC from step 1, its RXTIME turned into the part's own count. -/
def fwdFrame (nt : Nat) (d psdu : List Byte) (s : State) : State :=
  let u8 (i : Nat) : Nat := (d.getD i 0).toNat
  let u (i n : Nat) : Nat := leNat ((d.drop i).take n)
  let bond := s.laneF (u8 2) LOOM_LANE.BOND
  let f : RxFrame :=
    { pkt := u 0 2, lane := u8 2, mset := u8 3, mode := u8 4, flags := u8 5, rssi := signedOf 16 (u 8 2), snr := u8 0x0A
      lqi := u8 0x0B, e := if bitOf (u8 5) 0 then none else some (eOfFofs (signedOf 32 (u 0x0C 4)) (s.channelHz (u8 2) bond))
      trim := 0, rxTime := (s.countAtNt nt).toNat, rate := u8 0x12, status := stDone, psdu := psdu.take (u 6 2), desc := d }
  let s := s.sat TWIL_CNT1.FWD
  if s.radioOn then macGo (rxFrame true f s) else s

/-! ## Takeover (R493 to R495) -/

/-- R495: a held frame is delivered at a takeover. -/
def deliverHeld (s : State) (h : HeldFrame) : State :=
  if h.peer < 8192 ∧ s.tick.bnd ≤ h.bnd + 2 ∧ eN (s.entry h.peer) 16 4 < h.counter then
    if s.rxqFits h.record.length then
      let fl := leNat ((h.record.drop 4).take 2) ||| flagPossdup
      putLast h.peer h.counter ((rxqWrite (h.record.take 4 ++ leBytes 2 fl ++ h.record.drop 6) s).sat TWIL_CNT1.POSSDUP)
    else s
  else s

/-- R492, R493: the standby takes over at a boundary at which the link is down and its last window found no live partner
(PLIVE = 0). -/
def twTakeover (s : State) : State :=
  if s.standby && !(s.on TWIL_STAT.LINK) && !(s.on TWIL_STAT.PLIVE) then
    let held := s.twil.held
    let s := becomeActive (s.put TWIL_IRQ.TAKEOVER 1)
    held.foldl deliverHeld (s.modTwil (fun t => { t with takeovers := t.takeovers + 1 }))
  else s

/-- What the Twill block does at the part's tick boundary: TICK and CTR frames, the DREQ of every 16th tick, FORCE, and the
end of a handover (R482, R497, R499). -/
def twilTick (s : State) : State :=
  onTwil (fun s =>
    let tk := (s.reg Reg.SYSC_TICK).toNat
    let s := if s.on TWIL_STAT.LINK && tk % 16 == 0 then s.modTwil (fun t => { t with dreqAt := some s.now }) else s
    let changed := s.tbl.ctrChanged
    let s := { s with tbl := { s.tbl with ctrChanged := [] } }
    let s := if s.mirrors then ctrFrames 40 changed s else s
    let s := match s.twil.handoverOut with
      | some t =>
        if tk = t then
          let s := s.modTwil (fun x => { x with handoverOut := none })
          if s.pairState = pairActive then pairEnter pairStandby s else s
        else s
      | none => s
    let s := if s.twil.force && s.standby then (becomeActive s).put TWIL_IRQ.DUALACT 1 else s
    if s.on TWIL_STAT.LINK then
      twUnseq 0x02 (leBytes 4 tk ++ leBytes 1 s.pairState ++ leBytes 1 s.qual ++ [0, 0] ++ leBytes 8 s.ntRead) s
    else s) s

end Sys2Proof.Machine
end

