-- ==== Sys2Proof/Machine/TxRows.lean ====
section
/-! DEFINITION. Machine/TxRows.lean: what the events of the transmit chain do (chapter 11). -/
namespace Sys2Proof.Machine

/-- R240: an unscheduled request has not locked within 200 µs. -/
def lockFail (s : State) : State :=
  match s.tx.job with
  | some j => if j.req.start.isNone && (j.phase == .waiting || j.phase == .preparing) then txFinish txLockFail s else s
  | none => s

/-- R256: COEX_REQ and COEX_PRI go up ahead of a scheduled transmission. -/
def coexReqStart (s : State) : State :=
  match s.tx.job with
  | some j => if j.req.start.isSome && s.on RFTX_COEX.EN then coexWires true j.req.prio s else s
  | none => s

/-- R256: an unscheduled request has waited GNTWAIT for its grant. -/
def gntWaitOver (s : State) : State :=
  match s.tx.job with
  | some j => if j.phase == .grant then txFinish txDenied s else s
  | none => s

/-- R244 step 6, R252. -/
def rampDownEnd (s : State) : State :=
  match s.tx.job with
  | some j => if j.phase == .down then txAdvance .down .downEnd id (chargeDuty s) else s
  | none => s

/-- R23: 80 µs after the last TX sample the blanking of the transmission ends; the step of an RX calibration that paused
runs again from its start (R181). -/
def blankingEnd (s : State) : State :=
  if s.onAir then s
  else blankEnd (fun l => { l with blankTx := false }) (if s.rfrx.calRun = 0 then s else { s with rfrx := { s.rfrx with calAt := s.now } })

/-- R256: COEX_GNT grants. -/
def coexGranted (lowBat : Bool) (s : State) : State :=
  let s := { s with pins := { s.pins with coexGnt := !(s.on RFTX_COEX.GNTPOL) } }
  match s.tx.job with
  | some j => if j.phase == .grant then txStart lowBat s else s
  | none => s

/-- R237, R246: a write of a tap register. -/
def execFirWrite (n : Fin 16) (data : Word) (s : State) : Out := .next (viaBus (Reg.RFTX_FIR n) (txWrite (Reg.RFTX_FIR n) data) s)

/-- R239: the VCO calibration is requested. -/
def execTxCalVco (s : State) : Out := .next (viaBus Reg.RFTX_CALREQ (txCalRequest 1) s)

/-- R239, R241: the check is requested. -/
def execTxCalCheck (s : State) : Out := .next (viaBus Reg.RFTX_CALREQ (txCalRequest 2) s)

/-- R252: the next bucket of 10 s begins, in every power state but with the clock of the time base. -/
def execDutyBucketAdvance (s : State) : Out := .next (dutyAdvance s)

end Sys2Proof.Machine
end

