-- ==== Sys2Proof/Machine/Power.lean ====
section
/-! DEFINITION. Machine/Power.lean: the domains, what a loss of power or a reset leaves, the full calibration, and the
low-power states (chapters 04 and 05). -/
namespace Sys2Proof.Machine

/-- Power state machine changed. -/
def State.modPower (s : State) (f : PowerSt → PowerSt) : State := { s with power := f s.power }

/-! ## What is kept (R34, R83, R94, R108, R109) -/

/-- The registers at `a` for which `p` fails return to their reset values, and their totals start again. -/
def keepRegs (p : Nat → Bool) (s : State) : State :=
  { s with regs := s.regs.filter (fun (e : Nat × Word) => p e.1), totals := s.totals.filter (fun (e : Nat × Word) => p (e.1 / 32)) }

/-- The address lies in an array of `n` registers. -/
def inArray (base n stride a : Nat) : Bool := (List.range n).any (fun i => a == base + stride * i)

/-- Registers of AON and of the RTC section, kept across every reset but POR (R34, R83, R86, R89, R532). -/
def aonReg (a : Nat) : Bool :=
  a == Reg.SYSC_RSTCAUSE || a == Reg.SYSC_SUPSTAT || a == Reg.SYSC_CLKSTAT || a == Reg.SYSC_LPSTAT
    || a == Reg.EVR_OPSEC || a == Reg.EVR_PCYC || a == Reg.ID_BOOTSTAT || a == Reg.ID_TRIAL || a == Reg.SEC_ALMSTAT
    || (regionOf a == .regs && (blockOf a == 5 || blockOf a == 22))

/-- A BLK_COMMIT register of a block in the saved set: its GEN is kept (R108). -/
def savedCommit (b : Blk) : Bool := b != .ring

/-- The registers of the RADIO part of the saved set, live sets of LOOM, SHTL and MAC with what R274 adds (R94, R108). -/
def savedRadio : List Nat :=
  [Reg.RFRX_SPAN, Reg.RFRX_TRIM, Reg.RFRX_TEMP, Reg.RFTX_PWR, Reg.RFTX_SEQ] ++ (List.range 8).map Reg.RFTX_TCOMP
    ++ (List.range 8).map Reg.RFTX_TUNE ++ [Blk.loom, Blk.shtl, Blk.mac].flatMap (fun b => (shadowPairs b).map (·.2))
    ++ [Reg.MAC_SCHEDOFS, Reg.MAC_BSTAT]

/-- The RADIO part with its values: of RFTX_STAT only MASKF, the result of the TX check, is kept (R92, R108). -/
def State.radioPart (s : State) : List (Nat × Word) :=
  savedRadio.map (fun a => (a, s.reg a)) ++ [(Reg.RFTX_STAT, RFTX_STAT.MASKF.into 0#32 (s.get RFTX_STAT.MASKF))]

/-- The registers of CORE in the saved set (R108), and those of AON that deep sleep keeps beside them. -/
def deepKept (a : Nat) : Bool :=
  aonReg a || [Reg.SYSC_SUPCFG, Reg.SYSC_CLKCFG, Reg.SYSC_CLKGATE, Reg.SYSC_PDCTL, Reg.SYSC_WAKEEN, Reg.SYSC_GPWAKE,
      Reg.SYSC_WAKESRC, Reg.SYSC_TWAKE_LO, Reg.SYSC_TWAKE_HI, Reg.SYSC_RESUMEVEC, Reg.SYSC_GCOMMIT, Reg.SYSC_TICK,
      Reg.SYSC_TICKSTAT, Reg.BUS_CTRL, Reg.WDT_CTRL, Reg.GPIO_STRAP, Reg.GPIO_DIR, Reg.GPIO_OUT, Reg.GPIO_PULLEN,
      Reg.GPIO_PULLSEL, Reg.SPIM_CFG, Reg.SPIM_MAP, Reg.SPIS_CTRL, Reg.TIME_ADJ, Reg.TIME_JUMPMAX, Reg.TIME_SRVCFG,
      Reg.TIME_SRVLIM, Reg.TIME_DLY, Reg.TIME_STAT, Reg.TIME_COMMIT, Reg.SEC_CFG, Reg.SEC_EPOCH, Reg.SEC_LEDGER,
      Reg.SEC_ALMCFG].contains a
    || inArray (Reg.INTC_EN 0) 2 4 a || inArray (Reg.INTC_PRIO 0) 8 4 a || inArray (Reg.EVM_SRC 0) 24 4 a
    || inArray (Reg.GPIO_FSEL 0) 3 4 a || inArray (Reg.SPIM_DLY 0) 2 4 a || inArray (Reg.SPIM_RD 0) 4 4 a
    || inArray (Reg.SEC_XTSA 0) 8 4 a
    || (shadowPairs .time).any (fun p => p.2 == a)
    || (List.range 8).any (fun n => [Reg.TMR_CTRL n, Reg.TMR_RELOAD n, Reg.TMR_COUNT n, Reg.TMR_CMP0 n, Reg.TMR_CMP1 n].contains a)

/-- The registers of a domain's blocks. -/
def domainReg (d : PDom) (a : Nat) : Bool :=
  regionOf a == .regs && (match d with
    | .radio => decide (16 ≤ blockOf a) && decide (blockOf a ≤ 21)
    | .ring => blockOf a == 23 || blockOf a == 24
    | .msu => blockOf a == 7)

/-! ## Domains (R49, R91, R92, R94) -/

/-- The fields of a domain. -/
def pdctl : PDom → Field
  | .radio => SYSC_PDCTL.RADIO | .ring => SYSC_PDCTL.RING | .msu => SYSC_PDCTL.MSU
def pdstat : PDom → Field
  | .radio => SYSC_PDSTAT.RADIO | .ring => SYSC_PDSTAT.RING | .msu => SYSC_PDSTAT.MSU

/-- What RADIO holds beside its registers is lost; the duty buckets and the record shadow lie elsewhere (R94, R253). -/
def radioLost (s : State) : State :=
  { s with mem := s.mem.loseRadio, shtl := {}, rfrx := {}, loom := {}, demod := {}
           tx := { duty := s.tx.duty, record := s.tx.record, table := s.tx.table }
           mac := { vendor := s.mac.vendor, lastSync := s.mac.lastSync, hand := s.mac.hand, handPend := s.mac.handPend }
           pins := { s.pins with paEn := false, trswTx := false, lnaEn := false, coexReq := false, coexPri := false, tune := 0, paRamp := 0 } }

/-- RADIO switches off (R94): its part of the saved set goes into the store, everything else in it is lost. A transmission that
this cuts off is charged (R252). -/
def radioOff (s : State) : State :=
  if !s.radioOn then s
  else
    let s := cutCharge s
    let part := s.radioPart
    let gens := [Blk.loom, Blk.shtl, Blk.mac].map (fun b => ((cf b LOOM_COMMIT.GEN).reg,
      (LOOM_COMMIT.GEN.into 0#32 (s.get (cf b LOOM_COMMIT.GEN)))))
    let s := commitsLost [.loom, .shtl, .mac] (s.put SYSC_PDSTAT.RADIO 0)
    (radioLost (keepRegs (fun a => !(domainReg .radio a)) s)).modPower
      (fun p => { p with saved := part ++ gens, calRun := false, loomStart := false, radioOffDue := false })

/-- RING switches off: the bypass closes, the block's and the pair's state are lost (R68, R94, R99). -/
def ringOff (s : State) : State :=
  if !s.ringOn then s
  else
    let s := commitsLost [.ring] (twOff s |>.put SYSC_PDSTAT.RING 0)
    let s := keepRegs (fun a => !(domainReg .ring a)) s
    { s with ring := {}, twil := {}, pins := { s.pins with bypass := true, twLive := false } }

/-- MSU switches off (R94, R386). -/
def msuOff (s : State) : State :=
  if !s.msuOn then s
  else { mainsSpoil (keepRegs (fun a => !(domainReg .msu a)) (s.put SYSC_PDSTAT.MSU 0)) with msu := {} }

/-- A domain switches off. -/
def domainOff : PDom → State → State
  | .radio => radioOff | .ring => ringOff | .msu => msuOff

/-- Registers of RADIO that load from OTP when the domain powers up: the filter taps (R237). -/
def radioDefaults (s : State) : State :=
  (List.range 16).foldl (fun s n => s.setReg (Reg.RFTX_FIR n) (BitVec.ofNat 32 (firFactory.getD n 0))) s

/-- A domain powers up. RADIO restores its saved part and runs step 2 of the calibration set, or, at the first enable
after a reset or with the store zeroed, runs the full set (R91, R92, R94). -/
def domainOn (d : PDom) (s : State) : State :=
  if s.on (pdstat d) then s
  else
    let s := s.put (pdstat d) 1
    match d with
    | .radio =>
      let full := s.power.calFull || s.power.saved.isEmpty
      let s := radioDefaults s
      let s := if full then s else serviceChange (s.takeLive s.power.saved)
      let s := s.modRx (fun r => { r with trimLive := s.getI RFRX_TRIM.TRIM })
      let s := (s.put RFRX_CALSTAT.DONE 0).put RFRX_CALSTAT.BUSY 1
      handCheck (txPins (s.modPower (fun p => { p with calFull := full, calRun := true, calDeep := false })))
    | .ring | .msu => s

/-- R49, R94, R245: a domain is to switch off; RADIO waits for the end of a transmission, which lasts from the start of its
preparation (R233). -/
def domainStop (d : PDom) (s : State) : State :=
  if d == .radio && s.txBusy then s.modPower (fun p => { p with radioOffDue := true }) else domainOff d s

/-- A switchable domain's bit in a three-bit field. -/
def pdBit : PDom → Nat
  | .radio => 0 | .ring => 1 | .msu => 2

/-- R94: a write of one bit of SYSC_PDCTL: a 1 to RADIO or RING is discarded with XOFAIL set, and held while PLLRUN = 0, its
bit reading 0 until then (log entry 44). -/
def pdctlBit (d : PDom) (v : Bool) (s : State) : State :=
  if v then
    if s.on SYSC_CLKSTAT.XOFAIL && d != .msu then s
    else if !(s.on SYSC_LPSTAT.PLLRUN) && d != .msu then s.modPower (fun p => { p with heldPd := p.heldPd ||| (1#3 <<< pdBit d) })
    else domainOn d ((s.put (pdctl d) 1).modPower (fun p => if d == .radio then { p with radioOffDue := false } else p))
  else
    let s := (s.put (pdctl d) 0).modPower (fun p => { p with heldPd := p.heldPd &&& ~~~(1#3 <<< pdBit d) })
    domainStop d s

/-- A write of SYSC_PDCTL. -/
def pdctlWrite (d : Word) (s : State) : State :=
  [PDom.msu, PDom.ring, PDom.radio].foldl (fun s x => pdctlBit x (d.getLsbD (pdBit x)) s) s

/-- DOMAIN_ENABLE: a write that sets the domain's bit. -/
def execDomainEnable (d : PDom) (s : State) : Out := .next (viaBus Reg.SYSC_PDCTL (pdctlBit d true) s)

/-- DOMAIN_DISABLE. -/
def execDomainDisable (d : PDom) (s : State) : Out := .next (viaBus Reg.SYSC_PDCTL (pdctlBit d false) s)


/-- The calibrations of an enable or a deep-sleep wake have completed; `failed` flags XTRIMF, VCOF, ADCF, DCF, IQF, TXCHKF in
the order of RFRX_CALSTAT, `temp` is the temperature then (R91, R92, R106, R182); the gain code is MAXCODE (R173). The Loom starts at the next boundary, on a
deep-sleep wake at once. -/
def startCalDone (failed : BitVec 6) (temp : Int) (s : State) : State :=
  if !(s.radioOn && s.power.calRun) then s
  else
    let full := s.power.calFull
    let f := if full then failed.toNat else failed.toNat &&& 2
    let s := s.setReg Reg.RFRX_CALSTAT (s.reg Reg.RFRX_CALSTAT ||| BitVec.ofNat 32 (256 * f))
    let s := if full then tableRefresh ((s.putB RFTX_STAT.MASKF (bitOf f 5)).putI RFRX_TEMP.TCAL temp) else s
    let s := if full then s.modRx (fun r => { r with tempDone := false }) else s
    let s := ((s.put RFRX_CALSTAT.BUSY 0).put RFRX_CALSTAT.DONE 1).put RFRX_IRQ.CALEND 1
    let s := s.put RFRX_GAIN.CODE (s.get RFRX_GAIN.MAXCODE)
    let deep := s.power.calDeep
    let s := s.modPower (fun p => { p with calRun := false, calFull := false, calDeep := false, loomStart := !deep })
    let s := if deep then
        refreshLanes (s.modLoom (fun l => { l with running := true, unusable := true, blankMask := maskRun 0 s.laneSampleNow 0#400 }))
      else s
    txKick (txPrep s)

def execStartCalibrationDone (failed : BitVec 6) (temp : BitVec 16) (s : State) : Out := .next (startCalDone failed temp.toInt s)

/-! ## Loss of CORE (R83, R107, R109) -/

/-- A unit that a bank programs when power goes down completes (R80); everything else that the controller had in hand is
given up. An erase stays named in the journal (R398). -/
def finishUnit (k : Bool) (s : State) : State :=
  let s := match s.unitRuns k with
    | some j => (match xtsUnit j.xts j.addr (j.data.headD []) with
      | some d => storeUnit k j.addr d s
      | none => s)
    | none => s
  s.modBank k (fun b => { b with prog := none, progQ := [], erase := none, eraseQ := [], suspReq := false })

/-- An OTP word whose program is cut off holds a free value. -/
def cutOtp (s : State) : State :=
  match s.nvm.otp with
  | some (a, _) =>
    let (d, s) := s.draw
    { s.wn a 4 (Config.freeWord d).toNat with nvm := { s.nvm with otp := none } }
  | none => s

/-- CORE and every switchable domain lose their state, registers kept where `p` holds. -/
def coreLost (p : Nat → Bool) (s : State) : State :=
  let s := cutCharge (cutOtp (finishUnit true (finishUnit false s)))
  let s := keepRegs p s
  { pending := s.pending, now := s.now, free := s.free, regs := s.regs, totals := s.totals,
    mem := s.mem.loseSram.loseRadio.loseTable,
    pins := { pads := s.pins.pads, ext := s.pins.ext, coexGnt := s.pins.coexGnt, io1Off := s.pins.io1Off, io2Off := s.pins.io2Off },
    power := { st := s.power.st, vbatLow := s.power.vbatLow, pinLow := s.power.pinLow, xoDead := s.power.xoDead, lpFrac := s.power.lpFrac,
               wdtFrom := s.power.wdtFrom, calFull := s.power.calFull, debugLocked := s.power.debugLocked,
               saved := s.power.saved, storeGone := s.power.storeGone, por := s.power.por, rtcOff := s.power.rtcOff,
               gpSample := s.power.gpSample, entryWake := s.power.entryWake, ticksOff := true },
    boot := { due := false, relAt := s.boot.relAt, trialAt := s.boot.trialAt },
    tick := { bnd := s.tick.bnd, startAt := s.now },
    tx := { duty := s.tx.duty, record := s.tx.record, table := s.tx.table },
    mac := { vendor := s.mac.vendor },
    sec := { almReport := s.sec.almReport },
    time := { bc := s.now },
    nvm := { bank0 := s.nvm.bank0, bank1 := s.nvm.bank1, scrubJ := s.nvm.scrubJ, scrubAt := s.nvm.scrubJ, otpZero := s.nvm.otpZero },
    rtc := s.rtc,
    evr := { fromPor := s.evr.fromPor, opsAt := s.evr.opsAt },
    dict := { locked := s.dict.locked } }

/-! ## Reset (R83 to R86) -/

/-- A reset cause other than POR asserts: the scope of R83, the cause's bit. PLLs that run go on, but for a brown-out, at which
they restart and the count goes on with the low-power clock (R84). -/
def resetBy (cause : Field) (s : State) : State :=
  if s.power.st == .off || s.power.por then s
  else
    let run := !(cause == SYSC_RSTCAUSE.BOR) && s.on SYSC_LPSTAT.PLLRUN && !s.power.xoDead
    let s := coreLost aonReg s
    let s := ((s.put SYSC_CLKSTAT.XOFAIL 0).put SYSC_CLKSTAT.CORERC 0).put cause 1
    let s := (s.put SEC_ALMSTAT.LATCHED 0).put SEC_ALMSTAT.SRC 0
    let s := ((s.put ID_BOOTSTAT.FELLBACK 0).put ID_BOOTSTAT.TRIAL 0).put ID_BOOTSTAT.MARKS 0
    let s := s.setReg Reg.SYSC_LPSTAT ((if run then 0x100#32 else 0#32) ||| (s.reg Reg.SYSC_LPSTAT &&& 0x80000000#32))
    { s with power := { s.power with st := .reset, calFull := true, saved := [], storeGone := false, ticksOff := false
                                     entryWake := 0, gpSample := 0, xoDead := false }
             sec := {}
             tick := { startAt := s.now } }

/-- A power-on reset: everything but the RTC section; that too when it has lost both supplies (R83, R84, R110). What
SYSC_SUPSTAT shows of VDDIO1, VDDIO2 and the RTC section's supply stands as the supplies do (R74, R78). -/
def porReset (rtc : Bool) (s : State) : State :=
  let keep (a : Nat) : Bool := rtc && ((regionOf a == .regs && blockOf a == 5) || a == Reg.SYSC_LPSTAT)
  let s := rtcRebase s
  let backup := rtc && s.on SYSC_SUPSTAT.ONBACKUP
  let s := coreLost keep s
  let s := s.setReg Reg.SYSC_LPSTAT (0x100#32 ||| (s.reg Reg.SYSC_LPSTAT &&& 0x80000000#32))
  let s := ((s.putB SYSC_SUPSTAT.ONBACKUP backup).putB SYSC_SUPSTAT.IO1LOW s.pins.io1Off).putB SYSC_SUPSTAT.IO2LOW s.pins.io2Off
  { s with
    mem := s.mem.loseRetention
    power := { st := .reset, vbatLow := s.power.vbatLow, pinLow := s.power.pinLow, debugLocked := s.power.debugLocked, por := true
               rtcOff := !rtc, lpFrac := s.power.lpFrac }
    tick := { startAt := s.now }, tx := { record := s.tx.record }, sec := {}, boot := { due := false }
    evr := { fromPor := true, opsAt := s.now }
    rtc := if rtc then s.rtc else { baseEdge := s.lpEdge, perEdge := s.lpEdge } }

/-- POWER_ON_RESET: VBAT below 1.45 V; `vbackup`: VBACKUP still feeds the RTC section. -/
def execPowerOnReset (vbackup : Bool) (s : State) : Out :=
  .next (porReset vbackup (s.modPower (fun p => { p with vbatLow := true })))

/-- BROWN_OUT_RESET: VBAT below 1.70 V for 2 µs. -/
def execBrownOutReset (s : State) : Out :=
  .next (resetBy SYSC_RSTCAUSE.BOR (if s.power.st == .off then s else s.modPower (fun p => { p with vbatLow := true })))

/-- PIN_RESET: RESET_N low for at least 1 µs; ignored in off (R56). -/
def execPinReset (s : State) : Out :=
  .next (if s.power.st == .off then s else resetBy SYSC_RSTCAUSE.PIN (s.modPower (fun p => { p with pinLow := true })))

/-- RESET_N_RISE. -/
def execResetNRise (s : State) : Out := .next (s.modPower (fun p => { p with pinLow := false }))

/-- POWER_UP: VBAT rises through 1.76 V. After a POR the time base starts again from 0, the RTC going on from its own
count (R84, R351). -/
def powerUp (s : State) : State :=
  let s := s.modPower (fun p => { p with vbatLow := false })
  if !s.power.por then s
  else
    let s := if s.power.rtcOff then s else rtcRebase s
    { s with now := 0, tick := { s.tick with startAt := 0 }, time := { s.time with bc := 0 }, evr := { s.evr with opsAt := 0 }
             rtc := { s.rtc with baseEdge := 0, perEdge := 0 }, power := { s.power with rtcOff := false } }

def execPowerUp (s : State) : Out := .next (if s.power.st == .reset && s.power.vbatLow then powerUp s else s)

/-- Steps 8 and 9 of the power-up table: OTP words load, straps latch, the core starts at the boot ROM; on the RC when
the XO has not started (R81). No rule gives the OTP word of the factory XOTRIM, which stays at its reset value (log entry 5). -/
def release (gp0 gp1 role xo : Bool) (s : State) : State :=
  let por := s.power.por
  let s := recordLoad (radioDefaults (s.setReg Reg.GPIO_STRAP (BitVec.ofNat 32 (b2n gp0 + 2 * b2n gp1 + 4 * b2n role))))
  let s := if por then
      let s := s.setReg Reg.SYSC_RSTCAUSE 1#32
      if s.on SYSC_LPSTAT.FROMOFF then dutyPreset s else s
    else s
  let w := s.otpWord 0x3B00
  let s := if w = 0 then s else s.plainWrite Reg.EVR_STORE w
  let s := s.put SYSC_SUPSTAT.BUCKOK 1
  let s := ((s.putB SYSC_CLKSTAT.XOOK xo).putB SYSC_CLKSTAT.SPLL xo).putB SYSC_CLKSTAT.TPLL xo
  let s := ((s.putB SYSC_CLKSTAT.XOFAIL !xo).putB SYSC_CLKSTAT.CORERC !xo).putB SYSC_LPSTAT.PLLRUN xo
  alarmReport { s with
    power := { s.power with st := .run, por := false, xoDead := !xo, calFull := true, debugLocked := (s.otpWord 0x3F0C).getLsbD 0 }
    boot := { due := true, relAt := s.now, trialAt := s.boot.trialAt }
    tick := { startAt := s.now }, time := { bc := s.now } }

/-- The internal reset may release: no cause is asserted. -/
def State.resetIdle (s : State) : Bool := s.power.st == .reset && !s.power.vbatLow && !s.power.pinLow

/-- INTERNAL_RESET_RELEASE, with the levels of GP0, GP1, TW_ROLE and TEST (R62, R63). -/
def execInternalResetRelease (gp0 gp1 role test : Bool) (s : State) : Out :=
  if s.resetIdle then (if test then .fault .factoryTest else .next (release gp0 gp1 role true s)) else .next s

/-- XO_START_TIMEOUT: the release without XO (R81). -/
def execXoStartTimeout (gp0 gp1 role test : Bool) (s : State) : Out :=
  if s.resetIdle then (if test then .fault .factoryTest else .next (release gp0 gp1 role false s)) else .next s

/-- R82: the XO stops in run or idle. -/
def xoFail (s : State) : State :=
  if !(s.power.st == .run || s.power.st == .idle) || s.power.xoDead || !(s.on SYSC_LPSTAT.PLLRUN) then s
  else
    let s := ringOff (radioOff s)
    let s := ticksFree ((s.rebase).modTime (fun t => { t with valid := false }))
    let s := (((s.put SYSC_CLKSTAT.XOFAIL 1).put SYSC_CLKSTAT.CORERC 1).put SYSC_CLKSTAT.XOOK 0)
    let s := ((s.put SYSC_CLKSTAT.SPLL 0).put SYSC_CLKSTAT.TPLL 0).put SYSC_LPSTAT.PLLRUN 0
    s.modPower (fun p => { p with xoDead := true })

def execXoFail (s : State) : Out := .next (xoFail s)

/-- R89: XT has not started or has stopped. -/
def execXtFail (s : State) : Out :=
  .next (mainsSpoil (trimSpoil (((s.put SYSC_CLKSTAT.XTOK 0).put SYSC_CLKSTAT.XTFAIL 1).put SYSC_CLKSTAT.LPRC 1)))

/-- R89: XT has run stably for 250 ms. -/
def execXtStable (s : State) : Out := .next (mainsSpoil ((s.put SYSC_CLKSTAT.XTOK 1).put SYSC_CLKSTAT.LPRC 0))

/-! ## Supplies (R74, R78) -/

/-- BROWN_OUT_WARNING: VBAT falls below a level that BOWLVL sets. -/
def execBrownOutWarning (s : State) : Out :=
  let l := s.get SYSC_SUPCFG.BOWLVL
  .next (if l = 0 ∨ 5 < l ∨ s.power.st = .off ∨ s.power.st = .reset then s
    else wake .bow ((s.put SYSC_SUPSTAT.BOWNOW 1).put SYSC_SUPSTAT.BOW 1))

def execBrownOutWarningClear (s : State) : Out := .next (s.put SYSC_SUPSTAT.BOWNOW 0)

/-- BACKUP_SWITCHOVER. -/
def execBackupSwitchover (toBackup : Bool) (s : State) : Out := .next (s.putB SYSC_SUPSTAT.ONBACKUP toBackup)

/-- VDDIO_LOW: `bank` false for VDDIO1; `low`: below 1.60 V, from where the model takes the bank's supply for absent (R66; log
entry 43). -/
def execVddioLow (bank low : Bool) (s : State) : Out :=
  .next (watchPins (fun s =>
    if bank then { s.putB SYSC_SUPSTAT.IO2LOW low with pins := { s.pins with io2Off := low } }
    else { s.putB SYSC_SUPSTAT.IO1LOW low with pins := { s.pins with io1Off := low } }) s)

/-! ## Watchdog and commanded resets (R83, R85, R87, R310) -/

/-- A write of WDT_CTRL: the write that sets EN locks it. -/
def wdtWrite (d : Word) (s : State) : State :=
  if s.on WDT_CTRL.EN then s
  else
    let s := s.setReg Reg.WDT_CTRL (d &&& 0xFFFF0003#32)
    s.modPower (fun p => { p with wdtFrom := s.now })

/-- A write of WDT_FEED. -/
def wdtFeed (d : Word) (s : State) : State :=
  if d = 0x5A0F#32 then s.modPower (fun p => { p with wdtFrom := s.now }) else resetBy SYSC_RSTCAUSE.WDT s

def execWdtCtrlWrite (data : Word) (s : State) : Out := .next (viaBus Reg.WDT_CTRL (wdtWrite data) s)
def execWdtFeed (data : Word) (s : State) : Out := .next (viaBus Reg.WDT_FEED (wdtFeed data) s)

/-- The watchdog counts in the present power state. -/
def State.wdtRuns (s : State) : Bool :=
  s.on WDT_CTRL.EN && (match s.power.st with
    | .sleep | .deepSleep => s.on WDT_CTRL.RUNSLP
    | .off | .reset => false
    | _ => true)

/-- WDT_TIMEOUT. -/
def execWdtTimeout (s : State) : Out := .next (if s.wdtRuns then resetBy SYSC_RSTCAUSE.WDT s else s)

/-- A write of SYSC_SWRST. -/
def swrst (key : Word) (s : State) : State := if key = 0xC35A#32 then resetBy SYSC_RSTCAUSE.SOFT s else s

def execSoftReset (key : Word) (s : State) : Out := .next (viaBus Reg.SYSC_SWRST (swrst key) s)

/-- REMOTE_RESET: at the second boundary after the commit (R85). -/
def execRemoteReset (s : State) : Out := .next (if s.power.remoteIn = some 0 then resetBy SYSC_RSTCAUSE.REMOTE s else s)

/-- ALARM_RESET (R310 step 4). -/
def execAlarmReset (s : State) : Out :=
  .next (if s.on SEC_ALMSTAT.LATCHED && s.on SEC_ALMCFG.RSTEN && s.sec.almStored then resetBy SYSC_RSTCAUSE.ALARM s else s)

/-- R90: a write of SYSC_CLKGATE. A clock that opens again lets the recorder capture and the ledger go on (R312, R506). -/
def clkgateWrite (d : Word) (s : State) : State :=
  let evr := !(s.on SYSC_CLKGATE.EVR) && d.getLsbD 6
  let sec := !(s.on SYSC_CLKGATE.SEC) && d.getLsbD 4
  let s := s.plainWrite Reg.SYSC_CLKGATE d
  let s := if evr then evrUngated s else s
  if sec then ledgKick 200 s else s

def execClkgateWrite (data : Word) (s : State) : Out := .next (viaBus Reg.SYSC_CLKGATE (clkgateWrite data) s)

/-! ## Entry (R93 to R99) -/

/-- R95: nothing could wake the part from the state. -/
def State.noWake (s : State) : Bool :=
  s.reg Reg.SYSC_WAKEEN == 0 && !(s.on SYSC_SUPCFG.BOWWAKE) && !(s.on WDT_CTRL.EN && s.on WDT_CTRL.RUNSLP)

/-- The pins that may wake the part: enabled in SYSC_GPWAKE, in GPIO mode, inputs (R101; log entry 44). -/
def State.wakePins (s : State) : BitVec 24 :=
  BitVec.ofNat 24 (word24 (fun p => bitOf (s.reg Reg.SYSC_GPWAKE).toNat p && s.pinCode p == 0 && !(bitOf (s.reg Reg.GPIO_DIR).toNat p)))

/-- Of these, the pins whose level differs from the sample (R101). -/
def State.pinsMoved (s : State) : BitVec 24 := (BitVec.ofNat 24 s.gpioIn ^^^ s.power.gpSample) &&& s.wakePins

/-- Phase 1 begins: suspended erases go on, the recorder writes what it has, the MAC names the next wake (R96, R283, R399).
A pin's change from here on counts (R101). -/
def drainStart (t : LowState) (s : State) : State :=
  let s := (s.put SYSC_LPSTAT.ENTERING 1).modPower
    (fun p => { p with st := .draining t, entryWake := 0, gpSample := BitVec.ofNat 24 s.gpioIn })
  let s := setSuspend true false (setSuspend false false s)
  let s := if s.radioOn then
      let s := nextWake s
      if s.on MAC_CFG.AUTOWAKE && t != .off then
        (s.setReg Reg.SYSC_TWAKE_LO (s.reg Reg.MAC_NEXTWAKE_LO)).setReg Reg.SYSC_TWAKE_HI (s.reg Reg.MAC_NEXTWAKE_HI)
      else s
    else s
  evrKick true 40 s

/-- A write of SYSC_PWRCTL (R95): only the core's data side; ENTER enters the state in STATE. -/
def pwrctlWrite (m : Master) (d : Word) (s : State) : State :=
  if m != .coreData then s
  else
    let s := s.put SYSC_PWRCTL.STATE (d.toNat % 4)
    if !(d.getLsbD 31) then s
    else if d.toNat % 4 = 0 then s.modPower (fun p => { p with st := .idle })
    else if d.toNat % 4 = 3 then drainStart .off s
    else if s.noWake then s.put SYSC_LPSTAT.NOWAKE 1
    else drainStart (if d.toNat % 4 = 1 then .sleep else .deepSleep) s

/-- The write of SYSC_PWRCTL that enters a state. -/
def enterBy (m : Master) (st : Nat) (s : State) : State :=
  let d := BitVec.ofNat 32 (2 ^ 31 + st)
  if s.power.st == .run then viaMaster m Reg.SYSC_PWRCTL (pwrctlWrite m d) s else s

def execEnterIdle (m : Master) (s : State) : Out := .next (enterBy m 0 s)
def execEnterSleep (m : Master) (s : State) : Out := .next (enterBy m 1 s)
def execEnterDeepSleep (m : Master) (s : State) : Out := .next (enterBy m 2 s)
def execEnterOff (m : Master) (s : State) : Out := .next (enterBy m 3 s)

/-- R96 phase 1: nothing waits any more. A recorder without a clock cannot write, and is not waited for. -/
def State.drained (s : State) : Bool :=
  let bank (b : NvmBank) : Bool := b.prog.isNone && b.progQ.isEmpty && b.erase.isNone && b.eraseQ.isEmpty
  !s.txBusy && bank s.nvm.bank0 && bank s.nvm.bank1 && s.spim.queue.isEmpty && !s.spimPolls
    && (!s.evrClocked || (s.evr.queue.isEmpty && s.evr.alarm.isNone && s.evr.staged.isNone && !s.evr.writing))

/-- DRAIN_END: the save phase begins, the store is written anew from here on; a host frame in progress is discarded as SHORT. -/
def drainEnd (frame : Bool) (s : State) : State :=
  match s.power.st with
  | .draining t =>
    if !s.drained then s
    else
      let s := if frame && s.on SPIS_CTRL.EN && s.on SYSC_CLKGATE.SPIS then hostBroken brkShort s else s
      s.modPower (fun p => { p with st := .saving t, storeGone := false })
  | _ => s

def execDrainEnd (frame : Bool) (s : State) : Out := .next (drainEnd frame s)

/-- The oscillator and both PLLs stop. -/
def clocksStop (s : State) : State :=
  (((s.put SYSC_CLKSTAT.XOOK 0).put SYSC_CLKSTAT.SPLL 0).put SYSC_CLKSTAT.TPLL 0).put SYSC_LPSTAT.PLLRUN 0

/-- Deep sleep is reached: the saved set stays, everything else is lost (R108, R109). -/
def deepLost (s : State) : State :=
  let s := commitsDropped s
  let gen := s.get (cf .time LOOM_COMMIT.GEN)
  let t := coreLost deepKept s
  let t := t.setReg Reg.TIME_COMMIT (LOOM_COMMIT.GEN.into 0#32 gen)
  let t := t.setReg Reg.SYSC_GCOMMIT (t.reg Reg.SYSC_GCOMMIT &&& 0x1F#32)
  let t := (List.range 7).foldl (fun t n => t.putB (TIME_CSTAT.ARMED n) ((s.time.cmp[n]?.getD {}).armed)) t
  let t := (t.put SYSC_TICKSTAT.RETIME 0).put SYSC_TICKSTAT.RETIME_CNT 0
  { t with core := { t.core with status := t.core.status &&& ~~~0x70#32 ||| s.core.status &&& 0x70#32 }
           sec := { slots := s.sec.slots, wkGone := s.sec.wkGone, almLocked := s.sec.almLocked, almReport := s.sec.almReport }
           time := { s.time with caps := Vector.replicate 8 [], pulses := [], nowc := 0, utc := 0, utcNew := 0, utcAt := 0 }
           tmr := s.tmr.map (fun (x : TmrSt) => { x with caps := [], presc := 0 })
           mac := { vendor := s.mac.vendor, lastSync := s.mac.lastSync, handPend := s.mac.handPend }
           pins := { t.pins with tt := s.pins.tt, ppsOut := s.pins.ppsOut, tune := s.pins.tune, hsIrqHeld := !s.hsIrq } }

/-- POWER_DOWN_COMPLETE: the part rests in its state; a wake that came meanwhile, or a pin that moved (R101), is recognised at
once (R97). TUNE0 to TUNE3 are held as at entry and the buck stops in deep sleep (R56, R77). `wakeHigh`: WAKE is high, which
ends off at once (R110). -/
def powerDown (wakeHigh : Bool) (s : State) : State :=
  match s.power.st with
  | .saving t =>
    let tune := s.pins.tune
    let gone := s.power.storeGone
    let s := (radioOff (ringOff (msuOff s))).put SYSC_LPSTAT.ENTERING 0
    let s := s.modPower (fun p => { p with saved := if gone then [] else p.saved })
    match t with
    | .off =>
      let s := porReset true s
      let s := if wakeHigh then powerUp (s.put SYSC_LPSTAT.FROMOFF 1) else s.modPower (fun p => { p with st := .off })
      s
    | _ =>
      let level := BitVec.ofNat 24 s.gpioIn
      let moved := s.pinsMoved != 0#24 && s.wakeEnabled .gpio
      let bits := s.power.entryWake.toNat ||| (if moved then 4 else 0)
      let s := if t = .deepSleep then deepLost { s with pins := { s.pins with tune := tune } } |>.put SYSC_SUPSTAT.BUCKOK 0 else s
      let s := (clocksStop s).modPower (fun p => { p with st := if t = .deepSleep then .deepSleep else .sleep, ticksOff := true, gpSample := level })
      let s := if bits = 0 then s else startWake t bits true s
      if s.mac.handPend then handOpen s else s
  | _ => s

def execPowerDownComplete (wakeHigh : Bool) (s : State) : Out := .next (powerDown wakeHigh s)

/-! ## Wake (R100 to R107, R110) -/

/-- IDLE_WAKE (R100). -/
def execIdleWake (s : State) : Out :=
  .next (if s.power.st == .idle && s.anyEnabledLine then s.modPower (fun p => { p with st := .run }) else s)

/-- WAKE_RECOGNISED: a source arrives at its pin or detector; GPIO wakes only on a level that differs from the one
sampled at the end of entry (R100, R101; log entry 44). -/
def execWakeRecognised (src : WakeSrc) (s : State) : Out :=
  .next (if src == .gpio && s.pinsMoved == 0#24 then s else wake src s)

/-- R102: LEAD of a state, in 2^−32 s. -/
def leadNt (t : PState) : Nat := usNt (if t == .sleep then 750 else 1250)

/-- The named time less LEAD lies within one low-power period or has passed. The comparison does not ask whether network time
is valid (log entry 44). -/
def State.twakeDue (s : State) : Bool :=
  let t := 2 ^ 32 * ((s.reg Reg.SYSC_TWAKE_HI).toNat) + (s.reg Reg.SYSC_TWAKE_LO).toNat
  decide (ntDiff (t + 2 ^ 64 - leadNt s.power.st) s.nt < 2 ^ 17)

/-- TIMED_WAKE. -/
def execTimedWake (s : State) : Out :=
  .next (if (s.power.st == .sleep || s.power.st == .deepSleep) && s.twakeDue then wake .tWake s else s)

/-- CORE_RESUME (R105 step 2). Compares passed meanwhile match LATE (R344). -/
def execCoreResume (s : State) : Out :=
  .next (match s.power.st with
    | .waking .sleep => alarmReport (cmpLate (s.modPower (fun p => { p with st := .run })))
    | _ => s)

/-- Clocks of a wake are back: the count goes on from the last low-power edge plus the phase measured since it, less than one
period, a free value (R103). -/
def clocksBack (s : State) : State :=
  let (d, s) := s.draw
  let s := { s with now := s.now + Config.freeNat d % 7630 }
  ((((s.put SYSC_SUPSTAT.BUCKOK 1).put SYSC_CLKSTAT.XOOK 1).put SYSC_CLKSTAT.SPLL 1).put SYSC_CLKSTAT.TPLL 1).put SYSC_LPSTAT.PLLRUN 1

/-- Domains power up as SYSC_PDCTL and held writes say, RADIO too when the Zephyr woke the part (R93, R94, R106, R287). -/
def domainsBack (s : State) : State :=
  let held := s.power.heldPd
  let s := s.modPower (fun p => { p with heldPd := 0 })
  let s := [PDom.msu, PDom.ring, PDom.radio].foldl (fun s d =>
    let s := if held.getLsbD (pdBit d) then s.put (pdctl d) 1 else s
    if s.on (pdctl d) || (d == .radio && s.power.zephWake) then domainOn d s else s) s
  s.modPower (fun p => { p with zephWake := false })

/-- R106 step 5: CORE takes the saved set back, or nothing where an alarm has zeroed it, and RADIO where due. -/
def deepRestore (s : State) : State :=
  let s := if s.power.storeGone then
      { keepRegs (fun a => aonReg a || a == Reg.SYSC_WAKESRC || a == Reg.SEC_ALMCFG || a == Reg.WDT_CTRL || a == Reg.GPIO_STRAP) s with
        time := { bc := s.now }, tmr := Vector.replicate 8 {}, mac := { vendor := s.mac.vendor, hand := s.mac.hand } }
    else (List.range 32).foldl (fun s n => if s.counts n then recoverCounter n s else s) s
  let s := recordLoad s
  cmpLate ((domainsBack s).modPower (fun p => { p with calDeep := p.calRun }))

/-- PLL_LOCK (R105 step 4, R106 steps 4 and 5). After an XO failure the part returns to the PLLs only through a reset (R82). -/
def pllLock (s : State) : State :=
  match s.power.st with
  | .run | .idle => if s.on SYSC_LPSTAT.PLLRUN || s.power.xoDead then s else domainsBack (clocksBack s)
  | .waking .deepSleep =>
    if s.on SYSC_LPSTAT.PLLRUN || s.power.xoDead then s else deepRestore (clocksBack s)
  | _ => s

def execPllLock (s : State) : Out := .next (pllLock s)

/-- An entry of the receive parameters at its defaults (R214). -/
def rxParamDefault : List Byte := leBytes 2 2047 ++ [10, 8, 7, 0x1F, 0, 0x0F, 0] ++ List.replicate 23 0

/-- R214: the ROM writes the defaults of all 16 entries. -/
def rxParamDefaults (s : State) : State := s.wbytes 0x200FF000 ((List.range 16).flatMap (fun _ => rxParamDefault))

/-- DEEP_SLEEP_RESUME (R106 step 7, R107): the ROM branches to SYSC_RESUMEVEC, or runs a full boot when that does not lie in
NVM, the XIP window or retention SRAM. A part whose XO has failed has no lock to wait for: its saved set is back by now, and
the core runs from the RC (R82; log entry 44). -/
def deepResume (s : State) : State :=
  if s.power.st == .waking .deepSleep && (s.on SYSC_LPSTAT.PLLRUN || s.power.xoDead) then
    let s := if s.power.xoDead then (deepRestore s).put SYSC_SUPSTAT.BUCKOK 1 else s
    let v := (s.reg Reg.SYSC_RESUMEVEC).toNat
    let ok := regionOf v == .nvm || regionOf v == .xip || regionOf v == .retention
    let s := alarmReport (s.modPower (fun p => { p with st := .run }))
    if ok then
      let s := rxParamDefaults s
      { s with core := { s.core with cpu := { s.core.cpu with pc := BitVec.ofNat 32 v } } }
    else { s with boot := { s.boot with due := true } }
  else s

def execDeepSleepResume (s : State) : Out := .next (deepResume s)

/-- WAKE_PIN: WAKE high for 5 µs in off (R110). -/
def execWakePin (s : State) : Out :=
  .next (if s.power.st == .off then
    powerUp ((s.modPower (fun p => { p with st := .reset, vbatLow := false })).put SYSC_LPSTAT.FROMOFF 1)
  else s)

end Sys2Proof.Machine
end

