-- ==== Sys2Proof/Machine/Boot.lean ====
section
/-! DEFINITION. Machine/Boot.lean: the boot ROM, slots and images, ROM services and recovery mode (chapter 25). A slot is
false for A, in bank 0, and true for B, in bank 1. -/
namespace Sys2Proof.Machine

/-! ## Statuses (R522) -/

def rmOk : Nat := 0x00
def rmBadstate : Nat := 0x40
def rmFormat : Nat := 0x41
def rmSignature : Nat := 0x42
def rmRollback : Nat := 0x43
def rmCompat : Nat := 0x44
def rmNvm : Nat := 0x45
def rmRange : Nat := 0x46
def rmOtpfail : Nat := 0x47

/-! ## Areas and images (R516, R517) -/

/-- First block and number of blocks of an area: 1 control, 2 Weft, 3 Zephyr. -/
def areaBlocks (kind : Nat) : Nat × Nat := if kind = 1 then (0, 363) else if kind = 2 then (363, 18) else (381, 2)

/-- The kinds of image. -/
def imageKinds : List Nat := [1, 2, 3]

/-- The address of an area of a slot, and its bytes. -/
def areaAddr (k : Bool) (kind : Nat) : Nat := nvmBlockAddr k (areaBlocks kind).1
def areaSize (kind : Nat) : Nat := 4096 * (areaBlocks kind).2

/-- The address of a unit of the state block (R520). -/
def stateUnit (k : Bool) (u : Nat) : Nat := nvmBlockAddr k 383 + 32 * u

/-- An area holds an image: its first unit is not erased. -/
def State.present (s : State) (k : Bool) (kind : Nat) : Bool := !(s.unitErased (areaAddr k kind))

/-- A field of the header at `a`. -/
def State.imgN (s : State) (a o n : Nat) : Nat := leNat (s.dataBytes (a + o) n)

/-- R521: a boot key: its bytes, whether it is absent, whether it is revoked. -/
def State.bootKey (s : State) (k : Nat) : List Byte := s.bytes (0x08803000 + 64 * k) 64
def State.keyUsable (s : State) (k : Nat) : Bool := !((s.bootKey k).all (· == 0)) && s.otpWord (0x3100 + 4 * k) == 0

/-- R521: the OTP offset of the rollback counter of a kind, and its floor. -/
def counterAt (kind : Nat) : Nat := 0x3100 + 0x100 * kind
def State.romFloor (s : State) (kind : Nat) : Nat :=
  ((List.range 64).takeWhile (fun i => s.otpWord (counterAt kind + 4 * i) != 0)).length

/-- R517: the form of the header at `a`, for an image of a kind. -/
def imageForm (a kind : Nat) (s : State) : Bool :=
  let u := s.imgN a
  let len := u 0x0C 4
  let entry := u 0x10 4
  u 0 4 == 0x474D494C && u 4 1 == 1 && u 5 1 == kind && decide (u 6 1 < 4) && u 0x0B 1 == 0
    && decide (256 + len ≤ areaSize kind) && (kind != 3 || len == 40) && (kind != 2 || decide (256 ≤ len))
    && (if kind = 1 then entry % 4 == 0 && decide (256 ≤ entry) && decide (entry < 256 + len) else entry == 0 && u 0x14 1 == 0)
    && u 0x15 3 == 0 && (s.dataBytes (a + 0x30) 16).all (· == 0) && (s.dataBytes (a + 0x80) 128).all (· == 0)
    && u 0x1A 2 == 0 && u 0x26 2 == 0

/-- R517: the signature of the image at `a` passes under its key. -/
def imageSigned (a : Nat) (s : State) : Bool :=
  let k := s.imgN a 6 1
  let key := s.bootKey k
  let z := beNat (sha256 (s.dataBytes a 0x40 ++ s.dataBytes (a + 0x100) (s.imgN a 0x0C 4)))
  s.keyUsable k && ecdsaOk (beNat (key.take 32)) (beNat (key.drop 32)) (beNat (s.dataBytes (a + 0x40) 32)) (beNat (s.dataBytes (a + 0x60) 32)) z

/-- The checks of one image (R517, R521). -/
def imageCheck (a kind : Nat) (s : State) : Nat :=
  if !(imageForm a kind s) then rmFormat
  else if !(imageSigned a s) then rmSignature
  else if s.imgN a 7 1 < s.romFloor kind then rmRollback
  else rmOk

/-- R518: the combination of a slot's images is accepted. -/
def combination (k : Bool) (s : State) : Bool :=
  let kinds := imageKinds.filter (s.present k)
  kinds.contains 1 && kinds.all (fun x => [0x18, 0x24].all (fun o =>
    let a := areaAddr k x + o
    let kind := s.imgN a 0 1
    let v := s.imgN (areaAddr k kind) 8 4
    kind == 0 || (if imageKinds.contains kind && s.present k kind then decide (s.imgN a 4 4 ≤ v) && decide (v ≤ s.imgN a 8 4)
      else s.imgN a 1 1 != 1)))

/-- Every image present in a slot, then the combination: the first status that is not OK. -/
def slotCheck (k : Bool) (s : State) : Nat :=
  match (imageKinds.filter (s.present k)).find? (fun x => imageCheck (areaAddr k x) x s != rmOk) with
  | some x => imageCheck (areaAddr k x) x s
  | none => if combination k s then rmOk else rmCompat

/-! ## The state block (R520) -/

/-- The slot's SLOTREC passes. -/
def State.slotComplete (s : State) (k : Bool) : Bool :=
  let r := s.nvmBytes (stateUnit k 0) 32
  leNat (r.take 4) == 0x544F4C53 && crc32 (r.take 28) == leNat (r.drop 28)

/-- SEQ of a slot, 0 when incomplete. -/
def State.slotSeq (s : State) (k : Bool) : Nat :=
  if s.slotComplete k then leNat (s.nvmBytes (stateUnit k 0 + 4) 4) else 0

/-- A record of the state block is programmed. -/
def State.stMarked (s : State) (k : Bool) (u : Nat) : Bool := !(s.unitErased (stateUnit k u))

/-- The slot is in trial. -/
def State.slotTrial (s : State) (k : Bool) : Bool := s.slotComplete k && !(s.stMarked k 4)

/-- TRIAL marks of a slot. -/
def State.slotMarks (s : State) (k : Bool) : Nat := ([1, 2, 3].filter (s.stMarked k)).length

/-- The version of an image, 0 when absent. -/
def State.slotVersion (s : State) (k : Bool) (kind : Nat) : Nat :=
  if s.present k kind then s.imgN (areaAddr k kind) 8 4 else 0

/-- The slot that runs. -/
def State.runSlot (s : State) : Bool := s.on ID_BOOTSTAT.SLOT

/-- The newer of two complete slots by signed difference, A when equal (R523). -/
def State.newer (s : State) : Bool := decide (0 < signedOf 32 (2 ^ 32 + s.slotSeq true - s.slotSeq false))

/-- R530: the target of recovery. -/
def State.target (s : State) : Bool :=
  match s.slotComplete false, s.slotComplete true with
  | true, true => !s.newer
  | true, false => true
  | false, true => false
  | false, false => false

/-! ## The ROM's own NVM commands -/

/-- A unit is programmed by the ROM: the status of the command. -/
def romProgram (a : Nat) (d : List Byte) (s : State) : State × Nat :=
  match progTest a 1 none s with
  | some st => (s, st)
  | none => match xtsUnit (s.xtsUse a) a d with
    | some e => (storeUnit (nvmBankOf a) a e s, nvOk)
    | none => (s, nvNokey)

/-- The units from `a` upward, up to the first that fails. -/
def romProgramAll : Nat → Nat → List Byte → State → State × Nat
  | 0, _, _, s => (s, nvOk)
  | n + 1, a, d, s =>
    let r := romProgram a (d.take 32) s
    if r.2 = nvOk then romProgramAll n (a + 32) (d.drop 32) r.1 else r

/-- Blocks from the one of `a` upward are erased by the ROM, up to the first that fails. -/
def romErase : Nat → Nat → State → State × Nat
  | 0, _, s => (s, nvOk)
  | n + 1, a, s =>
    match eraseTest a s with
    | some st => (s, st)
    | none =>
      let k := nvmBankOf a
      romErase n (4096 + a) (wearCheck a (wipeBlock k (nvmBlockOf a) (countErase k (nvmBlockOf a) s)))

/-- A record of the state block: word 0, the rest 0. -/
def markBytes (w : Nat) : List Byte := leBytes 4 w ++ List.replicate 28 0

/-- SLOTREC of a slot with a sequence number (R520). -/
def slotRec (k : Bool) (seq : Nat) (s : State) : List Byte :=
  let b := leBytes 4 0x544F4C53 ++ leBytes 4 seq
    ++ leBytes 1 (b2n (s.present k 1) + 2 * b2n (s.present k 2) + 4 * b2n (s.present k 3)) ++ List.replicate 19 0
  b ++ leBytes 4 (crc32 b)

/-- R527, R530: the images of a slot are checked and its SLOTREC programmed: ROM status and NVM status. `nv`: what the
program ended with beyond its tests. -/
def finishSlot (k : Bool) (seq nv : Nat) (s : State) : State × Nat × Nat :=
  let st := slotCheck k s
  if st ≠ rmOk then (s, st, 0)
  else if nv ≠ 0 then (s, rmNvm, nv)
  else
    let r := romProgram (stateUnit k 0) (slotRec k seq s) s
    if r.2 = nvOk then (r.1, rmOk, 0) else (r.1, rmNvm, r.2)

/-! ## Records (R531) -/

/-- What a START or RECOVERY record says beside the present state. -/
structure BootRec where
  outcome : Nat
  slot : Nat := 0xFF
  marks : Nat := 0
  versions : List Nat
  seq : Nat
  rejected : Nat := 0xFF
  status : Nat := 0
  nvm : Nat := 0
  deriving DecidableEq, Repr

/-- The record is written. -/
def bootReport (cls : Nat) (r : BootRec) (s : State) : State :=
  let b := leBytes 1 1 ++ leBytes 1 r.outcome ++ leBytes 1 r.slot ++ leBytes 1 r.marks
    ++ leBytes 4 (s.reg Reg.SYSC_RSTCAUSE).toNat ++ leBytes 4 (s.reg Reg.SYSC_CLKSTAT).toNat ++ r.versions.flatMap (leBytes 4)
    ++ leBytes 4 r.seq ++ leBytes 1 r.rejected ++ leBytes 1 r.status ++ leBytes 1 r.nvm ++ [0]
    ++ leBytes 4 ((s.now - s.boot.relAt) / 250)
  (evrReport { form := 1, cls := cls, source := 0x01, arg0 := 0, payload := b } s).1

/-- Values of a record that no rule gives: three versions and SEQ. -/
def freeRec (s : State) : State × List Nat × Nat :=
  let (a, s) := s.draw
  let (b, s) := s.draw
  let (c, s) := s.draw
  let (d, s) := s.draw
  (s, [(Config.freeWord a).toNat, (Config.freeWord b).toNat, (Config.freeWord c).toNat], (Config.freeWord d).toNat)

/-! ## Boot (R523, R524) -/

/-- R521: the floor of a kind rises to an SVN, as far as OTP takes it. -/
def raiseFloor (kind svn : Nat) (vbatOk : Bool) (s : State) : State :=
  (List.range (min 64 svn)).foldl (fun s i =>
    let a := 0x08800000 + counterAt kind + 4 * i
    if (otpTest a vbatOk s).isNone then s.wn a 4 1 else s) s

/-- R519: the Zephyr table of a slot goes into its registers. -/
def zephTable (k : Bool) (s : State) : State :=
  if !(s.present k 3) then s
  else
    let a := areaAddr k 3 + 256
    let w (i : Nat) : Word := BitVec.ofNat 32 (s.imgN a (4 * i) 4)
    let s := s.plainWrite Reg.ZEPH_CTRL (w 0)
    let s := (List.range 8).foldl (fun s i => s.plainWrite (Reg.ZEPH_ADDR i) (w (i + 1))) s
    s.plainWrite Reg.ZEPH_HAND (w 9)

/-- R524: the core's registers at the jump into a slot. -/
def jumpInto (k : Bool) (s : State) : State :=
  let base := nvmBlockAddr k 0
  let weft := if s.present k 2 then areaAddr k 2 else 0
  let g := ((Vector.replicate 32 (0 : Word)).set 1 (BitVec.ofNat 32 base)).set 2 (BitVec.ofNat 32 weft)
  let g := g.set 3 (s.reg Reg.ID_BOOTSTAT)
  let s := rxParamDefaults s
  { s with core := { swLines := s.core.swLines, cpu := { g := g, pc := BitVec.ofNat 32 (base + s.imgN base 0x10 4) } } }

/-- R530: recovery mode begins. -/
def enterRecovery (r : BootRec) (s : State) : State :=
  let (s, v, q) := freeRec s
  let s := bootReport 1 { r with outcome := 0x04, slot := 0xFF, versions := v, seq := q } s
  let s := (s.put SYSC_CLKGATE.SPIS 1).put SPIS_CTRL.EN 1
  let s := pdctlBit .ring true s
  let s := if s.ringOn then ringCfgWrite ((s.reg Reg.RING_CFG &&& 0xFFFFFFF0#32) ||| 0x80000000#32) s else s
  { s with boot := { s.boot with recovery := true, owner := none } }

/-- A slot is rejected: REJECT is programmed with the status. -/
def rejectSlot (k : Bool) (st : Nat) (s : State) : State :=
  ((romProgram (stateUnit k 5) (markBytes st) s).1).put ID_BOOTSTAT.FELLBACK 1

/-- A slot passes: its trial mark and timer, or the floors, then the jump. -/
def startSlot (k : Bool) (vbatOk : Bool) (r : BootRec) (s : State) : State :=
  let trial := s.slotTrial k
  let s := if trial then
      let s := (romProgram (stateUnit k (s.slotMarks k + 1)) (markBytes 1) s).1
      if s.on ID_TRIAL.RUN then s
      else { (s.put ID_TRIAL.RUN 1).put ID_TRIAL.REMAIN 120 with boot := { s.boot with trialAt := s.now } }
    else
      imageKinds.foldl (fun s x => if s.present k x then raiseFloor x (s.imgN (areaAddr k x) 7 1) vbatOk s else s) s
  let s := zephTable k s
  let marks := s.slotMarks k
  let s := (((s.put ID_BOOTSTAT.TRIALEXP 0).putB ID_BOOTSTAT.SLOT k).putB ID_BOOTSTAT.TRIAL trial).put ID_BOOTSTAT.MARKS marks
  let s := bootReport 0 { r with
    outcome := if s.on ID_BOOTSTAT.FELLBACK then 0x03 else if trial then 0x02 else 0x01
    slot := b2n k, marks := marks, versions := imageKinds.map (s.slotVersion k), seq := s.slotSeq k } s
  jumpInto k s

/-- R523: the candidates in order. `nv` gives the NVM status that the verification of a slot met, 0 for OK. -/
def bootTry (nv : Bool → Nat) (vbatOk : Bool) : List Bool → BootRec → State → State
  | [], r, s => enterRecovery r s
  | k :: ks, r, s =>
    if s.slotTrial k && ((s.on ID_BOOTSTAT.TRIALEXP && s.on ID_BOOTSTAT.SLOT == k) || s.slotMarks k == 3) then
      let (d, s) := s.draw
      let st := (Config.freeWord d).toNat % 256
      bootTry nv vbatOk ks { r with rejected := b2n k, status := st } (rejectSlot k st s)
    else if nv k ≠ 0 then bootTry nv vbatOk ks { r with status := rmNvm, nvm := nv k } s
    else
      let st := slotCheck k s
      if st ≠ rmOk then bootTry nv vbatOk ks { r with rejected := b2n k, status := st } (rejectSlot k st s)
      else startSlot k vbatOk r s

/-- BOOT_SELECT: the ROM acts on a reset once the NVM is ready. -/
def bootSelect (nv : Bool → Nat) (vbatOk : Bool) (s : State) : State :=
  if !s.boot.due || !s.coreRuns || !(s.on NVM_STAT.READY) then s
  else
    let s := { s with boot := { s.boot with due := false } }
    let r : BootRec := { outcome := 0, versions := [], seq := 0 }
    if !(s.on GPIO_STRAP.RUN) then enterRecovery r s
    else
      let order := if s.slotComplete false && s.slotComplete true && s.newer then [true, false] else [false, true]
      bootTry nv vbatOk (order.filter (fun k => s.slotComplete k && !(s.stMarked k 5))) r s

/-- `nvA`, `nvB`: NVM status that the verification of slot A or B met; `vbatOk`: VBAT is at least 2.5 V. -/
def execBootSelect (nvA nvB : BitVec 8) (vbatOk : Bool) (s : State) : Out :=
  .next (bootSelect (fun k => if k then nvB.toNat else nvA.toNat) vbatOk s)

/-! ## Trial (R525, R526) -/

/-- ID_TRIAL.STOP. -/
def trialStop (s : State) : State := (s.setReg Reg.ID_TRIAL s.idTrial).put ID_TRIAL.RUN 0

/-- A write of ID_TRIAL. -/
def trialWrite (d : Word) (s : State) : State := if d.getLsbD 30 then trialStop s else s

/-- TRIAL_STOP: the write of ID_TRIAL.STOP. -/
def execTrialStop (s : State) : Out := .next (viaBus Reg.ID_TRIAL trialStop s)

/-- TRIAL_EXPIRY: the count reaches zero while RUN = 1. -/
def execTrialExpiry (s : State) : Out :=
  .next (if s.on ID_TRIAL.RUN && s.power.st != .off then
    resetBy SYSC_RSTCAUSE.SOFT (((s.put ID_TRIAL.RUN 0).put ID_TRIAL.REMAIN 0).put ID_BOOTSTAT.TRIALEXP 1)
  else s)

/-- A write of ID_UPD: PEND sets with any REQ other than 0 (R528). -/
def updWrite (d : Word) (s : State) : State :=
  let s := s.plainWrite Reg.ID_UPD d
  if d.toNat % 256 = 0 then s else s.put ID_UPD.PEND 1

def execIdUpdWrite (m : Master) (data : Word) (s : State) : Out := .next (viaMaster m Reg.ID_UPD (updWrite data) s)

/-! ## ROM services (R527) -/

/-- A service returns: g1 holds the status, g2 to g15 and the scratch area are open, the core goes on at g31. -/
def romReturn (g1 : Word) (s : State) : State :=
  let (d, s) := s.draw
  let s := s.wbytes 0x200FE000 ((List.range 4096).map (fun i => Config.freeByte d (0x200FE000 + i)))
  let g := (List.range 14).foldl (fun (g : Vector Word 32) i => g.setIfInBounds (i + 2) (Config.freeReg d (i + 2))) s.core.cpu.g
  { s with core := { s.core with cpu := { s.core.cpu with g := g.set 1 g1, pc := s.core.cpu.g[31] } } }

/-- A call of a service by firmware in machine mode. -/
def romCall (f : State → State × Nat) (s : State) : Out :=
  .next (if s.coreRuns && !s.boot.due && !s.boot.recovery && !(s.core.status.getLsbD 8) then
    let r := f s
    romReturn (BitVec.ofNat 32 r.2) r.1
  else s)

/-- VERIFY: the image whose header is at g1; in an area of a slot its KIND must match the area. -/
def romVerify (s : State) : State × Nat :=
  let a := s.core.cpu.g[1].toNat
  let kind := match imageKinds.find? (fun x => a == areaAddr false x || a == areaAddr true x) with
    | some x => x
    | none => s.imgN a 5 1
  (s, if imageKinds.contains kind then imageCheck a kind s else rmFormat)

def execRomVerify (s : State) : Out := romCall romVerify s

/-- BEGIN. -/
def romBegin (nv : Nat) (s : State) : State × Nat :=
  if s.slotTrial s.runSlot then (s, rmBadstate)
  else if nv ≠ 0 then (s, rmNvm)
  else
    let r := romErase 1 (stateUnit (!s.runSlot) 0) s
    (r.1, if r.2 = nvOk then rmOk else rmNvm)

def execRomBegin (nv : BitVec 8) (s : State) : Out := romCall (romBegin nv.toNat) s

/-- FINISH (R529). -/
def execRomFinish (nv : BitVec 8) (s : State) : Out :=
  romCall (fun s =>
    let r := finishSlot (!s.runSlot) ((s.slotSeq s.runSlot + 1) % 2 ^ 32) nv.toNat s
    (r.1, r.2.1)) s

/-- CONFIRM (R526). -/
def romConfirm (nv : Nat) (s : State) : State × Nat :=
  if !(s.slotTrial s.runSlot) then (s, rmBadstate)
  else if nv ≠ 0 then (s, rmNvm)
  else
    let r := romProgram (stateUnit s.runSlot 4) (markBytes 1) s
    if r.2 = nvOk then (trialStop r.1, rmOk) else (r.1, rmNvm)

def execRomConfirm (nv : BitVec 8) (s : State) : Out := romCall (romConfirm nv.toNat) s

/-- VERSION. -/
def execRomVersion (s : State) : Out := romCall (fun s => (s, Config.romVersion.toNat)) s

/-! ## Recovery (R530) -/

/-- RINFO's payload. -/
def State.rinfo (s : State) : List Byte :=
  leBytes 4 Config.romVersion.toNat ++ leBytes 2 ((s.reg Reg.ID_REV).toNat % 2 ^ 16) ++ leBytes 1 (b2n s.target)
    ++ leBytes 1 ((List.range 4).foldl (fun v k => v + (if s.keyUsable k then 2 ^ k else 0)) 0) ++ leBytes 8 s.factoryExt
    ++ leBytes 4 (s.slotSeq false) ++ leBytes 4 (s.slotSeq true) ++ imageKinds.flatMap (fun x => leBytes 1 (s.romFloor x)) ++ [0]

/-- The first RERASE or RWRITE makes its port the owner and erases the target's state block. -/
def recOwn (port : Bool) (s : State) : State × Nat :=
  match s.boot.owner with
  | some _ => (s, nvOk)
  | none => romErase 1 (stateUnit s.target 0) { s with boot := { s.boot with owner := some port } }

/-- A reply: ROM status and payload. -/
abbrev RecReply := State × Nat × List Byte

/-- The reply of an NVM command. -/
def recNvm (r : State × Nat) : RecReply := if r.2 = nvOk then (r.1, rmOk, []) else (r.1, rmNvm, leBytes 1 r.2)

/-- RERASE. -/
def recErase (port : Bool) (kind nv : Nat) (s : State) : RecReply :=
  if !(imageKinds.contains kind) then (s, rmRange, [])
  else
    let k := s.target
    let r := recOwn port s
    if nv ≠ 0 then recNvm (r.1, nv)
    else if r.2 ≠ nvOk then recNvm r
    else recNvm (romErase (areaBlocks kind).2 (areaAddr k kind) r.1)

/-- RWRITE. -/
def recWrite (port : Bool) (kind off : Nat) (d : List Byte) (nv : Nat) (s : State) : RecReply :=
  if !(imageKinds.contains kind) || off % 32 != 0 || d.length % 32 != 0 || d.isEmpty || decide (2016 < d.length)
      || decide (areaSize kind < off + d.length) then (s, rmRange, [])
  else
    let k := s.target
    let r := recOwn port s
    if nv ≠ 0 then recNvm (r.1, nv)
    else if r.2 ≠ nvOk then recNvm r
    else recNvm (romProgramAll (d.length / 32) (areaAddr k kind + off) d r.1)

/-- RFINISH. -/
def recFinish (nv : Nat) (s : State) : RecReply :=
  let k := s.target
  let seq := if s.slotComplete (!k) then (s.slotSeq (!k) + 1) % 2 ^ 32 else 1
  let r := finishSlot k seq nv s
  let s := bootReport 1 { outcome := 0x05, slot := b2n k, marks := r.1.slotMarks k, versions := imageKinds.map (r.1.slotVersion k)
                          seq := seq, status := r.2.1, nvm := r.2.2 } r.1
  (s, r.2.1, if r.2.1 = rmOk then leBytes 4 seq else if r.2.1 = rmNvm then leBytes 1 r.2.2 else [])

/-- ROTP. -/
def recOtp (off value : Nat) (vbatOk : Bool) (s : State) : RecReply :=
  if !((decide (0x3000 ≤ off) && decide (off < 0x3C00)) || off == 0x3F08) then (s, rmRange, [])
  else
    let a := 0x08800000 + off
    match otpTest a vbatOk s with
    | some st => (s, if st = nvBadarg then rmNvm else rmOtpfail, leBytes 1 st)
    | none => (otpSet a value s, rmOk, leBytes 1 nvOk)

/-- A recovery command with its payload; `nv` and `vbatOk` as its row says. -/
def recCommand (port : Bool) (cmd : Nat) (d : List Byte) (nv : Nat) (vbatOk : Bool) (s : State) : RecReply :=
  let u (o n : Nat) : Nat := leNat ((d.drop o).take n)
  if s.boot.owner = some (!port) then (s, rmBadstate, [])
  else if cmd = 0x10 ∧ d = [] then (s, rmOk, s.rinfo)
  else if cmd = 0x11 ∧ d.length = 1 then recErase port (u 0 1) nv s
  else if cmd = 0x12 ∧ 8 ≤ d.length then recWrite port (u 0 1) (u 4 4) (d.drop 8) nv s
  else if cmd = 0x13 ∧ d = [] then recFinish nv s
  else if cmd = 0x14 ∧ d.length = 8 then recOtp (u 0 2) (u 4 4) vbatOk s
  else if cmd = 0x15 ∧ d = [] then (s, rmOk, [])
  else (s, hsBadcmd, [])

/-- The reply is given, and an RBOOT that was accepted resets the part. -/
def recDone (cmd st : Nat) (s : State) : State := if cmd = 0x15 ∧ st = rmOk then resetBy SYSC_RSTCAUSE.SOFT s else s

/-- A command over the ring: the reply waits for the part's slot as an APP frame. -/
def recRing (h : RingHdr) (tag : Nat) (cmd : Nat) (d : List Byte) (nv : Nat) (vbatOk : Bool) (s : State) : State :=
  let r := recCommand true cmd d nv vbatOk s
  let b := leBytes 1 r.2.1 ++ leBytes 1 (tag % 16) ++ leBytes 2 r.2.2.length ++ r.2.2
  recDone cmd r.2.1 (r.1.modRing (fun x => { x with svcOut := x.svcOut ++ [{ typ := 0x11, dst := h.src.toNat, seq := h.seq.toNat, payload := b }] }))

/-- What an APP or BULK frame for the part does: a recovery command in recovery mode, else the receive queue (R451, R530). -/
def ringApp (typ : Nat) (h : RingHdr) (payload : List Byte) (nv : Nat) (vbatOk : Bool) (s : State) : State :=
  ringService h (fun s =>
    if s.boot.recovery then
      let len := leNat ((payload.drop 2).take 2)
      recRing h ((oct payload 1).toNat) (oct payload 0).toNat ((payload.drop 4).take len) nv vbatOk s
    else ringDeliver typ h payload s) s

/-- A recovery command arrives at a port. Out of recovery mode the host port answers BADCMD, and the ring's frame is one
for firmware. -/
def recVia (p : RecPort) (cmd : Nat) (d : List Byte) (nv : Nat) (vbatOk : Bool) (s : State) : Out :=
  .next (match p with
    | .host tag => hostFrame cmd tag d (fun s =>
        if s.boot.recovery then
          let r := recCommand false cmd d nv vbatOk s
          recDone cmd r.2.1 (hostReply r.2.1 r.2.2 r.1)
        else hostReply hsBadcmd [] s) s
    | .ring h tag =>
      let b := leBytes 1 cmd ++ leBytes 1 tag.toNat ++ leBytes 2 d.length ++ d
      onRing (ringFrame 0x11 h (fun _ => b) (fun s => s.ringMine h) (ringApp 0x11 h b nv vbatOk)) s)

def execRinfo (p : RecPort) (s : State) : Out := recVia p 0x10 [] 0 true s
def execRerase (p : RecPort) (kind nv : BitVec 8) (s : State) : Out := recVia p 0x11 (leBytes 1 kind.toNat) nv.toNat true s
def execRwrite (p : RecPort) (kind : BitVec 8) (off : Word) (data : List (BitVec 8)) (nv : BitVec 8) (s : State) : Out :=
  recVia p 0x12 (leBytes 1 kind.toNat ++ [0, 0, 0] ++ leBytes 4 off.toNat ++ data) nv.toNat true s
def execRfinish (p : RecPort) (nv : BitVec 8) (s : State) : Out := recVia p 0x13 [] nv.toNat true s
def execRotp (p : RecPort) (off : BitVec 16) (value : Word) (vbatOk : Bool) (s : State) : Out :=
  recVia p 0x14 (leBytes 2 off.toNat ++ [0, 0] ++ leBytes 4 value.toNat) 0 vbatOk s
def execRboot (p : RecPort) (s : State) : Out := recVia p 0x15 [] 0 true s

/-- APP, BULK: a frame at the primary input (R435, R451). -/
def execRingApp (h : RingHdr) (payload : List (BitVec 8)) (s : State) : Out :=
  .next (onRing (ringFrame 0x11 h (fun _ => payload) (fun s => s.ringMine h) (ringApp 0x11 h payload 0 true)) s)
def execRingBulk (h : RingHdr) (payload : List (BitVec 8)) (s : State) : Out :=
  .next (onRing (ringFrame 0x20 h (fun _ => payload) (fun s => s.ringMine h) (ringApp 0x20 h payload 0 true)) s)

end Sys2Proof.Machine
end

