-- ==== Sys2Proof/Machine/DictRegs.lean ====
section
/-! DEFINITION. Machine/DictRegs.lean: the register writes of the dictionary engine, its persistent store's records and
the application table (R472, R475, R476). -/
namespace Sys2Proof.Machine

/-! ## The store's ring (R475) -/

/-- The address of a unit of a block of the ring. -/
def State.storeAddr (s : State) (blk unit : Nat) : Nat :=
  nvmBlockAddr (s.on DICT_STORE.BANK) (s.get DICT_STORE.FIRST + blk % max 1 (s.get DICT_STORE.NBLK)) + 32 * unit

/-- A record begins with these bytes: MAGIC, its UNITS fits, and its CRC passes. -/
def storeRecord (b : List Byte) : Bool :=
  let n := leNat ((b.drop 5).take 1) % 8
  let v := leNat ((b.drop 6).take 2)
  leNat (b.take 2) == 0x4454 && decide (1 ≤ n) && decide (n ≤ 4) && decide (v ≤ 112) && decide (16 + v ≤ 32 * n)
    && decide (32 * n ≤ b.length) && crc32 (b.take (32 * n - 4)) == leNat ((b.take (32 * n)).drop (32 * n - 4))

/-- The bytes of a record, in whole units. -/
def storeBytes (idx sub part : Nat) (last : Bool) (seq : Nat) (v : List Byte) : List Byte :=
  let n := (16 + v.length + 31) / 32
  let b := leBytes 2 0x4454 ++ leBytes 2 idx ++ leBytes 1 sub ++ leBytes 1 (n + 8 * b2n last + 16 * part) ++ leBytes 2 v.length
    ++ leBytes 4 seq ++ v ++ List.replicate (32 * n - 16 - v.length) 0
  b ++ leBytes 4 (crc32 b)

/-- The record that bytes spell, in a block. -/
def storeParse (blk : Nat) (b : List Byte) : StoreRec :=
  let n := leNat ((b.drop 5).take 1)
  ⟨blk, leNat ((b.drop 8).take 4), leNat ((b.drop 2).take 2), leNat ((b.drop 4).take 1), n / 16, b.take (32 * (n % 8))⟩

/-- The value bytes of a record. -/
def StoreRec.val (r : StoreRec) : List Byte := (r.bytes.drop 12).take (leNat ((r.bytes.drop 6).take 2))

/-- It is the final part of its value. -/
def StoreRec.last (r : StoreRec) : Bool := bitOf (leNat ((r.bytes.drop 5).take 1)) 3

/-- What a record is about: its entry, or for a mesh counter its key's KCV (R475). -/
def StoreRec.key (r : StoreRec) : Nat × Nat × List Byte := (r.idx, r.sub, if r.idx = 0 then r.val.take 8 else [])

/-- The records of a block, unit by unit. -/
def State.blockRecs (s : State) (blk : Nat) : Nat → Nat → List StoreRec
  | 0, _ => []
  | k + 1, u =>
    if 128 ≤ u then []
    else
      let b := s.nvmBytes (s.storeAddr blk u) (32 * min 4 (128 - u))
      if storeRecord b then
        let r := storeParse blk b
        r :: State.blockRecs s blk k (u + r.bytes.length / 32)
      else State.blockRecs s blk k (u + 1)

/-- Records in the order of their sequence numbers. -/
def insertRec (r : StoreRec) : List StoreRec → List StoreRec
  | [] => [r]
  | x :: xs => if r.seq < x.seq then r :: x :: xs else x :: insertRec r xs

/-- A block of the ring holds nothing. -/
def State.blockErased (s : State) (blk : Nat) : Bool := (List.range 128).all (fun u => s.unitErased (s.storeAddr blk u))

/-- Units of a block up to its last one that is not erased. -/
def State.blockUsed (s : State) (blk : Nat) : Nat :=
  (List.range 128).foldl (fun m u => if s.unitErased (s.storeAddr blk u) then m else u + 1) 0

/-- The store as the NVM holds it. -/
def storeScan (s : State) : State :=
  let n := s.get DICT_STORE.NBLK
  let recs := ((List.range n).flatMap (fun b => s.blockRecs b 128 0)).foldl (fun l r => insertRec r l) []
  let cur := (recs.getLast?.map (·.block)).getD 0
  s.modDict (fun d => { d with store :=
    { ops := d.store.ops, busy := d.store.busy, recs := recs, cur := cur, used := s.blockUsed cur, seq := (recs.getLast?.map (fun r => r.seq + 1)).getD 0
      free := ((List.range n).filter (fun b => b != cur && s.blockErased b)).length } })

/-- A DICT_STORE write: discarded with STOREERR where it would enable a ring out of range; while EN = 1 only EN changes. -/
def storeCfgWrite (d : Word) (s : State) : State :=
  let en := DICT_STORE.EN.of d == 1
  if s.on DICT_STORE.EN then
    if en then s
    else (s.put DICT_STORE.EN 0).modDict (fun x => { x with store := { ops := x.store.ops.take (b2n x.store.busy), busy := x.store.busy, seq := x.store.seq } })
  else
    let f := DICT_STORE.FIRST.of d
    let n := DICT_STORE.NBLK.of d
    if en ∧ (n < 2 ∨ 32 < n ∨ f < 388 ∨ 495 < f + n - 1) then s.put DICT_IRQ.STOREERR 1
    else
      let s := s.plainWrite Reg.DICT_STORE d
      if en then storeScan s else s

/-! ## The application table (R472) -/

/-- The address of a descriptor. -/
def State.appAddr (s : State) (i : Nat) : Nat := s.get DICT_APPBASE.ADDR * 16 + 16 * i

/-- Index and subindex of a descriptor, as one number. -/
def State.appKey (s : State) (i : Nat) : Nat := s.rn (s.appAddr i) 2 * 256 + s.rn (s.appAddr i + 2) 1

/-- The table is sorted by index and subindex, without duplicates, every index at or above 0xA000, in control SRAM. -/
def State.appOk (s : State) : Bool :=
  let n := s.get DICT_APPN.N
  decide (n ≤ 1024) && inSram (s.appAddr 0) (16 * n)
    && (List.range n).all (fun i => decide (0xA00000 ≤ s.appKey i) && (i + 1 == n || decide (s.appKey i < s.appKey (i + 1))))

/-- The table is tested at each write of DICT_APPBASE or DICT_APPN. -/
def appTest (s : State) : State := s.putB DICT_STAT.APPBAD (s.on DICT_APPBASE.EN && !s.appOk)

/-- A write of either. -/
def appWrite (n : Bool) (d : Word) (s : State) : State := appTest (s.plainWrite (if n then Reg.DICT_APPN else Reg.DICT_APPBASE) d)

/-! ## Other registers -/

/-- DICT_CTRL: EN rising starts the restore where the store is in use (R476); EN = 0 clears READY. -/
def dictCtrlWrite (d : Word) (s : State) : State :=
  let was := s.on DICT_CTRL.EN
  let s := s.plainWrite Reg.DICT_CTRL d
  if s.on DICT_CTRL.EN then
    if was then s
    else if s.on DICT_STORE.EN then s.modDict (fun x => { x with restoreDue := true })
    else s.put DICT_STAT.READY 1
  else (s.put DICT_STAT.READY 0).modDict (fun x => { x with restoreDue := false })

/-- DICT_CBRES: GO gives the verdict and clears VALID (R473). -/
def cbresWrite (d : Word) (s : State) : State :=
  if d.getLsbD 31 && s.on DICT_CB.VALID then (s.put DICT_CB.VALID 0).modDict (fun x => { x with verdict := some d }) else s

/-- The writes of the block. -/
def dictWrite (a : Nat) (d : Word) (s : State) : State :=
  if a = Reg.DICT_CTRL then dictCtrlWrite d s
  else if a = Reg.DICT_STORE then storeCfgWrite d s
  else if a = Reg.DICT_APPBASE then appWrite false d s
  else if a = Reg.DICT_APPN then appWrite true d s
  else if a = Reg.DICT_CBRES then cbresWrite d s
  else s.plainWrite a d

end Sys2Proof.Machine
end

