-- ==== Sys2Proof/Machine/NvmCmd.lean ====
section
/-! DEFINITION. Machine/NvmCmd.lean: the command register of the NVM controller and its suspension bits (R399, R402, R407). -/
namespace Sys2Proof.Machine

/-- NVM_CMD: PROGRAM (1), ERASE (2), OTPPROG (3); a write while BUSY = 1 is discarded (R402). CMDDONE is set at
the end of a PROGRAM or OTPPROG only. -/
def nvmCommand (op count : Nat) (vbatOk : Bool) (s : State) : State :=
  if s.on NVM_CMDSTAT.BUSY then s.put NVM_IRQ.CMDOVR 1
  else
    let a := s.get NVM_ADDR.ADDR
    let begun (s : State) : State := s.put NVM_CMDSTAT.BUSY 1
    match op with
    | 1 =>
      let r := nvmProgram .firmware a (count + 1) (some (s.get NVM_SRC.SRC)) [] ((begun s).put NVM_CMDSTAT.UNITS 0)
      (r.2.map (fun st => cmdEnd st r.1)).getD r.1
    | 2 =>
      let r := nvmErase .firmware a (begun s)
      (r.2.map (fun st => cmdStatus st r.1)).getD r.1
    | 3 =>
      match otpTest a vbatOk s with
      | some st => cmdEnd st s
      | none => { begun s with nvm := { s.nvm with otp := some (a, s.reg Reg.NVM_OTPDATA) } }
    | _ => cmdStatus nvBadarg s

/-- A write of NVM_CMD by the bus. Whether VBAT stands at 2.5 V is the supply's: a free value. -/
def nvmCmdWrite (d : Word) (s : State) : State :=
  let op := NVM_CMD.OP.of d
  if op = 3 then
    let (n, s) := s.draw
    nvmCommand op 0 (Config.freeNat n % 2 == 1) s
  else nvmCommand op (NVM_CMD.COUNT.of d) true s

/-- A write of NVM_SUSP: the bit of each bank (R399). -/
def nvmSuspWrite (d : Word) (s : State) : State := setSuspend true (d.getLsbD 1) (setSuspend false (d.getLsbD 0) s)

/-- OTP_PROGRAM_DONE: the word stands in the array (R407). -/
def otpDone (s : State) : State :=
  match s.nvm.otp with
  | some (a, d) =>
    let s := otpSet a d.toNat s
    cmdEnd nvOk { s with nvm := { s.nvm with otp := none } }
  | none => s

end Sys2Proof.Machine
end

