-- ==== Sys2Proof/Machine/Tick.lean ====
section
/-! DEFINITION. Machine/Tick.lean: the commit checks of the blocks (R27, R154, R193) and the tick boundary (R15 to R21,
R28, R29): what one boundary does, in the order of the event table of chapter 01. -/
namespace Sys2Proof.Machine

/-! ## The load conditions of a lane plan (R154) -/

/-- Channels of the plan in the live registers, by their lowest lanes, scanning upward: an enabled lane begins a channel of
its BOND's size. -/
def planScan (s : State) : Nat → Nat → List Nat
  | 0, _ => []
  | k + 1, l =>
    if 96 ≤ l then []
    else if s.laneF l LOOM_LANE.EN = 1 then l :: planScan s k (l + bondLanes (s.laneF l LOOM_LANE.BOND))
    else planScan s k (l + 1)

/-- The channels. -/
def State.planChannels (s : State) : List Nat := planScan s 96 0

/-- Those of them that are in band: an out-of-band lane is absent from the plan (R170). -/
def State.bandChannels (s : State) : List Nat := s.planChannels.filter s.isChannel

/-- R154: the sum of the chunk classes' budgets exceeds COUNT × 96,000. -/
def State.overload (s : State) : Bool :=
  decide (96000 * s.engCount < ((s.bandChannels.map (fun l => s.jcB (s.msA (s.laneF l LOOM_LANE.MSET) LOOM_MSA.CHUNKCLS) SHTL_JCB.BUDGET)).sum))

/-- R154: twice the channels exceed the places of the deques. -/
def State.dequeShort (s : State) : Bool := decide (8 * s.engCount < 2 * s.bandChannels.length)

/-- A class is enabled and TAUT. -/
def State.isTaut (s : State) (c : Nat) : Bool := s.jcA c SHTL_JCA.EN == 1 && s.jcA c SHTL_JCA.PRIO == prioTaut

/-- R154: a class that the plan names is disabled or not TAUT. -/
def State.classPrio (s : State) : Bool :=
  s.bandChannels.any (fun l =>
    let m := s.laneF l LOOM_LANE.MSET
    !(s.isTaut (s.msA m LOOM_MSA.CHUNKCLS)) || (s.msA m LOOM_MSA.TAILEN == 1 && !(s.isTaut (s.msA m LOOM_MSA.TAILCLS))))

/-- R154: the check of a candidate set of job classes, standing in the live registers: the first failure's code. -/
def shtlCheck (s : State) : Option Nat :=
  let on := (List.range 32).filter (fun c => s.jcA c SHTL_JCA.EN == 1)
  let bud (c : Nat) : Nat := s.jcB c SHTL_JCB.BUDGET
  if s.engCount = 0 ∨ 32 < s.engCount then some 0x10
  else if on.any (fun c => s.jcA c SHTL_JCA.PRIO == 3) then some 0x11
  else if on.any (fun c => bud c == 0 || decide (96000 < bud c) || (s.jcA c SHTL_JCA.PRIO == prioLoose && decide (9600 < bud c))) then some 0x12
  else if s.overload then some 0x13
  else if s.dequeShort then some 0x14
  else if s.classPrio then some 0x15
  else none

/-- R191: the bonding that a PHY mode fixes, as the code of BOND. -/
def modeBond (mode : Nat) : Nat := [0, 0, 1, 1, 1, 0, 2, 3, 0].getD mode 0

/-- R193: the check of a candidate lane plan with its mode sets, standing in the live registers. -/
def loomCheck (s : State) : Option Nat :=
  let lanes := (List.range 96).filter (fun l => s.laneF l LOOM_LANE.EN == 1)
  let sets := (List.range 16).filter (fun m => s.msA m LOOM_MSA.EN == 1)
  let chans := s.planChannels
  let key (l : Nat) : Nat × Nat × Nat := (s.laneF l LOOM_LANE.EN, s.laneF l LOOM_LANE.BOND, s.laneF l LOOM_LANE.MSET)
  let size (l : Nat) : Nat := bondLanes (s.laneF l LOOM_LANE.BOND)
  let cls := s.get (LOOM_CCACFG.JCLASS.at Reg.LOOM_CCACFG_LIVE)
  if lanes.any (fun l => s.msA (s.laneF l LOOM_LANE.MSET) LOOM_MSA.EN == 0) then some 0x10
  else if sets.any (fun m => decide (8 < s.msA m LOOM_MSA.MODE) || decide (s.msB m LOOM_MSB.PWIN < 8) || s.msB m LOOM_MSB.SFDWIN == 0
      || decide (s.msB m LOOM_MSB.AGCTGT < 6) || decide (30 < s.msB m LOOM_MSB.AGCTGT)) then some 0x11
  else if lanes.any (fun l => s.laneF l LOOM_LANE.BOND != modeBond (s.msA (s.laneF l LOOM_LANE.MSET) LOOM_MSA.MODE)) then some 0x12
  else if chans.any (fun l => l % size l != 0) then some 0x13
  else if chans.any (fun l => (List.range (size l)).any (fun i => key (l + i) != key l)) then some 0x14
  else if s.overload then some 0x15
  else if s.dequeShort then some 0x16
  else if s.classPrio then some 0x17
  else if s.get (LOOM_CCACFG.EN.at Reg.LOOM_CCACFG_LIVE) == 1
      && !(s.jcA cls SHTL_JCA.EN == 1 && s.jcA cls SHTL_JCA.PRIO == prioSlack) then some 0x18
  else none

/-- The check of a block on a candidate. -/
def blkCheck : Blk → State → Option Nat
  | .loom => loomCheck | .shtl => shtlCheck | .mac => macCheck | .time => timeCheck | .ring => ringCheck

/-- COMMIT_CHECK_DONE of a block's own commit (R27): the pending set with the live values it depends on. -/
def ownChecked (b : Blk) (s : State) : State :=
  let inGroup := match s.tick.group with
    | some (m, _, _) => m.getLsbD (blkBit b)
    | none => false
  match s.pend b with
  | some p =>
    if p.passed || inGroup then s
    else match blkCheck b (s.takeLive p.live) with
      | some code => rejectOwn b code s
      | none => s.setPend b (some { p with passed := true })
  | none => s

/-- R30, R154, R193, R263: members of a group are checked against each other's pending sets. -/
def groupCandidate (mask : BitVec 5) (s : State) : State :=
  (members mask).foldl (fun c b => match s.pend b with
    | some p => c.takeLive p.live
    | none => c) s

/-- COMMIT_CHECK_DONE of the group (R30). -/
def grpChecked (s : State) : State :=
  match s.tick.group with
  | some (m, goAt, false) =>
    let c := groupCandidate m s
    groupChecked m goAt ((members m).filterMap (fun b => (blkCheck b c).map (fun e => (b, e)))) s
  | _ => s

/-! ## What becomes live (R28, R29) -/

/-- R192: the lane's entry, or a field of the mode set it names, differs from the old live set. -/
def laneChanged (old s : State) (l : Nat) : Bool :=
  let m := s.laneF l LOOM_LANE.MSET
  [Reg.LOOM_LANE_LIVE l, Reg.LOOM_MSA_LIVE m, Reg.LOOM_MSB_LIVE m, Reg.LOOM_MSC_LIVE m, Reg.LOOM_MSD_LIVE m].any
    (fun a => old.reg a != s.reg a)

/-- R29, R201: a lane plan has become live: packets on changed lanes end PLAN_CHANGE, their sentinels search under the new
entry. -/
def planLive (old s : State) : State :=
  let ch := (List.range 96).filter (laneChanged old s)
  let s := endPackets (fun p => s.inAir p && (List.range (bondLanes p.bond)).any (fun i => ch.contains (p.lane + i))) stPlanChange s
  let s := ch.foldl (fun s l => s.put (LOOM_SENT.STATE l) sentOff) s
  refreshLanes s

/-- What follows from a block's new live set. -/
def afterLive (b : Blk) (old s : State) : State :=
  match b with
  | .loom => planLive old s
  | .shtl => serviceChange s
  | .time => cmpLive old s
  | .mac | .ring => s

/-- R28, R30: the commits that are due at this boundary become live in the same cycle. -/
def commitsLive (slot : Bool) (s : State) : State :=
  let own := dueOwn slot s
  let grp := groupDue slot s
  let gb := if grp then (match s.tick.group with
    | some (m, _, _) => (members m).filter (fun b => (s.pend b).isSome)
    | none => []) else []
  let t := own.foldl (fun s e => goLive e.1 e.2.live s) s
  let t := if grp then groupLive t else t
  (own.map (·.1) ++ gb).foldl (fun t b => afterLive b s t) t

/-! ## The tick's index and alignment (R15 to R18, R104) -/

/-- The figures of a boundary: the index and phase of the tick it starts, and SYSC_TICKSTAT; answers whether it is B0 of a
realignment (R17). A start of the ticks after a stop never is (R104). -/
def tickIndex (start : Bool) (s : State) : State × Bool :=
  let next (s : State) : State := (s.inc SYSC_TICK.TICK).put SYSC_TICKSTAT.SLOTPH ((s.get SYSC_TICKSTAT.SLOTPH + 1) % 10)
  if s.time.valid then
    let e := s.alignErr
    let b0 := !start && decide (12500 < e.natAbs)
    let s := (s.put SYSC_TICKSTAT.FREE 0).putI SYSC_TICKSTAT.ALIGN_ERR (clampInt (-32767) 32767 e)
    let s := { s with tick := { s.tick with len := if 12500 < e.natAbs then tickLen else s.steered e } }
    if b0 then (((next s).put SYSC_TICKSTAT.SLEW 0).put SYSC_TICKSTAT.RETIME 1 |>.sat SYSC_TICKSTAT.RETIME_CNT, true)
    else ((((s.put SYSC_TICK.TICK s.nearestMs).put SYSC_TICKSTAT.SLOTPH (s.nearestMs % 10)).putB SYSC_TICKSTAT.SLEW (decide (10 < e.natAbs))), false)
  else
    let s := { s with tick := { s.tick with len := tickLen } }
    (next (ticksFree s), false)

/-- The packets whose tail condition holds at the end of the tick get their tail jobs, and those whose last sample lay in
it leave their lanes (R150, R197). -/
def tailsAtEnd (s : State) : State :=
  let s := { s with tick := { s.tick with startAt := s.now - s.tick.len / 2 ^ 16 - 1 } }
  let s := (List.range 96).foldl (fun s l => makeTail l s) s
  (List.range 96).foldl (fun s l => packetSamplesEnd l s) s

/-- The tick that ends as its half of the lane buffer holds it (R204). -/
def bufTick (s : State) : BufTick :=
  ⟨s.tick.bnd, s.reg Reg.SYSC_TICK, s.blankNow, s.loom.clipMask, s.loom.noticeNow⟩

/-- R204: the Loom leaves the half it wrote and turns to the other; a realigned tick has written none (R17). -/
def halvesSwap (s : State) : State :=
  if !s.loomRuns || s.tick.realigned then s
  else if (s.reg Reg.SYSC_TICK).getLsbD 0 then s.modLoom (fun l => { l with half1 := some (bufTick s) })
  else s.modLoom (fun l => { l with half0 := some (bufTick s) })

/-- R208: CARRY: lane samples of the new tick that the last step of the old one still disturbs. -/
def carryOf (g : GainNotice) : Nat :=
  match g.events.getLast? with
  | some e => min 15 (e.sample + 16 - 400)
  | none => 0

/-- R204, R207, R208: the masks and the notice of the tick that begins; those of the tick that ended go to the jobs. A clip
step due past the end of the old tick is due at that ADC sample of the new one (R206). -/
def masksShift (s : State) : State :=
  let still := s.loom.blankFrom.isSome
  let m := s.blankNow
  s.modLoom (fun l => { l with
    noticePrev := l.noticeNow
    noticeNow := { tick := s.reg Reg.SYSC_TICK, carry := carryOf l.noticeNow, code0 := s.gcode, events := []
                   codes := [], before := (l.noticeNow.code0, l.noticeNow.codes) }
    clipPrev := l.clipMask, blankPrev := m
    clipStep := l.clipStep.map (fun a => if 25600 ≤ a then a - 25600 else a)
    clipMask := (if l.clipSpill = 0 then 0 else maskRun 0 (l.clipSpill - 1) 0), clipSpill := 0
    blankMask := 0, blankFrom := if still then some 0 else none })

/-- R198: the chunks of the packets in progress, in ascending order of lane. -/
def chunks (s : State) : State := s.packetsByLane.foldl (fun s n => makeChunk n s) s

/-- R334: the part of a slew applied since the last boundary goes to the MAC's schedule offset (R274). -/
def slewReport (s : State) : State :=
  if s.time.valid then
    let d := s.slewDone
    let left := s.slewLeft
    (if d = 0 then s else addSched d s).modTime (fun t => { t with slewMark := left })
  else s

/-- R20: the tick interrupt, and TICKLOST where the last one was not cleared. -/
def tickIrq (s : State) : State :=
  (if s.on SYSC_IRQ.TICK then s.put SYSC_IRQ.TICKLOST 1 else s).put SYSC_IRQ.TICK 1

/-- R205: the figures of the tick that begins start anew; it is unusable while an announcement is pending or lanes are
blanked. -/
def gainTick (s : State) : State :=
  s.modLoom (fun l => { l with unusable := l.announce.isSome || l.blankFrom.isSome })

/-- The Loom's and the Shuttle's work at the boundary (steps 1, 2 and 7 of the event table; R160, R203, R205). -/
def radioBoundary (levels : List (BitVec 10 × Nat)) (peak tick : Nat) (wasRealigned b0 slotEnd : Bool) (s : State) : State :=
  if !s.radioOn then s
  else
    let ran := s.loomRuns
    let s := ccaRecords tick wasRealigned s
    let s := if slotEnd then slotFloors s else s
    let s := if ran then gainDecision levels peak s else s
    let s := if wasRealigned then s.modLoom (fun l => { l with deadTo := lanePerTick * s.tick.bnd }) else s
    let s := gainTick (masksShift s)
    let s := trimApply s
    let s := if s.on RFRX_CALSTAT.WAITING then s.modRx (fun r => { r with calWaited := r.calWaited + 1 }) else s
    let s := deadlines s
    let s := if b0 then endPackets (fun _ => true) stRetime s else chunks s
    let s := looseWaits s
    let s := if s.power.loomStart then
        refreshLanes ((s.modLoom (fun l => { l with running := true })).modPower (fun p => { p with loomStart := false }))
      else s
    nextWake s

/-- The counting of ticks that run: what one boundary does in the cycle in which it falls, apart from the dictionary's
work. `levels` are the values of max(|I|, |Q|) in the tick that ended with the number of ADC samples of each, up to the
largest, `peak` (R205). -/
def boundary (levels : List (BitVec 10 × Nat)) (peak : Nat) (s : State) : State :=
  let start := s.power.ticksOff
  let old := s.get SYSC_TICK.TICK
  let was := s.tick.realigned
  let s := blankSettle s
  let s := if start || was || !s.radioOn then s else tailsAtEnd s
  let s := if s.radioOn then loadFigures s else s
  let s := halvesSwap s
  let (s, b0) := tickIndex start s
  let ph := s.get SYSC_TICKSTAT.SLOTPH
  let s := { s with
    tick := { s.tick with bnd := s.tick.bnd + 1, startAt := s.now, realigned := b0, snapGen := s.tick.snapGen + 1,
                          half := (s.reg Reg.SYSC_TICK).getLsbD 0 }
    power := { s.power with ticksOff := false, remoteIn := s.power.remoteIn.map (· - 1) } }
  let s := commitsLive (ph == 0) s
  let s := tickIrq s
  let s := slewReport s
  let s := radioBoundary levels peak old was b0 (ph == 0) s
  evmPulse 0x3A (twilTick (ringTick s))

/-- The tick generator runs: the clocks of CORE run and the system PLL is locked (R104). -/
def State.ticking (s : State) : Bool := s.clocked && s.on SYSC_LPSTAT.PLLRUN

/-! ## Commands -/

/-- COMMIT_GO: a write of 1 to BLK_COMMIT.GO (R26). -/
def execCommitGo (b : Blk) (s : State) : Out := .next (viaBus (blkBase b + 0xFF0) (commitGo b) s)

/-- GROUP_COMMIT_GO: a write of SYSC_GCOMMIT with GO = 1 and this MASK (R30). -/
def execGroupCommitGo (mask : BitVec 5) (s : State) : Out := .next (viaBus Reg.SYSC_GCOMMIT (groupGo mask) s)

end Sys2Proof.Machine
end

