-- ==== Sys2Proof/Machine/Access.lean ====
section
/-! DEFINITION. Machine/Access.lean: reads and writes over the bus (chapter 02): what each register does on a write beside
keeping it, wide registers, the memories, and one access of a master. -/
namespace Sys2Proof.Machine

/-! ## Wide registers (R46, R47) -/

/-- The _HI register of a _LO register. -/
def wideHi (a : Nat) : Option Nat :=
  let arr (base n stride : Nat) : Bool := inArray base n stride a
  if a == Reg.SYSC_TWAKE_LO || a == Reg.MAC_NEXTWAKE_LO || a == Reg.TBL_KEY_LO || a == Reg.TIME_CNT_LO || a == Reg.TIME_NOW_LO
      || a == Reg.TIME_NOWC_LO || a == Reg.TIME_CORR_LO || a == Reg.RING_TREF_LO || a == Reg.RING_TRXC_LO
      || a == Reg.TWIL_PAIRADDR_LO || a == Reg.ID_EXTADDR_LO
      || arr (Reg.TIME_CTGT_LO 0) 7 0x20 || arr (Reg.TIME_CPER_LO 0) 7 0x20 || arr (Reg.TIME_CTGT_LO_LIVE 0) 7 0x20
      || arr (Reg.TIME_CPER_LO_LIVE 0) 7 0x20 || arr (Reg.TIME_CAPC_LO 0) 8 0x20 || arr (Reg.TIME_CAPNT_LO 0) 8 0x20
  then some (a + 4) else none

/-- The timer whose register `r` stands at `a`. -/
def timerAt (r : Nat → Nat) (a : Nat) : Option (Fin 8) := (List.finRange 8).find? (fun n => r n.val == a)

/-- The _LO register of a _HI register, a linked timer's among them (R376). -/
def State.isHi (s : State) (a : Nat) : Bool :=
  (decide (4 ≤ a) && (wideHi (a - 4)).isSome)
    || [Reg.TMR_COUNT, Reg.TMR_CAP].any (fun r => ((timerAt r a).map (fun n => s.linked n && n == pairHi n)).getD false)

/-- A wide register that software writes: the _HI half goes to the write-hold. -/
def State.isHeldHi (s : State) (a : Nat) : Bool :=
  a == Reg.SYSC_TWAKE_HI || a == Reg.TBL_KEY_HI || a == Reg.TIME_CORR_HI || a == Reg.TWIL_PAIRADDR_HI
    || inArray (Reg.TIME_CTGT_HI 0) 7 0x20 a || inArray (Reg.TIME_CPER_HI 0) 7 0x20 a
    || [Reg.TMR_RELOAD, Reg.TMR_CMP0, Reg.TMR_CMP1].any (fun r => ((timerAt r a).map (fun n => s.linked n && n == pairHi n)).getD false)

/-! ## Register writes -/

/-- W1C bits that a write of `d` clears, with what clearing them brings: TICKSTAT.RETIME clears RETIME_CNT, BUS_STAT.OFFACC
OFFCNT (R17, R48). -/
def clearedBy (a : Nat) (d : Word) (s : State) : State :=
  let s := s.plainWrite a d
  if a = Reg.SYSC_TICKSTAT ∧ SYSC_TICKSTAT.RETIME.of d = 1 then s.put SYSC_TICKSTAT.RETIME_CNT 0
  else if a = Reg.BUS_STAT ∧ BUS_STAT.OFFACC.of d = 1 then s.put BUS_STAT.OFFCNT 0
  else s

/-- The block whose BLK_COMMIT stands at `a`. -/
def commitAt (a : Nat) : Option Blk := blks.find? (fun b => a == blkBase b + 0xFF0)

/-- A write of SYSC and of the blocks of chapters 02 to 06. -/
def sysWrite (m : Master) (a : Nat) (d : Word) (s : State) : State :=
  if a = Reg.SYSC_GCOMMIT then
    if SYSC_GCOMMIT.GO.of d = 1 then
      if s.tick.group.isSome then groupGo (d.setWidth 5) s else groupGo (d.setWidth 5) (s.plainWrite a d)
    else s.plainWrite a d
  else if a = Reg.SYSC_SWRST then swrst d s
  else if a = Reg.SYSC_CLKGATE then clkgateWrite d s
  else if a = Reg.SYSC_PDCTL then pdctlWrite d s
  else if a = Reg.SYSC_PWRCTL then pwrctlWrite m d s
  else if a = Reg.WDT_CTRL then wdtWrite d s
  else if a = Reg.WDT_FEED then wdtFeed d s
  else if a = Reg.INTC_SW then swLineWrite (d.setWidth 8) ((d >>> 8).setWidth 8) s
  else if a = Reg.EVM_SWPULSE then evmSw (d.setWidth 24) s
  else if a = Reg.GPIO_SET then gpioSet (d.setWidth 24) s
  else if a = Reg.GPIO_CLR then gpioClr (d.setWidth 24) s
  else if blockOf a = 3 ∨ blockOf a = 11 then pinWrite a d s
  else clearedBy a d s

/-- A write of RFRX, RFTX, LOOM, SHTL, WEFT, MAC and ZEPH. -/
def radioWrite (m : Master) (a : Nat) (d : Word) (s : State) : State :=
  if a = Reg.RFRX_SPAN then spanWrite d s
  else if a = Reg.RFRX_GAIN then gainLimitWrite d s
  else if a = Reg.RFRX_CALREQ then calRequest (d.setWidth 4) (d.getLsbD 8) s
  else if a = Reg.RFRX_RSSIOFS then rssiOfsWrite d s
  else if a = Reg.RFRX_CALCFG then
    let s := s.plainWrite a d
    s.put RFRX_CALCFG.TDELTA (max 2 (min 30 (s.get RFRX_CALCFG.TDELTA)))
  else if txHeldReg a then txWrite a d s
  else if a = Reg.RFTX_CALREQ then txCalRequest (d.setWidth 2) s
  else if a = Reg.SHTL_CTRL then
    let s := s.plainWrite a ((d &&& ~~~SHTL_CTRL.HALT.mask) ||| (s.reg a &&& SHTL_CTRL.HALT.mask))
    if SHTL_CTRL.HALT.of d = s.get SHTL_CTRL.HALT then s else setHalt (d.getLsbD SHTL_CTRL.HALT.lo) s
  else if a = Reg.SHTL_POST then firmwarePost m d s
  else if blockOf a = 20 ∧ a % 0x80 = 0 then
    let n : Fin 32 := Fin.ofNat 32 (a % 0x1000 / 0x80)
    let s := if d.getLsbD 28 then s.modEng n (fun e => { e with flt := false }) else s
    if d.getLsbD 31 then resume n s else s
  else if a = Reg.MAC_TXQPTR then txqHeadWrite ((d >>> 16).setWidth 8) s
  else if a = Reg.MAC_PARENT then parentWrite d s
  else s.plainWrite a d

/-- A write of SEC and TBL. -/
def secTblWrite (a : Nat) (d : Word) (s : State) : State :=
  if a = Reg.SEC_EPOCH then epochWrite d s
  else if a = Reg.SEC_LEDGER then ledgerWrite d s
  else if a = Reg.SEC_ALMCFG then almcfgWrite d s
  else if a = Reg.SEC_BNCMD then
    if d.getLsbD 31 then bnCommand (SEC_BNCMD.OP.of d) (d.extractLsb' 8 3) (d.extractLsb' 4 3) (d.extractLsb' 0 3) s
    else if s.on SEC_BNCMD.GO then s else s.plainWrite a d
  else if inArray (Reg.SEC_XTSA 0) 8 4 a then (if s.on SEC_CFG.XTSLOCK then s else s.plainWrite a d)
  else if isSecOperand a then
    let o := a - 0x4000C400
    let k := o / 32 % 8
    let lo := o % 32 / 4 * 32
    let old : BitVec 256 := s.sec.bn[k]?.getD 0
    let new : BitVec 256 := (old &&& ~~~((0xFFFFFFFF#256) <<< lo)) ||| (d.setWidth 256 <<< lo)
    s.modSec (fun x => { x with bn := x.bn.setIfInBounds k new })
  else if a = Reg.TBL_CMD then tblCmd d s
  else if a = Reg.TBL_SPLIT then tblSplitWrite d s
  else s.plainWrite a d

/-- A write of TIME, RTC, TMR and MSU. -/
def timeWrite (a : Nat) (d : Word) (s : State) : State :=
  if a = Reg.TIME_CMD then timeCmd (TIME_CMD.OP.of d) (TIME_CMD.FORCE.of d == 1) s
  else if a = Reg.TIME_SRVCFG then reselect (s.plainWrite a d)
  else if a = Reg.TIME_SRVLIM then srvlimWrite d s
  else if inArray (Reg.TIME_CAPCFG 0) 8 0x20 a then capCfgWrite (Fin.ofNat 8 ((a - Reg.TIME_CAPCFG 0) / 0x20)) d s
  else if a = Reg.RTC_SEC then rtcRequest d s
  else if a = Reg.RTC_CALD then s.modRtc (fun r => { r with held := some d })
  else if a = Reg.RTC_CALT then caltWrite d s
  else if a = Reg.RTC_CMD then (if d.getLsbD 0 then rtcSyncnt s else s)
  else if a = Reg.RTC_ALMSEC then alarmWrite false d s
  else if a = Reg.RTC_ALMCTL then alarmWrite true d s
  else if a = Reg.RTC_PER then perWrite d s
  else if a = Reg.RTC_TRIM then trimWrite d s
  else if a = Reg.RTC_CHG then chargerWrite d s
  else if a = Reg.MSU_CFG then msuCfgWrite d s
  else if a = Reg.MSU_THR then msuThrWrite d s
  else match timerAt Reg.TMR_CTRL a with
    | some n => watchPins (tmCtrlWrite n d) s
    | none => match timerAt Reg.TMR_RELOAD a with
      | some n => tmReloadWrite n d.toNat s
      | none => match timerAt Reg.TMR_CMD a with
        | some n => if d.getLsbD 0 && s.tmHead n == n then tmRestart n s else s
        | none => s.plainWrite a d

/-- A write of NVM, SPIM, SPIS, EVR, RING, TWIL, DICT and ID. -/
def portWrite (m : Master) (a : Nat) (d : Word) (s : State) : State :=
  if a = Reg.NVM_CMD then nvmCmdWrite d s
  else if a = Reg.NVM_SUSP then nvmSuspWrite d s
  else if a = Reg.NVM_CTRL then kickBank true (kickBank false (s.plainWrite a d))
  else if a = Reg.SPIM_DCMD then dcmdWrite d s
  else if a = Reg.SPIS_CTRL then spisCtrlWrite d s
  else if a = Reg.SPIS_MBPTR 0 then mbptrWrite 0 d s
  else if a = Reg.SPIS_MBPTR 1 then mbptrWrite 1 d s
  else if a = Reg.EVR_STORE then evrStoreWrite d s
  else if a = Reg.EVR_RPT then firmwareReport m d s
  else if a = Reg.EVR_CMD then
    let s := if d.getLsbD 1 then evrKick true 40 s else s
    if d.getLsbD 0 then evrClear s else s
  else if a = Reg.RING_CFG then ringCfgWrite d s
  else if a = Reg.RING_TXQPTR then ringHeadWrite d s
  else if a = Reg.TWIL_CFG then twilCfgWrite d s
  else if a = Reg.TWIL_CMD then
    let s := if d.getLsbD 31 then twYield s else s
    let s := if d.getLsbD 30 then twForce s else s
    if d.getLsbD 29 then twResync s else s
  else if a = Reg.ID_TRIAL then trialWrite d s
  else if a = Reg.ID_UPD then updWrite d s
  else if blockOf a = 25 then dictWrite a d s
  else s.plainWrite a d

/-- A write of a _LO register transfers the write-hold with it in one cycle (R47): the pair and its 64 bits; none for any
other register. -/
def wideWrite (m : Master) (a : Nat) (d : Word) (s : State) : Option State :=
  let v := d.toNat + 2 ^ 32 * ((s.writeHold m a).toNat)
  let done (s : State) : State := s.setWriteHold m a 0
  let both (s : State) : State := (s.setReg a d).setReg (a + 4) (BitVec.ofNat 32 (v / 2 ^ 32))
  if a = Reg.TWIL_PAIRADDR_LO then some (done (pairAddrWrite v s))
  else if s.isHeldHi (a + 4) && (wideHi a).isSome then some (done (both s))
  else match timerAt Reg.TMR_RELOAD a, timerAt Reg.TMR_CMP0 a, timerAt Reg.TMR_CMP1 a with
    | some n, _, _ => if s.linked n && n == pairLo n then some (done (tmReloadWrite n v s)) else none
    | _, some n, _ => if s.linked n && n == pairLo n then some (done (s.setTmVal n Reg.TMR_CMP0 v)) else none
    | _, _, some n => if s.linked n && n == pairLo n then some (done (s.setTmVal n Reg.TMR_CMP1 v)) else none
    | _, _, _ => none

/-- A 32-bit write that a register block takes (R7, R8, R38). -/
def regWrite (m : Master) (a : Nat) (d : Word) (s : State) : State :=
  if s.isHeldHi a then s.setWriteHold m a d
  else match wideWrite m a d s with
    | some t => t
    | none =>
      match commitAt a with
      | some b =>
        let s := s.plainWrite a d
        if (cf b LOOM_COMMIT.GO).of d = 1 then commitGo b s else s
      | none =>
        let b := blockOf a
        if b ≤ 3 ∨ b = 11 ∨ b = 15 then sysWrite m a d s
        else if 16 ≤ b ∧ b ≤ 22 then radioWrite m a d s
        else if b = 12 ∨ b = 13 then secTblWrite a d s
        else if 4 ≤ b ∧ b ≤ 7 then timeWrite a d s
        else portWrite m a d s

/-! ## Register reads -/

/-- What a read of a register does beside returning it: RC fields clear, a _LO read latches the high word, a capture entry
leaves its queue, the legacy view freezes (R7, R46, R373, R376). -/
def readEffect (m : Master) (a : Nat) (s : State) : State :=
  let s := match wideHi a with
    | some h => s.latchHi m a (s.peek m h)
    | none => match timerAt Reg.TMR_COUNT a with
      | some n => if s.linked n && n == pairLo n then s.latchHi m a (s.reg (Reg.TMR_COUNT (pairHi n))) else s
      | none => s
  let s := if a = Reg.TIME_NOW_LO then nowRead m s else s
  let s := match timerAt Reg.TMR_CAP a with
    | some n =>
      if s.linked n then
        if n == pairLo n then tmCapRead n (s.latchHi m a (s.reg (Reg.TMR_CAP (pairHi n)))) else s
      else tmCapRead n s
    | none => s
  let s := if regionOf a == .regs && blockOf a == 5 then legacyRead a s else s
  s.clearRc a

/-- A 32-bit read that a register block takes. -/
def regRead (m : Master) (a : Nat) (s : State) : Word × State :=
  if s.isHi a then (s.readHold m a, s) else (s.peek m a, readEffect m a s)

/-! ## Memories -/

/-- A sample of the lane buffer: lane `n` of the tick that wrote it, 0 where the lane was blanked. -/
def bufSample (s : State) (b : BufTick) (n i : Nat) : Nat :=
  if b.blank.getLsbD i then 0 else (laneSample (s.lane n) b.notice b.bnd n i).toNat

/-- The tick record of a half (chapter 09): masks, tick index, gain notice. -/
def tickRecord (s : State) (b : BufTick) : List Byte :=
  leBytes 64 b.blank.toNat ++ leBytes 64 b.clip.toNat ++ leBytes 4 b.tick.toNat ++ (List.range 8).flatMap (fun i => leBytes 4 (b.notice.word (s.noticeNext (b.bnd + 1)) i).toNat)

/-- One byte of the lane buffer (R204): half `h`, from the tick last written whole there, or while the Loom writes it from
the tick that runs. -/
def laneBufByte (s : State) (a : Nat) : Byte :=
  let o := a - 0x31000000
  let h := decide (0x20000 ≤ o)
  let o := o % 0x20000
  let kept := if h then s.loom.half1 else s.loom.half0
  let writing := s.loomRuns && !s.tick.realigned && (s.reg Reg.SYSC_TICK).getLsbD 0 == h
  if o < 0x18000 then
    let n := o / 0x400
    let k := o % 0x400
    if 1000 ≤ k then 0
    else
      -- two samples of 20 bits stand in five bytes
      let smp (i : Nat) : Nat :=
        if writing && decide (i < s.laneSampleNow) then (s.sample true n i).toNat
        else match kept with
          | some b => bufSample s b n i
          | none => 0
      let pair := smp (k / 5 * 2) + 2 ^ 20 * (smp (k / 5 * 2 + 1))
      BitVec.ofNat 8 (pair / 2 ^ (8 * (k % 5)))
  else
    match kept with
    | some b => (tickRecord s b).getD (o - 0x18000) 0
    | none => 0

/-- `n` bytes of a memory that the bus reads, none while a bank of NVM keeps the master waiting (R393) or a store waits at
the memory port; `some none` when the read is answered as a decode error (R391). -/
def memRead (m : Master) (a n : Nat) (wrong : Nat) (s : State) : Option (State × Option (List Byte)) :=
  match regionOf a with
  | .otp => some (s, some ((List.range n).map (fun i => s.otpByte (a + i))))
  | .laneBuf => some (s, some ((List.range n).map (fun i => laneBufByte s (a + i))))
  | .regs | .none => some (s, none)
  | .nvm | .xip | .sram | .retention | .weftLocal | .weftProg | .ctxPool | .table | .rom => storeRead m a n wrong s

/-! ## One access -/

/-- How an access of a master ends: done, with what it read; faulted (R51); waiting. -/
inductive BusEnd where
  | done (v : Nat)
  | fault
  | wait
  deriving DecidableEq, Repr

/-- A read of a master, `wrong` bits being wrong in the NVM unit it meets. -/
def busReadW (m : Master) (a : Nat) (sz : Size) (wrong : Nat) (s : State) : State × BusEnd :=
  let x : Access := ⟨m, a, sz, false⟩
  match busRefusal s x with
  | some c => (refuse c x s, if faults c x s then .fault else .done 0)
  | none =>
    if regionOf a == .regs then
      let r := regRead m a s
      (r.2, .done r.1.toNat)
    else match memRead m a (sizeBytes sz) wrong s with
      | none => (s, .wait)
      | some (s, some b) => (s, .done (leNat b))
      | some (s, none) => (decodeError x s, .fault)

/-- A read of a master. -/
def busRead (m : Master) (a : Nat) (sz : Size) (s : State) : State × BusEnd := busReadW m a sz 0 s

/-- A write of a master. -/
def busWrite (m : Master) (a : Nat) (sz : Size) (v : Nat) (s : State) : State × BusEnd :=
  let x : Access := ⟨m, a, sz, true⟩
  match busRefusal s x with
  | some c => (refuse c x s, if faults c x s then .fault else .done 0)
  | none =>
    if regionOf a == .regs then (regWrite m a (BitVec.ofNat 32 v) s, .done 0)
    else if regionOf a == .xip then
      match xipStore a (leBytes (sizeBytes sz) v) s with
      | some t => (t, .done 0)
      | none => (s, .wait)
    else
      let s := s.wn a (sizeBytes sz) v
      -- R143: a write of the program SRAM empties every engine's instruction buffer
      (if regionOf a == .weftProg then { s with shtl := { s.shtl with eng := s.shtl.eng.map (fun e => { e with ibuf := [] }) } } else s, .done 0)

end Sys2Proof.Machine
end

