-- ==== Sys2Proof/Machine/DictEntry.lean ====
section
/-! DEFINITION. Machine/DictEntry.lean: the entries of the object dictionary (R453, R454, R477, R478 and the entry tables of
the chapters): type, access, where the value stands, what writing it does. -/
namespace Sys2Proof.Machine

/-- Types (R453): sizes in bytes; strings and octets with their lengths. -/
inductive DTyp where
  | bool
  | un (n : Nat)
  | sn (n : Nat)
  | str (max : Nat)
  | oct (lo hi : Nat)
  deriving DecidableEq, Repr

/-- Access classes (R454). -/
inductive DAcc where
  | const | ro | rw | wo | rwt
  deriving DecidableEq, Repr

/-- One entry: type, access, the address whose domain and clock it needs, its value (none: NOENTRY), what a written value
does when it comes into force (for a TK entry: how it enters the shadow), the block of a TK entry, values its chapter
refuses, whether it is persistent when writable (R474). -/
structure DEntry where
  typ : DTyp
  acc : DAcc
  addr : Nat := Reg.SYSC_TICK
  rd : Session → State → Option (List Byte)
  wr : List Byte → State → State := fun _ s => s
  blk : Option Blk := none
  test : List Byte → State → Bool := fun _ _ => true
  keep : Bool := true
  /-- The memory that holds the value, of an application entry: address and size (R472). -/
  mem : Option (Nat × Nat) := none

/-- A number in `n` bytes. -/
def dVal (n v : Nat) : Option (List Byte) := some (leBytes n v)

/-- The bits of a register that belong to a field. -/
def knownBits (a : Nat) : Nat := ((regRow a).map (·.known)).getD 0

/-- No reserved bit is set in a word for the register at `a` (R454). -/
def knownOnly (a : Nat) (b : List Byte) : Bool := leNat b &&& (2 ^ 32 - 1 - knownBits a) == 0

/-- A value of `n` bytes fits a field: unsigned, or signed. -/
def fitsField (f : Field) (signed : Bool) (b : List Byte) : Bool :=
  if signed then
    let v := signedOf (8 * b.length) (leNat b)
    decide (-(2 ^ (f.w - 1) : Int) ≤ v) && decide (v < (2 ^ (f.w - 1) : Int))
  else decide (leNat b < 2 ^ f.w)

/-- A value that is only read. -/
def dRo (n addr : Nat) (f : State → Nat) : DEntry := { typ := .un n, acc := .ro, addr := addr, rd := fun _ s => dVal n (f s) }

/-- A signed one. -/
def dRoI (n addr : Nat) (f : State → Int) : DEntry :=
  { typ := .sn n, acc := .ro, addr := addr, rd := fun _ s => dVal n (wrapInt (8 * n) (f s)) }

/-- A constant. -/
def dConst (n : Nat) (f : State → Nat) : DEntry := { typ := .un n, acc := .const, rd := fun _ s => dVal n (f s) }

/-- A register that is only read. -/
def dRoReg (a : Nat) : DEntry := dRo 4 a (fun s => (s.peek .dict a).toNat)

/-- A whole register: a written value acts as a write of the register. -/
def dReg (a : Nat) : DEntry :=
  { typ := .un 4, acc := .rw, addr := a, rd := fun _ s => dVal 4 (s.peek .dict a).toNat
    wr := fun b s => regWrite .dict a (BitVec.ofNat 32 (leNat b)) s, test := fun b _ => knownOnly a b }

/-- A write of a field: the register's other read-write bits keep their values. -/
def fieldWrite (f : Field) (v : Nat) (s : State) : State :=
  let rw := BitVec.ofNat 32 (((regRow f.reg).map (·.rw)).getD 0)
  regWrite .dict f.reg (f.into (s.peek .dict f.reg &&& rw) v) s

/-- A field of a register. -/
def dFld (n : Nat) (f : Field) : DEntry :=
  { typ := .un n, acc := .rw, addr := f.reg, rd := fun _ s => dVal n (f.of (s.peek .dict f.reg))
    wr := fun b s => fieldWrite f (leNat b) s, test := fun b _ => fitsField f false b }

/-- A signed field. -/
def dFldI (n : Nat) (f : Field) : DEntry :=
  { typ := .sn n, acc := .rw, addr := f.reg, rd := fun _ s => dVal n (wrapInt (8 * n) (signedOf f.w (f.of (s.peek .dict f.reg))))
    wr := fun b s => fieldWrite f (leNat b) s, test := fun b _ => fitsField f true b }

/-- A whole TK register: read live, written into the shadow. -/
def dTk (b : Blk) (sh live : Nat) : DEntry :=
  { typ := .un 4, acc := .rwt, addr := sh, blk := some b, rd := fun _ s => dVal 4 (s.reg live).toNat
    wr := fun v s => s.setReg sh (BitVec.ofNat 32 (leNat v)), test := fun v _ => knownOnly sh v }

/-- A TK field, a BOOL where `n` is 0. -/
def dTkF (b : Blk) (n : Nat) (f : Field) (live : Nat) : DEntry :=
  { typ := if n = 0 then .bool else .un n, acc := .rwt, addr := f.reg, blk := some b
    rd := fun _ s => dVal (max 1 n) (s.get (f.at live)), wr := fun v s => s.put f (leNat v), test := fun v _ => fitsField f false v }

/-- A 64-bit TK value. -/
def dTkW (b : Blk) (sh live : Nat) : DEntry :=
  { typ := .un 8, acc := .rwt, addr := sh, blk := some b
    rd := fun _ s => dVal 8 ((s.reg live).toNat + 2 ^ 32 * ((s.reg (live + 4)).toNat))
    wr := fun v s => (s.setReg sh (BitVec.ofNat 32 (leNat v))).setReg (sh + 4) (BitVec.ofNat 32 (leNat v / 2 ^ 32)) }

/-- A command: written, never read. -/
def dWo (typ : DTyp) (addr : Nat) (test : List Byte → Bool) (wr : List Byte → State → State) : DEntry :=
  { typ := typ, acc := .wo, addr := addr, rd := fun _ _ => none, wr := wr, test := fun b _ => test b }

/-- A value kept in the state. -/
def dMem (typ : DTyp) (rd : State → List Byte) (wr : List Byte → State → State) : DEntry :=
  { typ := typ, acc := .rw, rd := fun _ s => some (rd s), wr := wr }

/-- The entry of a list of entries numbered from a first subindex. -/
def nth (l : List DEntry) (first sub : Nat) : Option DEntry := if first ≤ sub then l[sub - first]? else none

/-! ## Chapter 22, 04, 20: 0x1000 to 0x1FFF -/

/-- 0x1001:00. -/
def State.errorState (s : State) : Nat :=
  let b : List Bool := [s.get NVM_STAT.RDONLY != 0 || decide (0 < s.total NVM_ECCCNT.UNCORR),
    s.reg Reg.RFRX_CALSTAT &&& 0x3F00#32 != 0, !s.time.valid, s.on SEC_ALMSTAT.LATCHED, s.on RING_STAT.ISOL,
    s.on TWIL_STAT.SPLIT || (s.standby && !(s.on TWIL_STAT.LINK)), s.on DICT_CTRL.EN && s.noStore]
  b2n (b.any id) + 2 * (b.zipIdx.map (fun e => b2n e.1 * 2 ^ e.2)).sum

/-- A version of the running slot's image. -/
def State.runVersion (s : State) (kind : Nat) : Nat := s.slotVersion s.runSlot kind

/-- Indexes 0x1000 to 0x1FFF but 0x1F20. -/
def dComm (i sub : Nat) : Option DEntry :=
  match i, sub with
  | 0x1000, 0 => some (dConst 4 (fun _ => 0x00019664))
  | 0x1001, 0 => some (dRo 1 Reg.SYSC_TICK State.errorState)
  | 0x1008, 0 => some (dMem (.str 32) (fun s => s.dict.name.getD [0x46, 0x4C, 0x4D, 0x39, 0x36, 0x36, 0x34])
      (fun b s => s.modDict (fun d => { d with name := some b })))
  | 0x1009, 0 => some (dConst 2 (fun s => (s.reg Reg.ID_REV).toNat % 65536))
  | 0x100A, 4 => some (dRo 4 Reg.SYSC_TICK (fun _ => Config.romVersion.toNat))
  | 0x100A, k => if 1 ≤ k ∧ k ≤ 3 then some (dRo 4 Reg.SYSC_TICK (fun s => s.runVersion k)) else none
  | 0x1018, 1 => some (dConst 4 (fun s => (s.reg Reg.ID_VENDOR).toNat))
  | 0x1018, 2 => some (dConst 4 (fun _ => 0x9664))
  | 0x1018, 3 => some (dConst 4 (fun s => (s.reg Reg.ID_REV).toNat))
  | 0x1018, 4 => some (dConst 4 (fun s => (s.reg Reg.ID_SERIAL).toNat))
  | 0x1018, 5 => some (dConst 8 State.factoryExt)
  | 0x1F00, 1 => some (dRo 1 Reg.DICT_CTRL State.dictOpen)
  | 0x1F00, 2 => some (dFld 1 DICT_CTRL.TTO)
  | 0x1F00, 3 => some (dFld 1 DICT_CTRL.HOLDMAX)
  | 0x1F00, 4 => some (dRo 4 Reg.DICT_CTRL (fun s => s.dict.committed))
  | 0x1F00, 5 => some (dRo 4 Reg.DICT_CTRL (fun s => s.total DICT_CNT.REFUSED))
  | 0x1F00, 6 => some (dWo (.un 1) Reg.DICT_CTRL (fun b => leNat b == 0xD5) (fun _ s => s))
  | 0x1F01, 0 => some (dRo 4 Reg.DICT_CTRL (fun s => s.tick.snapGen))
  | 0x1F10, 0 => some (dWo (.un 1) Reg.SYSC_TICK (fun b => leNat b == 1) (fun _ s => s.modPower (fun p => { p with remoteIn := some 2 })))
  | _, _ => none

/-- 0x1F20 (R430). -/
def dSerial (sub : Nat) : Option DEntry :=
  nth [dRo 4 Reg.SPIS_CTRL (fun s => s.spis.taken),
    dRo 4 Reg.SPIS_CTRL (fun s => s.total SPIS_CNT0.SHORT + s.total SPIS_CNT0.LONG),
    dRo 4 Reg.SPIS_CTRL (fun s => s.total SPIS_CNT0.CRC + s.total SPIS_CNT1.OVERRUN + s.total SPIS_CNT1.BADLEN),
    dRo 4 Reg.SPIS_CTRL (fun s => s.total SPIS_CNT0.BUSY), dRoReg Reg.SPIM_STAT,
    dRo 4 Reg.SPIM_STAT (fun s => s.total SPIM_CNT.WDROP), dRo 4 Reg.SPIM_STAT (fun s => s.total SPIM_CNT.TOUT)] 1 sub

/-! ## 0x2000 to 0x2FFF: chapters 07 to 11 -/

/-- Names of an enabled lane of the live plan (R232). -/
def State.setInUse (s : State) (n : Nat) : Bool :=
  (List.range 96).any (fun l => s.laneF l LOOM_LANE.EN == 1 && s.laneF l LOOM_LANE.MSET == n)

/-- An entry of a set that an enabled lane names takes no write (R232). -/
def State.rxParamHeld (s : State) (i : Nat) : Bool := decide (0x2120 ≤ i) && decide (i ≤ 0x212F) && s.setInUse (i - 0x2120)

/-- Receive parameters of a set (R214, R232): offset and size in its entry of the table in control SRAM. -/
def dRxParam (n sub : Nat) : Option DEntry :=
  let e (o k : Nat) : DEntry :=
    { typ := .un k, acc := .rw, rd := fun _ s => some (s.bytes (0x200FF000 + 32 * n + o) k)
      wr := fun b s => s.wbytes (0x200FF000 + 32 * n + o) b, test := fun _ s => !(s.setInUse n) }
  nth [e 0 2, e 2 1, e 3 1, e 4 1, e 5 1, e 6 1, e 7 1, e 8 1] 1 sub

/-- Indexes 0x2000 to 0x21FF (R209, R232). -/
def dLoom (i sub : Nat) : Option DEntry :=
  if i = 0x2000 then (if 1 ≤ sub ∧ sub ≤ 96 then some (dTk .loom (Reg.LOOM_LANE (sub - 1)) (Reg.LOOM_LANE_LIVE (sub - 1))) else none)
  else if i = 0x2001 then
    (if 1 ≤ sub ∧ sub ≤ 96 then some (dRoI 2 (Reg.LOOM_NRG (sub - 1)) (fun s => s.getI (LOOM_NRG.NOW (sub - 1)))) else none)
  else if 0x2100 ≤ i ∧ i ≤ 0x210F then
    let n := i - 0x2100
    nth [dTk .loom (Reg.LOOM_MSA n) (Reg.LOOM_MSA_LIVE n), dTk .loom (Reg.LOOM_MSB n) (Reg.LOOM_MSB_LIVE n),
      dTk .loom (Reg.LOOM_MSC n) (Reg.LOOM_MSC_LIVE n), dTk .loom (Reg.LOOM_MSD n) (Reg.LOOM_MSD_LIVE n)] 1 sub
  else if i = 0x2110 then nth [dTk .loom Reg.LOOM_CCACFG Reg.LOOM_CCACFG_LIVE] 1 sub
  else if 0x2120 ≤ i ∧ i ≤ 0x212F then dRxParam (i - 0x2120) sub
  else if i = 0x2130 then nth ((List.range 16).map (fun n => dRoReg (Reg.MAC_RXCNT n)) ++ [dRoReg Reg.MAC_RXLAST]) 1 sub
  else if i = 0x2131 then
    nth ((List.range 8).map (fun n => dReg (Reg.MAC_MSWMAP n)) ++ [dReg Reg.MAC_RXCFG,
      dRo 4 Reg.MAC_RXMSW (fun s => s.total MAC_RXMSW.MATCH), dRo 4 Reg.MAC_RXMSW (fun s => s.total MAC_RXMSW.MISS)]) 1 sub
  else none

/-- Indexes 0x2200 to 0x27FF (R168, R187, R209, R258). -/
def dFront (i sub : Nat) : Option DEntry :=
  if i = 0x2200 then
    nth [dRo 1 Reg.RFRX_GAIN (fun s => s.get RFRX_GAIN.CODE), dFld 1 RFRX_GAIN.MINCODE, dFld 1 RFRX_GAIN.MAXCODE, dFld 1 RFRX_CLIP.NCLIP,
      dRo 4 Reg.RFRX_CLIP (fun s => s.total RFRX_CLIP.COUNT), dReg Reg.LOOM_GAINCFG0, dReg Reg.LOOM_GAINCFG1,
      dRo 4 Reg.LOOM_GAINCNT (fun s => s.total LOOM_GAINCNT.UP + s.total LOOM_GAINCNT.DOWN + s.total LOOM_GAINCNT.CLIPSTEP),
      dRo 4 Reg.LOOM_GAINCNT (fun s => s.total LOOM_GAINCNT.CANCEL)] 1 sub
  else if i = 0x2300 then
    nth [dWo (.un 1) Reg.RFRX_CALREQ (fun b => leNat b &&& 0x70 == 0)
        (fun b s => calRequest (BitVec.ofNat 4 (leNat b)) (bitOf (leNat b) 7) s),
      dRoReg Reg.RFRX_CALSTAT, dRoI 2 Reg.RFRX_TEMP (fun s => s.getI RFRX_TEMP.TCAL), dFld 1 RFRX_CALCFG.TDELTA, dFld 2 RFRX_CALCFG.WAITLIM] 1 sub
  else if i = 0x2400 then
    if sub = 1 then some { typ := .oct 348 348, acc := .ro, rd := fun _ s => some ((s.tx.record ++ List.replicate 348 0).take 348) }
    else if sub = 2 then some { typ := .bool, acc := .ro, rd := fun _ s => dVal 1 (b2n ((s.otpWord 0x3D58).getLsbD 0)) }
    else if 0x10 ≤ sub ∧ sub ≤ 0x1F then some (dReg (Reg.RFTX_FIR (sub - 0x10)))
    else if 0x20 ≤ sub ∧ sub ≤ 0x27 then some (dReg (Reg.RFTX_TCOMP (sub - 0x20)))
    else nth ([dReg Reg.RFTX_PWR, dRoReg Reg.RFTX_STAT] ++ (List.range 4).map (fun n => dRoReg (Reg.RFTX_DUTY n)) ++
      [dRo 4 Reg.RFTX_CNT0 (fun s => s.total RFTX_CNT0.REGREF), dRo 4 Reg.RFTX_CNT0 (fun s => s.total RFTX_CNT0.LOCKERR),
       dReg Reg.RFTX_SEQ, dReg Reg.RFTX_COEX,
       dWo (.un 1) Reg.RFTX_CALREQ (fun b => decide (leNat b < 4)) (fun b s => txCalRequest (BitVec.ofNat 2 (leNat b)) s),
       dReg Reg.RFTX_CTRL]) 3 sub
  else if i = 0x2500 then
    nth ((List.range 8).map (fun n => dReg (Reg.RFTX_TUNE n)) ++ [dReg Reg.RFTX_MISM, dRoReg Reg.RFTX_RL,
      dRo 4 Reg.RFTX_CNT1 (fun s => s.total RFTX_CNT1.MISM)]) 1 sub
  else if i = 0x2600 then
    nth [dTkF .shtl 1 SHTL_ENGCFG.COUNT Reg.SHTL_ENGCFG_LIVE, dRoReg Reg.SHTL_OVRCNT,
      dRo 2 Reg.SHTL_ERRCNT (fun s => min 65535 (s.total SHTL_ERRCNT.FAULT)), dRo 2 Reg.SHTL_LOAD (fun s => s.get SHTL_LOAD.BUSY),
      dRo 2 Reg.SHTL_LOOSE (fun s => s.shtl.waitMax)] 1 sub
  else if 0x2610 ≤ i ∧ i ≤ 0x262F then
    let n := i - 0x2610
    nth [dTkF .shtl 0 (SHTL_JCA.EN n) (Reg.SHTL_JCA_LIVE n), dTkF .shtl 1 (SHTL_JCA.PRIO n) (Reg.SHTL_JCA_LIVE n),
      dTkF .shtl 2 (SHTL_JCA.ENTRY n) (Reg.SHTL_JCA_LIVE n), dTkF .shtl 4 (SHTL_JCB.BUDGET n) (Reg.SHTL_JCB_LIVE n)] 1 sub
  else if i = 0x2700 then
    nth [{ dFld 2 RFRX_SPAN.CENTRE with acc := .rwt }, dRo 2 Reg.RFRX_SPAN (fun s => s.get RFRX_SPAN.LIVE), dFld 1 RFRX_TRIMCFG.MODE,
      dFldI 2 RFRX_TRIM.TRIM, dFldI 2 RFRX_RSSIOFS.OFS] 1 sub
  else none

/-! ## 0x3000 to 0x3FFF: chapters 12 and 14 -/

/-- An entry of the hop list. -/
def dHop (k : Nat) : DEntry :=
  let f : Field := if k % 4 = 0 then MAC_HOP.E0 (k / 4) else if k % 4 = 1 then MAC_HOP.E1 (k / 4)
    else if k % 4 = 2 then MAC_HOP.E2 (k / 4) else MAC_HOP.E3 (k / 4)
  dTkF .mac 1 f (Reg.MAC_HOP_LIVE (k / 4))

/-- The MAC's counters in the order of 0x3500. -/
def macCounters : List Field :=
  [MAC_CNT.LO 0, MAC_CNT.HI 0, MAC_CNT.HI 1, MAC_CNT.LO 1, MAC_CNT.HI 2, MAC_CNT.LO 2, MAC_CNT.HI 3, MAC_CNT.LO 3, MAC_CNT.HI 4,
   MAC_CNT.LO 4, MAC_CNT.HI 5, MAC_CNT.LO 5]

/-- Indexes 0x3000 to 0x3FFF but the table's (R289). -/
def dMac (i sub : Nat) : Option DEntry :=
  if i = 0x3000 then
    nth [dReg Reg.MAC_CFG, dReg Reg.MAC_ADDR, dRo 8 Reg.MAC_CFG State.factoryExt, dTk .mac Reg.MAC_TIMING Reg.MAC_TIMING_LIVE,
      dReg Reg.MAC_CSMA, dReg Reg.MAC_RADIO, dTk .mac Reg.MAC_BCNCFG Reg.MAC_BCNCFG_LIVE,
      dTk .mac Reg.MAC_BCNSLOT Reg.MAC_BCNSLOT_LIVE, dReg Reg.MAC_BCNTRK, dReg Reg.MAC_PARENT, dRoReg Reg.MAC_BSTAT,
      { dMem (.oct 3 3) (fun s => s.mac.vendor) (fun b s => { s with mac := { s.mac with vendor := b } }) with addr := Reg.MAC_CFG },
      dReg Reg.MAC_ZBURST] 1 sub
  else if 0x3100 ≤ i ∧ i ≤ 0x3107 then
    let n := i - 0x3100
    nth [dTkF .mac 0 (MAC_SF.EN n) (Reg.MAC_SF_LIVE n), dTkF .mac 2 (MAC_SF.LEN n) (Reg.MAC_SF_LIVE n)] 1 sub
  else if i = 0x3110 then nth ((List.range 16).map dHop ++ [dTkF .mac 1 MAC_HOPCFG.LEN Reg.MAC_HOPCFG_LIVE]) 1 sub
  else if 0x3200 ≤ i ∧ i ≤ 0x323F then
    let n := i - 0x3200
    nth [dTk .mac (Reg.MAC_LINKA n) (Reg.MAC_LINKA_LIVE n), dTk .mac (Reg.MAC_LINKB n) (Reg.MAC_LINKB_LIVE n)] 1 sub
  else if i = 0x3500 then nth (macCounters.map (fun f => dRo 4 f.reg (fun s => s.total f))) 1 sub
  else if i = 0x3600 then
    nth ([dReg Reg.ZEPH_CTRL] ++ (List.range 8).map (fun n => dReg (Reg.ZEPH_ADDR n)) ++ [dReg Reg.ZEPH_HAND,
      dRo 4 Reg.ZEPH_STAT (fun s => s.total ZEPH_STAT.MATCH)]) 1 sub
  else none

/-- Indexes 0x3300 and 0x3400 (R327). The commands among them act in the commit check (R467 step 4). -/
def dTable (i sub : Nat) : Option DEntry :=
  let wo (n : Nat) : DEntry := dWo (.un n) Reg.TBL_CMD (fun _ => true) (fun _ s => s)
  match i, sub with
  | 0x3300, 1 => some (dRo 2 Reg.TBL_COUNT (fun s => (s.tblOf kPeer).length))
  | 0x3300, 2 => some (dReg Reg.TBL_SPLIT)
  | 0x3300, 3 => some (dReg Reg.TBL_AGE)
  | 0x3300, 4 => some { typ := .un 2, acc := .rw, addr := Reg.TBL_CMD, rd := fun q _ => dVal 2 q.tblCur
                        test := fun b _ => decide (leNat b < 8192), keep := false }
  | 0x3300, 5 => some { typ := .oct 32 32, acc := .rw, addr := Reg.TBL_CMD, rd := fun q s => some (s.entry q.tblCur), keep := false }
  | 0x3300, 6 => some (wo 8)
  | 0x3300, 7 => some { wo 2 with test := fun b _ => decide (leNat b < 8192) }
  | 0x3400, 1 => some (dRo 2 Reg.TBL_COUNT (fun s => (s.tblOf kRoute).length))
  | 0x3400, 2 => some (dRoReg Reg.TBL_AGECNT)
  | 0x3400, 3 => some (wo 8)
  | 0x3400, 4 => some (wo 4)
  | _, _ => none

/-! ## 0x4000 to 0x4FFF: chapters 15 and 16 -/

/-- Indexes 0x4000 to 0x40FF and 0x4200 to 0x42FF (R348, R350). -/
def dTime (i sub : Nat) : Option DEntry :=
  if i = 0x4000 then
    let cmd (typ : DTyp) : DEntry := dWo typ Reg.TIME_CMD (fun _ => true) (fun _ s => s)
    nth [dRo 8 Reg.TIME_STAT (fun s => s.ntRead), dRo 1 Reg.TIME_STAT State.qual, dRoI 4 Reg.TIME_ADJ (fun s => (s.reg Reg.TIME_ADJ).toInt),
      cmd (.un 8), cmd (.sn 8), cmd (.sn 8), cmd .bool, dReg Reg.TIME_JUMPMAX, dReg Reg.TIME_SRVCFG, dReg Reg.TIME_SRVLIM, dReg Reg.TIME_DLY,
      dMem (.sn 2) (fun s => leBytes 2 (wrapInt 16 s.time.utc)) (fun b s => s.modTime (fun t => { t with utc := signedOf 16 (leNat b) })),
      dMem (.sn 2) (fun s => leBytes 2 (wrapInt 16 s.time.utcNew)) (fun b s => s.modTime (fun t => { t with utcNew := signedOf 16 (leNat b) })),
      dMem (.un 8) (fun s => leBytes 8 s.time.utcAt) (fun b s => s.modTime (fun t => { t with utcAt := leNat b })),
      dRo 4 Reg.TIME_ERRCNT (fun s => s.total TIME_ERRCNT.JUMPREF), { dFld 1 TIME_STAT.TRACE with typ := .bool }] 1 sub
  else if 0x4200 ≤ i ∧ i ≤ 0x4206 then
    let n := i - 0x4200
    nth [dTk .time (Reg.TIME_CCTL n) (Reg.TIME_CCTL_LIVE n), dTkW .time (Reg.TIME_CTGT_LO n) (Reg.TIME_CTGT_LO_LIVE n),
      dTkW .time (Reg.TIME_CPER_LO n) (Reg.TIME_CPER_LO_LIVE n)] 1 sub
  else if 0x4210 ≤ i ∧ i ≤ 0x4217 then
    let n := i - 0x4210
    nth [dReg (Reg.TIME_CAPCFG n), dRo 8 (Reg.TIME_CAPCFG n) (fun s =>
      (s.reg (Reg.TIME_CAPNT_LO n)).toNat + 2 ^ 32 * ((s.reg (Reg.TIME_CAPNT_HI n)).toNat))] 1 sub
  else none

/-- Index 0x4100 (R366, R474). -/
def dRtc (sub : Nat) : Option DEntry :=
  let no (e : DEntry) : DEntry := { e with keep := false }
  nth [no (dReg Reg.RTC_SEC), dRo 2 Reg.RTC_FRAC (fun s => (s.peek .dict Reg.RTC_FRAC).toNat), no (dReg Reg.RTC_CALD), no (dReg Reg.RTC_CALT),
    dFldI 4 RTC_CALOFS.OFS, dReg Reg.RTC_CFG, dRoReg Reg.RTC_STAT, dReg Reg.RTC_ALMSEC, dReg Reg.RTC_ALMCTL, dReg Reg.RTC_PER,
    dReg Reg.RTC_TRIMCFG, dFldI 2 RTC_TRIM.TRIM, dReg Reg.RTC_CHG,
    dWo .bool Reg.RTC_CMD (fun _ => true) (fun b s => if leNat b = 1 then rtcSyncnt s else s)] 1 sub

/-! ## 0x5000 to 0x5FFF: chapters 18, 21, 22 -/

/-- An asset value: the locked one, else the one written, else the default (R478, R479). -/
def State.assetVal (s : State) (sub : Nat) : List Byte :=
  let d : List Byte := if sub = 3 then [0, 0, 0, 0] else if sub = 4 then List.replicate 8 0 else if sub = 5 then [0] else []
  let l := s.dict.locked.getD s.dict.asset
  ((l.find? (fun e => e.1 = sub)).map (·.2)).getD d

/-- An asset entry is written. -/
def assetSet (sub : Nat) (b : List Byte) (s : State) : State :=
  s.modDict (fun d => { d with asset := (sub, b) :: d.asset.filter (fun e => e.1 ≠ sub) })

/-- 0x5000 (R478): the lock makes 01 to 05 read-only (R479). -/
def dAsset (locked : Bool) (sub : Nat) : Option DEntry :=
  let e (t : DTyp) : DEntry :=
    { typ := t, acc := if locked then .ro else .rw, rd := fun _ s => some (s.assetVal sub), wr := assetSet sub }
  match sub with
  | 1 => some (e (.str 32))
  | 2 => some (e (.str 24))
  | 3 => some (e (.un 4))
  | 4 => some (e (.un 8))
  | 5 => some (e .bool)
  | 6 => some (dRo 4 Reg.SYSC_TICK (fun s => crc32 ([1, 2, 3, 4].flatMap s.assetVal)))
  | _ => none

/-- 0x5100 (R387). -/
def dMains (sub : Nat) : Option DEntry :=
  nth [dReg Reg.MSU_CFG, dFld 2 MSU_NOM.NOM, dReg Reg.MSU_THR, dRoReg Reg.MSU_STAT, dRoReg Reg.MSU_FREQ, dRoReg Reg.MSU_FAVG10,
    dRoReg Reg.MSU_FAVG600, dRoReg Reg.MSU_RMS0, dRoReg Reg.MSU_RMS1, dRo 4 Reg.MSU_STAT (fun s => s.msu.sags),
    dRo 4 Reg.MSU_STAT (fun s => s.msu.swells), dRo 4 Reg.MSU_STAT (fun s => s.msu.intrs)] 1 sub

/-- 0x5200 (R452). -/
def dRing (sub : Nat) : Option DEntry :=
  if 7 ≤ sub ∧ sub ≤ 0x26 then
    some (dRo 8 Reg.RING_STAT (fun s => ((s.ring.present.find? (fun e => e.1 = sub - 7)).map (·.2)).getD 0))
  else if 0x27 ≤ sub then
    nth [dRo 4 Reg.RING_CNT0 (fun s => s.total RING_CNT0.CRC + s.total RING_CNT0.ABORT), dRo 4 Reg.RING_STAT (fun s => s.ring.downs),
      dRo 2 Reg.RING_STAT (fun s => s.ring.epoch)] 0x27 sub
  else
    nth [dReg Reg.RING_CFG, dRoReg Reg.RING_STAT, dTk .ring Reg.RING_PLAN Reg.RING_PLAN_LIVE, dRoReg (Reg.RING_PORT 0), dRoReg (Reg.RING_PORT 1),
      dRoReg Reg.RING_LAT] 1 sub

/-! ## 0x6000 to 0x9FFF: chapters 13, 19, 23, 24, 25 -/

/-- 0x6000 to 0x61FF (R313). Blobs act in the commit check. -/
def dSec (i sub : Nat) : Option DEntry :=
  if i = 0x6000 then
    if 1 ≤ sub ∧ sub ≤ 0x20 then some (dWo (.oct 48 64) Reg.SEC_CFG (fun b => b.length == 48 || b.length == 64) (fun _ s => s))
    else if sub = 0x21 then some (dWo (.un 1) Reg.SEC_CFG (fun b => decide (leNat b < 32)) (fun b s => keyErase (leNat b) s))
    else nth [dReg Reg.SEC_EPOCH, dReg Reg.SEC_CFG, dReg Reg.SEC_LEDGER] 0x22 sub
  else if i = 0x6001 then (if 1 ≤ sub ∧ sub ≤ 0x20 then some (dRoReg (Reg.SEC_KSTAT (sub - 1))) else none)
  else if i = 0x6002 then (if 1 ≤ sub ∧ sub ≤ 0x20 then some (dRoReg (Reg.SEC_CNEXT (sub - 1))) else none)
  else if i = 0x6100 then nth [dRoReg Reg.SEC_ALMSTAT, dReg Reg.SEC_ALMCFG] 1 sub
  else none

/-- 0x7000 (R528). -/
def dUpdate (sub : Nat) : Option DEntry :=
  let ro := dRo 4 Reg.ID_UPD
  let seq (k : Bool) : DEntry := ro (fun s => if s.slotComplete k then s.slotSeq k else 0)
  let ver (k : Bool) (kind : Nat) : DEntry := ro (fun s => s.slotVersion k kind)
  nth [dRo 1 Reg.ID_UPD (fun s => b2n s.runSlot),
    dRo 1 Reg.ID_UPD (fun s => if s.on ID_BOOTSTAT.FELLBACK then 2 else if s.on ID_BOOTSTAT.TRIAL then 1 else 0),
    seq false, seq true, ver false 1, ver false 2, ver false 3, ver true 1, ver true 2, ver true 3,
    ro (fun s => s.romFloor 1 + 2 ^ 8 * s.romFloor 2 + 2 ^ 16 * s.romFloor 3), { dReg Reg.ID_UPD with keep := false }] 1 sub

/-- 0x7100 (R408). -/
def dNvm (sub : Nat) : Option DEntry :=
  let ro (n : Nat) := dRo n Reg.NVM_STAT
  nth [ro 1 (fun s => s.nvm.bank0.free.length), ro 1 (fun s => s.nvm.bank1.free.length), ro 1 (fun s => s.nvm.bank0.retired.length),
    ro 1 (fun s => s.nvm.bank1.retired.length), { ro 1 (fun s => s.get NVM_STAT.WEAR_WARN) with typ := .bool },
    ro 1 (fun s => s.get NVM_STAT.RDONLY), dRoReg Reg.NVM_WEARMAX, ro 4 (fun s => s.total NVM_ECCCNT.EW),
    ro 4 (fun s => s.total NVM_ECCCNT.UNCORR), ro 4 (fun s => s.nvm.refreshes % 65536 + s.nvm.retires % 65536 * 65536),
    ro 2 (fun s => s.get NVM_SCRUB.PASSES), ro 1 (fun s => s.nvm.pvMax), dReg Reg.NVM_CTRL, dFld 1 NVM_EW_THRESH.THRESH] 1 sub

/-- The record of the event recorder with a SEQ, whole (R515). -/
def State.evrRecord (s : State) (seq : Nat) : Option (List Byte) :=
  (s.evrRecords.find? (fun r => r.2.1 == seq)).map (fun r => s.nvmBytes (s.evrUnitAddr (r.1 / 128) (r.1 % 128)) (32 * r.2.2))

/-- 0x8000 to 0x80FF (R515). -/
def dEvr (i sub : Nat) : Option DEntry :=
  if i = 0x8000 then
    nth [dReg Reg.EVR_CFG, dReg Reg.EVR_STORE, dRoReg Reg.EVR_SEQ, dRoReg Reg.EVR_OPSEC,
      { typ := .un 2, acc := .rw, addr := Reg.EVR_CFG, rd := fun q _ => dVal 2 q.evrCur, keep := false },
      { typ := .oct 32 256, acc := .ro, addr := Reg.EVR_CFG, rd := fun q s => s.evrRecord q.evrCur },
      dRoReg Reg.EVR_LOST, dRo 4 Reg.EVR_CFG (fun s => ((List.range 16).map (fun k => s.total ⟨Reg.EVR_DROP (k / 4), 8 * (k % 4), 8⟩)).sum),
      dWo (.un 1) Reg.EVR_CMD (fun b => leNat b == 0xC1) (fun _ s => evrClear s), dRoReg Reg.EVR_PCYC] 1 sub
  else if 0x8010 ≤ i ∧ i ≤ 0x801F then
    let c := i - 0x8010
    nth (dReg (Reg.EVR_CLS c) :: (List.range 6).map (fun k => dReg (Reg.EVR_SNAP c k))) 1 sub
  else none

/-- 0x9000 (R502). -/
def dPair (sub : Nat) : Option DEntry :=
  nth [dReg Reg.TWIL_CFG, dRoReg Reg.TWIL_STAT,
    { typ := .un 8, acc := .rw, addr := Reg.TWIL_CFG
      rd := fun _ s => dVal 8 ((s.reg Reg.TWIL_PAIRADDR_LO).toNat + 2 ^ 32 * ((s.reg Reg.TWIL_PAIRADDR_HI).toNat))
      wr := fun b s => pairAddrWrite (leNat b) s },
    dWo (.un 1) Reg.TWIL_CMD (fun b => decide (1 ≤ leNat b) && decide (leNat b ≤ 3))
      (fun b s => if leNat b = 1 then twYield s else if leNat b = 2 then twForce s else twResync s),
    dRoI 4 Reg.TWIL_TOFS (fun s => s.getI TWIL_TOFS.TOFS), dRo 4 Reg.TWIL_STAT (fun s => s.twil.takeovers),
    dRo 4 Reg.TWIL_STAT (fun s => s.total TWIL_CNT1.FWD), dRo 4 Reg.TWIL_STAT (fun s => s.total TWIL_CNT1.POSSDUP),
    dRo 8 Reg.TWIL_STAT (fun s => s.twil.partnerAddr)] 1 sub

/-! ## Application entries (R472) -/

/-- The descriptor of an entry. -/
def State.appFind (s : State) (i sub : Nat) : Option Nat :=
  if !(s.on DICT_APPBASE.EN) || s.on DICT_STAT.APPBAD then none
  else (List.range (s.get DICT_APPN.N)).find? (fun k => s.appKey k == i * 256 + sub)

/-- A field of a descriptor. -/
def State.appF (s : State) (k o n : Nat) : Nat := s.rn (s.appAddr k + o) n

/-- Its type; none for a TYPE that R472 does not list. -/
def State.appTyp (s : State) (k : Nat) : Option DTyp :=
  let m := s.appF k 6 2
  match s.appF k 3 1 with
  | 1 => some .bool | 2 => some (.un 1) | 3 => some (.un 2) | 4 => some (.un 4) | 5 => some (.un 8) | 6 => some (.sn 2)
  | 7 => some (.sn 4) | 8 => some (.sn 8) | 9 => some (.un 8) | 10 => some (.str m) | 11 => some (.oct 0 m)
  | _ => none

/-- The size of the value in memory: a STRING stands behind its U16 length. -/
def DTyp.size : DTyp → Nat
  | .bool => 1
  | .un n | .sn n => n
  | .str m => m + 2
  | .oct _ m => m

/-- A value in memory at an address. -/
def State.appVal (s : State) (t : DTyp) (a : Nat) : List Byte :=
  match t with
  | .str m => s.dataBytes (a + 2) (min m (leNat (s.dataBytes a 2)))
  | t => s.dataBytes a t.size

/-- A value stored at an address; one outside control SRAM is refused by the bus (R54). -/
def appStore (t : DTyp) (a : Nat) (b : List Byte) (s : State) : State :=
  if !(inSram a t.size) then (engineAccess .dict a t.size .b8 true s).1
  else match t with
    | .str _ => (s.wn a 2 b.length).wbytes (a + 2) b
    | _ => s.wbytes a b

/-- The access class of a code. -/
def accOf : Nat → DAcc
  | 0 => .const | 1 => .ro | 2 => .rw | 3 => .wo | _ => .rwt

/-- The entry of a descriptor. -/
def appEntry (s : State) (k : Nat) : Option DEntry :=
  (s.appTyp k).map (fun t =>
    { typ := t, acc := accOf (s.appF k 4 1), rd := fun _ s => some (s.appVal t (s.appF k 8 4))
      wr := fun b s => appStore t (s.appF k 8 4) b s, keep := bitOf (s.appF k 5 1) 0, mem := some (s.appF k 8 4, t.size) })

/-! ## The whole dictionary -/

/-- Indexes fixed by R477, subindex as given. -/
def dFixed (s : State) (i sub : Nat) : Option DEntry :=
  if i = 0x1F20 then dSerial sub
  else if i < 0x2000 then dComm i sub
  else if i < 0x2200 then dLoom i sub
  else if i < 0x3000 then dFront i sub
  else if i = 0x3300 ∨ i = 0x3400 then dTable i sub
  else if i < 0x4000 then dMac i sub
  else if i = 0x4100 then dRtc sub
  else if i < 0x5000 then dTime i sub
  else if i = 0x5000 then dAsset s.dict.locked.isSome sub
  else if i = 0x5100 then dMains sub
  else if i = 0x5200 then dRing sub
  else if i < 0x6000 then none
  else if i < 0x7000 then dSec i sub
  else if i = 0x7000 then dUpdate sub
  else if i = 0x7100 then dNvm sub
  else if i < 0x8000 then none
  else if i < 0x9000 then dEvr i sub
  else if i = 0x9000 then dPair sub
  else none

/-- The highest subindex of a fixed index, 0 for an index without. -/
def dHighest (s : State) (i : Nat) : Nat := (List.range 0x61).foldl (fun m k => if (dFixed s i k).isSome then k else m) 0

/-- The entry of an index and subindex; subindex 0 of an index with subindices is U8 CONST, its highest one (R453). -/
def State.dEntry (s : State) (i sub : Nat) : Option DEntry :=
  if 0xA000 ≤ i then (s.appFind i sub).bind (appEntry s)
  else match dFixed s i sub with
    | some e => some e
    | none => if sub = 0 ∧ dHighest s i ≠ 0 then some (dConst 1 (fun s => dHighest s i)) else none

end Sys2Proof.Machine
end

