-- ==== Sys2Proof/Machine/DictMsg.lean ====
section
/-! DEFINITION. Machine/DictMsg.lean: messages of the object dictionary: their forms, their limits, and how a response
reaches its requester (R457 to R459, R469 to R471). -/
namespace Sys2Proof.Machine

/-! ## Status codes (R459) -/

def dsOk : Nat := 0x00
def dsNoentry : Nat := 0x01
def dsAccess : Nat := 0x02
def dsType : Nat := 0x03
def dsRange : Nat := 0x04
def dsUnavailable : Nat := 0x05
def dsNotrans : Nat := 0x06
def dsTransopen : Nat := 0x07
def dsLimit : Nat := 0x08
def dsBusy : Nat := 0x09
def dsCommitrej : Nat := 0x0A
def dsToobig : Nat := 0x0C
def dsBadmsg : Nat := 0x0D
def dsStandby : Nat := 0x0E
def dsExpired : Nat := 0x0F
def dsBlock : Nat := 0x10
def dsAppref : Nat := 0x11
def dsStorefull : Nat := 0x12

/-! ## Requests (R457) -/

/-- A request that is formed well. -/
inductive DMsg where
  | read (items : List (Nat × Nat))
  | snapshot (items : List (Nat × Nat))
  | write (items : List DItem)
  | fetch (offset maxlen : Nat)
  | begin
  | commit
  | abort
  deriving DecidableEq, Repr

/-- `n` items of READ or SNAPSHOT, and nothing after them. -/
def parseKeys : Nat → List Byte → Option (List (Nat × Nat))
  | 0, b => if b = [] then some [] else none
  | n + 1, b =>
    if b.length < 4 ∨ oct b 3 ≠ 0 then none
    else (parseKeys n (b.drop 4)).map (fun l => (leNat (b.take 2), (oct b 2).toNat) :: l)

/-- `n` items of WRITE, and nothing after them. -/
def parseVals : Nat → List Byte → Option (List DItem)
  | 0, b => if b = [] then some [] else none
  | n + 1, b =>
    let v := leNat ((b.drop 4).take 2)
    if b.length < 6 + v ∨ oct b 3 ≠ 0 then none
    else (parseVals n (b.drop (6 + v))).map (fun l => ⟨leNat (b.take 2), (oct b 2).toNat, (b.drop 6).take v⟩ :: l)

/-- The request that bytes spell; none: BADMSG. -/
def parseMsg (b : List Byte) : Option DMsg :=
  let n := (oct b 3).toNat
  let r := b.drop 4
  if b.length < 4 ∨ 2048 < b.length ∨ oct b 2 ≠ 0 ∨ 64 < n then none
  else match (oct b 0).toNat with
    | 0x01 => (parseKeys n r).map .read
    | 0x02 => (parseVals n r).map .write
    | 0x03 => if n = 0 ∧ r = [] then some .begin else none
    | 0x04 => if n = 0 ∧ r = [] then some .commit else none
    | 0x05 => if n = 0 ∧ r = [] then some .abort else none
    | 0x06 => (parseKeys n r).map .snapshot
    | 0x07 => if n = 0 ∧ r.length = 4 then some (.fetch (leNat (r.take 2)) (leNat (r.drop 2))) else none
    | _ => none

/-- The bytes of a request with items of READ or SNAPSHOT. -/
def keysMsg (svc rid : Nat) (items : List (Nat × Nat)) : List Byte :=
  leBytes 1 svc ++ leBytes 1 rid ++ [0] ++ leBytes 1 (min 255 items.length)
    ++ items.flatMap (fun e => leBytes 2 e.1 ++ leBytes 1 e.2 ++ [0])

/-- An item in the WRITE item format. -/
def itemBytes (i : DItem) : List Byte := leBytes 2 i.idx ++ leBytes 1 i.sub ++ [0] ++ leBytes 2 i.val.length ++ i.val

/-- The bytes of a WRITE. -/
def writeMsg (rid : Nat) (items : List DItem) : List Byte :=
  [2] ++ leBytes 1 rid ++ [0] ++ leBytes 1 (min 255 items.length) ++ items.flatMap itemBytes

/-! ## Responses (R458) -/

/-- A response beside SVC, RID and GEN. -/
structure DResp where
  st : Nat := 0
  count : Nat := 0
  fidx : Nat := 0
  fsub : Nat := 0
  detail : Nat := 0
  body : List Byte := []
  deriving DecidableEq, Repr

/-- Its bytes. -/
def respBytes (q : DReq) (r : DResp) (s : State) : List Byte :=
  leBytes 1 (q.svc + 0x80) ++ leBytes 1 q.rid ++ leBytes 1 r.st ++ leBytes 1 r.count ++ leBytes 4 s.tick.snapGen
    ++ leBytes 2 r.fidx ++ leBytes 1 r.fsub ++ leBytes 1 r.detail ++ r.body

/-! ## The mesh queue (R471) -/

/-- The address of a descriptor. -/
def State.mqDesc (s : State) (n : Nat) : Nat := s.get DICT_MQBASE.ADDR * 128 + 16 * (n % 8)

/-- Results. -/
def mqAnswered : Nat := 1
def mqDropped : Nat := 2
def mqBaddesc : Nat := 3
def mqNoroom : Nat := 4

/-- A field of a descriptor. -/
def State.mqF (s : State) (n o k : Nat) : Nat := s.rn (s.mqDesc n + o) k

/-- A descriptor ends: output, OUTLEN, RESULT, STATE, TAIL, interrupt. -/
def mqEnd (n result : Nat) (out : List Byte) (s : State) : State :=
  let d := s.mqDesc n
  let s := s.wbytes (s.mqF n 0x0C 4) out
  let s := ((s.wn (d + 6) 2 out.length).wn (d + 2) 1 result).wn d 1 2
  ((s.put DICT_MQPTR.TAIL (s.get DICT_MQPTR.TAIL + 1)).put DICT_IRQ.MQ 1).modDict (fun x => { x with serving := none })

/-- R470: an envelope is dropped. -/
def mqDrop (n : Nat) (s : State) : State := mqEnd n mqDropped [] ((s.sat DICT_CNT.DROPPED).put DICT_IRQ.REPLAY 1)

/-- R470: a response goes into its envelope under a counter of the slot's; while there is none to be had it waits. A slot
that will give none has lost its key or its counters: the descriptor ends DROPPED. -/
def meshReply (q : DReq) (n slot level : Nat) (b : List Byte) (s : State) : State :=
  let c := s.counter slot
  if !(s.counts slot) || c.exhausted then mqEnd n mqDropped [] s
  else match takeCounter slot s with
    | (none, s) => s.modDict (fun d => { d with respWait := some (q, b) })
    | (some ctr, s) =>
      let k := s.slot slot
      let ext := s.ownExt
      let nonce := macNonce ext ctr level
      let aad := [0x4C, 1] ++ leBytes 1 k.keyId ++ leBytes 1 level ++ leBytes 8 ext ++ leBytes 4 ctr
      let env := aad ++ ccmCrypt k.key nonce b ++ ccmMic k.key nonce aad b (micOctets level)
      mqEnd n mqAnswered env (modSess q.sess (fun x => { x with keptEnv := env }) s)

/-! ## Delivery -/

/-- The longest response that a requester can take (R457). -/
def State.replyRoom (s : State) (q : DReq) : Nat :=
  match q.replyTo with
  | .ring _ _ => min 2048 s.ringLimit
  | .desc n => min 2048 (s.mqF n 6 2)
  | .mesh n _ level => min 2048 (s.mqF n 6 2 - 16 - micOctets level)
  | .host | .relay | .nobody => 2048

/-- A response reaches its requester. -/
def dictDeliver (q : DReq) (b : List Byte) (s : State) : State :=
  match q.replyTo with
  | .host => if s.spis.pend then hostReply hsOk b s else s
  | .ring dst seq => s.modRing (fun r => { r with svcOut := r.svcOut ++ [{ dst := dst, seq := seq, payload := b }] })
  | .desc n => if s.replyRoom q < 12 then mqEnd n mqNoroom [] s else mqEnd n mqAnswered b s
  | .mesh n slot level => if s.replyRoom q < 12 then mqEnd n mqNoroom [] s else meshReply q n slot level b s
  | .relay => if s.on TWIL_STAT.LINK then twSend 0x17 b s else s
  | .nobody => s

/-- A session keeps the response to an executed request (R469); a relay session keeps none, since the standby's own session
does (log entry 34). -/
def keepResp (q : DReq) (b : List Byte) (s : State) : State :=
  if q.replyTo = .nobody ∨ q.sess = .relay then s else modSess q.sess (fun x => { x with kept := some (q.svc, q.rid, b) }) s

/-- Bytes of a response, cut to its header with TOOBIG where they exceed the limit. -/
def fitResp (q : DReq) (b : List Byte) (s : State) : List Byte :=
  if s.replyRoom q < b.length then respBytes q { st := dsToobig } s else b

/-- An executed request is answered, and its response kept. -/
def dictFinish (q : DReq) (r : DResp) (s : State) : State :=
  let b := fitResp q (respBytes q r s) s
  dictDeliver q b (keepResp q b s)

/-- A request that is not executed is answered. -/
def dictTurnAway (q : DReq) (st : Nat) (s : State) : State := dictDeliver q (respBytes q { st := st } s) s

/-- A request answered with a status alone. -/
def dictStatus (q : DReq) (st : Nat) (s : State) : State := dictFinish q { st := st } s

end Sys2Proof.Machine
end

