-- ==== Sys2Proof/Machine/DictStore.lean ====
section
/-! DEFINITION. Machine/DictStore.lean: the persistent store: records appended, blocks reclaimed, work for the NVM, what a
restore finds (R475, R476). -/
namespace Sys2Proof.Machine

/-- The store changed. -/
def State.modStore (s : State) (f : StoreSt → StoreSt) : State := s.modDict (fun d => { d with store := f d.store })

/-- Parts of a value: 112 bytes each but the last. -/
def valueParts : Nat → List Byte → List (List Byte)
  | 0, v => [v]
  | n + 1, v => if v.length ≤ 112 then [v] else v.take 112 :: valueParts n (v.drop 112)

/-- One record of the store at its next place in the block being filled, which has room for it. -/
def storePlace (idx sub part : Nat) (last note : Bool) (v : List Byte) (s : State) : State :=
  let st := s.dict.store
  let b := storeBytes idx sub part last st.seq v
  s.modStore (fun x => { x with
    recs := x.recs ++ [⟨x.cur, x.seq, idx, sub, part, b⟩], used := x.used + b.length / 32, seq := (x.seq + 1) % 2 ^ 32
    ops := x.ops ++ [.prog (s.storeAddr x.cur x.used) b note] })

/-- Units of a record with a value. -/
def storeUnits (v : List Byte) : Nat := (16 + v.length + 31) / 32

/-- Copies forward in the block being filled, none without room. -/
def storeCopy (s : State) (r : StoreRec) : Option State :=
  if 128 < s.dict.store.used + r.bytes.length / 32 then none else some (storePlace r.idx r.sub r.part r.last false r.val s)

/-- Of a list of records, oldest first, those of the newest complete chain of an entry, and what is gathered of a later
one. -/
def chainStep (c : List StoreRec × List StoreRec) (r : StoreRec) : List StoreRec × List StoreRec :=
  let part :=
    if r.part = 0 then [r]
    else match c.2.getLast? with
      | some p => if p.part + 1 = r.part ∧ (p.seq + 1) % 2 ^ 32 = r.seq ∧ !p.last then c.2 ++ [r] else []
      | none => []
  if r.last && !part.isEmpty then (part, []) else (c.1, part)

/-- R475: the records of the newest value of an entry. -/
def State.newestOf (s : State) (k : Nat × Nat × List Byte) : List StoreRec :=
  ((s.dict.store.recs.filter (fun r => r.key == k)).foldl chainStep ([], [])).1

/-- The keys of records, each once, in order of first appearance. -/
def recKeys (l : List StoreRec) : List (Nat × Nat × List Byte) := l.foldl (fun ks r => if ks.contains r.key then ks else ks ++ [r.key]) []

/-- R475: the oldest block of the ring, the next one, is copied forward and erased. -/
def storeReclaim (s : State) : Option State :=
  let old := (s.dict.store.cur + 1) % max 1 (s.get DICT_STORE.NBLK)
  let mine := s.dict.store.recs.filter (fun r => r.block == old)
  let keep := ((recKeys mine).map s.newestOf).flatMap (fun c => if c.any (fun r => r.block == old) then c else [])
  match keep.foldl (fun o r => o.bind (fun s => storeCopy s r)) (some s) with
  | none => none
  | some s =>
    some (s.modStore (fun x => { x with
      recs := x.recs.filter (fun r => r.block != old), free := x.free + 1, ops := x.ops ++ [.erase (s.storeAddr old 0)] }))

/-- One record is appended: in the block being filled, or in the next one, which must be free; the ring keeps a free block.
None: the store has no room. -/
def storeAdd (idx sub part : Nat) (last note : Bool) (v : List Byte) (s : State) : Option State :=
  let st := s.dict.store
  if st.used + storeUnits v ≤ 128 then some (storePlace idx sub part last note v s)
  else if st.free = 0 then none
  else
    let s := storePlace idx sub part last note v
      (s.modStore (fun x => { x with cur := (x.cur + 1) % max 1 (s.get DICT_STORE.NBLK), used := 0, free := x.free - 1 }))
    if s.dict.store.free = 0 then storeReclaim s else some s

/-- R475: a value is appended as a chain of records. -/
def storeValue (idx sub : Nat) (v : List Byte) (s : State) : Option State :=
  let ps := valueParts 10 v
  (ps.zipIdx).foldl (fun o e => o.bind (storeAdd idx sub e.2 (e.2 + 1 == ps.length) false e.1)) (some s)

/-- R475: the values of a transaction are appended; none: STOREFULL. -/
def storeAll (l : List (Nat × Nat × List Byte)) (s : State) : Option State :=
  l.foldl (fun o e => o.bind (storeValue e.1 e.2.1 e.2.2)) (some s)

/-- A record whose program failed is not in the store. -/
def storeForget (b : List Byte) (s : State) : State :=
  s.modStore (fun x => { x with recs := x.recs.filter (fun r => r.bytes != b) })

/-- The engine gives the NVM its next operation, one at a time. The answer lists operations refused at once. -/
def storeKick : Nat → State → State × List StoreOp
  | 0, s => (s, [])
  | n + 1, s =>
    if s.dict.store.busy then (s, [])
    else match s.dict.store.ops with
      | [] => (s, [])
      | op :: rest =>
        let r := match op with
          | .prog a b _ => nvmProgram .dict a (b.length / 32) none (units32 (b.length / 32) b) s
          | .erase a => nvmErase .dict a s
        match r.2 with
        | none => (r.1.modStore (fun x => { x with busy := true }), [])
        | some _ =>
          let t := storeKick n (r.1.modStore (fun x => { x with ops := rest }))
          (t.1, op :: t.2)

/-- R475: writing 0xD5 to 0x1F00:06: every block of the ring is erased. -/
def storeErase (s : State) : State :=
  let n := s.get DICT_STORE.NBLK
  if s.noStore then s
  else s.modStore (fun x => { x with
    recs := [], cur := 0, used := 0, free := n - 1
    ops := x.ops.take (b2n x.busy) ++ (List.range n).map (fun b => .erase (s.storeAddr b 0)) })

/-- R470: the last counter accepted under a key. -/
def State.meshLast (s : State) (kcv : List Byte) : Option Nat :=
  (s.dict.store.recs.reverse.find? (fun r => r.idx == 0 && r.val.take 8 == kcv)).map (fun r => leNat ((r.val.drop 8).take 4))

/-- R476: what the store holds: the newest value of each entry. -/
def State.storedValues (s : State) : List DItem :=
  ((recKeys (s.dict.store.recs.filter (fun r => r.idx != 0))).filterMap (fun k =>
    match s.newestOf k with
    | [] => none
    | c => some ⟨k.1, k.2.1, c.flatMap StoreRec.val⟩))

end Sys2Proof.Machine
end

