-- ==== Sys2Proof/Machine/DictRun.lean ====
section
/-! DEFINITION. Machine/DictRun.lean: transactions of the object dictionary: staging, the commit check step by step, the
commit boundary, the restore (R463 to R468, R473, R476, R479, R488). -/
namespace Sys2Proof.Machine

/-! ## Commands among the entries (R464, R465) -/

/-- The command group of an entry; 16 is the FORCE flag 0x4000:07, which joins its SET or STEP. -/
def cmdGroup (i sub : Nat) : Option Nat :=
  if i = 0x3300 ∧ 5 ≤ sub ∧ sub ≤ 7 then some (sub - 4)
  else if i = 0x3400 ∧ (sub = 3 ∨ sub = 4) then some (sub + 1)
  else if i = 0x6000 ∧ 1 ≤ sub ∧ sub ≤ 0x20 then some 6
  else if i = 0x6000 ∧ sub = 0x21 then some 7
  else if i = 0x4000 ∧ 4 ≤ sub ∧ sub ≤ 6 then some (sub + 4)
  else if i = 0x4000 ∧ sub = 7 then some 16
  else if i = 0x4100 ∧ sub = 1 then some 11
  else if i = 0x4100 ∧ (sub = 3 ∨ sub = 4) then some 12
  else if i = 0x4100 ∧ sub = 0x0E then some 13
  else if i = 0x1F10 ∧ sub = 0 then some 14
  else if i = 0x1F00 ∧ sub = 6 then some 15
  else none

/-- A transaction's command groups make at most one command. -/
def oneCommand (g : List Nat) : Bool :=
  g.all (fun a => g.all (fun b => a == b || (min a b, max a b) == (8, 16) || (min a b, max a b) == (9, 16)))

/-- The entry of an item is RWT. -/
def DItem.rwt (s : State) (i : DItem) : Bool := ((s.dEntry i.idx i.sub).map (fun e => e.acc == .rwt)).getD false

/-- The item is a command. -/
def DItem.cmd (i : DItem) : Bool := (cmdGroup i.idx i.sub).isSome

/-- The item lies in the pair range. -/
def DItem.pair (i : DItem) : Bool := decide (0x9000 ≤ i.idx) && decide (i.idx ≤ 0x9FFF)

/-! ## Staging (R463) -/

/-- The lengths that a type takes. -/
def DTyp.takes (t : DTyp) (n : Nat) : Bool :=
  match t with
  | .bool => n == 1
  | .un k | .sn k => n == k
  | .str m => decide (n ≤ m)
  | .oct lo hi => decide (lo ≤ n) && decide (n ≤ hi)

/-- NOENTRY, ACCESS, TYPE, RANGE of an item. -/
def stageTest (i : DItem) (s : State) : Nat :=
  match s.dEntry i.idx i.sub with
  | none => dsNoentry
  | some e =>
    if e.acc = .const ∨ e.acc = .ro then dsAccess
    else if !(e.typ.takes i.val.length) then dsType
    else if (e.typ = .bool ∧ 1 < leNat i.val) ∨ !(e.test i.val s) then dsRange
    else dsOk

/-- The items with one more staged: it replaces an earlier value of its entry. -/
def stageIn (i : DItem) (l : List DItem) : List DItem := l.filter (fun x => !(x.idx == i.idx && x.sub == i.sub)) ++ [i]

/-- LIMIT: 64 items, 4 KiB of values, one command, no command beside RWT entries. -/
def stageLimit (l : List DItem) (s : State) : Bool :=
  decide (64 < l.length) || decide (4096 < (l.map (fun i => i.val.length)).sum)
    || !(oneCommand (l.filterMap (fun i => cmdGroup i.idx i.sub)))
    || (l.any DItem.cmd && l.any (DItem.rwt s))

/-- Items are staged one after another; the first failure ends that, with its item and status. -/
def stageItems : List DItem → List DItem → State → List DItem × Option (DItem × Nat)
  | [], l, _ => (l, none)
  | i :: rest, l, s =>
    match stageTest i s with
    | 0 =>
      if s.standby && !i.pair then (l, some (i, dsStandby))
      else
        let l' := stageIn i l
        if stageLimit l' s then (l, some (i, dsLimit)) else stageItems rest l' s
    | st => (l, some (i, st))

/-! ## How a COMMIT ends -/

/-- A refusal: status, FIDX, FSUB, DETAIL. -/
structure DFail where
  st : Nat
  fidx : Nat := 0
  fsub : Nat := 0
  detail : Nat := 0
  deriving DecidableEq, Repr

/-- The failure of an item. -/
def failAt (i : DItem) (st detail : Nat) : DFail := ⟨st, i.idx, i.sub, detail⟩

/-- The restore has ended (R476). -/
def restoreEnd (s : State) : State := (s.put DICT_STAT.READY 1).put DICT_IRQ.RESTORE 1

/-- The COMMIT that ran is over. -/
def runOver (s : State) : State :=
  ((s.put DICT_TKHOLD.WAIT 0).put DICT_CB.VALID 0).modDict (fun d => { d with run := none, verdict := none })

/-- A transaction is refused: no value of it becomes live. -/
def runRefuse (r : DRun) (f : DFail) (s : State) : State :=
  let s := ((runOver s).sat DICT_CNT.REFUSED).put DICT_IRQ.REFUSE 1
  match r.kind with
  | .user => dictFinish r.req { st := f.st, fidx := f.fidx, fsub := f.fsub, detail := f.detail } s
  | .restore =>
    let w := 2 ^ 16 * f.fidx + 2 ^ 8 * f.fsub + f.detail
    hwReport 0x06 5 [w] (restoreEnd ((s.put DICT_STAT.RESTFAIL 1).setReg Reg.DICT_RESTERR (BitVec.ofNat 32 w)))
  | .mirror => setInsync false (s.put TWIL_IRQ.MIRREJ 1)

/-! ## The commit check (R467) -/

/-- The entry lies in an off domain (R50) or in memory that the engine does not write (R54), or holds receive parameters of a
set in use (R232). -/
def lateItem (s : State) (i : DItem) : Option DFail :=
  match s.dEntry i.idx i.sub with
  | none => some (failAt i dsNoentry 0)
  | some e =>
    if s.isOff e.addr || (e.mem.map (fun x => !(inSram x.1 x.2))).getD false then some (failAt i dsUnavailable 0)
    else if s.rxParamHeld i.idx then some (failAt i dsRange 0)
    else none

/-- Step 1, with the entry still there: UNAVAILABLE and STANDBY. -/
def checkItem (r : DRun) (s : State) (i : DItem) : Option DFail :=
  match lateItem s i with
  | some f => some f
  | none => if r.kind != .mirror && s.standby && !i.pair then some (failAt i dsStandby 0) else none

/-- The items of a transaction that the store keeps (R474). -/
def keptItems (l : List DItem) (s : State) : List (Nat × Nat × List Byte) :=
  l.filterMap (fun i => match s.dEntry i.idx i.sub with
    | some e => if e.keep && (decide (0xA000 ≤ i.idx) || e.acc == .rw || e.acc == .rwt) then some (i.idx, i.sub, i.val) else none
    | none => none)

/-- Blocks named by staged RWT entries, lowest mask bit first. -/
def runBlocks (l : List DItem) (s : State) : List Blk :=
  blks.filter (fun b => l.any (fun i => ((s.dEntry i.idx i.sub).bind (·.blk)) == some b))

/-- The first item of a block. -/
def firstOf (b : Blk) (l : List DItem) (s : State) : DItem :=
  (l.find? (fun i => ((s.dEntry i.idx i.sub).bind (·.blk)) == some b)).getD ⟨0, 0, []⟩

/-- Step 2: the descriptors of staged application entries with CHK. -/
def chkList (l : List DItem) (s : State) : List Nat :=
  l.filterMap (fun i => if 0xA000 ≤ i.idx then (s.appFind i.idx i.sub).filter (fun k => bitOf (s.appF k 5 1) 1) else none)

/-- R473: an entry is offered to firmware: its staged value in the scratch area behind the value. -/
def offer (k : Nat) (l : List DItem) (s : State) : State :=
  let v := ((l.find? (fun i => i.idx * 256 + i.sub == s.appKey k)).map (·.val)).getD []
  let s := match s.appTyp k with
    | some t => appStore t (s.appF k 8 4 + t.size) v s
    | none => s
  ((s.put DICT_CB.DESC k).put DICT_CB.VALID 1).put DICT_IRQ.APPCHK 1

/-- The stage of the COMMIT that runs. -/
def setStage (st : RunStage) (s : State) : State := s.modDict (fun d => { d with run := d.run.map (fun r => { r with stage := st }) })

/-- Step 2 goes on: the next descriptor, or step 3. -/
def chkNext (left : List Nat) (l : List DItem) (s : State) : State :=
  match left with
  | k :: _ => setStage (.check left) (offer k l s)
  | [] => setStage .hold s

/-- Step 3: the live sets into the shadows, the staged values into the shadows, SYSC_GCOMMIT; the verdict when there is one
at once. -/
def groupCommit (r : DRun) (bs : List Blk) (s : State) : State :=
  let s := bs.foldl (fun s b => (shadowPairs b).foldl (fun s p => s.setReg p.1 (s.reg p.2)) s) s
  let s := r.items.foldl (fun s i => match s.dEntry i.idx i.sub with
    | some e => if e.blk.isSome then e.wr i.val s else s
    | none => s) s
  let mask : BitVec 5 := BitVec.ofNat 5 ((bs.map (fun b => 2 ^ blkBit b)).sum)
  let busy (b : Blk) (s : State) : State := runRefuse r (failAt (firstOf b r.items s) dsBusy 0) s
  let had := s.tick.group.isSome
  let own := bs.find? (fun b => (s.pend b).isSome)
  let s := groupGo mask s
  if had then busy (bs.headD .loom) s
  else match own with
    | some b => busy b s
    | none =>
      if s.tick.group.isNone then runRefuse r ⟨dsCommitrej, 0xFFFF, s.get SYSC_GCOMMIT.FAILBLK, 0⟩ s
      else setStage .group s

/-- The DETAIL of a rejected group: the failing member's COMMIT_ERR. -/
def State.failDetail (s : State) : Nat :=
  match blks.find? (fun b => blkBit b == s.get SYSC_GCOMMIT.FAILBLK) with
  | some b => s.get (cf b LOOM_COMMIT.COMMIT_ERR)
  | none => 0

/-- Step 4: a table command; the answer is its status. -/
def tableCommand (q : Sess) (i : DItem) (s : State) : State × Nat :=
  let v := leNat i.val
  let cur := (s.sess q).tblCur
  let hit (r : Nat × Nat) : State × Nat := if r.1 = tbOk then (modSess q (fun x => { x with tblCur := r.2 }) s, tbOk) else (s, r.1)
  let done (r : State × Nat × Nat) : State × Nat := (r.1, r.2.1)
  if i.idx = 0x3300 ∧ i.sub = 5 then
    done (if s.eKind cur == kFree then tblAdd false false cur i.val s else tblWrite cur i.val s)
  else if i.idx = 0x3300 ∧ i.sub = 6 then hit (tblLookup false kPeer (v / 2 ^ 32) (v % 2 ^ 32) s)
  else if i.idx = 0x3300 ∧ i.sub = 7 then done (tblDelete v s)
  else if i.idx = 0x3400 ∧ i.sub = 3 then hit (tblLookup false kRoute (v / 2 ^ 32) (v % 2 ^ 32) s)
  else if i.idx = 0x3400 ∧ i.sub = 4 then hit (tblLookup true kRoute 0 v s)
  else (s, tbOk)

/-- Step 4: table commands, then the key loads, all or none (R313). -/
def stepCommands (r : DRun) (s : State) : State × Option DFail :=
  let tab := r.items.find? (fun i => i.idx == 0x3300 && decide (5 ≤ i.sub) || i.idx == 0x3400)
  let t : State × Option DFail := match tab with
    | some i =>
      let c := tableCommand r.req.sess i s
      (c.1, if c.2 = tbOk then none else some (failAt i dsBlock c.2))
    | none => (s, none)
  if t.2.isSome then t
  else
    let s := t.1
    let blobs := r.items.filter (fun i => cmdGroup i.idx i.sub == some 6)
    match blobs.find? (fun i => loadTests (i.sub - 1) i.val s != secOk) with
    | some i => (s, some (failAt i dsBlock (loadTests (i.sub - 1) i.val s)))
    | none => (blobs.foldl (fun s i => loadKey (i.sub - 1) i.val s) s, none)

/-- The word of a staged entry. -/
def stagedWord (l : List DItem) (i sub : Nat) : Option Word :=
  (l.find? (fun x => x.idx == i && x.sub == sub)).map (fun x => BitVec.ofNat 32 (leNat x.val))

/-- Step 5: a calendar write is tested under R357. -/
def calendarBad (l : List DItem) (s : State) : Bool :=
  match stagedWord l 0x4100 4 with
  | none => false
  | some t =>
    let d := match stagedWord l 0x4100 3 with
      | some d => d
      | none => (s.rtc.held).getD s.cald
    match calValue d t with
    | none => true
    | some v =>
      let x : Int := (v : Int) + s.getI RTC_CALOFS.OFS
      decide (x < 0) || decide (2 ^ 32 - 1 < x)

/-- Steps 4 and 5 of a transaction without TK blocks. -/
def stepBlocks (r : DRun) (s : State) : State :=
  let t := stepCommands r s
  match t.2 with
  | some f => runRefuse r f t.1
  | none =>
    if calendarBad r.items t.1 then runRefuse r ⟨dsBlock, 0x4100, 4, 1⟩ t.1
    else setStage (.ready (if r.kind = .mirror then 0 else t.1.now)) t.1

/-- One step of the COMMIT that runs; none while it waits for something else. -/
def runStep (r : DRun) (s : State) : Option State :=
  match r.stage with
  | .waiting =>
    some (match r.items.findSome? (checkItem r s) with
      | some f => runRefuse r f s
      | none =>
        let kept := keptItems r.items s
        if r.kind != .restore && !s.noStore && (storeAll kept s).isNone then
          runRefuse r ((r.items.head?.map (fun i => failAt i dsStorefull 0)).getD ⟨dsStorefull, 0, 0, 0⟩) s
        else chkNext (chkList r.items s) r.items s)
  | .check left =>
    match s.dict.verdict with
    | none => none
    | some d =>
      let s := s.modDict (fun x => { x with verdict := none })
      let i : DItem := (r.items.find? (fun i => i.idx * 256 + i.sub == s.appKey (left.headD 0))).getD ⟨0, 0, []⟩
      some (if d.getLsbD 8 then runRefuse r (failAt i dsAppref (d.toNat % 256)) s else chkNext left.tail r.items s)
  | .hold =>
    let bs := runBlocks r.items s
    let w := ((bs.map (fun b => 2 ^ blkBit b)).sum) &&& s.get DICT_TKHOLD.HOLD
    if w ≠ 0 then (if s.get DICT_TKHOLD.WAIT = w then none else some (s.put DICT_TKHOLD.WAIT w))
    else
      let s := s.put DICT_TKHOLD.WAIT 0
      some (if bs.isEmpty then stepBlocks r s else groupCommit r bs s)
  | .group =>
    match s.tick.group with
    | some (_, _, true) => some (setStage .armed s)
    | some (_, _, false) => none
    | none => some (runRefuse r ⟨dsCommitrej, 0xFFFF, s.get SYSC_GCOMMIT.FAILBLK, s.failDetail⟩ s)
  | .armed => if s.tick.group.isNone then some (runRefuse r ⟨dsCommitrej, 0xFFFF, s.get SYSC_GCOMMIT.FAILBLK, s.failDetail⟩ s) else none
  | .ready _ => none

/-! ## The restore (R476) -/

/-- The values found are staged; one that fails is skipped and counted. -/
def restoreItems (s : State) : List DItem × State :=
  s.storedValues.foldl (fun (a : List DItem × State) i =>
    if stageTest i a.2 = dsOk then (a.1 ++ [i], a.2) else (a.1, a.2.sat DICT_CNT.SKIPPED)) ([], s)

/-- The restore begins: its transaction runs before any session's. A bank that has become read-only is still read. -/
def restoreBegin (s : State) : State :=
  let s := s.modDict (fun d => { d with restoreDue := false })
  if !(s.on DICT_STORE.EN) then restoreEnd s
  else
    let r := restoreItems (storeScan s)
    r.2.modDict (fun d => { d with run := some ⟨⟨.nobody, .relay, 4, 0⟩, .restore, r.1, .waiting⟩ })

/-! ## The commit boundary (R468) -/

/-- A time correction of the transaction: result and state (R332, R333). -/
def timeItem (l : List DItem) (s : State) : State × Option DFail :=
  let force := (stagedWord l 0x4000 7).isSome && stagedWord l 0x4000 7 == some 1
  match l.find? (fun i => i.idx == 0x4000 && decide (4 ≤ i.sub) && decide (i.sub ≤ 6)) with
  | none => (s, none)
  | some i =>
    let c := timeCommand (i.sub - 3) force (leNat i.val) s
    (c.1, if c.2 = tmOk then none else some (failAt i dsBlock c.2))

/-- A value comes into force through its entry; the two cursors are the session's. -/
def applyItem (q : Sess) (s : State) (i : DItem) : State :=
  if i.idx = 0x3300 ∧ i.sub = 4 then modSess q (fun x => { x with tblCur := leNat i.val }) s
  else if i.idx = 0x8000 ∧ i.sub = 5 then modSess q (fun x => { x with evrCur := leNat i.val }) s
  else match s.dEntry i.idx i.sub with
    | some e => if e.blk.isSome then s else e.wr i.val s
    | none => s

/-- R488: what a DICT frame carries of a transaction. -/
def mirrorItems (l : List DItem) : List DItem :=
  l.filter (fun i => !(i.pair || match cmdGroup i.idx i.sub with
    | some g => g != 6 && g != 7
    | none => false))

/-- The group of the COMMIT that runs is given up, as when a member's domain is off (R30). -/
def groupGiveUp (s : State) : State :=
  match s.tick.group with
  | some (m, _, _) =>
    rejectGroup 0xF ((members m).map (fun b => (b, errGroup))) ((members m).foldl (fun s b => s.setPend b none) s)
  | none => s

/-- R50, R232: ahead of its boundary a transaction that waits for it is tested once more: an entry whose domain is off by now,
or whose set has come into use, refuses it as a whole. -/
def runRetest (s : State) : State :=
  match s.dict.run with
  | none => s
  | some r =>
    let waits := match r.stage with
      | .armed | .ready _ => true
      | _ => false
    match (if waits then r.items.findSome? (lateItem s) else none) with
    | some f => runRefuse r f (if r.stage == .armed then groupGiveUp s else s)
    | none => s

/-- R468, R479: the transaction comes into force at this boundary. -/
def runApply (r : DRun) (s : State) : State :=
  let t := timeItem r.items s
  match t.2 with
  | some f => runRefuse r f t.1
  | none =>
    let s := t.1
    let q := r.req.sess
    let isCmd (i : DItem) : Bool := i.cmd
    let late (i : DItem) : Bool := i.idx == 0x4100 && i.sub == 4
    let s := (r.items.filter (fun i => isCmd i && !(late i))).foldl (applyItem q) s
    let s := (r.items.filter late).foldl (applyItem q) s
    let s := (r.items.filter (fun i => !(isCmd i))).foldl (applyItem q) s
    let s := if r.items.any (fun i => decide (0xA000 ≤ i.idx)) then s.put DICT_IRQ.APPWR 1 else s
    let s := if s.dict.locked.isNone && r.items.any (fun i => i.idx == 0x5000 && i.sub == 5 && leNat i.val == 1) then
        s.modDict (fun d => { d with locked := some ((List.range 5).map (fun k => (k + 1, s.assetVal (k + 1)))) })
      else s
    let s := if r.kind = .restore || s.noStore then s else (storeAll (keptItems r.items s) s).getD s
    let s := if r.items.any (fun i => i.idx == 0x1F00 && i.sub == 6) then storeErase s else s
    let s := (runOver s).modDict (fun d => { d with committed := (d.committed + 1) % 2 ^ 32 })
    match r.kind with
    | .restore => restoreEnd s
    | .mirror => s
    | .user =>
      let s := twMirror 0x13 (leBytes 4 s.tick.snapGen ++ (mirrorItems r.items).flatMap itemBytes) s
      dictFinish r.req {} s

end Sys2Proof.Machine
end

