-- ==== Sys2Proof/Machine/Dict.lean ====
section
/-! DEFINITION. Machine/Dict.lean: the dictionary engine at work: requests, reads and snapshots at their boundary, the mesh
queue, the COMMIT that runs, the tick boundary (R456, R460 to R471). -/
namespace Sys2Proof.Machine

/-- The engine's clock runs (R63). -/
def State.dictClocked (s : State) : Bool := s.clocked && s.on SYSC_CLKGATE.DICT

/-- The engine serves sessions (R456). -/
def State.dictReady (s : State) : Bool := s.dictClocked && s.on DICT_CTRL.EN && s.on DICT_STAT.READY

/-! ## The COMMIT that runs -/

/-- The next COMMIT is taken; first of all a restore. -/
def runTake (s : State) : Option State :=
  if s.dict.restoreDue then some (restoreBegin s)
  else match s.dict.queue with
    | r :: rest => some (s.modDict (fun d => { d with run := some r, queue := rest }))
    | [] => none

/-- What the engine can do without waiting, at most `n` steps of it. -/
def runPoll : Nat → State → State
  | 0, s => s
  | n + 1, s =>
    match (match s.dict.run with
      | some r => runStep r s
      | none => runTake s) with
    | some s => runPoll n s
    | none => s

/-- An envelope whose counter cannot be recorded is dropped (R470). -/
def meshDrop (s : State) : State :=
  match s.dict.meshWait with
  | some w => mqDrop w.desc (s.modDict (fun d => { d with meshWait := none }))
  | none => s

/-- R475: what a failed store program or erase brings: STOREERR; the record is not there, an envelope that waited for it is
dropped. -/
def storeFailed (s : State) (op : StoreOp) : State :=
  let s := s.put DICT_IRQ.STOREERR 1
  match op with
  | .prog _ b note => (fun s => if note then meshDrop s else s) (storeForget b s)
  | .erase _ => s

/-- The store's work goes on. -/
def storeWork (s : State) : State :=
  let s := if s.noStore then meshDrop s else s
  let r := storeKick 200 s
  r.2.foldl storeFailed r.1

/-- The engine goes on as far as it can: with EN = 0 nothing executes, and what has waited is answered BUSY (R456). -/
def dictPoll (s : State) : State :=
  if !s.dictClocked then s
  else if !(s.on DICT_CTRL.EN) then
    let d := s.dict
    let s := s.modDict (fun d => { d with reads := [], queue := [] })
    (d.reads.map (·.req) ++ d.queue.map (·.req)).foldl (fun s q => dictTurnAway q dsBusy s) s
  else storeWork (runPoll 64 s)

/-! ## Services -/

/-- A transaction may begin: the buffers are in use and one is free (R463). -/
def State.bufferFree (s : State) : Bool := s.on DICT_BUFBASE.EN && decide (s.dictUsed < 8)

/-- R466: a transaction of the session has expired: said once. -/
def expiredOr (q : DReq) (f : State → State) (s : State) : State :=
  if (s.sess q.sess).expired then dictStatus q dsExpired (modSess q.sess (fun x => { x with expired := false }) s) else f s

/-- A COMMIT arrives: it waits for its turn (R467). -/
def commitArrives (q : DReq) (l : List DItem) (s : State) : State :=
  dictPoll (s.modDict (fun d => { d with queue := d.queue ++ [⟨q, .user, l, .waiting⟩] }))

/-- WRITE. -/
def svcWrite (q : DReq) (items : List DItem) : State → State :=
  expiredOr q (fun s =>
    match (s.sess q.sess).trans with
    | some l =>
      let t := stageItems items l s
      let s := modSess q.sess (fun x => { x with trans := some t.1 }) s
      match t.2 with
      | some (i, st) =>
        let s := if s.rxParamHeld i.idx then modSess q.sess (fun x => { x with doomed := some (i.idx, i.sub) }) s else s
        dictFinish q { st := st, fidx := i.idx, fsub := i.sub } s
      | none => dictStatus q dsOk s
    | none =>
      if !s.bufferFree then dictStatus q dsBusy s
      else
        let t := stageItems items [] s
        match t.2 with
        | some (i, st) =>
          dictFinish q { st := st, fidx := i.idx, fsub := i.sub } ((s.sat DICT_CNT.REFUSED).put DICT_IRQ.REFUSE 1)
        | none => commitArrives q t.1 s)

/-- BEGIN. -/
def svcBegin (q : DReq) (s : State) : State :=
  if (s.sess q.sess).trans.isSome then dictStatus q dsTransopen s
  else if !s.bufferFree then dictStatus q dsBusy s
  else dictStatus q dsOk (modSess q.sess (fun x => { x with trans := some [], doomed := none }) s)

/-- COMMIT. A transaction that was given a write to a set in use is refused (R232). -/
def svcCommit (q : DReq) : State → State :=
  expiredOr q (fun s =>
    match (s.sess q.sess).trans with
    | none => dictStatus q dsNotrans s
    | some l =>
      let bad := (s.sess q.sess).doomed
      let s := modSess q.sess (fun x => { x with trans := none, doomed := none }) s
      match bad with
      | some (i, n) => dictFinish q { st := dsRange, fidx := i, fsub := n } ((s.sat DICT_CNT.REFUSED).put DICT_IRQ.REFUSE 1)
      | none => commitArrives q l s)

/-- ABORT. -/
def svcAbort (q : DReq) : State → State :=
  expiredOr q (fun s =>
    if (s.sess q.sess).trans.isNone then dictStatus q dsNotrans s
    else dictStatus q dsOk (modSess q.sess (fun x => { x with trans := none, doomed := none }) s))

/-- The address of buffer `k`. -/
def State.dictBuf (s : State) (k : Nat) : Nat := 32768 * s.get DICT_BUFBASE.ADDR + 4096 * k

/-- FETCH (R461). -/
def svcFetch (q : DReq) (offset maxlen : Nat) (s : State) : State :=
  match (s.sess q.sess).snap with
  | none => dictStatus q dsNotrans s
  | some (k, len) =>
    let b := ((s.bytes (s.dictBuf k) len).drop offset).take maxlen
    let whole := decide (0 < b.length) && decide (len ≤ offset + b.length) && decide (12 + b.length ≤ s.replyRoom q)
    let s := dictFinish q { fidx := len, body := b } s
    if whole then modSess q.sess (fun x => { x with snap := none }) s else s

/-- SNAPSHOT: the session's old buffer is freed; the new one waits for its boundary. -/
def svcSnapshot (q : DReq) (items : List (Nat × Nat)) (s : State) : State :=
  let s := modSess q.sess (fun x => { x with snap := none }) s
  if !s.bufferFree then dictStatus q dsBusy s
  else s.modDict (fun d => { d with reads := d.reads ++ [⟨q, items⟩] })

/-- A request well formed and not a repeat. -/
def dictService (q : DReq) (m : DMsg) (s : State) : State :=
  match m with
  | .read items => s.modDict (fun d => { d with reads := d.reads ++ [⟨q, items⟩] })
  | .snapshot items => svcSnapshot q items s
  | .fetch o n => svcFetch q o n s
  | .write items => svcWrite q items s
  | .begin => svcBegin q s
  | .commit => svcCommit q s
  | .abort => svcAbort q s

/-- R498: a standby whose link is up relays this request. -/
def relays (q : DReq) (m : DMsg) (s : State) : Bool :=
  s.standby && s.on TWIL_STAT.LINK && q.replyTo != .relay &&
    match m with
    | .read l | .snapshot l => l.any (fun e => decide (e.1 < 0x9000) || decide (0x9FFF < e.1))
    | .fetch _ _ => (s.sess q.sess).snap.isNone
    | _ => false

/-- The same request of this session is being served. -/
def State.serving (s : State) (q : DReq) : Bool :=
  let same (x : DReq) : Bool := x.sess == q.sess && x.svc == q.svc && x.rid == q.rid
  q.rid != 0 && (s.dict.reads.any (fun r => same r.req) || s.dict.queue.any (fun r => same r.req)
    || (s.dict.run.map (fun r => r.kind == .user && same r.req)).getD false || s.twil.relays.any same)

/-- A request arrives (R456, R457, R469, R498). -/
def dictRequest (to_ : ReplyTo) (q : Sess) (b : List Byte) (s : State) : State :=
  let r : DReq := ⟨to_, q, (oct b 0).toNat, (oct b 1).toNat⟩
  if !s.dictReady then dictTurnAway r dsBusy s
  else match parseMsg b with
    | none => dictTurnAway r dsBadmsg s
    | some m =>
      match (s.sess q).kept.filter (fun k => r.rid != 0 && k.1 == r.svc && k.2.1 == r.rid) with
      | some k => dictDeliver r k.2.2 s
      | none =>
        if s.serving r then s
        else if relays r m s then twSend 0x17 b (s.modTwil (fun t => { t with relays := t.relays ++ [r] }))
        else dictService r m s

/-- R498: the response to the oldest relayed request: it reaches its session unchanged. -/
def relayResponse (b : List Byte) (s : State) : State :=
  match s.twil.relays with
  | [] => s
  | q :: rest =>
    let s := s.modTwil (fun t => { t with relays := rest })
    let b := fitResp q b s
    let st := (oct b 2).toNat
    dictDeliver q b (if st = dsBusy ∨ st = dsBadmsg then s else keepResp q b s)

/-! ## Reads at their boundary (R460, R461) -/

/-- One item of a READ response. -/
def readItem (q : Sess) (s : State) (k : Nat × Nat) : List Byte × State :=
  let r : (Nat × List Byte) × State := match s.dEntry k.1 k.2 with
    | none => ((dsNoentry, []), s)
    | some e =>
      if e.acc = .wo then ((dsAccess, []), s)
      else if s.isOff e.addr then ((dsUnavailable, []), s)
      else match e.mem.map (fun x => engineAccess .dict x.1 x.2 .b8 false s) with
        | some (s, false) => ((dsUnavailable, []), s)
        | _ => match e.rd (s.sess q) s with
          | none => ((dsNoentry, []), s)
          | some v => ((dsOk, v), s)
  (leBytes 2 k.1 ++ leBytes 1 k.2 ++ leBytes 1 r.1.1 ++ leBytes 2 r.1.2.length ++ r.1.2, r.2)

/-- The lowest buffer that no snapshot holds. -/
def State.freeBuf (s : State) : Nat :=
  ((List.range 8).find? (fun k => !(s.dict.sessions.any (fun e => (e.2.snap.map (·.1)) == some k)))).getD 0

/-- A READ or SNAPSHOT is served. -/
def serveRead (s : State) (p : PendRead) : State :=
  let got := p.items.foldl (fun (a : List Byte × State) k => let r := readItem p.req.sess a.2 k; (a.1 ++ r.1, r.2)) ([], s)
  let l := got.1
  let s := got.2
  if p.req.svc = 6 then
    if 4096 < l.length then dictStatus p.req dsLimit s
    else
      let k := s.freeBuf
      let s := modSess p.req.sess (fun x => { x with snap := some (k, l.length) }) (s.wbytes (s.dictBuf k) l)
      dictFinish p.req { fidx := l.length } s
  else dictFinish p.req { count := p.items.length, body := l } s

/-- All that waited for this boundary. -/
def serveReads (s : State) : State :=
  let l := s.dict.reads
  l.foldl serveRead (s.modDict (fun d => { d with reads := [] }))

/-! ## The mesh queue (R470, R471) -/

/-- The descriptor at TAIL, when the engine serves the queue and has none in work. -/
def State.mqNext (s : State) : Option Nat :=
  let n := s.get DICT_MQPTR.TAIL
  if s.dictClocked && s.on DICT_CTRL.EN && s.on DICT_CTRL.MESHEN && s.on DICT_MQBASE.EN && inSram (s.mqDesc 0) 128
      && s.dict.serving.isNone && n != s.get DICT_MQPTR.HEAD && s.mqF n 0 1 == 1 then some n else none

/-- A descriptor's lengths and addresses are good. -/
def State.mqGood (s : State) (n lo hi : Nat) : Bool :=
  let len := s.mqF n 4 2
  decide (lo ≤ len) && decide (len ≤ hi) && inSram (s.mqF n 8 4) len && inSram (s.mqF n 0x0C 4) (s.mqF n 6 2)

/-- The slot of a DICT key with a KEYID. -/
def State.dictSlot (s : State) (id : Nat) : Option Nat :=
  (List.range 32).find? (fun n => (s.slot n).valid && (s.slot n).use.getLsbD 1 && (s.slot n).keyId == id)

/-- An envelope (R470): dropped, answered with the kept envelope, or its counter goes to the store and the request waits
for that record. -/
def meshEnvelope (n : Nat) (s : State) : State :=
  let b := s.bytes (s.mqF n 8 4) (s.mqF n 4 2)
  let level := (oct b 3).toNat
  let mlen := micOctets level
  match s.dictSlot (oct b 2).toNat with
  | none => mqDrop n s
  | some slot =>
    let k := s.slot slot
    let ctr := leNat ((b.drop 12).take 4)
    let nonce := macNonce (leNat ((b.drop 4).take 8)) ctr level
    let enc := (b.drop 16).take (b.length - 16 - mlen)
    let msg := ccmCrypt k.key nonce enc
    if oct b 0 ≠ 0x4C ∨ oct b 1 ≠ 0 ∨ level < 5 ∨ 7 < level ∨ b.length < 16 + mlen
        ∨ ccmMic k.key nonce (b.take 16) msg mlen ≠ b.drop (b.length - mlen) then mqDrop n s
    else match s.meshLast k.kcv with
      | some last =>
        if ctr < last then mqDrop n s
        else if ctr = last then
          let env := (s.sess (.mesh slot)).keptEnv
          if env = [] then mqDrop n s
          else if s.mqF n 6 2 < env.length then mqEnd n mqNoroom [] s
          else mqEnd n mqAnswered env s
        else meshAccept n slot level ctr msg s
      | none => meshAccept n slot level ctr msg s
where
  /-- A new counter: it is recorded before the request executes. -/
  meshAccept (n slot level ctr : Nat) (msg : List Byte) (s : State) : State :=
    if s.noStore then mqDrop n s
    else match storeAdd 0 0 0 true true ((s.slot slot).kcv ++ leBytes 4 ctr) s with
      | none => mqDrop n s
      | some s => storeWork (s.modDict (fun d => { d with meshWait := some ⟨n, slot, level, ctr, msg⟩ }))

/-- R471: the engine takes the descriptor at TAIL of this kind; one with a bad KIND ends whichever row takes it up. -/
def mqServe (kind : Nat) (s : State) : State :=
  match s.mqNext with
  | none => s
  | some n =>
    let k := s.mqF n 1 1
    let begun := s.modDict (fun d => { d with serving := some n })
    if 1 < k then mqEnd n mqBaddesc [] s
    else if k ≠ kind then s
    else if !(if k = 0 then s.mqGood n 16 2080 else s.mqGood n 1 2048) then mqEnd n mqBaddesc [] s
    else if k = 0 then meshEnvelope n begun
    else dictRequest (.desc n) .loc (s.bytes (s.mqF n 8 4) (s.mqF n 4 2)) begun

/-- R470: the counter's record verifies: the request executes. -/
def meshGo (s : State) : State :=
  match s.dict.meshWait with
  | some w =>
    dictRequest (.mesh w.desc w.slot w.level) (.mesh w.slot) w.msg (s.modDict (fun d => { d with meshWait := none }))
  | none => s

/-- An operation of the NVM for the store has ended with a status (R475). -/
def storeEnd (st : Nat) (s : State) : State :=
  match s.dict.store.ops with
  | [] => s.modStore (fun x => { x with busy := false })
  | op :: rest =>
    let s := s.modStore (fun x => { x with busy := false, ops := rest })
    let good := st == nvOk || st == nvRetired
    storeWork (match op with
      | .prog _ _ true => if good then meshGo s else storeFailed s op
      | _ => if good then s else storeFailed s op)

/-- A response that waits for a counter of its key is tried again. -/
def respRetry (s : State) : State :=
  match s.dict.respWait with
  | some (q, b) => dictDeliver q b (s.modDict (fun d => { d with respWait := none }))
  | none => s

/-! ## The tick boundary (R460, R467, R468) -/

/-- The COMMIT whose boundary this is comes into force; `had`: a group was pending before the boundary. -/
def runBoundary (had : Bool) (s : State) : State :=
  match s.dict.run with
  | none => s
  | some r =>
    match r.stage with
    | .armed =>
      if s.tick.group.isSome then s
      else if had then runApply r s
      else runRefuse r ⟨dsCommitrej, 0xFFFF, s.get SYSC_GCOMMIT.FAILBLK, s.failDetail⟩ s
    | .ready since => if since + us 50 ≤ s.now then runApply r s else s
    | _ => s

/-- What the engine does at a tick boundary. -/
def dictTick (had : Bool) (s : State) : State :=
  if !s.dictClocked then s else dictPoll (respRetry (serveReads (runBoundary had s)))

end Sys2Proof.Machine
end

