-- ==== Sys2Proof/Machine/TwilSync.lean ====
section
/-! DEFINITION. Machine/TwilSync.lean: the whole state that the active part of a pair sends, and dictionary transactions as
the standby takes them (R487, R488). -/
namespace Sys2Proof.Machine

/-- SYNC frames of a kind with items of a list, as many items a frame as stay within a payload of 2,112 bytes with `head`. -/
def syncFrames (kind : Nat) (head : List Byte) : Nat → List (List Byte) → List Byte → State → State
  | 0, _, _, s => s
  | n + 1, items, acc, s =>
    let out (s : State) : State := twSend 0x16 (leBytes 1 kind ++ [0, 0, 0] ++ head ++ acc) s
    match items with
    | [] => if acc = [] then s else out s
    | i :: rest =>
      if acc ≠ [] ∧ 2112 < 4 + head.length + acc.length + i.length then syncFrames kind head n rest i (out s)
      else syncFrames kind head n rest (acc ++ i) s

/-- The indexes with persistent entries (R474, R477). -/
def keptIndexes : List Nat :=
  let run (a n : Nat) : List Nat := (List.range n).map (fun k => a + k)
  [0x1008, 0x1F00, 0x2000] ++ run 0x2100 17 ++ run 0x2120 16 ++ [0x2131, 0x2200, 0x2300, 0x2400, 0x2500, 0x2600] ++ run 0x2610 32
    ++ [0x2700, 0x3000] ++ run 0x3100 8 ++ [0x3110] ++ run 0x3200 64 ++ [0x3300, 0x3600, 0x4000, 0x4100] ++ run 0x4200 7 ++ run 0x4210 8
    ++ [0x5000, 0x5100, 0x5200, 0x6000, 0x6100, 0x7000, 0x7100, 0x8000] ++ run 0x8010 16

/-- The entries that are persistent, with application entries that are. -/
def State.keptEntries (s : State) : List (Nat × Nat) :=
  (keptIndexes.flatMap (fun i => (List.range 0x61).map (fun k => (i, k)))) ++
    (if s.on DICT_APPBASE.EN && !(s.on DICT_STAT.APPBAD) then (List.range (s.get DICT_APPN.N)).map (fun k => (s.appKey k / 256, s.appKey k % 256))
     else [])

/-- The value of every persistent entry, as mirrored items (R487). -/
def State.keptValues (s : State) : List DItem :=
  s.keptEntries.filterMap (fun k => match s.dEntry k.1 k.2 with
    | some e =>
      if e.keep && (e.acc == .rw || e.acc == .rwt) && !(s.isOff e.addr) then (e.rd {} s).map (fun v => ⟨k.1, k.2, v⟩) else none
    | none => none)

/-- A RES item. -/
def State.resItem (s : State) (n : Nat) : Option (List Byte) :=
  if s.counts n then (s.newestStart n).map (fun st => leBytes 1 n ++ [0, 0, 0] ++ ((s.slot n).kcv ++ List.replicate 8 0).take 8 ++ leBytes 4 st) else none

/-- R487: the full synchronisation: table entries, reservations, dictionary, end record. -/
def fullSync (s : State) : State :=
  let tab := s.tblUsed.map (fun i => leBytes 2 i ++ [0, 0] ++ s.entry i)
  let res := (List.range 32).filterMap s.resItem
  let dic := (mirrorItems s.keptValues).map itemBytes
  let s := syncFrames 0x01 [] (tab.length + 1) tab [] s
  let s := syncFrames 0x02 [] (res.length + 1) res [] s
  let s := syncFrames 0x03 (leBytes 4 s.tick.snapGen) (dic.length + 1) dic [] s
  let e := s.twil.seqNext
  twSend 0x16 [0x0F, 0, 0, 0] (s.modTwil (fun t => { t with endSeq := some e }))

/-- R486, R487: a synchronisation that is due starts as soon as the part mirrors. -/
def twilWork (s : State) : State :=
  if s.twil.syncDue && s.mirrors then fullSync (s.modTwil (fun t => { t with syncDue := false })) else s

/-! ## At the standby -/

/-- Items in the WRITE format up to the end of a list. -/
def parseAll : Nat → List Byte → Option (List DItem)
  | 0, _ => none
  | n + 1, b =>
    if b = [] then some []
    else
      let v := leNat ((b.drop 4).take 2)
      if b.length < 6 + v then none
      else (parseAll n (b.drop (6 + v))).map (fun l => ⟨leNat (b.take 2), (oct b 2).toNat, (b.drop 6).take v⟩ :: l)

/-- A mirrored transaction that the engine refuses (R488). -/
def mirrorRefused (s : State) : State := setInsync false (s.put TWIL_IRQ.MIRREJ 1)

/-- R488: the items of a DICT frame, committed as one transaction at the next boundary. -/
def mirrorDict (b : List Byte) (s : State) : State :=
  match parseAll (b.length + 1) b with
  | none => mirrorRefused s
  | some l =>
    if !s.dictReady || l.any (fun i => stageTest i s != dsOk) then mirrorRefused s
    else dictPoll (s.modDict (fun d => { d with queue := d.queue ++ [⟨⟨.nobody, .relay, 4, 0⟩, .mirror, l, .waiting⟩] }))

/-- R483, R487: a SYNC frame's items. While a synchronisation runs, up to its end record, INSYNC is clear. -/
def syncArrives (kind : Nat) (b : List Byte) (s : State) : State :=
  let s := if kind = 0x0F then s else setInsync false s
  match kind with
  | 0x01 => mirrorEntries (b.length / 36) b s
  | 0x02 => mirrorRes (b.length / 16) b s
  | 0x03 => mirrorDict (b.drop 4) s
  | 0x0F => if s.on TWIL_STAT.KEYMIS then s else setInsync true s
  | _ => s

/-- R498: requests that were relayed have lost their link: their sessions are told BUSY, and ask again. -/
def relaysLost (s : State) : State :=
  s.twil.relays.foldl (fun s q => dictTurnAway q dsBusy s) (s.modTwil (fun t => { t with relays := [] }))

end Sys2Proof.Machine
end

