-- ==== Sys2Proof/Machine/AccessRows.lean ====
section
/-! DEFINITION. Machine/AccessRows.lean: the commands of chapter 02 that carry one bus access of a master. -/
namespace Sys2Proof.Machine

/-- What a register write may have set going beyond its own block: the dictionary engine and a synchronisation of a pair. -/
def afterWrite (s : State) : State := twilWork (dictPoll s)

/-- A 32-bit write of a master, while the clocks of CORE run. -/
def masterWrite (m : Master) (addr data : Word) (s : State) : State :=
  let x : Access := ⟨m, addr.toNat, .b32, true⟩
  if s.clocked then
    match busWrite m addr.toNat .b32 data.toNat s with
    | (s, .fault) => coreFaulted x s
    | (s, _) => afterWrite s
  else s

/-- A 32-bit read of a master. -/
def masterRead (m : Master) (addr : Word) (s : State) : State :=
  let x : Access := ⟨m, addr.toNat, .b32, false⟩
  if s.clocked then
    match busRead m addr.toNat .b32 s with
    | (s, .fault) => coreFaulted x s
    | (s, _) => s
  else s

/-- An access that the bus refuses for this cause. -/
def refusedAs (c : BusCause) (x : Access) (s : State) : State :=
  if s.clocked && busRefusal s x == some c then answered c x s else s

/-- REGISTER_WRITE (R7, R8). -/
def execRegisterWrite (m : Master) (addr data : Word) (s : State) : Out := .next (masterWrite m addr data s)

/-- RC_FIELD_READ (R7, R9). -/
def execRcFieldRead (m : Master) (addr : Word) (s : State) : Out := .next (masterRead m addr s)

/-- HOLD_LO_READ (R46). -/
def execHoldLoRead (m : Master) (addr : Word) (s : State) : Out := .next (masterRead m addr s)

/-- HOLD_HI_WRITE (R47). -/
def execHoldHiWrite (m : Master) (addr data : Word) (s : State) : Out := .next (masterWrite m addr data s)

/-- HOLD_LO_WRITE (R47). -/
def execHoldLoWrite (m : Master) (addr data : Word) (s : State) : Out := .next (masterWrite m addr data s)

/-- OFF_ACCESS (R48 to R50). -/
def execOffAccess (m : Master) (addr : Word) (size : Size) (write : Bool) (s : State) : Out :=
  .next (refusedAs .off ⟨m, addr.toNat, size, write⟩ s)

/-- DECODE_ERROR (R38). -/
def execDecodeError (m : Master) (addr : Word) (size : Size) (write : Bool) (s : State) : Out :=
  .next (refusedAs .decode ⟨m, addr.toNat, size, write⟩ s)

/-- SIZE_ERROR (R44). -/
def execSizeError (m : Master) (addr : Word) (size : Size) (write : Bool) (s : State) : Out :=
  .next (refusedAs .size ⟨m, addr.toNat, size, write⟩ s)

end Sys2Proof.Machine
end

