-- ==== Sys2Proof/Machine/Ewedo.lean ====
section
/-! DEFINITION. Machine/Ewedo.lean: the Ewedo instruction set (chapter 06) as both of its machines share it: bundles and
their legality (R111 to R115, R126, R139), what each syllable computes (R120, R121, R140). -/
namespace Sys2Proof.Machine

/-! ## Formats and units (R112, R113) -/

/-- Formats of R112. -/
inductive Fmt where
  | r | i | b | j | k | p
  deriving DecidableEq, Repr

/-- The format of an opcode (R120). -/
def Op.fmt : Op → Fmt
  | .add | .sub | .and | .or | .xor | .shl | .shr | .sar | .min | .max | .minu | .maxu
  | .cmpeq | .cmpne | .cmplt | .cmpltu | .cmple | .cmpleu | .sel | .clz | .sextb | .sexth | .zexth
  | .eret | .mul | .mulh | .mulhu | .mac | .mac16 | .div | .divu | .rem | .remu
  | .cmul | .cmac | .cadd | .csub | .cmag2 | .corr | .acs | .lms | .fence | .iinv | .undef => .r
  | .addi | .andi | .ori | .xori | .shli | .shri | .sari | .cmpeqi | .cmpnei | .cmplti | .cmpltui | .cmplei | .cmpleui
  | .jr | .callr | .sys | .brk | .ldb | .ldbu | .ldh | .ldhu | .ldw | .ldp | .ldwpi | .stb | .sth | .stw | .stp | .stwpi
  | .dinv | .mfsr | .mtsr | .iex => .i
  | .bz | .bnz => .b
  | .j | .call => .j
  | .repi | .repir | .repn => .p
  | .k => .k

/-- Unit classes: an ALU, B only, M, X, none. -/
inductive Unit_ where
  | alu | b | m | x | none
  deriving DecidableEq, Repr

/-- The unit class of an opcode (R113, R120). -/
def Op.unit : Op → Unit_
  | .add | .sub | .and | .or | .xor | .shl | .shr | .sar | .min | .max | .minu | .maxu
  | .cmpeq | .cmpne | .cmplt | .cmpltu | .cmple | .cmpleu | .sel | .clz | .sextb | .sexth | .zexth
  | .addi | .andi | .ori | .xori | .shli | .shri | .sari | .cmpeqi | .cmpnei | .cmplti | .cmpltui | .cmplei | .cmpleui => .alu
  | .bz | .bnz | .j | .call | .jr | .callr | .eret | .sys | .brk | .mfsr | .mtsr | .iinv | .iex | .repi | .repir | .repn => .b
  | .mul | .mulh | .mulhu | .mac | .mac16 | .div | .divu | .rem | .remu
  | .cmul | .cmac | .cadd | .csub | .cmag2 | .corr | .acs | .lms => .x
  | .ldb | .ldbu | .ldh | .ldhu | .ldw | .ldp | .ldwpi | .stb | .sth | .stw | .stp | .stwpi | .dinv | .fence => .m
  | .k | .undef => .none

/-- A loading opcode. -/
def Op.load : Op → Bool
  | .ldb | .ldbu | .ldh | .ldhu | .ldw | .ldp | .ldwpi => true
  | _ => false

/-- A storing opcode. -/
def Op.store : Op → Bool
  | .stb | .sth | .stw | .stp | .stwpi => true
  | _ => false

/-- Two words at one address. -/
def Op.pair (o : Op) : Bool := o == .ldp || o == .stp

/-- With post-increment. -/
def Op.postInc (o : Op) : Bool := o == .ldwpi || o == .stwpi

/-- Weft-only opcodes (R140). -/
def Op.weftOnly : Op → Bool
  | .cmul | .cmac | .cadd | .csub | .cmag2 | .corr | .acs | .lms => true
  | _ => false

/-- Bytes of one access of a load or store. -/
def Op.size : Op → Size
  | .ldb | .ldbu | .stb => .b8
  | .ldh | .ldhu | .sth => .b16
  | _ => .b32

/-! ## Constants (R114) -/

/-- The imm14 of an I-format syllable. -/
def Syl.imm14 (y : Syl) : BitVec 14 := y.imm.setWidth 14

/-- A syllable with its constant: extended by K, or sign-extended; `ext` says which. -/
structure XSyl where
  y : Syl
  c : Word
  ext : Bool
  deriving DecidableEq, Repr

/-- A syllable on its own. -/
def Syl.plain (y : Syl) : XSyl := ⟨y, y.imm14.signExtend 32, false⟩

/-- R114, R115: the syllables with their constants; none where a K syllable follows nothing that it can extend, or finds
imm14[13:8] ≠ 0. -/
def expand : List Syl → Option (List XSyl)
  | [] => some []
  | y :: rest =>
    if y.op == .k then none
    else match rest with
      | [] => some [y.plain]
      | z :: rest' =>
        if z.op == .k then
          if y.op.fmt == .i && y.imm14.toNat < 256 then
            (expand rest').map (fun l => ⟨y, BitVec.ofNat 32 (z.imm.toNat * 256 + y.imm14.toNat), true⟩ :: l)
          else none
        else (expand (z :: rest')).map (fun l => y.plain :: l)

/-! ## Legality (R115, R120, R139) -/

/-- The special registers of the control core (R119). -/
def coreSrs (n : Nat) : Bool := decide (n ≤ 0xA) || (decide (0x10 ≤ n) && decide (n ≤ 0x12)) || (decide (0x100 ≤ n) && decide (n ≤ 0x120))

/-- Those of a Weft engine (R139). -/
def weftSrs (n : Nat) : Bool := (decide (0x10 ≤ n) && decide (n ≤ 0x12)) || (decide (0x200 ≤ n) && decide (n ≤ 0x202))

/-- The constant as the field of `w` bits whose other bits must be zero: imm14, or with a K syllable the whole constant. -/
def XSyl.field (x : XSyl) : Nat := if x.ext then x.c.toNat else x.y.imm14.toNat

/-- No unused field holds a nonzero bit; a special register is listed (R115, R120, R140). -/
def XSyl.fieldsOk (weft : Bool) (x : XSyl) : Bool :=
  let y := x.y
  let f := x.field
  match y.op with
  | .add | .sub | .and | .or | .xor | .shl | .shr | .sar | .min | .max | .minu | .maxu
  | .cmpeq | .cmpne | .cmplt | .cmpltu | .cmple | .cmpleu | .mul | .mulh | .mulhu | .mac | .mac16 | .div | .divu | .rem | .remu
  | .cadd | .csub | .corr | .acs => y.fn == 0
  | .sel => y.fn.toNat % 16 == 0
  | .clz | .sextb | .sexth | .zexth | .cmag2 => y.fn == 0 && y.rs2 == 0
  | .cmul | .cmac => decide (y.fn.toNat < 32)
  | .lms => decide (y.fn.toNat < 16)
  | .eret | .fence | .iinv => y.rd == 0 && y.rs1 == 0 && y.rs2 == 0 && y.fn == 0
  | .shli | .shri | .sari => decide (f < 32)
  | .addi | .andi | .ori | .xori | .cmpeqi | .cmpnei | .cmplti | .cmpltui | .cmplei | .cmpleui => true
  | .jr | .callr => y.rd == 0 && f == 0
  | .sys => y.rd == 0 && y.rs1 == 0 && decide (f < 4096)
  | .brk => y.rd == 0 && y.rs1 == 0 && f == 0
  | .dinv => y.rd == 0
  | .mfsr => y.rs1 == 0 && decide (f < 4096) && (if weft then weftSrs f else coreSrs f)
  | .mtsr => y.rd == 0 && decide (f < 4096) && (if weft then weftSrs f else coreSrs f)
  | .iex => y.rs1 == 0 && decide (f < 2)
  | .ldp | .stp => y.rd.toNat % 2 == 0 && y.rs1 != y.rd && y.rs1 != y.rd + 1
  | .ldwpi | .stwpi => y.rs1 != y.rd
  | .ldb | .ldbu | .ldh | .ldhu | .ldw | .stb | .sth | .stw => true
  | .repi => y.rd == 0 && y.rs1 == 0 && decide (y.imm14.toNat < 1024)
  | .repn => y.rd == 0 && y.rs1 == 0 && decide (y.imm14.toNat < 64)
  | .repir => y.rd == 0 && y.imm14 == 0
  | .bz | .bnz | .j | .call | .k => true
  | .undef => false

/-- The registers a syllable writes. -/
def Syl.dests (y : Syl) : List (BitVec 5) :=
  match y.op with
  | .add | .sub | .and | .or | .xor | .shl | .shr | .sar | .min | .max | .minu | .maxu
  | .cmpeq | .cmpne | .cmplt | .cmpltu | .cmple | .cmpleu | .sel | .clz | .sextb | .sexth | .zexth
  | .addi | .andi | .ori | .xori | .shli | .shri | .sari | .cmpeqi | .cmpnei | .cmplti | .cmpltui | .cmplei | .cmpleui
  | .mul | .mulh | .mulhu | .mac | .mac16 | .div | .divu | .rem | .remu
  | .cmul | .cmac | .cadd | .csub | .cmag2 | .corr | .acs | .lms
  | .ldb | .ldbu | .ldh | .ldhu | .ldw | .mfsr | .iex => [y.rd]
  | .ldp => [y.rd, y.rd + 1]
  | .ldwpi => [y.rd, y.rs1]
  | .stwpi => [y.rs1]
  | .call | .callr => [31]
  | _ => []

/-- Every register but g0 stands at most once in a list. -/
def onceEach : List (BitVec 5) → Bool
  | [] => true
  | r :: l => (r == 0 || !(l.contains r)) && onceEach l

/-- Syllables of a unit class. -/
def inUnit (u : Unit_) (l : List XSyl) : Nat := (l.filter (fun x => x.y.op.unit == u)).length

/-- R115, R139: the bundle is legal: `stop` is false when four syllables came without a stop bit. -/
def legal (weft stop : Bool) (b : List Syl) : Option (List XSyl) :=
  match expand b with
  | none => none
  | some l =>
    let alu := inUnit .alu l
    let br := inUnit .b l
    let units := if weft then decide (alu + br ≤ 1) && decide ((b.filter (fun y => y.op == .k)).length ≤ 1)
      else decide (br ≤ 1) && decide (alu + br ≤ 2)
    let profile := if weft then l.all (fun x => x.y.op != .eret && x.y.op != .sys && x.y.op != .iex && x.y.op != .iinv && x.y.op != .dinv)
      else l.all (fun x => !x.y.op.weftOnly)
    let alone := decide (b.length = 1) || l.all (fun x => x.y.op.fmt != .p && x.y.op != .eret)
    if stop && units && profile && alone && decide (inUnit .m l ≤ 1) && decide (inUnit .x l ≤ 1)
        && onceEach (l.flatMap (fun x => x.y.dests)) && l.all (XSyl.fieldsOk weft) then some l
    else none

/-- R126: what a repeated body must not contain. -/
def badBody (b : List Syl) : Bool :=
  b.any (fun y => y.op.fmt == .b || y.op.fmt == .j || y.op.fmt == .p || y.op == .jr || y.op == .callr || y.op == .eret || y.op == .sys
    || y.op == .brk || y.op == .mtsr || y.op == .iex || y.op == .iinv)

/-! ## Results -/

/-- The value of a general register; g0 reads as zero (R116). -/
def Cpu.get (c : Cpu) (r : BitVec 5) : Word := if r = 0 then 0 else c.g[r.toNat]

/-- A general register written; a write to g0 is discarded. -/
def Cpu.put (c : Cpu) (r : BitVec 5) (v : Word) : Cpu := if r = 0 then c else { c with g := c.g.set r.toNat v }

/-- A Bool as a word. -/
def bw (b : Bool) : Word := if b then 1 else 0

/-- Leading zeros. -/
def clz32 (v : Word) : Nat := ((List.range 32).find? (fun i => v.getLsbD (31 - i))).getD 32

/-- A signed 16-bit half. -/
def halfI (v : Word) (k : Nat) : Int := (v.extractLsb' (16 * k) 16).toInt

/-- An unsigned half. -/
def halfU (v : Word) (k : Nat) : Nat := (v.extractLsb' (16 * k) 16).toNat

/-- Two halves, each saturated to 16 bits. -/
def packSat (i q : Int) : Word :=
  let s (x : Int) : BitVec 16 := BitVec.ofInt 16 (clampInt (-32768) 32767 x)
  s q ++ s i

/-- A complex product, each part shifted right: `conj` takes the conjugate of the second factor (R140). -/
def cplx (conj : Bool) (a b : Word) (sh : Nat) : Int × Int :=
  let bq := if conj then -(halfI b 1) else halfI b 1
  let bi := halfI b 0
  ((halfI a 0 * bi - halfI a 1 * bq) / (2 ^ sh : Int), (halfI a 0 * bq + halfI a 1 * bi) / (2 ^ sh : Int))

/-- The number of ones. -/
def popcount (v : Word) : Nat := ((List.range 32).filter (fun i => v.getLsbD i)).length

/-- ACS (R140): the new metrics, and the two decisions: high, low. -/
def acs (p m : Word) : Word × Bool × Bool :=
  let lo0 := halfU p 0 + halfU m 0; let lo1 := halfU p 1 + halfU m 1
  let hi0 := halfU p 0 + halfU m 1; let hi1 := halfU p 1 + halfU m 0
  let s (x : Nat) : BitVec 16 := BitVec.ofNat 16 (min 65535 x)
  (s (min hi0 hi1) ++ s (min lo0 lo1), decide (hi1 < hi0), decide (lo1 < lo0))

/-- What an ALU or X syllable gives for rs1, its second operand, the old rd, and the condition of SEL (R120, R140); none for
any other syllable. -/
def aluVal (op : Op) (fn : BitVec 9) (a b d cond : Word) : Option Word :=
  match op with
  | .add | .addi => some (a + b)
  | .sub => some (a - b)
  | .and | .andi => some (a &&& b)
  | .or | .ori => some (a ||| b)
  | .xor | .xori => some (a ^^^ b)
  | .shl | .shli => some (a <<< (b.toNat % 32))
  | .shr | .shri => some (a >>> (b.toNat % 32))
  | .sar | .sari => some (a.sshiftRight (b.toNat % 32))
  | .min => some (if a.toInt ≤ b.toInt then a else b)
  | .max => some (if a.toInt ≤ b.toInt then b else a)
  | .minu => some (if a.toNat ≤ b.toNat then a else b)
  | .maxu => some (if a.toNat ≤ b.toNat then b else a)
  | .cmpeq | .cmpeqi => some (bw (a == b))
  | .cmpne | .cmpnei => some (bw (a != b))
  | .cmplt | .cmplti => some (bw (decide (a.toInt < b.toInt)))
  | .cmpltu | .cmpltui => some (bw (decide (a.toNat < b.toNat)))
  | .cmple | .cmplei => some (bw (decide (a.toInt ≤ b.toInt)))
  | .cmpleu | .cmpleui => some (bw (decide (a.toNat ≤ b.toNat)))
  | .sel => some (if cond = 0 then b else a)
  | .clz => some (BitVec.ofNat 32 (clz32 a))
  | .sextb => some ((a.setWidth 8).signExtend 32)
  | .sexth => some ((a.setWidth 16).signExtend 32)
  | .zexth => some ((a.setWidth 16).setWidth 32)
  | .mul => some (a * b)
  | .mulh => some (BitVec.ofInt 32 (a.toInt * b.toInt / 2 ^ 32))
  | .mulhu => some (BitVec.ofNat 32 (a.toNat * b.toNat / 2 ^ 32))
  | .mac => some (d + a * b)
  | .mac16 => some (d + BitVec.ofInt 32 (halfI a 0 * halfI b 0 + halfI a 1 * halfI b 1))
  | .div => some (if b = 0 then 0xFFFFFFFF else BitVec.ofInt 32 (a.toInt.tdiv b.toInt))
  | .divu => some (if b = 0 then 0xFFFFFFFF else BitVec.ofNat 32 (a.toNat / b.toNat))
  | .rem => some (if b = 0 then a else BitVec.ofInt 32 (a.toInt.tmod b.toInt))
  | .remu => some (if b = 0 then a else BitVec.ofNat 32 (a.toNat % b.toNat))
  | .cmul => let p := cplx (fn.getLsbD 4) a b (fn.toNat % 16); some (packSat p.1 p.2)
  | .cmac => let p := cplx (fn.getLsbD 4) a b (fn.toNat % 16); some (packSat (halfI d 0 + p.1) (halfI d 1 + p.2))
  | .cadd => some (packSat (halfI a 0 + halfI b 0) (halfI a 1 + halfI b 1))
  | .csub => some (packSat (halfI a 0 - halfI b 0) (halfI a 1 - halfI b 1))
  | .cmag2 => some (BitVec.ofInt 32 (halfI a 0 * halfI a 0 + halfI a 1 * halfI a 1))
  | .corr => some (d + 32 - BitVec.ofNat 32 (2 * popcount (a ^^^ b)))
  | .acs => some (acs a b).1
  | .lms => let p := cplx true b a (fn.toNat % 16); some (packSat (halfI d 0 + p.1) (halfI d 1 + p.2))
  | _ => none

/-- What an ALU or X syllable of a bundle writes: sources as they stand before the bundle (R117). -/
def XSyl.result (c : Cpu) (x : XSyl) : List (BitVec 5 × Word) :=
  let y := x.y
  let b := if y.op.fmt == .i then x.c else c.get y.rs2
  match aluVal y.op y.fn (c.get y.rs1) b (c.get y.rd) (c.get (y.fn.extractLsb' 4 5)) with
  | some v => [(y.rd, v)]
  | none => []

/-- The address of a load or store, or of DINV. -/
def XSyl.addr (c : Cpu) (x : XSyl) : Word := if x.y.op.postInc then c.get x.y.rs1 else c.get x.y.rs1 + x.c

/-- What post-increment writes. -/
def XSyl.inc (c : Cpu) (x : XSyl) : List (BitVec 5 × Word) := if x.y.op.postInc then [(x.y.rs1, c.get x.y.rs1 + x.c)] else []

/-- A loaded value extended (R120). -/
def loadExt (op : Op) (v : Nat) : Word :=
  match op with
  | .ldb => (BitVec.ofNat 8 v).signExtend 32
  | .ldh => (BitVec.ofNat 16 v).signExtend 32
  | .ldbu => BitVec.ofNat 32 (v % 2 ^ 8)
  | .ldhu => BitVec.ofNat 32 (v % 2 ^ 16)
  | _ => BitVec.ofNat 32 v

/-- The words that a load gives its destinations. -/
def loadWrites (y : Syl) (vs : List Nat) : List (BitVec 5 × Word) :=
  match y.op, vs with
  | .ldp, [a, b] => [(y.rd, BitVec.ofNat 32 a), (y.rd + 1, BitVec.ofNat 32 b)]
  | op, [a] => [(y.rd, loadExt op a)]
  | _, _ => []

/-- The values that a store puts on the bus: one, or two words. -/
def storeVals (c : Cpu) (y : Syl) : List Nat := if y.op.pair then [(c.get y.rd).toNat, (c.get (y.rd + 1)).toNat] else [(c.get y.rd).toNat]

/-- The addresses of a load's or store's accesses, the lower first. -/
def XSyl.addrs (c : Cpu) (x : XSyl) : List Nat :=
  let a := x.addr c
  if x.y.op.pair then [a.toNat, (a + 4).toNat] else [a.toNat]

/-- R121: where a branch, jump or call of a bundle at `pc` goes; none for one not taken and for other syllables. -/
def XSyl.target (c : Cpu) (pc : Word) (x : XSyl) : Option Word :=
  let y := x.y
  match y.op with
  | .bz => if c.get y.rs1 = 0 then some (pc + ((y.imm.setWidth 19).signExtend 32 <<< 2)) else none
  | .bnz => if c.get y.rs1 = 0 then none else some (pc + ((y.imm.setWidth 19).signExtend 32 <<< 2))
  | .j | .call => some (pc + (y.imm.signExtend 32 <<< 2))
  | .jr | .callr => some (c.get y.rs1)
  | _ => none

/-- The link that a call writes. -/
def XSyl.link (next : Word) (x : XSyl) : List (BitVec 5 × Word) := if x.y.op == .call || x.y.op == .callr then [(31, next)] else []

/-- Registers written. -/
def Cpu.puts (c : Cpu) (l : List (BitVec 5 × Word)) : Cpu := l.foldl (fun c e => c.put e.1 e.2) c

/-! ## Repeats (R126 to R129) -/

/-- A prefix has run: RPT holds the count, the body follows. -/
def Cpu.repeat_ (c : Cpu) (y : Syl) : Cpu :=
  let n : Word := if y.op == .repir then c.get y.rs1 else BitVec.ofNat 32 (y.imm14.toNat + 1)
  { c with rpt := n, rep := some ⟨y.op == .repn, some (c.pc, c.rpt)⟩, pc := c.pc + 4 }

/-- The body is to be skipped. -/
def Cpu.skips (c : Cpu) : Bool := c.rep.isSome && c.rpt == 0

/-- An iteration begins: RPT holds the count that remains after it. -/
def Cpu.iterate (c : Cpu) : Cpu :=
  match c.rep with
  | some r => { c with rpt := c.rpt - 1, rep := some { r with before := none } }
  | none => c

/-- A bundle of `n` syllables at `pc` is over: the next bundle, or the target of its branch, or the body again. -/
def Cpu.advance (c : Cpu) (n : Nat) (target : Option Word) : Cpu :=
  match c.rep with
  | some _ => if c.rpt = 0 then { c with rep := none, pc := c.pc + BitVec.ofNat 32 (4 * n) } else c
  | none => { c with pc := target.getD (c.pc + BitVec.ofNat 32 (4 * n)) }

end Sys2Proof.Machine
end

