-- ==== Sys2Proof/Machine/CoreRun.lean ====
section
/-! DEFINITION. Machine/CoreRun.lean: the control core (chapter 06): entries and returns, the memory protection unit, the
caches, special registers, one bundle. -/
namespace Sys2Proof.Machine

/-! ## STATUS (R119) -/

def CoreSt.ie (c : CoreSt) : Bool := c.status.getLsbD 0
def CoreSt.um (c : CoreSt) : Bool := c.status.getLsbD 8
def CoreSt.thr (c : CoreSt) : Nat := c.status.toNat / 16 % 8

/-! ## Interrupts and returns (R132, R133) -/

/-- R132: an interrupt of line `n` with priority `p` is taken. -/
def CoreSt.interrupt (c : CoreSt) (n p : Nat) : CoreSt :=
  let v := c.vbase + BitVec.ofNat 32 (0x100 + 16 * n)
  let c := c.enter c.cpu.pc
  { c with status := c.status &&& ~~~0x70#32 ||| BitVec.ofNat 32 (p % 8 * 16), iline := BitVec.ofNat 32 n, cpu := { c.cpu with pc := v } }

/-- R133: ERET; a reserved INREP (0b11) acts as any of the three kinds, `k` chosen freely. A repeat whose first iteration had
not begun at the entry still has its body tested (R126). -/
def CoreSt.eret (c : CoreSt) (k : Nat) : CoreSt :=
  let i := c.estatus.toNat / 2 ^ 10 % 4
  let i := if i = 3 then k % 3 else i
  let st := c.estatus &&& 0x371#32
  { c with status := st, inDouble := c.inDouble && st.getLsbD 9
           repBefore := if i = 0 then c.repBefore else none
           cpu := { c.cpu with pc := c.epc, rep := if i = 0 then none else some ⟨i == 2, c.repBefore.filter (·.1 + 4 == c.epc)⟩ } }

/-! ## Memory protection (R138) -/

/-- The kinds of access. -/
inductive MpuKind where
  | fetch | load | store
  deriving DecidableEq, Repr

/-- A region matches. -/
def CoreSt.mpuMatch (c : CoreSt) (a : Nat) (n : Fin 16) : Bool :=
  let b := c.mpuRb[n]; let l := c.mpuRl[n]
  b.getLsbD 0 && decide (b.toNat / 32 ≤ a / 32) && decide (a / 32 ≤ l.toNat / 32)

/-- The region that wins: the highest-numbered match. -/
def CoreSt.mpuRegion (c : CoreSt) (a : Nat) : Option (Fin 16) := (List.finRange 16).reverse.find? (c.mpuMatch a)

/-- The unit permits an access (R53, R138: tested before the bus is asked). -/
def CoreSt.mpuOk (c : CoreSt) (k : MpuKind) (a : Nat) : Bool :=
  if !c.mpuCtrl.getLsbD 0 then true
  else
    let grants (l : Word) : Bool := match k with
      | .fetch => l.getLsbD 2 | .load => l.getLsbD 0 | .store => l.getLsbD 1
    match c.mpuRegion a with
    | none => !c.um
    | some n => grants c.mpuRl[n] || (!c.um && !(c.mpuRl[n]).getLsbD 3)

/-- R124, R138: an address is cached, for fetch or data; the cache is on. -/
def CoreSt.cached (c : CoreSt) (fetch : Bool) (a : Nat) : Bool :=
  let able := match regionOf a with
    | .rom | .nvm | .otp | .xip | .sram | .retention => true
    | _ => false
  let byDefault := match regionOf a with
    | .rom | .nvm | .xip => true
    | .sram | .retention => fetch
    | _ => false
  let on := if fetch then c.mpuCtrl.getLsbD 2 else c.mpuCtrl.getLsbD 1
  on && able && (match (if c.mpuCtrl.getLsbD 0 then c.mpuRegion a else none) with
    | some n => (c.mpuRl[n]).getLsbD 4
    | none => byDefault)

/-! ## Fetch -/

/-- How the fetch of a bundle, a load or the preparation of a store ends. -/
inductive AccEnd (α : Type) where
  | ok (v : α)
  | wait
  | fault (code : Nat) (a : Word)
  deriving DecidableEq, Repr

/-- Whether a line that a cache took is still in it: the spec gives no replacement rule, so the answer is free. -/
def stillCached (s : State) : Bool × State :=
  let (d, s) := s.draw
  (Config.freeNat d % 2 == 0, s)

/-- R124: a line enters a cache of `size` lines; from a full one another leaves, which the spec does not choose. -/
def cacheRoom {α : Type} (size : Nat) (l : List α) (s : State) : List α × State :=
  if l.length < size then (l, s)
  else
    let (d, s) := s.draw
    (l.eraseIdx (Config.freeNat d % l.length), s)

/-- The fetch of one word of a bundle (R131, R138): the protection unit first, then the I-cache of 1,024 lines, then the
bus. -/
def fetchWord (a : Word) (s : State) : State × AccEnd Unit :=
  let n := a.toNat
  if !(s.core.mpuOk .fetch n) then (s, .fault xcMpuFetch a)
  else
    let caches := s.core.cached true n
    let line := n / 32 * 32
    let (hit, s) := if caches && s.core.icache.contains line then stillCached s else (false, s)
    if hit then (s, .ok ())
    else
      let x : Access := ⟨.coreInstr, n, .b32, false⟩
      match busRefusal s x with
      | some c => (refuse c x s, if faults c x s then .fault xcFetchBus a else .ok ())
      | none =>
        match memRead .coreInstr n 4 0 s with
        | none => (s, .wait)
        | some (s, none) => (decodeError x s, .fault xcFetchBus a)
        | some (s, some _) =>
          if caches && !(s.core.icache.contains line) then
            let (l, s) := cacheRoom 1024 s.core.icache s
            (s.modCore (fun c => { c with icache := line :: l }), .ok ())
          else (s, .ok ())

/-- The fetch of `k` words from an address: the first word in address order that faults gives the bundle's fetch fault
(log entry 43). -/
def fetchWords : Nat → Word → State → State × AccEnd Unit
  | 0, _, s => (s, .ok ())
  | k + 1, a, s =>
    match fetchWord a s with
    | (s, .ok _) => fetchWords k (a + 4) s
    | r => r

/-! ## Loads and stores (R122 to R124) -/

/-- One load access through the D-cache of 512 lines. -/
def coreLoad (a : Nat) (sz : Size) (s : State) : State × AccEnd Nat :=
  let caches := s.core.cached false a
  let line := a / 32 * 32
  let n := sizeBytes sz
  let held := if caches then s.core.dcache.find? (fun e => e.1 == line) else none
  let (hit, s) := if held.isSome then stillCached s else (false, s)
  match (if hit then held else none) with
  | some e => (s, .ok (leNat ((e.2.drop (a - line)).take n)))
  | none =>
    let x : Access := ⟨.coreData, a, sz, false⟩
    if !caches || (busRefusal s x).isSome then
      match busRead .coreData a sz s with
      | (s, .done v) => (s, .ok v)
      | (s, .fault) => (s, .fault xcLoadBus (BitVec.ofNat 32 a))
      | (s, .wait) => (s, .wait)
    else
      let status := regionOf a == .nvm && (s.nvmStatus a).isSome
      match (if status then memRead .coreData a n 0 s else memRead .coreData line 32 0 s) with
      | none => (s, .wait)
      | some (s, none) => (decodeError x s, .fault xcLoadBus (BitVec.ofNat 32 a))
      | some (s, some b) =>
        if status then (s, .ok (leNat b))
        else
          let (l, s) := cacheRoom 512 (s.core.dcache.filter (fun e => e.1 != line)) s
          (s.modCore (fun c => { c with dcache := (line, b) :: l }), .ok (leNat ((b.drop (a - line)).take n)))

/-- The loads of a syllable, one after another. -/
def coreLoads (sz : Size) : List Nat → State → State × AccEnd (List Nat)
  | [], s => (s, .ok [])
  | a :: as, s =>
    match coreLoad a sz s with
    | (s, .ok v) => match coreLoads sz as s with
      | (s, .ok vs) => (s, .ok (v :: vs))
      | (s, .wait) => (s, .wait)
      | (s, .fault c e) => (s, .fault c e)
    | (s, .wait) => (s, .wait)
    | (s, .fault c e) => (s, .fault c e)

/-- The D-cache writes through: a line it holds takes the bytes too (R124). -/
def dcacheStore (a n v : Nat) (s : State) : State :=
  let line := a / 32 * 32
  s.modCore (fun c => { c with dcache := c.dcache.map (fun e =>
    if e.1 = line then (line, e.2.take (a - line) ++ leBytes n v ++ e.2.drop (a - line + n)) else e) })

/-- One store access, cached as the protection unit stood before the bundle, `k` (R119); a write fault is imprecise and
waits to be reported (R51, R134). -/
def coreStore (k : CoreSt) (sz : Size) (s : State) (e : Nat × Nat) : State :=
  match busWrite .coreData e.1 sz e.2 s with
  | (t, .fault) => t.modCore (fun c => { c with storeBus := true })
  | (t, _) => if k.cached false e.1 then dcacheStore e.1 (sizeBytes sz) e.2 t else t

/-- R122: the stores of a syllable. Where the bus faults one of the two words of STP, nothing is stored: the faulting
accesses alone are made, to be captured. An off access that raises no fault counts as answered, for LDP and STP alike
(log entry 43). -/
def coreStores (k : CoreSt) (sz : Size) (l : List (Nat × Nat)) (s : State) : State :=
  let bad (e : Nat × Nat) : Bool :=
    let x : Access := ⟨.coreData, e.1, sz, true⟩
    ((busRefusal s x).map (fun c => faults c x s)).getD false
  if l.any bad then (l.filter bad).foldl (coreStore k sz) s else l.foldl (coreStore k sz) s

/-- A store would have to wait. -/
def storeWaits (sz : Size) (l : List (Nat × Nat)) (s : State) : Bool :=
  l.any (fun e => (busWrite .coreData e.1 sz e.2 s).2 == .wait)

/-! ## Special registers (R119) -/

/-- CYCLE. -/
def State.coreCycles (s : State) : Nat := s.power.cycAcc / (250 * 2 ^ 16) % 2 ^ 64

/-- What MFSR of a special register gives. -/
def State.coreSr (s : State) (n : Nat) : Word :=
  let c := s.core
  match n with
  | 0x000 => c.status | 0x001 => c.estatus | 0x002 => c.epc | 0x003 => c.ecause | 0x004 => c.eaddr | 0x005 => c.vbase
  | 0x006 => c.scratch0 | 0x007 => c.scratch1 | 0x008 => c.depc | 0x009 => c.dcause | 0x00A => c.iline
  | 0x010 => c.cpu.rpt
  | 0x011 => BitVec.ofNat 32 s.coreCycles
  | 0x012 => c.cpu.cycHold
  | _ => if n = 0x120 then c.mpuCtrl else if 0x110 ≤ n then c.mpuRl[n - 0x110]?.getD 0 else c.mpuRb[n - 0x100]?.getD 0

/-- What a read of a special register does beside: CYCLE_LO latches CYCLE_HI. -/
def srRead (n : Nat) (s : State) : State :=
  if n = 0x011 then s.modCpu (fun c => { c with cycHold := BitVec.ofNat 32 (s.coreCycles / 2 ^ 32) }) else s

/-- MTSR: the fields that a write reaches; read-only registers keep their values. -/
def CoreSt.mtsr (c : CoreSt) (n : Nat) (v : Word) : CoreSt :=
  match n with
  | 0x000 =>
    let st := (v &&& 0x271#32) ||| (c.status &&& 0x100#32)
    { c with status := st, inDouble := c.inDouble && st.getLsbD 9 }
  | 0x001 => { c with estatus := v &&& 0xF71#32 }
  | 0x002 => { c with epc := v }
  | 0x005 => { c with vbase := v &&& 0xFFFFF800#32 }
  | 0x006 => { c with scratch0 := v }
  | 0x007 => { c with scratch1 := v }
  | 0x010 => { c with cpu := { c.cpu with rpt := v } }
  | 0x120 =>
    let v := v &&& 7#32
    { c with
      mpuCtrl := v
      icache := if v.getLsbD 2 && !c.mpuCtrl.getLsbD 2 then [] else c.icache
      dcache := if v.getLsbD 1 && !c.mpuCtrl.getLsbD 1 then [] else c.dcache }
  | _ =>
    if 0x100 ≤ n ∧ n < 0x110 then { c with mpuRb := c.mpuRb.setIfInBounds (n - 0x100) (v &&& 0xFFFFFFE1#32) }
    else if 0x110 ≤ n ∧ n < 0x120 then { c with mpuRl := c.mpuRl.setIfInBounds (n - 0x110) v }
    else c

/-- What the special syllables of a bundle write to general registers. -/
def XSyl.special (s : State) (x : XSyl) : List (BitVec 5 × Word) :=
  match x.y.op with
  | .mfsr => [(x.y.rd, s.coreSr x.field)]
  | .iex => [(x.y.rd, bw s.core.ie)]
  | _ => []

/-- What they do beside that. -/
def XSyl.effect (c : Cpu) (s : State) (x : XSyl) : State :=
  match x.y.op with
  | .mfsr => srRead x.field s
  | .mtsr => s.modCore (fun k => k.mtsr x.field (c.get x.y.rs1))
  | .iex => s.modCore (fun k => { k with status := k.status &&& ~~~1#32 ||| BitVec.ofNat 32 (x.field % 2) })
  | .iinv => s.modCore (fun k => { k with icache := [] })
  | .dinv =>
    let line := (x.addr c).toNat / 32 * 32
    s.modCore (fun k => { k with dcache := k.dcache.filter (fun e => e.1 != line) })
  | _ => s

/-! ## One bundle -/

/-- R130: a syllable that user mode must not execute. -/
def XSyl.privileged (x : XSyl) : Bool :=
  match x.y.op with
  | .mtsr | .iinv | .iex | .eret => true
  | .mfsr => x.field != 0x011 && x.field != 0x012
  | _ => false

/-- The first misaligned address of a bundle (R121, R122): a branch target of JR or CALLR, or a data address below the
register blocks. -/
def XSyl.misaligned (c : Cpu) (x : XSyl) : Option Word :=
  let y := x.y
  if y.op == .jr || y.op == .callr then
    let t := c.get y.rs1
    if t.toNat % 4 = 0 then none else some t
  else if y.op.load || y.op.store then
    (x.addrs c).findSome? (fun a => if a < 0x40000000 ∧ a % sizeBytes y.op.size ≠ 0 then some (BitVec.ofNat 32 a) else none)
  else none

/-- A data address that the protection unit refuses, with the cause. -/
def XSyl.mpuFault (s : State) (x : XSyl) : Option (Nat × Word) :=
  let op := x.y.op
  if op.load then ((x.addrs s.core.cpu).find? (fun a => !(s.core.mpuOk .load a))).map (fun a => (xcMpuLoad, BitVec.ofNat 32 a))
  else if op.store then ((x.addrs s.core.cpu).find? (fun a => !(s.core.mpuOk .store a))).map (fun a => (xcMpuStore, BitVec.ofNat 32 a))
  else none

/-- FENCE waits while a write fault has still to be taken (R134). -/
def fenceWaits (l : List XSyl) (s : State) : Bool := l.any (fun x => x.y.op == .fence) && s.core.storeBus

/-- The stores of a bundle as address and value. -/
def storesOf (c : Cpu) (l : List XSyl) : Option (Size × List (Nat × Nat)) :=
  (l.find? (fun x => x.y.op.store)).map (fun x => (x.y.op.size, (x.addrs c).zip (storeVals c x.y)))

/-- A bundle that has passed every test and whose loads have come back writes its results, does its special effects, goes
on, and stores. -/
def bundleEnd (n : Nat) (l : List XSyl) (c : Cpu) (loaded : List (BitVec 5 × Word)) (s : State) : State :=
  let next := c.pc + BitVec.ofNat 32 (4 * n)
  let writes := l.flatMap (fun x => x.result c ++ x.inc c ++ x.link next ++ x.special s) ++ loaded
  let s1 := l.foldl (XSyl.effect c) s
  let s2 := s1.modCpu (fun k => (k.puts writes).advance n (l.findSome? (XSyl.target c c.pc)))
  match storesOf c l with
  | some (sz, st) => afterWrite (coreStores s.core sz st s2)
  | none => s2

/-- The loads of a bundle. -/
def bundleLoads (l : List XSyl) (s : State) : State × AccEnd (List (BitVec 5 × Word)) :=
  match l.find? (fun x => x.y.op.load) with
  | none => (s, .ok [])
  | some x =>
    match coreLoads x.y.op.size (x.addrs s.core.cpu) s with
    | (s, .ok vs) => (s, .ok (loadWrites x.y vs))
    | (s, .wait) => (s, .wait)
    | (s, .fault c a) => (s, .fault c a)

/-- A legal bundle runs: PRIV, ALIGN, protection, loads, then its effects; SYS and BRK complete the other syllables and
raise. None: it waits. -/
def bundleRun (n : Nat) (l : List XSyl) (s : State) : Option State :=
  let pc := s.core.cpu.pc
  if s.core.um && l.any XSyl.privileged then some (bundleFault xcPriv pc s)
  else match l.findSome? (XSyl.misaligned s.core.cpu) with
    | some a => some (bundleFault xcAlign a s)
    | none => match l.findSome? (XSyl.mpuFault s) with
      | some (c, a) => some (bundleFault c a s)
      | none =>
        -- an iteration of a repeat begins
        let t := s.modCpu Cpu.iterate
        let c := t.core.cpu
        if fenceWaits l s || ((storesOf c l).map (fun e => storeWaits e.1 e.2 t)).getD false then none
        else match bundleLoads l t with
          | (_, .wait) => none
          | (u, .fault code a) =>
            some (bundleFault code a (u.modCpu (fun k => { k with rpt := s.core.cpu.rpt, rep := s.core.cpu.rep })))
          | (u, .ok loaded) =>
            let v := bundleEnd n l c loaded u
            match l.find? (fun x => x.y.op == .sys || x.y.op == .brk || x.y.op == .eret || x.y.op.fmt == .p) with
            | none => some v
            | some x =>
              let next := pc + BitVec.ofNat 32 (4 * n)
              match x.y.op with
              | .sys => some ((v.modCpu (fun k => { k with pc := pc })).modCore (fun k => k.exception xcSys (BitVec.ofNat 32 x.field) next))
              | .brk => some ((v.modCpu (fun k => { k with pc := pc })).modCore (fun k => k.exception xcBrk pc next))
              | .eret =>
                let (d, v) := v.draw
                some (v.modCore (fun k => k.eret (Config.freeNat d)))
              | _ => some (v.modCpu (fun k => { k with pc := pc } |>.repeat_ x.y))

/-- A bundle of the control core (R115, R126 to R131): fetched, tested, run. None: it waits, and nothing has happened. -/
def coreBundle (b : List Syl) (stop : Bool) (s : State) : Option State :=
  let n := b.length
  let pc := s.core.cpu.pc
  match fetchWords n pc s with
  | (_, .wait) => none
  | (s, .fault c a) => some (bundleFault c a s)
  | (s, .ok _) =>
    let before := (s.core.cpu.rep.bind (·.before)).filter (fun _ => badBody b)
    match before with
    | some (at_, rpt) =>
      some ((s.modCpu (fun k => { k with pc := at_, rpt := rpt, rep := none })).modCore (fun k => k.exception xcIllegal at_ at_))
    | none =>
      if s.core.cpu.skips then some (s.modCpu (fun k => { k with rep := none, pc := pc + BitVec.ofNat 32 (4 * n) }))
      else match legal false stop b with
        | none => some (bundleFault xcIllegal pc s)
        | some l => bundleRun n l s

/-- A syllable reaches the core: it joins the bundle in progress, which runs with its stop bit or its fourth syllable. -/
def coreSyllable (stop : Bool) (y : Syl) (s : State) : State :=
  if !s.coreRuns then s
  else
    let b := s.core.cpu.open_ ++ [y]
    if !stop && decide (b.length < 4) then s.modCpu (fun c => { c with open_ := b })
    else (coreBundle b stop (s.modCpu (fun c => { c with open_ := [] }))).getD s

/-! ## Boundaries -/

/-- The core is between two bundles. -/
def State.atBoundary (s : State) : Bool := s.coreRuns && s.core.cpu.open_.isEmpty

/-- R127, R128: a repeat does not keep an interrupt off here. -/
def Cpu.interruptible (c : Cpu) : Bool := match c.rep with
  | some r => !r.noInt && r.before.isNone
  | none => true

/-- INTERRUPT_ENTRY (R132, R135): the line that R135 chooses is taken; none when none is eligible. -/
def execInterruptEntry (s : State) : Out :=
  .next (if s.atBoundary && s.core.ie && !s.core.exl && s.core.cpu.interruptible then
    match s.lineToTake s.core.thr with
    | some n => s.modCore (fun c => c.interrupt n (s.linePrio n))
    | none => s
  else s)

/-- STORE_BUS (R51, R131, R134): the pending write fault is reported at a boundary with EXL = 0. -/
def execStoreBus (s : State) : Out :=
  .next (if s.atBoundary && s.core.storeBus && !s.core.exl then
    s.modCore (fun c => { c with storeBus := false }.exception xcStoreBus (s.reg Reg.BUS_FADDR) c.cpu.pc)
  else s)

/-- SW_LINE_SET (R137): a write of INTC_SW. -/
def execSwLineSet (bits : BitVec 8) (s : State) : Out := .next (viaBus Reg.INTC_SW (swLineWrite bits 0) s)

/-- SW_LINE_CLR (R137). -/
def execSwLineClr (bits : BitVec 8) (s : State) : Out := .next (viaBus Reg.INTC_SW (swLineWrite 0 bits) s)

end Sys2Proof.Machine
end

