-- ==== Sys2Proof/Machine/DictRows.lean ====
section
/-! DEFINITION. Machine/DictRows.lean: the commands of the object dictionary (chapter 22), the host's DICT frame and the
ring's SVC frame, the tick boundary as a whole, and the end of a commit check. -/
namespace Sys2Proof.Machine

/-- A request that a port brings: in the host's frame, answered by its reply (R425), or in an SVC frame (R450). -/
def portRequest (p : DictPort) (b : List Byte) (s : State) : State :=
  match p with
  | .host tag =>
    hostFrame 0x02 tag b (fun s =>
      if b = [] then hostReply hsBadcmd [] s
      else dictRequest .host .host b (s.modSpis (fun x => { x with pend := true }))) s
  | .ring h =>
    onRing (ringFrame 0x10 h (fun _ => b) (fun s => s.ringMine h) (ringService h (fun s =>
      if !(bitOf h.flags.toNat 1) && s.on RING_CFG.DICTEN then
        dictRequest (.ring h.src.toNat h.seq.toNat) (.ring h.src.toNat) b s
      else ringDeliver 0x10 h b s))) s

/-- The items of a request's operands. -/
def keysOf (l : List (BitVec 16 × BitVec 8)) : List (Nat × Nat) := l.map (fun e => (e.1.toNat, e.2.toNat))

/-- HOST_DICT (R425). -/
def execHostDict (tag : BitVec 4) (payload : List (BitVec 8)) (s : State) : Out := .next (portRequest (.host tag) payload s)

/-- SVC (R450). -/
def execRingSvc (h : RingHdr) (payload : List (BitVec 8)) (s : State) : Out := .next (portRequest (.ring h) payload s)

/-- READ (R460). -/
def execDictRead (p : DictPort) (rid : BitVec 8) (items : List (BitVec 16 × BitVec 8)) (s : State) : Out :=
  .next (portRequest p (keysMsg 1 rid.toNat (keysOf items)) s)

/-- WRITE (R463). -/
def execDictWrite (p : DictPort) (rid : BitVec 8) (items : List (BitVec 16 × BitVec 8 × List (BitVec 8))) (s : State) : Out :=
  .next (portRequest p (writeMsg rid.toNat (items.map (fun e => ⟨e.1.toNat, e.2.1.toNat, e.2.2⟩))) s)

/-- BEGIN (R463). -/
def execDictBegin (p : DictPort) (rid : BitVec 8) (s : State) : Out := .next (portRequest p (keysMsg 3 rid.toNat []) s)

/-- COMMIT (R467). -/
def execDictCommit (p : DictPort) (rid : BitVec 8) (s : State) : Out := .next (portRequest p (keysMsg 4 rid.toNat []) s)

/-- ABORT (R463). -/
def execDictAbort (p : DictPort) (rid : BitVec 8) (s : State) : Out := .next (portRequest p (keysMsg 5 rid.toNat []) s)

/-- SNAPSHOT (R461). -/
def execDictSnapshot (p : DictPort) (rid : BitVec 8) (items : List (BitVec 16 × BitVec 8)) (s : State) : Out :=
  .next (portRequest p (keysMsg 6 rid.toNat (keysOf items)) s)

/-- FETCH (R461). -/
def execDictFetch (p : DictPort) (rid : BitVec 8) (offset maxlen : BitVec 16) (s : State) : Out :=
  .next (portRequest p (keysMsg 7 rid.toNat [] ++ leBytes 2 offset.toNat ++ leBytes 2 maxlen.toNat) s)

/-- R461: 2 s after the last FETCH the buffer is freed. -/
def execSnapshotBufferExpiry (q : Sess) (s : State) : Out :=
  .next (if s.dictClocked && (s.sess q).snap.isSome then modSess q (fun x => { x with snap := none }) s else s)

/-- R466: an open transaction has had no message for TTO. -/
def execTransactionExpiry (q : Sess) (s : State) : Out :=
  .next (if s.dictClocked && (s.sess q).trans.isSome then modSess q (fun x => { x with trans := none, expired := true }) s else s)

/-- The first item of the transaction that runs whose block firmware holds. -/
def heldItem (r : DRun) (s : State) : DItem :=
  match (runBlocks r.items s).find? (fun b => bitOf (s.get DICT_TKHOLD.HOLD) (blkBit b)) with
  | some b => firstOf b r.items s
  | none => ⟨0, 0, []⟩

/-- R467: a hold has lasted HOLDMAX ticks: BUSY. -/
def execHoldmaxExpiry (s : State) : Out :=
  .next (match s.dict.run with
    | some r => if r.stage == .hold && s.dictClocked then dictPoll (runRefuse r (failAt (heldItem r s) dsBusy 0) s) else s
    | none => s)

/-- The entry of a descriptor, as an item. -/
def chkItem (k : Nat) (s : State) : DItem := ⟨s.appKey k / 256, s.appKey k % 256, []⟩

/-- R473: no verdict within 200 µs: BUSY. -/
def execCheckTimeout (s : State) : Out :=
  .next (match s.dict.run with
    | some r => match r.stage with
      | .check left => if s.dictClocked then dictPoll (runRefuse r (failAt (chkItem (left.headD 0) s) dsBusy 0) s) else s
      | _ => s
    | none => s)

/-- R473: a write of DICT_CBRES. -/
def execCheckVerdict (data : Word) (s : State) : Out :=
  .next (viaBus Reg.DICT_CBRES (fun s => dictPoll (cbresWrite data s)) s)

/-- R470: a descriptor of KIND 0. -/
def execMeshEnvelope (s : State) : Out := .next (mqServe 0 s)

/-- R471: a descriptor of KIND 1. -/
def execLocalRequest (s : State) : Out := .next (mqServe 1 s)

/-- R476: a write of DICT_CTRL. -/
def execDictRestore (data : Word) (s : State) : Out :=
  .next (viaBus Reg.DICT_CTRL (fun s => dictPoll (dictCtrlWrite data s)) s)

/-- R475: a write of DICT_STORE. -/
def execStoreCfgWrite (data : Word) (s : State) : Out :=
  .next (viaBus Reg.DICT_STORE (fun s => dictPoll (storeCfgWrite data s)) s)

/-- R472: a write of DICT_APPBASE, or with `n` of DICT_APPN. -/
def execAppTableWrite (n : Bool) (data : Word) (s : State) : Out :=
  .next (viaBus (if n then Reg.DICT_APPN else Reg.DICT_APPBASE) (appWrite n data) s)

/-- TICK_BOUNDARY (R15, R19, R467), with the levels of the ADC samples of the tick that ended (R205). -/
def execTickBoundary (levels : List (BitVec 10 × Nat)) (peak : BitVec 10) (s : State) : Out :=
  .next (if s.ticking then
      let s := if s.dictClocked then runRetest s else s
      twilWork (dictTick s.tick.group.isSome (boundary levels peak.toNat s))
    else s)

/-- COMMIT_CHECK_DONE (R27, R30, R467). -/
def execCommitCheckDone (c : CommitOf) (s : State) : Out :=
  .next (match c with
    | .own b => if s.blkOn b && s.clocked then ownChecked b s else s
    | .group => if s.clocked then dictPoll (grpChecked s) else s)

end Sys2Proof.Machine
end

