-- ==== Sys2Proof/Machine/EvrRows.lean ====
section
/-! DEFINITION. Machine/EvrRows.lean: the commands of the event recorder (chapter 24). -/
namespace Sys2Proof.Machine

/-- R503: a write of EVR_RPT that asks for a snapshot. -/
def execEventReport (m : Master) (data : Word) (s : State) : Out :=
  .next (viaMaster m Reg.EVR_RPT (firmwareReport m (data &&& 0x7FFFFFFF#32)) s)

/-- R503, R511: a write of EVR_RPT with VAR = 1. -/
def execVariableReport (m : Master) (data : Word) (s : State) : Out :=
  .next (viaMaster m Reg.EVR_RPT (firmwareReport m (data ||| 0x80000000#32)) s)

/-- R509: a trigger of the staging record has come. -/
def execStagingWrite (s : State) : Out := .next (evrKick false 40 s)

/-- R509: the record has been staged for COALT. -/
def execCoalesceTimeout (s : State) : Out := .next (evrKick true 40 s)

/-- R509: EVR_CMD.FLUSH. -/
def execEvrFlush (s : State) : Out := .next (viaBus Reg.EVR_CMD (evrKick true 40) s)

/-- R514: EVR_CMD.CLEAR. -/
def execEvrClear (s : State) : Out := .next (viaBus Reg.EVR_CMD evrClear s)

/-- R512: the scan, once the NVM is ready. -/
def execEvrScan (s : State) : Out :=
  .next (if s.on NVM_STAT.READY && s.evrClocked && !(s.on EVR_STAT.READY) then evrScan s else s)

end Sys2Proof.Machine
end

