-- ==== Sys2Proof/Machine/NvmRows.lean ====
section
/-! DEFINITION. Machine/NvmRows.lean: the commands of the NVM controller (chapter 19), and what the end of an operation
brings its requester. -/
namespace Sys2Proof.Machine

/-- A program has ended: its requester goes on. -/
def progDone (e : Option NvmEnd) (s : State) : State :=
  match e with
  | some (.sec, st) => ledgProgEnd st s
  | some (.evr, st) => evrProgEnd st s
  | some (.dict, st) => storeEnd st s
  | some (.firmware, _) | some (.refresh, _) | none => s

/-- An erase has ended: its requester goes on. -/
def eraseDone (e : Option NvmEnd) (s : State) : State :=
  match e with
  | some (.sec, _) => ledgEraseEnd s
  | some (.evr, st) => evrEraseEnd st s
  | some (.dict, st) => storeEnd st s
  | some (.firmware, _) | some (.refresh, _) | none => s

/-- R403: the retirement of a block at `a` is reported, where `before` is the state before it. -/
def retireReport (before : State) (a : Nat) (s : State) : State :=
  if s.nvm.retires = before.nvm.retires then s else nvmReport 0x03 a s

/-- R403: a unit that the retirement copy could not read is left erased and reported. -/
def unitLost (k : Bool) (block : Nat) (s : State) (u : Fin 128) : State :=
  let a := nvmBlockAddr k block + 32 * u.val
  let s := { s with mem := { s.mem with cells := Sparse.clear s.mem.cells (fun x => decide (a ≤ x) && decide (x < a + 32)) } }
  nvmReport 0x05 a (s.modBank k (fun b => { b with ones := b.ones.filter (fun x => x ≠ a / 32) }))

/-- NVM_READ (R391 to R393): a master's read of NVM whose worst unit holds `wrong` wrong bits, 5 for more than can be
corrected. A read that has to wait has no effect yet. -/
def execNvmRead (m : Master) (addr : Word) (size : Size) (wrong : Fin 6) (s : State) : Out :=
  .next (if s.clocked && regionOf addr.toNat == .nvm then (busReadW m addr.toNat size wrong.val s).1 else s)

/-- NVM_PROGRAM (R402): a write of NVM_CMD with OP = 1. -/
def execNvmProgram (count : BitVec 7) (s : State) : Out := .next (viaBus Reg.NVM_CMD (nvmCommand 1 count.toNat true) s)

/-- NVM_ERASE (R402): OP = 2. -/
def execNvmErase (s : State) : Out := .next (viaBus Reg.NVM_CMD (nvmCommand 2 0 true) s)

/-- OTPPROG (R402, R407): OP = 3; whether VBAT stands at 2.5 V. -/
def execNvmOtpprog (vbatOk : Bool) (s : State) : Out := .next (viaBus Reg.NVM_CMD (nvmCommand 3 0 vbatOk) s)

/-- PROGRAM_UNIT_DONE (R395, R396, R403): the unit that a bank programs has verified after `pulses`, or has failed after 8.
`lost` are units that the retirement copy then cannot read. -/
def execProgramUnitDone (bank ok : Bool) (pulses : BitVec 4) (lost : List (Fin 128)) (s : State) : Out :=
  .next (if !s.clocked then s
    else match (s.bank bank).prog with
      | none => s
      | some j =>
        let r := progUnit bank ok pulses.toNat s
        let t := retireReport s (nvmBlockAddr bank (nvmBlockOf j.addr)) r.1
        let gone := lost.filter (fun u => u.val ≠ j.addr / 32 % 128)
        let t := if r.1.nvm.retires = s.nvm.retires then t else gone.foldl (unitLost bank (nvmBlockOf j.addr)) t
        progDone r.2 t)

/-- ERASE_COMPLETE (R397, R403, R404): the erase that runs in a bank ends, verified or not. -/
def execEraseComplete (bank ok : Bool) (s : State) : Out :=
  .next (if !s.clocked then s
    else match (s.bank bank).erase with
      | none => s
      | some e =>
        let a := nvmBlockAddr bank e.block
        let r := eraseEnd bank ok s
        eraseDone r.2 (wearCheck a (retireReport s a r.1)))

/-- ERASE_SUSPEND (R399): a write of NVM_SUSP that sets the bit of a bank, the other bit as it stands. -/
def execEraseSuspend (bank : Bool) (s : State) : Out := .next (viaBus Reg.NVM_SUSP (setSuspend bank true) s)

/-- ERASE_RESUME (R399): the bit is written 0. -/
def execEraseResume (bank : Bool) (s : State) : Out := .next (viaBus Reg.NVM_SUSP (setSuspend bank false) s)

/-- METADATA_LOAD (R398). -/
def execMetadataLoad (s : State) : Out := .next (if s.clocked then storeWork (metadataLoad s) else s)

/-- SCRUB_STEP (R406): the units of the block with wrong bits, and how many. -/
def execScrubStep (units : List (Fin 128 × Fin 6)) (s : State) : Out := .next (scrubStep units s)

/-- OTP_PROGRAM_DONE (R407). -/
def execOtpProgramDone (s : State) : Out := .next (if s.clocked then otpDone s else s)

end Sys2Proof.Machine
end

