-- ==== Sys2Proof/Machine/PinState.lean ====
section
/-! DEFINITION. Machine/PinState.lean: what each signal pin does in every power state (R55 to R58, R60, R68): a view of the
state, by the state table of chapter 03. -/
namespace Sys2Proof.Machine

/-- The signal pins of R56; balls of one row that always act alike are one. -/
inductive Pad where
  | rfRx | rfTx | zephIn | tune (n : Fin 4) | paEn | lnaEn | trsw | coexReq | coexPri | paRamp | coexGnt | ppsIn | ppsOut
  | tt (n : Fin 4) | xo | xt | ringPair | twPair | twRole | twLive | hsCs | hsClk | hsMosi | hsMiso | hsRdy | hsIrq
  | memCs (n : Fin 2) | memClk | memIo | mains | zcIn | gp (n : Fin 24) | resetN | wake | test | dbgClk | dbgIo | tamper
  deriving DecidableEq, Repr

/-- What a pin does: floats with its input off, an input with or without its pull, drives a level, drives an analogue level in
mV, is an analogue or RF port at work or at rest, an open drain released, a bypass switch closed; ignored. -/
inductive PadState where
  | z | input | pu | pd | drive (high : Bool) | volts (mv : Nat) | active | stopped | released | bypass | ignored
  deriving DecidableEq, Repr

/-- The supplies of the pads (R56). -/
inductive Bank where
  | vrf | aon | vddio1 | vddio2 | ring | msu
  deriving DecidableEq, Repr

/-- R56: the bank of a signal. -/
def Pad.bank : Pad → Bank
  | .rfRx | .rfTx | .xo => .vrf
  | .zephIn | .xt | .wake | .tamper => .aon
  | .tune _ | .paEn | .lnaEn | .trsw | .coexReq | .coexPri | .paRamp | .coexGnt | .ppsIn | .ppsOut | .tt _ | .twRole
  | .twLive => .vddio2
  | .ringPair | .twPair => .ring
  | .hsCs | .hsClk | .hsMosi | .hsMiso | .hsRdy | .hsIrq | .memCs _ | .memClk | .memIo | .resetN | .test | .dbgClk
  | .dbgIo => .vddio1
  | .mains | .zcIn => .msu
  | .gp n => if n.val < 12 then .vddio1 else .vddio2

/-- The bank's supply is present; one that is absent leaves its pads fail-safe, floating (R57, R58, R74). -/
def State.bankUp (s : State) : Bank → Bool
  | .vddio1 => !s.pins.io1Off
  | .vddio2 => !s.pins.io2Off
  | _ => true

/-- R56, the column Off. -/
def offState : Pad → PadState
  | .xo => .stopped
  | .xt => .active
  | .ringPair => .bypass
  | .twLive => .released
  | .resetN => .ignored
  | .wake => .pd
  | _ => .z

/-- A GPIO pad: driven, or an input with its pull (R65, R66). -/
def State.gpState (s : State) (n : Nat) : PadState :=
  match s.driven n with
  | some b => .drive b
  | none =>
    if bitOf (s.reg Reg.GPIO_PULLEN).toNat n then (if bitOf (s.reg Reg.GPIO_PULLSEL).toNat n then .pu else .pd) else .input

/-- A bit of a pin vector, driven. -/
def driveBit {w : Nat} (v : BitVec w) (n : Nat) : PadState := .drive (v.getLsbD n)

/-- R56, the column Deep sleep. -/
def State.deepPad (s : State) : Pad → PadState
  | .zephIn => if s.on ZEPH_CTRL.EN then .active else .z
  | .tune n => driveBit s.pins.tune n
  | .paEn | .lnaEn | .trsw | .coexReq | .coexPri | .hsRdy => .drive false
  | .paRamp => .volts 0
  | .coexGnt | .ppsIn | .twRole | .hsClk | .hsMosi | .wake | .test | .dbgClk => .pd
  | .ppsOut => .drive s.pins.ppsOut
  | .tt n => driveBit s.pins.tt n
  | .xo => .stopped
  | .xt => .active
  | .ringPair => .bypass
  | .twLive => .released
  | .hsCs | .memIo | .resetN | .dbgIo | .tamper => .pu
  | .hsIrq => .drive s.pins.hsIrqHeld
  | .memCs _ => .drive true
  | .memClk => .drive false
  | .gp n => s.gpState n
  | .rfRx | .rfTx | .twPair | .hsMiso | .mains | .zcIn => .z

/-- R56, the column Reset. -/
def resetPad : Pad → PadState
  | .tune _ | .coexGnt | .ppsIn | .twRole | .hsClk | .hsMosi | .memClk | .wake | .test | .dbgClk => .pd
  | .paEn | .lnaEn | .trsw | .coexReq | .coexPri | .ppsOut | .tt _ | .hsRdy => .drive false
  | .paRamp => .volts 0
  | .xo | .xt => .active
  | .ringPair => .bypass
  | .twLive => .released
  | .hsCs | .hsIrq | .memCs _ | .memIo | .resetN | .dbgIo | .tamper => .pu
  | .gp n => if n.val = 0 then .pu else .pd
  | .rfRx | .rfTx | .zephIn | .twPair | .hsMiso | .mains | .zcIn => .z

/-- The pins while CORE lives, as their blocks have them. -/
def State.runPad (s : State) : Pad → PadState
  | .rfRx => if s.radioOn then .active else .z
  | .rfTx => if s.radioOn && s.onAir then .active else .z
  | .zephIn => if s.on ZEPH_CTRL.EN then .active else .z
  | .tune n => driveBit s.pins.tune n
  | .paEn => .drive s.pins.paEn
  | .lnaEn => .drive s.pins.lnaEn
  | .trsw => .drive s.pins.trswTx
  | .coexReq => .drive s.pins.coexReq
  | .coexPri => .drive s.pins.coexPri
  | .paRamp => .volts s.pins.paRamp
  | .coexGnt | .ppsIn | .twRole | .hsClk | .hsMosi | .wake | .test | .dbgClk => .pd
  | .ppsOut => .drive s.pins.ppsOut
  | .tt n => driveBit s.pins.tt n
  | .xo => if s.on SYSC_LPSTAT.PLLRUN then .active else .stopped
  | .xt => .active
  | .ringPair => if s.pins.bypass then .bypass else .active
  | .twPair => if s.ringOn && s.pairState != pairOff then .active else .z
  | .twLive => if s.pins.twLive then .drive false else .released
  | .hsCs | .memIo | .resetN | .dbgIo | .tamper => .pu
  | .hsMiso => .z
  | .hsRdy => .drive s.hsRdy
  | .hsIrq => .drive (!s.hsIrq)
  | .memCs _ => .drive true
  | .memClk => .drive false
  | .mains | .zcIn => if s.msuOn then .active else .z
  | .gp n => s.gpState n

/-- R56 to R58: what a pin does now. -/
def State.padState (s : State) (p : Pad) : PadState :=
  if s.power.st == .off then offState p
  else if !(s.bankUp p.bank) then (if p = .twLive then .released else .z)
  else match s.power.st with
    | .reset => resetPad p
    | .deepSleep => s.deepPad p
    | .waking .deepSleep => if s.on SYSC_LPSTAT.PLLRUN then s.runPad p else s.deepPad p
    | _ => s.runPad p

end Sys2Proof.Machine
end

