-- ==== Sys2Proof/Machine/WeftRun.lean ====
section
/-! DEFINITION. Machine/WeftRun.lean: one bundle of a Weft engine (R139 to R142, R147, R152). -/
namespace Sys2Proof.Machine

/-- The engine's registers and pc changed. -/
def State.modWeft (s : State) (n : Fin 32) (f : Cpu → Cpu) : State := s.modEng n (fun e => { e with cpu := f e.cpu })

/-- The engine executes: it runs a job whose end has not been written (R148, R149). -/
def State.weftRuns (s : State) (n : Fin 32) : Bool :=
  s.clocked && s.radioOn && (s.eng n).st == .running && (s.eng n).job.isSome && (s.eng n).ending.isNone

/-! ## Data windows (R142) -/

/-- The windows of a Weft engine. -/
inductive WeftWin where
  | loc | io | sram
  deriving DecidableEq, Repr

/-- The window of an address; none faults (R142). -/
def weftWin (a : Nat) : Option WeftWin :=
  if a < 0x2000 then some .loc else if a < 0x2100 then some .io else if 0x20000000 ≤ a ∧ a < 0x20100000 then some .sram else none

/-- One load access. -/
def weftLoad (n : Fin 32) (s : State) (sz a : Nat) : Nat :=
  match weftWin a with
  | some .loc => s.rn (weftLocal n + a) sz
  | some .io => (wioRead n ((a - 0x2000) / 4 * 4) s).toNat / 2 ^ (8 * (a % 4)) % 2 ^ (8 * sz)
  | some .sram => s.rn a sz
  | none => 0

/-- One store access. A store to the I/O page acts with the word it names; a part of a word that is not its lowest is
discarded (log entry 35). -/
def weftStore (n : Fin 32) (sz : Nat) (s : State) (e : Nat × Nat) : State :=
  match weftWin e.1 with
  | some .loc => s.wn (weftLocal n + e.1) sz e.2
  | some .io => if e.1 % 4 = 0 then wioWrite n (e.1 - 0x2000) (BitVec.ofNat 32 (e.2 % 2 ^ (8 * sz))) s else s
  | some .sram => s.wn e.1 sz e.2
  | none => s

/-- R145, R147: the bundle has to wait: a load of WIO_DMAWAIT with a command outstanding, a fifth DMA command. -/
def weftWaits (n : Fin 32) (l : List XSyl) (c : Cpu) (s : State) : Bool :=
  let d := (s.eng n).dma
  l.any (fun x =>
    (x.y.op.load && (x.addrs c).any (fun a => a / 4 * 4 == 0x200C) && !d.isEmpty)
      || (x.y.op.store && (x.addrs c).contains 0x2004 && decide (4 ≤ d.length)))

/-! ## Special registers (R139) -/

/-- Weft cycles. -/
def State.weftCycles (s : State) : Nat := s.now * 96 / 250 % 2 ^ 64

/-- What MFSR gives. -/
def State.weftSr (s : State) (n : Fin 32) (r : Nat) : Word :=
  let e := s.eng n
  match r with
  | 0x010 => e.cpu.rpt
  | 0x011 => BitVec.ofNat 32 s.weftCycles
  | 0x012 => e.cpu.cycHold
  | 0x200 => e.dec
  | 0x201 => (e.job.map (·.w0)).getD 0
  | _ => BitVec.ofNat 32 n.val

/-- The general registers that MFSR writes. -/
def XSyl.weftSpecial (n : Fin 32) (s : State) (x : XSyl) : List (BitVec 5 × Word) :=
  if x.y.op == .mfsr then [(x.y.rd, s.weftSr n x.field)] else []

/-- What special syllables do beside that: the latch of CYCLE_HI, MTSR, the decisions of ACS. -/
def XSyl.weftEffect (n : Fin 32) (c : Cpu) (s : State) (x : XSyl) : State :=
  match x.y.op with
  | .mfsr => if x.field = 0x011 then s.modWeft n (fun k => { k with cycHold := BitVec.ofNat 32 (s.weftCycles / 2 ^ 32) }) else s
  | .mtsr =>
    if x.field = 0x010 then s.modWeft n (fun k => { k with rpt := c.get x.y.rs1 })
    else if x.field = 0x200 then s.modEng n (fun e => { e with dec := c.get x.y.rs1 })
    else s
  | .acs =>
    let r := acs (c.get x.y.rs1) (c.get x.y.rs2)
    s.modEng n (fun e => { e with dec := (e.dec <<< 2) ||| (bw r.2.1 <<< 1) ||| bw r.2.2 })
  | _ => s

/-! ## One bundle -/

/-- R139, R142: the first fault of a legal bundle: alignment, window, BRK. -/
def XSyl.weftFault (c : Cpu) (x : XSyl) : Option WeftFault :=
  let y := x.y
  if (y.op == .jr || y.op == .callr) && (c.get y.rs1).toNat % 4 != 0 then some .align
  else if y.op.load || y.op.store then
    if (x.addrs c).any (fun a => a % sizeBytes y.op.size != 0) then some .align
    else if (x.addrs c).any (fun a => (weftWin a).isNone) then some .window
    else none
  else if y.op == .brk then some .brk
  else none

/-- The loads of a bundle. -/
def weftLoads (n : Fin 32) (l : List XSyl) (c : Cpu) (s : State) : List (BitVec 5 × Word) :=
  match l.find? (fun x => x.y.op.load) with
  | some x => loadWrites x.y ((x.addrs c).map (weftLoad n s (sizeBytes x.y.op.size)))
  | none => []

/-- A legal bundle runs. Its store comes last: one to WIO_END may end the job, one to WIO_DMA may fault it. -/
def weftRun (n : Fin 32) (k : Nat) (l : List XSyl) (s : State) : Option State :=
  match l.findSome? (XSyl.weftFault (s.eng n).cpu) with
  | some f => some (weftFault n f s)
  | none =>
    let t := s.modWeft n Cpu.iterate
    let c := (t.eng n).cpu
    if weftWaits n l c t then none
    else
      let next := c.pc + BitVec.ofNat 32 (4 * k)
      let writes := l.flatMap (fun x => x.result c ++ x.inc c ++ x.link next ++ x.weftSpecial n t) ++ weftLoads n l c t
      let s1 := l.foldl (XSyl.weftEffect n c) t
      let s2 := s1.modWeft n (fun q => q.puts writes)
      let s3 := match storesOf c l with
        | some (sz, st) => st.foldl (weftStore n (sizeBytes sz)) s2
        | none => s2
      if (s3.eng n).st != .running then some s3
      else match l.find? (fun x => x.y.op.fmt == .p) with
        | some x => some (s3.modWeft n (fun q => q.repeat_ x.y))
        | none => some (s3.modWeft n (fun q => q.advance k (l.findSome? (XSyl.target c c.pc))))

/-- R141: the line of an address enters the instruction buffer of 64 lines, 4 ways of 16 sets. Which line of a full set it
replaces the spec does not say; the model takes the oldest (log entry 35): writes empty the buffer (R143), so the choice
shows nowhere. -/
def fillBuf (l : List Nat) (pc : Nat) : List Nat :=
  let x := pc / 32
  if l.contains x then l
  else
    let set := (l.filter (fun y => y % 16 == x % 16)).take 3
    x :: l.filter (fun y => y % 16 != x % 16 || set.contains y)

/-- A bundle of an engine. None: it waits. -/
def weftBundle (n : Fin 32) (b : List Syl) (stop : Bool) (s : State) : Option State :=
  let k := b.length
  let c := (s.eng n).cpu
  if 0x10000 < c.pc.toNat + 4 * k then some (weftFault n .fetch s)
  else
  let s := s.modEng n (fun e => { e with ibuf := (List.range k).foldl (fun l i => fillBuf l (c.pc.toNat + 4 * i)) e.ibuf })
  match (c.rep.bind (·.before)).filter (fun _ => badBody b) with
  | some (at_, _) => some (weftFault n .illegal (s.modWeft n (fun q => { q with pc := at_ })))
  | none =>
  if c.skips then some (s.modWeft n (fun q => { q with rep := none, pc := q.pc + BitVec.ofNat 32 (4 * k) }))
  else match legal true stop b with
    | none => some (weftFault n .illegal s)
    | some l => weftRun n k l s

/-- A syllable reaches an engine. -/
def weftSyllable (n : Fin 32) (stop : Bool) (y : Syl) (s : State) : State :=
  if !(s.weftRuns n) then s
  else
    let b := (s.eng n).cpu.open_ ++ [y]
    if !stop && decide (b.length < 4) then s.modWeft n (fun c => { c with open_ := b })
    else (weftBundle n b stop (s.modWeft n (fun c => { c with open_ := [] }))).getD s

/-- A syllable of a program, at its agent. -/
def syllable (ag : Agent) (stop : Bool) (y : Syl) (s : State) : Out :=
  .next (match ag with
    | .core => coreSyllable stop y s
    | .weft n => weftSyllable n stop y s)

end Sys2Proof.Machine
end

