-- ==== Sys2Proof/Machine/SylCode.lean ====
section
/-! DEFINITION. Machine/SylCode.lean: how a 32-bit word spells a syllable (R112, R120, R140): the opcode in bits 30:24 picks
the operation and its format, bit 31 is the stop bit, and the format places the fields. -/
namespace Sys2Proof.Machine

/-- The opcodes of R120 and R140. -/
def opTable : List (Nat × Op) :=
  [(0x00, .add), (0x01, .sub), (0x02, .and), (0x03, .or), (0x04, .xor), (0x05, .shl), (0x06, .shr), (0x07, .sar),
   (0x08, .min), (0x09, .max), (0x0A, .minu), (0x0B, .maxu), (0x0C, .cmpeq), (0x0D, .cmpne), (0x0E, .cmplt),
   (0x0F, .cmpltu), (0x10, .cmple), (0x11, .cmpleu), (0x12, .sel), (0x13, .clz), (0x14, .sextb), (0x15, .sexth),
   (0x16, .zexth)] ++
  [(0x20, .addi), (0x21, .andi), (0x22, .ori), (0x23, .xori), (0x24, .shli), (0x25, .shri), (0x26, .sari),
   (0x27, .cmpeqi), (0x28, .cmpnei), (0x29, .cmplti), (0x2A, .cmpltui), (0x2B, .cmplei), (0x2C, .cmpleui)] ++
  [(0x30, .bz), (0x31, .bnz), (0x32, .j), (0x33, .call), (0x34, .jr), (0x35, .callr), (0x36, .eret), (0x37, .sys),
   (0x38, .brk)] ++
  [(0x40, .mul), (0x41, .mulh), (0x42, .mulhu), (0x43, .mac), (0x44, .mac16), (0x45, .div), (0x46, .divu), (0x47, .rem),
   (0x48, .remu), (0x4A, .cmul), (0x4B, .cmac), (0x4C, .cadd), (0x4D, .csub), (0x4E, .cmag2), (0x4F, .corr)] ++
  [(0x50, .ldb), (0x51, .ldbu), (0x52, .ldh), (0x53, .ldhu), (0x54, .ldw), (0x55, .ldp), (0x56, .ldwpi), (0x58, .stb),
   (0x59, .sth), (0x5A, .stw), (0x5B, .stp), (0x5C, .stwpi), (0x5E, .dinv), (0x5F, .fence)] ++
  [(0x60, .mfsr), (0x61, .mtsr), (0x62, .iinv), (0x63, .iex), (0x65, .acs), (0x66, .lms), (0x70, .repi), (0x71, .repir),
   (0x72, .repn), (0x7F, .k)]

/-- The operation of an opcode; any opcode that the tables do not list is undefined (R120). -/
def opOf (n : Nat) : Op := ((opTable.find? (fun e => e.1 == n)).map (·.2)).getD .undef

/-- The opcode of an operation; none for the undefined one. -/
def Op.code (o : Op) : Option Nat := (opTable.find? (fun e => e.2 == o)).map (·.1)

/-- R112: the syllable that a word spells, and its stop bit. -/
def decodeSyl (w : Word) : Bool × Syl :=
  let op := opOf (w.extractLsb' 24 7).toNat
  let rd := w.extractLsb' 19 5
  let rs1 := w.extractLsb' 14 5
  (w.getLsbD 31, match op.fmt with
    | .r => { op := op, rd := rd, rs1 := rs1, rs2 := w.extractLsb' 9 5, fn := w.extractLsb' 0 9 }
    | .i | .p => { op := op, rd := rd, rs1 := rs1, imm := (w.extractLsb' 0 14).setWidth 24 }
    | .b => { op := op, rs1 := rd, imm := (w.extractLsb' 0 19).setWidth 24 }
    | .j | .k => { op := op, imm := w.extractLsb' 0 24 })

/-- R112: the word of a syllable with its stop bit. -/
def encodeSyl (stop : Bool) (y : Syl) : Word :=
  let fields : BitVec 24 := match y.op.fmt with
    | .r => y.rd ++ y.rs1 ++ y.rs2 ++ y.fn
    | .i | .p => y.rd ++ y.rs1 ++ (y.imm.setWidth 14)
    | .b => y.rs1 ++ (y.imm.setWidth 19)
    | .j | .k => y.imm
  (BitVec.ofBool stop ++ (BitVec.ofNat 7 (y.op.code.getD 0)) ++ fields : BitVec 32)

/-- The syllable holds nothing outside the fields of its format. -/
def Syl.inFormat (y : Syl) : Bool :=
  match y.op.fmt with
  | .r => y.op != .undef && y.imm == 0
  | .i | .p => y.rs2 == 0 && y.fn == 0 && decide (y.imm.toNat < 2 ^ 14)
  | .b => y.rd == 0 && y.rs2 == 0 && y.fn == 0 && decide (y.imm.toNat < 2 ^ 19)
  | .j | .k => y.rd == 0 && y.rs1 == 0 && y.rs2 == 0 && y.fn == 0

/-- A word of a program at its agent. -/
def wordTo (ag : Agent) (w : Word) (s : State) : Out := syllable ag (decodeSyl w).1 (decodeSyl w).2 s

end Sys2Proof.Machine
end

