-- ==== Sys2Proof/Machine/Syllables.lean ====
section
/-! DEFINITION. Machine/Syllables.lean: the rows of the Ewedo instruction set (R120, R128, R140). Each brings one syllable
to its agent: `stop` is bit 0, the operands are the fields of its format (R112). -/
namespace Sys2Proof.Machine

/-- ADD (R120): rd = rs1 + rs2. -/
def execAdd (ag : Agent) (stop : Bool) (rd rs1 rs2 : BitVec 5) (fn : BitVec 9) (s : State) : Out :=
  syllable ag stop { op := .add, rd := rd, rs1 := rs1, rs2 := rs2, fn := fn } s

/-- SUB (R120): rd = rs1 − rs2. -/
def execSub (ag : Agent) (stop : Bool) (rd rs1 rs2 : BitVec 5) (fn : BitVec 9) (s : State) : Out :=
  syllable ag stop { op := .sub, rd := rd, rs1 := rs1, rs2 := rs2, fn := fn } s

/-- AND (R120): Bitwise AND. -/
def execAndR (ag : Agent) (stop : Bool) (rd rs1 rs2 : BitVec 5) (fn : BitVec 9) (s : State) : Out :=
  syllable ag stop { op := .and, rd := rd, rs1 := rs1, rs2 := rs2, fn := fn } s

/-- OR (R120): Bitwise OR. -/
def execOrR (ag : Agent) (stop : Bool) (rd rs1 rs2 : BitVec 5) (fn : BitVec 9) (s : State) : Out :=
  syllable ag stop { op := .or, rd := rd, rs1 := rs1, rs2 := rs2, fn := fn } s

/-- XOR (R120): Bitwise XOR. -/
def execXorR (ag : Agent) (stop : Bool) (rd rs1 rs2 : BitVec 5) (fn : BitVec 9) (s : State) : Out :=
  syllable ag stop { op := .xor, rd := rd, rs1 := rs1, rs2 := rs2, fn := fn } s

/-- SHL (R120): Shift left by rs2[4:0]. -/
def execShl (ag : Agent) (stop : Bool) (rd rs1 rs2 : BitVec 5) (fn : BitVec 9) (s : State) : Out :=
  syllable ag stop { op := .shl, rd := rd, rs1 := rs1, rs2 := rs2, fn := fn } s

/-- SHR (R120): Logical shift right by rs2[4:0]. -/
def execShr (ag : Agent) (stop : Bool) (rd rs1 rs2 : BitVec 5) (fn : BitVec 9) (s : State) : Out :=
  syllable ag stop { op := .shr, rd := rd, rs1 := rs1, rs2 := rs2, fn := fn } s

/-- SAR (R120): Arithmetic shift right by rs2[4:0]. -/
def execSar (ag : Agent) (stop : Bool) (rd rs1 rs2 : BitVec 5) (fn : BitVec 9) (s : State) : Out :=
  syllable ag stop { op := .sar, rd := rd, rs1 := rs1, rs2 := rs2, fn := fn } s

/-- MIN (R120): Signed minimum. -/
def execMinS (ag : Agent) (stop : Bool) (rd rs1 rs2 : BitVec 5) (fn : BitVec 9) (s : State) : Out :=
  syllable ag stop { op := .min, rd := rd, rs1 := rs1, rs2 := rs2, fn := fn } s

/-- MAX (R120): Signed maximum. -/
def execMaxS (ag : Agent) (stop : Bool) (rd rs1 rs2 : BitVec 5) (fn : BitVec 9) (s : State) : Out :=
  syllable ag stop { op := .max, rd := rd, rs1 := rs1, rs2 := rs2, fn := fn } s

/-- MINU (R120): Unsigned minimum. -/
def execMinu (ag : Agent) (stop : Bool) (rd rs1 rs2 : BitVec 5) (fn : BitVec 9) (s : State) : Out :=
  syllable ag stop { op := .minu, rd := rd, rs1 := rs1, rs2 := rs2, fn := fn } s

/-- MAXU (R120): Unsigned maximum. -/
def execMaxu (ag : Agent) (stop : Bool) (rd rs1 rs2 : BitVec 5) (fn : BitVec 9) (s : State) : Out :=
  syllable ag stop { op := .maxu, rd := rd, rs1 := rs1, rs2 := rs2, fn := fn } s

/-- CMPEQ (R120): rd = 1 when rs1 equals rs2. -/
def execCmpeq (ag : Agent) (stop : Bool) (rd rs1 rs2 : BitVec 5) (fn : BitVec 9) (s : State) : Out :=
  syllable ag stop { op := .cmpeq, rd := rd, rs1 := rs1, rs2 := rs2, fn := fn } s

/-- CMPNE (R120): rd = 1 when rs1 differs from rs2. -/
def execCmpne (ag : Agent) (stop : Bool) (rd rs1 rs2 : BitVec 5) (fn : BitVec 9) (s : State) : Out :=
  syllable ag stop { op := .cmpne, rd := rd, rs1 := rs1, rs2 := rs2, fn := fn } s

/-- CMPLT (R120): rd = 1 when rs1 < rs2 signed. -/
def execCmplt (ag : Agent) (stop : Bool) (rd rs1 rs2 : BitVec 5) (fn : BitVec 9) (s : State) : Out :=
  syllable ag stop { op := .cmplt, rd := rd, rs1 := rs1, rs2 := rs2, fn := fn } s

/-- CMPLTU (R120): rd = 1 when rs1 < rs2 unsigned. -/
def execCmpltu (ag : Agent) (stop : Bool) (rd rs1 rs2 : BitVec 5) (fn : BitVec 9) (s : State) : Out :=
  syllable ag stop { op := .cmpltu, rd := rd, rs1 := rs1, rs2 := rs2, fn := fn } s

/-- CMPLE (R120): rd = 1 when rs1 ≤ rs2 signed. -/
def execCmple (ag : Agent) (stop : Bool) (rd rs1 rs2 : BitVec 5) (fn : BitVec 9) (s : State) : Out :=
  syllable ag stop { op := .cmple, rd := rd, rs1 := rs1, rs2 := rs2, fn := fn } s

/-- CMPLEU (R120): rd = 1 when rs1 ≤ rs2 unsigned. -/
def execCmpleu (ag : Agent) (stop : Bool) (rd rs1 rs2 : BitVec 5) (fn : BitVec 9) (s : State) : Out :=
  syllable ag stop { op := .cmpleu, rd := rd, rs1 := rs1, rs2 := rs2, fn := fn } s

/-- SEL (R120): rd = rs1 when the register named by fn is nonzero, else rs2. -/
def execSel (ag : Agent) (stop : Bool) (rd rs1 rs2 : BitVec 5) (fn : BitVec 9) (s : State) : Out :=
  syllable ag stop { op := .sel, rd := rd, rs1 := rs1, rs2 := rs2, fn := fn } s

/-- CLZ (R120): rd = leading zeros of rs1. -/
def execClz (ag : Agent) (stop : Bool) (rd rs1 rs2 : BitVec 5) (fn : BitVec 9) (s : State) : Out :=
  syllable ag stop { op := .clz, rd := rd, rs1 := rs1, rs2 := rs2, fn := fn } s

/-- SEXTB (R120): Sign-extend the low byte. -/
def execSextb (ag : Agent) (stop : Bool) (rd rs1 rs2 : BitVec 5) (fn : BitVec 9) (s : State) : Out :=
  syllable ag stop { op := .sextb, rd := rd, rs1 := rs1, rs2 := rs2, fn := fn } s

/-- SEXTH (R120): Sign-extend the low halfword. -/
def execSexth (ag : Agent) (stop : Bool) (rd rs1 rs2 : BitVec 5) (fn : BitVec 9) (s : State) : Out :=
  syllable ag stop { op := .sexth, rd := rd, rs1 := rs1, rs2 := rs2, fn := fn } s

/-- ZEXTH (R120): Zero-extend the low halfword. -/
def execZexth (ag : Agent) (stop : Bool) (rd rs1 rs2 : BitVec 5) (fn : BitVec 9) (s : State) : Out :=
  syllable ag stop { op := .zexth, rd := rd, rs1 := rs1, rs2 := rs2, fn := fn } s

/-- ERET (R133): Return from entry: STATUS from ESTATUS and resume at EPC under the repeat rules. -/
def execEret (ag : Agent) (stop : Bool) (rd rs1 rs2 : BitVec 5) (fn : BitVec 9) (s : State) : Out :=
  syllable ag stop { op := .eret, rd := rd, rs1 := rs1, rs2 := rs2, fn := fn } s

/-- MUL (R120): Low 32 bits of rs1 × rs2. -/
def execMul (ag : Agent) (stop : Bool) (rd rs1 rs2 : BitVec 5) (fn : BitVec 9) (s : State) : Out :=
  syllable ag stop { op := .mul, rd := rd, rs1 := rs1, rs2 := rs2, fn := fn } s

/-- MULH (R120): High 32 bits of the signed product. -/
def execMulh (ag : Agent) (stop : Bool) (rd rs1 rs2 : BitVec 5) (fn : BitVec 9) (s : State) : Out :=
  syllable ag stop { op := .mulh, rd := rd, rs1 := rs1, rs2 := rs2, fn := fn } s

/-- MULHU (R120): High 32 bits of the unsigned product. -/
def execMulhu (ag : Agent) (stop : Bool) (rd rs1 rs2 : BitVec 5) (fn : BitVec 9) (s : State) : Out :=
  syllable ag stop { op := .mulhu, rd := rd, rs1 := rs1, rs2 := rs2, fn := fn } s

/-- MAC (R120): rd = rd + rs1 × rs2. -/
def execMulAcc (ag : Agent) (stop : Bool) (rd rs1 rs2 : BitVec 5) (fn : BitVec 9) (s : State) : Out :=
  syllable ag stop { op := .mac, rd := rd, rs1 := rs1, rs2 := rs2, fn := fn } s

/-- MAC16 (R120): rd plus both signed halfword products. -/
def execMac16 (ag : Agent) (stop : Bool) (rd rs1 rs2 : BitVec 5) (fn : BitVec 9) (s : State) : Out :=
  syllable ag stop { op := .mac16, rd := rd, rs1 := rs1, rs2 := rs2, fn := fn } s

/-- DIV (R120): Signed quotient, never trapping. -/
def execDiv (ag : Agent) (stop : Bool) (rd rs1 rs2 : BitVec 5) (fn : BitVec 9) (s : State) : Out :=
  syllable ag stop { op := .div, rd := rd, rs1 := rs1, rs2 := rs2, fn := fn } s

/-- DIVU (R120): Unsigned quotient, never trapping. -/
def execDivu (ag : Agent) (stop : Bool) (rd rs1 rs2 : BitVec 5) (fn : BitVec 9) (s : State) : Out :=
  syllable ag stop { op := .divu, rd := rd, rs1 := rs1, rs2 := rs2, fn := fn } s

/-- REM (R120): Signed remainder. -/
def execRem (ag : Agent) (stop : Bool) (rd rs1 rs2 : BitVec 5) (fn : BitVec 9) (s : State) : Out :=
  syllable ag stop { op := .rem, rd := rd, rs1 := rs1, rs2 := rs2, fn := fn } s

/-- REMU (R120): Unsigned remainder. -/
def execRemu (ag : Agent) (stop : Bool) (rd rs1 rs2 : BitVec 5) (fn : BitVec 9) (s : State) : Out :=
  syllable ag stop { op := .remu, rd := rd, rs1 := rs1, rs2 := rs2, fn := fn } s

/-- CMUL (R140): Weft complex multiply with shift and saturation. -/
def execCmul (ag : Agent) (stop : Bool) (rd rs1 rs2 : BitVec 5) (fn : BitVec 9) (s : State) : Out :=
  syllable ag stop { op := .cmul, rd := rd, rs1 := rs1, rs2 := rs2, fn := fn } s

/-- CMAC (R140): Weft complex multiply-accumulate. -/
def execCmac (ag : Agent) (stop : Bool) (rd rs1 rs2 : BitVec 5) (fn : BitVec 9) (s : State) : Out :=
  syllable ag stop { op := .cmac, rd := rd, rs1 := rs1, rs2 := rs2, fn := fn } s

/-- CADD (R140): Weft per-half complex sum. -/
def execCadd (ag : Agent) (stop : Bool) (rd rs1 rs2 : BitVec 5) (fn : BitVec 9) (s : State) : Out :=
  syllable ag stop { op := .cadd, rd := rd, rs1 := rs1, rs2 := rs2, fn := fn } s

/-- CSUB (R140): Weft per-half complex difference. -/
def execCsub (ag : Agent) (stop : Bool) (rd rs1 rs2 : BitVec 5) (fn : BitVec 9) (s : State) : Out :=
  syllable ag stop { op := .csub, rd := rd, rs1 := rs1, rs2 := rs2, fn := fn } s

/-- CMAG2 (R140): Weft I² + Q² of rs1. -/
def execCmag2 (ag : Agent) (stop : Bool) (rd rs1 rs2 : BitVec 5) (fn : BitVec 9) (s : State) : Out :=
  syllable ag stop { op := .cmag2, rd := rd, rs1 := rs1, rs2 := rs2, fn := fn } s

/-- CORR (R140): Weft correlation step by popcount of XOR. -/
def execCorr (ag : Agent) (stop : Bool) (rd rs1 rs2 : BitVec 5) (fn : BitVec 9) (s : State) : Out :=
  syllable ag stop { op := .corr, rd := rd, rs1 := rs1, rs2 := rs2, fn := fn } s

/-- ACS (R140): Weft Viterbi add-compare-select updating DEC. -/
def execAcs (ag : Agent) (stop : Bool) (rd rs1 rs2 : BitVec 5) (fn : BitVec 9) (s : State) : Out :=
  syllable ag stop { op := .acs, rd := rd, rs1 := rs1, rs2 := rs2, fn := fn } s

/-- LMS (R140): Weft LMS tap update. -/
def execLms (ag : Agent) (stop : Bool) (rd rs1 rs2 : BitVec 5) (fn : BitVec 9) (s : State) : Out :=
  syllable ag stop { op := .lms, rd := rd, rs1 := rs1, rs2 := rs2, fn := fn } s

/-- FENCE (R120): Complete when every earlier store has completed on the bus. -/
def execFence (ag : Agent) (stop : Bool) (rd rs1 rs2 : BitVec 5) (fn : BitVec 9) (s : State) : Out :=
  syllable ag stop { op := .fence, rd := rd, rs1 := rs1, rs2 := rs2, fn := fn } s

/-- IINV (R124): Invalidate the whole I-cache. -/
def execIinv (ag : Agent) (stop : Bool) (rd rs1 rs2 : BitVec 5) (fn : BitVec 9) (s : State) : Out :=
  syllable ag stop { op := .iinv, rd := rd, rs1 := rs1, rs2 := rs2, fn := fn } s

/-- ADDI (R120): rd = rs1 + immediate. -/
def execAddi (ag : Agent) (stop : Bool) (rd rs1 : BitVec 5) (imm : BitVec 14) (s : State) : Out :=
  syllable ag stop { op := .addi, rd := rd, rs1 := rs1, imm := imm.setWidth 24 } s

/-- ANDI (R120): rd = rs1 AND immediate. -/
def execAndi (ag : Agent) (stop : Bool) (rd rs1 : BitVec 5) (imm : BitVec 14) (s : State) : Out :=
  syllable ag stop { op := .andi, rd := rd, rs1 := rs1, imm := imm.setWidth 24 } s

/-- ORI (R120): rd = rs1 OR immediate. -/
def execOri (ag : Agent) (stop : Bool) (rd rs1 : BitVec 5) (imm : BitVec 14) (s : State) : Out :=
  syllable ag stop { op := .ori, rd := rd, rs1 := rs1, imm := imm.setWidth 24 } s

/-- XORI (R120): rd = rs1 XOR immediate. -/
def execXori (ag : Agent) (stop : Bool) (rd rs1 : BitVec 5) (imm : BitVec 14) (s : State) : Out :=
  syllable ag stop { op := .xori, rd := rd, rs1 := rs1, imm := imm.setWidth 24 } s

/-- SHLI (R120): Shift left by immediate. -/
def execShli (ag : Agent) (stop : Bool) (rd rs1 : BitVec 5) (imm : BitVec 14) (s : State) : Out :=
  syllable ag stop { op := .shli, rd := rd, rs1 := rs1, imm := imm.setWidth 24 } s

/-- SHRI (R120): Logical shift right by immediate. -/
def execShri (ag : Agent) (stop : Bool) (rd rs1 : BitVec 5) (imm : BitVec 14) (s : State) : Out :=
  syllable ag stop { op := .shri, rd := rd, rs1 := rs1, imm := imm.setWidth 24 } s

/-- SARI (R120): Arithmetic shift right by immediate. -/
def execSari (ag : Agent) (stop : Bool) (rd rs1 : BitVec 5) (imm : BitVec 14) (s : State) : Out :=
  syllable ag stop { op := .sari, rd := rd, rs1 := rs1, imm := imm.setWidth 24 } s

/-- CMPEQI (R120): Compare equal against immediate. -/
def execCmpeqi (ag : Agent) (stop : Bool) (rd rs1 : BitVec 5) (imm : BitVec 14) (s : State) : Out :=
  syllable ag stop { op := .cmpeqi, rd := rd, rs1 := rs1, imm := imm.setWidth 24 } s

/-- CMPNEI (R120): Compare not equal against immediate. -/
def execCmpnei (ag : Agent) (stop : Bool) (rd rs1 : BitVec 5) (imm : BitVec 14) (s : State) : Out :=
  syllable ag stop { op := .cmpnei, rd := rd, rs1 := rs1, imm := imm.setWidth 24 } s

/-- CMPLTI (R120): Signed less-than against immediate. -/
def execCmplti (ag : Agent) (stop : Bool) (rd rs1 : BitVec 5) (imm : BitVec 14) (s : State) : Out :=
  syllable ag stop { op := .cmplti, rd := rd, rs1 := rs1, imm := imm.setWidth 24 } s

/-- CMPLTUI (R120): Unsigned less-than against immediate. -/
def execCmpltui (ag : Agent) (stop : Bool) (rd rs1 : BitVec 5) (imm : BitVec 14) (s : State) : Out :=
  syllable ag stop { op := .cmpltui, rd := rd, rs1 := rs1, imm := imm.setWidth 24 } s

/-- CMPLEI (R120): Signed less-or-equal against immediate. -/
def execCmplei (ag : Agent) (stop : Bool) (rd rs1 : BitVec 5) (imm : BitVec 14) (s : State) : Out :=
  syllable ag stop { op := .cmplei, rd := rd, rs1 := rs1, imm := imm.setWidth 24 } s

/-- CMPLEUI (R120): Unsigned less-or-equal against immediate. -/
def execCmpleui (ag : Agent) (stop : Bool) (rd rs1 : BitVec 5) (imm : BitVec 14) (s : State) : Out :=
  syllable ag stop { op := .cmpleui, rd := rd, rs1 := rs1, imm := imm.setWidth 24 } s

/-- JR (R121): Jump to rs1. -/
def execJr (ag : Agent) (stop : Bool) (rd rs1 : BitVec 5) (imm : BitVec 14) (s : State) : Out :=
  syllable ag stop { op := .jr, rd := rd, rs1 := rs1, imm := imm.setWidth 24 } s

/-- CALLR (R121): Jump to rs1 and write the return address to g31. -/
def execCallr (ag : Agent) (stop : Bool) (rd rs1 : BitVec 5) (imm : BitVec 14) (s : State) : Out :=
  syllable ag stop { op := .callr, rd := rd, rs1 := rs1, imm := imm.setWidth 24 } s

/-- SYS (R131): Raise the SYS exception with EADDR = imm14[11:0]. -/
def execSys (ag : Agent) (stop : Bool) (rd rs1 : BitVec 5) (imm : BitVec 14) (s : State) : Out :=
  syllable ag stop { op := .sys, rd := rd, rs1 := rs1, imm := imm.setWidth 24 } s

/-- BRK (R131): Raise BRK, or stop a Weft job with fault BRK. -/
def execBrk (ag : Agent) (stop : Bool) (rd rs1 : BitVec 5) (imm : BitVec 14) (s : State) : Out :=
  syllable ag stop { op := .brk, rd := rd, rs1 := rs1, imm := imm.setWidth 24 } s

/-- LDB (R122): Load sign-extended byte. -/
def execLdb (ag : Agent) (stop : Bool) (rd rs1 : BitVec 5) (imm : BitVec 14) (s : State) : Out :=
  syllable ag stop { op := .ldb, rd := rd, rs1 := rs1, imm := imm.setWidth 24 } s

/-- LDBU (R122): Load zero-extended byte. -/
def execLdbu (ag : Agent) (stop : Bool) (rd rs1 : BitVec 5) (imm : BitVec 14) (s : State) : Out :=
  syllable ag stop { op := .ldbu, rd := rd, rs1 := rs1, imm := imm.setWidth 24 } s

/-- LDH (R122): Load sign-extended halfword. -/
def execLdh (ag : Agent) (stop : Bool) (rd rs1 : BitVec 5) (imm : BitVec 14) (s : State) : Out :=
  syllable ag stop { op := .ldh, rd := rd, rs1 := rs1, imm := imm.setWidth 24 } s

/-- LDHU (R122): Load zero-extended halfword. -/
def execLdhu (ag : Agent) (stop : Bool) (rd rs1 : BitVec 5) (imm : BitVec 14) (s : State) : Out :=
  syllable ag stop { op := .ldhu, rd := rd, rs1 := rs1, imm := imm.setWidth 24 } s

/-- LDW (R122): Load word. -/
def execLdw (ag : Agent) (stop : Bool) (rd rs1 : BitVec 5) (imm : BitVec 14) (s : State) : Out :=
  syllable ag stop { op := .ldw, rd := rd, rs1 := rs1, imm := imm.setWidth 24 } s

/-- LDP (R122): Load two consecutive words into rd and rd + 1. -/
def execLdp (ag : Agent) (stop : Bool) (rd rs1 : BitVec 5) (imm : BitVec 14) (s : State) : Out :=
  syllable ag stop { op := .ldp, rd := rd, rs1 := rs1, imm := imm.setWidth 24 } s

/-- LDW_PI (R120): Load word at rs1, then add the immediate to rs1. -/
def execLdwPi (ag : Agent) (stop : Bool) (rd rs1 : BitVec 5) (imm : BitVec 14) (s : State) : Out :=
  syllable ag stop { op := .ldwpi, rd := rd, rs1 := rs1, imm := imm.setWidth 24 } s

/-- STB (R122): Store byte. -/
def execStb (ag : Agent) (stop : Bool) (rd rs1 : BitVec 5) (imm : BitVec 14) (s : State) : Out :=
  syllable ag stop { op := .stb, rd := rd, rs1 := rs1, imm := imm.setWidth 24 } s

/-- STH (R122): Store halfword. -/
def execSth (ag : Agent) (stop : Bool) (rd rs1 : BitVec 5) (imm : BitVec 14) (s : State) : Out :=
  syllable ag stop { op := .sth, rd := rd, rs1 := rs1, imm := imm.setWidth 24 } s

/-- STW (R122): Store word. -/
def execStw (ag : Agent) (stop : Bool) (rd rs1 : BitVec 5) (imm : BitVec 14) (s : State) : Out :=
  syllable ag stop { op := .stw, rd := rd, rs1 := rs1, imm := imm.setWidth 24 } s

/-- STP (R122): Store two consecutive words. -/
def execStp (ag : Agent) (stop : Bool) (rd rs1 : BitVec 5) (imm : BitVec 14) (s : State) : Out :=
  syllable ag stop { op := .stp, rd := rd, rs1 := rs1, imm := imm.setWidth 24 } s

/-- STW_PI (R120): Store word at rs1, then add the immediate to rs1. -/
def execStwPi (ag : Agent) (stop : Bool) (rd rs1 : BitVec 5) (imm : BitVec 14) (s : State) : Out :=
  syllable ag stop { op := .stwpi, rd := rd, rs1 := rs1, imm := imm.setWidth 24 } s

/-- DINV (R124): Invalidate the D-cache line holding the address. -/
def execDinv (ag : Agent) (stop : Bool) (rd rs1 : BitVec 5) (imm : BitVec 14) (s : State) : Out :=
  syllable ag stop { op := .dinv, rd := rd, rs1 := rs1, imm := imm.setWidth 24 } s

/-- MFSR (R119): Read a special register. -/
def execMfsr (ag : Agent) (stop : Bool) (rd rs1 : BitVec 5) (imm : BitVec 14) (s : State) : Out :=
  syllable ag stop { op := .mfsr, rd := rd, rs1 := rs1, imm := imm.setWidth 24 } s

/-- MTSR (R119): Write a special register, effective from the next bundle. -/
def execMtsr (ag : Agent) (stop : Bool) (rd rs1 : BitVec 5) (imm : BitVec 14) (s : State) : Out :=
  syllable ag stop { op := .mtsr, rd := rd, rs1 := rs1, imm := imm.setWidth 24 } s

/-- IEX (R120): Read STATUS.IE into rd and set it from the immediate. -/
def execIex (ag : Agent) (stop : Bool) (rd rs1 : BitVec 5) (imm : BitVec 14) (s : State) : Out :=
  syllable ag stop { op := .iex, rd := rd, rs1 := rs1, imm := imm.setWidth 24 } s

/-- K (R114): Constant extension of the preceding I-format syllable to a full 32-bit value. -/
def execKExt (ag : Agent) (stop : Bool) (k : BitVec 24) (s : State) : Out :=
  syllable ag stop { op := .k, imm := k } s

/-- BZ (R121): Branch when rs = 0. -/
def execBz (ag : Agent) (stop : Bool) (rs : BitVec 5) (off : BitVec 19) (s : State) : Out :=
  syllable ag stop { op := .bz, rs1 := rs, imm := off.setWidth 24 } s

/-- BNZ (R121): Branch when rs ≠ 0. -/
def execBnz (ag : Agent) (stop : Bool) (rs : BitVec 5) (off : BitVec 19) (s : State) : Out :=
  syllable ag stop { op := .bnz, rs1 := rs, imm := off.setWidth 24 } s

/-- J (R121): Jump relative. -/
def execJump (ag : Agent) (stop : Bool) (off : BitVec 24) (s : State) : Out :=
  syllable ag stop { op := .j, imm := off } s

/-- CALL (R121): Jump relative and write the return address to g31. -/
def execCall (ag : Agent) (stop : Bool) (off : BitVec 24) (s : State) : Out :=
  syllable ag stop { op := .call, imm := off } s

/-- REPI (R126): Repeat the next bundle 1 to 1,024 times, interruptible between iterations. -/
def execRepi (ag : Agent) (stop : Bool) (rd rs1 : BitVec 5) (imm : BitVec 14) (s : State) : Out :=
  syllable ag stop { op := .repi, rd := rd, rs1 := rs1, imm := imm.setWidth 24 } s

/-- REPIR (R126): Repeat the next bundle rs1 times. -/
def execRepir (ag : Agent) (stop : Bool) (rd rs1 : BitVec 5) (imm : BitVec 14) (s : State) : Out :=
  syllable ag stop { op := .repir, rd := rd, rs1 := rs1, imm := imm.setWidth 24 } s

/-- REPN (R128): Repeat the next bundle 1 to 64 times without interrupts. -/
def execRepn (ag : Agent) (stop : Bool) (rd rs1 : BitVec 5) (imm : BitVec 14) (s : State) : Out :=
  syllable ag stop { op := .repn, rd := rd, rs1 := rs1, imm := imm.setWidth 24 } s

end Sys2Proof.Machine
end

