-- ==== Sys2Proof/Machine/TwilRows.lean ====
section
/-! DEFINITION. Machine/TwilRows.lean: the commands of the Twill pair (chapter 23) and the TW_LIVE window (R60). -/
namespace Sys2Proof.Machine

/-- HELLO (R482, R486, R501). -/
def execTwillHello (bad : Bool) (ver state role : BitVec 8) (addr : DWord) (kcv : Vector (BitVec 16) 32) (s : State) : Out :=
  .next (onTwil (fun s =>
    if bad then s.sat TWIL_CNT0.ERR
    else twHello ver.toNat state.toNat role.toNat addr.toNat (kcv.toList.map (·.toNat)) s) s)

/-- TICK (R489). The tick index and QUAL are not used. -/
def execTwillTick (h : TwHdr) (_tick : Word) (state _qual : BitVec 8) (origin : DWord) (s : State) : Out :=
  .next (twFrame h (twTick state.toNat origin.toNat) s)

/-- DREQ (R439, R484). -/
def execTwillDreq (h : TwHdr) (turn : BitVec 16) (s : State) : Out := .next (twFrame h (twDreq turn.toNat) s)

/-- DRSP (R439, R484). -/
def execTwillDrsp (h : TwHdr) (t2 t3 : DWord) (s : State) : Out := .next (twFrame h (twDrsp t2.toNat t3.toNat) s)

/-- TBL (R487). -/
def execTwillTbl (h : TwHdr) (idx : BitVec 16) (entry : Vector (BitVec 8) 32) (s : State) : Out :=
  .next (mirrorSeq h (mirrorEntry idx.toNat entry.toList) s)

/-- CTR (R487, R499). -/
def execTwillCtr (h : TwHdr) (pairs : List (BitVec 16 × Word)) (s : State) : Out :=
  .next (mirrorSeq h (fun s => handoverArrived ((pairs.map (fun p => (p.1.toNat, p.2.toNat))).foldl mirrorCounter s)) s)

/-- RES (R487). -/
def execTwillRes (h : TwHdr) (slot : Fin 32) (kcv : DWord) (start : Word) (s : State) : Out :=
  .next (mirrorSeq h (holdRes slot.val (leBytes 8 kcv.toNat) start.toNat) s)

/-- RESACK (R306, R487): the partner holds the reservation. -/
def execTwillResack (h : TwHdr) (slot : Fin 32) (kcv : DWord) (start : Word) (s : State) : Out :=
  .next (twSeq h (fun s =>
    if s.pairState == pairActive && (s.slot slot.val).kcv == leBytes 8 kcv.toNat then
      s.modCtr slot.val (fun c => { c with resv := c.resv.map (fun r => if r.start = start.toNat then { r with ack := true } else r) })
    else s) s)

/-- DICT (R488). -/
def execTwillDict (h : TwHdr) (_gen : Word) (items : List (BitVec 8)) (s : State) : Out := .next (mirrorSeq h (mirrorDict items) s)

/-- TXB (R490): the newest announcements of the active part. -/
def execTwillTxb (h : TwHdr) (first last : DWord) (s : State) : Out :=
  .next (twFrame h (fun s =>
    if s.standby then s.modTwil (fun t => { t with txb := ((first.toNat, last.toNat) :: t.txb).take 16 }) else s) s)

/-- FWD (R491). -/
def execTwillFwd (h : TwHdr) (rxTime : DWord) (desc : Vector (BitVec 8) 32) (psdu : List (BitVec 8)) (s : State) : Out :=
  .next (twFrame h (fun s => if s.pairState == pairActive then fwdFrame rxTime.toNat desc.toList psdu s else s) s)

/-- SYNC (R487). -/
def execTwillSync (h : TwHdr) (kind : BitVec 8) (items : List (BitVec 8)) (s : State) : Out :=
  .next (mirrorSeq h (syncArrives kind.toNat items) s)

/-- RELAY (R498): a request at the active part, a response at the standby. -/
def execTwillRelay (h : TwHdr) (message : List (BitVec 8)) (s : State) : Out :=
  .next (twSeq h (fun s =>
    if s.pairState == pairActive then dictRequest .relay .relay message s
    else if s.standby then relayResponse message s else s) s)

/-- HANDOVER (R499). -/
def execTwillHandover (h : TwHdr) (tick : Word) (s : State) : Out :=
  .next (mirrorSeq h (fun s => s.modTwil (fun t => { t with handoverIn := some tick.toNat })) s)

/-- TWILL_LINK_DOWN (R484, R494, R496). -/
def execTwillLinkDown (s : State) : Out := .next (onTwil (fun s => relaysLost (twLinkDown s)) s)

/-- TWILL_LINK_UP (R484, R486): the active part then starts a full synchronisation. -/
def execTwillLinkUp (s : State) : Out := .next (onTwil (fun s => twilWork (twLinkUp s)) s)

/-- TWILL_RETRANSMIT (R483). -/
def execTwillRetransmit (s : State) : Out := .next (onTwil twRetransmit s)

/-- TWILL_ACK_TIMEOUT (R483): INSYNC clears and a full synchronisation starts. -/
def execTwillAckTimeout (s : State) : Out :=
  .next (onTwil (fun s => if s.on TWIL_STAT.LINK then twilWork (twResync s) else s) s)

/-- STARTWAIT_EXPIRY (R485): with the link down a part in START becomes ACTIVE, or STANDBY beside a live partner. -/
def execStartwaitExpiry (s : State) : Out :=
  .next (onTwil (fun s =>
    if s.pairState != pairStart || s.on TWIL_STAT.LINK then s
    else if s.on TWIL_STAT.PLIVE then splitFollow (becomeStandby s) else becomeActive s) s)

/-- TAKEOVER (R493). -/
def execTwillTakeover (s : State) : Out := .next (onTwil twTakeover s)

/-- YIELD (R499): a write of TWIL_CMD with this bit. -/
def execTwillYield (s : State) : Out := .next (viaBus Reg.TWIL_CMD twYield s)

/-- FORCE (R497). -/
def execTwillForce (s : State) : Out := .next (viaBus Reg.TWIL_CMD twForce s)

/-- RESYNC (R487). -/
def execTwillResync (s : State) : Out := .next (viaBus Reg.TWIL_CMD (fun s => twilWork (twResync s)) s)

/-- TW_LIVE_WINDOW (R60, R485): in its window a part that pulls the line releases and samples it. -/
def execTwLiveWindow (low : Bool) (s : State) : Out :=
  .next (if s.pins.twLive && s.clocked then
    splitFollow ({ s with pins := { s.pins with partnerLive := low } }.putB TWIL_STAT.PLIVE low) else s)

end Sys2Proof.Machine
end

