-- ==== Sys2Proof/Machine/TxEvents.lean ====
section
/-! DEFINITION. Machine/TxEvents.lean: the events of the transmit chain as commands (chapter 11). -/
namespace Sys2Proof.Machine

/-- An event of the chain, in a powered RADIO domain, and what the MAC then does with ended requests. A switch-off that waited
for the transmission takes place when it has ended (R94, R245). -/
def onTx (f : State → State) (s : State) : Out :=
  .next (if !s.radioOn then s
    else
      let t := f s
      if t.power.radioOffDue && !t.txBusy then radioOff t else macGo t)

/-- R233: a request from outside the MAC's own schedule. -/
def execTxRequest (r : TxReq) (s : State) : Out := onTx (txOffer .outside r) s

/-- R238: the time of preparation of a scheduled request. -/
def execTxPrepare (s : State) : Out := onTx (fun s => txPrep (s.modJob (fun j => { j with prepDue := true }))) s

/-- R240: the synthesiser locks. -/
def execTxLock (s : State) : Out := onTx txLocked s

def execLockFail (s : State) : Out := onTx lockFail s

def execCoexReqStart (s : State) : Out := onTx coexReqStart s

/-- R244 step 1. -/
def execSequencerStart (lowBat : Bool) (s : State) : Out := onTx (txStart lowBat) s

def execGntwaitExpiry (s : State) : Out := onTx gntWaitOver s

/-- R244 step 2. -/
def execPaEnable (s : State) : Out := onTx (txAdvance .lead .paOn id) s

/-- R244 step 3; on-air time starts (R252). -/
def execRampUp (s : State) : Out := onTx (fun s => txAdvance .paOn .ramp (fun j => { j with rampAt := some s.now, age := 0 }) s) s

/-- R244 step 5. -/
def execLastSymbol (s : State) : Out := onTx (txAdvance .ramp .down id) s

def execRampDownEnd (s : State) : Out := onTx rampDownEnd s

/-- R244 step 7. -/
def execPaDisable (s : State) : Out := onTx (txAdvance .downEnd .paOff id) s

def execBlankingEnd (s : State) : Out := onTx blankingEnd s

/-- R256: COEX_GNT is withdrawn. -/
def execCoexGrantWithdrawn (s : State) : Out := onTx grantGone s

def execCoexGrant (lowBat : Bool) (s : State) : Out := onTx (coexGranted lowBat) s

/-- R239, R241: the running TX calibration ends; `acp` is the worst adjacent-channel figure the check measured. -/
def execTxCalDone (acp : BitVec 8) (s : State) : Out := onTx (txCalDone acp.toNat) s


/-- R244 step 8: `rl` is the return loss measured (R248). -/
def execLastTxSample (rl : BitVec 8) (s : State) : Out := onTx (txLastSample rl.toNat) s

end Sys2Proof.Machine
end

