-- ==== Sys2Proof/Machine/Dispatch.lean ====
section
/-! DEFINITION. Machine/Dispatch.lean: one arm per command. -/
namespace Sys2Proof.Machine

def exec (i : Instr) (s : State) : Host.Outcome State Fault Refusal :=
  match i with
  | .tickBoundary levels peak => Sys2Proof.Machine.execTickBoundary levels peak s
  | .tailJobRunnable lane => Sys2Proof.Machine.execTailJobRunnable lane s
  | .packetEnd lane => Sys2Proof.Machine.execPacketEnd lane s
  | .commitGo b => Sys2Proof.Machine.execCommitGo b s
  | .commitCheckDone c => Sys2Proof.Machine.execCommitCheckDone c s
  | .groupCommitGo mask => Sys2Proof.Machine.execGroupCommitGo mask s
  | .registerWrite m addr data => Sys2Proof.Machine.execRegisterWrite m addr data s
  | .holdLoRead m addr => Sys2Proof.Machine.execHoldLoRead m addr s
  | .holdHiWrite m addr data => Sys2Proof.Machine.execHoldHiWrite m addr data s
  | .holdLoWrite m addr data => Sys2Proof.Machine.execHoldLoWrite m addr data s
  | .offAccess m addr size write => Sys2Proof.Machine.execOffAccess m addr size write s
  | .decodeError m addr size write => Sys2Proof.Machine.execDecodeError m addr size write s
  | .sizeError m addr size write => Sys2Proof.Machine.execSizeError m addr size write s
  | .storeBus => Sys2Proof.Machine.execStoreBus s
  | .gpioEdge pin level => Sys2Proof.Machine.execGpioEdge pin level s
  | .gpioSet bits => Sys2Proof.Machine.execGpioSet bits s
  | .gpioClr bits => Sys2Proof.Machine.execGpioClr bits s
  | .evmSwpulse bits => Sys2Proof.Machine.execEvmSwpulse bits s
  | .twLiveWindow low => Sys2Proof.Machine.execTwLiveWindow low s
  | .powerOnReset vbackup => Sys2Proof.Machine.execPowerOnReset vbackup s
  | .brownOutReset => Sys2Proof.Machine.execBrownOutReset s
  | .pinReset => Sys2Proof.Machine.execPinReset s
  | .internalResetRelease gp0 gp1 role test => Sys2Proof.Machine.execInternalResetRelease gp0 gp1 role test s
  | .xoStartTimeout gp0 gp1 role test => Sys2Proof.Machine.execXoStartTimeout gp0 gp1 role test s
  | .xoFail => Sys2Proof.Machine.execXoFail s
  | .xtFail => Sys2Proof.Machine.execXtFail s
  | .xtStable => Sys2Proof.Machine.execXtStable s
  | .brownOutWarning => Sys2Proof.Machine.execBrownOutWarning s
  | .backupSwitchover toBackup => Sys2Proof.Machine.execBackupSwitchover toBackup s
  | .wdtCtrlWrite data => Sys2Proof.Machine.execWdtCtrlWrite data s
  | .wdtFeed data => Sys2Proof.Machine.execWdtFeed data s
  | .wdtTimeout => Sys2Proof.Machine.execWdtTimeout s
  | .softReset key => Sys2Proof.Machine.execSoftReset key s
  | .remoteReset => Sys2Proof.Machine.execRemoteReset s
  | .alarmReset => Sys2Proof.Machine.execAlarmReset s
  | .clkgateWrite data => Sys2Proof.Machine.execClkgateWrite data s
  | .domainEnable d => Sys2Proof.Machine.execDomainEnable d s
  | .domainDisable d => Sys2Proof.Machine.execDomainDisable d s
  | .startCalibrationDone failed temp => Sys2Proof.Machine.execStartCalibrationDone failed temp s
  | .enterIdle m => Sys2Proof.Machine.execEnterIdle m s
  | .enterSleep m => Sys2Proof.Machine.execEnterSleep m s
  | .enterDeepSleep m => Sys2Proof.Machine.execEnterDeepSleep m s
  | .enterOff m => Sys2Proof.Machine.execEnterOff m s
  | .drainEnd frame => Sys2Proof.Machine.execDrainEnd frame s
  | .powerDownComplete wakeHigh => Sys2Proof.Machine.execPowerDownComplete wakeHigh s
  | .idleWake => Sys2Proof.Machine.execIdleWake s
  | .wakeRecognised src => Sys2Proof.Machine.execWakeRecognised src s
  | .timedWake => Sys2Proof.Machine.execTimedWake s
  | .wakePin => Sys2Proof.Machine.execWakePin s
  | .pllLock => Sys2Proof.Machine.execPllLock s
  | .deepSleepResume => Sys2Proof.Machine.execDeepSleepResume s
  | .add ag stop rd rs1 rs2 fn => Sys2Proof.Machine.execAdd ag stop rd rs1 rs2 fn s
  | .sub ag stop rd rs1 rs2 fn => Sys2Proof.Machine.execSub ag stop rd rs1 rs2 fn s
  | .andR ag stop rd rs1 rs2 fn => Sys2Proof.Machine.execAndR ag stop rd rs1 rs2 fn s
  | .orR ag stop rd rs1 rs2 fn => Sys2Proof.Machine.execOrR ag stop rd rs1 rs2 fn s
  | .xorR ag stop rd rs1 rs2 fn => Sys2Proof.Machine.execXorR ag stop rd rs1 rs2 fn s
  | .shl ag stop rd rs1 rs2 fn => Sys2Proof.Machine.execShl ag stop rd rs1 rs2 fn s
  | .shr ag stop rd rs1 rs2 fn => Sys2Proof.Machine.execShr ag stop rd rs1 rs2 fn s
  | .sar ag stop rd rs1 rs2 fn => Sys2Proof.Machine.execSar ag stop rd rs1 rs2 fn s
  | .minS ag stop rd rs1 rs2 fn => Sys2Proof.Machine.execMinS ag stop rd rs1 rs2 fn s
  | .maxS ag stop rd rs1 rs2 fn => Sys2Proof.Machine.execMaxS ag stop rd rs1 rs2 fn s
  | .minu ag stop rd rs1 rs2 fn => Sys2Proof.Machine.execMinu ag stop rd rs1 rs2 fn s
  | .maxu ag stop rd rs1 rs2 fn => Sys2Proof.Machine.execMaxu ag stop rd rs1 rs2 fn s
  | .cmpeq ag stop rd rs1 rs2 fn => Sys2Proof.Machine.execCmpeq ag stop rd rs1 rs2 fn s
  | .cmpne ag stop rd rs1 rs2 fn => Sys2Proof.Machine.execCmpne ag stop rd rs1 rs2 fn s
  | .cmplt ag stop rd rs1 rs2 fn => Sys2Proof.Machine.execCmplt ag stop rd rs1 rs2 fn s
  | .cmpltu ag stop rd rs1 rs2 fn => Sys2Proof.Machine.execCmpltu ag stop rd rs1 rs2 fn s
  | .cmple ag stop rd rs1 rs2 fn => Sys2Proof.Machine.execCmple ag stop rd rs1 rs2 fn s
  | .cmpleu ag stop rd rs1 rs2 fn => Sys2Proof.Machine.execCmpleu ag stop rd rs1 rs2 fn s
  | .sel ag stop rd rs1 rs2 fn => Sys2Proof.Machine.execSel ag stop rd rs1 rs2 fn s
  | .clz ag stop rd rs1 rs2 fn => Sys2Proof.Machine.execClz ag stop rd rs1 rs2 fn s
  | .sextb ag stop rd rs1 rs2 fn => Sys2Proof.Machine.execSextb ag stop rd rs1 rs2 fn s
  | .sexth ag stop rd rs1 rs2 fn => Sys2Proof.Machine.execSexth ag stop rd rs1 rs2 fn s
  | .zexth ag stop rd rs1 rs2 fn => Sys2Proof.Machine.execZexth ag stop rd rs1 rs2 fn s
  | .addi ag stop rd rs1 imm => Sys2Proof.Machine.execAddi ag stop rd rs1 imm s
  | .andi ag stop rd rs1 imm => Sys2Proof.Machine.execAndi ag stop rd rs1 imm s
  | .ori ag stop rd rs1 imm => Sys2Proof.Machine.execOri ag stop rd rs1 imm s
  | .xori ag stop rd rs1 imm => Sys2Proof.Machine.execXori ag stop rd rs1 imm s
  | .shli ag stop rd rs1 imm => Sys2Proof.Machine.execShli ag stop rd rs1 imm s
  | .shri ag stop rd rs1 imm => Sys2Proof.Machine.execShri ag stop rd rs1 imm s
  | .sari ag stop rd rs1 imm => Sys2Proof.Machine.execSari ag stop rd rs1 imm s
  | .cmpeqi ag stop rd rs1 imm => Sys2Proof.Machine.execCmpeqi ag stop rd rs1 imm s
  | .cmpnei ag stop rd rs1 imm => Sys2Proof.Machine.execCmpnei ag stop rd rs1 imm s
  | .cmplti ag stop rd rs1 imm => Sys2Proof.Machine.execCmplti ag stop rd rs1 imm s
  | .cmpltui ag stop rd rs1 imm => Sys2Proof.Machine.execCmpltui ag stop rd rs1 imm s
  | .cmplei ag stop rd rs1 imm => Sys2Proof.Machine.execCmplei ag stop rd rs1 imm s
  | .cmpleui ag stop rd rs1 imm => Sys2Proof.Machine.execCmpleui ag stop rd rs1 imm s
  | .kExt ag stop k => Sys2Proof.Machine.execKExt ag stop k s
  | .bz ag stop rs off => Sys2Proof.Machine.execBz ag stop rs off s
  | .bnz ag stop rs off => Sys2Proof.Machine.execBnz ag stop rs off s
  | .jump ag stop off => Sys2Proof.Machine.execJump ag stop off s
  | .call ag stop off => Sys2Proof.Machine.execCall ag stop off s
  | .jr ag stop rd rs1 imm => Sys2Proof.Machine.execJr ag stop rd rs1 imm s
  | .callr ag stop rd rs1 imm => Sys2Proof.Machine.execCallr ag stop rd rs1 imm s
  | .eret ag stop rd rs1 rs2 fn => Sys2Proof.Machine.execEret ag stop rd rs1 rs2 fn s
  | .sys ag stop rd rs1 imm => Sys2Proof.Machine.execSys ag stop rd rs1 imm s
  | .brk ag stop rd rs1 imm => Sys2Proof.Machine.execBrk ag stop rd rs1 imm s
  | .mul ag stop rd rs1 rs2 fn => Sys2Proof.Machine.execMul ag stop rd rs1 rs2 fn s
  | .mulh ag stop rd rs1 rs2 fn => Sys2Proof.Machine.execMulh ag stop rd rs1 rs2 fn s
  | .mulhu ag stop rd rs1 rs2 fn => Sys2Proof.Machine.execMulhu ag stop rd rs1 rs2 fn s
  | .mulAcc ag stop rd rs1 rs2 fn => Sys2Proof.Machine.execMulAcc ag stop rd rs1 rs2 fn s
  | .mac16 ag stop rd rs1 rs2 fn => Sys2Proof.Machine.execMac16 ag stop rd rs1 rs2 fn s
  | .div ag stop rd rs1 rs2 fn => Sys2Proof.Machine.execDiv ag stop rd rs1 rs2 fn s
  | .divu ag stop rd rs1 rs2 fn => Sys2Proof.Machine.execDivu ag stop rd rs1 rs2 fn s
  | .rem ag stop rd rs1 rs2 fn => Sys2Proof.Machine.execRem ag stop rd rs1 rs2 fn s
  | .remu ag stop rd rs1 rs2 fn => Sys2Proof.Machine.execRemu ag stop rd rs1 rs2 fn s
  | .cmul ag stop rd rs1 rs2 fn => Sys2Proof.Machine.execCmul ag stop rd rs1 rs2 fn s
  | .cmac ag stop rd rs1 rs2 fn => Sys2Proof.Machine.execCmac ag stop rd rs1 rs2 fn s
  | .cadd ag stop rd rs1 rs2 fn => Sys2Proof.Machine.execCadd ag stop rd rs1 rs2 fn s
  | .csub ag stop rd rs1 rs2 fn => Sys2Proof.Machine.execCsub ag stop rd rs1 rs2 fn s
  | .cmag2 ag stop rd rs1 rs2 fn => Sys2Proof.Machine.execCmag2 ag stop rd rs1 rs2 fn s
  | .corr ag stop rd rs1 rs2 fn => Sys2Proof.Machine.execCorr ag stop rd rs1 rs2 fn s
  | .acs ag stop rd rs1 rs2 fn => Sys2Proof.Machine.execAcs ag stop rd rs1 rs2 fn s
  | .lms ag stop rd rs1 rs2 fn => Sys2Proof.Machine.execLms ag stop rd rs1 rs2 fn s
  | .ldb ag stop rd rs1 imm => Sys2Proof.Machine.execLdb ag stop rd rs1 imm s
  | .ldbu ag stop rd rs1 imm => Sys2Proof.Machine.execLdbu ag stop rd rs1 imm s
  | .ldh ag stop rd rs1 imm => Sys2Proof.Machine.execLdh ag stop rd rs1 imm s
  | .ldhu ag stop rd rs1 imm => Sys2Proof.Machine.execLdhu ag stop rd rs1 imm s
  | .ldw ag stop rd rs1 imm => Sys2Proof.Machine.execLdw ag stop rd rs1 imm s
  | .ldp ag stop rd rs1 imm => Sys2Proof.Machine.execLdp ag stop rd rs1 imm s
  | .ldwPi ag stop rd rs1 imm => Sys2Proof.Machine.execLdwPi ag stop rd rs1 imm s
  | .stb ag stop rd rs1 imm => Sys2Proof.Machine.execStb ag stop rd rs1 imm s
  | .sth ag stop rd rs1 imm => Sys2Proof.Machine.execSth ag stop rd rs1 imm s
  | .stw ag stop rd rs1 imm => Sys2Proof.Machine.execStw ag stop rd rs1 imm s
  | .stp ag stop rd rs1 imm => Sys2Proof.Machine.execStp ag stop rd rs1 imm s
  | .stwPi ag stop rd rs1 imm => Sys2Proof.Machine.execStwPi ag stop rd rs1 imm s
  | .dinv ag stop rd rs1 imm => Sys2Proof.Machine.execDinv ag stop rd rs1 imm s
  | .fence ag stop rd rs1 rs2 fn => Sys2Proof.Machine.execFence ag stop rd rs1 rs2 fn s
  | .mfsr ag stop rd rs1 imm => Sys2Proof.Machine.execMfsr ag stop rd rs1 imm s
  | .mtsr ag stop rd rs1 imm => Sys2Proof.Machine.execMtsr ag stop rd rs1 imm s
  | .iinv ag stop rd rs1 rs2 fn => Sys2Proof.Machine.execIinv ag stop rd rs1 rs2 fn s
  | .iex ag stop rd rs1 imm => Sys2Proof.Machine.execIex ag stop rd rs1 imm s
  | .repi ag stop rd rs1 imm => Sys2Proof.Machine.execRepi ag stop rd rs1 imm s
  | .repir ag stop rd rs1 imm => Sys2Proof.Machine.execRepir ag stop rd rs1 imm s
  | .repn ag stop rd rs1 imm => Sys2Proof.Machine.execRepn ag stop rd rs1 imm s
  | .interruptEntry => Sys2Proof.Machine.execInterruptEntry s
  | .swLineSet bits => Sys2Proof.Machine.execSwLineSet bits s
  | .swLineClr bits => Sys2Proof.Machine.execSwLineClr bits s
  | .laneIn n len loc remote => Sys2Proof.Machine.execLaneIn n len loc remote s
  | .ctxIn n len loc remote => Sys2Proof.Machine.execCtxIn n len loc remote s
  | .ctxOut n len loc remote => Sys2Proof.Machine.execCtxOut n len loc remote s
  | .sramIn n len loc remote => Sys2Proof.Machine.execSramIn n len loc remote s
  | .sramOut n len loc remote => Sys2Proof.Machine.execSramOut n len loc remote s
  | .macOut n len loc remote => Sys2Proof.Machine.execMacOut n len loc remote s
  | .dmaComplete n => Sys2Proof.Machine.execDmaComplete n s
  | .wioDmawait n rd => Sys2Proof.Machine.execWioDmawait n rd s
  | .wioEnd n status => Sys2Proof.Machine.execWioEnd n status s
  | .wioRemain n v => Sys2Proof.Machine.execWioRemain n v s
  | .jobPost m w0 => Sys2Proof.Machine.execJobPost m w0 s
  | .jobDispatch who => Sys2Proof.Machine.execJobDispatch who s
  | .budgetExceeded n => Sys2Proof.Machine.execBudgetExceeded n s
  | .overbudget n => Sys2Proof.Machine.execOverbudget n s
  | .shtlHalt on => Sys2Proof.Machine.execShtlHalt on s
  | .weftResume n => Sys2Proof.Machine.execWeftResume n s
  | .spanWrite data => Sys2Proof.Machine.execSpanWrite data s
  | .rxRetune band => Sys2Proof.Machine.execRxRetune band s
  | .gainLimitWrite data => Sys2Proof.Machine.execGainLimitWrite data s
  | .clipEvent clip last delay => Sys2Proof.Machine.execClipEvent clip last delay s
  | .clipStep => Sys2Proof.Machine.execClipStep s
  | .gainStep => Sys2Proof.Machine.execGainStep s
  | .agcStep lane rms => Sys2Proof.Machine.execAgcStep lane rms s
  | .energyBlock lane level => Sys2Proof.Machine.execEnergyBlock lane level s
  | .calReqVco force => Sys2Proof.Machine.execCalReqVco force s
  | .calReqAdc force => Sys2Proof.Machine.execCalReqAdc force s
  | .calReqDc force => Sys2Proof.Machine.execCalReqDc force s
  | .calReqIq force => Sys2Proof.Machine.execCalReqIq force s
  | .rxCalStart => Sys2Proof.Machine.execRxCalStart s
  | .calWaitLimit => Sys2Proof.Machine.execCalWaitLimit s
  | .rxCalStepDone failed temp => Sys2Proof.Machine.execRxCalStepDone failed temp s
  | .tempMeasure temp => Sys2Proof.Machine.execTempMeasure temp s
  | .trimUpdate => Sys2Proof.Machine.execTrimUpdate s
  | .sentinelDetection lane metric level fest dgCorr idx part => Sys2Proof.Machine.execSentinelDetection lane metric level fest dgCorr idx part s
  | .sfdMatch lane sfd1 idx time => Sys2Proof.Machine.execSfdMatch lane sfd1 idx time s
  | .sfdTimeout lane => Sys2Proof.Machine.execSfdTimeout lane s
  | .intakeAccept n => Sys2Proof.Machine.execIntakeAccept n s
  | .mswWindowExpiry => Sys2Proof.Machine.execMswWindowExpiry s
  | .txRequest r => Sys2Proof.Machine.execTxRequest r s
  | .txPrepare => Sys2Proof.Machine.execTxPrepare s
  | .txLock => Sys2Proof.Machine.execTxLock s
  | .lockFail => Sys2Proof.Machine.execLockFail s
  | .coexReqStart => Sys2Proof.Machine.execCoexReqStart s
  | .sequencerStart lowBat => Sys2Proof.Machine.execSequencerStart lowBat s
  | .gntwaitExpiry => Sys2Proof.Machine.execGntwaitExpiry s
  | .paEnable => Sys2Proof.Machine.execPaEnable s
  | .rampUp => Sys2Proof.Machine.execRampUp s
  | .lastSymbol => Sys2Proof.Machine.execLastSymbol s
  | .rampDownEnd => Sys2Proof.Machine.execRampDownEnd s
  | .paDisable => Sys2Proof.Machine.execPaDisable s
  | .lastTxSample rl => Sys2Proof.Machine.execLastTxSample rl s
  | .blankingEnd => Sys2Proof.Machine.execBlankingEnd s
  | .coexGrantWithdrawn => Sys2Proof.Machine.execCoexGrantWithdrawn s
  | .firWrite n data => Sys2Proof.Machine.execFirWrite n data s
  | .txCalVco => Sys2Proof.Machine.execTxCalVco s
  | .txCalCheck => Sys2Proof.Machine.execTxCalCheck s
  | .txCalDone acp => Sys2Proof.Machine.execTxCalDone acp s
  | .dutyBucketAdvance => Sys2Proof.Machine.execDutyBucketAdvance s
  | .linkOccurrence => Sys2Proof.Machine.execLinkOccurrence s
  | .beaconSlot => Sys2Proof.Machine.execBeaconSlot s
  | .txqHeadWrite head => Sys2Proof.Machine.execTxqHeadWrite head s
  | .ccaAssess desc => Sys2Proof.Machine.execCcaAssess desc s
  | .deferExpiry desc => Sys2Proof.Machine.execDeferExpiry desc s
  | .macRxFrame => Sys2Proof.Machine.execMacRxFrame s
  | .rxWindowClose => Sys2Proof.Machine.execRxWindowClose s
  | .ackWaitClose desc => Sys2Proof.Machine.execAckWaitClose desc s
  | .parentWrite data => Sys2Proof.Machine.execParentWrite data s
  | .zephyrMatch chips => Sys2Proof.Machine.execZephyrMatch chips s
  | .zephyrHandoffTimeout => Sys2Proof.Machine.execZephyrHandoffTimeout s
  | .ecbEncrypt => Sys2Proof.Machine.execEcbEncrypt s
  | .ecbDecrypt => Sys2Proof.Machine.execEcbDecrypt s
  | .ccmEncrypt => Sys2Proof.Machine.execCcmEncrypt s
  | .ccmDecryptVerify => Sys2Proof.Machine.execCcmDecryptVerify s
  | .keyLoad => Sys2Proof.Machine.execKeyLoad s
  | .keyErase => Sys2Proof.Machine.execKeyErase s
  | .montgomeryMultiply dst b a => Sys2Proof.Machine.execMontgomeryMultiply dst b a s
  | .modularAdd dst b a => Sys2Proof.Machine.execModularAdd dst b a s
  | .modularSubtract dst b a => Sys2Proof.Machine.execModularSubtract dst b a s
  | .bnDone => Sys2Proof.Machine.execBnDone s
  | .counterReserve slot => Sys2Proof.Machine.execCounterReserve slot s
  | .reservationDurable slot => Sys2Proof.Machine.execReservationDurable slot s
  | .reservationAckTimeout slot => Sys2Proof.Machine.execReservationAckTimeout slot s
  | .securityAlarm src => Sys2Proof.Machine.execSecurityAlarm src s
  | .almcfgWrite data => Sys2Proof.Machine.execAlmcfgWrite data s
  | .epochWrite data => Sys2Proof.Machine.execEpochWrite data s
  | .ledgerCfgWrite data => Sys2Proof.Machine.execLedgerCfgWrite data s
  | .tblLookup short route => Sys2Proof.Machine.execTblLookup short route s
  | .tblRead idx => Sys2Proof.Machine.execTblRead idx s
  | .tblAdd auto idx => Sys2Proof.Machine.execTblAdd auto idx s
  | .tblWrite idx => Sys2Proof.Machine.execTblWrite idx s
  | .tblDelete idx => Sys2Proof.Machine.execTblDelete idx s
  | .tblRefresh idx => Sys2Proof.Machine.execTblRefresh idx s
  | .ageingScan => Sys2Proof.Machine.execAgeingScan s
  | .tblSplitWrite data => Sys2Proof.Machine.execTblSplitWrite data s
  | .timeSet force => Sys2Proof.Machine.execTimeSet force s
  | .timeStep force => Sys2Proof.Machine.execTimeStep force s
  | .timeSlew => Sys2Proof.Machine.execTimeSlew s
  | .timeRate => Sys2Proof.Machine.execTimeRate s
  | .timeClear => Sys2Proof.Machine.execTimeClear s
  | .timeAccept => Sys2Proof.Machine.execTimeAccept s
  | .slewEnd => Sys2Proof.Machine.execSlewEnd s
  | .ppsMeasurement => Sys2Proof.Machine.execPpsMeasurement s
  | .servoTakeover => Sys2Proof.Machine.execServoTakeover s
  | .sourceLoss => Sys2Proof.Machine.execSourceLoss s
  | .timeHoldover => Sys2Proof.Machine.execTimeHoldover s
  | .compareMatch n => Sys2Proof.Machine.execCompareMatch n s
  | .pulseEnd pin => Sys2Proof.Machine.execPulseEnd pin s
  | .timeCapture src rising => Sys2Proof.Machine.execTimeCapture src rising s
  | .capturePop n => Sys2Proof.Machine.execCapturePop n s
  | .capcfgWrite n data => Sys2Proof.Machine.execCapcfgWrite n data s
  | .nowRead m => Sys2Proof.Machine.execNowRead m s
  | .utcOffsetChange => Sys2Proof.Machine.execUtcOffsetChange s
  | .rtcSecWrite v => Sys2Proof.Machine.execRtcSecWrite v s
  | .rtcCountLoad => Sys2Proof.Machine.execRtcCountLoad s
  | .rtcCaldWrite d => Sys2Proof.Machine.execRtcCaldWrite d s
  | .rtcCaltWrite t => Sys2Proof.Machine.execRtcCaltWrite t s
  | .syncnt => Sys2Proof.Machine.execSyncnt s
  | .rtcSyncLoad => Sys2Proof.Machine.execRtcSyncLoad s
  | .legacyFreezeRead addr => Sys2Proof.Machine.execLegacyFreezeRead addr s
  | .freezeTimeout => Sys2Proof.Machine.execFreezeTimeout s
  | .alarmArm ctl data => Sys2Proof.Machine.execAlarmArm ctl data s
  | .rtcAlarm => Sys2Proof.Machine.execRtcAlarm s
  | .periodicRestart data => Sys2Proof.Machine.execPeriodicRestart data s
  | .periodicWake => Sys2Proof.Machine.execPeriodicWake s
  | .trimWindow => Sys2Proof.Machine.execTrimWindow s
  | .backupCheck low => Sys2Proof.Machine.execBackupCheck low s
  | .chargerWrite data => Sys2Proof.Machine.execChargerWrite data s
  | .timerEnable n data => Sys2Proof.Machine.execTimerEnable n data s
  | .timerCountStep n => Sys2Proof.Machine.execTimerCountStep n s
  | .reloadWrite n v => Sys2Proof.Machine.execReloadWrite n v s
  | .timerRestart n => Sys2Proof.Machine.execTimerRestart n s
  | .timerCapture n rising => Sys2Proof.Machine.execTimerCapture n rising s
  | .timerCapRead n => Sys2Proof.Machine.execTimerCapRead n s
  | .scanStart => Sys2Proof.Machine.execScanStart s
  | .zeroCrossing rising => Sys2Proof.Machine.execZeroCrossing rising s
  | .nozcTimeout => Sys2Proof.Machine.execNozcTimeout s
  | .msuEnable cfg => Sys2Proof.Machine.execMsuEnable cfg s
  | .msuDisable => Sys2Proof.Machine.execMsuDisable s
  | .msuThrWrite data => Sys2Proof.Machine.execMsuThrWrite data s
  | .nvmRead m addr size wrong => Sys2Proof.Machine.execNvmRead m addr size wrong s
  | .nvmProgram count => Sys2Proof.Machine.execNvmProgram count s
  | .nvmErase => Sys2Proof.Machine.execNvmErase s
  | .nvmOtpprog vbatOk => Sys2Proof.Machine.execNvmOtpprog vbatOk s
  | .programUnitDone bank ok pulses lost => Sys2Proof.Machine.execProgramUnitDone bank ok pulses lost s
  | .eraseComplete bank ok => Sys2Proof.Machine.execEraseComplete bank ok s
  | .eraseSuspend bank => Sys2Proof.Machine.execEraseSuspend bank s
  | .eraseResume bank => Sys2Proof.Machine.execEraseResume bank s
  | .metadataLoad => Sys2Proof.Machine.execMetadataLoad s
  | .scrubStep units => Sys2Proof.Machine.execScrubStep units s
  | .xipLineFill m addr => Sys2Proof.Machine.execXipLineFill m addr s
  | .xipWrite m addr size data => Sys2Proof.Machine.execXipWrite m addr size data s
  | .writeQueueEntry => Sys2Proof.Machine.execWriteQueueEntry s
  | .statusPoll status => Sys2Proof.Machine.execStatusPoll status s
  | .pollTimeout => Sys2Proof.Machine.execPollTimeout s
  | .directCommand data => Sys2Proof.Machine.execDirectCommand data s
  | .hostNop tag payload => Sys2Proof.Machine.execHostNop tag payload s
  | .hostRepeat tag payload => Sys2Proof.Machine.execHostRepeat tag payload s
  | .hostDict tag payload => Sys2Proof.Machine.execHostDict tag payload s
  | .mboxPut tag payload => Sys2Proof.Machine.execMboxPut tag payload s
  | .mboxGet tag payload => Sys2Proof.Machine.execMboxGet tag payload s
  | .hostAttn tag payload => Sys2Proof.Machine.execHostAttn tag payload s
  | .brokenFrame code => Sys2Proof.Machine.execBrokenFrame code s
  | .busyFrame => Sys2Proof.Machine.execBusyFrame s
  | .spisEnableWrite data => Sys2Proof.Machine.execSpisEnableWrite data s
  | .portDown p rxok nbok viol => Sys2Proof.Machine.execPortDown p rxok nbok viol s
  | .portUp p => Sys2Proof.Machine.execPortUp p s
  | .ringWrap => Sys2Proof.Machine.execRingWrap s
  | .ringUnwrap => Sys2Proof.Machine.execRingUnwrap s
  | .cycleReceived low => Sys2Proof.Machine.execCycleReceived low s
  | .cycleLoss => Sys2Proof.Machine.execCycleLoss s
  | .ringTimeFrame h qual npos bulkown plan origin corr tick resid => Sys2Proof.Machine.execRingTimeFrame h qual npos bulkown plan origin corr tick resid s
  | .ringNumber h hop epoch => Sys2Proof.Machine.execRingNumber h hop epoch s
  | .ringClaim h pri ext => Sys2Proof.Machine.execRingClaim h pri ext s
  | .statusFrame h ext state wrap => Sys2Proof.Machine.execStatusFrame h ext state wrap s
  | .ringSvc h payload => Sys2Proof.Machine.execRingSvc h payload s
  | .ringApp h payload => Sys2Proof.Machine.execRingApp h payload s
  | .ringBulk h payload => Sys2Proof.Machine.execRingBulk h payload s
  | .ringDreq p fate turn => Sys2Proof.Machine.execRingDreq p fate turn s
  | .ringDrsp p fate t2 t3 => Sys2Proof.Machine.execRingDrsp p fate t2 t3 s
  | .serviceSlot => Sys2Proof.Machine.execServiceSlot s
  | .bulkWindow => Sys2Proof.Machine.execBulkWindow s
  | .ringEnable data => Sys2Proof.Machine.execRingEnable data s
  | .ringDisable data => Sys2Proof.Machine.execRingDisable data s
  | .dictRead p rid items => Sys2Proof.Machine.execDictRead p rid items s
  | .dictWrite p rid items => Sys2Proof.Machine.execDictWrite p rid items s
  | .dictBegin p rid => Sys2Proof.Machine.execDictBegin p rid s
  | .dictCommit p rid => Sys2Proof.Machine.execDictCommit p rid s
  | .dictAbort p rid => Sys2Proof.Machine.execDictAbort p rid s
  | .dictSnapshot p rid items => Sys2Proof.Machine.execDictSnapshot p rid items s
  | .dictFetch p rid offset maxlen => Sys2Proof.Machine.execDictFetch p rid offset maxlen s
  | .snapshotBufferExpiry q => Sys2Proof.Machine.execSnapshotBufferExpiry q s
  | .transactionExpiry q => Sys2Proof.Machine.execTransactionExpiry q s
  | .holdmaxExpiry => Sys2Proof.Machine.execHoldmaxExpiry s
  | .checkVerdict data => Sys2Proof.Machine.execCheckVerdict data s
  | .checkTimeout => Sys2Proof.Machine.execCheckTimeout s
  | .meshEnvelope => Sys2Proof.Machine.execMeshEnvelope s
  | .localRequest => Sys2Proof.Machine.execLocalRequest s
  | .dictRestore data => Sys2Proof.Machine.execDictRestore data s
  | .storeCfgWrite data => Sys2Proof.Machine.execStoreCfgWrite data s
  | .appTableWrite n data => Sys2Proof.Machine.execAppTableWrite n data s
  | .twillHello bad ver state role addr kcv => Sys2Proof.Machine.execTwillHello bad ver state role addr kcv s
  | .twillTick h tick state qual origin => Sys2Proof.Machine.execTwillTick h tick state qual origin s
  | .twillDreq h turn => Sys2Proof.Machine.execTwillDreq h turn s
  | .twillDrsp h t2 t3 => Sys2Proof.Machine.execTwillDrsp h t2 t3 s
  | .twillTbl h idx entry => Sys2Proof.Machine.execTwillTbl h idx entry s
  | .twillCtr h pairs => Sys2Proof.Machine.execTwillCtr h pairs s
  | .twillRes h slot kcv start => Sys2Proof.Machine.execTwillRes h slot kcv start s
  | .twillResack h slot kcv start => Sys2Proof.Machine.execTwillResack h slot kcv start s
  | .twillDict h gen items => Sys2Proof.Machine.execTwillDict h gen items s
  | .twillTxb h first last => Sys2Proof.Machine.execTwillTxb h first last s
  | .twillFwd h rxTime desc psdu => Sys2Proof.Machine.execTwillFwd h rxTime desc psdu s
  | .twillSync h kind items => Sys2Proof.Machine.execTwillSync h kind items s
  | .twillRelay h message => Sys2Proof.Machine.execTwillRelay h message s
  | .twillHandover h tick => Sys2Proof.Machine.execTwillHandover h tick s
  | .twillLinkDown => Sys2Proof.Machine.execTwillLinkDown s
  | .twillLinkUp => Sys2Proof.Machine.execTwillLinkUp s
  | .twillRetransmit => Sys2Proof.Machine.execTwillRetransmit s
  | .twillAckTimeout => Sys2Proof.Machine.execTwillAckTimeout s
  | .startwaitExpiry => Sys2Proof.Machine.execStartwaitExpiry s
  | .twillTakeover => Sys2Proof.Machine.execTwillTakeover s
  | .twillYield => Sys2Proof.Machine.execTwillYield s
  | .twillForce => Sys2Proof.Machine.execTwillForce s
  | .twillResync => Sys2Proof.Machine.execTwillResync s
  | .eventReport m data => Sys2Proof.Machine.execEventReport m data s
  | .variableReport m data => Sys2Proof.Machine.execVariableReport m data s
  | .stagingWrite => Sys2Proof.Machine.execStagingWrite s
  | .coalesceTimeout => Sys2Proof.Machine.execCoalesceTimeout s
  | .evrFlush => Sys2Proof.Machine.execEvrFlush s
  | .evrClear => Sys2Proof.Machine.execEvrClear s
  | .evrScan => Sys2Proof.Machine.execEvrScan s
  | .bootSelect nvA nvB vbatOk => Sys2Proof.Machine.execBootSelect nvA nvB vbatOk s
  | .romVerify => Sys2Proof.Machine.execRomVerify s
  | .romBegin nv => Sys2Proof.Machine.execRomBegin nv s
  | .romFinish nv => Sys2Proof.Machine.execRomFinish nv s
  | .romConfirm nv => Sys2Proof.Machine.execRomConfirm nv s
  | .romVersion => Sys2Proof.Machine.execRomVersion s
  | .trialExpiry => Sys2Proof.Machine.execTrialExpiry s
  | .trialStop => Sys2Proof.Machine.execTrialStop s
  | .idUpdWrite m data => Sys2Proof.Machine.execIdUpdWrite m data s
  | .rinfo p => Sys2Proof.Machine.execRinfo p s
  | .rerase p kind nv => Sys2Proof.Machine.execRerase p kind nv s
  | .rwrite p kind off data nv => Sys2Proof.Machine.execRwrite p kind off data nv s
  | .rfinish p nv => Sys2Proof.Machine.execRfinish p nv s
  | .rotp p off value vbatOk => Sys2Proof.Machine.execRotp p off value vbatOk s
  | .rboot p => Sys2Proof.Machine.execRboot p s
  | .rcFieldRead m addr => Sys2Proof.Machine.execRcFieldRead m addr s
  | .powerUp => Sys2Proof.Machine.execPowerUp s
  | .resetNRise => Sys2Proof.Machine.execResetNRise s
  | .brownOutWarningClear => Sys2Proof.Machine.execBrownOutWarningClear s
  | .vddioLow bank low => Sys2Proof.Machine.execVddioLow bank low s
  | .coreResume => Sys2Proof.Machine.execCoreResume s
  | .coexGrant lowBat => Sys2Proof.Machine.execCoexGrant lowBat s
  | .cmacCommand => Sys2Proof.Machine.execCmacCommand s
  | .otpProgramDone => Sys2Proof.Machine.execOtpProgramDone s
  | .directCommandEnd read changed => Sys2Proof.Machine.execDirectCommandEnd read changed s
  | .scanEnd codes => Sys2Proof.Machine.execScanEnd codes s
  | .rtcCountWrap => Sys2Proof.Machine.execRtcCountWrap s
  | .zephyrSynconly => Sys2Proof.Machine.execZephyrSynconly s
  | .ringGap => Sys2Proof.Machine.execRingGap s

end Sys2Proof.Machine
end

