-- ==== Sys2Proof/Safety.lean ====
section
/-! DEFINITION. Safety.lean: the terms in which statements about the part are put: the frame of registers, that the bus takes
an access, that engines beside the commanded one rest. -/
namespace Sys2Proof.Safety
open Sys2Proof.Machine

/-- Every register but those at the listed addresses is as it was. -/
def RegsBut (l : List Nat) (s t : State) : Prop := ∀ a, a ∉ l → t.reg a = s.reg a

/-- A run of a step from `s` is safe: it goes on. -/
def Safe (s : State) : Prop := ∃ t, step s = .next t

/-- Memory and registers are listed in canonical form: addresses strictly rising, none with what an unlisted one reads as. -/
abbrev Canonical (s : State) : Prop := s.mem.wf = true ∧ Sparse.wf resetVal s.regs = true

/-- The bus takes a 32-bit write of master `m` at `a`: the clocks of CORE run and nothing refuses it (R38, R44, R48, R54). -/
abbrev Takes (m : Master) (a : Nat) (s : State) : Prop := s.clocked = true ∧ busRefusal s ⟨m, a, .b32, true⟩ = none

/-- The same of a read. -/
abbrev TakesRead (m : Master) (a : Nat) (s : State) : Prop := s.clocked = true ∧ busRefusal s ⟨m, a, .b32, false⟩ = none

/-- The bus takes the control core's write at `a`. -/
abbrev Core (a : Nat) (s : State) : Prop := Takes .coreData a s

/-- The dictionary engine is off with nothing waiting, and no synchronisation of a pair is due. -/
abbrev DictRest (s : State) : Prop :=
  s.on DICT_CTRL.EN = false ∧ s.dict.reads = [] ∧ s.dict.queue = [] ∧ s.dict.run = none ∧ s.dict.respWait = none ∧
    s.twil.syncDue = false

/-- The switchable domains are off. -/
abbrev DomainsOff (s : State) : Prop := s.radioOn = false ∧ s.ringOn = false ∧ s.msuOn = false

/-- A pending group commit names the block. -/
def inGroup (b : Blk) (s : State) : Bool := match s.tick.group with
  | some (m, _, _) => m.getLsbD (blkBit b)
  | none => false

/-- No event-matrix line takes the internal source `src` (R67). -/
abbrev Unrouted (src : Nat) (s : State) : Prop := ∀ l < 24, s.get (EVM_SRC.SRC l) ≠ src

/-- The NVM controller has no program in hand. -/
abbrev NvmRest (s : State) : Prop := (s.bank false).prog = none ∧ (s.bank true).prog = none ∧ s.nvm.otp = none

/-- The memories that a reset or deep sleep leaves alone: retention SRAM, NVM, OTP, external memory. -/
abbrev lasting (a : Nat) : Prop := regionOf a ∈ [Region.retention, .nvm, .otp, .xip]

/-- What a reset other than POR leaves (R83): every register outside AON and the RTC section at its reset value, the core
and the engines at theirs, the cause's bit set, and, with no NVM program in hand, the lasting memories as they were. -/
def ResetTo (cause : Field) (s t : State) : Prop :=
  t.power.st = .reset ∧ t.on cause = true ∧ t.core = {} ∧ t.shtl = {} ∧ t.pending = s.pending ∧
    (∀ a, aonReg a = false → t.reg a = resetVal a) ∧ (NvmRest s → ∀ a, lasting a → t.rb a = s.rb a)

/-! ## Bundles of one syllable (chapter 06) -/

/-- The registers and pc of an agent. -/
def cpuOf (ag : Agent) (s : State) : Cpu := match ag with
  | .core => s.core.cpu
  | .weft n => (s.eng n).cpu

/-- The agent executes, at a bundle boundary outside a repeat, and `k` words at its pc can be fetched. -/
def Ready (k : Nat) (ag : Agent) (s : State) : Prop :=
  (cpuOf ag s).open_ = [] ∧ (cpuOf ag s).rep = none ∧ match ag with
    | .core => s.coreRuns = true ∧ (fetchWords k s.core.cpu.pc s).2 = .ok ()
    | .weft n => s.weftRuns n = true ∧ (s.eng n).cpu.pc.toNat + 4 * k ≤ 0x10000

/-- A general register as a syllable reads it. -/
abbrev gr (ag : Agent) (s : State) (r : BitVec 5) : Word := (cpuOf ag s).get r

/-- The agent has gone to `pc`, its register `rd` holds `v` unless it is g0, and nothing else that a program sees of its
registers, of memory or of the queue has changed. -/
def Gave (ag : Agent) (pc : Word) (rd : BitVec 5) (v : Word) (s t : State) : Prop :=
  (cpuOf ag t).pc = pc ∧ (∀ r, gr ag t r = if r = rd ∧ rd ≠ 0 then v else gr ag s r) ∧ t.mem = s.mem ∧ t.pending = s.pending

/-- A bundle of one syllable has written `v` to `rd` and gone on. -/
def Wrote (ag : Agent) (rd : BitVec 5) (v : Word) (s t : State) : Prop := Gave ag ((cpuOf ag s).pc + 4) rd v s t

/-- A bundle of one syllable has gone to `pc` and written no register. -/
def Jumped (ag : Agent) (pc : Word) (s t : State) : Prop := Gave ag pc 0 0 s t

/-- An access of `n` bytes at `a` that the core makes in control SRAM past the D-cache, with the protection unit off. -/
def CoreData (a : Word) (n : Nat) (s : State) : Prop :=
  inSram a.toNat n = true ∧ a.toNat % n = 0 ∧ s.core.mpuCtrl.getLsbD 0 = false

/-- An aligned access of `n` bytes at `a` in a Weft engine's local memory or in control SRAM (R142). -/
def WeftData (a : Word) (n : Nat) : Prop :=
  a.toNat % n = 0 ∧ (a.toNat + n ≤ 0x2000 ∨ (0x20000000 ≤ a.toNat ∧ a.toNat + n ≤ 0x20100000))

/-- Where the byte that engine `n` sees at `a` stands in memory. -/
def weftByte (n : Fin 32) (a : Word) : Nat := if a.toNat < 0x2000 then weftLocal n + a.toNat else a.toNat

/-- The agent has gone on by one syllable, its registers as they were. -/
def Kept (ag : Agent) (s t : State) : Prop := (cpuOf ag t).pc = (cpuOf ag s).pc + 4 ∧ ∀ r, gr ag t r = gr ag s r

/-- Memory is as before but for `n` bytes at `a`, which spell `v`. -/
def Stored (a n v : Nat) (s t : State) : Prop :=
  t.rn a n = v % 256 ^ n ∧ ∀ b, b < a ∨ a + n ≤ b → t.rb b = s.rb b

/-- The entry of R132 for a synchronous exception: the cause, EADDR and EPC, STATUS saved without INREP, IE and UM cleared
and EXL set, THR kept, the vector base next, the general registers and memory as they were. -/
def Trapped (code : Nat) (eaddr epc : Word) (s t : State) : Prop :=
  t.core.ecause = BitVec.ofNat 32 code ∧ t.core.eaddr = eaddr ∧ t.core.epc = epc ∧
    t.core.estatus = s.core.status &&& 0x371#32 ∧ t.core.status = (s.core.status &&& 0x70#32) ||| 0x200#32 ∧
    t.core.cpu.pc = s.core.vbase ∧ t.core.cpu.g = s.core.cpu.g ∧ t.mem = s.mem

/-- Machine mode. -/
abbrev Machine (s : State) : Prop := s.core.um = false

/-! ## Receive side and the Shuttle (chapters 07 to 10) -/

/-- RADIO is powered and the clocks run: commands of the front end, the Loom and the Shuttle act. -/
abbrev Rx (s : State) : Prop := s.radioOn = true ∧ s.clocked = true

/-- Engine `n` runs the job `j`. -/
abbrev Running (n : Fin 32) (j : Job) (s : State) : Prop := (s.eng n).st = .running ∧ (s.eng n).job = some j

/-- `len` bytes at `dst` have become those that stood at `src`; every other byte of memory is as before. -/
def Copied (dst src len : Nat) (s t : State) : Prop :=
  t.bytes dst len = s.bytes src len ∧ ∀ b, b < dst ∨ dst + len ≤ b → t.rb b = s.rb b

/-! ## Transmit chain and MAC (chapters 11 and 12) -/

/-- The MAC has nothing of its own in hand: its transmit ring is off and no ended request waits for it. -/
abbrev MacQuiet (s : State) : Prop := s.on MAC_TXQBASE.EN = false ∧ s.tx.done = []

/-- The chain holds the request of `j`, given from outside the MAC's schedule; nothing else waits for the chain. -/
abbrev Chain (j : TxJob) (s : State) : Prop :=
  s.radioOn = true ∧ MacQuiet s ∧ s.tx.job = some j ∧ j.owner = .outside ∧ s.tx.queue = [] ∧ s.tx.calReq = 0

/-- The chain is idle with nothing waiting. -/
abbrev ChainIdle (s : State) : Prop :=
  s.radioOn = true ∧ MacQuiet s ∧ s.tx.job = none ∧ s.tx.queue = [] ∧ s.tx.calReq = 0 ∧ s.tx.cal = none

/-! ## Security engine (chapter 13) -/

/-- The engine is clocked, its ring is on and the descriptor at TAIL, in control SRAM, holds `op`; no alarm is latched. -/
abbrev SecHead (op : Nat) (s : State) : Prop :=
  s.secClocked = true ∧ s.on SEC_CMDBASE.EN = true ∧ s.get SEC_CMDPTR.HEAD ≠ s.get SEC_CMDPTR.TAIL ∧ inSram s.secDesc 32 = true ∧
    s.secField 0 1 = op ∧ s.on SEC_ALMSTAT.LATCHED = false

/-- The descriptor has ended with a status: STATUS, TAIL, CMDDONE. -/
abbrev SecDone (st : Nat) (s t : State) : Prop :=
  t.rb (s.secDesc + 3) = BitVec.ofNat 8 st ∧ t.get SEC_CMDPTR.TAIL = (s.get SEC_CMDPTR.TAIL + 1) % 16 ∧ t.on SEC_IRQ.CMDDONE = true

/-- What the engine's reads of these ranges, one after another, give it; none where the bus faults one or the memory makes
it wait. -/
def secGot : List (Nat × Nat) → State → Option (List (List Byte))
  | [], _ => some []
  | (a, n) :: rest, s => match dmaRead .secDma a n s with
    | (s, .bytes b) => (secGot rest s).map (b :: ·)
    | _ => none

/-- `n` bytes at `a` lie clear of the descriptor at TAIL. -/
abbrev SecClear (a n : Nat) (s : State) : Prop := a + n ≤ s.secDesc ∨ s.secDesc + 32 ≤ a

/-- Operand `i` of the modular unit. -/
def bnOp (s : State) (i : BitVec 3) : Nat := ((s.sec.bn[i.toNat]?).getD 0).toNat

/-- The operand that stands in TIME_CORR. -/
def corr (s : State) : Nat := (s.reg Reg.TIME_CORR_LO).toNat + (s.reg Reg.TIME_CORR_HI).toNat * 2 ^ 32

/-! ## NVM (chapter 19) -/

/-- The metadata are loaded, the bank runs nothing and nothing waits for it. -/
abbrev BankIdle (k : Bool) (s : State) : Prop :=
  s.on NVM_STAT.READY = true ∧ (s.bank k).prog = none ∧ (s.bank k).progQ = [] ∧ (s.bank k).erase = none ∧ (s.bank k).eraseQ = []

/-- An erase of block `b` by firmware runs in the bank, and nothing waits for it. -/
abbrev Erasing (k : Bool) (b : Nat) (s : State) : Prop :=
  s.clocked = true ∧ (s.bank k).erase = some ⟨.firmware, b, false⟩ ∧ (s.bank k).prog = none ∧ (s.bank k).progQ = [] ∧ (s.bank k).eraseQ = []

/-- No byte of memory outside `n` bytes at `a` has changed. -/
def Outside (a n : Nat) (s t : State) : Prop := ∀ b, b < a ∨ a + n ≤ b → t.rb b = s.rb b

/-- The host port takes a frame: it is on, HS_RDY is high and no reply is outstanding (R423, R426). -/
abbrev HostReady (s : State) : Prop := s.clocked = true ∧ s.hsRdy = true ∧ s.spis.pend = false

/-! ## Selvage ring (chapter 21) -/

/-- RING is powered and clocked and the ring block is on. -/
abbrev RingUp (s : State) : Prop := s.ringOn = true ∧ s.clocked = true ∧ s.on RING_CFG.EN = true

/-! ## Object dictionary (chapter 22) -/

/-- A request of the host. -/
abbrev hostReq (svc : Nat) (rid : BitVec 8) : DReq := ⟨.host, .host, svc, rid.toNat⟩

/-- The dictionary engine serves sessions at a part that is no standby, and the request is no repeat of one answered or in
work (R456, R469). -/
abbrev DictFresh (q : DReq) (s : State) : Prop :=
  s.dictReady = true ∧ s.standby = false ∧ (s.sess q.sess).kept.filter (fun k => q.rid != 0 && k.1 == q.svc && k.2.1 == q.rid) = none ∧
    s.serving q = false

/-- The host port takes a frame with such a request. -/
abbrev DictHost (svc : Nat) (rid : BitVec 8) (s : State) : Prop := HostReady s ∧ DictFresh (hostReq svc rid) s

/-- The reply to the host's frame of this TAG is a response with these fields. -/
abbrev Answered (tag : BitVec 4) (svc : Nat) (rid : BitVec 8) (r : DResp) (s t : State) : Prop :=
  t.spis.pend = false ∧ t.spis.kept = some ⟨0, tag.toNat, respBytes (hostReq svc rid) r s⟩

/-- A request of a ring position. -/
abbrev ringReq (h : RingHdr) (svc : Nat) (rid : BitVec 8) : DReq := ⟨.ring h.src.toNat h.seq.toNat, .ring h.src.toNat, svc, rid.toNat⟩

/-- A numbered part of a ring, no standby, takes such a request of another position in an SVC frame (R450). -/
abbrev DictRing (h : RingHdr) (svc : Nat) (rid : BitVec 8) (s : State) : Prop :=
  (s.ringOn = true ∧ s.clocked = true ∧ s.on RING_CFG.EN = true ∧ s.on RING_CFG.DICTEN = true ∧ s.numbered = true) ∧
    (h.fate = .good ∧ h.src.toNat ≠ s.pos ∧ s.ringMine h = true ∧ h.flags.getLsbD 1 = false ∧ h.flags.toNat / 16 = s.ring.epoch % 16) ∧
    DictFresh (ringReq h svc rid) s

/-- The response waits for the part's slot. -/
abbrev RingAnswered (h : RingHdr) (svc : Nat) (rid : BitVec 8) (r : DResp) (s t : State) : Prop :=
  t.ring.svcOut = s.ring.svcOut ++ [{ dst := h.src.toNat, seq := h.seq.toNat, payload := respBytes (ringReq h svc rid) r s }]

/-- No COMMIT runs or waits, no restore is due, and the store has no work. -/
abbrev DictIdle (s : State) : Prop :=
  s.dict.run = none ∧ s.dict.queue = [] ∧ s.dict.restoreDue = false ∧ s.dict.store.ops = [] ∧ s.dict.meshWait = none

/-- The store is not in use. -/
abbrev NoStore (s : State) : Prop := s.on DICT_STORE.EN = false

/-- The COMMIT of the host that runs has reached a stage; nothing else waits. -/
abbrev HostRuns (rid : BitVec 8) (l : List DItem) (st : RunStage) (s : State) : Prop :=
  s.dict.run = some ⟨hostReq 4 rid, .user, l, st⟩ ∧ s.dict.queue = [] ∧ s.dict.reads = [] ∧ s.dict.restoreDue = false ∧
    s.dict.store.ops = [] ∧ s.dict.meshWait = none ∧ s.spis.pend = true ∧ s.dictClocked = true ∧ s.on DICT_CTRL.EN = true

/-- That COMMIT has been refused with a status (R467). -/
abbrev Refused (st : Nat) (s t : State) : Prop :=
  t.dict.run = none ∧ t.spis.kept.map (fun r => oct r.payload 2) = some (BitVec.ofNat 8 st) ∧ t.spis.pend = false ∧
    t.get DICT_CNT.REFUSED = min (s.get DICT_CNT.REFUSED + 1) (2 ^ DICT_CNT.REFUSED.w - 1) ∧ t.on DICT_IRQ.REFUSE = true

/-- Descriptor `n` at TAIL of the mesh queue is ready, of a kind, with its input and output in control SRAM, the output clear
of the queue. -/
abbrev MqHead (n kind : Nat) (s : State) : Prop :=
  s.mqNext = some n ∧ s.mqF n 1 1 = kind ∧ inSram (s.mqF n 8 4) (s.mqF n 4 2) = true ∧ inSram (s.mqF n 0x0C 4) (s.mqF n 6 2) = true ∧
    (s.mqF n 0x0C 4 + s.mqF n 6 2 ≤ s.mqDesc n ∨ s.mqDesc n + 16 ≤ s.mqF n 0x0C 4)

/-- The first 16 bytes of a request envelope (R470). -/
def envHead (keyId level : Nat) (src : Nat) (ctr : Nat) : List Byte :=
  [0x4C, 0] ++ leBytes 1 keyId ++ leBytes 1 level ++ leBytes 8 src ++ leBytes 4 ctr

/-- The bytes are a request envelope under a key: head, encrypted request, MIC (R470). -/
abbrev Envelope (k : KeySlot) (level src ctr : Nat) (enc b : List Byte) : Prop :=
  b = envHead k.keyId level src ctr ++ enc ++
    ccmMic k.key (macNonce src ctr level) (envHead k.keyId level src ctr) (ccmCrypt k.key (macNonce src ctr level) enc) (micOctets level)

/-! ## Twill pair (chapter 23) -/

/-- RING is powered and clocked, and the pair mode is on. -/
abbrev TwClocked (s : State) : Prop := s.ringOn = true ∧ s.clocked = true ∧ s.pairState ≠ pairOff

/-- The link is up as well, and no end record of a synchronisation waits for its acknowledgement. -/
abbrev TwUp (s : State) : Prop := TwClocked s ∧ s.on TWIL_STAT.LINK = true ∧ s.twil.endSeq = none

/-- A whole frame with the next SEQ (R483). -/
abbrev TwNext (h : TwHdr) (s : State) : Prop := h.bad = false ∧ h.seq.toNat = (s.twil.rxSeq + 1) % 65536

/-! ## Event recorder and boot ROM (chapters 24 and 25) -/

/-- The recorder is clocked, on, and takes reports of the class. -/
abbrev EvrOpen (c : Nat) (s : State) : Prop := s.evrClocked = true ∧ s.on EVR_CFG.EN = true ∧ s.on (EVR_CLS.EN c) = true

/-- A snapshot record is staged and nothing keeps its write from starting: the recorder is ready and idle in wrap mode with
no drop to tell, its ring lies in the data blocks of an idle bank, and two erased units stand at its position, which starts
no block. -/
abbrev EvrDue (r : Report) (s : State) : Prop :=
  (s.evr.writing = false ∧ s.evr.clearWait = false ∧ s.evr.clearing = 0 ∧ s.on EVR_STAT.READY = true ∧ s.evrClocked = true ∧
    s.anyDrop = false) ∧ (s.evr.staged = some r ∧ r.form = 0 ∧ r.payload.length ≤ 48) ∧ s.on EVR_STORE.EN = true ∧ s.on EVR_CFG.STOP = false ∧
    (388 ≤ s.get EVR_STORE.FIRST ∧ s.get EVR_STORE.FIRST + s.get EVR_POS.BLK ≤ 495) ∧ BankIdle (s.on EVR_STORE.BANK) s ∧
    (s.bank (s.on EVR_STORE.BANK)).free ≠ [] ∧ (0 < s.get EVR_POS.UNIT ∧ s.get EVR_POS.UNIT + 2 ≤ 128) ∧
    (∀ i < 2, s.unitErased (s.evrUnitAddr (s.get EVR_POS.BLK) (s.get EVR_POS.UNIT) + 32 * i) = true) ∧
    s.xtsUnusable (s.evrUnitAddr (s.get EVR_POS.BLK) (s.get EVR_POS.UNIT)) = false

/-- Firmware runs in machine mode and can call the ROM's services (R527). -/
abbrev RomReady (s : State) : Prop :=
  s.coreRuns = true ∧ s.boot.due = false ∧ s.boot.recovery = false ∧ s.core.status.getLsbD 8 = false

/-- A service has returned: its status in g1, g16 to g31 as they were, the core at g31. -/
def Returned (g1 : Word) (s t : State) : Prop :=
  t.core.cpu.get 1 = g1 ∧ t.core.cpu.pc = s.core.cpu.g[31] ∧ (∀ r : BitVec 5, 16 ≤ r.toNat → t.core.cpu.get r = s.core.cpu.get r) ∧
    t.core.status = s.core.status ∧ t.pending = s.pending

/-- The ROM acts on a reset that asks for a firmware slot (R523). -/
abbrev RomBoots (s : State) : Prop := s.boot.due = true ∧ s.coreRuns = true ∧ s.on NVM_STAT.READY = true ∧ s.on GPIO_STRAP.RUN = true

/-- The slot is a candidate (R523): complete, without REJECT. -/
abbrev candidate (k : Bool) (s : State) : Bool := s.slotComplete k && !(s.stMarked k 5)

/-- The slot is the candidate that the ROM tries first: the other is none, or is behind it in order. -/
abbrev FirstSlot (k : Bool) (s : State) : Prop := candidate k s = true ∧ (candidate (!k) s = false ∨ s.newer = k)

/-- The trial of the slot is over: its timer has expired, or it has its three marks (R523). -/
abbrev trialOver (k : Bool) (s : State) : Bool := (s.on ID_BOOTSTAT.TRIALEXP && s.on ID_BOOTSTAT.SLOT == k) || s.slotMarks k == 3

/-- A unit can be programmed by the ROM: it is erased, open to programs, and in clear. -/
abbrev Programs (a : Nat) (s : State) : Prop := progTest a 1 none s = none ∧ s.xtsRegion a = none

/-- The port of a recovery command takes it: the host's is ready for a frame; on the ring the frame has come whole to a
numbered part that it is addressed to by another position, in its epoch (R530). -/
def portTakes (p : RecPort) (s : State) : Bool := match p with
  | .host _ => decide (HostReady s)
  | .ring h _ => s.ringOn && s.clocked && s.on RING_CFG.EN && s.numbered && h.fate == .good && h.src.toNat != s.pos && s.ringMine h
      && h.flags.toNat / 16 == s.ring.epoch % 16

/-- The number of a recovery port: false the host's, true the ring's. -/
def portId (p : RecPort) : Bool := match p with
  | .host _ => false
  | .ring _ _ => true

/-- A command comes to a part in recovery through a port that the other has not shut out. -/
abbrev RecOpen (p : RecPort) (s : State) : Prop := portTakes p s = true ∧ s.boot.recovery = true ∧ s.boot.owner ≠ some (!(portId p))

/-- The same, where the port already owns recovery. -/
abbrev RecOwned (p : RecPort) (s : State) : Prop := portTakes p s = true ∧ s.boot.recovery = true ∧ s.boot.owner = some (portId p)

/-- The reply with this status and payload: the host's next, or the part's next APP frame to the position that asked. -/
def recAnswer (p : RecPort) (st : Nat) (b : List Byte) (s t : State) : Bool := match p with
  | .host tag => decide (t.spis.pend = false ∧ t.spis.kept = some ⟨st, tag.toNat, b⟩ ∧ t.ring.svcOut = s.ring.svcOut)
  | .ring h tag =>
    let d := leBytes 1 st ++ leBytes 1 (tag.toNat % 16) ++ leBytes 2 b.length ++ b
    decide (t.spis = s.spis ∧ t.ring.svcOut = s.ring.svcOut ++ [{ typ := 0x11, dst := h.src.toNat, seq := h.seq.toNat, payload := d }])

end Sys2Proof.Safety
end

