-- ==== Sys2Proof/Certificates/Slice0/Obligations.lean ====
section
/-! DEFINITION. Obligations.lean: the statements about the part, from the spec's rules. A clause says of a
command that `exec` answers a next state, and what that state holds. -/
open Sys2Proof Sys2Proof.Machine Sys2Proof.Safety

/-- A step runs the command at the front of the queue with the rest; on an empty queue time passes (the choice of log entry 1). For every state with a command at the front of its queue, the step is exec of that command on the state with the rest of the queue; with an empty queue it is a next state in which time has passed. That time passes then, and by how much, is the model's choice (log entry 1), not a rule of the spec. -/
def Obligations.StepRunsFront : Prop :=
  (∀ (i : Instr) (rest : List Instr) (s : State), s.pending = i :: rest → step s = exec i { s with pending := rest }) ∧
  ∀ s : State, s.pending = [] → step s = .next s.passTime

/-- What the machine holds at reset. The queue is empty; memory lists nothing and is in canonical form, as the registers are; PLL and core run with RADIO, RING and MSU off; the core is at the boot ROM's entry in machine mode with interrupts off and every general register 0 (the general registers and the time-base count are the model's choice, log entry 4). -/
def Obligations.ResetState : Prop :=
  State.reset.pending = [] ∧ State.reset.mem.cells = [] ∧ Canonical State.reset ∧ State.reset.clocked = true ∧ State.reset.coreRuns = true ∧
    DomainsOff State.reset ∧ State.reset.core.cpu.pc = 0 ∧ State.reset.core.um = false ∧ State.reset.core.status = 0 ∧
    (∀ r, State.reset.core.cpu.get r = 0) ∧ (∀ n, (State.reset.eng n).st ≠ .running) ∧ State.reset.pairState = pairOff ∧
    State.reset.rg = rgBypass ∧ State.reset.pins.bypass = true ∧ State.reset.dict.run = none

/-- Every step keeps memory and registers in their canonical form. From every state whose memory lists its bytes with addresses strictly rising and none equal to what an unlisted address reads as, and whose registers are listed alike, a step that goes on leaves both so. -/
def Obligations.CanonicalKept : Prop :=
  ∀ s t : State, Canonical s → step s = .next t → Canonical t

/-- A command's effect leaves the queue of the commands behind it alone. For every command and every state, where exec goes on the queue is as it was, so that the commands behind it run in the order in which they came. -/
def Obligations.QueueKept : Prop :=
  ∀ (i : Instr) (s t : State), exec i s = .next t → t.pending = s.pending

/-- A GO captures the whole shadow, and a second GO is discarded (R26). A write of 1 to a block's GO with nothing pending captures every shadow register of the block and sets PEND, changing no other register and no byte of memory; a GO while a commit is pending sets OVR and keeps the pending set; a later write of a shadow register leaves the pending set as it is. -/
def Obligations.CommitCapture : Prop :=
  (∀ (b : Blk) (s : State), Core (blkBase b + 0xFF0) s →
      s.pend b = none →
      inGroup b s = false →
      ∃ t, exec (.commitGo b) s = .next t ∧
        t.pend b = some ⟨s.shadow b, s.now, false⟩ ∧
        t.on (cf b LOOM_COMMIT.PEND) = true ∧
        t.mem = s.mem ∧
        RegsBut [blkBase b + 0xFF0] s t) ∧
  (∀ (b : Blk) (s : State), Core (blkBase b + 0xFF0) s →
      (s.pend b).isSome = true →
      ∃ t, exec (.commitGo b) s = .next t ∧
        t.on (cf b LOOM_COMMIT.OVR) = true ∧
        t.pend b = s.pend b ∧
        t.mem = s.mem ∧
        RegsBut [blkBase b + 0xFF0] s t) ∧
  (∀ (b : Blk) (p : PendingSet) (addr data : Word) (s : State), addr.toNat ∈ (shadowPairs b).map Prod.fst →
      Takes .coreData addr.toNat s →
      s.pend b = some p →
      DictRest s →
      ∃ t, exec (.registerWrite .coreData addr data) s = .next t ∧
        t.pend b = some p ∧
        (shadowPairs b).all (fun e => t.reg e.2 == s.reg e.2) = true)

/-- The end of a commit's check, and a group GO. What the end of a block's check and a group's GO do. (1) COMMIT_CHECK_DONE of a block whose pending set fails its check drops the set, clears PEND, sets REJ with the check's code in COMMIT_ERR, and changes no other register, no live set and no byte of memory. (2) COMMIT_CHECK_DONE of a block whose pending set passes its check lets the set wait for its boundary and changes no register and no byte of memory. (3) GROUP_COMMIT_GO with no group pending and every member powered and without a commit of its own captures every member's shadow, sets the group's PEND and each member's, and names the group. (4) While a group is pending GROUP_COMMIT_GO sets OVR and changes nothing else. (5) With a member's own commit pending the group is rejected with the lowest-numbered such member in FAILBLK; each such member records BUSY and goes on, its REJ as it was, and every other member records GROUP and sets REJ. (6) GROUP_COMMIT_GO with a member whose domain is off is rejected with REJ and FAILBLK = 0xF and captures nothing. -/
def Obligations.CommitChecks : Prop :=
  (∀ (b : Blk) (p : PendingSet) (code : Nat) (s : State), s.clocked = true →
      s.blkOn b = true →
      s.pend b = some p →
      p.passed = false →
      inGroup b s = false →
      blkCheck b (s.takeLive p.live) = some code →
      ∃ t, exec (.commitCheckDone (.own b)) s = .next t ∧
        t.pend b = none ∧
        t.on (cf b LOOM_COMMIT.PEND) = false ∧
        t.on (cf b LOOM_COMMIT.REJ) = true ∧
        t.get (cf b LOOM_COMMIT.COMMIT_ERR) = code % 256 ∧
        t.mem = s.mem ∧
        RegsBut [blkBase b + 0xFF0] s t) ∧
  (∀ (b : Blk) (p : PendingSet) (s : State), s.clocked = true →
      s.blkOn b = true →
      s.pend b = some p →
      p.passed = false →
      inGroup b s = false →
      blkCheck b (s.takeLive p.live) = none →
      ∃ t, exec (.commitCheckDone (.own b)) s = .next t ∧
        t.pend b = some { p with passed := true } ∧
        t.mem = s.mem ∧
        t.regs = s.regs) ∧
  (∀ (mask : BitVec 5) (s : State), Core Reg.SYSC_GCOMMIT s →
      s.tick.group = none →
      (members mask).all (fun b => s.blkOn b && (s.pend b).isNone) = true →
      ∃ t, exec (.groupCommitGo mask) s = .next t ∧
        t.tick.group = some (mask, s.now, (members mask).isEmpty) ∧
        t.on SYSC_GCOMMIT.PEND = true ∧
        (members mask).all (fun b => t.pend b == some ⟨s.shadow b, s.now, false⟩ && t.on (cf b LOOM_COMMIT.PEND)) = true ∧
        t.get SYSC_GCOMMIT.MASK = mask.toNat ∧
        t.mem = s.mem ∧
        RegsBut (Reg.SYSC_GCOMMIT :: (members mask).map (fun b => blkBase b + 0xFF0)) s t) ∧
  (∀ (mask : BitVec 5) (s : State), Core Reg.SYSC_GCOMMIT s →
      s.tick.group.isSome = true →
      ∃ t, exec (.groupCommitGo mask) s = .next t ∧
        t.tick = s.tick ∧
        t.on SYSC_GCOMMIT.OVR = true ∧
        t.get SYSC_GCOMMIT.MASK = s.get SYSC_GCOMMIT.MASK ∧
        t.mem = s.mem ∧
        RegsBut [Reg.SYSC_GCOMMIT] s t) ∧
  (∀ (mask : BitVec 5) (b : Blk) (s : State), Core Reg.SYSC_GCOMMIT s →
      s.tick.group = none →
      (members mask).all (fun c => s.blkOn c) = true →
      (members mask).find? (fun c => (s.pend c).isSome) = some b →
      ∃ t, exec (.groupCommitGo mask) s = .next t ∧
        t.on SYSC_GCOMMIT.REJ = true ∧
        t.get SYSC_GCOMMIT.FAILBLK = blkBit b ∧
        (members mask).all (fun c => t.pend c == s.pend c) = true ∧
        (members mask).all (fun c => if (s.pend c).isSome then t.get (cf c LOOM_COMMIT.COMMIT_ERR) == 2 && t.on (cf c LOOM_COMMIT.REJ) == s.on (cf c LOOM_COMMIT.REJ) else t.get (cf c LOOM_COMMIT.COMMIT_ERR) == 1 && t.on (cf c LOOM_COMMIT.REJ)) = true ∧
        t.tick.group = none ∧
        t.mem = s.mem) ∧
  (∀ (mask : BitVec 5) (s : State), Core Reg.SYSC_GCOMMIT s →
      s.tick.group = none →
      (members mask).any (fun b => !(s.blkOn b)) = true →
      ∃ t, exec (.groupCommitGo mask) s = .next t ∧
        t.tick = s.tick ∧
        t.on SYSC_GCOMMIT.REJ = true ∧
        t.get SYSC_GCOMMIT.FAILBLK = 0xF ∧
        t.mem = s.mem ∧
        RegsBut [Reg.SYSC_GCOMMIT] s t)

/-- A tick boundary advances the tick and raises its interrupt. What TICK_BOUNDARY does, the dictionary engine at rest. (1) With the switchable domains off, network time not valid and no commit pending, it adds 1 to SYSC_TICK, advances the slot phase modulo 10, sets FREE and SYSC_IRQ.TICK, sets TICKLOST where TICK was still set, advances the snapshot generation, starts the tick at the present count and changes no byte of memory. (2) In every state in which boundaries come it sets SYSC_IRQ.TICK, and TICKLOST where TICK was still set, advances the snapshot generation and starts the tick at the present count. -/
def Obligations.TickBoundary : Prop :=
  (∀ (levels : List (BitVec 10 × Nat)) (peak : BitVec 10) (s : State), s.ticking = true →
      s.time.valid = false →
      DomainsOff s →
      DictRest s →
      Unrouted 0x3A s →
      blks.all (fun b => (s.pend b).isNone) = true →
      s.tick.group = none →
      s.loom.blankFrom = none →
      ∃ t, exec (.tickBoundary levels peak) s = .next t ∧
        t.reg Reg.SYSC_TICK = s.reg Reg.SYSC_TICK + 1 ∧
        t.get SYSC_TICKSTAT.SLOTPH = (s.get SYSC_TICKSTAT.SLOTPH + 1) % 10 ∧
        t.on SYSC_TICKSTAT.FREE = true ∧
        t.on SYSC_IRQ.TICK = true ∧
        t.on SYSC_IRQ.TICKLOST = (s.on SYSC_IRQ.TICK || s.on SYSC_IRQ.TICKLOST) ∧
        t.tick.snapGen = s.tick.snapGen + 1 ∧
        t.tick.startAt = s.now ∧
        t.mem = s.mem) ∧
  (∀ (levels : List (BitVec 10 × Nat)) (peak : BitVec 10) (s : State), s.ticking = true →
      DictRest s →
      ∃ t, exec (.tickBoundary levels peak) s = .next t ∧
        t.on SYSC_IRQ.TICK = true ∧
        t.on SYSC_IRQ.TICKLOST = (s.on SYSC_IRQ.TICK || s.on SYSC_IRQ.TICKLOST) ∧
        t.tick.snapGen = s.tick.snapGen + 1 ∧
        t.tick.startAt = s.now)

/-- Plain writes follow the access classes, reads clear RC fields, _LO reads latch the high word. What the bus's plain accesses do to registers. (1) A REGISTER_WRITE of the core that the bus takes, to a listed register of SYSC, BUS or INTC with no behaviour of its own and with the dictionary engine at rest, gives each RW bit the written bit, clears each W1C bit written 1 and keeps every other bit, every other register, the core and every byte of memory. (2) An RC_FIELD_READ that the bus takes, of any register with RC fields, clears those and keeps the register's other bits, every other register and every byte of memory. (3) A HOLD_LO_READ that the bus takes, of any wide register but TIME_NOW and a linked timer's, latches the present high word for this master and block and changes no register and no byte of memory. -/
def Obligations.RegisterAccess : Prop :=
  (∀ (addr data : Word) (s : State), addr.toNat ∈ [Reg.SYSC_IRQ, Reg.SYSC_IRQEN, Reg.SYSC_SUPCFG, Reg.SYSC_GPWAKE, Reg.SYSC_RESUMEVEC, Reg.BUS_CTRL, Reg.INTC_EN 0, Reg.INTC_EN 1] →
      Takes .coreData addr.toNat s →
      DictRest s →
      ∃ t, exec (.registerWrite .coreData addr data) s = .next t ∧
        (match regRow addr.toNat with | some row => (List.range 32).all (fun j => (t.reg addr.toNat).getLsbD j == (if row.rw.testBit j then data.getLsbD j else if row.w1c.testBit j then (s.reg addr.toNat).getLsbD j && !(data.getLsbD j) else (s.reg addr.toNat).getLsbD j)) | none => false) = true ∧
        t.mem = s.mem ∧
        t.core = s.core ∧
        RegsBut [addr.toNat] s t) ∧
  (∀ (m : Master) (addr : Word) (s : State), ((regRow addr.toNat).map (fun r => r.rc != 0)).getD false = true →
      TakesRead m addr.toNat s →
      ∃ t, exec (.rcFieldRead m addr) s = .next t ∧
        (match regRow addr.toNat with | some row => t.reg addr.toNat == s.reg addr.toNat &&& ~~~(BitVec.ofNat 32 row.rc) | none => false) = true ∧
        t.mem = s.mem ∧
        RegsBut [addr.toNat] s t) ∧
  (∀ (m : Master) (addr : Word) (hi : Nat) (s : State), wideHi addr.toNat = some hi →
      addr.toNat ≠ Reg.TIME_NOW_LO →
      TakesRead m addr.toNat s →
      ∃ t, exec (.holdLoRead m addr) s = .next t ∧
        t.readHold m addr.toNat = s.peek m hi ∧
        t.mem = s.mem ∧
        t.regs = s.regs)

/-- A wide value is written high word first and takes force with its low word (R47). A write of _HI loads the write-hold of its master and block and changes no register; the write of _LO then gives the pair the held high word and the written low word, and empties the hold, which reads 0 when no _HI write has come since. -/
def Obligations.WideWrites : Prop :=
  (∀ (m : Master) (addr data : Word) (s : State), s.isHeldHi addr.toNat = true →
      Takes m addr.toNat s →
      DictRest s →
      ∃ t, exec (.holdHiWrite m addr data) s = .next t ∧
        t.writeHold m addr.toNat = data ∧
        t.mem = s.mem ∧
        t.regs = s.regs) ∧
  (∀ (m : Master) (addr data : Word) (s : State), addr.toNat ∈ [Reg.TIME_CORR_LO, Reg.SYSC_TWAKE_LO, Reg.TBL_KEY_LO] ++ (List.range 7).map Reg.TIME_CTGT_LO ++ (List.range 7).map Reg.TIME_CPER_LO →
      Takes m addr.toNat s →
      DictRest s →
      ∃ t, exec (.holdLoWrite m addr data) s = .next t ∧
        t.reg addr.toNat = data ∧
        t.reg (addr.toNat + 4) = s.writeHold m addr.toNat ∧
        t.writeHold m addr.toNat = 0 ∧
        t.mem = s.mem ∧
        RegsBut [addr.toNat, addr.toNat + 4] s t) ∧
  (∀ (m : Master) (n : Fin 8) (k : Fin 3) (addr data : Word) (s : State), addr.toNat = [Reg.TMR_RELOAD, Reg.TMR_CMP0, Reg.TMR_CMP1][k] n →
      s.linked n = true →
      n = pairLo n →
      Takes m addr.toNat s →
      DictRest s →
      ∃ t, exec (.holdLoWrite m addr data) s = .next t ∧
        t.reg addr.toNat = data ∧
        t.reg ([Reg.TMR_RELOAD, Reg.TMR_CMP0, Reg.TMR_CMP1][k] (pairHi n)) = s.writeHold m addr.toNat ∧
        t.writeHold m addr.toNat = 0 ∧
        t.mem = s.mem) ∧
  (∀ (m : Master) (data : Word) (s : State), s.on TWIL_CFG.EN = false →
      Takes m Reg.TWIL_PAIRADDR_LO s →
      DictRest s →
      ∃ t, exec (.holdLoWrite m (BitVec.ofNat 32 Reg.TWIL_PAIRADDR_LO) data) s = .next t ∧
        t.reg Reg.TWIL_PAIRADDR_LO = data ∧
        t.reg Reg.TWIL_PAIRADDR_HI = s.writeHold m Reg.TWIL_PAIRADDR_LO ∧
        t.writeHold m Reg.TWIL_PAIRADDR_LO = 0 ∧
        t.mem = s.mem)

/-- Refused accesses flag and count, and are captured while nothing is. What an access does that the bus refuses, with BUS_FINFO.VALID clear. (1) An OFF_ACCESS of any master but the debug port sets OFFACC, adds 1 to OFFCNT up to 255, records address, master and direction where OFFACC was clear, and is captured as a fault where OFFACC_FAULT is set; no byte of memory changes. (2) A DECODE_ERROR sets DECERR and captures address, cause 1, master and direction; no byte of memory changes. (3) A SIZE_ERROR sets SIZEERR and captures address, cause 2 and master; OFFACC stays, and no byte of memory changes. -/
def Obligations.RefusedAccesses : Prop :=
  (∀ (m : Master) (addr : Word) (size : Size) (write : Bool) (s : State), s.clocked = true →
      m ≠ .debug →
      busRefusal s ⟨m, addr.toNat, size, write⟩ = some .off →
      s.on BUS_FINFO.VALID = false →
      ∃ t, exec (.offAccess m addr size write) s = .next t ∧
        t.on BUS_STAT.OFFACC = true ∧
        t.get BUS_STAT.OFFCNT = min (s.get BUS_STAT.OFFCNT + 1) 255 ∧
        t.on BUS_FINFO.VALID = s.on BUS_CTRL.OFFACC_FAULT ∧
        (s.on BUS_STAT.OFFACC || (t.reg Reg.BUS_OFFADDR == addr && t.get BUS_OFFINFO.MASTER == masterId m && t.on BUS_OFFINFO.WRITE == write)) = true ∧
        t.mem = s.mem) ∧
  (∀ (m : Master) (addr : Word) (size : Size) (write : Bool) (s : State), s.clocked = true →
      busRefusal s ⟨m, addr.toNat, size, write⟩ = some .decode →
      s.on BUS_FINFO.VALID = false →
      ∃ t, exec (.decodeError m addr size write) s = .next t ∧
        t.on BUS_STAT.DECERR = true ∧
        t.reg Reg.BUS_FADDR = addr ∧
        t.on BUS_FINFO.VALID = true ∧
        t.get BUS_FINFO.CAUSE = 1 ∧
        t.get BUS_FINFO.MASTER = masterId m ∧
        t.on BUS_FINFO.WRITE = write ∧
        t.mem = s.mem) ∧
  (∀ (m : Master) (addr : Word) (size : Size) (write : Bool) (s : State), s.clocked = true →
      busRefusal s ⟨m, addr.toNat, size, write⟩ = some .size →
      s.on BUS_FINFO.VALID = false →
      ∃ t, exec (.sizeError m addr size write) s = .next t ∧
        t.on BUS_STAT.SIZEERR = true ∧
        t.on BUS_STAT.OFFACC = s.on BUS_STAT.OFFACC ∧
        t.reg Reg.BUS_FADDR = addr ∧
        t.on BUS_FINFO.VALID = true ∧
        t.get BUS_FINFO.CAUSE = 2 ∧
        t.get BUS_FINFO.MASTER = masterId m ∧
        t.mem = s.mem)

/-- GPIO commands, pin edges and software pulses. What the commands of pins and event matrix do. (1) GPIO_SET that the bus takes sets the named bits of GPIO_OUT and no other; memory and core stay. (2) GPIO_CLR that the bus takes clears the named bits of GPIO_OUT and no other; memory and core stay. (3) GPIO_EDGE on a pin of a supplied bank that drives nothing, with the block's clock running and the level a new one, changes that pad alone and sets the pin's GPIO_IRQ bit where that edge is enabled, leaving it else; memory and core stay. (4) EVM_SWPULSE on a line with SRC 0x3F is captured once, with count and network time, by a TIME capture unit that takes the line's rising edge and has room; memory and core stay. -/
def Obligations.PinRows : Prop :=
  (∀ (bits : BitVec 24) (s : State), Core Reg.GPIO_SET s →
      ∃ t, exec (.gpioSet bits) s = .next t ∧
        t.reg Reg.GPIO_OUT = s.reg Reg.GPIO_OUT ||| bits.setWidth 32 ∧
        t.mem = s.mem ∧
        t.core = s.core) ∧
  (∀ (bits : BitVec 24) (s : State), Core Reg.GPIO_CLR s →
      ∃ t, exec (.gpioClr bits) s = .next t ∧
        t.reg Reg.GPIO_OUT = s.reg Reg.GPIO_OUT &&& ~~~(bits.setWidth 32) ∧
        t.mem = s.mem ∧
        t.core = s.core) ∧
  (∀ (pin : Fin 24) (level : Bool) (s : State), s.gpioClocked = true →
      s.bankOn pin = true →
      s.driven pin = none →
      s.pins.pads.getLsbD pin = !level →
      ∃ t, exec (.gpioEdge pin level) s = .next t ∧
        t.pins.pads = s.pins.pads ^^^ (1#24 <<< pin.val) ∧
        (t.reg Reg.GPIO_IRQ).getLsbD pin = ((s.reg Reg.GPIO_IRQ).getLsbD pin || (s.reg (if level then Reg.GPIO_RISE else Reg.GPIO_FALL)).getLsbD pin) ∧
        t.mem = s.mem ∧
        t.core = s.core) ∧
  (∀ (l : Fin 24) (n : Fin 8) (s : State), Core Reg.EVM_SWPULSE s →
      s.evmClocked = true →
      s.get (EVM_SRC.SRC l) = 0x3F →
      s.on (EVM_SRC.INV l) = false →
      s.on (TIME_CAPCFG.EN n) = true →
      s.get (TIME_CAPCFG.SRC n) = 0x10 + l.val →
      s.get (TIME_CAPCFG.EDGE n) = 1 →
      s.time.caps[n].length < 4 →
      ∃ t, exec (.evmSwpulse (1#24 <<< l.val)) s = .next t ∧
        t.time.caps[n] = s.time.caps[n] ++ [⟨s.now, s.ntAt s.now, 0⟩] ∧
        t.mem = s.mem ∧
        t.core = s.core)

/-- What each reset leaves, and the release of reset. Reset as it asserts (BROWN_OUT_RESET, PIN_RESET, WDT_TIMEOUT, a wrong WDT_FEED, SOFT_RESET, REMOTE_RESET, ALARM_RESET, POWER_ON_RESET) and as it ends (POWER_UP, RESET_N_RISE, INTERNAL_RESET_RELEASE, XO_START_TIMEOUT). "Resets the part" means: the power state is reset, every register outside AON and the RTC section has its reset value, core and engines are at theirs, and with no NVM program in hand retention SRAM, NVM, OTP and external memory are as they were. (1) BROWN_OUT_RESET resets the part in every power state but off, outside a power-on reset, and sets SYSC_RSTCAUSE.BOR. (2) PIN_RESET does the same and sets SYSC_RSTCAUSE.PIN. (3) WDT_TIMEOUT of a watchdog that counts resets the part and sets SYSC_RSTCAUSE.WDT. (4) WDT_FEED with a value other than 0x5A0F, taken by the bus, resets the part and sets SYSC_RSTCAUSE.WDT. (5) SOFT_RESET with the key, taken by the bus, resets the part and sets SYSC_RSTCAUSE.SOFT. (6) SOFT_RESET with another key changes nothing. (7) REMOTE_RESET at the boundary that a commit named resets the part and sets SYSC_RSTCAUSE.REMOTE. (8) ALARM_RESET with the alarm latched, RSTEN set and its record stored resets the part, sets SYSC_RSTCAUSE.ALARM and clears LATCHED. (9) POWER_ON_RESET leaves the part in reset under VBAT with a cold core, every register outside the RTC section, SYSC_LPSTAT and SYSC_SUPSTAT at its reset value; the RTC section keeps its registers with VBACKUP present and loses them without; SYSC_SUPSTAT goes on showing the bank supplies and the backup; NVM and OTP stay, with no program in hand. (10) POWER_UP of a part in a power-on reset starts the time base at 0 and changes no register and no byte of memory. (11) RESET_N_RISE takes the pin's hold off and changes nothing else. (12) INTERNAL_RESET_RELEASE with TEST low and no cause asserted starts the core in run with its boot pending, latches the straps, sets SYSC_RSTCAUSE to POR after a power-on reset and leaves it else, and shows the XO and the PLLs running; memory stays. (13) XO_START_TIMEOUT, likewise, starts the core on the RC and shows XOFAIL and CORERC. -/
def Obligations.Resets : Prop :=
  (∀ (s : State), s.power.st ≠ .off →
      s.power.por = false →
      ∃ t, exec (.brownOutReset) s = .next t ∧
        ResetTo SYSC_RSTCAUSE.BOR s t) ∧
  (∀ (s : State), s.power.st ≠ .off →
      s.power.por = false →
      ∃ t, exec (.pinReset) s = .next t ∧
        ResetTo SYSC_RSTCAUSE.PIN s t) ∧
  (∀ (s : State), s.wdtRuns = true →
      s.power.por = false →
      ∃ t, exec (.wdtTimeout) s = .next t ∧
        ResetTo SYSC_RSTCAUSE.WDT s t) ∧
  (∀ (data : Word) (s : State), Core Reg.WDT_FEED s →
      data ≠ 0x5A0F →
      s.power.por = false →
      ∃ t, exec (.wdtFeed data) s = .next t ∧
        ResetTo SYSC_RSTCAUSE.WDT s t) ∧
  (∀ (s : State), Core Reg.SYSC_SWRST s →
      s.power.por = false →
      ∃ t, exec (.softReset 0xC35A) s = .next t ∧
        ResetTo SYSC_RSTCAUSE.SOFT s t) ∧
  (∀ (key : Word) (s : State), Core Reg.SYSC_SWRST s →
      key ≠ 0xC35A →
      ∃ t, exec (.softReset key) s = .next t ∧
        t = s) ∧
  (∀ (s : State), s.power.remoteIn = some 0 →
      s.power.st ≠ .off →
      s.power.por = false →
      ∃ t, exec (.remoteReset) s = .next t ∧
        ResetTo SYSC_RSTCAUSE.REMOTE s t) ∧
  (∀ (s : State), s.on SEC_ALMSTAT.LATCHED = true →
      s.on SEC_ALMCFG.RSTEN = true →
      s.sec.almStored = true →
      s.power.st ≠ .off →
      s.power.por = false →
      ∃ t, exec (.alarmReset) s = .next t ∧
        t.on SEC_ALMSTAT.LATCHED = false ∧
        ResetTo SYSC_RSTCAUSE.ALARM s t) ∧
  (∀ (vbackup : Bool) (s : State), ∃ t, exec (.powerOnReset vbackup) s = .next t ∧
        t.power.st = .reset ∧
        t.power.por = true ∧
        t.power.vbatLow = true ∧
        t.core = {} ∧
        t.on SYSC_SUPSTAT.IO1LOW = s.pins.io1Off ∧
        t.on SYSC_SUPSTAT.IO2LOW = s.pins.io2Off ∧
        t.on SYSC_SUPSTAT.ONBACKUP = (vbackup && s.on SYSC_SUPSTAT.ONBACKUP) ∧
        (∀ a, regionOf a = .regs → blockOf a = 5 → t.reg a = if vbackup then s.reg a else resetVal a) ∧
        (∀ a, blockOf a ≠ 5 → a ≠ Reg.SYSC_LPSTAT → a ≠ Reg.SYSC_SUPSTAT → t.reg a = resetVal a) ∧
        (∀ b, NvmRest s → regionOf b = .nvm ∨ regionOf b = .otp → t.rb b = s.rb b)) ∧
  (∀ (s : State), s.power.st = .reset →
      s.power.vbatLow = true →
      s.power.por = true →
      ∃ t, exec (.powerUp) s = .next t ∧
        t.power.vbatLow = false ∧
        t.power.st = .reset ∧
        t.now = 0 ∧
        t.mem = s.mem ∧
        t.regs = s.regs) ∧
  (∀ (s : State), ∃ t, exec (.resetNRise) s = .next t ∧
        t = { s with power := { s.power with pinLow := false } }) ∧
  (∀ (gp0 gp1 role : Bool) (s : State), s.power.st = .reset →
      s.power.vbatLow = false →
      s.power.pinLow = false →
      ∃ t, exec (.internalResetRelease gp0 gp1 role false) s = .next t ∧
        t.power.por = false ∧
        t.power.st = .run ∧
        t.boot.due = true ∧
        t.reg Reg.GPIO_STRAP = BitVec.ofNat 32 (b2n gp0 + 2 * b2n gp1 + 4 * b2n role) ∧
        t.reg Reg.SYSC_RSTCAUSE = (if s.power.por then 1 else s.reg Reg.SYSC_RSTCAUSE) ∧
        t.on SYSC_CLKSTAT.XOOK = true ∧
        t.on SYSC_CLKSTAT.XOFAIL = false ∧
        t.on SYSC_LPSTAT.PLLRUN = true ∧
        t.mem = s.mem) ∧
  (∀ (gp0 gp1 role : Bool) (s : State), s.power.st = .reset →
      s.power.vbatLow = false →
      s.power.pinLow = false →
      ∃ t, exec (.xoStartTimeout gp0 gp1 role false) s = .next t ∧
        t.power.st = .run ∧
        t.boot.due = true ∧
        t.on SYSC_CLKSTAT.XOOK = false ∧
        t.on SYSC_CLKSTAT.XOFAIL = true ∧
        t.on SYSC_CLKSTAT.CORERC = true ∧
        t.on SYSC_LPSTAT.PLLRUN = false ∧
        t.mem = s.mem)

/-- TEST high at the release of reset stops. INTERNAL_RESET_RELEASE and XO_START_TIMEOUT with TEST high and no cause asserted stop with the fault factoryTest: the spec specifies no function of the factory test mode (R63). -/
def Obligations.FactoryTestStops : Prop :=
  ∀ (gp0 gp1 role : Bool) (s : State), s.power.st = .reset → s.power.vbatLow = false → s.power.pinLow = false →
    exec (.internalResetRelease gp0 gp1 role true) s = .fault .factoryTest ∧
    exec (.xoStartTimeout gp0 gp1 role true) s = .fault .factoryTest

/-- Supplies, oscillators, clock gates and the watchdog. What the commands of chapter 04 beside the resets do. (1) XO_FAIL in run or idle with the PLLs running sets XOFAIL and CORERC, clears PLLRUN, switches RADIO and RING off, makes network time invalid and leaves the core's registers. (2) XT_FAIL clears XTOK and sets XTFAIL and LPRC; memory and core stay. (3) XT_STABLE sets XTOK, clears LPRC and changes no other register; memory and core stay. (4) BROWN_OUT_WARNING in run with BOWLVL 1 to 5 sets BOWNOW and BOW and changes no other register; memory and core stay. (5) BROWN_OUT_WARNING with BOWLVL 1 to 5 in every power state but off and reset sets BOWNOW and BOW; memory stays. (6) BROWN_OUT_WARNING_CLEAR clears BOWNOW, leaves BOW and changes no other register; memory stays. (7) BACKUP_SWITCHOVER puts ONBACKUP to the side in use and changes no other register; memory stays. (8) VDDIO_LOW sets or clears its bank's flag in SYSC_SUPSTAT and, by the model's choice (log entry 43), takes the bank's supply for absent while it is set; core and memory stay. (9) WDT_CTRL_WRITE before EN is set writes the register's defined bits, starts the count and changes no other register. (10) WDT_CTRL_WRITE after EN is set changes nothing. (11) WDT_FEED with 0x5A0F starts the count again and changes nothing else. (12) CLKGATE_WRITE with the recorder's and the security engine's clocks open writes the gate bits and changes no other register and no byte of memory. (13) CLKGATE_WRITE that the bus takes leaves SYSC_CLKGATE with the written gate bits. (14) WDT_FEED with another value brings the part to reset with SYSC_RSTCAUSE.WDT set. -/
def Obligations.SupplyAndClockRows : Prop :=
  (∀ (s : State), s.power.st = .run ∨ s.power.st = .idle →
      s.power.xoDead = false →
      s.on SYSC_LPSTAT.PLLRUN = true →
      ∃ t, exec (.xoFail) s = .next t ∧
        t.on SYSC_CLKSTAT.XOFAIL = true ∧
        t.on SYSC_CLKSTAT.CORERC = true ∧
        t.on SYSC_LPSTAT.PLLRUN = false ∧
        t.radioOn = false ∧
        t.ringOn = false ∧
        t.time.valid = false ∧
        t.core = s.core) ∧
  (∀ (s : State), ∃ t, exec (.xtFail) s = .next t ∧
        t.on SYSC_CLKSTAT.XTOK = false ∧
        t.on SYSC_CLKSTAT.XTFAIL = true ∧
        t.on SYSC_CLKSTAT.LPRC = true ∧
        t.mem = s.mem ∧
        t.core = s.core) ∧
  (∀ (s : State), ∃ t, exec (.xtStable) s = .next t ∧
        t.on SYSC_CLKSTAT.XTOK = true ∧
        t.on SYSC_CLKSTAT.LPRC = false ∧
        t.mem = s.mem ∧
        t.core = s.core ∧
        RegsBut [Reg.SYSC_CLKSTAT] s t) ∧
  (∀ (s : State), s.get SYSC_SUPCFG.BOWLVL ∈ [1, 2, 3, 4, 5] →
      s.power.st = .run →
      ∃ t, exec (.brownOutWarning) s = .next t ∧
        t.on SYSC_SUPSTAT.BOWNOW = true ∧
        t.on SYSC_SUPSTAT.BOW = true ∧
        t.mem = s.mem ∧
        t.core = s.core ∧
        RegsBut [Reg.SYSC_SUPSTAT] s t) ∧
  (∀ (s : State), s.get SYSC_SUPCFG.BOWLVL ∈ [1, 2, 3, 4, 5] →
      s.power.st ≠ .off ∧ s.power.st ≠ .reset →
      ∃ t, exec (.brownOutWarning) s = .next t ∧
        t.on SYSC_SUPSTAT.BOWNOW = true ∧
        t.on SYSC_SUPSTAT.BOW = true ∧
        t.mem = s.mem) ∧
  (∀ (s : State), ∃ t, exec (.brownOutWarningClear) s = .next t ∧
        t.on SYSC_SUPSTAT.BOWNOW = false ∧
        t.on SYSC_SUPSTAT.BOW = s.on SYSC_SUPSTAT.BOW ∧
        t.mem = s.mem ∧
        RegsBut [Reg.SYSC_SUPSTAT] s t) ∧
  (∀ (toBackup : Bool) (s : State), ∃ t, exec (.backupSwitchover toBackup) s = .next t ∧
        t.on SYSC_SUPSTAT.ONBACKUP = toBackup ∧
        t.mem = s.mem ∧
        RegsBut [Reg.SYSC_SUPSTAT] s t) ∧
  (∀ (bank low : Bool) (s : State), ∃ t, exec (.vddioLow bank low) s = .next t ∧
        t.on (if bank then SYSC_SUPSTAT.IO2LOW else SYSC_SUPSTAT.IO1LOW) = low ∧
        (if bank then t.pins.io2Off else t.pins.io1Off) = low ∧
        t.core = s.core ∧
        t.mem = s.mem) ∧
  (∀ (data : Word) (s : State), Core Reg.WDT_CTRL s →
      s.on WDT_CTRL.EN = false →
      ∃ t, exec (.wdtCtrlWrite data) s = .next t ∧
        t.reg Reg.WDT_CTRL = data &&& 0xFFFF0003 ∧
        t.power.wdtFrom = s.now ∧
        t.mem = s.mem ∧
        RegsBut [Reg.WDT_CTRL] s t) ∧
  (∀ (data : Word) (s : State), Core Reg.WDT_CTRL s →
      s.on WDT_CTRL.EN = true →
      ∃ t, exec (.wdtCtrlWrite data) s = .next t ∧
        t = s) ∧
  (∀ (s : State), Core Reg.WDT_FEED s →
      ∃ t, exec (.wdtFeed 0x5A0F) s = .next t ∧
        t = { s with power := { s.power with wdtFrom := s.now } }) ∧
  (∀ (data : Word) (s : State), Core Reg.SYSC_CLKGATE s →
      s.on SYSC_CLKGATE.EVR = true →
      s.on SYSC_CLKGATE.SEC = true →
      ∃ t, exec (.clkgateWrite data) s = .next t ∧
        t.reg Reg.SYSC_CLKGATE = data &&& 0x1FF ∧
        t.mem = s.mem ∧
        RegsBut [Reg.SYSC_CLKGATE] s t) ∧
  (∀ (data : Word) (s : State), Core Reg.SYSC_CLKGATE s →
      ∃ t, exec (.clkgateWrite data) s = .next t ∧
        t.reg Reg.SYSC_CLKGATE = data &&& 0x1FF) ∧
  (∀ (data : Word) (s : State), Core Reg.WDT_FEED s →
      data ≠ 0x5A0F →
      s.power.por = false →
      ∃ t, exec (.wdtFeed data) s = .next t ∧
        t.power.st = .reset ∧
        t.on SYSC_RSTCAUSE.WDT = true)

/-- Domains switch on and off. What DOMAIN_ENABLE and DOMAIN_DISABLE, taken by the bus, and START_CALIBRATION_DONE do (the firmware switches domains by SYSC_PDCTL). (1) DOMAIN_ENABLE of a domain that is off (RADIO and RING only with the XO sound and the PLLs running) powers it, sets its bits of SYSC_PDCTL and SYSC_PDSTAT and leaves memory and the core. (2) For RADIO it also begins the calibration, the full set at the first enable after a reset or with nothing saved. (3) DOMAIN_ENABLE of a domain that is on sets its bit of SYSC_PDCTL, takes back a switching-off of RADIO that waits, and changes no other register. (4) DOMAIN_ENABLE of RADIO or RING while PLLRUN = 0 is held and changes nothing else; that the bit of SYSC_PDCTL reads 0 meanwhile is the model's choice (log entry 44). (5) DOMAIN_ENABLE of RADIO or RING with XOFAIL set is discarded. (6) DOMAIN_DISABLE of RADIO with no transmission switches it off, keeps its part of the saved set, loses its memories and returns its registers to their reset values; SRAM, retention SRAM, NVM, OTP and external memory stay. (7) During a transmission, its preparation included, the switching-off waits and only SYSC_PDCTL changes. (8) DOMAIN_DISABLE of RING or MSU switches it off and returns its registers to their reset values; the same memories stay. (9) START_CALIBRATION_DONE of a calibration that runs sets DONE and CALEND, clears BUSY and ends the run. -/
def Obligations.DomainRows : Prop :=
  (∀ (d : PDom) (s : State), Core Reg.SYSC_PDCTL s →
      d = .msu ∨ (s.on SYSC_CLKSTAT.XOFAIL = false ∧ s.on SYSC_LPSTAT.PLLRUN = true) →
      s.on (pdstat d) = false →
      ∃ t, exec (.domainEnable d) s = .next t ∧
        t.on (pdstat d) = true ∧
        t.on (pdctl d) = true ∧
        t.mem = s.mem ∧
        t.core = s.core) ∧
  (∀ (s : State), Core Reg.SYSC_PDCTL s →
      s.on SYSC_CLKSTAT.XOFAIL = false →
      s.on SYSC_LPSTAT.PLLRUN = true →
      s.on SYSC_PDSTAT.RADIO = false →
      ∃ t, exec (.domainEnable .radio) s = .next t ∧
        t.power.calRun = true ∧
        t.power.calFull = (s.power.calFull || s.power.saved.isEmpty) ∧
        t.on RFRX_CALSTAT.BUSY = true ∧
        t.on RFRX_CALSTAT.DONE = false) ∧
  (∀ (d : PDom) (s : State), Core Reg.SYSC_PDCTL s →
      d = .msu ∨ (s.on SYSC_CLKSTAT.XOFAIL = false ∧ s.on SYSC_LPSTAT.PLLRUN = true) →
      s.on (pdstat d) = true →
      ∃ t, exec (.domainEnable d) s = .next t ∧
        t.on (pdctl d) = true ∧
        t.power.radioOffDue = (s.power.radioOffDue && d != .radio) ∧
        t.mem = s.mem ∧
        t.core = s.core ∧
        RegsBut [Reg.SYSC_PDCTL] s t) ∧
  (∀ (d : PDom) (s : State), Core Reg.SYSC_PDCTL s →
      d ≠ .msu →
      s.on SYSC_CLKSTAT.XOFAIL = false →
      s.on SYSC_LPSTAT.PLLRUN = false →
      ∃ t, exec (.domainEnable d) s = .next t ∧
        t = { s with power := { s.power with heldPd := s.power.heldPd ||| (1#3 <<< pdBit d) } }) ∧
  (∀ (d : PDom) (s : State), Core Reg.SYSC_PDCTL s →
      d ≠ .msu →
      s.on SYSC_CLKSTAT.XOFAIL = true →
      ∃ t, exec (.domainEnable d) s = .next t ∧
        t = s) ∧
  (∀ (s : State), Core Reg.SYSC_PDCTL s →
      s.radioOn = true →
      s.txBusy = false →
      ∃ t, exec (.domainDisable .radio) s = .next t ∧
        t.radioOn = false ∧
        t.on SYSC_PDCTL.RADIO = false ∧
        savedRadio.all (fun a => t.power.saved.contains (a, s.reg a)) = true ∧
        t.shtl = {} ∧
        t.loom = {} ∧
        (∀ a, domainReg .radio a = true → t.reg a = resetVal a) ∧
        (∀ a, lasting a ∨ regionOf a = .sram → t.rb a = s.rb a)) ∧
  (∀ (s : State), Core Reg.SYSC_PDCTL s →
      s.radioOn = true →
      s.txBusy = true →
      ∃ t, exec (.domainDisable .radio) s = .next t ∧
        t.radioOn = true ∧
        t.on SYSC_PDCTL.RADIO = false ∧
        t.power.radioOffDue = true ∧
        t.tx = s.tx ∧
        t.mem = s.mem ∧
        RegsBut [Reg.SYSC_PDCTL] s t) ∧
  (∀ (d : PDom) (s : State), Core Reg.SYSC_PDCTL s →
      d ≠ .radio →
      s.on (pdstat d) = true →
      ∃ t, exec (.domainDisable d) s = .next t ∧
        t.on (pdstat d) = false ∧
        t.on (pdctl d) = false ∧
        (∀ a, domainReg d a = true → t.reg a = resetVal a) ∧
        (∀ a, lasting a ∨ regionOf a = .sram → t.rb a = s.rb a)) ∧
  (∀ (failed : BitVec 6) (temp : BitVec 16) (s : State), s.radioOn = true →
      s.power.calRun = true →
      ∃ t, exec (.startCalibrationDone failed temp) s = .next t ∧
        t.on RFRX_CALSTAT.DONE = true ∧
        t.on RFRX_CALSTAT.BUSY = false ∧
        t.on RFRX_IRQ.CALEND = true ∧
        t.power.calRun = false ∧
        t.power.calFull = false)

/-- Entry to the low-power states. What ENTER_IDLE, ENTER_SLEEP, ENTER_DEEP_SLEEP and ENTER_OFF do from run when the bus takes the core's write, and what DRAIN_END and POWER_DOWN_COMPLETE do. (1) ENTER_IDLE stops the core and changes only SYSC_PWRCTL; memory stays. (2) ENTER_SLEEP with something that could wake the part begins the drain phase and sets ENTERING; the core's registers stay. (3) ENTER_DEEP_SLEEP likewise. (4) ENTER_OFF begins the drain phase in every case. (5) ENTER_SLEEP with nothing that could wake the part sets NOWAKE, stays in run and changes no register but SYSC_PWRCTL and SYSC_LPSTAT. (6) ENTER_DEEP_SLEEP likewise. (7) DRAIN_END with nothing left to wait for and no host frame in progress begins the save phase and changes nothing else but that the store counts as written anew. (8) The same with a host frame in progress: the save phase begins and the core's registers stay. (9) DRAIN_END while something is still waited for (a transmission, an NVM or external-memory command, a record) changes nothing. (10) POWER_DOWN_COMPLETE into sleep with no wake arrived, no enabled pin moved and no handoff pending: the part sleeps, the switchable domains are off, the PLLs stopped; core, SRAM, retention SRAM, NVM, OTP and external memory stay. (11) In every case into sleep the domains are off and the PLLs stopped, and a wake source that came during entry starts the wake at once with SYSC_WAKESRC.DURENTRY. (12) POWER_DOWN_COMPLETE into deep sleep with no wake arrived, the GPIO source not enabled, no handoff pending and no NVM program in hand: the part is in deep sleep, the core's registers are lost, the buck is off, registers of the saved set keep their values (eight named ones stand for it here), and retention SRAM, NVM, OTP and external memory stay. (13) In every case into deep sleep the PLLs are stopped and a source that came during entry starts the wake at once with SYSC_WAKESRC.DURENTRY. (14) POWER_DOWN_COMPLETE into off with WAKE low: the part is off, and every register but the RTC section's, SYSC_LPSTAT and SYSC_SUPSTAT has its reset value. (15) With WAKE high the power-up begins with FROMOFF set. -/
def Obligations.EntryRows : Prop :=
  (∀ (s : State), s.power.st = .run →
      Takes .coreData Reg.SYSC_PWRCTL s →
      ∃ t, exec (.enterIdle .coreData) s = .next t ∧
        t.power.st = .idle ∧
        t.mem = s.mem ∧
        t.core = s.core ∧
        RegsBut [Reg.SYSC_PWRCTL] s t) ∧
  (∀ (s : State), s.power.st = .run →
      Takes .coreData Reg.SYSC_PWRCTL s →
      s.noWake = false →
      ∃ t, exec (.enterSleep .coreData) s = .next t ∧
        t.power.st = .draining .sleep ∧
        t.on SYSC_LPSTAT.ENTERING = true ∧
        t.core = s.core) ∧
  (∀ (s : State), s.power.st = .run →
      Takes .coreData Reg.SYSC_PWRCTL s →
      s.noWake = false →
      ∃ t, exec (.enterDeepSleep .coreData) s = .next t ∧
        t.power.st = .draining .deepSleep ∧
        t.on SYSC_LPSTAT.ENTERING = true ∧
        t.core = s.core) ∧
  (∀ (s : State), s.power.st = .run →
      Takes .coreData Reg.SYSC_PWRCTL s →
      ∃ t, exec (.enterOff .coreData) s = .next t ∧
        t.power.st = .draining .off ∧
        t.on SYSC_LPSTAT.ENTERING = true ∧
        t.core = s.core) ∧
  (∀ (s : State), s.power.st = .run →
      Takes .coreData Reg.SYSC_PWRCTL s →
      s.noWake = true →
      ∃ t, exec (.enterSleep .coreData) s = .next t ∧
        t.power.st = .run ∧
        t.on SYSC_LPSTAT.NOWAKE = true ∧
        t.mem = s.mem ∧
        t.core = s.core ∧
        RegsBut [Reg.SYSC_PWRCTL, Reg.SYSC_LPSTAT] s t) ∧
  (∀ (s : State), s.power.st = .run →
      Takes .coreData Reg.SYSC_PWRCTL s →
      s.noWake = true →
      ∃ t, exec (.enterDeepSleep .coreData) s = .next t ∧
        t.power.st = .run ∧
        t.on SYSC_LPSTAT.NOWAKE = true ∧
        t.mem = s.mem ∧
        t.core = s.core ∧
        RegsBut [Reg.SYSC_PWRCTL, Reg.SYSC_LPSTAT] s t) ∧
  (∀ (low : LowState) (s : State), s.power.st = .draining low →
      s.drained = true →
      ∃ t, exec (.drainEnd false) s = .next t ∧
        t = { s with power := { s.power with st := .saving low, storeGone := false } }) ∧
  (∀ (frame : Bool) (low : LowState) (s : State), s.power.st = .draining low →
      s.drained = true →
      ∃ t, exec (.drainEnd frame) s = .next t ∧
        t.power.st = .saving low ∧
        t.core = s.core) ∧
  (∀ (frame : Bool) (s : State), s.drained = false →
      ∃ t, exec (.drainEnd frame) s = .next t ∧
        t = s) ∧
  (∀ (wakeHigh : Bool) (s : State), s.power.st = .saving .sleep →
      s.power.entryWake = 0 →
      (s.wakeEnabled .gpio = true → s.pinsMoved = 0) →
      s.mac.handPend = false →
      ∃ t, exec (.powerDownComplete wakeHigh) s = .next t ∧
        t.power.st = .sleep ∧
        t.radioOn = false ∧
        t.ringOn = false ∧
        t.msuOn = false ∧
        t.on SYSC_LPSTAT.PLLRUN = false ∧
        t.on SYSC_LPSTAT.ENTERING = false ∧
        t.core = s.core ∧
        (∀ a, lasting a ∨ regionOf a = .sram → t.rb a = s.rb a)) ∧
  (∀ (wakeHigh : Bool) (s : State), s.power.st = .saving .sleep →
      ∃ t, exec (.powerDownComplete wakeHigh) s = .next t ∧
        (t.power.st = .sleep ∨ t.power.st = .waking .sleep) ∧
        (s.power.entryWake ≠ 0 → t.power.st = .waking .sleep ∧ t.on SYSC_WAKESRC.DURENTRY = true) ∧
        t.radioOn = false ∧
        t.ringOn = false ∧
        t.msuOn = false ∧
        t.on SYSC_LPSTAT.PLLRUN = false) ∧
  (∀ (wakeHigh : Bool) (s : State), s.power.st = .saving .deepSleep →
      s.power.entryWake = 0 →
      s.wakeEnabled .gpio = false →
      s.mac.handPend = false →
      NvmRest s →
      ∃ t, exec (.powerDownComplete wakeHigh) s = .next t ∧
        t.power.st = .deepSleep ∧
        t.core.cpu = {} ∧
        t.on SYSC_SUPSTAT.BUCKOK = false ∧
        [Reg.SYSC_SUPCFG, Reg.SYSC_CLKGATE, Reg.SYSC_RESUMEVEC, Reg.BUS_CTRL, Reg.INTC_EN 0, Reg.EVM_SRC 5, Reg.GPIO_OUT, Reg.SEC_CFG].all (fun a => t.reg a == s.reg a) = true ∧
        (∀ a, lasting a → t.rb a = s.rb a)) ∧
  (∀ (wakeHigh : Bool) (s : State), s.power.st = .saving .deepSleep →
      ∃ t, exec (.powerDownComplete wakeHigh) s = .next t ∧
        (t.power.st = .deepSleep ∨ t.power.st = .waking .deepSleep) ∧
        (s.power.entryWake ≠ 0 → t.power.st = .waking .deepSleep ∧ t.on SYSC_WAKESRC.DURENTRY = true) ∧
        t.on SYSC_LPSTAT.PLLRUN = false) ∧
  (∀ (s : State), s.power.st = .saving .off →
      ∃ t, exec (.powerDownComplete false) s = .next t ∧
        t.power.st = .off ∧
        t.core = {} ∧
        (∀ a, (regionOf a = .regs → blockOf a ≠ 5) → a ≠ Reg.SYSC_LPSTAT → a ≠ Reg.SYSC_SUPSTAT → t.reg a = resetVal a)) ∧
  (∀ (s : State), s.power.st = .saving .off →
      ∃ t, exec (.powerDownComplete true) s = .next t ∧
        t.power.st = .reset ∧
        t.on SYSC_LPSTAT.FROMOFF = true ∧
        t.core = {})

/-- Waking. What IDLE_WAKE, WAKE_RECOGNISED, TIMED_WAKE, CORE_RESUME, PLL_LOCK, DEEP_SLEEP_RESUME and WAKE_PIN do. (1) IDLE_WAKE in idle with an enabled line pending returns the part to run and changes nothing else. (2) WAKE_RECOGNISED of an enabled source in sleep or deep sleep (for GPIO: with an enabled pin moved since it was sampled) begins the wake, sets the source's bit of SYSC_WAKESRC and LAST, and changes no other register and no memory. (3) WAKE_RECOGNISED of a source that is not enabled changes nothing. (4) WAKE_RECOGNISED of GPIO with no enabled pin moved changes nothing. (5) TIMED_WAKE in sleep or deep sleep with the source enabled and the named time less LEAD reached begins the wake and sets its bit of SYSC_WAKESRC; that it does not ask whether network time is valid is the model's choice (log entry 44). (6) CORE_RESUME of a wake from sleep returns the part to run with the core's registers as they were. (7) PLL_LOCK in run or idle with the XO sound and the PLLs stopped shows the XO, the buck and the PLLs running, moves the count on by less than one low-power period (by how much is a free value) and ends the hold on domains. (8) PLL_LOCK of a wake from deep sleep does the same while the wake goes on. (9) PLL_LOCK after an XO failure changes nothing. (10) DEEP_SLEEP_RESUME with the PLLs running and SYSC_RESUMEVEC in NVM, the XIP window or retention SRAM returns to run at that address with the 16 receive-parameter entries at their defaults. (11) With SYSC_RESUMEVEC elsewhere a full boot is due. (12) WAKE_PIN in off begins the power-up, sets FROMOFF and changes no other register and no memory. -/
def Obligations.WakeRows : Prop :=
  (∀ (s : State), s.power.st = .idle →
      s.anyEnabledLine = true →
      ∃ t, exec (.idleWake) s = .next t ∧
        t = { s with power := { s.power with st := .run } }) ∧
  (∀ (src : WakeSrc) (low : LowState) (s : State), (src = .gpio → s.pinsMoved ≠ 0) →
      (low = .sleep ∧ s.power.st = .sleep) ∨ (low = .deepSleep ∧ s.power.st = .deepSleep) →
      s.wakeEnabled src = true →
      ∃ t, exec (.wakeRecognised src) s = .next t ∧
        t.power.st = .waking low ∧
        (t.reg Reg.SYSC_WAKESRC).getLsbD (wakeBit src) = true ∧
        t.get SYSC_LPSTAT.LAST = (if low = .sleep then 1 else 2) ∧
        t.mem = s.mem ∧
        t.core = s.core ∧
        RegsBut [Reg.SYSC_WAKESRC, Reg.SYSC_LPSTAT] s t) ∧
  (∀ (src : WakeSrc) (s : State), s.wakeEnabled src = false →
      ∃ t, exec (.wakeRecognised src) s = .next t ∧
        t = s) ∧
  (∀ (s : State), s.pinsMoved = 0 →
      ∃ t, exec (.wakeRecognised .gpio) s = .next t ∧
        t = s) ∧
  (∀ (low : LowState) (s : State), (low = .sleep ∧ s.power.st = .sleep) ∨ (low = .deepSleep ∧ s.power.st = .deepSleep) →
      s.twakeDue = true →
      s.wakeEnabled .tWake = true →
      ∃ t, exec (.timedWake) s = .next t ∧
        t.power.st = .waking low ∧
        (t.reg Reg.SYSC_WAKESRC).getLsbD 5 = true ∧
        t.mem = s.mem ∧
        t.core = s.core ∧
        RegsBut [Reg.SYSC_WAKESRC, Reg.SYSC_LPSTAT] s t) ∧
  (∀ (s : State), s.power.st = .waking .sleep →
      ∃ t, exec (.coreResume) s = .next t ∧
        t.power.st = .run ∧
        t.core = s.core) ∧
  (∀ (s : State), s.power.st = .run ∨ s.power.st = .idle →
      s.power.xoDead = false →
      s.on SYSC_LPSTAT.PLLRUN = false →
      ∃ t, exec (.pllLock) s = .next t ∧
        t.on SYSC_LPSTAT.PLLRUN = true ∧
        t.on SYSC_CLKSTAT.XOOK = true ∧
        t.on SYSC_CLKSTAT.SPLL = true ∧
        t.on SYSC_CLKSTAT.TPLL = true ∧
        t.on SYSC_SUPSTAT.BUCKOK = true ∧
        s.now ≤ t.now ∧ t.now < s.now + 7630 ∧
        t.power.heldPd = 0 ∧
        t.core = s.core) ∧
  (∀ (s : State), s.power.st = .waking .deepSleep →
      s.power.xoDead = false →
      s.on SYSC_LPSTAT.PLLRUN = false →
      ∃ t, exec (.pllLock) s = .next t ∧
        t.on SYSC_LPSTAT.PLLRUN = true ∧
        t.power.heldPd = 0 ∧
        t.power.st = .waking .deepSleep) ∧
  (∀ (s : State), s.power.xoDead = true →
      ∃ t, exec (.pllLock) s = .next t ∧
        t = s) ∧
  (∀ (s : State), s.power.st = .waking .deepSleep →
      s.on SYSC_LPSTAT.PLLRUN = true →
      s.power.xoDead = false →
      regionOf (s.reg Reg.SYSC_RESUMEVEC).toNat ∈ [Region.nvm, .xip, .retention] →
      ∃ t, exec (.deepSleepResume) s = .next t ∧
        t.power.st = .run ∧
        t.core.cpu.pc = s.reg Reg.SYSC_RESUMEVEC ∧
        t.bytes 0x200FF000 512 = (List.range 16).flatMap (fun _ => rxParamDefault)) ∧
  (∀ (s : State), s.power.st = .waking .deepSleep →
      s.on SYSC_LPSTAT.PLLRUN = true →
      s.power.xoDead = false →
      regionOf (s.reg Reg.SYSC_RESUMEVEC).toNat ∉ [Region.nvm, .xip, .retention] →
      ∃ t, exec (.deepSleepResume) s = .next t ∧
        t.power.st = .run ∧
        t.boot.due = true ∧
        t.core = s.core) ∧
  (∀ (s : State), s.power.st = .off →
      ∃ t, exec (.wakePin) s = .next t ∧
        t.power.st = .reset ∧
        t.on SYSC_LPSTAT.FROMOFF = true ∧
        t.mem = s.mem ∧
        t.core = s.core ∧
        RegsBut [Reg.SYSC_LPSTAT] s t)

/-- Register arithmetic, logic and shifts. (1) On the core, a bundle of ADD and SUB with different destinations waits for its last syllable, then both read the old values of rs1 and rs2, the pc goes on by 8 and every other register and memory stay. (2) On the core or a Weft engine at a bundle boundary outside a repeat, a bundle of one of ADD, SUB, AND, OR, XOR, SHL, SHR, SAR writes rd alone, with the value modulo 2^32 of the operation on rs1 and rs2, shifts by rs2[4:0]; g0 discards it; the pc goes on by 4 and memory stays. -/
def Obligations.RegisterArithmetic : Prop :=
  (∀ (rd re rs1 rs2 : BitVec 5) (s : State), Ready 2 .core s → rd ≠ re →
    (∃ u, exec (.add .core false rd rs1 rs2 0) s = .next u ∧ u.mem = s.mem ∧ u.core.cpu.g = s.core.cpu.g ∧
      (∃ t, exec (.sub .core true re rs1 rs2 0) u = .next t ∧ t.core.cpu.pc = s.core.cpu.pc + 8 ∧ t.mem = s.mem ∧
        (rd ≠ 0 → gr .core t rd = gr .core s rs1 + gr .core s rs2) ∧ (re ≠ 0 → gr .core t re = gr .core s rs1 - gr .core s rs2) ∧
        ∀ r, r ≠ rd → r ≠ re → gr .core t r = gr .core s r))) ∧
  ∀ (ag : Agent) (rd rs1 rs2 : BitVec 5) (s : State), Ready 1 ag s →
    (∃ t, exec (.add ag true rd rs1 rs2 0) s = .next t ∧ Wrote ag rd (gr ag s rs1 + gr ag s rs2) s t) ∧
    (∃ t, exec (.sub ag true rd rs1 rs2 0) s = .next t ∧ Wrote ag rd (gr ag s rs1 - gr ag s rs2) s t) ∧
    (∃ t, exec (.andR ag true rd rs1 rs2 0) s = .next t ∧ Wrote ag rd (gr ag s rs1 &&& gr ag s rs2) s t) ∧
    (∃ t, exec (.orR ag true rd rs1 rs2 0) s = .next t ∧ Wrote ag rd (gr ag s rs1 ||| gr ag s rs2) s t) ∧
    (∃ t, exec (.xorR ag true rd rs1 rs2 0) s = .next t ∧ Wrote ag rd (gr ag s rs1 ^^^ gr ag s rs2) s t) ∧
    (∃ t, exec (.shl ag true rd rs1 rs2 0) s = .next t ∧ Wrote ag rd (gr ag s rs1 <<< ((gr ag s rs2).toNat % 32)) s t) ∧
    (∃ t, exec (.shr ag true rd rs1 rs2 0) s = .next t ∧ Wrote ag rd (gr ag s rs1 >>> ((gr ag s rs2).toNat % 32)) s t) ∧
    (∃ t, exec (.sar ag true rd rs1 rs2 0) s = .next t ∧ Wrote ag rd ((gr ag s rs1).sshiftRight ((gr ag s rs2).toNat % 32)) s t)

/-- Minimum, maximum, compares, SEL and the extensions. On the core or a Weft engine at a bundle boundary outside a repeat, a bundle of one of MIN, MAX, MINU, MAXU, the six register compares, SEL, CLZ, SEXTB, SEXTH, ZEXTH writes rd alone with the value the opcode table gives; the pc goes on by 4 and memory stays. -/
def Obligations.CompareAndSelect : Prop :=
  ∀ (ag : Agent) (rd rs1 rs2 : BitVec 5) (s : State), Ready 1 ag s →
    (∃ t, exec (.minS ag true rd rs1 rs2 0) s = .next t ∧ Wrote ag rd (if (gr ag s rs1).slt (gr ag s rs2) then gr ag s rs1 else gr ag s rs2) s t) ∧
    (∃ t, exec (.maxS ag true rd rs1 rs2 0) s = .next t ∧ Wrote ag rd (if (gr ag s rs1).slt (gr ag s rs2) then gr ag s rs2 else gr ag s rs1) s t) ∧
    (∃ t, exec (.minu ag true rd rs1 rs2 0) s = .next t ∧ Wrote ag rd (if (gr ag s rs1).ult (gr ag s rs2) then gr ag s rs1 else gr ag s rs2) s t) ∧
    (∃ t, exec (.maxu ag true rd rs1 rs2 0) s = .next t ∧ Wrote ag rd (if (gr ag s rs1).ult (gr ag s rs2) then gr ag s rs2 else gr ag s rs1) s t) ∧
    (∃ t, exec (.cmpeq ag true rd rs1 rs2 0) s = .next t ∧ Wrote ag rd (if gr ag s rs1 = gr ag s rs2 then 1 else 0) s t) ∧
    (∃ t, exec (.cmpne ag true rd rs1 rs2 0) s = .next t ∧ Wrote ag rd (if gr ag s rs1 = gr ag s rs2 then 0 else 1) s t) ∧
    (∃ t, exec (.cmplt ag true rd rs1 rs2 0) s = .next t ∧ Wrote ag rd (if (gr ag s rs1).slt (gr ag s rs2) then 1 else 0) s t) ∧
    (∃ t, exec (.cmpltu ag true rd rs1 rs2 0) s = .next t ∧ Wrote ag rd (if (gr ag s rs1).ult (gr ag s rs2) then 1 else 0) s t) ∧
    (∃ t, exec (.cmple ag true rd rs1 rs2 0) s = .next t ∧ Wrote ag rd (if (gr ag s rs1).sle (gr ag s rs2) then 1 else 0) s t) ∧
    (∃ t, exec (.cmpleu ag true rd rs1 rs2 0) s = .next t ∧ Wrote ag rd (if (gr ag s rs1).ule (gr ag s rs2) then 1 else 0) s t) ∧
    (∀ rc : BitVec 5, (∃ t, exec (.sel ag true rd rs1 rs2 (rc ++ 0#4)) s = .next t ∧ Wrote ag rd (if gr ag s rc = 0 then gr ag s rs2 else gr ag s rs1) s t)) ∧
    (∃ t, exec (.clz ag true rd rs1 0 0) s = .next t ∧ Wrote ag rd (if gr ag s rs1 = 0 then 32 else BitVec.ofNat 32 (31 - (gr ag s rs1).toNat.log2)) s t) ∧
    (∃ t, exec (.sextb ag true rd rs1 0 0) s = .next t ∧ Wrote ag rd (((gr ag s rs1).setWidth 8).signExtend 32) s t) ∧
    (∃ t, exec (.sexth ag true rd rs1 0 0) s = .next t ∧ Wrote ag rd (((gr ag s rs1).setWidth 16).signExtend 32) s t) ∧
    (∃ t, exec (.zexth ag true rd rs1 0 0) s = .next t ∧ Wrote ag rd (gr ag s rs1 &&& 0xFFFF) s t)

/-- Immediate arithmetic, compares and shifts, and the constant extension. On the core or a Weft engine at a bundle boundary outside a repeat: (1) a bundle of one of ADDI, ANDI, ORI, XORI and the six immediate compares writes rd alone with the operation on rs1 and the sign-extended imm14; (2) SHLI, SHRI, SARI shift by imm14[4:0], the other bits of imm14 being zero; (3) a K syllable after ADDI with imm14 below 256 gives the constant K × 256 + imm14 in its place, the pc going on by 8. -/
def Obligations.ImmediateRows : Prop :=
  (∀ (ag : Agent) (rd rs1 : BitVec 5) (imm : BitVec 14) (s : State), Ready 1 ag s →
    (∃ t, exec (.addi ag true rd rs1 imm) s = .next t ∧ Wrote ag rd (gr ag s rs1 + imm.signExtend 32) s t) ∧
    (∃ t, exec (.andi ag true rd rs1 imm) s = .next t ∧ Wrote ag rd (gr ag s rs1 &&& imm.signExtend 32) s t) ∧
    (∃ t, exec (.ori ag true rd rs1 imm) s = .next t ∧ Wrote ag rd (gr ag s rs1 ||| imm.signExtend 32) s t) ∧
    (∃ t, exec (.xori ag true rd rs1 imm) s = .next t ∧ Wrote ag rd (gr ag s rs1 ^^^ imm.signExtend 32) s t) ∧
    (∃ t, exec (.cmpeqi ag true rd rs1 imm) s = .next t ∧ Wrote ag rd (if gr ag s rs1 = imm.signExtend 32 then 1 else 0) s t) ∧
    (∃ t, exec (.cmpnei ag true rd rs1 imm) s = .next t ∧ Wrote ag rd (if gr ag s rs1 = imm.signExtend 32 then 0 else 1) s t) ∧
    (∃ t, exec (.cmplti ag true rd rs1 imm) s = .next t ∧ Wrote ag rd (if (gr ag s rs1).slt (imm.signExtend 32) then 1 else 0) s t) ∧
    (∃ t, exec (.cmpltui ag true rd rs1 imm) s = .next t ∧ Wrote ag rd (if (gr ag s rs1).ult (imm.signExtend 32) then 1 else 0) s t) ∧
    (∃ t, exec (.cmplei ag true rd rs1 imm) s = .next t ∧ Wrote ag rd (if (gr ag s rs1).sle (imm.signExtend 32) then 1 else 0) s t) ∧
    (∃ t, exec (.cmpleui ag true rd rs1 imm) s = .next t ∧ Wrote ag rd (if (gr ag s rs1).ule (imm.signExtend 32) then 1 else 0) s t)) ∧
  (∀ (ag : Agent) (rd rs1 : BitVec 5) (sh : BitVec 5) (s : State), Ready 1 ag s →
    (∃ t, exec (.shli ag true rd rs1 (sh.setWidth 14)) s = .next t ∧ Wrote ag rd (gr ag s rs1 <<< sh.toNat) s t) ∧
    (∃ t, exec (.shri ag true rd rs1 (sh.setWidth 14)) s = .next t ∧ Wrote ag rd (gr ag s rs1 >>> sh.toNat) s t) ∧
    (∃ t, exec (.sari ag true rd rs1 (sh.setWidth 14)) s = .next t ∧ Wrote ag rd ((gr ag s rs1).sshiftRight sh.toNat) s t)) ∧
  ∀ (ag : Agent) (rd rs1 : BitVec 5) (low : BitVec 8) (k : BitVec 24) (s : State), Ready 2 ag s →
    (∃ u, exec (.addi ag false rd rs1 (low.setWidth 14)) s = .next u ∧ (∃ t, exec (.kExt ag true k) u = .next t ∧ Gave ag ((cpuOf ag s).pc + 8) rd (gr ag s rs1 + (k ++ low)) s t))

/-- Multiplies, accumulations and divisions. On the core or a Weft engine at a bundle boundary outside a repeat, a bundle of one of MUL, MULH, MULHU, MAC, MAC16, DIV, DIVU, REM, REMU writes rd alone: the low or high product, rd plus the product or the products of signed halves, the truncated quotient or remainder, all ones or the dividend for a divisor of zero; the pc goes on by 4 and memory stays. -/
def Obligations.MultiplyAndDivide : Prop :=
  ∀ (ag : Agent) (rd rs1 rs2 : BitVec 5) (s : State), Ready 1 ag s →
    (∃ t, exec (.mul ag true rd rs1 rs2 0) s = .next t ∧ Wrote ag rd (gr ag s rs1 * gr ag s rs2) s t) ∧
    (∃ t, exec (.mulh ag true rd rs1 rs2 0) s = .next t ∧ Wrote ag rd (BitVec.ofInt 32 ((gr ag s rs1).toInt * (gr ag s rs2).toInt / 2 ^ 32)) s t) ∧
    (∃ t, exec (.mulhu ag true rd rs1 rs2 0) s = .next t ∧ Wrote ag rd (BitVec.ofNat 32 ((gr ag s rs1).toNat * (gr ag s rs2).toNat / 2 ^ 32)) s t) ∧
    (∃ t, exec (.mulAcc ag true rd rs1 rs2 0) s = .next t ∧ Wrote ag rd (gr ag s rd + gr ag s rs1 * gr ag s rs2) s t) ∧
    (∃ t, exec (.mac16 ag true rd rs1 rs2 0) s = .next t ∧ Wrote ag rd (gr ag s rd + ((gr ag s rs1).extractLsb' 0 16).signExtend 32 * ((gr ag s rs2).extractLsb' 0 16).signExtend 32 + ((gr ag s rs1).extractLsb' 16 16).signExtend 32 * ((gr ag s rs2).extractLsb' 16 16).signExtend 32) s t) ∧
    (∃ t, exec (.div ag true rd rs1 rs2 0) s = .next t ∧ Wrote ag rd (if gr ag s rs2 = 0 then 0xFFFFFFFF else (gr ag s rs1).sdiv (gr ag s rs2)) s t) ∧
    (∃ t, exec (.divu ag true rd rs1 rs2 0) s = .next t ∧ Wrote ag rd (if gr ag s rs2 = 0 then 0xFFFFFFFF else gr ag s rs1 / gr ag s rs2) s t) ∧
    (∃ t, exec (.rem ag true rd rs1 rs2 0) s = .next t ∧ Wrote ag rd (if gr ag s rs2 = 0 then gr ag s rs1 else (gr ag s rs1).srem (gr ag s rs2)) s t) ∧
    (∃ t, exec (.remu ag true rd rs1 rs2 0) s = .next t ∧ Wrote ag rd (if gr ag s rs2 = 0 then gr ag s rs1 else gr ag s rs1 % gr ag s rs2) s t)

/-- Packed complex arithmetic of the Weft profile. On a Weft engine at a bundle boundary outside a repeat, CADD, CSUB, CMUL and CMAC with every shift with and without the conjugate of rs2, LMS with every shift, CMAG2, CORR and ACS write rd alone, each half saturated where the opcode table says so; ACS also shifts its two decisions into DEC; the pc goes on by 4 and memory stays. -/
def Obligations.WeftComplex : Prop :=
  ∀ (n : Fin 32) (rd rs1 rs2 : BitVec 5) (s : State), Ready 1 (.weft n) s →
    let i (r : BitVec 5) : Int := ((gr (.weft n) s r).extractLsb' 0 16).toInt
    let q (r : BitVec 5) : Int := ((gr (.weft n) s r).extractLsb' 16 16).toInt
    let sat (x : Int) : BitVec 16 := BitVec.ofInt 16 (max (-32768) (min 32767 x))
    let lo (r : BitVec 5) : Nat := ((gr (.weft n) s r).extractLsb' 0 16).toNat
    let hi (r : BitVec 5) : Nat := ((gr (.weft n) s r).extractLsb' 16 16).toNat
    let W := fun v => Wrote (.weft n) rd v s
    (∃ t, exec (.cadd (.weft n) true rd rs1 rs2 0) s = .next t ∧ W (sat (q rs1 + q rs2) ++ sat (i rs1 + i rs2)) t) ∧
    (∃ t, exec (.csub (.weft n) true rd rs1 rs2 0) s = .next t ∧ W (sat (q rs1 - q rs2) ++ sat (i rs1 - i rs2)) t) ∧
    (∀ sh : BitVec 4, (∃ t, exec (.cmul (.weft n) true rd rs1 rs2 (sh.setWidth 9)) s = .next t ∧ W (sat ((i rs1 * q rs2 + q rs1 * i rs2) / 2 ^ sh.toNat) ++ sat ((i rs1 * i rs2 - q rs1 * q rs2) / 2 ^ sh.toNat)) t)) ∧
    (∀ sh : BitVec 4, (∃ t, exec (.cmac (.weft n) true rd rs1 rs2 (sh.setWidth 9)) s = .next t ∧ W (sat (q rd + (i rs1 * q rs2 + q rs1 * i rs2) / 2 ^ sh.toNat) ++
          sat (i rd + (i rs1 * i rs2 - q rs1 * q rs2) / 2 ^ sh.toNat)) t)) ∧
    (∀ sh : BitVec 4, (∃ t, exec (.cmul (.weft n) true rd rs1 rs2 (1#5 ++ sh)) s = .next t ∧ W (sat ((q rs1 * i rs2 - i rs1 * q rs2) / 2 ^ sh.toNat) ++ sat ((i rs1 * i rs2 + q rs1 * q rs2) / 2 ^ sh.toNat)) t)) ∧
    (∀ sh : BitVec 4, (∃ t, exec (.cmac (.weft n) true rd rs1 rs2 (1#5 ++ sh)) s = .next t ∧ W (sat (q rd + (q rs1 * i rs2 - i rs1 * q rs2) / 2 ^ sh.toNat) ++
          sat (i rd + (i rs1 * i rs2 + q rs1 * q rs2) / 2 ^ sh.toNat)) t)) ∧
    (∀ sh : BitVec 4, (∃ t, exec (.lms (.weft n) true rd rs1 rs2 (sh.setWidth 9)) s = .next t ∧ W (sat (q rd + (q rs2 * i rs1 - i rs2 * q rs1) / 2 ^ sh.toNat) ++
          sat (i rd + (i rs2 * i rs1 + q rs2 * q rs1) / 2 ^ sh.toNat)) t)) ∧
    (∃ t, exec (.cmag2 (.weft n) true rd rs1 0 0) s = .next t ∧ W (BitVec.ofInt 32 (i rs1 * i rs1 + q rs1 * q rs1)) t) ∧
    (∃ t, exec (.corr (.weft n) true rd rs1 rs2 0) s = .next t ∧ W (gr (.weft n) s rd + 32 -
      BitVec.ofNat 32 (2 * ((List.range 32).filter (fun j => (gr (.weft n) s rs1 ^^^ gr (.weft n) s rs2).getLsbD j)).length)) t) ∧
    (∃ t, exec (.acs (.weft n) true rd rs1 rs2 0) s = .next t ∧ W (BitVec.ofNat 16 (min 65535 (min (lo rs1 + hi rs2) (hi rs1 + lo rs2))) ++
         BitVec.ofNat 16 (min 65535 (min (lo rs1 + lo rs2) (hi rs1 + hi rs2)))) t ∧
      (t.eng n).dec = (s.eng n).dec * 4 + (if hi rs1 + lo rs2 < lo rs1 + hi rs2 then 2 else 0) +
        (if hi rs1 + hi rs2 < lo rs1 + lo rs2 then 1 else 0))

/-- Branches, jumps, calls and the repeat prefixes. On the core or a Weft engine at a bundle boundary outside a repeat: (1) BZ and BNZ go to the bundle's address plus 4 times their offset when their condition holds and on otherwise; (2) J and CALL jump relative, CALL writing the next bundle's address to g31; (3) JR and CALLR go to rs1 when it is a multiple of 4; (4) on the core with EXL clear they raise ALIGN with EADDR = rs1 when it is not; (5) REPI, REPN and REPIR set RPT and go on to their body, REPN holding interrupts off. No other register and no byte of memory changes. -/
def Obligations.BranchesAndRepeats : Prop :=
  (∀ (ag : Agent) (rs : BitVec 5) (off : BitVec 19) (s : State), Ready 1 ag s →
    let pc := (cpuOf ag s).pc
    (∃ t, exec (.bz ag true rs off) s = .next t ∧ Jumped ag (if gr ag s rs = 0 then pc + off.signExtend 32 * 4 else pc + 4) s t) ∧
    (∃ t, exec (.bnz ag true rs off) s = .next t ∧ Jumped ag (if gr ag s rs = 0 then pc + 4 else pc + off.signExtend 32 * 4) s t)) ∧
  (∀ (ag : Agent) (off : BitVec 24) (s : State), Ready 1 ag s →
    let pc := (cpuOf ag s).pc
    (∃ t, exec (.jump ag true off) s = .next t ∧ Jumped ag (pc + off.signExtend 32 * 4) s t) ∧
    (∃ t, exec (.call ag true off) s = .next t ∧ Gave ag (pc + off.signExtend 32 * 4) 31 (pc + 4) s t)) ∧
  (∀ (ag : Agent) (rs1 : BitVec 5) (s : State), Ready 1 ag s → (gr ag s rs1).toNat % 4 = 0 →
    (∃ t, exec (.jr ag true 0 rs1 0) s = .next t ∧ Jumped ag (gr ag s rs1) s t) ∧
    (∃ t, exec (.callr ag true 0 rs1 0) s = .next t ∧ Gave ag (gr ag s rs1) 31 ((cpuOf ag s).pc + 4) s t)) ∧
  (∀ (rs1 : BitVec 5) (s : State), Ready 1 .core s → s.core.exl = false → (gr .core s rs1).toNat % 4 ≠ 0 →
    (∃ t, exec (.jr .core true 0 rs1 0) s = .next t ∧ Trapped 0x09 (gr .core s rs1) s.core.cpu.pc s t) ∧
    (∃ t, exec (.callr .core true 0 rs1 0) s = .next t ∧ Trapped 0x09 (gr .core s rs1) s.core.cpu.pc s t)) ∧
  ∀ (ag : Agent) (n : BitVec 10) (m : BitVec 6) (rs1 : BitVec 5) (s : State), Ready 1 ag s →
    let after := fun (v : Word) (hold : Bool) (t : State) => Jumped ag ((cpuOf ag s).pc + 4) s t ∧ (cpuOf ag t).rpt = v ∧
      (cpuOf ag t).rep = some ⟨hold, some ((cpuOf ag s).pc, (cpuOf ag s).rpt)⟩
    (∃ t, exec (.repi ag true 0 0 (n.setWidth 14)) s = .next t ∧ after (n.setWidth 32 + 1) false t) ∧
    (∃ t, exec (.repn ag true 0 0 (m.setWidth 14)) s = .next t ∧ after (m.setWidth 32 + 1) true t) ∧
    (∃ t, exec (.repir ag true 0 rs1 0) s = .next t ∧ after (gr ag s rs1) false t)

/-- Loads of control SRAM and of a Weft engine's local memory. At a bundle boundary outside a repeat, (1) an aligned load of the core from control SRAM with the protection unit off, (2) an aligned load of a Weft engine from its local memory or control SRAM: LDB, LDBU, LDH, LDHU, LDW give rd the bytes at rs1 + imm, sign- or zero-extended, LDP gives two words to a pair of registers, LDW.PI the word at rs1, with rs1 increased by imm; no other register and no byte of memory changes, and the pc goes on by 4. -/
def Obligations.LoadRows : Prop :=
  (∀ (rd rs1 : BitVec 5) (imm : BitVec 14) (s : State), Ready 1 .core s →
    let a := gr .core s rs1 + imm.signExtend 32
    (CoreData a 1 s → (∃ t, exec (.ldb .core true rd rs1 imm) s = .next t ∧ Wrote .core rd (let v := s.rn a.toNat 1; (BitVec.ofNat 8 v).signExtend 32) s t)) ∧
    (CoreData a 1 s → (∃ t, exec (.ldbu .core true rd rs1 imm) s = .next t ∧ Wrote .core rd (let v := s.rn a.toNat 1; BitVec.ofNat 32 v) s t)) ∧
    (CoreData a 2 s → (∃ t, exec (.ldh .core true rd rs1 imm) s = .next t ∧ Wrote .core rd (let v := s.rn a.toNat 2; (BitVec.ofNat 16 v).signExtend 32) s t)) ∧
    (CoreData a 2 s → (∃ t, exec (.ldhu .core true rd rs1 imm) s = .next t ∧ Wrote .core rd (let v := s.rn a.toNat 2; BitVec.ofNat 32 v) s t)) ∧
    (CoreData a 4 s → (∃ t, exec (.ldw .core true rd rs1 imm) s = .next t ∧ Wrote .core rd (let v := s.rn a.toNat 4; BitVec.ofNat 32 v) s t)) ∧
    (CoreData a 4 s → CoreData (a + 4) 4 s → rd.toNat % 2 = 0 → rs1 ≠ rd → rs1 ≠ rd + 1 → (∃ t, exec (.ldp .core true rd rs1 imm) s = .next t ∧ (cpuOf .core t).pc = (cpuOf .core s).pc + 4 ∧ t.mem = s.mem ∧ (rd ≠ 0 → gr .core t rd = BitVec.ofNat 32 (s.rn a.toNat 4)) ∧ gr .core t (rd + 1) = BitVec.ofNat 32 (s.rn (a + 4).toNat 4) ∧ ∀ r, r ≠ rd → r ≠ rd + 1 → gr .core t r = gr .core s r)) ∧
    (CoreData (gr .core s rs1) 4 s → rs1 ≠ rd → (∃ t, exec (.ldwPi .core true rd rs1 imm) s = .next t ∧ (cpuOf .core t).pc = (cpuOf .core s).pc + 4 ∧ t.mem = s.mem ∧ (rd ≠ 0 → gr .core t rd = BitVec.ofNat 32 (s.rn (gr .core s rs1).toNat 4)) ∧ (rs1 ≠ 0 → gr .core t rs1 = a) ∧ ∀ r, r ≠ rd → r ≠ rs1 → gr .core t r = gr .core s r))) ∧
  ∀ (n : Fin 32), ∀ (rd rs1 : BitVec 5) (imm : BitVec 14) (s : State), Ready 1 (.weft n) s →
    let a := gr (.weft n) s rs1 + imm.signExtend 32
    (WeftData a 1 → (∃ t, exec (.ldb (.weft n) true rd rs1 imm) s = .next t ∧ Wrote (.weft n) rd (let v := s.rn (weftByte n a) 1; (BitVec.ofNat 8 v).signExtend 32) s t)) ∧
    (WeftData a 1 → (∃ t, exec (.ldbu (.weft n) true rd rs1 imm) s = .next t ∧ Wrote (.weft n) rd (let v := s.rn (weftByte n a) 1; BitVec.ofNat 32 v) s t)) ∧
    (WeftData a 2 → (∃ t, exec (.ldh (.weft n) true rd rs1 imm) s = .next t ∧ Wrote (.weft n) rd (let v := s.rn (weftByte n a) 2; (BitVec.ofNat 16 v).signExtend 32) s t)) ∧
    (WeftData a 2 → (∃ t, exec (.ldhu (.weft n) true rd rs1 imm) s = .next t ∧ Wrote (.weft n) rd (let v := s.rn (weftByte n a) 2; BitVec.ofNat 32 v) s t)) ∧
    (WeftData a 4 → (∃ t, exec (.ldw (.weft n) true rd rs1 imm) s = .next t ∧ Wrote (.weft n) rd (let v := s.rn (weftByte n a) 4; BitVec.ofNat 32 v) s t)) ∧
    (WeftData a 4 → WeftData (a + 4) 4 → rd.toNat % 2 = 0 → rs1 ≠ rd → rs1 ≠ rd + 1 → (∃ t, exec (.ldp (.weft n) true rd rs1 imm) s = .next t ∧ (cpuOf (.weft n) t).pc = (cpuOf (.weft n) s).pc + 4 ∧ t.mem = s.mem ∧ (rd ≠ 0 → gr (.weft n) t rd = BitVec.ofNat 32 (s.rn (weftByte n a) 4)) ∧ gr (.weft n) t (rd + 1) = BitVec.ofNat 32 (s.rn (weftByte n (a + 4)) 4) ∧ ∀ r, r ≠ rd → r ≠ rd + 1 → gr (.weft n) t r = gr (.weft n) s r)) ∧
    (WeftData (gr (.weft n) s rs1) 4 → rs1 ≠ rd → (∃ t, exec (.ldwPi (.weft n) true rd rs1 imm) s = .next t ∧ (cpuOf (.weft n) t).pc = (cpuOf (.weft n) s).pc + 4 ∧ t.mem = s.mem ∧ (rd ≠ 0 → gr (.weft n) t rd = BitVec.ofNat 32 (s.rn (weftByte n (gr (.weft n) s rs1)) 4)) ∧ (rs1 ≠ 0 → gr (.weft n) t rs1 = a) ∧ ∀ r, r ≠ rd → r ≠ rs1 → gr (.weft n) t r = gr (.weft n) s r))

/-- Stores to control SRAM and to a Weft engine's local memory. At a bundle boundary outside a repeat, (1) an aligned store of the core to control SRAM with the protection unit off and the dictionary engine at rest, (2) an aligned store of a Weft engine to its local memory or control SRAM: STB, STH, STW write the low bytes of rd at rs1 + imm, STP two words, STW.PI one at rs1, which it increases by imm; every other byte of memory and every other register keeps its value, and the pc goes on by 4. -/
def Obligations.StoreRows : Prop :=
  (∀ (rd rs1 : BitVec 5) (imm : BitVec 14) (s : State), Ready 1 .core s → DictRest s →
    let a := gr .core s rs1 + imm.signExtend 32
    (CoreData a 1 s → (∃ t, exec (.stb .core true rd rs1 imm) s = .next t ∧ Stored a.toNat 1 (gr .core s rd).toNat s t ∧ Kept .core s t)) ∧
    (CoreData a 2 s → (∃ t, exec (.sth .core true rd rs1 imm) s = .next t ∧ Stored a.toNat 2 (gr .core s rd).toNat s t ∧ Kept .core s t)) ∧
    (CoreData a 4 s → (∃ t, exec (.stw .core true rd rs1 imm) s = .next t ∧ Stored a.toNat 4 (gr .core s rd).toNat s t ∧ Kept .core s t)) ∧
    (CoreData a 4 s → CoreData (a + 4) 4 s → rd.toNat % 2 = 0 → rs1 ≠ rd → rs1 ≠ rd + 1 → (∃ t, exec (.stp .core true rd rs1 imm) s = .next t ∧ t.rn a.toNat 4 = (gr .core s rd).toNat ∧ t.rn (a + 4).toNat 4 = (gr .core s (rd + 1)).toNat ∧ (∀ b, b < a.toNat ∨ a.toNat + 8 ≤ b → t.rb b = s.rb b) ∧ Kept .core s t)) ∧
    (CoreData (gr .core s rs1) 4 s → rs1 ≠ rd → (∃ t, exec (.stwPi .core true rd rs1 imm) s = .next t ∧ Stored (gr .core s rs1).toNat 4 (gr .core s rd).toNat s t ∧ (cpuOf .core t).pc = (cpuOf .core s).pc + 4 ∧ (rs1 ≠ 0 → gr .core t rs1 = a) ∧ ∀ r, r ≠ rs1 → gr .core t r = gr .core s r))) ∧
  ∀ (n : Fin 32), ∀ (rd rs1 : BitVec 5) (imm : BitVec 14) (s : State), Ready 1 (.weft n) s →
    let a := gr (.weft n) s rs1 + imm.signExtend 32
    (WeftData a 1 → (∃ t, exec (.stb (.weft n) true rd rs1 imm) s = .next t ∧ Stored (weftByte n a) 1 (gr (.weft n) s rd).toNat s t ∧ Kept (.weft n) s t)) ∧
    (WeftData a 2 → (∃ t, exec (.sth (.weft n) true rd rs1 imm) s = .next t ∧ Stored (weftByte n a) 2 (gr (.weft n) s rd).toNat s t ∧ Kept (.weft n) s t)) ∧
    (WeftData a 4 → (∃ t, exec (.stw (.weft n) true rd rs1 imm) s = .next t ∧ Stored (weftByte n a) 4 (gr (.weft n) s rd).toNat s t ∧ Kept (.weft n) s t)) ∧
    (WeftData a 4 → WeftData (a + 4) 4 → rd.toNat % 2 = 0 → rs1 ≠ rd → rs1 ≠ rd + 1 → (∃ t, exec (.stp (.weft n) true rd rs1 imm) s = .next t ∧ t.rn (weftByte n a) 4 = (gr (.weft n) s rd).toNat ∧ t.rn (weftByte n (a + 4)) 4 = (gr (.weft n) s (rd + 1)).toNat ∧ (∀ b, b < (weftByte n a) ∨ (weftByte n a) + 8 ≤ b → t.rb b = s.rb b) ∧ Kept (.weft n) s t)) ∧
    (WeftData (gr (.weft n) s rs1) 4 → rs1 ≠ rd → (∃ t, exec (.stwPi (.weft n) true rd rs1 imm) s = .next t ∧ Stored (weftByte n (gr (.weft n) s rs1)) 4 (gr (.weft n) s rd).toNat s t ∧ (cpuOf (.weft n) t).pc = (cpuOf (.weft n) s).pc + 4 ∧ (rs1 ≠ 0 → gr (.weft n) t rs1 = a) ∧ ∀ r, r ≠ rs1 → gr (.weft n) t r = gr (.weft n) s r))

/-- System syllables, special registers, and privilege. At a bundle boundary outside a repeat: (1) on the core with EXL clear SYS and BRK take their exceptions with EPC at the next bundle; (2) in machine mode ERET restores STATUS from ESTATUS and goes to EPC, and restores the repeat's kind (an INREP of 3, which the spec reserves, is left open); (3) in machine mode MFSR gives the value of each of 14 special registers, MTSR of a read-only one changes nothing, and MTSR writes ESTATUS, EPC, VBASE, SCRATCH1 and RPT with their masks; (4) on a Weft engine MFSR gives RPT, CYCLE_HI, DEC and the engine's number, MTSR writes DEC and FENCE goes on; (5) in machine mode MTSR and MFSR act on SCRATCH0, IEX gives rd the old IE and writes it, IINV empties the I-cache, DINV drops one line, FENCE with no write fault pending goes on; (6) in user mode MTSR, MFSR of SCRATCH0, IEX, IINV and ERET raise PRIV, and MFSR of CYCLE_HI does not. -/
def Obligations.SystemSyllables : Prop :=
  (∀ (s : State), Ready 1 .core s → s.core.exl = false →
    (∀ code : BitVec 12, (∃ t, exec (.sys .core true 0 0 (code.setWidth 14)) s = .next t ∧ Trapped 0x0A (code.setWidth 32) (s.core.cpu.pc + 4) s t)) ∧
    (∃ t, exec (.brk .core true 0 0 0) s = .next t ∧ Trapped 0x0B s.core.cpu.pc (s.core.cpu.pc + 4) s t)) ∧
  (∀ (s : State), Ready 1 .core s → Machine s →
    (∃ t, exec (.eret .core true 0 0 0 0) s = .next t ∧ t.core.status = s.core.estatus &&& 0x371 ∧ t.core.cpu.pc = s.core.epc ∧
      t.core.cpu.g = s.core.cpu.g ∧ t.mem = s.mem ∧ (s.core.estatus.toNat / 1024 % 4 ≠ 3 → t.core.cpu.rep.map (fun r => r.noInt) =
        (if s.core.estatus.toNat / 1024 % 4 = 0 then none else some (s.core.estatus.toNat / 1024 % 4 == 2))))) ∧
  (∀ (rd rs1 : BitVec 5) (s : State), Ready 1 .core s → Machine s →
    (∀ e ∈ ([(0x000, s.core.status), (0x001, s.core.estatus), (0x002, s.core.epc), (0x003, s.core.ecause), (0x004, s.core.eaddr),
        (0x005, s.core.vbase), (0x006, s.core.scratch0), (0x007, s.core.scratch1), (0x008, s.core.depc), (0x009, s.core.dcause),
        (0x00A, s.core.iline), (0x010, s.core.cpu.rpt), (0x012, s.core.cpu.cycHold), (0x120, s.core.mpuCtrl)] : List (Nat × Word)),
      (∃ t, exec (.mfsr .core true rd 0 (BitVec.ofNat 14 e.1)) s = .next t ∧ Wrote .core rd e.2 s t)) ∧
    (∀ n ∈ [0x003, 0x004, 0x008, 0x009, 0x00A, 0x011, 0x012], (∃ t, exec (.mtsr .core true 0 rs1 (BitVec.ofNat 14 n)) s = .next t ∧ Jumped .core (s.core.cpu.pc + 4) s t)) ∧
    (∃ t, exec (.mtsr .core true 0 rs1 0x001) s = .next t ∧ Jumped .core (s.core.cpu.pc + 4) s t ∧ t.core.estatus = gr .core s rs1 &&& 0xF71) ∧
    (∃ t, exec (.mtsr .core true 0 rs1 0x002) s = .next t ∧ Jumped .core (s.core.cpu.pc + 4) s t ∧ t.core.epc = gr .core s rs1) ∧
    (∃ t, exec (.mtsr .core true 0 rs1 0x005) s = .next t ∧ Jumped .core (s.core.cpu.pc + 4) s t ∧ t.core.vbase = gr .core s rs1 &&& 0xFFFFF800) ∧
    (∃ t, exec (.mtsr .core true 0 rs1 0x007) s = .next t ∧ Jumped .core (s.core.cpu.pc + 4) s t ∧ t.core.scratch1 = gr .core s rs1) ∧
    (∃ t, exec (.mtsr .core true 0 rs1 0x010) s = .next t ∧ Jumped .core (s.core.cpu.pc + 4) s t ∧ t.core.cpu.rpt = gr .core s rs1)) ∧
  (∀ (n : Fin 32) (rd rs1 : BitVec 5) (s : State), Ready 1 (.weft n) s →
    (∀ e ∈ ([(0x010, (s.eng n).cpu.rpt), (0x012, (s.eng n).cpu.cycHold), (0x200, (s.eng n).dec), (0x202, BitVec.ofNat 32 n.val)] : List (Nat × Word)),
      (∃ t, exec (.mfsr (.weft n) true rd 0 (BitVec.ofNat 14 e.1)) s = .next t ∧ Wrote (.weft n) rd e.2 s t)) ∧
    (∃ t, exec (.mtsr (.weft n) true 0 rs1 0x200) s = .next t ∧ Jumped (.weft n) ((s.eng n).cpu.pc + 4) s t ∧ (t.eng n).dec = gr (.weft n) s rs1) ∧
    (∃ t, exec (.fence (.weft n) true 0 0 0 0) s = .next t ∧ Jumped (.weft n) ((s.eng n).cpu.pc + 4) s t)) ∧
  (∀ (rd rs1 : BitVec 5) (imm : BitVec 14) (s : State), Ready 1 .core s → Machine s →
    (∃ t, exec (.mfsr .core true rd 0 6) s = .next t ∧ Wrote .core rd s.core.scratch0 s t) ∧
    (∃ t, exec (.mtsr .core true 0 rs1 6) s = .next t ∧ Jumped .core (s.core.cpu.pc + 4) s t ∧ t.core.scratch0 = gr .core s rs1) ∧
    (∀ b : Bool, (∃ t, exec (.iex .core true rd 0 (if b then 1 else 0)) s = .next t ∧ Wrote .core rd (if s.core.ie then 1 else 0) s t ∧ t.core.ie = b)) ∧
    (∃ t, exec (.iinv .core true 0 0 0 0) s = .next t ∧ Jumped .core (s.core.cpu.pc + 4) s t ∧ t.core.icache = []) ∧
    (∃ t, exec (.dinv .core true 0 rs1 imm) s = .next t ∧ Jumped .core (s.core.cpu.pc + 4) s t ∧
      ∀ e ∈ t.core.dcache, e.1 ≠ (gr .core s rs1 + imm.signExtend 32).toNat / 32 * 32) ∧
    (s.core.storeBus = false → (∃ t, exec (.fence .core true 0 0 0 0) s = .next t ∧ Jumped .core (s.core.cpu.pc + 4) s t))) ∧
  ∀ (rs1 : BitVec 5) (s : State), Ready 1 .core s → s.core.um = true → s.core.exl = false →
    (∃ t, exec (.mtsr .core true 0 rs1 6) s = .next t ∧ Trapped 0x02 s.core.cpu.pc s.core.cpu.pc s t) ∧
    (∃ t, exec (.mfsr .core true 1 0 6) s = .next t ∧ Trapped 0x02 s.core.cpu.pc s.core.cpu.pc s t) ∧
    (∃ t, exec (.mfsr .core true 1 0 0x012) s = .next t ∧ Wrote .core 1 s.core.cpu.cycHold s t) ∧
    (∃ t, exec (.iex .core true 0 0 0) s = .next t ∧ Trapped 0x02 s.core.cpu.pc s.core.cpu.pc s t) ∧
    (∃ t, exec (.iinv .core true 0 0 0 0) s = .next t ∧ Trapped 0x02 s.core.cpu.pc s.core.cpu.pc s t) ∧
    (∃ t, exec (.eret .core true 0 0 0 0) s = .next t ∧ Trapped 0x02 s.core.cpu.pc s.core.cpu.pc s t)

/-- What the core takes at a bundle boundary, and the software lines. INTERRUPT_ENTRY and STORE_BUS between two bundles, and SW_LINE_SET and SW_LINE_CLR, writes of INTC_SW. (1) INTERRUPT_ENTRY with IE set, EXL clear and no repeat takes the chosen line: STATUS is saved in ESTATUS, EPC is the pc, THR becomes the line's priority, IE and UM clear, EXL set, ILINE is the line, the pc VBASE + 0x100 + 16 × line; ECAUSE, EADDR, the general registers, memory and every bus register stay. (2) Between iterations of an interruptible repeat it does so too, saving the repeat's kind in INREP. (3) A repeat that holds interrupts off, or that has not begun its first iteration, lets none be taken. (4) STORE_BUS with a write fault pending, EXL clear and no repeat raises STORE_BUS with EADDR = BUS_FADDR and EPC the pc, and clears the pending fault. (5) SW_LINE_SET taken by the bus sets the named software lines; registers and memory stay. (6) SW_LINE_CLR taken by the bus clears them; registers and memory stay. -/
def Obligations.CoreBoundary : Prop :=
  (∀ (n : Nat) (s : State), s.atBoundary = true →
      s.core.ie = true →
      s.core.exl = false →
      s.core.cpu.rep = none →
      s.lineToTake s.core.thr = some n →
      ∃ t, exec (.interruptEntry) s = .next t ∧
        t.core.iline = BitVec.ofNat 32 n ∧
        t.core.thr = s.linePrio n ∧
        t.core.ie = false ∧
        t.core.exl = true ∧
        t.core.um = false ∧
        t.core.epc = s.core.cpu.pc ∧
        t.core.estatus = s.core.status &&& 0x371 ∧
        t.core.cpu.pc = s.core.vbase + BitVec.ofNat 32 (0x100 + 16 * n) ∧
        t.core.ecause = s.core.ecause ∧
        t.core.eaddr = s.core.eaddr ∧
        t.core.cpu.g = s.core.cpu.g ∧
        t.mem = s.mem ∧
        t.regs = s.regs) ∧
  (∀ (n : Nat) (s : State), s.atBoundary = true →
      s.core.ie = true →
      s.core.exl = false →
      s.core.cpu.rep = some ⟨false, none⟩ →
      s.lineToTake s.core.thr = some n →
      ∃ t, exec (.interruptEntry) s = .next t ∧
        t.core.iline = BitVec.ofNat 32 n ∧
        t.core.epc = s.core.cpu.pc ∧
        t.core.estatus = (s.core.status &&& 0x371) ||| 0x400 ∧
        t.core.cpu.rep = none ∧
        t.core.cpu.pc = s.core.vbase + BitVec.ofNat 32 (0x100 + 16 * n) ∧
        t.core.cpu.g = s.core.cpu.g ∧
        t.mem = s.mem ∧
        t.regs = s.regs) ∧
  (∀ (r : Rep) (s : State), s.core.cpu.rep = some r →
      r.noInt = true ∨ r.before.isSome = true →
      ∃ t, exec (.interruptEntry) s = .next t ∧
        t = s) ∧
  (∀ (s : State), s.atBoundary = true →
      s.core.storeBus = true →
      s.core.exl = false →
      s.core.cpu.rep = none →
      ∃ t, exec (.storeBus) s = .next t ∧
        t.core.storeBus = false ∧
        Trapped 0x05 (s.reg Reg.BUS_FADDR) s.core.cpu.pc s t) ∧
  (∀ (bits : BitVec 8) (s : State), Core Reg.INTC_SW s →
      ∃ t, exec (.swLineSet bits) s = .next t ∧
        t.core.swLines = s.core.swLines ||| bits ∧
        t.core.cpu = s.core.cpu ∧
        t.mem = s.mem ∧
        t.regs = s.regs) ∧
  (∀ (bits : BitVec 8) (s : State), Core Reg.INTC_SW s →
      ∃ t, exec (.swLineClr bits) s = .next t ∧
        t.core.swLines = s.core.swLines &&& ~~~bits ∧
        t.core.cpu = s.core.cpu ∧
        t.mem = s.mem ∧
        t.regs = s.regs)

/-- DMA commands of a Weft engine. LANE_IN, CTX_IN, CTX_OUT, SRAM_IN, SRAM_OUT and MAC_OUT by the code of a running engine whose job has not ended, their completion (DMA_COMPLETE), and the wait for it (WIO_DMAWAIT), with RADIO powered and the clocks running. (1) LANE_IN within its limits, with fewer than four commands outstanding, joins the engine's queue; its registers, memory, every bus register and every other engine stay. (2) LANE_IN outside its limits stops the job with a fault of cause DMA and sets SHTL_IRQ.FAULT. (3) LANE_IN with four outstanding waits: nothing changes. (4) CTX_IN within its limits, with fewer than four commands outstanding, joins the engine's queue; its registers, memory, every bus register and every other engine stay. (5) CTX_IN outside its limits stops the job with a fault of cause DMA and sets SHTL_IRQ.FAULT. (6) CTX_IN with four outstanding waits: nothing changes. (7) CTX_OUT within its limits, with fewer than four commands outstanding, joins the engine's queue; its registers, memory, every bus register and every other engine stay. (8) CTX_OUT outside its limits stops the job with a fault of cause DMA and sets SHTL_IRQ.FAULT. (9) CTX_OUT with four outstanding waits: nothing changes. (10) SRAM_IN within its limits, with fewer than four commands outstanding, joins the engine's queue; its registers, memory, every bus register and every other engine stay. (11) SRAM_IN outside its limits stops the job with a fault of cause DMA and sets SHTL_IRQ.FAULT. (12) SRAM_IN with four outstanding waits: nothing changes. (13) SRAM_OUT within its limits, with fewer than four commands outstanding, joins the engine's queue; its registers, memory, every bus register and every other engine stay. (14) SRAM_OUT outside its limits stops the job with a fault of cause DMA and sets SHTL_IRQ.FAULT. (15) SRAM_OUT with four outstanding waits: nothing changes. (16) MAC_OUT within its limits, with fewer than four commands outstanding, joins the engine's queue; its registers, memory, every bus register and every other engine stay. (17) MAC_OUT outside its limits stops the job with a fault of cause DMA and sets SHTL_IRQ.FAULT. (18) MAC_OUT with four outstanding waits: nothing changes. (19) DMA_COMPLETE of a LANE_IN whose sample tick has ended writes the samples, unpacked, to consecutive words of local memory and changes no other byte; which tick a job of no deadline reads is the model's choice (log entry 43). (20) One that reads the tick in progress waits for its block of 10 samples: nothing changes. (21) DMA_COMPLETE of a CTX_IN copies from the context slot to local memory; no other byte of memory and no bus register changes. (22) DMA_COMPLETE of a CTX_OUT copies from local memory to the context slot; no other byte of memory and no bus register changes. (23) DMA_COMPLETE of a SRAM_IN copies from SRAM to local memory; no other byte of memory and no bus register changes. (24) DMA_COMPLETE of a SRAM_OUT copies from local memory to SRAM; no other byte of memory and no bus register changes. (25) The last completion after a WIO_END ends the job: the engine is idle, or parked when it has left service. (26) WIO_DMAWAIT with nothing outstanding gives rd 0 and leaves the other registers, the pc, memory, every bus register and every other engine. (27) With a command outstanding it waits: nothing changes. -/
def Obligations.WeftDma : Prop :=
  (∀ (n : Fin 32) (j : Job) (len : BitVec 12) (loc : BitVec 13) (remote : Word) (s : State), Rx s →
      Running n j s →
      (s.eng n).ending = none →
      (s.eng n).dma.length < 4 →
      dmaBad j ⟨.laneIn, len.toNat, loc.toNat, remote⟩ = false →
      ∃ t, exec (.laneIn n len loc remote) s = .next t ∧
        (t.eng n).dma = (s.eng n).dma ++ [⟨.laneIn, len.toNat, loc.toNat, remote⟩] ∧
        (t.eng n).cpu = (s.eng n).cpu ∧
        t.mem = s.mem ∧
        t.regs = s.regs ∧
        (∀ m, m ≠ n → t.eng m = s.eng m)) ∧
  (∀ (n : Fin 32) (j : Job) (len : BitVec 12) (loc : BitVec 13) (remote : Word) (s : State), Rx s →
      Running n j s →
      (s.eng n).ending = none →
      dmaBad j ⟨.laneIn, len.toNat, loc.toNat, remote⟩ = true →
      ∃ t, exec (.laneIn n len loc remote) s = .next t ∧
        (t.eng n).flt = true ∧
        (t.eng n).fltCause = 5 ∧
        (t.eng n).job = none ∧
        t.on SHTL_IRQ.FAULT = true) ∧
  (∀ (n : Fin 32) (j : Job) (len : BitVec 12) (loc : BitVec 13) (remote : Word) (s : State), Rx s →
      Running n j s →
      (s.eng n).ending = none →
      4 ≤ (s.eng n).dma.length →
      dmaBad j ⟨.laneIn, len.toNat, loc.toNat, remote⟩ = false →
      ∃ t, exec (.laneIn n len loc remote) s = .next t ∧
        t = s) ∧
  (∀ (n : Fin 32) (j : Job) (len : BitVec 12) (loc : BitVec 13) (remote : Word) (s : State), Rx s →
      Running n j s →
      (s.eng n).ending = none →
      (s.eng n).dma.length < 4 →
      dmaBad j ⟨.ctxIn, len.toNat, loc.toNat, remote⟩ = false →
      ∃ t, exec (.ctxIn n len loc remote) s = .next t ∧
        (t.eng n).dma = (s.eng n).dma ++ [⟨.ctxIn, len.toNat, loc.toNat, remote⟩] ∧
        (t.eng n).cpu = (s.eng n).cpu ∧
        t.mem = s.mem ∧
        t.regs = s.regs ∧
        (∀ m, m ≠ n → t.eng m = s.eng m)) ∧
  (∀ (n : Fin 32) (j : Job) (len : BitVec 12) (loc : BitVec 13) (remote : Word) (s : State), Rx s →
      Running n j s →
      (s.eng n).ending = none →
      dmaBad j ⟨.ctxIn, len.toNat, loc.toNat, remote⟩ = true →
      ∃ t, exec (.ctxIn n len loc remote) s = .next t ∧
        (t.eng n).flt = true ∧
        (t.eng n).fltCause = 5 ∧
        (t.eng n).job = none ∧
        t.on SHTL_IRQ.FAULT = true) ∧
  (∀ (n : Fin 32) (j : Job) (len : BitVec 12) (loc : BitVec 13) (remote : Word) (s : State), Rx s →
      Running n j s →
      (s.eng n).ending = none →
      4 ≤ (s.eng n).dma.length →
      dmaBad j ⟨.ctxIn, len.toNat, loc.toNat, remote⟩ = false →
      ∃ t, exec (.ctxIn n len loc remote) s = .next t ∧
        t = s) ∧
  (∀ (n : Fin 32) (j : Job) (len : BitVec 12) (loc : BitVec 13) (remote : Word) (s : State), Rx s →
      Running n j s →
      (s.eng n).ending = none →
      (s.eng n).dma.length < 4 →
      dmaBad j ⟨.ctxOut, len.toNat, loc.toNat, remote⟩ = false →
      ∃ t, exec (.ctxOut n len loc remote) s = .next t ∧
        (t.eng n).dma = (s.eng n).dma ++ [⟨.ctxOut, len.toNat, loc.toNat, remote⟩] ∧
        (t.eng n).cpu = (s.eng n).cpu ∧
        t.mem = s.mem ∧
        t.regs = s.regs ∧
        (∀ m, m ≠ n → t.eng m = s.eng m)) ∧
  (∀ (n : Fin 32) (j : Job) (len : BitVec 12) (loc : BitVec 13) (remote : Word) (s : State), Rx s →
      Running n j s →
      (s.eng n).ending = none →
      dmaBad j ⟨.ctxOut, len.toNat, loc.toNat, remote⟩ = true →
      ∃ t, exec (.ctxOut n len loc remote) s = .next t ∧
        (t.eng n).flt = true ∧
        (t.eng n).fltCause = 5 ∧
        (t.eng n).job = none ∧
        t.on SHTL_IRQ.FAULT = true) ∧
  (∀ (n : Fin 32) (j : Job) (len : BitVec 12) (loc : BitVec 13) (remote : Word) (s : State), Rx s →
      Running n j s →
      (s.eng n).ending = none →
      4 ≤ (s.eng n).dma.length →
      dmaBad j ⟨.ctxOut, len.toNat, loc.toNat, remote⟩ = false →
      ∃ t, exec (.ctxOut n len loc remote) s = .next t ∧
        t = s) ∧
  (∀ (n : Fin 32) (j : Job) (len : BitVec 12) (loc : BitVec 13) (remote : Word) (s : State), Rx s →
      Running n j s →
      (s.eng n).ending = none →
      (s.eng n).dma.length < 4 →
      dmaBad j ⟨.sramIn, len.toNat, loc.toNat, remote⟩ = false →
      ∃ t, exec (.sramIn n len loc remote) s = .next t ∧
        (t.eng n).dma = (s.eng n).dma ++ [⟨.sramIn, len.toNat, loc.toNat, remote⟩] ∧
        (t.eng n).cpu = (s.eng n).cpu ∧
        t.mem = s.mem ∧
        t.regs = s.regs ∧
        (∀ m, m ≠ n → t.eng m = s.eng m)) ∧
  (∀ (n : Fin 32) (j : Job) (len : BitVec 12) (loc : BitVec 13) (remote : Word) (s : State), Rx s →
      Running n j s →
      (s.eng n).ending = none →
      dmaBad j ⟨.sramIn, len.toNat, loc.toNat, remote⟩ = true →
      ∃ t, exec (.sramIn n len loc remote) s = .next t ∧
        (t.eng n).flt = true ∧
        (t.eng n).fltCause = 5 ∧
        (t.eng n).job = none ∧
        t.on SHTL_IRQ.FAULT = true) ∧
  (∀ (n : Fin 32) (j : Job) (len : BitVec 12) (loc : BitVec 13) (remote : Word) (s : State), Rx s →
      Running n j s →
      (s.eng n).ending = none →
      4 ≤ (s.eng n).dma.length →
      dmaBad j ⟨.sramIn, len.toNat, loc.toNat, remote⟩ = false →
      ∃ t, exec (.sramIn n len loc remote) s = .next t ∧
        t = s) ∧
  (∀ (n : Fin 32) (j : Job) (len : BitVec 12) (loc : BitVec 13) (remote : Word) (s : State), Rx s →
      Running n j s →
      (s.eng n).ending = none →
      (s.eng n).dma.length < 4 →
      dmaBad j ⟨.sramOut, len.toNat, loc.toNat, remote⟩ = false →
      ∃ t, exec (.sramOut n len loc remote) s = .next t ∧
        (t.eng n).dma = (s.eng n).dma ++ [⟨.sramOut, len.toNat, loc.toNat, remote⟩] ∧
        (t.eng n).cpu = (s.eng n).cpu ∧
        t.mem = s.mem ∧
        t.regs = s.regs ∧
        (∀ m, m ≠ n → t.eng m = s.eng m)) ∧
  (∀ (n : Fin 32) (j : Job) (len : BitVec 12) (loc : BitVec 13) (remote : Word) (s : State), Rx s →
      Running n j s →
      (s.eng n).ending = none →
      dmaBad j ⟨.sramOut, len.toNat, loc.toNat, remote⟩ = true →
      ∃ t, exec (.sramOut n len loc remote) s = .next t ∧
        (t.eng n).flt = true ∧
        (t.eng n).fltCause = 5 ∧
        (t.eng n).job = none ∧
        t.on SHTL_IRQ.FAULT = true) ∧
  (∀ (n : Fin 32) (j : Job) (len : BitVec 12) (loc : BitVec 13) (remote : Word) (s : State), Rx s →
      Running n j s →
      (s.eng n).ending = none →
      4 ≤ (s.eng n).dma.length →
      dmaBad j ⟨.sramOut, len.toNat, loc.toNat, remote⟩ = false →
      ∃ t, exec (.sramOut n len loc remote) s = .next t ∧
        t = s) ∧
  (∀ (n : Fin 32) (j : Job) (len : BitVec 12) (loc : BitVec 13) (remote : Word) (s : State), Rx s →
      Running n j s →
      (s.eng n).ending = none →
      (s.eng n).dma.length < 4 →
      dmaBad j ⟨.macOut, len.toNat, loc.toNat, remote⟩ = false →
      ∃ t, exec (.macOut n len loc remote) s = .next t ∧
        (t.eng n).dma = (s.eng n).dma ++ [⟨.macOut, len.toNat, loc.toNat, remote⟩] ∧
        (t.eng n).cpu = (s.eng n).cpu ∧
        t.mem = s.mem ∧
        t.regs = s.regs ∧
        (∀ m, m ≠ n → t.eng m = s.eng m)) ∧
  (∀ (n : Fin 32) (j : Job) (len : BitVec 12) (loc : BitVec 13) (remote : Word) (s : State), Rx s →
      Running n j s →
      (s.eng n).ending = none →
      dmaBad j ⟨.macOut, len.toNat, loc.toNat, remote⟩ = true →
      ∃ t, exec (.macOut n len loc remote) s = .next t ∧
        (t.eng n).flt = true ∧
        (t.eng n).fltCause = 5 ∧
        (t.eng n).job = none ∧
        t.on SHTL_IRQ.FAULT = true) ∧
  (∀ (n : Fin 32) (j : Job) (len : BitVec 12) (loc : BitVec 13) (remote : Word) (s : State), Rx s →
      Running n j s →
      (s.eng n).ending = none →
      4 ≤ (s.eng n).dma.length →
      dmaBad j ⟨.macOut, len.toNat, loc.toNat, remote⟩ = false →
      ∃ t, exec (.macOut n len loc remote) s = .next t ∧
        t = s) ∧
  (∀ (n : Fin 32) (j : Job) (c : DmaCmd) (cs : List DmaCmd) (s : State), Rx s →
      Running n j s →
      (s.eng n).dma = c :: cs →
      (s.eng n).ending = none →
      c.kind = .laneIn →
      dmaBad j c = false →
      sampleBnd j s ≠ s.tick.bnd →
      ∃ t, exec (.dmaComplete n) s = .next t ∧
        (t.eng n).dma = cs ∧
        (t.eng n).st = .running ∧
        (List.range c.len).all (fun k => t.rn (weftLocal n + c.loc + 4 * k) 4 == (unpackSample (s.sample false (c.remote.toNat % 256) (c.remote.toNat / 2 ^ 16 % 1024 + k))).toNat) = true ∧
        t.regs = s.regs ∧
        Outside (weftLocal n + c.loc) (4 * c.len) s t) ∧
  (∀ (n : Fin 32) (j : Job) (c : DmaCmd) (cs : List DmaCmd) (s : State), Rx s →
      Running n j s →
      (s.eng n).dma = c :: cs →
      c.kind = .laneIn →
      sampleBnd j s = s.tick.bnd →
      s.laneSampleNow < (c.remote.toNat / 2 ^ 16 % 1024 + c.len + 9) / 10 * 10 →
      ∃ t, exec (.dmaComplete n) s = .next t ∧
        t = s) ∧
  (∀ (n : Fin 32) (j : Job) (c : DmaCmd) (cs : List DmaCmd) (s : State), Rx s →
      Running n j s →
      (s.eng n).dma = c :: cs →
      (s.eng n).ending = none →
      c.kind = .ctxIn →
      ∃ t, exec (.dmaComplete n) s = .next t ∧
        (t.eng n).dma = cs ∧
        (t.eng n).st = .running ∧
        t.regs = s.regs ∧
        Copied (weftLocal n + c.loc) (ctxSlot j.ctx + c.remote.toNat) c.len s t) ∧
  (∀ (n : Fin 32) (j : Job) (c : DmaCmd) (cs : List DmaCmd) (s : State), Rx s →
      Running n j s →
      (s.eng n).dma = c :: cs →
      (s.eng n).ending = none →
      c.kind = .ctxOut →
      ∃ t, exec (.dmaComplete n) s = .next t ∧
        (t.eng n).dma = cs ∧
        (t.eng n).st = .running ∧
        t.regs = s.regs ∧
        Copied (ctxSlot j.ctx + c.remote.toNat) (weftLocal n + c.loc) c.len s t) ∧
  (∀ (n : Fin 32) (j : Job) (c : DmaCmd) (cs : List DmaCmd) (s : State), Rx s →
      Running n j s →
      (s.eng n).dma = c :: cs →
      (s.eng n).ending = none →
      c.kind = .sramIn →
      ∃ t, exec (.dmaComplete n) s = .next t ∧
        (t.eng n).dma = cs ∧
        (t.eng n).st = .running ∧
        t.regs = s.regs ∧
        Copied (weftLocal n + c.loc) (c.remote.toNat) c.len s t) ∧
  (∀ (n : Fin 32) (j : Job) (c : DmaCmd) (cs : List DmaCmd) (s : State), Rx s →
      Running n j s →
      (s.eng n).dma = c :: cs →
      (s.eng n).ending = none →
      c.kind = .sramOut →
      ∃ t, exec (.dmaComplete n) s = .next t ∧
        (t.eng n).dma = cs ∧
        (t.eng n).st = .running ∧
        t.regs = s.regs ∧
        Copied (c.remote.toNat) (weftLocal n + c.loc) c.len s t) ∧
  (∀ (n : Fin 32) (j : Job) (c : DmaCmd) (st : BitVec 8) (s : State), Rx s →
      Running n j s →
      (s.eng n).dma = [c] →
      (s.eng n).ending = some st →
      c.kind ≠ .laneIn ∨ sampleBnd j s ≠ s.tick.bnd →
      c.kind ≠ .macOut →
      ∃ t, exec (.dmaComplete n) s = .next t ∧
        (t.eng n).job = none ∧
        (t.eng n).st = (if (s.eng n).parking then .parked else .idle)) ∧
  (∀ (n : Fin 32) (rd : BitVec 5) (s : State), Rx s →
      (s.eng n).st = .running →
      (s.eng n).dma = [] →
      ∃ t, exec (.wioDmawait n rd) s = .next t ∧
        (t.eng n).cpu.get rd = 0 ∧
        (t.eng n).cpu.pc = (s.eng n).cpu.pc ∧
        t.mem = s.mem ∧
        t.regs = s.regs ∧
        (∀ r, r ≠ rd → (t.eng n).cpu.get r = (s.eng n).cpu.get r) ∧
        (∀ m, m ≠ n → t.eng m = s.eng m)) ∧
  (∀ (n : Fin 32) (rd : BitVec 5) (s : State), (s.eng n).dma ≠ [] →
      ∃ t, exec (.wioDmawait n rd) s = .next t ∧
        t = s)

/-- How a job ends and what it says of its packet. WIO_END and WIO_REMAIN by the code of a running engine, BUDGET_EXCEEDED and OVERBUDGET. (1) WIO_END below 0x80 with no DMA command outstanding frees the engine, parked when it has left service. (2) With one outstanding the end waits for it. (3) WIO_END of an engine that runs no job, or whose job has ended already, changes nothing. (4) WIO_END of 0x80 or more faults the job with cause 7. (5) WIO_REMAIN of a packet's job gives the packet the count of samples still to come, moves it to PAYLOAD and the sentinel of its channel to LOCKED; memory stays. (6) BUDGET_EXCEEDED of a TAUT or SLACK job past its budget is flagged and counted, once; the job goes on. (7) A second one changes nothing. (8) OVERBUDGET of a job within its budget changes nothing. (9) OVERBUDGET of a LOOSE job at its budget stops it. -/
def Obligations.JobEnds : Prop :=
  (∀ (n : Fin 32) (j : Job) (status : BitVec 8) (s : State), Rx s →
      Running n j s →
      (s.eng n).ending = none →
      (s.eng n).dma = [] →
      status.toNat < 0x80 →
      ∃ t, exec (.wioEnd n status) s = .next t ∧
        (t.eng n).job = none ∧
        (t.eng n).st = (if (s.eng n).parking then .parked else .idle)) ∧
  (∀ (n : Fin 32) (j : Job) (status : BitVec 8) (s : State), Rx s →
      Running n j s →
      (s.eng n).ending = none →
      (s.eng n).dma ≠ [] →
      status.toNat < 0x80 →
      ∃ t, exec (.wioEnd n status) s = .next t ∧
        (t.eng n).ending = some status ∧
        (t.eng n).st = .running ∧
        t.mem = s.mem ∧
        t.regs = s.regs) ∧
  (∀ (n : Fin 32) (status : BitVec 8) (s : State), (s.eng n).st ≠ .running ∨ (s.eng n).ending.isSome = true →
      ∃ t, exec (.wioEnd n status) s = .next t ∧
        t = s) ∧
  (∀ (n : Fin 32) (j : Job) (status : BitVec 8) (s : State), Rx s →
      Running n j s →
      (s.eng n).ending = none →
      0x80 ≤ status.toNat →
      ∃ t, exec (.wioEnd n status) s = .next t ∧
        (t.eng n).flt = true ∧
        (t.eng n).fltCause = 7 ∧
        (t.eng n).job = none) ∧
  (∀ (n : Fin 32) (j : Job) (p : Packet) (v : Word) (s : State), Rx s →
      Running n j s →
      j.poster = .shuttle →
      s.packetOf j = some p →
      s.packet p.num = some p →
      (s.lane p.lane).pkt = some p.num →
      p.lane < 96 →
      ∃ t, exec (.wioRemain n v) s = .next t ∧
        t.packet p.num = some { p with st := .payload, remain := some v.toNat } ∧
        t.get (LOOM_SENT.STATE p.lane) = sentLocked ∧
        t.mem = s.mem) ∧
  (∀ (n : Fin 32) (j : Job) (s : State), Rx s →
      Running n j s →
      (j.prio == prioLoose) = false →
      (s.eng n).overBudget = false →
      j.budget < s.jobCycles n →
      ∃ t, exec (.budgetExceeded n) s = .next t ∧
        t.on SHTL_IRQ.BUDGET = true ∧
        (t.eng n).overBudget = true ∧
        (t.eng n).st = .running ∧
        t.get SHTL_ERRCNT.BUDGET = min (s.get SHTL_ERRCNT.BUDGET + 1) 0xFFFF ∧
        t.mem = s.mem) ∧
  (∀ (n : Fin 32) (s : State), (s.eng n).overBudget = true →
      ∃ t, exec (.budgetExceeded n) s = .next t ∧
        t = s) ∧
  (∀ (n : Fin 32) (j : Job) (s : State), Running n j s →
      s.jobCycles n < j.budget →
      ∃ t, exec (.overbudget n) s = .next t ∧
        t = s) ∧
  (∀ (n : Fin 32) (j : Job) (s : State), Rx s →
      Running n j s →
      j.prio = prioLoose →
      j.budget ≤ s.jobCycles n →
      ∃ t, exec (.overbudget n) s = .next t ∧
        (t.eng n).job = none ∧
        (t.eng n).st = (if (s.eng n).parking then .parked else .idle))

/-- Posts, dispatch, HALT and RESUME, tail jobs, the end of a packet's samples. JOB_POST, JOB_DISPATCH, HALT, RESUME, TAIL_JOB_RUNNABLE and PACKET_END. An engine takes jobs when it is idle and in service and HALT is clear. (1) A LOOSE post that is accepted joins the end of its queue, with POSTSTAT 0 for the writing master; engines, registers and memory stay. (2) An accepted SLACK post joins its queue likewise. (3) A post refused for its class or its context slot changes only POSTSTAT. (4) A post to a full queue sets PREJ and POSTSTAT 1 and joins no queue. (5) An engine dispatched alone takes the head of its own deque: the job's words in g1 to g4, DEC 0, the pc at its class's entry; every other engine and memory stay. (6) Dispatched with others in one cycle it takes the head of its own deque too. (7) With an empty deque it takes the tail of the deque that R157 picks by the lengths as they stand. (8) With every deque empty it takes the head of the SLACK queue. (9) With that empty too it takes the head of the LOOSE queue. (10) With HALT set no engine takes a job. (11) A write of HALT taken by the bus shows it and leaves the SLACK and LOOSE queues and memory. (12) Clearing HALT changes nothing else. (13) RESUME of a faulted engine frees it, parked when beyond COUNT; registers, memory and every other engine stay. (14) TAIL_JOB_RUNNABLE of a channel with one packet whose tail is due, HALT clear and an engine in service with room queues the tail job, with COUNT = REMAIN; registers and memory stay. (15) PACKET_END once the packet's last sample has passed ends its hold on the channel; the set of packets and memory stay. -/
def Obligations.ShuttlePostsAndTakes : Prop :=
  (∀ (m : Master) (w0 : Word) (s : State), Takes m Reg.SHTL_POST s →
      postResult w0 (s.reg Reg.SHTL_PW3) s = postOk →
      s.jcA (w0.toNat % 32) SHTL_JCA.PRIO = prioLoose →
      ∃ t, exec (.jobPost m w0) s = .next t ∧
        t.shtl.loose = s.shtl.loose ++ [postedJob .firmware w0 (s.reg Reg.SHTL_PW2) (s.reg Reg.SHTL_PW3) s] ∧
        t.shtl.slack = s.shtl.slack ∧
        t.shtl.eng = s.shtl.eng ∧
        Sparse.get (fun _ => 0#32) t.shtl.postStat (masterId m) = 0 ∧
        t.mem = s.mem ∧
        t.regs = s.regs) ∧
  (∀ (m : Master) (w0 : Word) (s : State), Takes m Reg.SHTL_POST s →
      postResult w0 (s.reg Reg.SHTL_PW3) s = postOk →
      s.jcA (w0.toNat % 32) SHTL_JCA.PRIO = prioSlack →
      ∃ t, exec (.jobPost m w0) s = .next t ∧
        postedJob .firmware w0 (s.reg Reg.SHTL_PW2) (s.reg Reg.SHTL_PW3) s ∈ t.shtl.slack ∧
        t.shtl.slack.length = s.shtl.slack.length + 1 ∧
        t.shtl.loose = s.shtl.loose ∧
        t.shtl.eng = s.shtl.eng ∧
        Sparse.get (fun _ => 0#32) t.shtl.postStat (masterId m) = 0 ∧
        t.mem = s.mem ∧
        t.regs = s.regs) ∧
  (∀ (m : Master) (w0 : Word) (s : State), Takes m Reg.SHTL_POST s →
      postResult w0 (s.reg Reg.SHTL_PW3) s = postClass ∨ postResult w0 (s.reg Reg.SHTL_PW3) s = postCtx →
      ∃ t, exec (.jobPost m w0) s = .next t ∧
        t.shtl.loose = s.shtl.loose ∧
        t.shtl.slack = s.shtl.slack ∧
        t.shtl.eng = s.shtl.eng ∧
        Sparse.get (fun _ => 0#32) t.shtl.postStat (masterId m) = BitVec.ofNat 32 (postResult w0 (s.reg Reg.SHTL_PW3) s) ∧
        t.mem = s.mem ∧
        t.regs = s.regs) ∧
  (∀ (m : Master) (w0 : Word) (s : State), Takes m Reg.SHTL_POST s →
      postResult w0 (s.reg Reg.SHTL_PW3) s = postFull →
      ∃ t, exec (.jobPost m w0) s = .next t ∧
        t.on SHTL_IRQ.PREJ = true ∧
        t.shtl.loose = s.shtl.loose ∧
        t.shtl.slack = s.shtl.slack ∧
        Sparse.get (fun _ => 0#32) t.shtl.postStat (masterId m) = 1 ∧
        t.mem = s.mem) ∧
  (∀ (n : Fin 32) (j : Job) (js : List Job) (s : State), Rx s →
      s.takes n = true →
      (s.eng n).deque = j :: js →
      ∃ t, exec (.jobDispatch (1#32 <<< n.val)) s = .next t ∧
        (t.eng n).st = .running ∧
        (t.eng n).job = some j ∧
        (t.eng n).deque = js ∧
        (t.eng n).dec = 0 ∧
        (t.eng n).cpu.pc = BitVec.ofNat 32 (4 * j.entry) ∧
        (t.eng n).cpu.get 0 = 0 ∧
        (t.eng n).cpu.get 1 = j.w0 ∧
        (t.eng n).cpu.get 2 = j.w1 ∧
        (t.eng n).cpu.get 3 = j.w2 ∧
        (t.eng n).cpu.get 4 = j.w3 ∧
        t.mem = s.mem ∧
        (∀ m, m ≠ n → t.eng m = s.eng m)) ∧
  (∀ (n : Fin 32) (who : BitVec 32) (j : Job) (js : List Job) (s : State), Rx s →
      who.getLsbD n.val = true →
      s.takes n = true →
      (s.eng n).deque = j :: js →
      ∃ t, exec (.jobDispatch who) s = .next t ∧
        (t.eng n).st = .running ∧
        (t.eng n).job = some j ∧
        (t.eng n).dec = 0 ∧
        (t.eng n).cpu.pc = BitVec.ofNat 32 (4 * j.entry) ∧
        (t.eng n).cpu.get 0 = 0 ∧
        (t.eng n).cpu.get 1 = j.w0 ∧
        (t.eng n).cpu.get 2 = j.w1 ∧
        (t.eng n).cpu.get 3 = j.w2 ∧
        (t.eng n).cpu.get 4 = j.w3 ∧
        t.mem = s.mem) ∧
  (∀ (n v : Fin 32) (j : Job) (s : State), Rx s →
      s.takes n = true →
      (s.eng n).deque = [] →
      s.shtl.scanLen = [] →
      stealFrom s.dequeLens s n = some v →
      (s.eng v).deque.getLast? = some j →
      ∃ t, exec (.jobDispatch (1#32 <<< n.val)) s = .next t ∧
        (t.eng n).st = .running ∧
        (t.eng n).job = some j ∧
        (v ≠ n → (t.eng v).deque = (s.eng v).deque.dropLast) ∧
        (t.eng n).dec = 0 ∧
        (t.eng n).cpu.pc = BitVec.ofNat 32 (4 * j.entry) ∧
        (t.eng n).cpu.get 0 = 0 ∧
        (t.eng n).cpu.get 1 = j.w0 ∧
        (t.eng n).cpu.get 2 = j.w1 ∧
        (t.eng n).cpu.get 3 = j.w2 ∧
        (t.eng n).cpu.get 4 = j.w3 ∧
        t.mem = s.mem) ∧
  (∀ (n : Fin 32) (j : Job) (js : List Job) (s : State), Rx s →
      s.takes n = true →
      s.shtl.eng.toList.all (fun e => e.deque.isEmpty) = true →
      s.shtl.slack = j :: js →
      ∃ t, exec (.jobDispatch (1#32 <<< n.val)) s = .next t ∧
        (t.eng n).st = .running ∧
        (t.eng n).job = some j ∧
        t.shtl.slack = js ∧
        t.shtl.loose = s.shtl.loose ∧
        (t.eng n).dec = 0 ∧
        (t.eng n).cpu.pc = BitVec.ofNat 32 (4 * j.entry) ∧
        (t.eng n).cpu.get 0 = 0 ∧
        (t.eng n).cpu.get 1 = j.w0 ∧
        (t.eng n).cpu.get 2 = j.w1 ∧
        (t.eng n).cpu.get 3 = j.w2 ∧
        (t.eng n).cpu.get 4 = j.w3 ∧
        t.mem = s.mem ∧
        (∀ m, m ≠ n → t.eng m = s.eng m)) ∧
  (∀ (n : Fin 32) (j : Job) (js : List Job) (s : State), Rx s →
      s.takes n = true →
      s.shtl.eng.toList.all (fun e => e.deque.isEmpty) = true →
      s.shtl.slack = [] →
      s.shtl.loose = j :: js →
      ∃ t, exec (.jobDispatch (1#32 <<< n.val)) s = .next t ∧
        (t.eng n).st = .running ∧
        (t.eng n).job = some j ∧
        t.shtl.loose = js ∧
        (t.eng n).dec = 0 ∧
        (t.eng n).cpu.pc = BitVec.ofNat 32 (4 * j.entry) ∧
        (t.eng n).cpu.get 0 = 0 ∧
        (t.eng n).cpu.get 1 = j.w0 ∧
        (t.eng n).cpu.get 2 = j.w1 ∧
        (t.eng n).cpu.get 3 = j.w2 ∧
        (t.eng n).cpu.get 4 = j.w3 ∧
        t.mem = s.mem ∧
        (∀ m, m ≠ n → t.eng m = s.eng m)) ∧
  (∀ (who : BitVec 32) (s : State), Rx s →
      s.on SHTL_CTRL.HALT = true →
      ∃ t, exec (.jobDispatch who) s = .next t ∧
        t.shtl.eng = s.shtl.eng ∧
        t.shtl.slack = s.shtl.slack ∧
        t.shtl.loose = s.shtl.loose ∧
        t.mem = s.mem ∧
        t.regs = s.regs) ∧
  (∀ (on : Bool) (s : State), Core Reg.SHTL_CTRL s →
      ∃ t, exec (.shtlHalt on) s = .next t ∧
        t.on SHTL_CTRL.HALT = on ∧
        t.mem = s.mem ∧
        t.shtl.slack = s.shtl.slack ∧
        t.shtl.loose = s.shtl.loose) ∧
  (∀ (s : State), Core Reg.SHTL_CTRL s →
      ∃ t, exec (.shtlHalt false) s = .next t ∧
        t.shtl = s.shtl ∧
        t.loom = s.loom ∧
        t.mem = s.mem ∧
        RegsBut [Reg.SHTL_CTRL] s t) ∧
  (∀ (n : Fin 32) (s : State), Core (Reg.WEFT_STAT n.val) s →
      (s.eng n).st = .faulted →
      ∃ t, exec (.weftResume n) s = .next t ∧
        (t.eng n).st = (if s.engCount ≤ n.val then .parked else .idle) ∧
        t.mem = s.mem ∧
        t.regs = s.regs ∧
        (∀ m, m ≠ n → t.eng m = s.eng m)) ∧
  (∀ (l : Fin 96) (p : Packet) (n : Fin 32) (s : State), Rx s →
      s.loom.packets.filter (fun p => p.lane == l.val) = [p] →
      tailDue s p = true →
      s.on SHTL_CTRL.HALT = false →
      s.engCount ≤ 32 →
      n.val < s.engCount →
      (s.eng n).st ≠ .faulted →
      (s.eng n).deque.length < 8 →
      ∃ t, exec (.tailJobRunnable l) s = .next t ∧
        t.mem = s.mem ∧
        t.regs = s.regs ∧
        (∃ m : Fin 32, tautJob p (s.msA p.mset LOOM_MSA.TAILCLS) 2 0 (p.remain.getD 0) 2 s ∈ (t.eng m).deque)) ∧
  (∀ (l : Fin 96) (p : Packet) (s : State), Rx s →
      ((s.lane l.val).pkt).bind s.packet = some p →
      s.samplesEnded p = true →
      ∃ t, exec (.packetEnd l) s = .next t ∧
        (t.lane l.val).pkt = none ∧
        t.loom.packets.map (fun x => x.num) = s.loom.packets.map (fun x => x.num) ∧
        t.mem = s.mem)

/-- Span, gain limits, clipping, gain steps, digital gain and energy. SPAN_WRITE, RX_RETUNE, GAIN_LIMIT_WRITE, CLIP_EVENT, CLIP_STEP, GAIN_STEP, AGC_STEP and ENERGY_BLOCK; writes as the bus takes them, the others with RADIO powered and the clocks running. (1) SPAN_WRITE of a centre of at most 2,100 other than the live one waits in CENTRE with PEND set; LIVE, the Loom, memory and every other register stay. (2) SPAN_WRITE of the live centre cancels a pending retune. (3) SPAN_WRITE of a centre above 2,100 sets BADSPAN and changes nothing else. (4) RX_RETUNE at least 50 µs after the last write makes the pending centre live, ends every packet in progress and blanks the lanes for 140 µs, or 200 µs in another VCO band; memory stays. (5) RX_RETUNE with nothing pending, or sooner, changes nothing. (6) GAIN_LIMIT_WRITE with MINCODE ≤ MAXCODE ≤ 8 takes the limits and leaves the code and memory, and with no step announced the Loom. (7) GAIN_LIMIT_WRITE out of order or above 8 sets BADGAIN and changes nothing else. (8) CLIP_EVENT of a search window with at least NCLIP clipped samples, lanes unblanked, sets IRQ.CLIP, counts, marks the lane samples of the run, and with the gain free and above MINCODE calls for a step 32 ADC samples after the report. (9) A window with fewer clipped samples changes nothing. (10) A window that overlaps the one that follows a report changes nothing. (11) A window of blanked samples changes nothing. (12) CLIP_STEP with the gain free and above MINCODE lowers the code by 1, ends any announcement and sets LOOM_IRQ.STEP; memory stays. (13) With the gain held, or at MINCODE, the step is dropped and nothing else changes. (14) GAIN_STEP of an announced step while the gain is held cancels it: counted, flagged, the code and memory as they were. (15) GAIN_STEP of a step announced for this tick with the gain free puts its code in force, ends the announcement and sets LOOM_IRQ.STEP; memory stays. (16) AGC_STEP of a channel in SEARCH lowers or raises the digital gain by 1 as the level lies more than 3 dB above or below the target, else leaves it; registers, memory and the lanes of other channels stay. (17) AGC_STEP of a channel not in SEARCH changes nothing. (18) ENERGY_BLOCK of an unblanked block of a lane in band shows its level, with RFRX_RSSIOFS, in NOW and at the head of the lane's history; memory and every other register stay. (19) ENERGY_BLOCK of a blanked block is noted and changes no register, no history and no memory. -/
def Obligations.FrontEndRows : Prop :=
  (∀ (d : Word) (s : State), Core Reg.RFRX_SPAN s →
      RFRX_SPAN.CENTRE.of d ≤ 2100 →
      RFRX_SPAN.CENTRE.of d ≠ s.get RFRX_SPAN.LIVE →
      ∃ t, exec (.spanWrite d) s = .next t ∧
        t.get RFRX_SPAN.CENTRE = RFRX_SPAN.CENTRE.of d ∧
        t.on RFRX_SPAN.PEND = true ∧
        t.get RFRX_SPAN.LIVE = s.get RFRX_SPAN.LIVE ∧
        t.loom = s.loom ∧
        t.mem = s.mem ∧
        RegsBut [Reg.RFRX_SPAN] s t) ∧
  (∀ (d : Word) (s : State), Core Reg.RFRX_SPAN s →
      RFRX_SPAN.CENTRE.of d ≤ 2100 →
      RFRX_SPAN.CENTRE.of d = s.get RFRX_SPAN.LIVE →
      s.on RFRX_SPAN.PEND = true →
      ∃ t, exec (.spanWrite d) s = .next t ∧
        t.get RFRX_SPAN.CENTRE = RFRX_SPAN.CENTRE.of d ∧
        t.on RFRX_SPAN.PEND = false ∧
        t.get RFRX_SPAN.LIVE = s.get RFRX_SPAN.LIVE ∧
        t.loom = s.loom ∧
        t.mem = s.mem ∧
        RegsBut [Reg.RFRX_SPAN] s t) ∧
  (∀ (d : Word) (s : State), Core Reg.RFRX_SPAN s →
      2100 < RFRX_SPAN.CENTRE.of d →
      ∃ t, exec (.spanWrite d) s = .next t ∧
        t.on RFRX_IRQ.BADSPAN = true ∧
        t.reg Reg.RFRX_SPAN = s.reg Reg.RFRX_SPAN ∧
        t.loom = s.loom ∧
        t.mem = s.mem ∧
        RegsBut [Reg.RFRX_IRQ] s t) ∧
  (∀ (band : Bool) (s : State), Rx s →
      s.on RFRX_SPAN.PEND = true →
      s.rfrx.retuneAt + us 50 ≤ s.now →
      ∃ t, exec (.rxRetune band) s = .next t ∧
        t.get RFRX_SPAN.LIVE = s.get RFRX_SPAN.CENTRE ∧
        t.on RFRX_SPAN.PEND = false ∧
        t.loom.packets.all (fun p => !(s.inAir p)) = true ∧
        t.loom.blankUntil = max s.loom.blankUntil (s.now + us (if band then 200 else 140)) ∧
        t.mem = s.mem) ∧
  (∀ (band : Bool) (s : State), s.on RFRX_SPAN.PEND = false ∨ s.now < s.rfrx.retuneAt + us 50 →
      ∃ t, exec (.rxRetune band) s = .next t ∧
        t = s) ∧
  (∀ (d : Word) (s : State), Core Reg.RFRX_GAIN s →
      RFRX_GAIN.MINCODE.of d ≤ RFRX_GAIN.MAXCODE.of d →
      RFRX_GAIN.MAXCODE.of d ≤ 8 →
      ∃ t, exec (.gainLimitWrite d) s = .next t ∧
        t.get RFRX_GAIN.MINCODE = RFRX_GAIN.MINCODE.of d ∧
        t.get RFRX_GAIN.MAXCODE = RFRX_GAIN.MAXCODE.of d ∧
        t.get RFRX_GAIN.CODE = s.get RFRX_GAIN.CODE ∧
        (s.loom.announce = none → t.loom = s.loom) ∧
        t.mem = s.mem) ∧
  (∀ (d : Word) (s : State), Core Reg.RFRX_GAIN s →
      RFRX_GAIN.MAXCODE.of d < RFRX_GAIN.MINCODE.of d ∨ 8 < RFRX_GAIN.MAXCODE.of d →
      ∃ t, exec (.gainLimitWrite d) s = .next t ∧
        t.on RFRX_IRQ.BADGAIN = true ∧
        t.reg Reg.RFRX_GAIN = s.reg Reg.RFRX_GAIN ∧
        t.loom = s.loom ∧
        t.mem = s.mem ∧
        RegsBut [Reg.RFRX_IRQ] s t) ∧
  (∀ (clip : BitVec 64) (last : Fin 25600) (delay : Fin 65) (lo hi : Nat) (s : State), Rx s →
      s.loom.running = true →
      s.blanked = false →
      s.loom.clipWin = none →
      ((List.range 64).filter (fun i => clip.getLsbD i)).head? = some lo →
      ((List.range 64).filter (fun i => clip.getLsbD i)).getLast? = some hi →
      s.nclip ≤ ((List.range 64).filter (fun i => clip.getLsbD i)).length →
      ∃ t, exec (.clipEvent clip last delay) s = .next t ∧
        t.on RFRX_IRQ.CLIP = true ∧
        t.get RFRX_CLIP.COUNT = min (s.get RFRX_CLIP.COUNT + 1) 0xFFFF ∧
        t.loom.packets = s.loom.packets ∧
        ((s.get RFRX_GAIN.MINCODE < s.gcode ∧ s.gainHeld = false) → t.loom.clipStep = some (last.val + delay.val + 32)) ∧
        ((s.gcode ≤ s.get RFRX_GAIN.MINCODE ∨ s.gainHeld = true) → t.loom.clipStep = s.loom.clipStep) ∧
        (∀ i < 400, t.loom.clipMask.getLsbD i = (s.loom.clipMask.getLsbD i || (decide ((25600 * s.tick.bnd + last.val + lo - 63) / 64 ≤ 400 * s.tick.bnd + i) && decide (400 * s.tick.bnd + i ≤ (25600 * s.tick.bnd + last.val + hi - 63) / 64 + 15))))) ∧
  (∀ (clip : BitVec 64) (last : Fin 25600) (delay : Fin 65) (s : State), s.loom.clipWin = none →
      ((List.range 64).filter (fun i => clip.getLsbD i)).length < s.nclip →
      ∃ t, exec (.clipEvent clip last delay) s = .next t ∧
        t = s) ∧
  (∀ (clip : BitVec 64) (last : Fin 25600) (delay : Fin 65) (w : Nat) (s : State), s.loom.clipWin = some w →
      25600 * s.tick.bnd + last.val < w + 63 →
      ∃ t, exec (.clipEvent clip last delay) s = .next t ∧
        t = s) ∧
  (∀ (clip : BitVec 64) (last : Fin 25600) (delay : Fin 65) (s : State), s.blanked = true →
      ∃ t, exec (.clipEvent clip last delay) s = .next t ∧
        t = s) ∧
  (∀ (adc : Nat) (s : State), Rx s →
      s.loom.clipStep = some adc →
      s.gainHeld = false →
      s.get RFRX_GAIN.MINCODE < s.gcode →
      ∃ t, exec (.clipStep) s = .next t ∧
        t.gcode = s.gcode - 1 ∧
        t.loom.clipStep = none ∧
        t.loom.announce = none ∧
        t.on LOOM_IRQ.STEP = true ∧
        t.mem = s.mem) ∧
  (∀ (adc : Nat) (s : State), Rx s →
      s.loom.clipStep = some adc →
      s.gainHeld = true ∨ s.gcode ≤ s.get RFRX_GAIN.MINCODE →
      ∃ t, exec (.clipStep) s = .next t ∧
        t = { s with loom := { s.loom with clipStep := none } }) ∧
  (∀ (a : Announce) (s : State), Rx s →
      s.loom.announce = some a →
      a.atBnd = s.tick.bnd →
      s.gainHeld = true →
      ∃ t, exec (.gainStep) s = .next t ∧
        t.gcode = s.gcode ∧
        t.loom.announce = none ∧
        t.get LOOM_GAINSTAT.NEXT = 0 ∧
        t.on LOOM_IRQ.CANCEL = true ∧
        t.get LOOM_GAINCNT.CANCEL = min (s.get LOOM_GAINCNT.CANCEL + 1) (2 ^ LOOM_GAINCNT.CANCEL.w - 1) ∧
        t.mem = s.mem ∧
        RegsBut [Reg.LOOM_GAINSTAT, Reg.LOOM_GAINCNT, Reg.LOOM_IRQ] s t) ∧
  (∀ (a : Announce) (s : State), Rx s →
      s.loom.announce = some a →
      a.atBnd = s.tick.bnd →
      a.code ≤ 8 →
      s.gainHeld = false →
      ∃ t, exec (.gainStep) s = .next t ∧
        t.gcode = a.code ∧
        t.loom.announce = none ∧
        t.get LOOM_GAINSTAT.NEXT = 0 ∧
        t.on LOOM_IRQ.STEP = true ∧
        t.mem = s.mem) ∧
  (∀ (l : Fin 96) (rms : Int) (s : State), Rx s →
      s.searching = true →
      s.isChannel l.val = true →
      s.get (LOOM_SENT.STATE l.val) = sentSearch →
      ∃ t, exec (.agcStep l rms) s = .next t ∧
        (t.lane l.val).dg = (if -4 * (s.msB (s.laneF l.val LOOM_LANE.MSET) LOOM_MSB.AGCTGT : Nat) + 12 < rms then (s.lane l.val).dg - 1 else if rms < -4 * (s.msB (s.laneF l.val LOOM_LANE.MSET) LOOM_MSB.AGCTGT : Nat) - 12 then min 15 ((s.lane l.val).dg + 1) else (s.lane l.val).dg) ∧
        (t.lane l.val).nco = (s.lane l.val).nco ∧
        t.mem = s.mem ∧
        t.regs = s.regs ∧
        (∀ k, k < l.val ∨ l.val + bondLanes (s.laneF l.val LOOM_LANE.BOND) ≤ k → t.lane k = s.lane k)) ∧
  (∀ (l : Fin 96) (rms : Int) (s : State), s.get (LOOM_SENT.STATE l.val) ≠ sentSearch →
      ∃ t, exec (.agcStep l rms) s = .next t ∧
        t = s) ∧
  (∀ (l : Fin 96) (level : Int) (s : State), Rx s →
      s.loom.running = true →
      s.inBand l.val = true →
      s.blockBlanked = false →
      ∃ t, exec (.energyBlock l level) s = .next t ∧
        t.getI (LOOM_NRG.NOW l.val) = s.levelOf level ∧
        (t.lane l.val).hist.head? = some (s.levelOf level) ∧
        t.mem = s.mem ∧
        RegsBut [Reg.LOOM_NRG l.val] s t) ∧
  (∀ (l : Fin 96) (level : Int) (s : State), Rx s →
      s.loom.running = true →
      s.blockBlanked = true →
      ∃ t, exec (.energyBlock l level) s = .next t ∧
        (t.lane l.val).blankedBlock = true ∧
        (t.lane l.val).hist = (s.lane l.val).hist ∧
        t.mem = s.mem ∧
        t.regs = s.regs)

/-- Receive calibration, temperature and the crystal-error loop. CAL_REQ_VCO, CAL_REQ_ADC, CAL_REQ_DC, CAL_REQ_IQ, RX_CAL_START, CAL_WAIT_LIMIT, RX_CAL_STEP_DONE, TEMP_MEASURE and TRIM_UPDATE; requests as the bus takes them, the others with RADIO powered and the clocks running. (1) CAL_REQ_VCO with no calibration running joins the waiting set and shows in RFRX_CALSTAT; memory and every other register stay. (2) CAL_REQ_ADC likewise. (3) CAL_REQ_DC likewise. (4) CAL_REQ_IQ likewise. (5) CAL_REQ_VCO during a calibration sets REQOVR and changes nothing else. (6) CAL_REQ_ADC likewise. (7) CAL_REQ_DC likewise. (8) CAL_REQ_IQ likewise. (9) RX_CAL_START of a waiting set at least 50 µs after its request, forced or at a boundary that qualifies, runs it: BUSY, FORCED as it is, the lanes blanked; memory stays. (10) RX_CAL_START with nothing waiting, or sooner, or neither forced nor qualifying, changes nothing. (11) CAL_WAIT_LIMIT with WAITLIM 0 or not reached changes nothing. (12) CAL_WAIT_LIMIT of a set that has waited WAITLIM ticks forces it and changes no register and no memory. (13) RX_CAL_STEP_DONE with steps left takes the step off the set, sets its flag when it failed, takes TCAL at a DC or IQ step, and goes on; memory and every register but RFRX_CALSTAT and RFRX_TEMP stay. (14) During a transmission and the 80 µs after it no step ends: nothing changes. (15) The last step with no transmission in hand clears BUSY, sets DONE and CALEND, puts MAXCODE in force and ends the blanking; memory stays. (16) With a transmission in hand it clears BUSY, sets DONE and CALEND and ends the blanking too. (17) TEMP_MEASURE shows the temperature in TNOW, leaves TCAL, and sets TEMPREQ once when it differs from TCAL by more than TDELTA held to 2 to 30 °C; memory and every other register stay. (18) TRIM_UPDATE with the loop off forgets the slot's frames and changes no register and no memory. (19) With fewer frames than NMIN it shows their number and leaves TRIM. (20) With enough frames TRIM stays within ±5,000, also where their weights sum to 0, for which the spec states no mean (a free value, log entry 27). (21) With weights of another sum TRIM moves by the mean over 2^GAINSH held to MAXSTEP, and is held to ±5,000. -/
def Obligations.ReceiveCalibration : Prop :=
  (∀ (force : Bool) (s : State), Core Reg.RFRX_CALREQ s →
      s.on RFRX_CALSTAT.BUSY = false →
      ∃ t, exec (.calReqVco force) s = .next t ∧
        t.on RFRX_CALSTAT.WAITING = true ∧
        t.rfrx.calWait = s.rfrx.calWait ||| 1 ∧
        t.get RFRX_CALSTAT.PENDSTEPS = (s.rfrx.calWait ||| 1).toNat ∧
        t.rfrx.calForce = (s.rfrx.calForce || force) ∧
        t.mem = s.mem ∧
        RegsBut [Reg.RFRX_CALSTAT] s t) ∧
  (∀ (force : Bool) (s : State), Core Reg.RFRX_CALREQ s →
      s.on RFRX_CALSTAT.BUSY = false →
      ∃ t, exec (.calReqAdc force) s = .next t ∧
        t.on RFRX_CALSTAT.WAITING = true ∧
        t.rfrx.calWait = s.rfrx.calWait ||| 2 ∧
        t.get RFRX_CALSTAT.PENDSTEPS = (s.rfrx.calWait ||| 2).toNat ∧
        t.rfrx.calForce = (s.rfrx.calForce || force) ∧
        t.mem = s.mem ∧
        RegsBut [Reg.RFRX_CALSTAT] s t) ∧
  (∀ (force : Bool) (s : State), Core Reg.RFRX_CALREQ s →
      s.on RFRX_CALSTAT.BUSY = false →
      ∃ t, exec (.calReqDc force) s = .next t ∧
        t.on RFRX_CALSTAT.WAITING = true ∧
        t.rfrx.calWait = s.rfrx.calWait ||| 4 ∧
        t.get RFRX_CALSTAT.PENDSTEPS = (s.rfrx.calWait ||| 4).toNat ∧
        t.rfrx.calForce = (s.rfrx.calForce || force) ∧
        t.mem = s.mem ∧
        RegsBut [Reg.RFRX_CALSTAT] s t) ∧
  (∀ (force : Bool) (s : State), Core Reg.RFRX_CALREQ s →
      s.on RFRX_CALSTAT.BUSY = false →
      ∃ t, exec (.calReqIq force) s = .next t ∧
        t.on RFRX_CALSTAT.WAITING = true ∧
        t.rfrx.calWait = s.rfrx.calWait ||| 8 ∧
        t.get RFRX_CALSTAT.PENDSTEPS = (s.rfrx.calWait ||| 8).toNat ∧
        t.rfrx.calForce = (s.rfrx.calForce || force) ∧
        t.mem = s.mem ∧
        RegsBut [Reg.RFRX_CALSTAT] s t) ∧
  (∀ (force : Bool) (s : State), Core Reg.RFRX_CALREQ s →
      s.on RFRX_CALSTAT.BUSY = true →
      ∃ t, exec (.calReqVco force) s = .next t ∧
        t.on RFRX_IRQ.REQOVR = true ∧
        t.rfrx = s.rfrx ∧
        t.mem = s.mem ∧
        RegsBut [Reg.RFRX_IRQ] s t) ∧
  (∀ (force : Bool) (s : State), Core Reg.RFRX_CALREQ s →
      s.on RFRX_CALSTAT.BUSY = true →
      ∃ t, exec (.calReqAdc force) s = .next t ∧
        t.on RFRX_IRQ.REQOVR = true ∧
        t.rfrx = s.rfrx ∧
        t.mem = s.mem ∧
        RegsBut [Reg.RFRX_IRQ] s t) ∧
  (∀ (force : Bool) (s : State), Core Reg.RFRX_CALREQ s →
      s.on RFRX_CALSTAT.BUSY = true →
      ∃ t, exec (.calReqDc force) s = .next t ∧
        t.on RFRX_IRQ.REQOVR = true ∧
        t.rfrx = s.rfrx ∧
        t.mem = s.mem ∧
        RegsBut [Reg.RFRX_IRQ] s t) ∧
  (∀ (force : Bool) (s : State), Core Reg.RFRX_CALREQ s →
      s.on RFRX_CALSTAT.BUSY = true →
      ∃ t, exec (.calReqIq force) s = .next t ∧
        t.on RFRX_IRQ.REQOVR = true ∧
        t.rfrx = s.rfrx ∧
        t.mem = s.mem ∧
        RegsBut [Reg.RFRX_IRQ] s t) ∧
  (∀ (s : State), Rx s →
      s.on RFRX_CALSTAT.WAITING = true →
      s.rfrx.calReqAt + us 50 ≤ s.now →
      s.rfrx.calForce = true ∨ s.calQualifies = true →
      ∃ t, exec (.rxCalStart) s = .next t ∧
        t.on RFRX_CALSTAT.BUSY = true ∧
        t.on RFRX_CALSTAT.WAITING = false ∧
        t.on RFRX_CALSTAT.DONE = false ∧
        t.on RFRX_CALSTAT.FORCED = s.rfrx.calForce ∧
        t.rfrx.calRun = s.rfrx.calWait ∧
        t.rfrx.calWait = 0 ∧
        t.loom.blankCal = true ∧
        t.mem = s.mem) ∧
  (∀ (s : State), s.on RFRX_CALSTAT.WAITING = false ∨ s.now < s.rfrx.calReqAt + us 50 ∨ (s.rfrx.calForce = false ∧ s.calQualifies = false) →
      ∃ t, exec (.rxCalStart) s = .next t ∧
        t = s) ∧
  (∀ (s : State), s.rfrx.calWaited < s.get RFRX_CALCFG.WAITLIM ∨ s.get RFRX_CALCFG.WAITLIM = 0 →
      ∃ t, exec (.calWaitLimit) s = .next t ∧
        t = s) ∧
  (∀ (s : State), Rx s →
      s.on RFRX_CALSTAT.WAITING = true →
      s.get RFRX_CALCFG.WAITLIM ≠ 0 →
      s.get RFRX_CALCFG.WAITLIM ≤ s.rfrx.calWaited →
      ∃ t, exec (.calWaitLimit) s = .next t ∧
        t.rfrx.calForce = true ∧
        t.mem = s.mem ∧
        t.regs = s.regs) ∧
  (∀ (n : Nat) (failed : Bool) (temp : BitVec 16) (s : State), Rx s →
      s.loom.blankTx = false →
      firstStep s.rfrx.calRun = some n →
      s.rfrx.calRun &&& ~~~(1#4 <<< n) ≠ 0 →
      ∃ t, exec (.rxCalStepDone failed temp) s = .next t ∧
        t.rfrx.calRun = s.rfrx.calRun &&& ~~~(1#4 <<< n) ∧
        t.get RFRX_CALSTAT.PENDSTEPS = (s.rfrx.calRun &&& ~~~(1#4 <<< n)).toNat ∧
        (let flag := [RFRX_CALSTAT.VCOF, RFRX_CALSTAT.ADCF, RFRX_CALSTAT.DCF, RFRX_CALSTAT.IQF].getD n RFRX_CALSTAT.IQF; t.on flag = (failed || s.on flag)) ∧
        t.on RFRX_CALSTAT.BUSY = s.on RFRX_CALSTAT.BUSY ∧
        t.getI RFRX_TEMP.TCAL = (if 2 ≤ n then temp.toInt else s.getI RFRX_TEMP.TCAL) ∧
        t.mem = s.mem ∧
        RegsBut [Reg.RFRX_CALSTAT, Reg.RFRX_TEMP] s t) ∧
  (∀ (failed : Bool) (temp : BitVec 16) (s : State), s.loom.blankTx = true →
      ∃ t, exec (.rxCalStepDone failed temp) s = .next t ∧
        t = s) ∧
  (∀ (n : Nat) (failed : Bool) (temp : BitVec 16) (s : State), Rx s →
      s.loom.blankTx = false →
      firstStep s.rfrx.calRun = some n →
      s.rfrx.calRun &&& ~~~(1#4 <<< n) = 0 →
      s.tx.job = none →
      s.tx.queue = [] →
      ∃ t, exec (.rxCalStepDone failed temp) s = .next t ∧
        t.on RFRX_CALSTAT.BUSY = false ∧
        t.on RFRX_CALSTAT.DONE = true ∧
        t.on RFRX_IRQ.CALEND = true ∧
        (let flag := [RFRX_CALSTAT.VCOF, RFRX_CALSTAT.ADCF, RFRX_CALSTAT.DCF, RFRX_CALSTAT.IQF].getD n RFRX_CALSTAT.IQF; t.on flag = (failed || s.on flag)) ∧
        t.getI RFRX_TEMP.TCAL = (if 2 ≤ n then temp.toInt else s.getI RFRX_TEMP.TCAL) ∧
        t.get RFRX_GAIN.CODE = s.get RFRX_GAIN.MAXCODE ∧
        t.loom.blankCal = false ∧
        t.mem = s.mem) ∧
  (∀ (n : Nat) (failed : Bool) (temp : BitVec 16) (s : State), Rx s →
      s.loom.blankTx = false →
      firstStep s.rfrx.calRun = some n →
      s.rfrx.calRun &&& ~~~(1#4 <<< n) = 0 →
      ∃ t, exec (.rxCalStepDone failed temp) s = .next t ∧
        t.on RFRX_CALSTAT.BUSY = false ∧
        t.on RFRX_CALSTAT.DONE = true ∧
        t.on RFRX_IRQ.CALEND = true ∧
        t.loom.blankCal = false) ∧
  (∀ (temp : BitVec 16) (s : State), Rx s →
      ∃ t, exec (.tempMeasure temp) s = .next t ∧
        t.getI RFRX_TEMP.TNOW = temp.toInt ∧
        t.getI RFRX_TEMP.TCAL = s.getI RFRX_TEMP.TCAL ∧
        t.on RFRX_IRQ.TEMPREQ = (s.on RFRX_IRQ.TEMPREQ || (decide (4 * max 2 (min 30 (s.get RFRX_CALCFG.TDELTA)) < (temp.toInt - s.getI RFRX_TEMP.TCAL).natAbs) && !s.rfrx.tempDone)) ∧
        t.mem = s.mem ∧
        RegsBut [Reg.RFRX_TEMP, Reg.RFRX_IRQ] s t) ∧
  (∀ (s : State), Rx s →
      s.get RFRX_TRIMCFG.MODE ≠ 1 →
      ∃ t, exec (.trimUpdate) s = .next t ∧
        t.rfrx.frames = [] ∧
        t.mem = s.mem ∧
        t.regs = s.regs) ∧
  (∀ (s : State), Rx s →
      s.get RFRX_TRIMCFG.MODE = 1 →
      s.rfrx.frames.length < max 1 (s.get RFRX_TRIMCFG.NMIN) →
      ∃ t, exec (.trimUpdate) s = .next t ∧
        t.rfrx.frames = [] ∧
        t.rfrx.trimLive = s.rfrx.trimLive ∧
        t.get RFRX_TRIMSTAT.N = min 255 s.rfrx.frames.length ∧
        t.mem = s.mem ∧
        RegsBut [Reg.RFRX_TRIMSTAT] s t) ∧
  (∀ (s : State), Rx s →
      s.get RFRX_TRIMCFG.MODE = 1 →
      max 1 (s.get RFRX_TRIMCFG.NMIN) ≤ s.rfrx.frames.length →
      ∃ t, exec (.trimUpdate) s = .next t ∧
        -5000 ≤ t.getI RFRX_TRIM.TRIM ∧ t.getI RFRX_TRIM.TRIM ≤ 5000 ∧
        t.rfrx.trimLive = t.getI RFRX_TRIM.TRIM ∧
        t.rfrx.frames = [] ∧
        t.mem = s.mem ∧
        RegsBut [Reg.RFRX_TRIMSTAT, Reg.RFRX_TRIM, Reg.RFRX_IRQ] s t) ∧
  (∀ (m : Int) (s : State), Rx s →
      s.get RFRX_TRIMCFG.MODE = 1 →
      max 1 (s.get RFRX_TRIMCFG.NMIN) ≤ s.rfrx.frames.length →
      (s.rfrx.frames.map (fun x => ((min 30 x.2 : Nat) : Int))).foldl (· + ·) 0 ≠ 0 →
      (slotMean s.rfrx.frames s).1 = m →
      ∃ t, exec (.trimUpdate) s = .next t ∧
        t.getI RFRX_TRIM.TRIM = clampInt (-5000) 5000 (clampInt (-5000) 5000 (s.getI RFRX_TRIM.TRIM) + clampInt (-(max 1 (s.get RFRX_TRIMCFG.MAXSTEP) : Nat)) (max 1 (s.get RFRX_TRIMCFG.MAXSTEP) : Nat) (roundDiv m (2 ^ s.get RFRX_TRIMCFG.GAINSH))) ∧
        t.rfrx.trimLive = t.getI RFRX_TRIM.TRIM ∧
        t.rfrx.frames = [] ∧
        t.mem = s.mem)

/-- Detection, frame start, and the receive intake. SENTINEL_DETECTION, SFD_MATCH, SFD_TIMEOUT, INTAKE_ACCEPT and MSW_WINDOW_EXPIRY with RADIO powered and the clocks running. An evaluation counts when R196 allows one there (evalHits). (1) An evaluation that makes DETN + 1 consecutive ones reach DETTHR on a channel with no packet makes the next packet: its number, level, first sample and corrections, its header in the lane's context slot, the sentinel in PREAMBLE; no other byte of memory changes. (2) One that makes fewer shows its metric and makes no packet; memory stays. (3) With the sentinels not searching, on a lane that is no channel, or where no evaluation is allowed, nothing changes. (4) A packet in progress that the evaluation does not beat stands, with the set of packets and memory as they were. (5) One that beats it ends it and makes the next packet. (6) SFD_MATCH within SFDWIN on a channel in PREAMBLE, of SFD 0 or of a configured SFD 1, writes time, index, SFD and tick to the slot's record, freezes the digital gain and moves the sentinel to FRAME; no byte outside the record changes. (7) SFD_MATCH after SFDWIN changes nothing. (8) SFD_TIMEOUT at SFDWIN writes 0xFE to the record and no other byte; registers and lanes stay. (9) Before SFDWIN, or a second time, it changes nothing. (10) INTAKE_ACCEPT of a MAC_OUT with a good descriptor and, of a frame with status 1, a good check passes the frame on with status DONE, counted; memory stays. (11) One with a bad descriptor passes no frame on; memory stays. (12) One whose check fails with KEEPBAD clear passes none, counted and shown as CRCFAIL; memory stays. (13) MSW_WINDOW_EXPIRY of a mode-switch window that has run out closes it and counts a miss; memory stays. (14) Of one that has not run out, nothing changes. -/
def Obligations.SentinelRows : Prop :=
  (∀ (l : Fin 96) (metric : BitVec 8) (level fest dgc : Int) (idx : Fin 400) (part : Bool) (n : Nat) (s : State), Rx s →
      s.searching = true →
      s.isChannel l.val = true →
      s.get (LOOM_SENT.STATE l.val) ≠ sentOff →
      s.evalHits l.val metric.toNat (400 * s.tick.bnd + idx.val) part = some n →
      s.msB (s.laneF l.val LOOM_LANE.MSET) LOOM_MSB.DETN < n →
      (s.lane l.val).pkt = none →
      ∃ t, exec (.sentinelDetection l metric level fest dgc idx part) s = .next t ∧
        t.loom.packets = s.loom.packets ++ [{ num := s.get LOOM_STAT.PKTNUM, lane := l.val, bond := s.laneF l.val LOOM_LANE.BOND, mset := s.laneF l.val LOOM_LANE.MSET, metric := metric.toNat, level := s.levelOf level, first := some (idx.val - s.window (s.laneF l.val LOOM_LANE.MSET) part), trim := s.rfrx.trimLive, detAt := 400 * s.tick.bnd + idx.val }] ∧
        (t.lane l.val).pkt = some (s.get LOOM_STAT.PKTNUM) ∧
        t.get LOOM_STAT.PKTNUM = (s.get LOOM_STAT.PKTNUM + 1) % 2 ^ LOOM_STAT.PKTNUM.w ∧
        (t.lane l.val).nco = clampInt (-8192) 8192 ((s.lane l.val).nco + fest) ∧
        (t.lane l.val).dg = (clampInt 0 15 (((s.lane l.val).dg : Int) + clampInt (-3) 3 dgc)).toNat ∧
        t.get (LOOM_SENT.STATE l.val) = sentPreamble ∧
        t.rn (ctxSlot l.val) 2 = s.get LOOM_STAT.PKTNUM % 2 ^ 16 ∧
        t.rn (ctxSlot l.val + 4) 4 = (s.reg Reg.SYSC_TICK).toNat ∧
        t.rn (ctxSlot l.val + 8) 2 = idx.val ∧
        Outside (ctxSlot l.val) (64) s t) ∧
  (∀ (l : Fin 96) (metric : BitVec 8) (level fest dgc : Int) (idx : Fin 400) (part : Bool) (n : Nat) (s : State), Rx s →
      s.searching = true →
      s.isChannel l.val = true →
      s.get (LOOM_SENT.STATE l.val) ≠ sentOff →
      s.evalHits l.val metric.toNat (400 * s.tick.bnd + idx.val) part = some n →
      n ≤ s.msB (s.laneF l.val LOOM_LANE.MSET) LOOM_MSB.DETN →
      ∃ t, exec (.sentinelDetection l metric level fest dgc idx part) s = .next t ∧
        t.loom.packets = s.loom.packets ∧
        (t.lane l.val).hits = n ∧
        (t.lane l.val).pkt = (s.lane l.val).pkt ∧
        t.get (LOOM_SENT.METRIC l.val) = metric.toNat ∧
        t.mem = s.mem) ∧
  (∀ (l : Fin 96) (metric : BitVec 8) (level fest dgc : Int) (idx : Fin 400) (part : Bool) (s : State), s.searching = false ∨ s.isChannel l.val = false ∨ s.evalHits l.val metric.toNat (400 * s.tick.bnd + idx.val) part = none →
      ∃ t, exec (.sentinelDetection l metric level fest dgc idx part) s = .next t ∧
        t = s) ∧
  (∀ (l : Fin 96) (metric : BitVec 8) (level fest dgc : Int) (idx : Fin 400) (part : Bool) (p : Packet) (s : State), (s.lane l.val).pkt.bind s.packet = some p →
      s.replaces p metric.toNat (s.levelOf level) = false →
      ∃ t, exec (.sentinelDetection l metric level fest dgc idx part) s = .next t ∧
        t.loom.packets = s.loom.packets ∧
        (t.lane l.val).pkt = (s.lane l.val).pkt ∧
        t.mem = s.mem) ∧
  (∀ (l : Fin 96) (metric : BitVec 8) (level fest dgc : Int) (idx : Fin 400) (part : Bool) (n : Nat) (p : Packet) (s : State), Rx s →
      s.searching = true →
      s.isChannel l.val = true →
      s.get (LOOM_SENT.STATE l.val) ≠ sentOff →
      s.evalHits l.val metric.toNat (400 * s.tick.bnd + idx.val) part = some n →
      s.msB (s.laneF l.val LOOM_LANE.MSET) LOOM_MSB.DETN < n →
      (s.lane l.val).pkt.bind s.packet = some p →
      s.replaces p metric.toNat (s.levelOf level) = true →
      ∃ t, exec (.sentinelDetection l metric level fest dgc idx part) s = .next t ∧
        (t.lane l.val).pkt = some (s.get LOOM_STAT.PKTNUM) ∧
        t.loom.packets.map (fun x => x.num) = (s.loom.packets.filter (fun x => !(x.num == p.num))).map (fun x => x.num) ++ [s.get LOOM_STAT.PKTNUM] ∧
        t.get (LOOM_SENT.STATE l.val) = sentPreamble ∧
        Outside (ctxSlot l.val) (64) s t) ∧
  (∀ (l : Fin 96) (sfd1 : Bool) (idx : Fin 400) (time : DWord) (p : Packet) (s : State), Rx s →
      s.searching = true →
      s.inProgress l.val sentPreamble = some p →
      sfd1 = false ∨ s.msD p.mset LOOM_MSD.SFDN2 ≠ 0 →
      p.sfdOver = false →
      400 * s.tick.bnd + idx.val ≤ p.detAt + s.sfdSpan p.mset →
      ∃ t, exec (.sfdMatch l sfd1 idx time) s = .next t ∧
        t.rn (ctxSlot l.val + 0x28) 8 = time.toNat ∧
        t.rn (ctxSlot l.val + 0x20) 2 = idx.val ∧
        t.rb (ctxSlot l.val + 0x22) = (if sfd1 then 1 else 0) ∧
        t.rn (ctxSlot l.val + 0x24) 4 = (s.reg Reg.SYSC_TICK).toNat ∧
        (t.lane l.val).dgFrozen = true ∧
        t.get (LOOM_SENT.STATE l.val) = sentFrame ∧
        (∀ b, b < ctxSlot l.val + 0x20 ∨ ctxSlot l.val + 0x30 ≤ b → t.rb b = s.rb b)) ∧
  (∀ (l : Fin 96) (sfd1 : Bool) (idx : Fin 400) (time : DWord) (p : Packet) (s : State), s.inProgress l.val sentPreamble = some p →
      p.sfdOver = true ∨ p.detAt + s.sfdSpan p.mset < 400 * s.tick.bnd + idx.val →
      ∃ t, exec (.sfdMatch l sfd1 idx time) s = .next t ∧
        t = s) ∧
  (∀ (l : Fin 96) (p : Packet) (s : State), Rx s →
      s.searching = true →
      s.inProgress l.val sentPreamble = some p →
      p.sfdOver = false →
      p.detAt + s.sfdSpan p.mset ≤ s.laneIdx →
      ∃ t, exec (.sfdTimeout l) s = .next t ∧
        t.rb (ctxSlot l.val + 0x22) = 0xFE ∧
        t.loom.packets.map (fun x => x.num) = s.loom.packets.map (fun x => x.num) ∧
        t.loom.lanes = s.loom.lanes ∧
        t.regs = s.regs ∧
        (∀ b, b ≠ ctxSlot l.val + 0x22 → t.rb b = s.rb b)) ∧
  (∀ (l : Fin 96) (p : Packet) (s : State), s.inProgress l.val sentPreamble = some p →
      p.sfdOver = true ∨ s.laneIdx < p.detAt + s.sfdSpan p.mset →
      ∃ t, exec (.sfdTimeout l) s = .next t ∧
        t = s) ∧
  (∀ (n : Fin 32) (j : Job) (c : DmaCmd) (cs : List DmaCmd) (p : Packet) (blk : List Byte) (s : State), Rx s →
      Running n j s →
      (s.eng n).dma = c :: cs →
      (s.eng n).ending = none →
      c.kind = .macOut →
      s.bytes (weftLocal n + c.loc) c.len = blk →
      s.packetOf j = some p →
      badDesc j p (blk.take 32) blk.length s = false →
      blk.getD 0x15 0 = 1 →
      fcsOk (bitOf (blk.getD 5 0).toNat 3) ((blk.drop 32).take (leNat ((blk.drop 6).take 2))) = true →
      ∃ t, exec (.intakeAccept n) s = .next t ∧
        (t.eng n).dma = cs ∧
        t.demod.done.dropLast = s.demod.done ∧
        t.demod.done.getLast?.map (fun f => (f.pkt, f.lane, f.status, f.psdu)) = some (p.num, p.lane, stDone, (blk.drop 32).take (leNat ((blk.drop 6).take 2))) ∧
        t.get (MAC_RXCNT.COUNT 0) = (s.get (MAC_RXCNT.COUNT 0) + 1) % 2 ^ 32 ∧
        t.mem = s.mem) ∧
  (∀ (n : Fin 32) (j : Job) (c : DmaCmd) (cs : List DmaCmd) (p : Packet) (blk : List Byte) (s : State), Rx s →
      Running n j s →
      (s.eng n).dma = c :: cs →
      (s.eng n).ending = none →
      c.kind = .macOut →
      s.bytes (weftLocal n + c.loc) c.len = blk →
      s.packetOf j = some p →
      badDesc j p (blk.take 32) blk.length s = true →
      ∃ t, exec (.intakeAccept n) s = .next t ∧
        (t.eng n).dma = cs ∧
        t.demod = s.demod ∧
        t.mem = s.mem) ∧
  (∀ (n : Fin 32) (j : Job) (c : DmaCmd) (cs : List DmaCmd) (p : Packet) (blk : List Byte) (s : State), Rx s →
      Running n j s →
      (s.eng n).dma = c :: cs →
      (s.eng n).ending = none →
      c.kind = .macOut →
      s.bytes (weftLocal n + c.loc) c.len = blk →
      s.packetOf j = some p →
      badDesc j p (blk.take 32) blk.length s = false →
      blk.getD 0x15 0 = 1 →
      fcsOk (bitOf (blk.getD 5 0).toNat 3) ((blk.drop 32).take (leNat ((blk.drop 6).take 2))) = false →
      s.on MAC_RXCFG.KEEPBAD = false →
      ∃ t, exec (.intakeAccept n) s = .next t ∧
        (t.eng n).dma = cs ∧
        t.demod = s.demod ∧
        t.get (MAC_RXCNT.COUNT 12) = (s.get (MAC_RXCNT.COUNT 12) + 1) % 2 ^ 32 ∧
        t.get MAC_RXLAST.STATUS = stCrcfail ∧
        t.mem = s.mem) ∧
  (∀ (w : Nat × Nat) (s : State), Rx s →
      s.demod.msw = some w →
      w.2 + s.mswWindow < s.now →
      ∃ t, exec (.mswWindowExpiry) s = .next t ∧
        t.demod.msw = none ∧
        t.get MAC_RXMSW.MISS = min (s.get MAC_RXMSW.MISS + 1) 0xFFFF ∧
        t.demod.done = s.demod.done ∧
        t.mem = s.mem) ∧
  (∀ (w : Nat × Nat) (s : State), s.demod.msw = some w →
      s.now ≤ w.2 + s.mswWindow →
      ∃ t, exec (.mswWindowExpiry) s = .next t ∧
        t = s)

/-- Transmit requests, lock and coexistence. TX_REQUEST, TX_PREPARE, TX_LOCK, LOCK_FAIL, COEX_REQ_START, COEX_GRANT, GNTWAIT_EXPIRY and COEX_GRANT_WITHDRAWN with RADIO powered. Where a clause says so the MAC rests: its transmit ring is off and no ended request waits for it. (1) TX_REQUEST to an idle chain, MAC at rest, coexistence off, whose tests pass is taken with its carrier and band, and its preparation begins when it is unscheduled and no calibration is in the way; registers and memory stay. (2) With coexistence on, an unscheduled one also raises COEX_REQ and sets COEX_PRI. (3) TX_REQUEST to a busy chain joins the queue; registers and memory stay. (4) TX_REQUEST to an idle chain whose tests fail ends with the status of the test; memory, the Loom and every register but RFTX_STAT, RFTX_CNT0 and RFTX_IRQ stay. (5) Without a valid regulatory record it ends NOREG, counted and flagged as a regulatory refusal. (6) TX_PREPARE of a waiting request with the start-up calibration done and no TX calibration running begins its preparation; registers and memory stay. (7) TX_LOCK of an unscheduled request in preparation locks it; registers and memory stay. (8) It does so whatever the MAC holds. (9) TX_LOCK of a scheduled request less than the TX set-up before its start ends it LATE, counted and flagged, with COEX_REQ low; the Loom and memory stay. (10) LOCK_FAIL of an unscheduled request in preparation ends it LOCK_FAIL, flagged; the Loom and memory stay. (11) COEX_REQ_START of a scheduled request with coexistence on raises COEX_REQ and sets COEX_PRI; registers and memory stay. (12) COEX_GRANT of a request that waits for it and passes listen-before-talk starts the sequence and blanks the lanes. (13) COEX_GRANT with no request taken moves the pin alone. (14) GNTWAIT_EXPIRY of a request that waits for its grant ends it DENIED, counted and flagged, with the wires low; the Loom and memory stay. (15) COEX_GRANT_WITHDRAWN during the packet with EN and ABORT set ramps down at once; registers and memory stay. (16) With EN or ABORT clear only the pin moves. -/
def Obligations.TransmitRequests : Prop :=
  (∀ (r : TxReq) (k : Int) (b : Nat) (s : State), ChainIdle s →
      txTests r s = .inr (k, b) →
      s.on RFTX_COEX.EN = false →
      s.power.radioOffDue = false →
      ∃ t, exec (.txRequest r) s = .next t ∧
        (t.tx.job.map (fun j => (j.req, j.owner, j.steps, j.band))) = some (r, .outside, k, b) ∧
        t.txBusy = (r.start.isNone && s.synthFree) ∧
        t.tx.queue = [] ∧
        t.mem = s.mem ∧
        t.regs = s.regs) ∧
  (∀ (r : TxReq) (k : Int) (b : Nat) (s : State), ChainIdle s →
      txTests r s = .inr (k, b) →
      s.on RFTX_COEX.EN = true →
      s.power.radioOffDue = false →
      ∃ t, exec (.txRequest r) s = .next t ∧
        (t.tx.job.map (fun j => (j.req, j.owner, j.steps, j.band))) = some (r, .outside, k, b) ∧
        t.pins.coexReq = (r.start.isNone || s.pins.coexReq) ∧
        t.pins.coexPri = (if r.start.isNone then r.prio else s.pins.coexPri) ∧
        t.tx.queue = [] ∧
        t.mem = s.mem ∧
        t.regs = s.regs) ∧
  (∀ (r : TxReq) (s : State), s.radioOn = true →
      MacQuiet s →
      s.tx.job.isSome = true →
      s.txBusy = true →
      ∃ t, exec (.txRequest r) s = .next t ∧
        t.tx.queue = s.tx.queue ++ [(.outside, r)] ∧
        t.tx.job = s.tx.job ∧
        t.mem = s.mem ∧
        t.regs = s.regs) ∧
  (∀ (r : TxReq) (st : Nat) (s : State), ChainIdle s →
      txTests r s = .inl st →
      s.power.radioOffDue = false →
      ∃ t, exec (.txRequest r) s = .next t ∧
        t.get RFTX_STAT.LAST = st ∧
        t.tx.job = none ∧
        t.tx.queue = [] ∧
        t.loom = s.loom ∧
        t.mem = s.mem ∧
        RegsBut [Reg.RFTX_STAT, Reg.RFTX_CNT0, Reg.RFTX_IRQ] s t) ∧
  (∀ (r : TxReq) (s : State), ChainIdle s →
      s.recValid = false →
      s.power.radioOffDue = false →
      ∃ t, exec (.txRequest r) s = .next t ∧
        t.get RFTX_STAT.LAST = txNoreg ∧
        t.tx.job = none ∧
        t.tx.queue = [] ∧
        t.get RFTX_CNT0.REGREF = min (s.get RFTX_CNT0.REGREF + 1) 0xFFFF ∧
        t.on RFTX_IRQ.REGREF = true ∧
        t.mem = s.mem) ∧
  (∀ (j : TxJob) (s : State), Chain j s →
      j.phase = .waiting →
      s.tx.cal = none →
      s.on RFRX_CALSTAT.DONE = true →
      s.power.radioOffDue = false →
      ∃ t, exec (.txPrepare) s = .next t ∧
        t.tx.job = some { j with prepDue := true, phase := .preparing } ∧
        t.mem = s.mem ∧
        t.regs = s.regs) ∧
  (∀ (j : TxJob) (s : State), Chain j s →
      j.phase = .preparing →
      j.req.start = none →
      s.power.radioOffDue = false →
      ∃ t, exec (.txLock) s = .next t ∧
        t.tx.job = some { j with phase := .locked } ∧
        t.mem = s.mem ∧
        t.regs = s.regs) ∧
  (∀ (j : TxJob) (s : State), s.radioOn = true →
      s.tx.job = some j →
      j.phase = .preparing →
      j.req.start = none →
      ∃ t, exec (.txLock) s = .next t ∧
        t.tx.job = some { j with phase := .locked }) ∧
  (∀ (j : TxJob) (at_ : DWord) (s : State), Chain j s →
      j.phase = .preparing →
      j.req.start = some at_ →
      0 < ntDiff s.nt ((at_.toNat + 2 ^ 64 - usNt s.txSetup) % 2 ^ 64) →
      s.power.radioOffDue = false →
      ∃ t, exec (.txLock) s = .next t ∧
        t.tx.job = none ∧
        t.get RFTX_STAT.LAST = txLate ∧
        t.on RFTX_IRQ.LOCKERR = true ∧
        t.get RFTX_CNT0.LOCKERR = min (s.get RFTX_CNT0.LOCKERR + 1) 0xFFFF ∧
        t.pins.coexReq = false ∧
        t.loom = s.loom ∧
        t.mem = s.mem) ∧
  (∀ (j : TxJob) (s : State), Chain j s →
      j.phase = .preparing →
      j.req.start = none →
      s.power.radioOffDue = false →
      ∃ t, exec (.lockFail) s = .next t ∧
        t.tx.job = none ∧
        t.get RFTX_STAT.LAST = txLockFail ∧
        t.on RFTX_IRQ.LOCKERR = true ∧
        t.loom = s.loom ∧
        t.mem = s.mem) ∧
  (∀ (j : TxJob) (s : State), Chain j s →
      j.req.start.isSome = true →
      s.on RFTX_COEX.EN = true →
      s.power.radioOffDue = false →
      ∃ t, exec (.coexReqStart) s = .next t ∧
        t.pins.coexReq = true ∧
        t.pins.coexPri = j.req.prio ∧
        t.tx.job = some j ∧
        t.mem = s.mem ∧
        t.regs = s.regs) ∧
  (∀ (j : TxJob) (lowBat : Bool) (s : State), Chain j s →
      j.phase = .grant →
      s.lbtOk j = true →
      s.power.radioOffDue = false →
      ∃ t, exec (.coexGrant lowBat) s = .next t ∧
        t.pins.coexGnt = !(s.on RFTX_COEX.GNTPOL) ∧
        t.tx.job.map (·.phase) = some .lead ∧
        t.loom.blankTx = true) ∧
  (∀ (lowBat : Bool) (s : State), s.radioOn = true →
      MacQuiet s →
      s.power.radioOffDue = false →
      s.tx.job = none →
      ∃ t, exec (.coexGrant lowBat) s = .next t ∧
        t = { s with pins := { s.pins with coexGnt := !(s.on RFTX_COEX.GNTPOL) } }) ∧
  (∀ (j : TxJob) (s : State), Chain j s →
      j.phase = .grant →
      s.power.radioOffDue = false →
      ∃ t, exec (.gntwaitExpiry) s = .next t ∧
        t.tx.job = none ∧
        t.get RFTX_STAT.LAST = txDenied ∧
        t.on RFTX_IRQ.COEX = true ∧
        t.get RFTX_CNT1.COEX = min (s.get RFTX_CNT1.COEX + 1) 0xFFFF ∧
        t.pins.coexReq = false ∧
        t.pins.coexPri = false ∧
        t.loom = s.loom ∧
        t.mem = s.mem) ∧
  (∀ (j : TxJob) (s : State), Chain j s →
      j.phase = .ramp →
      s.on RFTX_COEX.EN = true →
      s.on RFTX_COEX.ABORT = true →
      s.power.radioOffDue = false →
      ∃ t, exec (.coexGrantWithdrawn) s = .next t ∧
        t.pins.coexGnt = s.on RFTX_COEX.GNTPOL ∧
        t.tx.job = some { j with phase := .down, aborted := true } ∧
        t.mem = s.mem ∧
        t.regs = s.regs) ∧
  (∀ (j : TxJob) (s : State), Chain j s →
      s.power.radioOffDue = false →
      s.on RFTX_COEX.EN = false ∨ s.on RFTX_COEX.ABORT = false →
      ∃ t, exec (.coexGrantWithdrawn) s = .next t ∧
        t = { s with pins := { s.pins with coexGnt := s.on RFTX_COEX.GNTPOL } })

/-- The transmit sequence. SEQUENCER_START, PA_ENABLE, RAMP_UP, LAST_SYMBOL, RAMP_DOWN_END, PA_DISABLE, LAST_TX_SAMPLE, BLANKING_END and DUTY_BUCKET_ADVANCE. Unless a clause says otherwise the chain holds one request from outside the MAC's schedule, nothing else waits, the MAC rests and no switch-off of RADIO waits. (1) SEQUENCER_START of a locked request with listen-before-talk passed and the grant given fixes its power, blanks the lanes and moves TRSW and LNA_EN by EXTEN and their polarities. (2) With listen-before-talk failed it ends LBT, counted and flagged. (3) Without the grant, scheduled or with GNTWAIT 0, it ends DENIED, flagged. (4) Unscheduled with GNTWAIT set it waits for the grant. (5) SEQUENCER_START of a scheduled request not yet locked ends it LATE. (6) PA_ENABLE takes the sequence on and moves PA_EN by EXTEN and its polarity; registers and memory stay. (7) It takes the sequence on whatever else waits. (8) RAMP_UP starts the on-air time and puts PA_RAMP at 0.3 V + 0.1 V × RAMPV; registers and memory stay. (9) It takes the sequence on whatever else waits. (10) LAST_SYMBOL begins the ramp down; registers and memory stay. (11) It takes the sequence on whatever else waits. (12) RAMP_DOWN_END charges the on-air time, rounded up to 1 µs, to the bucket in which it started; registers and memory stay. (13) PA_DISABLE puts PA_EN inactive; registers and memory stay. (14) It takes the sequence on whatever else waits. (15) LAST_TX_SAMPLE ends the request SENT, with held writes applied and COEX_REQ low; the Loom and memory stay. (16) One whose grant was withdrawn ends ABORTED, flagged. (17) With a switch-off of RADIO waiting, the domain then switches off. (18) BLANKING_END with nothing on the air, RADIO powered and the MAC at rest ends the transmission's blanking; registers and memory stay. (19) DUTY_BUCKET_ADVANCE in every state moves every bucket on by one; registers and memory stay. -/
def Obligations.TransmitSequence : Prop :=
  (∀ (j : TxJob) (lowBat : Bool) (s : State), Chain j s →
      j.phase = .locked →
      s.lbtOk j = true →
      s.granted = true →
      s.power.radioOffDue = false →
      ∃ t, exec (.sequencerStart lowBat) s = .next t ∧
        t.tx.job.map (fun x => (x.phase, x.p, x.req)) = some (.lead, (s.txPower j).1, j.req) ∧
        t.loom.blankTx = true ∧
        t.pins.trswTx = (s.on RFTX_CTRL.EXTEN != s.on RFTX_SEQ.TRPOL) ∧
        t.pins.lnaEn = (!(s.on RFTX_CTRL.EXTEN) != s.on RFTX_SEQ.LNAPOL)) ∧
  (∀ (j : TxJob) (lowBat : Bool) (s : State), Chain j s →
      j.phase = .locked →
      s.lbtOk j = false →
      s.power.radioOffDue = false →
      ∃ t, exec (.sequencerStart lowBat) s = .next t ∧
        t.tx.job = none ∧
        t.get RFTX_STAT.LAST = txLbt ∧
        t.on RFTX_IRQ.REGREF = true ∧
        t.get RFTX_CNT0.REGREF = min (s.get RFTX_CNT0.REGREF + 1) 0xFFFF ∧
        t.loom = s.loom ∧
        t.mem = s.mem) ∧
  (∀ (j : TxJob) (lowBat : Bool) (s : State), Chain j s →
      j.phase = .locked →
      s.lbtOk j = true →
      s.granted = false →
      j.req.start.isSome = true ∨ s.get RFTX_COEX.GNTWAIT = 0 →
      s.power.radioOffDue = false →
      ∃ t, exec (.sequencerStart lowBat) s = .next t ∧
        t.tx.job = none ∧
        t.get RFTX_STAT.LAST = txDenied ∧
        t.on RFTX_IRQ.COEX = true ∧
        t.loom = s.loom ∧
        t.mem = s.mem) ∧
  (∀ (j : TxJob) (lowBat : Bool) (s : State), Chain j s →
      j.phase = .locked →
      s.lbtOk j = true →
      s.granted = false →
      j.req.start = none →
      s.get RFTX_COEX.GNTWAIT ≠ 0 →
      s.power.radioOffDue = false →
      ∃ t, exec (.sequencerStart lowBat) s = .next t ∧
        t.tx.job = some { j with phase := .grant } ∧
        t.loom = s.loom ∧
        t.mem = s.mem ∧
        t.regs = s.regs) ∧
  (∀ (j : TxJob) (lowBat : Bool) (s : State), Chain j s →
      j.phase = .preparing →
      j.req.start.isSome = true →
      s.power.radioOffDue = false →
      ∃ t, exec (.sequencerStart lowBat) s = .next t ∧
        t.tx.job = none ∧
        t.get RFTX_STAT.LAST = txLate ∧
        t.loom = s.loom ∧
        t.mem = s.mem) ∧
  (∀ (j : TxJob) (s : State), Chain j s →
      j.phase = .lead →
      s.power.radioOffDue = false →
      ∃ t, exec (.paEnable) s = .next t ∧
        t.tx.job = some { j with phase := .paOn } ∧
        t.pins.paEn = (s.on RFTX_CTRL.EXTEN != s.on RFTX_SEQ.PAPOL) ∧
        t.mem = s.mem ∧
        t.regs = s.regs) ∧
  (∀ (j : TxJob) (s : State), s.radioOn = true →
      s.tx.job = some j →
      j.phase = .lead →
      ∃ t, exec (.paEnable) s = .next t ∧
        t.tx.job = some { j with phase := .paOn }) ∧
  (∀ (j : TxJob) (s : State), Chain j s →
      j.phase = .paOn →
      s.power.radioOffDue = false →
      ∃ t, exec (.rampUp) s = .next t ∧
        t.tx.job = some { j with phase := .ramp, rampAt := some s.now, age := 0 } ∧
        t.pins.paRamp = 300 + 100 * s.get RFTX_CTRL.RAMPV ∧
        t.mem = s.mem ∧
        t.regs = s.regs) ∧
  (∀ (j : TxJob) (s : State), s.radioOn = true →
      s.tx.job = some j →
      j.phase = .paOn →
      ∃ t, exec (.rampUp) s = .next t ∧
        t.tx.job = some { j with phase := .ramp, rampAt := some s.now, age := 0 }) ∧
  (∀ (j : TxJob) (s : State), Chain j s →
      j.phase = .ramp →
      s.power.radioOffDue = false →
      ∃ t, exec (.lastSymbol) s = .next t ∧
        t.tx.job = some { j with phase := .down } ∧
        t.mem = s.mem ∧
        t.regs = s.regs) ∧
  (∀ (j : TxJob) (s : State), s.radioOn = true →
      s.tx.job = some j →
      j.phase = .ramp →
      ∃ t, exec (.lastSymbol) s = .next t ∧
        t.tx.job = some { j with phase := .down }) ∧
  (∀ (j : TxJob) (from_ : Nat) (s : State), Chain j s →
      j.phase = .down →
      j.rampAt = some from_ →
      j.age < 360 →
      j.band < 4 →
      ((s.tx.duty[j.band]?).getD []).length ≤ 360 →
      s.power.radioOffDue = false →
      ∃ t, exec (.rampDownEnd) s = .next t ∧
        t.tx.job = some { j with phase := .downEnd } ∧
        t.dutyUsed j.band = s.dutyUsed j.band + (s.now - from_ + 249) / 250 ∧
        t.mem = s.mem ∧
        t.regs = s.regs) ∧
  (∀ (j : TxJob) (s : State), Chain j s →
      j.phase = .downEnd →
      s.power.radioOffDue = false →
      ∃ t, exec (.paDisable) s = .next t ∧
        t.tx.job = some { j with phase := .paOff } ∧
        t.pins.paEn = s.on RFTX_SEQ.PAPOL ∧
        t.mem = s.mem ∧
        t.regs = s.regs) ∧
  (∀ (j : TxJob) (s : State), s.radioOn = true →
      s.tx.job = some j →
      j.phase = .downEnd →
      ∃ t, exec (.paDisable) s = .next t ∧
        t.tx.job = some { j with phase := .paOff }) ∧
  (∀ (j : TxJob) (rl : BitVec 8) (s : State), Chain j s →
      j.phase = .paOff →
      j.aborted = false →
      s.power.radioOffDue = false →
      ∃ t, exec (.lastTxSample rl) s = .next t ∧
        t.tx.job = none ∧
        t.tx.held = [] ∧
        t.get RFTX_STAT.LAST = txSent ∧
        t.pins.coexReq = false ∧
        t.loom = s.loom ∧
        t.mem = s.mem) ∧
  (∀ (j : TxJob) (rl : BitVec 8) (s : State), Chain j s →
      j.phase = .paOff →
      j.aborted = true →
      s.power.radioOffDue = false →
      ∃ t, exec (.lastTxSample rl) s = .next t ∧
        t.tx.job = none ∧
        t.get RFTX_STAT.LAST = txAborted ∧
        t.on RFTX_IRQ.COEX = true ∧
        t.loom = s.loom ∧
        t.mem = s.mem) ∧
  (∀ (j : TxJob) (rl : BitVec 8) (s : State), Chain j s →
      j.phase = .paOff →
      s.power.radioOffDue = true →
      ∃ t, exec (.lastTxSample rl) s = .next t ∧
        t.tx.job = none ∧
        t.radioOn = false) ∧
  (∀ (s : State), s.radioOn = true →
      MacQuiet s →
      s.onAir = false →
      s.power.radioOffDue = false →
      ∃ t, exec (.blankingEnd) s = .next t ∧
        t.loom.blankTx = false ∧
        t.mem = s.mem ∧
        t.regs = s.regs) ∧
  (∀ (s : State), ∃ t, exec (.dutyBucketAdvance) s = .next t ∧
        t.tx.duty = s.tx.duty.map (fun l => (0 :: l).take 360) ∧
        t.mem = s.mem ∧
        t.regs = s.regs)

/-- FIR taps, held writes and TX calibrations. FIR_WRITE, TX_CAL_VCO and TX_CAL_CHECK as the bus takes them, and TX_CAL_DONE. (1) FIR_WRITE with no transmission in hand gives the tap its value and sets MASKF; every other register and memory stay. (2) FIR_WRITE during one is held; registers and memory stay. (3) TX_CAL_VCO on an idle chain starts the calibration; registers and memory stay. (4) TX_CAL_CHECK on an idle chain likewise. (5) TX_CAL_VCO with a request taken waits. (6) TX_CAL_CHECK with a request taken waits. (7) TX_CAL_DONE of a running calibration with nothing waiting ends it with CALEND; a check sets MASKF when the adjacent-channel figure lies below ACPMAX and clears it else; memory stays. -/
def Obligations.TransmitCalibration : Prop :=
  (∀ (n : Fin 16) (d : Word) (s : State), Core (Reg.RFTX_FIR n.val) s →
      s.txBusy = false →
      ∃ t, exec (.firWrite n d) s = .next t ∧
        t.reg (Reg.RFTX_FIR n.val) = d ∧
        t.on RFTX_STAT.MASKF = true ∧
        t.tx = s.tx ∧
        t.mem = s.mem ∧
        RegsBut [Reg.RFTX_FIR n.val, Reg.RFTX_STAT] s t) ∧
  (∀ (n : Fin 16) (d : Word) (s : State), Core (Reg.RFTX_FIR n.val) s →
      s.txBusy = true →
      ∃ t, exec (.firWrite n d) s = .next t ∧
        t.tx.held = s.tx.held ++ [(Reg.RFTX_FIR n.val, d)] ∧
        t.mem = s.mem ∧
        t.regs = s.regs) ∧
  (∀ (s : State), Core Reg.RFTX_CALREQ s →
      ChainIdle s →
      s.power.radioOffDue = false →
      ∃ t, exec (.txCalVco) s = .next t ∧
        t.tx.cal = some false ∧
        t.tx.calReq = 0 ∧
        t.mem = s.mem ∧
        t.regs = s.regs) ∧
  (∀ (s : State), Core Reg.RFTX_CALREQ s →
      ChainIdle s →
      s.power.radioOffDue = false →
      ∃ t, exec (.txCalCheck) s = .next t ∧
        t.tx.cal = some true ∧
        t.tx.calReq = 0 ∧
        t.mem = s.mem ∧
        t.regs = s.regs) ∧
  (∀ (j : TxJob) (s : State), Core Reg.RFTX_CALREQ s →
      s.tx.job = some j →
      ∃ t, exec (.txCalVco) s = .next t ∧
        t.tx.cal = s.tx.cal ∧
        t.tx.calReq = s.tx.calReq ||| 1 ∧
        t.mem = s.mem ∧
        t.regs = s.regs) ∧
  (∀ (j : TxJob) (s : State), Core Reg.RFTX_CALREQ s →
      s.tx.job = some j →
      ∃ t, exec (.txCalCheck) s = .next t ∧
        t.tx.cal = s.tx.cal ∧
        t.tx.calReq = s.tx.calReq ||| 2 ∧
        t.mem = s.mem ∧
        t.regs = s.regs) ∧
  (∀ (acp : BitVec 8) (check : Bool) (s : State), s.radioOn = true →
      MacQuiet s →
      s.tx.job = none →
      s.tx.queue = [] →
      s.tx.calReq = 0 →
      s.tx.cal = some check →
      s.power.radioOffDue = false →
      ∃ t, exec (.txCalDone acp) s = .next t ∧
        t.tx.cal = none ∧
        t.on RFTX_IRQ.CALEND = true ∧
        t.on RFTX_STAT.MASKF = (if check then decide (acp.toNat < s.rrec 8 1) else s.on RFTX_STAT.MASKF) ∧
        t.mem = s.mem)

/-- Links, beacon slots, the transmit ring and CSMA. LINK_OCCURRENCE, BEACON_SLOT, TXQ_HEAD_WRITE, CCA_ASSESS and DEFER_EXPIRY with RADIO powered. Where a clause says so the MAC rests: its transmit ring is off and no ended request waits for it. (1) In the slot of a lone RX link that is not the time parent's, of a part that is no coordinator, a receive window opens over its span, with no other action or window; registers and memory stay. (2) That of the time parent's link is centred on the expected SFD end with the half-width in force, and only MAC_BSTAT may change among registers. (3) The occurrence of a lone link whose lane is no channel opens nothing and is counted NOLANE, flagged; memory and every other register stay. (4) A coordinator opens no window; only the NOLANE count and flag may change. (5) With RADIO off LINK_OCCURRENCE changes nothing. (6) In its beacon slot a part that tracks or searches its parent opens a window with the half-width in force on the beacon lane, in SEARCH on the search lanes, and shows the half-width in GUARD; memory and every register but MAC_BSTAT stay. (7) Where the beacon lane is no channel nothing opens and NOLANE is counted and flagged. (8) A slot that is no beacon slot changes nothing. (9) With RADIO off BEACON_SLOT changes nothing. (10) TXQ_HEAD_WRITE as the bus takes it shows HEAD as written; TAIL, memory and every other register stay. (11) With the ring on, a write that makes a ready descriptor of undefined kind the ring's first ends it BADDESC: STATE ended, STATUS written, TAIL past it, TXDONE set, memory outside the descriptor as it was. (12) CCA_ASSESS of a busy channel below MAXBO counts a back-off, raises BE by 1 to at most MAXBE and moves on by 1 plus a draw below 2^BE, of an IMMEDIATE descriptor at least to the first boundary whose assessment lies ahead (log entry 23); registers and memory stay. (13) At MAXBO the descriptor ends CAFAIL: STATUS with its tries, COUNTER, TXTIME and STATE written, TXDONE set, counted; memory outside the descriptor stays. (14) At a boundary that no longer fits the span the loop stops and is kept with the descriptor; registers and memory stay. (15) With the MAC not allowed to transmit, or a descriptor to a parent in SEARCH, the loop stops likewise. (16) CCA_ASSESS of a descriptor without CSMA changes nothing. (17) With DEFERRX, a packet in PAYLOAD and no deferral used up, the descriptor is deferred; registers and memory stay. (18) DEFER_EXPIRY of a deferred descriptor whose assessment is due assesses it, at the first boundary whose assessment lies ahead (log entry 23), with no further deferral. (19) With the assessment still ahead it only ends further deferral; registers and memory stay. (20) DEFER_EXPIRY with the descriptor not deferred changes nothing. -/
def Obligations.MacSchedule : Prop :=
  (∀ (n : Nat) (s : State), s.radioOn = true →
      MacQuiet s →
      s.linksIn lkRx s.schedSlot = [n] →
      s.linksIn lkShared s.schedSlot = [] →
      s.on MAC_CFG.COORD = false →
      (s.on MAC_PARENT.EN && s.linkB n MAC_LINKB.PEER == s.get MAC_PARENT.ENTRY) = false →
      s.linksIn lkTx s.schedSlot = [] →
      s.planChan (s.linkLane n s.schedSlot) = true →
      s.mac.acts = [] →
      s.mac.wins = [] →
      ∃ t, exec (.linkOccurrence) s = .next t ∧
        t.mac.wins = [⟨.link n false, s.slotStart s.schedSlot, s.slotStart s.schedSlot + s.spanCounts n, s.slotStart s.schedSlot + s.txOfs, [s.linkLane n s.schedSlot], s.linkB n MAC_LINKB.PEER, false⟩] ∧
        t.mac.acts = [] ∧
        t.mem = s.mem ∧
        t.regs = s.regs) ∧
  (∀ (n : Nat) (s : State), s.radioOn = true →
      MacQuiet s →
      s.linksIn lkRx s.schedSlot = [n] →
      s.linksIn lkShared s.schedSlot = [] →
      s.linksIn lkTx s.schedSlot = [] →
      s.on MAC_CFG.COORD = false →
      s.on MAC_PARENT.EN = true →
      s.linkB n MAC_LINKB.PEER = s.get MAC_PARENT.ENTRY →
      s.planChan (s.linkLane n s.schedSlot) = true →
      s.mac.acts = [] →
      s.mac.wins = [] →
      ∃ t, exec (.linkOccurrence) s = .next t ∧
        t.mac.wins = [⟨.link n false, s.slotStart s.schedSlot + s.txOfs - s.halfWidth (s.slotStart s.schedSlot + s.txOfs), s.slotStart s.schedSlot + s.txOfs + s.halfWidth (s.slotStart s.schedSlot + s.txOfs) + 1, s.slotStart s.schedSlot + s.txOfs, [s.linkLane n s.schedSlot], s.linkB n MAC_LINKB.PEER, false⟩] ∧
        t.mem = s.mem ∧
        RegsBut [Reg.MAC_BSTAT] s t) ∧
  (∀ (n : Nat) (s : State), s.radioOn = true →
      MacQuiet s →
      s.linksIn lkTx s.schedSlot ++ s.linksIn lkShared s.schedSlot ++ s.linksIn lkRx s.schedSlot = [n] →
      s.planChan (s.linkLane n s.schedSlot) = false →
      s.mac.wins = [] →
      ∃ t, exec (.linkOccurrence) s = .next t ∧
        t.get (MAC_CNT.LO 3) = min (s.get (MAC_CNT.LO 3) + 1) 0xFFFF ∧
        t.on MAC_IRQ.NOLANE = true ∧
        t.mac.wins = [] ∧
        t.mem = s.mem ∧
        RegsBut [Reg.MAC_CNT 3, Reg.MAC_IRQ] s t) ∧
  (∀ (s : State), s.radioOn = true →
      MacQuiet s →
      s.on MAC_CFG.COORD = true →
      s.mac.wins = [] →
      ∃ t, exec (.linkOccurrence) s = .next t ∧
        t.mac.wins = [] ∧
        t.mem = s.mem ∧
        RegsBut [Reg.MAC_CNT 3, Reg.MAC_IRQ] s t) ∧
  (∀ (s : State), s.radioOn = false →
      ∃ t, exec (.linkOccurrence) s = .next t ∧
        t = s) ∧
  (∀ (l : Nat) (s : State), s.radioOn = true →
      MacQuiet s →
      s.beaconSlot s.schedSlot = true →
      s.ml MAC_BCNCFG.ROLE Reg.MAC_BCNCFG_LIVE = 1 →
      s.ml MAC_BCNCFG.LANE Reg.MAC_BCNCFG_LIVE = l →
      s.planChan l = true →
      s.get MAC_BSTAT.STATE = bsTrack ∨ s.get MAC_BSTAT.STATE = bsSearch →
      s.mac.acts = [] →
      s.mac.wins = [] →
      ∃ t, exec (.beaconSlot) s = .next t ∧
        t.mac.wins = [⟨.beacon, s.slotStart s.schedSlot + s.txOfs - s.halfWidth (s.slotStart s.schedSlot + s.txOfs), s.slotStart s.schedSlot + s.txOfs + s.halfWidth (s.slotStart s.schedSlot + s.txOfs) + 1, s.slotStart s.schedSlot + s.txOfs, if s.get MAC_BSTAT.STATE = bsSearch then s.searchLanes l else [l], s.get MAC_PARENT.ENTRY, false⟩] ∧
        t.get MAC_BSTAT.GUARD = min 65535 (s.halfWidth (s.slotStart s.schedSlot + s.txOfs) / 250).toNat ∧
        t.mem = s.mem ∧
        RegsBut [Reg.MAC_BSTAT] s t) ∧
  (∀ (s : State), s.radioOn = true →
      MacQuiet s →
      s.parentBeacon s.schedSlot ≠ none →
      s.planChan (s.ml MAC_BCNCFG.LANE Reg.MAC_BCNCFG_LIVE) = false →
      s.mac.wins = [] →
      ∃ t, exec (.beaconSlot) s = .next t ∧
        t.get (MAC_CNT.LO 3) = min (s.get (MAC_CNT.LO 3) + 1) 0xFFFF ∧
        t.on MAC_IRQ.NOLANE = true ∧
        t.mac.wins = [] ∧
        t.mem = s.mem ∧
        RegsBut [Reg.MAC_CNT 3, Reg.MAC_IRQ] s t) ∧
  (∀ (s : State), s.radioOn = true →
      MacQuiet s →
      s.beaconSlot s.schedSlot = false →
      s.mac.wins = [] →
      s.mac.acts = [] →
      ∃ t, exec (.beaconSlot) s = .next t ∧
        t = s) ∧
  (∀ (s : State), s.radioOn = false →
      ∃ t, exec (.beaconSlot) s = .next t ∧
        t = s) ∧
  (∀ (head : BitVec 8) (s : State), Core Reg.MAC_TXQPTR s →
      MacQuiet s →
      ∃ t, exec (.txqHeadWrite head) s = .next t ∧
        t.get MAC_TXQPTR.HEAD = head.toNat ∧
        t.get MAC_TXQPTR.TAIL = s.get MAC_TXQPTR.TAIL ∧
        t.mac = s.mac ∧
        t.mem = s.mem ∧
        RegsBut [Reg.MAC_TXQPTR] s t) ∧
  (∀ (s : State), Core Reg.MAC_TXQPTR s →
      s.macTx = true →
      s.tx.done = [] →
      s.mac.descs = [] →
      s.mac.wins = [] →
      s.mac.csma = [] →
      (s.put MAC_TXQPTR.HEAD 1).txqOn = true →
      (s.put MAC_TXQPTR.HEAD 1).ringIdx = [0] →
      s.dF 0 0 1 = 1 →
      takeTests 0 (s.put MAC_TXQPTR.HEAD 1) = some msBaddesc →
      ∃ t, exec (.txqHeadWrite 1) s = .next t ∧
        t.rb (s.descAt 0) = 2 ∧
        t.rn (s.descAt 0 + 16) 2 = msBaddesc ∧
        t.get MAC_TXQPTR.TAIL = 1 ∧
        t.on MAC_IRQ.TXDONE = true ∧
        t.mac.descs = [] ∧
        RegsBut [Reg.MAC_TXQPTR, Reg.MAC_IRQ] s t ∧
        Outside (s.descAt 0) 32 s t) ∧
  (∀ (desc : BitVec 8) (c : Csma) (s : State), s.macTx = true →
      MacQuiet s →
      s.mac.csma = [c] →
      c.idx = desc.toNat →
      c.deferred = false →
      c.spanEnd = none →
      (s.desc desc.toNat).map (·.active) = some false →
      s.heldDesc desc.toNat = false →
      (s.on MAC_CFG.DEFERRX && !c.deferDone && s.anyPayload) = false →
      s.ccaBusy c.lane = true →
      c.nb < s.maxBo →
      ∃ t, exec (.ccaAssess desc) s = .next t ∧
        t.mem = s.mem ∧
        t.free = s.free + 1 ∧
        t.regs = s.regs ∧
        (∃ k < 400, k < 2 ^ min (c.be + 1) s.maxBe ∧ t.mac.csma = [if c.link.isNone then s.boNext { c with nb := c.nb + 1, be := min (c.be + 1) s.maxBe, k := c.k + 1 + k } else { c with nb := c.nb + 1, be := min (c.be + 1) s.maxBe, k := c.k + 1 + k }])) ∧
  (∀ (desc : BitVec 8) (c : Csma) (d : MacDesc) (s : State), s.macTx = true →
      MacQuiet s →
      s.mac.csma = [c] →
      c.idx = desc.toNat →
      c.deferred = false →
      c.spanEnd = none →
      s.mac.descs = [d] →
      d.idx = desc.toNat →
      d.active = false →
      s.heldDesc desc.toNat = false →
      (s.on MAC_CFG.DEFERRX && !c.deferDone && s.anyPayload) = false →
      s.ccaBusy c.lane = true →
      s.maxBo ≤ c.nb →
      ∃ t, exec (.ccaAssess desc) s = .next t ∧
        t.mac.csma = [] ∧
        t.mac.descs = [] ∧
        t.rb (s.descAt desc.toNat) = 2 ∧
        t.rn (s.descAt desc.toNat + 16) 2 = msCafail + 256 * min 255 d.tries ∧
        t.rn (s.descAt desc.toNat + 20) 4 = d.counter % 2 ^ 32 ∧
        t.rn (s.descAt desc.toNat + 24) 8 = d.txTime % 2 ^ 64 ∧
        t.on MAC_IRQ.TXDONE = true ∧
        t.get (MAC_CNT.LO 5) = min (s.get (MAC_CNT.LO 5) + 1) 0xFFFF ∧
        RegsBut [Reg.MAC_TXQPTR, Reg.MAC_IRQ, Reg.MAC_CNT 5] s t ∧
        Outside (s.descAt desc.toNat) 32 s t) ∧
  (∀ (desc : BitVec 8) (c : Csma) (d : MacDesc) (s : State), s.macTx = true →
      MacQuiet s →
      s.mac.csma = [c] →
      c.idx = desc.toNat →
      c.deferred = false →
      s.mac.descs = [d] →
      d.idx = desc.toNat →
      d.active = false →
      s.heldDesc desc.toNat = false →
      (s.on MAC_CFG.DEFERRX && !c.deferDone && s.anyPayload) = false →
      s.boFits c = false →
      ∃ t, exec (.ccaAssess desc) s = .next t ∧
        t.mac.csma = [] ∧
        t.mac.descs = [{ d with loop := some c }] ∧
        t.mem = s.mem ∧
        t.regs = s.regs) ∧
  (∀ (desc : BitVec 8) (c : Csma) (d : MacDesc) (s : State), s.radioOn = true →
      MacQuiet s →
      s.mac.csma = [c] →
      c.idx = desc.toNat →
      s.mac.descs = [d] →
      d.idx = desc.toNat →
      d.active = false →
      s.macTx = false ∨ s.heldDesc desc.toNat = true →
      ∃ t, exec (.ccaAssess desc) s = .next t ∧
        t.mac.csma = [] ∧
        t.mac.descs = [{ d with loop := some c }] ∧
        t.mem = s.mem ∧
        t.regs = s.regs) ∧
  (∀ (desc : BitVec 8) (s : State), s.radioOn = true →
      MacQuiet s →
      (∀ c ∈ s.mac.csma, c.idx ≠ desc.toNat) →
      ∃ t, exec (.ccaAssess desc) s = .next t ∧
        t = s) ∧
  (∀ (desc : BitVec 8) (c : Csma) (s : State), s.macTx = true →
      MacQuiet s →
      s.mac.csma = [c] →
      c.idx = desc.toNat →
      (s.desc desc.toNat).map (·.active) = some false →
      s.heldDesc desc.toNat = false →
      (s.on MAC_CFG.DEFERRX && !c.deferDone && s.anyPayload) = true →
      ∃ t, exec (.ccaAssess desc) s = .next t ∧
        t.mac.csma = [{ c with deferred := true }] ∧
        t.mem = s.mem ∧
        t.regs = s.regs) ∧
  (∀ (desc : BitVec 8) (c : Csma) (s : State), s.macTx = true →
      MacQuiet s →
      s.mac.csma = [c] →
      c.idx = desc.toNat →
      c.deferred = true →
      s.boundary c - s.ccaLead c.lane ≤ (s.now : Int) →
      c.spanEnd = none →
      (s.desc desc.toNat).map (·.active) = some false →
      s.heldDesc desc.toNat = false →
      s.ccaBusy c.lane = true →
      c.nb < s.maxBo →
      ∃ t, exec (.deferExpiry desc) s = .next t ∧
        t.mem = s.mem ∧
        t.regs = s.regs ∧
        (∃ k < 400, k < 2 ^ min (c.be + 1) s.maxBe ∧ t.mac.csma = [let d := s.boNext { c with deferDone := true }; let e := { d with nb := d.nb + 1, be := min (d.be + 1) s.maxBe, k := d.k + 1 + k }; if c.link.isNone then s.boNext e else e])) ∧
  (∀ (desc : BitVec 8) (c : Csma) (s : State), s.radioOn = true →
      MacQuiet s →
      s.mac.csma = [c] →
      c.idx = desc.toNat →
      c.deferred = true →
      (s.now : Int) < s.boundary c - s.ccaLead c.lane →
      ∃ t, exec (.deferExpiry desc) s = .next t ∧
        t.mac.csma = [{ c with deferDone := true }] ∧
        t.mem = s.mem ∧
        t.regs = s.regs) ∧
  (∀ (desc : BitVec 8) (s : State), s.radioOn = true →
      MacQuiet s →
      (∀ c ∈ s.mac.csma, c.idx = desc.toNat → c.deferred = false) →
      ∃ t, exec (.deferExpiry desc) s = .next t ∧
        t = s)

/-- Receiving frames, windows, the parent and the Zephyr. MAC_RX_FRAME, RX_WINDOW_CLOSE, ACK_WAIT_CLOSE, PARENT_WRITE, ZEPHYR_MATCH, ZEPHYR_HANDOFF_TIMEOUT and ZEPHYR_SYNCONLY. Where a clause says so the MAC rests: its transmit ring is off and no ended request waits for it. (1) A frame kept with a failed check enters the queue as one record at WR: size, status, marks, length and octets, WR past it, RXQ set; memory outside the record and every other register stay. (2) A record that would cross the end of the queue is put at its start behind a PAD record that fills the rest. (3) One without room in the queue leaves memory and the MAC as they were. (4) A standby drops it. (5) One whose header cannot be read is counted; memory and every other register stay. (6) One to another part, SNOOP off, is counted NOTME; memory and every other register stay. (7) An unsecured frame to the part with ACCUNSEC clear is dropped and nothing else changes. (8) With the peer table's clock gated a frame to the part counts as one without peer and sets SECERR; memory and every other register stay. (9) With no frame waiting, or RADIO off, nothing changes. (10) RX_WINDOW_CLOSE of a beacon window with nothing heard and no packet pending in TRACK counts a miss; the third puts STATE to SEARCH and sets DOUBT; memory and every other register stay. (11) In SEARCH it counts a miss; at LOSTN, at least 4, STATE becomes LOST and LOST is set; memory and every other register stay. (12) The close of a beacon window that heard the parent only ends the window. (13) With no beacon window, or one with a packet pending, nothing changes. (14) ACK_WAIT_CLOSE of a descriptor with tries left ends the wait and puts it back; registers and memory stay. (15) With none left it ends NOACK: STATUS with its tries, COUNTER, TXTIME and STATE written, TXDONE and NOACK set; memory outside the descriptor stays. (16) ACK_WAIT_CLOSE of a descriptor that waits for none changes nothing. (17) PARENT_WRITE as the bus takes it with EN = 1 begins the search with MISS 0, with EN = 0 ends tracking; memory and every other register stay. (18) 64 chips whose first 32 differ from SYNC's in at most SYNCERR, at most 4, and whose last 32 spell an enabled address set MATCH, count, show the entry, and with RADIO powered open the handoff window of WIN ms. (19) With the handoff LANE no channel the window closes at once: ZTIMEOUT, NOLANE counted and flagged. (20) In sleep or deep sleep with SYSC_WAKEEN.ZEPH the wake begins, shown in SYSC_WAKESRC, and the window runs from the match. (21) With no enabled address spelt, SYNCONLY counts and nothing else changes. (22) With more errors, or the Zephyr not hearing, nothing changes. (23) ZEPHYR_HANDOFF_TIMEOUT with RADIO powered closes an open window and sets ZTIMEOUT; all else stays. (24) With no window, or RADIO off, nothing changes. (25) ZEPHYR_SYNCONLY while the Zephyr hears counts; all else stays. (26) While it does not, nothing changes. -/
def Obligations.MacReceive : Prop :=
  (∀ (f : RxFrame) (rest : List RxFrame) (next room : Nat) (s : State), s.radioOn = true →
      MacQuiet s →
      s.standby = false →
      s.demod.done = f :: rest →
      f.status ≠ stDone →
      f.psdu.length ≤ 2047 →
      s.rxqFits (recordSize (f.psdu.length - (if bitOf f.flags 3 then 2 else 4))) = true →
      s.rxqWr + recordSize (f.psdu.length - (if bitOf f.flags 3 then 2 else 4)) ≤ s.rxqSize →
      rxqPlace s.rxqSize (s.rxqWr, s.rxqRoom) (recordSize (f.psdu.length - (if bitOf f.flags 3 then 2 else 4))) = some (next, room) →
      ∃ t, exec (.macRxFrame) s = .next t ∧
        t.demod.done = rest ∧
        t.rn (4096 * s.get MAC_RXQBASE.ADDR + s.rxqWr) 2 = recordSize (f.psdu.length - (if bitOf f.flags 3 then 2 else 4)) ∧
        t.rb (4096 * s.get MAC_RXQBASE.ADDR + s.rxqWr + 3) = BitVec.ofNat 8 f.status ∧
        t.rn (4096 * s.get MAC_RXQBASE.ADDR + s.rxqWr + 4) 2 = f.marks ∧
        t.rn (4096 * s.get MAC_RXQBASE.ADDR + s.rxqWr + 6) 2 = f.psdu.length - (if bitOf f.flags 3 then 2 else 4) ∧
        t.bytes (4096 * s.get MAC_RXQBASE.ADDR + s.rxqWr + 48) (f.psdu.length - (if bitOf f.flags 3 then 2 else 4)) = f.psdu.take (f.psdu.length - (if bitOf f.flags 3 then 2 else 4)) ∧
        t.get MAC_RXQPTR.WR = next / 8 % 2 ^ 16 ∧
        t.on MAC_IRQ.RXQ = true ∧
        t.mac = s.mac ∧
        RegsBut [Reg.MAC_RXQPTR, Reg.MAC_IRQ] s t ∧
        (∀ b, b < 4096 * s.get MAC_RXQBASE.ADDR + s.rxqWr ∨ 4096 * s.get MAC_RXQBASE.ADDR + s.rxqWr + recordSize (f.psdu.length - (if bitOf f.flags 3 then 2 else 4)) ≤ b → t.rb b = s.rb b)) ∧
  (∀ (f : RxFrame) (rest : List RxFrame) (next room : Nat) (s : State), s.radioOn = true →
      MacQuiet s →
      s.standby = false →
      s.demod.done = f :: rest →
      f.status ≠ stDone →
      f.psdu.length ≤ 2047 →
      s.rxqFits (recordSize (f.psdu.length - (if bitOf f.flags 3 then 2 else 4))) = true →
      s.rxqWr < s.rxqSize →
      s.rxqSize < s.rxqWr + recordSize (f.psdu.length - (if bitOf f.flags 3 then 2 else 4)) →
      rxqPlace s.rxqSize (s.rxqWr, s.rxqRoom) (recordSize (f.psdu.length - (if bitOf f.flags 3 then 2 else 4))) = some (next, room) →
      ∃ t, exec (.macRxFrame) s = .next t ∧
        t.demod.done = rest ∧
        t.rn (4096 * s.get MAC_RXQBASE.ADDR + s.rxqWr) 2 = s.rxqSize - s.rxqWr ∧
        t.rb (4096 * s.get MAC_RXQBASE.ADDR + s.rxqWr + 2) = 2 ∧
        t.rn (4096 * s.get MAC_RXQBASE.ADDR) 2 = recordSize (f.psdu.length - (if bitOf f.flags 3 then 2 else 4)) ∧
        t.bytes (4096 * s.get MAC_RXQBASE.ADDR + 48) (f.psdu.length - (if bitOf f.flags 3 then 2 else 4)) = f.psdu.take (f.psdu.length - (if bitOf f.flags 3 then 2 else 4)) ∧
        t.get MAC_RXQPTR.WR = next / 8 % 2 ^ 16 ∧
        t.on MAC_IRQ.RXQ = true ∧
        RegsBut [Reg.MAC_RXQPTR, Reg.MAC_IRQ] s t) ∧
  (∀ (f : RxFrame) (rest : List RxFrame) (s : State), s.radioOn = true →
      MacQuiet s →
      s.standby = false →
      s.demod.done = f :: rest →
      f.status ≠ stDone →
      s.rxqFits (recordSize (f.psdu.length - (if bitOf f.flags 3 then 2 else 4))) = false →
      ∃ t, exec (.macRxFrame) s = .next t ∧
        t.demod.done = rest ∧
        t.mac = s.mac ∧
        t.mem = s.mem) ∧
  (∀ (f : RxFrame) (rest : List RxFrame) (s : State), s.radioOn = true →
      MacQuiet s →
      s.standby = true →
      s.demod.done = f :: rest →
      f.status ≠ stDone →
      ∃ t, exec (.macRxFrame) s = .next t ∧
        t = { s with demod := { s.demod with done := rest } }) ∧
  (∀ (f : RxFrame) (rest : List RxFrame) (s : State), s.radioOn = true →
      MacQuiet s →
      s.demod.done = f :: rest →
      f.status = stDone →
      parseMhr (f.psdu.take (f.psdu.length - (if bitOf f.flags 3 then 2 else 4))) = none →
      ∃ t, exec (.macRxFrame) s = .next t ∧
        t.demod.done = rest ∧
        t.get (MAC_CNT.HI 2) = min (s.get (MAC_CNT.HI 2) + 1) 0xFFFF ∧
        t.mac = s.mac ∧
        t.mem = s.mem ∧
        RegsBut [Reg.MAC_CNT 2] s t) ∧
  (∀ (f : RxFrame) (rest : List RxFrame) (s : State), s.radioOn = true →
      MacQuiet s →
      s.standby = false →
      s.demod.done = f :: rest →
      f.status = stDone →
      (parseMhr (f.psdu.take (f.psdu.length - (if bitOf f.flags 3 then 2 else 4)))).map s.forMe = some false →
      s.on MAC_CFG.SNOOP = false →
      ∃ t, exec (.macRxFrame) s = .next t ∧
        t.demod.done = rest ∧
        t.get (MAC_CNT.LO 2) = min (s.get (MAC_CNT.LO 2) + 1) 0xFFFF ∧
        t.mac = s.mac ∧
        t.mem = s.mem ∧
        RegsBut [Reg.MAC_CNT 2] s t) ∧
  (∀ (f : RxFrame) (rest : List RxFrame) (s : State), s.radioOn = true →
      MacQuiet s →
      s.standby = false →
      s.demod.done = f :: rest →
      f.status = stDone →
      (parseMhr (f.psdu.take (f.psdu.length - (if bitOf f.flags 3 then 2 else 4)))).map (fun m => s.forMe m && !m.sec) = some true →
      s.on SYSC_CLKGATE.TBL = true →
      s.on MAC_CFG.ACCUNSEC = false →
      ∃ t, exec (.macRxFrame) s = .next t ∧
        t = { s with demod := { s.demod with done := rest } }) ∧
  (∀ (f : RxFrame) (rest : List RxFrame) (s : State), s.radioOn = true →
      MacQuiet s →
      s.standby = false →
      s.demod.done = f :: rest →
      f.status = stDone →
      (parseMhr (f.psdu.take (f.psdu.length - (if bitOf f.flags 3 then 2 else 4)))).map s.forMe = some true →
      s.on SYSC_CLKGATE.TBL = false →
      ∃ t, exec (.macRxFrame) s = .next t ∧
        t.demod.done = rest ∧
        t.get (MAC_CNT.LO 1) = min (s.get (MAC_CNT.LO 1) + 1) 0xFFFF ∧
        t.on MAC_IRQ.SECERR = true ∧
        t.mac = s.mac ∧
        t.mem = s.mem ∧
        RegsBut [Reg.MAC_CNT 1, Reg.MAC_IRQ] s t) ∧
  (∀ (s : State), s.demod.done = [] ∨ s.radioOn = false →
      ∃ t, exec (.macRxFrame) s = .next t ∧
        t = s) ∧
  (∀ (w : RxWin) (s : State), s.radioOn = true →
      MacQuiet s →
      s.mac.wins = [w] →
      w.kind = .beacon →
      w.got = false →
      s.winPending w = false →
      s.get MAC_BSTAT.STATE = bsTrack →
      ∃ t, exec (.rxWindowClose) s = .next t ∧
        t.mac.wins = [] ∧
        t.get MAC_BSTAT.MISS = min 255 (s.get MAC_BSTAT.MISS + 1) ∧
        (t.get MAC_BSTAT.STATE = if 2 ≤ s.get MAC_BSTAT.MISS then bsSearch else bsTrack) ∧
        t.on MAC_IRQ.DOUBT = (decide (2 ≤ s.get MAC_BSTAT.MISS) || s.on MAC_IRQ.DOUBT) ∧
        t.mem = s.mem ∧
        RegsBut [Reg.MAC_BSTAT, Reg.MAC_IRQ] s t) ∧
  (∀ (w : RxWin) (s : State), s.radioOn = true →
      MacQuiet s →
      s.mac.wins = [w] →
      s.mac.descs = [] →
      w.kind = .beacon →
      w.got = false →
      s.winPending w = false →
      s.get MAC_BSTAT.STATE = bsSearch →
      ∃ t, exec (.rxWindowClose) s = .next t ∧
        t.mac.wins = [] ∧
        t.get MAC_BSTAT.MISS = min 255 (s.get MAC_BSTAT.MISS + 1) ∧
        (t.get MAC_BSTAT.STATE = if max 4 (s.get MAC_BCNTRK.LOSTN) ≤ min 255 (s.get MAC_BSTAT.MISS + 1) then bsLost else bsSearch) ∧
        t.on MAC_IRQ.LOST = (decide (max 4 (s.get MAC_BCNTRK.LOSTN) ≤ min 255 (s.get MAC_BSTAT.MISS + 1)) || s.on MAC_IRQ.LOST) ∧
        t.mem = s.mem ∧
        RegsBut [Reg.MAC_BSTAT, Reg.MAC_IRQ] s t) ∧
  (∀ (w : RxWin) (s : State), s.radioOn = true →
      MacQuiet s →
      s.mac.wins = [w] →
      w.kind = .beacon →
      w.got = true →
      s.winPending w = false →
      ∃ t, exec (.rxWindowClose) s = .next t ∧
        t.mac.wins = [] ∧
        t.mem = s.mem ∧
        t.regs = s.regs) ∧
  (∀ (w : RxWin) (s : State), s.radioOn = true →
      MacQuiet s →
      s.mac.wins = [w] →
      w.kind ≠ .beacon ∨ s.winPending w = true →
      ∃ t, exec (.rxWindowClose) s = .next t ∧
        t = s) ∧
  (∀ (desc : BitVec 8) (w : RxWin) (d : MacDesc) (s : State), s.radioOn = true →
      MacQuiet s →
      s.mac.wins = [w] →
      w.kind = .ackWait desc.toNat →
      s.winPending w = false →
      s.mac.descs = [d] →
      d.idx = desc.toNat →
      d.tries ≤ s.retries desc.toNat →
      (s.toParent desc.toNat && s.get MAC_BSTAT.STATE == bsLost) = false →
      ∃ t, exec (.ackWaitClose desc) s = .next t ∧
        t.mac.wins = [] ∧
        t.mac.descs = [{ d with active := false }] ∧
        t.mem = s.mem ∧
        t.regs = s.regs) ∧
  (∀ (desc : BitVec 8) (w : RxWin) (d : MacDesc) (s : State), s.radioOn = true →
      MacQuiet s →
      s.mac.wins = [w] →
      w.kind = .ackWait desc.toNat →
      s.winPending w = false →
      s.mac.descs = [d] →
      d.idx = desc.toNat →
      s.retries desc.toNat < d.tries →
      ∃ t, exec (.ackWaitClose desc) s = .next t ∧
        t.mac.wins = [] ∧
        t.mac.descs = [] ∧
        t.rb (s.descAt desc.toNat) = 2 ∧
        t.rn (s.descAt desc.toNat + 16) 2 = msNoack + 256 * min 255 d.tries ∧
        t.rn (s.descAt desc.toNat + 20) 4 = d.counter % 2 ^ 32 ∧
        t.rn (s.descAt desc.toNat + 24) 8 = d.txTime % 2 ^ 64 ∧
        t.on MAC_IRQ.TXDONE = true ∧
        t.on MAC_IRQ.NOACK = true ∧
        RegsBut [Reg.MAC_TXQPTR, Reg.MAC_IRQ] s t ∧
        Outside (s.descAt desc.toNat) 32 s t) ∧
  (∀ (desc : BitVec 8) (s : State), s.radioOn = true →
      MacQuiet s →
      (∀ w ∈ s.mac.wins, w.kind ≠ .ackWait desc.toNat) →
      ∃ t, exec (.ackWaitClose desc) s = .next t ∧
        t = s) ∧
  (∀ (d : Word) (s : State), Core Reg.MAC_PARENT s →
      MacQuiet s →
      ∃ t, exec (.parentWrite d) s = .next t ∧
        t.get MAC_BSTAT.STATE = (if MAC_PARENT.EN.of d = 1 then bsSearch else bsNone) ∧
        t.get MAC_BSTAT.MISS = (if MAC_PARENT.EN.of d = 1 then 0 else s.get MAC_BSTAT.MISS) ∧
        t.get MAC_PARENT.ENTRY = MAC_PARENT.ENTRY.of d ∧
        t.get MAC_PARENT.EN = MAC_PARENT.EN.of d ∧
        t.mac = s.mac ∧
        t.mem = s.mem ∧
        RegsBut [Reg.MAC_BSTAT, Reg.MAC_PARENT] s t) ∧
  (∀ (chips : BitVec 64) (i : Fin 8) (s : State), s.zephHears = true →
      syncErrors (((List.range 64).map (fun k => chips.getLsbD (63 - k))).take 32) (s.get ZEPH_CTRL.SYNC) ≤ min 4 (s.get ZEPH_CTRL.SYNCERR) →
      s.zephEntry (((List.range 64).map (fun k => chips.getLsbD (63 - k))).drop 32) = some i →
      s.power.st = .run ∨ s.power.st = .idle →
      s.radioOn = true →
      s.planChan (s.get ZEPH_HAND.LANE) = true →
      ∃ t, exec (.zephyrMatch chips) s = .next t ∧
        t.on ZEPH_IRQ.MATCH = true ∧
        t.get ZEPH_STAT.LASTIDX = i.val ∧
        t.get ZEPH_STAT.MATCH = min (s.get ZEPH_STAT.MATCH + 1) 0xFFFF ∧
        t.mac.hand = some (s.now + us (1000 * max 1 (min 1000 (s.get ZEPH_HAND.WIN)))) ∧
        t.power = s.power ∧
        t.mem = s.mem ∧
        RegsBut [Reg.ZEPH_IRQ, Reg.ZEPH_STAT] s t) ∧
  (∀ (chips : BitVec 64) (i : Fin 8) (s : State), s.zephHears = true →
      syncErrors (((List.range 64).map (fun k => chips.getLsbD (63 - k))).take 32) (s.get ZEPH_CTRL.SYNC) ≤ min 4 (s.get ZEPH_CTRL.SYNCERR) →
      s.zephEntry (((List.range 64).map (fun k => chips.getLsbD (63 - k))).drop 32) = some i →
      s.power.st = .run ∨ s.power.st = .idle →
      s.radioOn = true →
      s.planChan (s.get ZEPH_HAND.LANE) = false →
      ∃ t, exec (.zephyrMatch chips) s = .next t ∧
        t.on ZEPH_IRQ.MATCH = true ∧
        t.mac.hand = none ∧
        t.get (MAC_CNT.LO 3) = min (s.get (MAC_CNT.LO 3) + 1) 0xFFFF ∧
        t.on MAC_IRQ.NOLANE = true ∧
        t.on MAC_IRQ.ZTIMEOUT = true ∧
        t.power = s.power ∧
        t.mem = s.mem ∧
        RegsBut [Reg.ZEPH_IRQ, Reg.ZEPH_STAT, Reg.MAC_IRQ, Reg.MAC_CNT 3] s t) ∧
  (∀ (chips : BitVec 64) (i : Fin 8) (s : State), s.zephHears = true →
      syncErrors (((List.range 64).map (fun k => chips.getLsbD (63 - k))).take 32) (s.get ZEPH_CTRL.SYNC) ≤ min 4 (s.get ZEPH_CTRL.SYNCERR) →
      s.zephEntry (((List.range 64).map (fun k => chips.getLsbD (63 - k))).drop 32) = some i →
      s.power.st = .sleep ∨ s.power.st = .deepSleep →
      s.radioOn = false →
      s.wakeEnabled .zeph = true →
      ∃ t, exec (.zephyrMatch chips) s = .next t ∧
        t.on ZEPH_IRQ.MATCH = true ∧
        t.get ZEPH_STAT.MATCH = min (s.get ZEPH_STAT.MATCH + 1) 0xFFFF ∧
        t.power.st = (if s.power.st = .sleep then .waking .sleep else .waking .deepSleep) ∧
        t.power.zephWake = true ∧
        bitOf (t.get ⟨Reg.SYSC_WAKESRC, 0, 32⟩) 6 = true ∧
        t.mac.hand = some (s.now + us (1000 * max 1 (min 1000 (s.get ZEPH_HAND.WIN)))) ∧
        t.mem = s.mem ∧
        RegsBut [Reg.ZEPH_IRQ, Reg.ZEPH_STAT, Reg.SYSC_WAKESRC, Reg.SYSC_LPSTAT] s t) ∧
  (∀ (chips : BitVec 64) (s : State), s.zephHears = true →
      syncErrors (((List.range 64).map (fun k => chips.getLsbD (63 - k))).take 32) (s.get ZEPH_CTRL.SYNC) ≤ min 4 (s.get ZEPH_CTRL.SYNCERR) →
      s.zephEntry (((List.range 64).map (fun k => chips.getLsbD (63 - k))).drop 32) = none →
      ∃ t, exec (.zephyrMatch chips) s = .next t ∧
        t.get ZEPH_STAT.SYNCONLY = min (s.get ZEPH_STAT.SYNCONLY + 1) 0xFF ∧
        t.mac = s.mac ∧
        t.mem = s.mem ∧
        RegsBut [Reg.ZEPH_STAT] s t) ∧
  (∀ (chips : BitVec 64) (s : State), s.zephHears = false ∨ min 4 (s.get ZEPH_CTRL.SYNCERR) < syncErrors (((List.range 64).map (fun k => chips.getLsbD (63 - k))).take 32) (s.get ZEPH_CTRL.SYNC) →
      ∃ t, exec (.zephyrMatch chips) s = .next t ∧
        t = s) ∧
  (∀ (s : State), s.radioOn = true →
      s.mac.hand.isSome = true →
      ∃ t, exec (.zephyrHandoffTimeout) s = .next t ∧
        t.mac = { s.mac with hand := none } ∧
        t.on MAC_IRQ.ZTIMEOUT = true ∧
        t.mem = s.mem ∧
        RegsBut [Reg.MAC_IRQ] s t) ∧
  (∀ (s : State), s.radioOn = false ∨ s.mac.hand = none →
      ∃ t, exec (.zephyrHandoffTimeout) s = .next t ∧
        t = s) ∧
  (∀ (s : State), s.zephHears = true →
      ∃ t, exec (.zephyrSynconly) s = .next t ∧
        t.get ZEPH_STAT.SYNCONLY = min (s.get ZEPH_STAT.SYNCONLY + 1) 0xFF ∧
        t.mac = s.mac ∧
        t.mem = s.mem ∧
        RegsBut [Reg.ZEPH_STAT] s t) ∧
  (∀ (s : State), s.zephHears = false →
      ∃ t, exec (.zephyrSynconly) s = .next t ∧
        t = s)

/-- Descriptors of the security engine. ECB_ENCRYPT, ECB_DECRYPT, CCM_ENCRYPT, CCM_DECRYPT_VERIFY, CMAC_COMMAND, KEY_LOAD and KEY_ERASE run the descriptor at TAIL. To end is to write STATUS, move TAIL on and set CMDDONE. Unless a clause says otherwise the engine is clocked, its ring is on and holds the command's descriptor in control SRAM, and no alarm is latched; what the engine writes lies clear of the descriptor. (1) ECB_ENCRYPT of whole blocks within the engine's windows, with a key for general use, whose bytes the bus gives, writes their encryption and ends OK; other memory and the engine's state stay, and with the text in control SRAM every register but SEC_CMDPTR and SEC_IRQ. (2) ECB_DECRYPT likewise writes their decryption. (3) CCM_ENCRYPT, with output and MIC clear of each other, writes the CCM* ciphertext and MIC of the text under nonce and associated data and ends OK; other memory and the engine's state stay. (4) CCM_DECRYPT_VERIFY writes the text and ends OK when the MIC fits, else writes zeros and ends AUTH; other memory and the engine's state stay. (5) CMAC_COMMAND, with a key for general use or CMAC, writes the first MICLEN bytes of the CMAC and ends OK; other memory and the engine's state stay. (6) ECB of a part block ends BADDESC and writes only STATUS. (7) CCM* or CMAC with a MICLEN other than 0, 4, 8 or 16 ends BADDESC and writes only STATUS. (8) A cipher or CMAC command whose source leaves the engine's windows ends BADDESC and writes only STATUS. (9) ECB with well-formed ranges and no usable key ends with the key test's status (log entry 22 for the order of the tests) and writes only STATUS. (10) CCM* likewise. (11) KEY_LOAD of a blob that fails a test ends with that test's status and leaves the slots and memory but STATUS. (12) KEY_LOAD of a blob that passes fills the slot: valid, KEYID, EPOCH, USE and the unwrapped key; the other slots stay. (13) KEY_LOAD of more than 64 bytes with wrapping keys present ends BADDESC. (14) KEY_ERASE of a slot below 32 empties it and its counter and ends OK; the other slots and counters stay. (15) Of a slot beyond 31 it ends BADDESC and writes only STATUS. (16) A descriptor of undefined OP ends BADDESC whichever command takes it up. (17) A command whose OP is not the descriptor's changes nothing. (18) With the engine gated, the ring off or empty nothing changes. (19) A descriptor outside control SRAM ends without STATUS (log entry 43); memory and the engine's state stay. (20) While the alarm is latched every descriptor ends ALARM and writes only STATUS. (21) ECB whose read the bus faults ends BUS, with the fault recorded, and writes only STATUS. (22) While memory keeps the engine waiting for its text nothing has happened. -/
def Obligations.SecurityCommands : Prop :=
  (∀ (key text : List Byte) (s : State), SecHead 0x01 s →
      s.secField 12 4 % 16 = 0 →
      secRange (s.secField 4 4) (s.secField 12 4) false = true →
      secRange (s.secField 8 4) (s.secField 12 4) true = true →
      s.secKey (s.secField 1 1) 0x10 = .inr key →
      secGot [(s.secField 4 4, s.secField 12 4)] s = some [text] →
      SecClear (s.secField 8 4) (s.secField 12 4) s →
      ∃ t, exec (.ecbEncrypt) s = .next t ∧
        SecDone secOk s t ∧
        t.bytes (s.secField 8 4) (s.secField 12 4) = ecbEnc key text ∧
        t.sec = s.sec ∧
        (∀ b, b ≠ s.secDesc + 3 → b < s.secField 8 4 ∨ s.secField 8 4 + s.secField 12 4 ≤ b → t.rb b = s.rb b) ∧
        (inSram (s.secField 4 4) (s.secField 12 4) = true → RegsBut [Reg.SEC_CMDPTR, Reg.SEC_IRQ] s t)) ∧
  (∀ (key text : List Byte) (s : State), SecHead 0x02 s →
      s.secField 12 4 % 16 = 0 →
      secRange (s.secField 4 4) (s.secField 12 4) false = true →
      secRange (s.secField 8 4) (s.secField 12 4) true = true →
      s.secKey (s.secField 1 1) 0x10 = .inr key →
      secGot [(s.secField 4 4, s.secField 12 4)] s = some [text] →
      SecClear (s.secField 8 4) (s.secField 12 4) s →
      ∃ t, exec (.ecbDecrypt) s = .next t ∧
        SecDone secOk s t ∧
        t.bytes (s.secField 8 4) (s.secField 12 4) = ecbDec key text ∧
        t.sec = s.sec ∧
        (∀ b, b ≠ s.secDesc + 3 → b < s.secField 8 4 ∨ s.secField 8 4 + s.secField 12 4 ≤ b → t.rb b = s.rb b) ∧
        (inSram (s.secField 4 4) (s.secField 12 4) = true → RegsBut [Reg.SEC_CMDPTR, Reg.SEC_IRQ] s t)) ∧
  (∀ (key n a d : List Byte) (s : State), SecHead 0x03 s →
      micLenOk (s.secField 2 1) = true →
      s.secField 12 4 < 65536 →
      secRange (s.secField 4 4) (s.secField 12 4) false = true →
      secRange (s.secField 8 4) (s.secField 12 4) true = true →
      secRange (s.secField 16 4) (s.secField 20 2) false = true →
      secRange (s.secField 24 4) 13 false = true →
      secRange (s.secField 28 4) (s.secField 2 1) true = true →
      s.secKey (s.secField 1 1) 0x10 = .inr key →
      secGot [(s.secField 24 4, 13), (s.secField 16 4, s.secField 20 2), (s.secField 4 4, s.secField 12 4)] s = some [n, a, d] →
      SecClear (s.secField 8 4) (s.secField 12 4) s →
      SecClear (s.secField 28 4) (s.secField 2 1) s →
      s.secField 8 4 + s.secField 12 4 ≤ s.secField 28 4 ∨ s.secField 28 4 + s.secField 2 1 ≤ s.secField 8 4 →
      ∃ t, exec (.ccmEncrypt) s = .next t ∧
        SecDone secOk s t ∧
        t.bytes (s.secField 8 4) (s.secField 12 4) = ccmCrypt key n d ∧
        t.bytes (s.secField 28 4) (s.secField 2 1) = ccmMic key n a d (s.secField 2 1) ∧
        t.sec = s.sec ∧
        (∀ b, b ≠ s.secDesc + 3 → b < s.secField 8 4 ∨ s.secField 8 4 + s.secField 12 4 ≤ b → b < s.secField 28 4 ∨ s.secField 28 4 + s.secField 2 1 ≤ b → t.rb b = s.rb b)) ∧
  (∀ (key n a d mic : List Byte) (s : State), SecHead 0x04 s →
      micLenOk (s.secField 2 1) = true →
      s.secField 12 4 < 65536 →
      secRange (s.secField 4 4) (s.secField 12 4) false = true →
      secRange (s.secField 8 4) (s.secField 12 4) true = true →
      secRange (s.secField 16 4) (s.secField 20 2) false = true →
      secRange (s.secField 24 4) 13 false = true →
      secRange (s.secField 28 4) (s.secField 2 1) false = true →
      s.secKey (s.secField 1 1) 0x10 = .inr key →
      secGot [(s.secField 24 4, 13), (s.secField 16 4, s.secField 20 2), (s.secField 4 4, s.secField 12 4), (s.secField 28 4, s.secField 2 1)] s = some [n, a, d, mic] →
      SecClear (s.secField 8 4) (s.secField 12 4) s →
      ∃ t, exec (.ccmDecryptVerify) s = .next t ∧
        (let c := ccmCrypt key n d; let ok := decide (ccmMic key n a c (s.secField 2 1) = mic); SecDone (if ok then secOk else secAuth) s t ∧ t.bytes (s.secField 8 4) (s.secField 12 4) = if ok then c else List.replicate (s.secField 12 4) 0) ∧
        t.sec = s.sec ∧
        (∀ b, b ≠ s.secDesc + 3 → b < s.secField 8 4 ∨ s.secField 8 4 + s.secField 12 4 ≤ b → t.rb b = s.rb b)) ∧
  (∀ (key d : List Byte) (s : State), SecHead 0x05 s →
      micLenOk (s.secField 2 1) = true →
      secRange (s.secField 4 4) (s.secField 12 4) false = true →
      secRange (s.secField 28 4) (s.secField 2 1) true = true →
      s.secKey (s.secField 1 1) 0x18 = .inr key →
      secGot [(s.secField 4 4, s.secField 12 4)] s = some [d] →
      SecClear (s.secField 28 4) (s.secField 2 1) s →
      ∃ t, exec (.cmacCommand) s = .next t ∧
        SecDone secOk s t ∧
        t.bytes (s.secField 28 4) (s.secField 2 1) = (cmac key d).take (s.secField 2 1) ∧
        t.sec = s.sec ∧
        (∀ b, b ≠ s.secDesc + 3 → b < s.secField 28 4 ∨ s.secField 28 4 + s.secField 2 1 ≤ b → t.rb b = s.rb b) ∧
        (inSram (s.secField 4 4) (s.secField 12 4) = true → RegsBut [Reg.SEC_CMDPTR, Reg.SEC_IRQ] s t)) ∧
  (∀ (c : Instr) (op : Nat) (s : State), (c, op) ∈ [(Instr.ecbEncrypt, 0x01), (.ecbDecrypt, 0x02)] →
      SecHead op s →
      s.secField 12 4 % 16 ≠ 0 →
      ∃ t, exec (c) s = .next t ∧
        SecDone secBaddesc s t ∧
        t.sec = s.sec ∧
        RegsBut [Reg.SEC_CMDPTR, Reg.SEC_IRQ] s t ∧
        (∀ b, b ≠ s.secDesc + 3 → t.rb b = s.rb b)) ∧
  (∀ (c : Instr) (op : Nat) (s : State), (c, op) ∈ [(Instr.ccmEncrypt, 0x03), (.ccmDecryptVerify, 0x04), (.cmacCommand, 0x05)] →
      SecHead op s →
      micLenOk (s.secField 2 1) = false →
      ∃ t, exec (c) s = .next t ∧
        SecDone secBaddesc s t ∧
        t.sec = s.sec ∧
        RegsBut [Reg.SEC_CMDPTR, Reg.SEC_IRQ] s t ∧
        (∀ b, b ≠ s.secDesc + 3 → t.rb b = s.rb b)) ∧
  (∀ (c : Instr) (op : Nat) (s : State), (c, op) ∈ [(Instr.ecbEncrypt, 0x01), (.ecbDecrypt, 0x02), (.ccmEncrypt, 0x03), (.ccmDecryptVerify, 0x04), (.cmacCommand, 0x05)] →
      SecHead op s →
      secRange (s.secField 4 4) (s.secField 12 4) false = false →
      ∃ t, exec (c) s = .next t ∧
        SecDone secBaddesc s t ∧
        t.sec = s.sec ∧
        RegsBut [Reg.SEC_CMDPTR, Reg.SEC_IRQ] s t ∧
        (∀ b, b ≠ s.secDesc + 3 → t.rb b = s.rb b)) ∧
  (∀ (c : Instr) (op st : Nat) (s : State), (c, op) ∈ [(Instr.ecbEncrypt, 0x01), (.ecbDecrypt, 0x02)] →
      SecHead op s →
      s.secField 12 4 % 16 = 0 →
      secRange (s.secField 4 4) (s.secField 12 4) false = true →
      secRange (s.secField 8 4) (s.secField 12 4) true = true →
      s.secKey (s.secField 1 1) 0x10 = .inl st →
      ∃ t, exec (c) s = .next t ∧
        SecDone st s t ∧
        t.sec = s.sec ∧
        RegsBut [Reg.SEC_CMDPTR, Reg.SEC_IRQ] s t ∧
        (∀ b, b ≠ s.secDesc + 3 → t.rb b = s.rb b)) ∧
  (∀ (c : Instr) (op st : Nat) (s : State), (c, op) ∈ [(Instr.ccmEncrypt, 0x03), (.ccmDecryptVerify, 0x04)] →
      SecHead op s →
      micLenOk (s.secField 2 1) = true →
      s.secField 12 4 < 65536 →
      secRange (s.secField 4 4) (s.secField 12 4) false = true →
      secRange (s.secField 8 4) (s.secField 12 4) true = true →
      secRange (s.secField 16 4) (s.secField 20 2) false = true →
      secRange (s.secField 24 4) 13 false = true →
      secRange (s.secField 28 4) (s.secField 2 1) (decide (op = 0x03)) = true →
      s.secKey (s.secField 1 1) 0x10 = .inl st →
      ∃ t, exec (c) s = .next t ∧
        SecDone st s t ∧
        t.sec = s.sec ∧
        RegsBut [Reg.SEC_CMDPTR, Reg.SEC_IRQ] s t ∧
        (∀ b, b ≠ s.secDesc + 3 → t.rb b = s.rb b)) ∧
  (∀ (st : Nat) (blob : List Byte) (s : State), SecHead 0x10 s →
      s.secField 12 4 ≤ 64 →
      secRange (s.secField 4 4) (s.secField 12 4) false = true →
      secGot [(s.secField 4 4, s.secField 12 4)] s = some [blob] →
      loadTests (s.secField 1 1) blob s = st →
      st ≠ secOk →
      ∃ t, exec (.keyLoad) s = .next t ∧
        SecDone st s t ∧
        t.sec = s.sec ∧
        (∀ b, b ≠ s.secDesc + 3 → t.rb b = s.rb b)) ∧
  (∀ (blob : List Byte) (s : State), SecHead 0x10 s →
      s.secField 12 4 ≤ 64 →
      secRange (s.secField 4 4) (s.secField 12 4) false = true →
      secGot [(s.secField 4 4, s.secField 12 4)] s = some [blob] →
      loadTests (s.secField 1 1) blob s = secOk →
      ∃ t, exec (.keyLoad) s = .next t ∧
        SecDone secOk s t ∧
        (t.slot (s.secField 1 1)).valid = true ∧
        (t.slot (s.secField 1 1)).keyId = (blob.getD 4 0).toNat ∧
        (t.slot (s.secField 1 1)).epoch = leNat ((blob.drop 8).take 4) ∧
        (t.slot (s.secField 1 1)).use = BitVec.ofNat 5 (blob.getD 3 0).toNat ∧
        (t.slot (s.secField 1 1)).key = ecbDec (s.wrapKey 0) ((blob.drop 16).take (blob.length - 32)) ∧
        (∀ n, n ≠ s.secField 1 1 → t.slot n = s.slot n)) ∧
  (∀ (s : State), SecHead 0x10 s →
      64 < s.secField 12 4 →
      s.wkeys = true →
      ∃ t, exec (.keyLoad) s = .next t ∧
        SecDone secBaddesc s t ∧
        t.sec = s.sec ∧
        RegsBut [Reg.SEC_CMDPTR, Reg.SEC_IRQ] s t ∧
        (∀ b, b ≠ s.secDesc + 3 → t.rb b = s.rb b)) ∧
  (∀ (s : State), SecHead 0x11 s →
      s.secField 1 1 < 32 →
      ∃ t, exec (.keyErase) s = .next t ∧
        SecDone secOk s t ∧
        t.slot (s.secField 1 1) = {} ∧
        t.counter (s.secField 1 1) = {} ∧
        (∀ n, n ≠ s.secField 1 1 → t.slot n = s.slot n) ∧
        (∀ n, n ≠ s.secField 1 1 → t.counter n = s.counter n)) ∧
  (∀ (s : State), SecHead 0x11 s →
      32 ≤ s.secField 1 1 →
      ∃ t, exec (.keyErase) s = .next t ∧
        SecDone secBaddesc s t ∧
        t.sec = s.sec ∧
        RegsBut [Reg.SEC_CMDPTR, Reg.SEC_IRQ] s t ∧
        (∀ b, b ≠ s.secDesc + 3 → t.rb b = s.rb b)) ∧
  (∀ (c : Instr) (s : State), c ∈ ([.ecbEncrypt, .ecbDecrypt, .ccmEncrypt, .ccmDecryptVerify, .cmacCommand, .keyLoad, .keyErase] : List Instr) →
      s.secClocked = true →
      s.on SEC_CMDBASE.EN = true →
      s.get SEC_CMDPTR.HEAD ≠ s.get SEC_CMDPTR.TAIL →
      inSram s.secDesc 32 = true →
      s.secField 0 1 ∉ [1, 2, 3, 4, 5, 0x10, 0x11] →
      ∃ t, exec (c) s = .next t ∧
        SecDone secBaddesc s t ∧
        t.sec = s.sec ∧
        RegsBut [Reg.SEC_CMDPTR, Reg.SEC_IRQ] s t ∧
        (∀ b, b ≠ s.secDesc + 3 → t.rb b = s.rb b)) ∧
  (∀ (c : Instr) (op : Nat) (s : State), (c, op) ∈ ([(.ecbEncrypt, 0x01), (.ecbDecrypt, 0x02), (.ccmEncrypt, 0x03), (.ccmDecryptVerify, 0x04), (.cmacCommand, 0x05), (.keyLoad, 0x10), (.keyErase, 0x11)] : List (Instr × Nat)) →
      inSram s.secDesc 32 = true →
      s.secField 0 1 ∈ [1, 2, 3, 4, 5, 0x10, 0x11] →
      s.secField 0 1 ≠ op →
      ∃ t, exec (c) s = .next t ∧
        t = s) ∧
  (∀ (c : Instr) (s : State), c ∈ ([.ecbEncrypt, .ecbDecrypt, .ccmEncrypt, .ccmDecryptVerify, .cmacCommand, .keyLoad, .keyErase] : List Instr) →
      s.secClocked = false ∨ s.on SEC_CMDBASE.EN = false ∨ s.get SEC_CMDPTR.HEAD = s.get SEC_CMDPTR.TAIL →
      ∃ t, exec (c) s = .next t ∧
        t = s) ∧
  (∀ (c : Instr) (s : State), c ∈ ([.ecbEncrypt, .ecbDecrypt, .ccmEncrypt, .ccmDecryptVerify, .cmacCommand, .keyLoad, .keyErase] : List Instr) →
      s.secClocked = true →
      s.on SEC_CMDBASE.EN = true →
      s.get SEC_CMDPTR.HEAD ≠ s.get SEC_CMDPTR.TAIL →
      inSram s.secDesc 32 = false →
      ∃ t, exec (c) s = .next t ∧
        t.get SEC_CMDPTR.TAIL = (s.get SEC_CMDPTR.TAIL + 1) % 16 ∧
        t.on SEC_IRQ.CMDDONE = true ∧
        t.sec = s.sec ∧
        t.mem = s.mem) ∧
  (∀ (c : Instr) (op : Nat) (s : State), (c, op) ∈ ([(.ecbEncrypt, 0x01), (.ecbDecrypt, 0x02), (.ccmEncrypt, 0x03), (.ccmDecryptVerify, 0x04), (.cmacCommand, 0x05), (.keyLoad, 0x10), (.keyErase, 0x11)] : List (Instr × Nat)) →
      s.secClocked = true →
      s.on SEC_CMDBASE.EN = true →
      s.get SEC_CMDPTR.HEAD ≠ s.get SEC_CMDPTR.TAIL →
      inSram s.secDesc 32 = true →
      s.secField 0 1 = op →
      s.on SEC_ALMSTAT.LATCHED = true →
      ∃ t, exec (c) s = .next t ∧
        SecDone secAlarm s t ∧
        t.sec = s.sec ∧
        RegsBut [Reg.SEC_CMDPTR, Reg.SEC_IRQ] s t ∧
        (∀ b, b ≠ s.secDesc + 3 → t.rb b = s.rb b)) ∧
  (∀ (c : Instr) (op : Nat) (key : List Byte) (s : State), (c, op) ∈ [(Instr.ecbEncrypt, 0x01), (.ecbDecrypt, 0x02)] →
      SecHead op s →
      s.secField 12 4 % 16 = 0 →
      secRange (s.secField 4 4) (s.secField 12 4) false = true →
      secRange (s.secField 8 4) (s.secField 12 4) true = true →
      s.secKey (s.secField 1 1) 0x10 = .inr key →
      (dmaRead .secDma (s.secField 4 4) (s.secField 12 4) s).2 = .fault →
      ∃ t, exec (c) s = .next t ∧
        SecDone secBus s t ∧
        t.sec = s.sec ∧
        t.on BUS_FINFO.VALID = true ∧
        (∀ b, b ≠ s.secDesc + 3 → t.rb b = s.rb b)) ∧
  (∀ (c : Instr) (op : Nat) (key : List Byte) (s : State), (c, op) ∈ [(Instr.ecbEncrypt, 0x01), (.ecbDecrypt, 0x02)] →
      SecHead op s →
      s.secField 12 4 % 16 = 0 →
      secRange (s.secField 4 4) (s.secField 12 4) false = true →
      secRange (s.secField 8 4) (s.secField 12 4) true = true →
      s.secKey (s.secField 1 1) 0x10 = .inr key →
      (dmaRead .secDma (s.secField 4 4) (s.secField 12 4) s).2 = .wait →
      ∃ t, exec (c) s = .next t ∧
        t = s)

/-- The modular unit. MONTGOMERY_MULTIPLY, MODULAR_ADD, MODULAR_SUBTRACT and BN_DONE; writes of SEC_BNCMD as the bus takes them. N is operand 7. GO, OP, DST, SRCB and SRCA show the operation; operands, memory and every other register stay until its end. (1) With N odd and operands below it the product's result is the r below N with r · 2^256 congruent to their product modulo N. (2) With operands below N the sum's result is their sum modulo N. (3) The difference's result is the r below N with r + B congruent to A modulo N. (4) With an operand not below N the operation runs and its result is a free value (the spec states none). (5) So it does for the product with N even. (6) A write while GO is set changes nothing. (7) BN_DONE of a clocked engine writes the result to its destination, clears GO and sets BNDONE; all else stays. (8) With nothing running, or the engine gated, it changes nothing. -/
def Obligations.ModularUnit : Prop :=
  (∀ (d b a : BitVec 3) (s : State), Core Reg.SEC_BNCMD s →
      s.on SEC_BNCMD.GO = false →
      bnOp s 7 % 2 = 1 →
      bnOp s a < bnOp s 7 →
      bnOp s b < bnOp s 7 →
      ∃ t, exec (.montgomeryMultiply d b a) s = .next t ∧
        t.on SEC_BNCMD.GO = true ∧
        t.get SEC_BNCMD.OP = 0 ∧
        t.get SEC_BNCMD.DST = d.toNat ∧
        t.get SEC_BNCMD.SRCB = b.toNat ∧
        t.get SEC_BNCMD.SRCA = a.toNat ∧
        t.sec.bn = s.sec.bn ∧
        t.mem = s.mem ∧
        RegsBut [Reg.SEC_BNCMD] s t ∧
        (∃ r, t.sec.bnRes = some (d.toFin, BitVec.ofNat 256 r) ∧ r < bnOp s 7 ∧ r * 2 ^ 256 % bnOp s 7 = bnOp s a * bnOp s b % bnOp s 7)) ∧
  (∀ (d b a : BitVec 3) (s : State), Core Reg.SEC_BNCMD s →
      s.on SEC_BNCMD.GO = false →
      bnOp s a < bnOp s 7 →
      bnOp s b < bnOp s 7 →
      ∃ t, exec (.modularAdd d b a) s = .next t ∧
        t.on SEC_BNCMD.GO = true ∧
        t.get SEC_BNCMD.OP = 1 ∧
        t.get SEC_BNCMD.DST = d.toNat ∧
        t.get SEC_BNCMD.SRCB = b.toNat ∧
        t.get SEC_BNCMD.SRCA = a.toNat ∧
        t.sec.bn = s.sec.bn ∧
        t.mem = s.mem ∧
        t.sec.bnRes = some (d.toFin, BitVec.ofNat 256 ((bnOp s a + bnOp s b) % bnOp s 7)) ∧
        RegsBut [Reg.SEC_BNCMD] s t) ∧
  (∀ (d b a : BitVec 3) (s : State), Core Reg.SEC_BNCMD s →
      s.on SEC_BNCMD.GO = false →
      bnOp s a < bnOp s 7 →
      bnOp s b < bnOp s 7 →
      ∃ t, exec (.modularSubtract d b a) s = .next t ∧
        t.on SEC_BNCMD.GO = true ∧
        t.get SEC_BNCMD.OP = 2 ∧
        t.get SEC_BNCMD.DST = d.toNat ∧
        t.get SEC_BNCMD.SRCB = b.toNat ∧
        t.get SEC_BNCMD.SRCA = a.toNat ∧
        t.sec.bn = s.sec.bn ∧
        t.mem = s.mem ∧
        RegsBut [Reg.SEC_BNCMD] s t ∧
        (∃ r, t.sec.bnRes = some (d.toFin, BitVec.ofNat 256 r) ∧ r < bnOp s 7 ∧ (r + bnOp s b) % bnOp s 7 = bnOp s a)) ∧
  (∀ (c : Instr) (d b a : BitVec 3) (s : State), Core Reg.SEC_BNCMD s →
      s.on SEC_BNCMD.GO = false →
      c ∈ [.montgomeryMultiply d b a, .modularAdd d b a, .modularSubtract d b a] →
      bnOp s 7 ≤ bnOp s a ∨ bnOp s 7 ≤ bnOp s b →
      ∃ t, exec (c) s = .next t ∧
        t.on SEC_BNCMD.GO = true ∧
        t.sec.bn = s.sec.bn ∧
        t.sec.bnRes.map (·.1) = some d.toFin ∧
        t.free = s.free + 1 ∧
        t.mem = s.mem ∧
        RegsBut [Reg.SEC_BNCMD] s t) ∧
  (∀ (d b a : BitVec 3) (s : State), Core Reg.SEC_BNCMD s →
      s.on SEC_BNCMD.GO = false →
      bnOp s 7 % 2 = 0 →
      ∃ t, exec (.montgomeryMultiply d b a) s = .next t ∧
        t.on SEC_BNCMD.GO = true ∧
        t.sec.bn = s.sec.bn ∧
        t.sec.bnRes.map (·.1) = some d.toFin ∧
        t.free = s.free + 1 ∧
        t.mem = s.mem ∧
        RegsBut [Reg.SEC_BNCMD] s t) ∧
  (∀ (c : Instr) (d b a : BitVec 3) (s : State), Core Reg.SEC_BNCMD s →
      s.on SEC_BNCMD.GO = true →
      c ∈ [.montgomeryMultiply d b a, .modularAdd d b a, .modularSubtract d b a] →
      ∃ t, exec (c) s = .next t ∧
        t = s) ∧
  (∀ (d : Fin 8) (v : BitVec 256) (s : State), s.secClocked = true →
      s.sec.bnRes = some (d, v) →
      ∃ t, exec (.bnDone) s = .next t ∧
        t.sec = { s.sec with bn := s.sec.bn.set d v, bnRes := none } ∧
        t.on SEC_BNCMD.GO = false ∧
        t.on SEC_IRQ.BNDONE = true ∧
        t.mem = s.mem ∧
        RegsBut [Reg.SEC_BNCMD, Reg.SEC_IRQ] s t) ∧
  (∀ (s : State), s.secClocked = false ∨ s.sec.bnRes = none →
      ∃ t, exec (.bnDone) s = .next t ∧
        t = s)

/-- Frame counters, alarms and locked settings. COUNTER_RESERVE, RESERVATION_DURABLE, RESERVATION_ACK_TIMEOUT, SECURITY_ALARM, ALMCFG_WRITE, EPOCH_WRITE and LEDGER_CFG_WRITE; writes as the bus takes them. (1) COUNTER_RESERVE of a slot whose NEXT has reached 1,024 − RESLEAD of its block, or that has none, with ledger and pair mode off, makes the next block durable at once and sets RESV; the other counters, the slots, memory and every other register stay. (2) With the ledger on and busy the reservation waits for its record, which is queued. (3) In pair mode with the link down it waits for the partner. (4) Before that nothing changes. (5) Nor with the engine gated, a slot without counter, a reservation under way or the counter exhausted. (6) RESERVATION_DURABLE with the record verified or no ledger, and the acknowledgement there, late or not needed, makes the block durable and sets RESV, and TWILLW when it was late; the other counters, the slots, memory and every other register stay. (7) With a condition open nothing changes. (8) RESERVATION_ACK_TIMEOUT with the record verified or no ledger makes it durable without the acknowledgement, which sets TWILLW. (9) With the record still open it only notes that the acknowledgement is late. (10) With no reservation counters, memory and registers stay. (11) SECURITY_ALARM of an enabled source, in every state but off and reset before AON power, latches and counts it, erases every slot, counter, the wrapping keys' use and the saved state, and wakes from sleep and deep sleep. (12) Without an enabled source, in off, or before AON power, nothing changes. (13) ALMCFG_WRITE takes the first write only; all else stays. (14) EPOCH_WRITE takes a value not below the floor; all else stays. (15) LEDGER_CFG_WRITE that would enable a ledger outside blocks 388 to 495 or of fewer than 2 or more than 16 blocks sets LEDGERR and changes nothing else. (16) One within them enables it there; slots, counters and memory stay. (17) One with EN = 0 sets its place; all else stays. (18) While it is enabled only EN changes. -/
def Obligations.CountersAndAlarms : Prop :=
  (∀ (n : Fin 32) (s : State), s.secClocked = true →
      s.counts n = true →
      (s.counter n).resv = none →
      (s.counter n).exhausted = false →
      (s.counter n).durable.all (fun d => decide (d + 1024 < 2 ^ 32) && decide (1024 - s.resLead + d ≤ (s.counter n).next)) = true →
      s.on SEC_LEDGER.EN = false →
      s.pairState ≠ pairActive →
      ∃ t, exec (.counterReserve n) s = .next t ∧
        (t.counter n).durable = some (match (s.counter n).durable with | some d => max (d + 1024) ((s.counter n).next / 1024 * 1024) | none => (s.counter n).next / 1024 * 1024) ∧
        (t.counter n).resv = none ∧
        (t.counter n).next = (s.counter n).next ∧
        t.on SEC_IRQ.RESV = true ∧
        t.sec.slots = s.sec.slots ∧
        t.mem = s.mem ∧
        RegsBut [Reg.SEC_IRQ] s t ∧
        (∀ k : Fin 32, k ≠ n → t.counter k = s.counter k)) ∧
  (∀ (n : Fin 32) (s : State), s.secClocked = true →
      s.counts n = true →
      (s.counter n).resv = none →
      (s.counter n).exhausted = false →
      (s.counter n).durable.all (fun d => decide (d + 1024 < 2 ^ 32) && decide (1024 - s.resLead + d ≤ (s.counter n).next)) = true →
      s.on SEC_LEDGER.EN = true →
      s.pairState ≠ pairActive →
      s.sec.ledgBusy = true →
      ∃ t, exec (.counterReserve n) s = .next t ∧
        (t.counter n).resv = some ⟨(match (s.counter n).durable with | some d => max (d + 1024) ((s.counter n).next / 1024 * 1024) | none => (s.counter n).next / 1024 * 1024), false, true, false⟩ ∧
        (t.counter n).durable = (s.counter n).durable ∧
        t.sec.ledgQ = s.sec.ledgQ ++ [.record 1 n (s.slot n).kcv (match (s.counter n).durable with | some d => max (d + 1024) ((s.counter n).next / 1024 * 1024) | none => (s.counter n).next / 1024 * 1024)] ∧
        t.mem = s.mem ∧
        t.regs = s.regs) ∧
  (∀ (n : Fin 32) (s : State), s.secClocked = true →
      s.counts n = true →
      (s.counter n).resv = none →
      (s.counter n).exhausted = false →
      (s.counter n).durable.all (fun d => decide (d + 1024 < 2 ^ 32) && decide (1024 - s.resLead + d ≤ (s.counter n).next)) = true →
      s.on SEC_LEDGER.EN = false →
      s.pairState = pairActive →
      s.on TWIL_STAT.LINK = false →
      ∃ t, exec (.counterReserve n) s = .next t ∧
        (t.counter n).resv = some ⟨(match (s.counter n).durable with | some d => max (d + 1024) ((s.counter n).next / 1024 * 1024) | none => (s.counter n).next / 1024 * 1024), true, false, false⟩ ∧
        (t.counter n).durable = (s.counter n).durable ∧
        t.twil = s.twil ∧
        t.mem = s.mem ∧
        t.regs = s.regs) ∧
  (∀ (n : Fin 32) (d : Nat) (s : State), (s.counter n).durable = some d →
      (s.counter n).next < 1024 - s.resLead + d →
      ∃ t, exec (.counterReserve n) s = .next t ∧
        t = s) ∧
  (∀ (n : Fin 32) (s : State), s.secClocked = false ∨ s.counts n = false ∨ (s.counter n).resv.isSome = true ∨ (s.counter n).exhausted = true →
      ∃ t, exec (.counterReserve n) s = .next t ∧
        t = s) ∧
  (∀ (n : Fin 32) (r : Resv) (s : State), (s.counter n).resv = some r →
      r.ledger = true ∨ s.on SEC_LEDGER.EN = false →
      r.ack = true ∨ r.late = true ∨ s.pairState ≠ pairActive →
      ∃ t, exec (.reservationDurable n) s = .next t ∧
        (t.counter n).durable = some r.start ∧
        (t.counter n).resv = none ∧
        (t.counter n).next = (s.counter n).next ∧
        t.on SEC_IRQ.RESV = true ∧
        t.on SEC_IRQ.TWILLW = (r.late && !r.ack || s.on SEC_IRQ.TWILLW) ∧
        t.sec.slots = s.sec.slots ∧
        t.mem = s.mem ∧
        RegsBut [Reg.SEC_IRQ] s t ∧
        (∀ k : Fin 32, k ≠ n → t.counter k = s.counter k)) ∧
  (∀ (n : Fin 32) (r : Resv) (s : State), (s.counter n).resv = some r →
      (r.ledger = false ∧ s.on SEC_LEDGER.EN = true) ∨ (r.ack = false ∧ r.late = false ∧ s.pairState = pairActive) →
      ∃ t, exec (.reservationDurable n) s = .next t ∧
        t = s) ∧
  (∀ (n : Fin 32) (r : Resv) (s : State), (s.counter n).resv = some r →
      r.ledger = true ∨ s.on SEC_LEDGER.EN = false →
      ∃ t, exec (.reservationAckTimeout n) s = .next t ∧
        (t.counter n).durable = some r.start ∧
        (t.counter n).resv = none ∧
        (t.counter n).next = (s.counter n).next ∧
        t.on SEC_IRQ.RESV = true ∧
        t.on SEC_IRQ.TWILLW = (!r.ack || s.on SEC_IRQ.TWILLW) ∧
        t.sec.slots = s.sec.slots ∧
        t.mem = s.mem ∧
        RegsBut [Reg.SEC_IRQ] s t ∧
        (∀ k : Fin 32, k ≠ n → t.counter k = s.counter k)) ∧
  (∀ (n : Fin 32) (r : Resv) (s : State), (s.counter n).resv = some r →
      r.ledger = false →
      s.on SEC_LEDGER.EN = true →
      ∃ t, exec (.reservationAckTimeout n) s = .next t ∧
        (t.counter n) = { s.counter n with resv := some { r with late := true } } ∧
        t.mem = s.mem ∧
        t.regs = s.regs ∧
        (∀ k : Fin 32, k ≠ n → t.counter k = s.counter k)) ∧
  (∀ (n : Fin 32) (c : Instr) (s : State), c ∈ [.reservationDurable n, .reservationAckTimeout n] →
      (s.counter n).resv = none →
      ∃ t, exec (c) s = .next t ∧
        t.mem = s.mem ∧
        t.counter n = s.counter n ∧
        t.regs = s.regs ∧
        (∀ k : Fin 32, t.counter k = s.counter k)) ∧
  (∀ (src : BitVec 4) (s : State), (src.toNat &&& ((s.reg Reg.SEC_ALMCFG).toNat % 16)) ≠ 0 →
      s.power.st ≠ .off →
      s.power.st ≠ .reset ∨ s.power.por = false ∨ s.power.vbatLow = false →
      ∃ t, exec (.securityAlarm src) s = .next t ∧
        t.on SEC_ALMSTAT.LATCHED = true ∧
        t.get SEC_ALMSTAT.COUNT = min (s.get SEC_ALMSTAT.COUNT + 1) 0xFFFF ∧
        t.get SEC_ALMSTAT.SRC = (s.get SEC_ALMSTAT.SRC ||| (src.toNat &&& ((s.reg Reg.SEC_ALMCFG).toNat % 16))) ∧
        t.sec.slots = Vector.replicate 32 {} ∧
        t.sec.ctr = Vector.replicate 32 {} ∧
        t.sec.wkGone = true ∧
        t.power.saved = [] ∧
        t.power.st = (match s.power.st with | .sleep => .waking .sleep | .deepSleep => .waking .deepSleep | x => x)) ∧
  (∀ (src : BitVec 4) (s : State), (src.toNat &&& ((s.reg Reg.SEC_ALMCFG).toNat % 16)) = 0 ∨ s.power.st = .off ∨ (s.power.st = .reset ∧ s.power.por = true ∧ s.power.vbatLow = true) →
      ∃ t, exec (.securityAlarm src) s = .next t ∧
        t = s) ∧
  (∀ (d : Word) (s : State), Core Reg.SEC_ALMCFG s →
      ∃ t, exec (.almcfgWrite d) s = .next t ∧
        t.reg Reg.SEC_ALMCFG = (if s.sec.almLocked then s.reg Reg.SEC_ALMCFG else d &&& 0x10F) ∧
        t.sec = { s.sec with almLocked := true } ∧
        t.mem = s.mem ∧
        RegsBut [Reg.SEC_ALMCFG] s t) ∧
  (∀ (d : Word) (s : State), Core Reg.SEC_EPOCH s →
      ∃ t, exec (.epochWrite d) s = .next t ∧
        t.reg Reg.SEC_EPOCH = (if s.reg Reg.SEC_EPOCH ≤ d then d else s.reg Reg.SEC_EPOCH) ∧
        t.sec = s.sec ∧
        t.mem = s.mem ∧
        RegsBut [Reg.SEC_EPOCH] s t) ∧
  (∀ (d : Word) (s : State), Core Reg.SEC_LEDGER s →
      s.on SEC_LEDGER.EN = false →
      SEC_LEDGER.EN.of d = 1 →
      (SEC_LEDGER.FIRST.of d < 388 || 495 < SEC_LEDGER.FIRST.of d + SEC_LEDGER.NBLK.of d - 1 || SEC_LEDGER.NBLK.of d < 2 || 16 < SEC_LEDGER.NBLK.of d) = true →
      ∃ t, exec (.ledgerCfgWrite d) s = .next t ∧
        t.on SEC_IRQ.LEDGERR = true ∧
        t.sec = s.sec ∧
        t.mem = s.mem ∧
        RegsBut [Reg.SEC_IRQ] s t) ∧
  (∀ (d : Word) (s : State), Core Reg.SEC_LEDGER s →
      s.on SEC_LEDGER.EN = false →
      SEC_LEDGER.EN.of d = 1 →
      (SEC_LEDGER.FIRST.of d < 388 || 495 < SEC_LEDGER.FIRST.of d + SEC_LEDGER.NBLK.of d - 1 || SEC_LEDGER.NBLK.of d < 2 || 16 < SEC_LEDGER.NBLK.of d) = false →
      ∃ t, exec (.ledgerCfgWrite d) s = .next t ∧
        t.on SEC_LEDGER.EN = true ∧
        t.get SEC_LEDGER.FIRST = SEC_LEDGER.FIRST.of d ∧
        t.get SEC_LEDGER.NBLK = SEC_LEDGER.NBLK.of d ∧
        t.get SEC_LEDGER.BANK = SEC_LEDGER.BANK.of d ∧
        t.sec.slots = s.sec.slots ∧
        t.sec.ctr = s.sec.ctr ∧
        t.mem = s.mem) ∧
  (∀ (d : Word) (s : State), Core Reg.SEC_LEDGER s →
      s.on SEC_LEDGER.EN = false →
      SEC_LEDGER.EN.of d = 0 →
      ∃ t, exec (.ledgerCfgWrite d) s = .next t ∧
        t.on SEC_LEDGER.EN = false ∧
        t.get SEC_LEDGER.FIRST = SEC_LEDGER.FIRST.of d ∧
        t.get SEC_LEDGER.NBLK = SEC_LEDGER.NBLK.of d ∧
        t.get SEC_LEDGER.BANK = SEC_LEDGER.BANK.of d ∧
        t.sec = s.sec ∧
        t.mem = s.mem ∧
        RegsBut [Reg.SEC_LEDGER] s t) ∧
  (∀ (d : Word) (s : State), Core Reg.SEC_LEDGER s →
      s.on SEC_LEDGER.EN = true →
      ∃ t, exec (.ledgerCfgWrite d) s = .next t ∧
        t.on SEC_LEDGER.EN = (SEC_LEDGER.EN.of d == 1) ∧
        t.get SEC_LEDGER.FIRST = s.get SEC_LEDGER.FIRST ∧
        t.get SEC_LEDGER.NBLK = s.get SEC_LEDGER.NBLK ∧
        t.get SEC_LEDGER.BANK = s.get SEC_LEDGER.BANK ∧
        t.sec = s.sec ∧
        t.mem = s.mem ∧
        RegsBut [Reg.SEC_LEDGER] s t)

/-- Round trips: decryption undoes encryption, decoding a syllable's word undoes its encoding. For every AES-128 or AES-256 key, ECB decryption of the ECB encryption of whole blocks is the text; encrypting twice with the CCM* keystream of one key and nonce is the text; and for every pair of keys, sector and block, XTS decryption of the XTS encryption of a block is the block. The word of a syllable that holds nothing outside its format spells that syllable and stop bit, and every word with a listed opcode is the word of what it spells. -/
def Obligations.CipherRoundTrip : Prop :=
  (∀ key text : List Byte, key.length ∈ [16, 32] → text.length % 16 = 0 → ecbDec key (ecbEnc key text) = text) ∧
  (∀ key nonce text : List Byte, key.length ∈ [16, 32] → ccmCrypt key nonce (ccmCrypt key nonce text) = text) ∧
  (∀ (k1 k2 : List Byte) (sec j : Nat) (b : List Byte), k1.length ∈ [16, 32] → k2.length ∈ [16, 32] → b.length = 16 →
    xtsDec k1 k2 sec j (xtsEnc k1 k2 sec j b) = b) ∧
  (∀ (stop : Bool) (y : Syl), y.inFormat = true → y.op ≠ .undef → decodeSyl (encodeSyl stop y) = (stop, y)) ∧
  ∀ w : Word, (decodeSyl w).2.op ≠ .undef → (decodeSyl w).2.inFormat = true ∧ encodeSyl (decodeSyl w).1 (decodeSyl w).2 = w

/-- The peer and route table. TBL_LOOKUP, TBL_READ, TBL_ADD, TBL_WRITE, TBL_DELETE, TBL_REFRESH, AGEING_SCAN and TBL_SPLIT_WRITE; commands and writes as the bus takes them. A command ends with its status in TBL_RES and DONE set; unless a clause says otherwise memory and every other register stay. A changed entry has VER one higher; only its 32 bytes change, and without a partner to mirror to only TBL_RES and TBL_IRQ among registers. (1) TBL_LOOKUP of a peer or route by extended or short address that is found ends OK with its index and copies the entry to TBL_DATA. (2) A found route whose next hop is no peer ends NEXTBAD with the entry copied. (3) One not found ends MISS and leaves TBL_DATA. (4) TBL_READ of an entry in use copies it and ends OK. (5) Of a free one it ends EMPTY and leaves TBL_DATA. (6) TBL_ADD at a free index, or with AUTO at the lowest free one, of a well-formed entry within its quota, with no key in common with another and no counter conflict, places TBL_DATA there and ends OK, or ends HASHFULL without change, which is the part's own choice. (7) An entry that is not well formed ends BADENTRY. (8) An index in use ends OCCUPIED. (9) A kind whose quota is used up ends QUOTA. (10) A key in common with another entry ends DUPKEY. (11) A key slot that another peer maps to another RESSLOT ends CTRMAP. (12) On a standby ADD, WRITE, DELETE and REFRESH end STANDBY. (13) TBL_WRITE of an entry in use that passes the tests places TBL_DATA, of the same peer with LASTCTR at least as before, or ends HASHFULL without change. (14) Of a free one it ends EMPTY. (15) TBL_DELETE of an entry in use that is no peer a link or the parent names zeroes it but for VER. (16) Of such a peer it ends INUSE. (17) DELETE and REFRESH of a free index end EMPTY. (18) TBL_REFRESH of a route with valid time stamps it with the present network time; the bytes before VER stay. (19) With time not valid it ends OK without change. (20) Of a peer it ends BADENTRY. (21) AGEING_SCAN of a clocked block with valid time frees a lone route not static and RMAX old: zero but for VER, AGED set, counted. (22) A lone peer not static and PSTALE old is marked STALE, once, and STALE set. (23) A lone entry that is static, younger, or of a kind with no limit is left alone. (24) With the block not clocked or time not valid nothing changes. (25) TBL_SPLIT_WRITE of quotas at most 4,096 and not below what is in use takes them; all else stays. (26) Others set BADCFG and change nothing else. -/
def Obligations.TableCommands : Prop :=
  (∀ (short route : Bool) (i : Nat) (s : State), Core Reg.TBL_CMD s →
      (if short then s.findShort (if route then kRoute else kPeer) ((s.reg Reg.TBL_KEY_LO).toNat / 65536) ((s.reg Reg.TBL_KEY_LO).toNat % 65536) else s.findExt (if route then kRoute else kPeer) ((s.reg Reg.TBL_KEY_HI).toNat * 2 ^ 32 + (s.reg Reg.TBL_KEY_LO).toNat)) = some i →
      i < 8192 →
      route = false ∨ s.isPeer (eN (s.entry i) 6 2) = true →
      ∃ t, exec (.tblLookup short route) s = .next t ∧
        t.get TBL_RES.STATUS = tbOk ∧
        t.get TBL_RES.INDEX = i ∧
        t.on TBL_IRQ.DONE = true ∧
        t.tblData = s.entry i ∧
        t.mem = s.mem ∧
        RegsBut ([Reg.TBL_RES, Reg.TBL_IRQ] ++ (List.range 8).map Reg.TBL_DATA) s t) ∧
  (∀ (short : Bool) (i : Nat) (s : State), Core Reg.TBL_CMD s →
      (if short then s.findShort kRoute ((s.reg Reg.TBL_KEY_LO).toNat / 65536) ((s.reg Reg.TBL_KEY_LO).toNat % 65536) else s.findExt kRoute ((s.reg Reg.TBL_KEY_HI).toNat * 2 ^ 32 + (s.reg Reg.TBL_KEY_LO).toNat)) = some i →
      i < 8192 →
      s.isPeer (eN (s.entry i) 6 2) = false →
      ∃ t, exec (.tblLookup short true) s = .next t ∧
        t.get TBL_RES.STATUS = tbNextbad ∧
        t.get TBL_RES.INDEX = i ∧
        t.on TBL_IRQ.DONE = true ∧
        t.tblData = s.entry i ∧
        t.mem = s.mem ∧
        RegsBut ([Reg.TBL_RES, Reg.TBL_IRQ] ++ (List.range 8).map Reg.TBL_DATA) s t) ∧
  (∀ (short route : Bool) (s : State), Core Reg.TBL_CMD s →
      (if short then s.findShort (if route then kRoute else kPeer) ((s.reg Reg.TBL_KEY_LO).toNat / 65536) ((s.reg Reg.TBL_KEY_LO).toNat % 65536) else s.findExt (if route then kRoute else kPeer) ((s.reg Reg.TBL_KEY_HI).toNat * 2 ^ 32 + (s.reg Reg.TBL_KEY_LO).toNat)) = none →
      ∃ t, exec (.tblLookup short route) s = .next t ∧
        t.get TBL_RES.STATUS = tbMiss ∧
        t.on TBL_IRQ.DONE = true ∧
        t.tblData = s.tblData ∧
        t.mem = s.mem ∧
        RegsBut [Reg.TBL_RES, Reg.TBL_IRQ] s t) ∧
  (∀ (idx : BitVec 13) (s : State), Core Reg.TBL_CMD s →
      s.eKind idx.toNat ≠ kFree →
      ∃ t, exec (.tblRead idx) s = .next t ∧
        t.get TBL_RES.STATUS = tbOk ∧
        t.get TBL_RES.INDEX = idx.toNat ∧
        t.on TBL_IRQ.DONE = true ∧
        t.tblData = s.entry idx.toNat ∧
        t.mem = s.mem ∧
        RegsBut ([Reg.TBL_RES, Reg.TBL_IRQ] ++ (List.range 8).map Reg.TBL_DATA) s t) ∧
  (∀ (idx : BitVec 13) (s : State), Core Reg.TBL_CMD s →
      s.eKind idx.toNat = kFree →
      ∃ t, exec (.tblRead idx) s = .next t ∧
        t.get TBL_RES.STATUS = tbEmpty ∧
        t.get TBL_RES.INDEX = idx.toNat ∧
        t.on TBL_IRQ.DONE = true ∧
        t.tblData = s.tblData ∧
        t.mem = s.mem ∧
        RegsBut [Reg.TBL_RES, Reg.TBL_IRQ] s t) ∧
  (∀ (auto : Bool) (idx : BitVec 13) (s : State), Core Reg.TBL_CMD s →
      s.standby = false →
      entryOk s.tblData = true →
      (if auto then s.lowestFree else idx.toNat) < 8192 →
      s.eKind (if auto then s.lowestFree else idx.toNat) = kFree →
      ((s.tblUsed.filter (· ≠ (if auto then s.lowestFree else idx.toNat))).filter (fun j => s.eKind j == eN s.tblData 0 1)).length < s.quota (eN s.tblData 0 1) →
      (s.tblUsed.filter (· ≠ (if auto then s.lowestFree else idx.toNat))).any (fun j => sameKey (s.entry j) s.tblData) = false →
      (eN s.tblData 0 1 == kPeer && eN s.tblData 6 1 != 255 && (s.resOf (eN s.tblData 6 1)).isSome && s.resOf (eN s.tblData 6 1) != some (eN s.tblData 7 1)) = false →
      ∃ t, exec (.tblAdd auto idx) s = .next t ∧
        t.get TBL_RES.INDEX = (if auto then s.lowestFree else idx.toNat) ∧
        t.on TBL_IRQ.DONE = true ∧
        (if Config.hashFull ((s.tblUsed.filter (· ≠ (if auto then s.lowestFree else idx.toNat))).map s.entry) s.tblData then t.get TBL_RES.STATUS = tbHashfull ∧ t.mem = s.mem else t.get TBL_RES.STATUS = tbOk ∧ t.entry (if auto then s.lowestFree else idx.toNat) = ePut s.tblData 26 2 ((eN (s.entry (if auto then s.lowestFree else idx.toNat)) 26 2 + 1) % 65536)) ∧
        Outside (tblAddr (if auto then s.lowestFree else idx.toNat)) 32 s t ∧
        (s.mirrors = false → RegsBut [Reg.TBL_RES, Reg.TBL_IRQ] s t)) ∧
  (∀ (idx : BitVec 13) (s : State), Core Reg.TBL_CMD s →
      s.standby = false →
      entryOk s.tblData = false →
      ∃ t, exec (.tblAdd false idx) s = .next t ∧
        t.get TBL_RES.STATUS = tbBadentry ∧
        t.on TBL_IRQ.DONE = true ∧
        t.mem = s.mem ∧
        RegsBut [Reg.TBL_RES, Reg.TBL_IRQ] s t) ∧
  (∀ (idx : BitVec 13) (s : State), Core Reg.TBL_CMD s →
      s.standby = false →
      entryOk s.tblData = true →
      s.eKind idx.toNat ≠ kFree →
      ∃ t, exec (.tblAdd false idx) s = .next t ∧
        t.get TBL_RES.STATUS = tbOccupied ∧
        t.on TBL_IRQ.DONE = true ∧
        t.mem = s.mem ∧
        RegsBut [Reg.TBL_RES, Reg.TBL_IRQ] s t) ∧
  (∀ (idx : BitVec 13) (s : State), Core Reg.TBL_CMD s →
      s.standby = false →
      entryOk s.tblData = true →
      s.eKind idx.toNat = kFree →
      s.quota (eN s.tblData 0 1) ≤ ((s.tblUsed.filter (· ≠ idx.toNat)).filter (fun j => s.eKind j == eN s.tblData 0 1)).length →
      ∃ t, exec (.tblAdd false idx) s = .next t ∧
        t.get TBL_RES.STATUS = tbQuota ∧
        t.on TBL_IRQ.DONE = true ∧
        t.mem = s.mem ∧
        RegsBut [Reg.TBL_RES, Reg.TBL_IRQ] s t) ∧
  (∀ (idx : BitVec 13) (s : State), Core Reg.TBL_CMD s →
      s.standby = false →
      entryOk s.tblData = true →
      s.eKind idx.toNat = kFree →
      ((s.tblUsed.filter (· ≠ idx.toNat)).filter (fun j => s.eKind j == eN s.tblData 0 1)).length < s.quota (eN s.tblData 0 1) →
      (s.tblUsed.filter (· ≠ idx.toNat)).any (fun j => sameKey (s.entry j) s.tblData) = true →
      ∃ t, exec (.tblAdd false idx) s = .next t ∧
        t.get TBL_RES.STATUS = tbDupkey ∧
        t.on TBL_IRQ.DONE = true ∧
        t.mem = s.mem ∧
        RegsBut [Reg.TBL_RES, Reg.TBL_IRQ] s t) ∧
  (∀ (idx : BitVec 13) (s : State), Core Reg.TBL_CMD s →
      s.standby = false →
      entryOk s.tblData = true →
      s.eKind idx.toNat = kFree →
      ((s.tblUsed.filter (· ≠ idx.toNat)).filter (fun j => s.eKind j == eN s.tblData 0 1)).length < s.quota (eN s.tblData 0 1) →
      (s.tblUsed.filter (· ≠ idx.toNat)).any (fun j => sameKey (s.entry j) s.tblData) = false →
      (eN s.tblData 0 1 == kPeer && eN s.tblData 6 1 != 255 && (s.resOf (eN s.tblData 6 1)).isSome && s.resOf (eN s.tblData 6 1) != some (eN s.tblData 7 1)) = true →
      ∃ t, exec (.tblAdd false idx) s = .next t ∧
        t.get TBL_RES.STATUS = tbCtrmap ∧
        t.on TBL_IRQ.DONE = true ∧
        t.mem = s.mem ∧
        RegsBut [Reg.TBL_RES, Reg.TBL_IRQ] s t) ∧
  (∀ (c : Instr) (auto : Bool) (idx : BitVec 13) (s : State), Core Reg.TBL_CMD s →
      s.standby = true →
      c ∈ [.tblAdd auto idx, .tblWrite idx, .tblDelete idx, .tblRefresh idx] →
      ∃ t, exec (c) s = .next t ∧
        t.get TBL_RES.STATUS = tbStandby ∧
        t.on TBL_IRQ.DONE = true ∧
        t.mem = s.mem ∧
        RegsBut [Reg.TBL_RES, Reg.TBL_IRQ] s t) ∧
  (∀ (idx : BitVec 13) (s : State), Core Reg.TBL_CMD s →
      s.standby = false →
      entryOk s.tblData = true →
      s.eKind idx.toNat ≠ kFree →
      ((s.tblUsed.filter (· ≠ idx.toNat)).filter (fun j => s.eKind j == eN s.tblData 0 1)).length < s.quota (eN s.tblData 0 1) →
      (s.tblUsed.filter (· ≠ idx.toNat)).any (fun j => sameKey (s.entry j) s.tblData) = false →
      (eN s.tblData 0 1 == kPeer && eN s.tblData 6 1 != 255 && (s.resOf (eN s.tblData 6 1)).isSome && s.resOf (eN s.tblData 6 1) != some (eN s.tblData 7 1)) = false →
      ∃ t, exec (.tblWrite idx) s = .next t ∧
        t.get TBL_RES.INDEX = idx.toNat ∧
        t.on TBL_IRQ.DONE = true ∧
        (if Config.hashFull ((s.tblUsed.filter (· ≠ idx.toNat)).map s.entry) s.tblData then t.get TBL_RES.STATUS = tbHashfull ∧ t.mem = s.mem else t.get TBL_RES.STATUS = tbOk ∧ t.entry idx.toNat = ePut (if (eN (s.entry idx.toNat) 0 1 == kPeer && eN s.tblData 0 1 == kPeer && eN (s.entry idx.toNat) 8 8 == eN s.tblData 8 8) then ePut s.tblData 16 4 (max (eN (s.entry idx.toNat) 16 4) (eN s.tblData 16 4)) else s.tblData) 26 2 ((eN (s.entry idx.toNat) 26 2 + 1) % 65536)) ∧
        Outside (tblAddr idx.toNat) 32 s t ∧
        (s.mirrors = false → RegsBut [Reg.TBL_RES, Reg.TBL_IRQ] s t)) ∧
  (∀ (idx : BitVec 13) (s : State), Core Reg.TBL_CMD s →
      s.standby = false →
      entryOk s.tblData = true →
      s.eKind idx.toNat = kFree →
      ∃ t, exec (.tblWrite idx) s = .next t ∧
        t.get TBL_RES.STATUS = tbEmpty ∧
        t.on TBL_IRQ.DONE = true ∧
        t.mem = s.mem ∧
        RegsBut [Reg.TBL_RES, Reg.TBL_IRQ] s t) ∧
  (∀ (idx : BitVec 13) (s : State), Core Reg.TBL_CMD s →
      s.standby = false →
      s.eKind idx.toNat ≠ kFree →
      (s.isPeer idx.toNat && s.inUse idx.toNat) = false →
      ∃ t, exec (.tblDelete idx) s = .next t ∧
        t.get TBL_RES.STATUS = tbOk ∧
        t.on TBL_IRQ.DONE = true ∧
        t.entry idx.toNat = ePut (List.replicate 32 0) 26 2 ((eN (s.entry idx.toNat) 26 2 + 1) % 65536) ∧
        Outside (tblAddr idx.toNat) 32 s t ∧
        (s.mirrors = false → RegsBut [Reg.TBL_RES, Reg.TBL_IRQ] s t)) ∧
  (∀ (idx : BitVec 13) (s : State), Core Reg.TBL_CMD s →
      s.standby = false →
      s.isPeer idx.toNat = true →
      s.inUse idx.toNat = true →
      ∃ t, exec (.tblDelete idx) s = .next t ∧
        t.get TBL_RES.STATUS = tbInuse ∧
        t.on TBL_IRQ.DONE = true ∧
        t.mem = s.mem ∧
        RegsBut [Reg.TBL_RES, Reg.TBL_IRQ] s t) ∧
  (∀ (c : Instr) (idx : BitVec 13) (s : State), Core Reg.TBL_CMD s →
      s.standby = false →
      s.eKind idx.toNat = kFree →
      c ∈ [.tblDelete idx, .tblRefresh idx] →
      ∃ t, exec (c) s = .next t ∧
        t.get TBL_RES.STATUS = tbEmpty ∧
        t.on TBL_IRQ.DONE = true ∧
        t.mem = s.mem ∧
        RegsBut [Reg.TBL_RES, Reg.TBL_IRQ] s t) ∧
  (∀ (idx : BitVec 13) (s : State), Core Reg.TBL_CMD s →
      s.standby = false →
      s.eKind idx.toNat = kRoute →
      s.time.valid = true →
      ∃ t, exec (.tblRefresh idx) s = .next t ∧
        t.get TBL_RES.STATUS = tbOk ∧
        t.on TBL_IRQ.DONE = true ∧
        eN (t.entry idx.toNat) 28 4 = s.ntStamp ∧
        eN (t.entry idx.toNat) 26 2 = (eN (s.entry idx.toNat) 26 2 + 1) % 65536 ∧
        (t.entry idx.toNat).take 26 = (s.entry idx.toNat).take 26 ∧
        Outside (tblAddr idx.toNat) 32 s t ∧
        (s.mirrors = false → RegsBut [Reg.TBL_RES, Reg.TBL_IRQ] s t)) ∧
  (∀ (idx : BitVec 13) (s : State), Core Reg.TBL_CMD s →
      s.standby = false →
      s.eKind idx.toNat = kRoute →
      s.time.valid = false →
      ∃ t, exec (.tblRefresh idx) s = .next t ∧
        t.get TBL_RES.STATUS = tbOk ∧
        t.on TBL_IRQ.DONE = true ∧
        t.mem = s.mem ∧
        RegsBut [Reg.TBL_RES, Reg.TBL_IRQ] s t) ∧
  (∀ (idx : BitVec 13) (s : State), Core Reg.TBL_CMD s →
      s.standby = false →
      s.isPeer idx.toNat = true →
      ∃ t, exec (.tblRefresh idx) s = .next t ∧
        t.get TBL_RES.STATUS = tbBadentry ∧
        t.on TBL_IRQ.DONE = true ∧
        t.mem = s.mem ∧
        RegsBut [Reg.TBL_RES, Reg.TBL_IRQ] s t) ∧
  (∀ (i : Nat) (s : State), s.clocked = true →
      s.on SYSC_CLKGATE.TBL = true →
      s.time.valid = true →
      s.tblUsed = [i] →
      s.eKind i = kRoute →
      bitOf (eN (s.entry i) 1 1) 2 = false →
      s.get TBL_AGE.RMAX ≠ 0 →
      ((s.get TBL_AGE.RMAX * 256 : Nat) : Int) ≤ s.ageOf (eN (s.entry i) 28 4) →
      ∃ t, exec (.ageingScan) s = .next t ∧
        t.entry i = ePut (List.replicate 32 0) 26 2 ((eN (s.entry i) 26 2 + 1) % 65536) ∧
        t.on TBL_IRQ.AGED = true ∧
        t.get TBL_AGECNT.COUNT = (s.get TBL_AGECNT.COUNT + 1) % 2 ^ 32 ∧
        Outside (tblAddr i) 32 s t ∧
        (s.mirrors = false → RegsBut [Reg.TBL_IRQ, Reg.TBL_AGECNT] s t)) ∧
  (∀ (i : Nat) (s : State), s.clocked = true →
      s.on SYSC_CLKGATE.TBL = true →
      s.time.valid = true →
      s.tblUsed = [i] →
      s.eKind i = kPeer →
      bitOf (eN (s.entry i) 1 1) 2 = false →
      bitOf (eN (s.entry i) 1 1) 4 = false →
      s.get TBL_AGE.PSTALE ≠ 0 →
      ((s.get TBL_AGE.PSTALE * 256 : Nat) : Int) ≤ s.ageOf (eN (s.entry i) 28 4) →
      ∃ t, exec (.ageingScan) s = .next t ∧
        t.entry i = ePut (ePut (s.entry i) 1 1 (eN (s.entry i) 1 1 + 16)) 26 2 ((eN (s.entry i) 26 2 + 1) % 65536) ∧
        t.on TBL_IRQ.STALE = true ∧
        Outside (tblAddr i) 32 s t ∧
        (s.mirrors = false → RegsBut [Reg.TBL_IRQ] s t)) ∧
  (∀ (i : Nat) (s : State), s.clocked = true →
      s.on SYSC_CLKGATE.TBL = true →
      s.time.valid = true →
      s.tblUsed = [i] →
      bitOf (eN (s.entry i) 1 1) 2 = true ∨ (s.eKind i = kRoute ∧ (s.get TBL_AGE.RMAX = 0 ∨ s.ageOf (eN (s.entry i) 28 4) < ((s.get TBL_AGE.RMAX * 256 : Nat) : Int))) ∨ (s.eKind i = kPeer ∧ (s.get TBL_AGE.PSTALE = 0 ∨ s.ageOf (eN (s.entry i) 28 4) < ((s.get TBL_AGE.PSTALE * 256 : Nat) : Int))) →
      ∃ t, exec (.ageingScan) s = .next t ∧
        t = s) ∧
  (∀ (s : State), s.clocked = false ∨ s.on SYSC_CLKGATE.TBL = false ∨ s.time.valid = false →
      ∃ t, exec (.ageingScan) s = .next t ∧
        t = s) ∧
  (∀ (d : Word) (s : State), Core Reg.TBL_SPLIT s →
      (4096 < TBL_SPLIT.PQUOTA.of d || 4096 < TBL_SPLIT.RQUOTA.of d || TBL_SPLIT.PQUOTA.of d < (s.tblOf kPeer).length || TBL_SPLIT.RQUOTA.of d < (s.tblOf kRoute).length) = false →
      ∃ t, exec (.tblSplitWrite d) s = .next t ∧
        t.get TBL_SPLIT.PQUOTA = TBL_SPLIT.PQUOTA.of d ∧
        t.get TBL_SPLIT.RQUOTA = TBL_SPLIT.RQUOTA.of d ∧
        t.mem = s.mem ∧
        RegsBut [Reg.TBL_SPLIT] s t) ∧
  (∀ (d : Word) (s : State), Core Reg.TBL_SPLIT s →
      (4096 < TBL_SPLIT.PQUOTA.of d || 4096 < TBL_SPLIT.RQUOTA.of d || TBL_SPLIT.PQUOTA.of d < (s.tblOf kPeer).length || TBL_SPLIT.RQUOTA.of d < (s.tblOf kRoute).length) = true →
      ∃ t, exec (.tblSplitWrite d) s = .next t ∧
        t.on TBL_IRQ.BADCFG = true ∧
        t.mem = s.mem ∧
        RegsBut [Reg.TBL_IRQ] s t)

/-- Corrections of network time. TIME_SET, TIME_STEP, TIME_SLEW, TIME_RATE, TIME_CLEAR, TIME_ACCEPT as the bus takes them, with the operand in TIME_CORR, and SLEW_END. Memory and every register not named stay; SET and STEP may move MAC_SCHEDOFS. (1) With no compare unit armed, SET with FORCE or a jump within JUMPMAX makes network time the operand and valid, ends the servo and holdover, and gives OK. (2) SET without FORCE that would jump beyond JUMPMAX is refused, counted and flagged; network time stays. (3) STEP likewise. (4) With no compare unit armed, STEP of valid time with FORCE or within JUMPMAX moves it by the operand modulo 2^64. (5) STEP, and SLEW and RATE with an operand in range, of time that is not valid give INVALID and change nothing else. (6) SLEW of at most ±1 s adds the operand to the slew remaining, whose sign SL takes at SLEWMAX, without a jump. (7) RATE of at most ±500 ppm puts the operand into ADJ, without a jump. (8) Operands beyond these give BADARG and change nothing else. (9) CLEAR ends validity and the slew; the tick runs free. (10) ACCEPT lets the next measurement be accepted whatever its size. (11) SLEW_END with nothing remaining sets SL to 0, without a jump. (12) With a remainder, or no slew, it changes nothing. -/
def Obligations.TimeCorrections : Prop :=
  (∀ (force : Bool) (s : State), Core Reg.TIME_CMD s →
      (∀ n : Fin 7, (s.time.cmp[n]).armed = false) →
      force = true ∨ s.jumpTooFar (if s.time.valid then ntDiff (corr s) s.nt else 0) = false →
      ∃ t, exec (.timeSet force) s = .next t ∧
        t.nt = corr s ∧
        t.time.valid = true ∧
        t.get TIME_CMD.RESULT = tmOk ∧
        t.on TIME_STAT.SERVO = false ∧
        t.on TIME_STAT.HOLDOVER = false ∧
        t.time.cmdAt = s.now ∧
        t.mem = s.mem ∧
        RegsBut [Reg.TIME_STAT, Reg.TIME_CMD, Reg.MAC_SCHEDOFS] s t) ∧
  (∀ (s : State), Core Reg.TIME_CMD s →
      s.time.valid = true →
      s.jumpTooFar (ntDiff (corr s) s.nt) = true →
      ∃ t, exec (.timeSet false) s = .next t ∧
        t.get TIME_CMD.RESULT = tmRefused ∧
        t.on TIME_IRQ.JUMPREF = true ∧
        t.get TIME_ERRCNT.JUMPREF = min (s.get TIME_ERRCNT.JUMPREF + 1) 0xFFFF ∧
        t.time = s.time ∧
        t.mem = s.mem ∧
        RegsBut [Reg.TIME_CMD, Reg.TIME_IRQ, Reg.TIME_ERRCNT] s t) ∧
  (∀ (s : State), Core Reg.TIME_CMD s →
      s.time.valid = true →
      s.jumpTooFar (signedOf 64 (corr s)) = true →
      ∃ t, exec (.timeStep false) s = .next t ∧
        t.get TIME_CMD.RESULT = tmRefused ∧
        t.on TIME_IRQ.JUMPREF = true ∧
        t.get TIME_ERRCNT.JUMPREF = min (s.get TIME_ERRCNT.JUMPREF + 1) 0xFFFF ∧
        t.time = s.time ∧
        t.mem = s.mem ∧
        RegsBut [Reg.TIME_CMD, Reg.TIME_IRQ, Reg.TIME_ERRCNT] s t) ∧
  (∀ (force : Bool) (s : State), Core Reg.TIME_CMD s →
      (∀ n : Fin 7, (s.time.cmp[n]).armed = false) →
      s.time.valid = true →
      force = true ∨ s.jumpTooFar (signedOf 64 (corr s)) = false →
      ∃ t, exec (.timeStep force) s = .next t ∧
        t.nt = (s.nt + corr s) % 2 ^ 64 ∧
        t.time.valid = true ∧
        t.get TIME_CMD.RESULT = tmOk ∧
        t.on TIME_STAT.SERVO = false ∧
        t.on TIME_STAT.HOLDOVER = false ∧
        t.time.cmdAt = s.now ∧
        t.mem = s.mem ∧
        RegsBut [Reg.TIME_STAT, Reg.TIME_CMD, Reg.MAC_SCHEDOFS] s t) ∧
  (∀ (c : Instr) (force : Bool) (s : State), Core Reg.TIME_CMD s →
      s.time.valid = false →
      c = .timeStep force ∨ (c = .timeSlew ∧ (signedOf 64 (corr s)).natAbs ≤ 2 ^ 32) ∨ (c = .timeRate ∧ (signedOf 32 (corr s)).natAbs ≤ 549755813) →
      ∃ t, exec (c) s = .next t ∧
        t.get TIME_CMD.RESULT = tmInvalid ∧
        t.time = s.time ∧
        t.mem = s.mem ∧
        RegsBut [Reg.TIME_CMD] s t) ∧
  (∀ (s : State), Core Reg.TIME_CMD s →
      s.time.valid = true →
      (signedOf 64 (corr s)).natAbs ≤ 2 ^ 32 →
      ∃ t, exec (.timeSlew) s = .next t ∧
        t.nt = s.nt ∧
        t.slewLeft = s.slewLeft + signedOf 64 (corr s) * ntQ ∧
        t.time.sl = (if 0 < s.slewLeft + signedOf 64 (corr s) * ntQ then s.slewMax else if s.slewLeft + signedOf 64 (corr s) * ntQ < 0 then -s.slewMax else 0) ∧
        t.get TIME_CMD.RESULT = tmOk ∧
        t.on TIME_STAT.SERVO = false ∧
        t.on TIME_STAT.HOLDOVER = false ∧
        t.mem = s.mem ∧
        RegsBut [Reg.TIME_STAT, Reg.TIME_CMD] s t) ∧
  (∀ (s : State), Core Reg.TIME_CMD s →
      s.time.valid = true →
      (signedOf 32 (corr s)).natAbs ≤ 549755813 →
      ∃ t, exec (.timeRate) s = .next t ∧
        t.nt = s.nt ∧
        t.slewLeft = s.slewLeft ∧
        t.getI TIME_ADJ.ADJ = signedOf 32 (corr s) ∧
        t.get TIME_CMD.RESULT = tmOk ∧
        t.on TIME_STAT.SERVO = false ∧
        t.on TIME_STAT.HOLDOVER = false ∧
        t.mem = s.mem ∧
        RegsBut [Reg.TIME_STAT, Reg.TIME_CMD, Reg.TIME_ADJ] s t) ∧
  (∀ (c : Instr) (s : State), Core Reg.TIME_CMD s →
      (c = .timeSlew ∧ 2 ^ 32 < (signedOf 64 (corr s)).natAbs) ∨ (c = .timeRate ∧ 549755813 < (signedOf 32 (corr s)).natAbs) →
      ∃ t, exec (c) s = .next t ∧
        t.get TIME_CMD.RESULT = tmBadarg ∧
        t.time = s.time ∧
        t.mem = s.mem ∧
        RegsBut [Reg.TIME_CMD] s t) ∧
  (∀ (s : State), Core Reg.TIME_CMD s →
      ∃ t, exec (.timeClear) s = .next t ∧
        t.time.valid = false ∧
        t.ntRead = 0 ∧
        t.time.sl = 0 ∧
        t.slewLeft = 0 ∧
        t.get TIME_CMD.RESULT = tmOk ∧
        t.on TIME_STAT.SERVO = false ∧
        t.on TIME_STAT.HOLDOVER = false ∧
        t.on SYSC_TICKSTAT.FREE = true ∧
        t.mem = s.mem ∧
        RegsBut [Reg.TIME_STAT, Reg.TIME_CMD, Reg.SYSC_TICKSTAT] s t) ∧
  (∀ (s : State), Core Reg.TIME_CMD s →
      ∃ t, exec (.timeAccept) s = .next t ∧
        t.time = { s.time with accept := true } ∧
        t.get TIME_CMD.RESULT = tmOk ∧
        t.mem = s.mem ∧
        RegsBut [Reg.TIME_CMD] s t) ∧
  (∀ (s : State), s.time.sl ≠ 0 →
      s.slewLeft = 0 →
      ∃ t, exec (.slewEnd) s = .next t ∧
        t.time.sl = 0 ∧
        t.slewLeft = 0 ∧
        t.ntExact = s.ntExact ∧
        t.mem = s.mem ∧
        t.regs = s.regs) ∧
  (∀ (s : State), s.time.sl = 0 ∨ s.slewLeft ≠ 0 →
      ∃ t, exec (.slewEnd) s = .next t ∧
        t = s)

/-- Measurements, the servo, compare units and captures. PPS_MEASUREMENT, SERVO_TAKEOVER, SOURCE_LOSS, HOLDOVER, COMPARE_MATCH, PULSE_END, CAPTURE, CAPTURE_POP, CAPCFG_WRITE, NOW_READ and UTC_OFFSET_CHANGE; writes and reads as the bus takes them. (1) A PPS edge with the CORE clocks running, no capture unit on and the servo inactive or time not valid delivers its measurement: X, MEAS, its instant; network time, memory and every register but TIME_MEAS, TIME_IRQ and TIME_STAT stay. (2) With the servo active, PPS allowed and ACCEPT waiting, and no compare unit armed, network time jumps by minus the measurement and ACCEPT is spent. (3) Without ACCEPT a measurement beyond JUMPMAX is refused, counted and flagged. (4) One within it, after an earlier one used, sets the integral and ADJ by the servo's law and clears HOLDOVER, without a jump. (5) With the clocks standing nothing changes. (6) SERVO_TAKEOVER with the servo enabled and inactive, valid time, a source, and TAKEOVER seconds since the last command starts the servo at the present ADJ; all else stays. (7) Else it changes nothing. (8) SOURCE_LOSS shows the selected source and flags a change; all else stays. (9) HOLDOVER with valid time HOLD seconds after the last update sets HOLDOVER, flagged; all else stays. (10) Else it changes nothing. (11) COMPARE_MATCH of a due one-shot unit with SET, CLEAR or TOGGLE on a pin and no scan, timer or event-matrix line disarms it, moves the pin, counts and flags it; network time, memory and every register but its TIME_CSTAT and TIME_IRQ stay. (12) With PULSE the pin rises and its fall is due PW later. (13) Without a pin no pin moves. (14) A due periodic unit stays armed, its target moved by whole periods to one later than now. (15) A unit not due does not match and nothing changes. (16) PULSE_END of a pin whose pulse has run its width lowers it; registers and memory stay. (17) Else nothing changes. (18) CAPTURE of an edge that one enabled unit takes, 8 ns after its last, puts count and network time into its queue and flags it; network time, memory and every register but the unit's and TIME_IRQ stay. (19) With four entries waiting it is dropped: OVF, CAPOVF counted and flagged. (20) An edge that no unit takes, or with the clocks standing, changes nothing. (21) CAPTURE_POP removes the head of the queue and shows the next; all else stays. (22) Of an empty queue it changes nothing. (23) CAPCFG_WRITE that changes SRC or EDGE empties the unit's queue; memory and every register but the unit's stay. (24) One that changes neither, without POP, keeps the queue. (25) NOW_READ latches the high word of network time for the master and the count for TIME_NOWC; all else stays. (26) UTC_OFFSET_CHANGE at the announced instant of valid time puts the new offset in force; all else stays. (27) Before it, or with none announced, nothing changes. -/
def Obligations.ServoAndTriggers : Prop :=
  (∀ (s : State), s.clocked = true →
      (∀ n : Fin 8, s.on (TIME_CAPCFG.EN n) = false) →
      s.on TIME_STAT.SERVO = false ∨ s.time.valid = false →
      ∃ t, exec (.ppsMeasurement) s = .next t ∧
        t.getI (TIME_MEAS.X 0) = clampInt (-(2 ^ 31 - 1)) (2 ^ 31 - 1) (ppsX s) ∧
        t.on TIME_IRQ.MEAS = true ∧
        lastOf t.time.measAt 0 = some s.now ∧
        t.nt = s.nt ∧
        t.mem = s.mem ∧
        RegsBut [Reg.TIME_MEAS 0, Reg.TIME_IRQ, Reg.TIME_STAT] s t) ∧
  (∀ (s : State), s.clocked = true →
      (∀ n : Fin 8, s.on (TIME_CAPCFG.EN n) = false) →
      s.on TIME_STAT.SERVO = true →
      s.time.valid = true →
      s.on TIME_SRVCFG.PPS = true →
      s.time.accept = true →
      (∀ n : Fin 7, (s.time.cmp[n]).armed = false) →
      ∃ t, exec (.ppsMeasurement) s = .next t ∧
        t.getI (TIME_MEAS.X 0) = clampInt (-(2 ^ 31 - 1)) (2 ^ 31 - 1) (ppsX s) ∧
        t.on TIME_IRQ.MEAS = true ∧
        lastOf t.time.measAt 0 = some s.now ∧
        t.ntExact = s.ntExact - ppsX s * (2 ^ 32 * 64000000) ∧
        t.time.accept = false ∧
        t.get TIME_STAT.SRC = 1 ∧
        t.mem = s.mem) ∧
  (∀ (s : State), s.clocked = true →
      (∀ n : Fin 8, s.on (TIME_CAPCFG.EN n) = false) →
      s.on TIME_STAT.SERVO = true →
      s.time.valid = true →
      s.on TIME_SRVCFG.PPS = true →
      s.time.accept = false →
      s.get TIME_JUMPMAX.MAX < (ppsX s).natAbs →
      ∃ t, exec (.ppsMeasurement) s = .next t ∧
        t.getI (TIME_MEAS.X 0) = clampInt (-(2 ^ 31 - 1)) (2 ^ 31 - 1) (ppsX s) ∧
        t.on TIME_IRQ.MEAS = true ∧
        lastOf t.time.measAt 0 = some s.now ∧
        t.on TIME_IRQ.JUMPREF = true ∧
        t.get TIME_ERRCNT.JUMPREF = min (s.get TIME_ERRCNT.JUMPREF + 1) 0xFFFF ∧
        t.ntExact = s.ntExact ∧
        t.get TIME_STAT.SRC = 1 ∧
        t.mem = s.mem ∧
        RegsBut [Reg.TIME_MEAS 0, Reg.TIME_IRQ, Reg.TIME_STAT, Reg.TIME_ERRCNT] s t) ∧
  (∀ (u : Nat) (s : State), s.clocked = true →
      (∀ n : Fin 8, s.on (TIME_CAPCFG.EN n) = false) →
      s.on TIME_STAT.SERVO = true →
      s.time.valid = true →
      s.on TIME_SRVCFG.PPS = true →
      s.time.accept = false →
      (ppsX s).natAbs ≤ s.get TIME_JUMPMAX.MAX →
      lastOf s.time.usedAt 0 = some u →
      ∃ t, exec (.ppsMeasurement) s = .next t ∧
        t.getI (TIME_MEAS.X 0) = clampInt (-(2 ^ 31 - 1)) (2 ^ 31 - 1) (ppsX s) ∧
        t.on TIME_IRQ.MEAS = true ∧
        lastOf t.time.measAt 0 = some s.now ∧
        t.time.integ = (clampInt (-(1099512 * (max 1 (min 100 (s.get TIME_SRVLIM.RLIM)) : Nat))) (1099512 * (max 1 (min 100 (s.get TIME_SRVLIM.RLIM)) : Nat)) (s.time.integ - (roundDiv (2 ^ 40 * ppsX s) (clampInt 1000000 16000000000 (4 * ((s.now : Int) - u)))).fdiv (2 ^ s.get TIME_SRVCFG.KISH))) ∧
        t.getI TIME_ADJ.ADJ = clampInt (-(1099512 * (max 1 (min 100 (s.get TIME_SRVLIM.RLIM)) : Nat))) (1099512 * (max 1 (min 100 (s.get TIME_SRVLIM.RLIM)) : Nat)) ((clampInt (-(1099512 * (max 1 (min 100 (s.get TIME_SRVLIM.RLIM)) : Nat))) (1099512 * (max 1 (min 100 (s.get TIME_SRVLIM.RLIM)) : Nat)) (s.time.integ - (roundDiv (2 ^ 40 * ppsX s) (clampInt 1000000 16000000000 (4 * ((s.now : Int) - u)))).fdiv (2 ^ s.get TIME_SRVCFG.KISH))) - (roundDiv (2 ^ 40 * ppsX s) (clampInt 1000000 16000000000 (4 * ((s.now : Int) - u)))).fdiv (2 ^ s.get TIME_SRVCFG.KPSH)) ∧
        lastOf t.time.usedAt 0 = some s.now ∧
        t.nt = s.nt ∧
        t.get TIME_STAT.SRC = 1 ∧
        t.on TIME_STAT.HOLDOVER = false ∧
        t.mem = s.mem ∧
        RegsBut [Reg.TIME_MEAS 0, Reg.TIME_IRQ, Reg.TIME_STAT, Reg.TIME_ADJ] s t) ∧
  (∀ (s : State), s.clocked = false →
      ∃ t, exec (.ppsMeasurement) s = .next t ∧
        t = s) ∧
  (∀ (s : State), (s.on TIME_SRVCFG.EN && s.time.valid && s.get TIME_STAT.SRC != 0 && !(s.on TIME_STAT.SERVO) && decide (s.time.cmdAt + secCounts (max 1 (s.get TIME_SRVCFG.TAKEOVER)) ≤ s.now)) = true →
      ∃ t, exec (.servoTakeover) s = .next t ∧
        t.on TIME_STAT.SERVO = true ∧
        t.on TIME_IRQ.TAKEOVER = true ∧
        t.time = { s.time with integ := s.getI TIME_ADJ.ADJ } ∧
        t.mem = s.mem ∧
        RegsBut [Reg.TIME_STAT, Reg.TIME_IRQ] s t) ∧
  (∀ (s : State), (s.on TIME_SRVCFG.EN && s.time.valid && s.get TIME_STAT.SRC != 0 && !(s.on TIME_STAT.SERVO) && decide (s.time.cmdAt + secCounts (max 1 (s.get TIME_SRVCFG.TAKEOVER)) ≤ s.now)) = false →
      ∃ t, exec (.servoTakeover) s = .next t ∧
        t = s) ∧
  (∀ (s : State), ∃ t, exec (.sourceLoss) s = .next t ∧
        t.get TIME_STAT.SRC = s.selSource ∧
        t.on TIME_IRQ.SRCCHG = (s.on TIME_IRQ.SRCCHG || s.selSource != s.get TIME_STAT.SRC) ∧
        t.time = s.time ∧
        t.mem = s.mem ∧
        RegsBut [Reg.TIME_STAT, Reg.TIME_IRQ] s t) ∧
  (∀ (s : State), (s.time.valid && !(s.on TIME_STAT.HOLDOVER) && decide (s.time.updAt + secCounts (max 1 (s.get TIME_SRVLIM.HOLD)) ≤ s.now)) = true →
      ∃ t, exec (.timeHoldover) s = .next t ∧
        t.on TIME_STAT.HOLDOVER = true ∧
        t.on TIME_IRQ.HOLDOVER = true ∧
        t.time = s.time ∧
        t.mem = s.mem ∧
        RegsBut [Reg.TIME_STAT, Reg.TIME_IRQ] s t) ∧
  (∀ (s : State), (s.time.valid && !(s.on TIME_STAT.HOLDOVER) && decide (s.time.updAt + secCounts (max 1 (s.get TIME_SRVLIM.HOLD)) ≤ s.now)) = false →
      ∃ t, exec (.timeHoldover) s = .next t ∧
        t = s) ∧
  (∀ (n : Fin 7) (s : State), s.cmpDue n = true →
      s.cc n TIME_CCTL.PERIODIC = 0 →
      s.cc n TIME_CCTL.MSU = 0 →
      s.cc n TIME_CCTL.TMR = 0 →
      Unrouted (0x30 + n.val) s →
      1 ≤ s.cc n TIME_CCTL.PIN →
      s.cc n TIME_CCTL.PIN ≤ 5 →
      s.cc n TIME_CCTL.ACT ≤ 2 →
      ∃ t, exec (.compareMatch n) s = .next t ∧
        (t.time.cmp[n]).armed = false ∧
        t.trigPin (s.cc n TIME_CCTL.PIN) = (s.cc n TIME_CCTL.ACT == 0 || (s.cc n TIME_CCTL.ACT == 2 && !(s.trigPin (s.cc n TIME_CCTL.PIN)))) ∧
        t.on (TIME_CSTAT.ARMED n) = false ∧
        t.get (TIME_CSTAT.FIRED n) = min (s.get (TIME_CSTAT.FIRED n) + 1) 0xFFFF ∧
        t.on (TIME_CSTAT.LATE n) = s.on (TIME_CSTAT.LATE n) ∧
        (t.reg Reg.TIME_IRQ).getLsbD n.val = ((s.reg Reg.TIME_IRQ).getLsbD n.val || s.cc n TIME_CCTL.IRQ == 1) ∧
        t.nt = s.nt ∧
        t.mem = s.mem ∧
        RegsBut [Reg.TIME_CSTAT n, Reg.TIME_IRQ] s t) ∧
  (∀ (n : Fin 7) (s : State), s.cmpDue n = true →
      s.cc n TIME_CCTL.PERIODIC = 0 →
      s.cc n TIME_CCTL.MSU = 0 →
      s.cc n TIME_CCTL.TMR = 0 →
      Unrouted (0x30 + n.val) s →
      1 ≤ s.cc n TIME_CCTL.PIN →
      s.cc n TIME_CCTL.PIN ≤ 5 →
      s.cc n TIME_CCTL.ACT = 3 →
      ∃ t, exec (.compareMatch n) s = .next t ∧
        (t.time.cmp[n]).armed = false ∧
        t.trigPin (s.cc n TIME_CCTL.PIN) = true ∧
        t.time.pulses.head? = some ⟨s.cc n TIME_CCTL.PIN, s.now + s.pulseWidth n⟩ ∧
        t.get (TIME_CSTAT.FIRED n) = min (s.get (TIME_CSTAT.FIRED n) + 1) 0xFFFF ∧
        t.on (TIME_CSTAT.LATE n) = s.on (TIME_CSTAT.LATE n) ∧
        t.nt = s.nt ∧
        t.mem = s.mem ∧
        RegsBut [Reg.TIME_CSTAT n, Reg.TIME_IRQ] s t) ∧
  (∀ (n : Fin 7) (s : State), s.cmpDue n = true →
      s.cc n TIME_CCTL.PERIODIC = 0 →
      s.cc n TIME_CCTL.MSU = 0 →
      s.cc n TIME_CCTL.TMR = 0 →
      Unrouted (0x30 + n.val) s →
      s.cc n TIME_CCTL.PIN = 0 →
      ∃ t, exec (.compareMatch n) s = .next t ∧
        (t.time.cmp[n]).armed = false ∧
        t.pins = s.pins ∧
        t.time.pulses = s.time.pulses ∧
        t.get (TIME_CSTAT.FIRED n) = min (s.get (TIME_CSTAT.FIRED n) + 1) 0xFFFF ∧
        t.on (TIME_CSTAT.LATE n) = s.on (TIME_CSTAT.LATE n) ∧
        t.nt = s.nt ∧
        t.mem = s.mem ∧
        RegsBut [Reg.TIME_CSTAT n, Reg.TIME_IRQ] s t) ∧
  (∀ (n : Fin 7) (s : State), s.cmpDue n = true →
      s.cc n TIME_CCTL.PERIODIC = 1 →
      0 < (s.time.cmp[n]).period →
      (s.time.cmp[n]).period < 2 ^ 64 →
      s.cc n TIME_CCTL.MSU = 0 →
      s.cc n TIME_CCTL.TMR = 0 →
      Unrouted (0x30 + n.val) s →
      ∃ t, exec (.compareMatch n) s = .next t ∧
        (t.time.cmp[n]).armed = true ∧
        (t.time.cmp[n]).period = (s.time.cmp[n]).period ∧
        t.cmpDiff n < 0 ∧
        t.get (TIME_CSTAT.FIRED n) = min (s.get (TIME_CSTAT.FIRED n) + 1) 0xFFFF ∧
        t.on (TIME_CSTAT.LATE n) = s.on (TIME_CSTAT.LATE n) ∧
        t.nt = s.nt ∧
        t.mem = s.mem ∧
        RegsBut [Reg.TIME_CSTAT n, Reg.TIME_IRQ] s t ∧
        (∃ k, (t.time.cmp[n]).target = ((s.time.cmp[n]).target + (k + 1) * (s.time.cmp[n]).period) % 2 ^ 80)) ∧
  (∀ (n : Fin 7) (s : State), s.cmpDue n = false →
      ∃ t, exec (.compareMatch n) s = .next t ∧
        t = s) ∧
  (∀ (pin : Fin 8) (s : State), 1 ≤ pin.val →
      pin.val ≤ 5 →
      s.time.pulses.any (fun p => p.pin = pin.val && decide (p.endsAt ≤ s.now)) = true →
      ∃ t, exec (.pulseEnd pin) s = .next t ∧
        t.trigPin pin = false ∧
        t.time = { s.time with pulses := s.time.pulses.filter (fun p => p.pin ≠ pin.val) } ∧
        t.mem = s.mem ∧
        t.regs = s.regs) ∧
  (∀ (pin : Fin 8) (s : State), s.time.pulses.any (fun p => p.pin = pin.val && decide (p.endsAt ≤ s.now)) = false →
      ∃ t, exec (.pulseEnd pin) s = .next t ∧
        t = s) ∧
  (∀ (src : BitVec 8) (rising : Bool) (n : Fin 8) (s : State), s.clocked = true →
      src.toNat ≤ 1 ∨ 0x10 ≤ src.toNat ∧ src.toNat ≤ 0x27 →
      (src.toNat = 1 → s.msuOn = true) →
      s.on (TIME_CAPCFG.EN n) = true →
      s.get (TIME_CAPCFG.SRC n) = src.toNat →
      edgeTaken (s.get (TIME_CAPCFG.EDGE n)) rising = true →
      s.capFree n = true →
      (∀ k : Fin 8, k ≠ n → s.on (TIME_CAPCFG.EN k) = false ∨ s.get (TIME_CAPCFG.SRC k) ≠ src.toNat) →
      (s.time.caps[n]).length < 4 →
      ∃ t, exec (.timeCapture src rising) s = .next t ∧
        t.time.caps[n] = s.time.caps[n] ++ [⟨s.now, s.ntAt s.now, 0⟩] ∧
        t.get (TIME_CAPCFG.LEVEL n) = (s.time.caps[n]).length + 1 ∧
        (t.reg Reg.TIME_IRQ).getLsbD (8 + n.val) = true ∧
        t.nt = s.nt ∧
        t.mem = s.mem ∧
        RegsBut [Reg.TIME_CAPCFG n, Reg.TIME_CAPC_LO n, Reg.TIME_CAPC_HI n, Reg.TIME_CAPNT_LO n, Reg.TIME_CAPNT_HI n, Reg.TIME_IRQ] s t) ∧
  (∀ (src : BitVec 8) (rising : Bool) (n : Fin 8) (s : State), s.clocked = true →
      src.toNat ≤ 1 ∨ 0x10 ≤ src.toNat ∧ src.toNat ≤ 0x27 →
      (src.toNat = 1 → s.msuOn = true) →
      s.on (TIME_CAPCFG.EN n) = true →
      s.get (TIME_CAPCFG.SRC n) = src.toNat →
      edgeTaken (s.get (TIME_CAPCFG.EDGE n)) rising = true →
      s.capFree n = true →
      (∀ k : Fin 8, k ≠ n → s.on (TIME_CAPCFG.EN k) = false ∨ s.get (TIME_CAPCFG.SRC k) ≠ src.toNat) →
      4 ≤ (s.time.caps[n]).length →
      ∃ t, exec (.timeCapture src rising) s = .next t ∧
        t.time.caps = s.time.caps ∧
        t.on (TIME_CAPCFG.OVF n) = true ∧
        t.get TIME_ERRCNT.CAPOVF = min (s.get TIME_ERRCNT.CAPOVF + 1) 0xFFFF ∧
        t.on TIME_IRQ.CAPOVF = true ∧
        t.mem = s.mem ∧
        RegsBut [Reg.TIME_CAPCFG n, Reg.TIME_ERRCNT, Reg.TIME_IRQ] s t) ∧
  (∀ (src : BitVec 8) (rising : Bool) (s : State), (s.clocked = false ∨ ∀ k : Fin 8, (s.on (TIME_CAPCFG.EN k) && s.get (TIME_CAPCFG.SRC k) == src.toNat && edgeTaken (s.get (TIME_CAPCFG.EDGE k)) rising && s.capFree k) = false) →
      ∃ t, exec (.timeCapture src rising) s = .next t ∧
        t = s) ∧
  (∀ (n : Fin 8) (e : CapEntry) (q : List CapEntry) (s : State), Core (Reg.TIME_CAPCFG n) s →
      s.time.caps[n] = e :: q →
      q.length ≤ 3 →
      ∃ t, exec (.capturePop n) s = .next t ∧
        t.time = { s.time with caps := s.time.caps.set n q } ∧
        t.get (TIME_CAPCFG.LEVEL n) = q.length ∧
        t.reg (Reg.TIME_CAPC_LO n) = BitVec.ofNat 32 (q.head?.getD ⟨0, 0, 0⟩).count ∧
        t.mem = s.mem ∧
        RegsBut [Reg.TIME_CAPCFG n, Reg.TIME_CAPC_LO n, Reg.TIME_CAPC_HI n, Reg.TIME_CAPNT_LO n, Reg.TIME_CAPNT_HI n] s t) ∧
  (∀ (n : Fin 8) (s : State), Core (Reg.TIME_CAPCFG n) s →
      s.time.caps[n] = [] →
      ∃ t, exec (.capturePop n) s = .next t ∧
        t = s) ∧
  (∀ (n : Fin 8) (d : Word) (s : State), Core (Reg.TIME_CAPCFG n) s →
      (TIME_CAPCFG.SRC n).of d ≠ s.get (TIME_CAPCFG.SRC n) ∨ (TIME_CAPCFG.EDGE n).of d ≠ s.get (TIME_CAPCFG.EDGE n) →
      ∃ t, exec (.capcfgWrite n d) s = .next t ∧
        t.time.caps[n] = [] ∧
        t.get (TIME_CAPCFG.SRC n) = (TIME_CAPCFG.SRC n).of d ∧
        t.get (TIME_CAPCFG.EDGE n) = (TIME_CAPCFG.EDGE n).of d ∧
        t.get (TIME_CAPCFG.LEVEL n) = 0 ∧
        t.mem = s.mem ∧
        RegsBut [Reg.TIME_CAPCFG n, Reg.TIME_CAPC_LO n, Reg.TIME_CAPC_HI n, Reg.TIME_CAPNT_LO n, Reg.TIME_CAPNT_HI n] s t) ∧
  (∀ (n : Fin 8) (d : Word) (s : State), Core (Reg.TIME_CAPCFG n) s →
      (TIME_CAPCFG.SRC n).of d = s.get (TIME_CAPCFG.SRC n) →
      (TIME_CAPCFG.EDGE n).of d = s.get (TIME_CAPCFG.EDGE n) →
      d.getLsbD 30 = false →
      ∃ t, exec (.capcfgWrite n d) s = .next t ∧
        t.time = s.time ∧
        t.get (TIME_CAPCFG.EN n) = (TIME_CAPCFG.EN n).of d ∧
        t.mem = s.mem ∧
        RegsBut [Reg.TIME_CAPCFG n] s t) ∧
  (∀ (m : Master) (s : State), busRefusal s ⟨m, Reg.TIME_NOW_LO, .b32, false⟩ = none →
      ∃ t, exec (.nowRead m) s = .next t ∧
        t.time = { s.time with nowc := s.now } ∧
        Sparse.get (fun _ => 0#32) t.bus.readHold (holdKey m Reg.TIME_NOW_LO) = BitVec.ofNat 32 (s.ntRead / 2 ^ 32) ∧
        t.mem = s.mem ∧
        t.regs = s.regs) ∧
  (∀ (s : State), (s.time.utcAt ≠ 0 ∧ s.time.valid = true ∧ 0 ≤ ntDiff s.nt s.time.utcAt) →
      ∃ t, exec (.utcOffsetChange) s = .next t ∧
        t.time = { s.time with utc := s.time.utcNew, utcAt := 0 } ∧
        t.mem = s.mem ∧
        t.regs = s.regs) ∧
  (∀ (s : State), ¬ (s.time.utcAt ≠ 0 ∧ s.time.valid = true ∧ 0 ≤ ntDiff s.nt s.time.utcAt) →
      ∃ t, exec (.utcOffsetChange) s = .next t ∧
        t = s)

/-- The real-time clock's count, calendar and synchronisation. RTC_SEC_WRITE, RTC_COUNT_LOAD, RTC_CALD_WRITE, RTC_CALT_WRITE, SYNCNT, RTC_SYNC_LOAD, LEGACY_FREEZE_READ, FREEZE_TIMEOUT and RTC_COUNT_WRAP; writes and reads as the bus takes them. Memory and every register not named stay. (1) RTC_SEC_WRITE waits for its edge and ends a freeze; the count goes on. (2) RTC_COUNT_LOAD of a write that waits loads SEC with FRAC 0, drops a held date and a freeze and clears PWRLOST; with no alarm armed, one already due or one still ahead nothing else happens. (3) One that passes an armed alarm's target fires it late, and wakes the part when the alarm may. (4) With none waiting it changes nothing. (5) RTC_CALD_WRITE is held. (6) RTC_CALT_WRITE that completes a date in range, with the held date or else the present one, waits for its edge with CALOFS added. (7) One out of range sets BADDATE and leaves the clock. (8) SYNCNT with valid time arms the synchronisation. (9) Without it sets NOSYNC. (10) RTC_SYNC_LOAD of an armed synchronisation with valid time and no alarm armed loads network time's second with FRAC 0 and sets SYNC. (11) Unarmed, or with time not valid, it changes nothing. (12) In LEGACY mode a read of RTC_SEC, RTC_FRAC or RTC_CALT freezes the four views at the present count, unless they are frozen. (13) A read of RTC_CALD there ends the freeze. (14) Outside LEGACY mode a read freezes nothing. (15) FREEZE_TIMEOUT 2 ms after the freeze began ends it with FRZTO. (16) Sooner, or with no freeze, it changes nothing. (17) RTC_COUNT_WRAP of a count at 2^32 s takes it modulo 2^32 s and sets WRAP; the periodic accumulator goes on. (18) Below it changes nothing. -/
def Obligations.ClockRows : Prop :=
  (∀ (v : Word) (s : State), Core Reg.RTC_SEC s →
      ∃ t, exec (.rtcSecWrite v) s = .next t ∧
        t.rtc = { s.rtc with load := some v, freeze := none } ∧
        t.rtcRaw = s.rtcRaw ∧
        t.mem = s.mem ∧
        t.regs = s.regs) ∧
  (∀ (v : Word) (s : State), s.rtc.load = some v →
      s.on RTC_ALMCTL.EN = false ∨ s.rtcTarget ≤ s.rtcFracs ∨ v.toNat * 2 ^ 15 < s.rtcTarget →
      ∃ t, exec (.rtcCountLoad) s = .next t ∧
        t.rtcSec = v.toNat ∧
        t.rtcFrac = 0 ∧
        t.rtc.load = none ∧
        t.rtc.held = none ∧
        t.rtc.freeze = none ∧
        t.on RTC_STAT.PWRLOST = false ∧
        t.power = s.power ∧
        t.mem = s.mem ∧
        RegsBut [Reg.RTC_STAT] s t) ∧
  (∀ (v : Word) (s : State), s.rtc.load = some v →
      s.on RTC_ALMCTL.EN = true →
      s.rtcFracs < s.rtcTarget →
      s.rtcTarget ≤ v.toNat * 2 ^ 15 →
      ∃ t, exec (.rtcCountLoad) s = .next t ∧
        t.rtcSec = v.toNat ∧
        t.rtcFrac = 0 ∧
        t.rtc.load = none ∧
        t.rtc.held = none ∧
        t.rtc.freeze = none ∧
        t.on RTC_STAT.PWRLOST = false ∧
        t.on RTC_ALMCTL.EN = false ∧
        t.on RTC_ALMCTL.LATE = true ∧
        t.on RTC_IRQ.ALM = true ∧
        t.on RTC_IRQ.ALMLATE = true ∧
        t.power.st = (if s.wakeEnabled .rtcAlm then (match s.power.st with | .sleep => .waking .sleep | .deepSleep => .waking .deepSleep | x => x) else s.power.st) ∧
        t.mem = s.mem ∧
        RegsBut [Reg.RTC_STAT, Reg.RTC_ALMCTL, Reg.RTC_IRQ, Reg.SYSC_WAKESRC, Reg.SYSC_LPSTAT] s t) ∧
  (∀ (s : State), s.rtc.load = none →
      ∃ t, exec (.rtcCountLoad) s = .next t ∧
        t = s) ∧
  (∀ (d : Word) (s : State), Core Reg.RTC_CALD s →
      ∃ t, exec (.rtcCaldWrite d) s = .next t ∧
        t.rtc = { s.rtc with held := some d } ∧
        t.mem = s.mem ∧
        t.regs = s.regs) ∧
  (∀ (tm : Word) (v : Nat) (sec : Word) (s : State), Core Reg.RTC_CALT s →
      calValue (s.rtc.held.getD s.cald) tm = some v →
      (sec.toNat : Int) = (v : Int) + s.getI RTC_CALOFS.OFS →
      ∃ t, exec (.rtcCaltWrite tm) s = .next t ∧
        t.rtc = { s.rtc with load := some sec, freeze := none } ∧
        t.mem = s.mem ∧
        t.regs = s.regs) ∧
  (∀ (tm : Word) (s : State), Core Reg.RTC_CALT s →
      (calValue (s.rtc.held.getD s.cald) tm).all (fun v => decide ((v : Int) + s.getI RTC_CALOFS.OFS < 0) || decide (2 ^ 32 ≤ (v : Int) + s.getI RTC_CALOFS.OFS)) = true →
      ∃ t, exec (.rtcCaltWrite tm) s = .next t ∧
        t.on RTC_STAT.BADDATE = true ∧
        t.on RTC_IRQ.BADDATE = true ∧
        t.rtc = s.rtc ∧
        t.mem = s.mem ∧
        RegsBut [Reg.RTC_STAT, Reg.RTC_IRQ] s t) ∧
  (∀ (s : State), Core Reg.RTC_CMD s →
      s.time.valid = true →
      ∃ t, exec (.syncnt) s = .next t ∧
        t.rtc = { s.rtc with sync := true } ∧
        t.mem = s.mem ∧
        t.regs = s.regs) ∧
  (∀ (s : State), Core Reg.RTC_CMD s →
      s.time.valid = false →
      ∃ t, exec (.syncnt) s = .next t ∧
        t.on RTC_STAT.NOSYNC = true ∧
        t.rtc = s.rtc ∧
        t.mem = s.mem ∧
        RegsBut [Reg.RTC_STAT] s t) ∧
  (∀ (s : State), s.rtc.sync = true →
      s.time.valid = true →
      s.on RTC_ALMCTL.EN = false →
      ∃ t, exec (.rtcSyncLoad) s = .next t ∧
        t.rtcSec = s.nt / 2 ^ 32 ∧
        t.rtcFrac = 0 ∧
        t.rtc.sync = false ∧
        t.on RTC_IRQ.SYNC = true ∧
        t.on RTC_STAT.PWRLOST = false ∧
        t.mem = s.mem ∧
        RegsBut [Reg.RTC_STAT, Reg.RTC_IRQ] s t) ∧
  (∀ (s : State), s.rtc.sync = false ∨ s.time.valid = false →
      ∃ t, exec (.rtcSyncLoad) s = .next t ∧
        t = s) ∧
  (∀ (addr : Word) (s : State), TakesRead .coreData addr.toNat s →
      s.on RTC_CFG.LEGACY = true →
      addr ∈ [BitVec.ofNat 32 Reg.RTC_SEC, BitVec.ofNat 32 Reg.RTC_FRAC, BitVec.ofNat 32 Reg.RTC_CALT] →
      ∃ t, exec (.legacyFreezeRead addr) s = .next t ∧
        t.rtc = { s.rtc with freeze := some (s.rtc.freeze.getD ⟨BitVec.ofNat 32 s.rtcSec, BitVec.ofNat 32 s.rtcFrac, s.calt, s.cald, s.now⟩) } ∧
        t.mem = s.mem ∧
        t.regs = s.regs) ∧
  (∀ (s : State), TakesRead .coreData Reg.RTC_CALD s →
      s.on RTC_CFG.LEGACY = true →
      ∃ t, exec (.legacyFreezeRead (BitVec.ofNat 32 Reg.RTC_CALD)) s = .next t ∧
        t.rtc = { s.rtc with freeze := none } ∧
        t.mem = s.mem ∧
        t.regs = s.regs) ∧
  (∀ (addr : Word) (s : State), TakesRead .coreData addr.toNat s →
      s.on RTC_CFG.LEGACY = false →
      ∃ t, exec (.legacyFreezeRead addr) s = .next t ∧
        t.rtc = s.rtc ∧
        t.mem = s.mem ∧
        t.regs = s.regs) ∧
  (∀ (f : Freeze) (s : State), s.rtc.freeze = some f →
      f.since + us 2000 ≤ s.now →
      ∃ t, exec (.freezeTimeout) s = .next t ∧
        t.rtc = { s.rtc with freeze := none } ∧
        t.on RTC_STAT.FRZTO = true ∧
        t.on RTC_IRQ.FRZTO = true ∧
        t.mem = s.mem ∧
        RegsBut [Reg.RTC_STAT, Reg.RTC_IRQ] s t) ∧
  (∀ (s : State), s.rtc.freeze.all (fun f => decide (s.now < f.since + us 2000)) = true →
      ∃ t, exec (.freezeTimeout) s = .next t ∧
        t = s) ∧
  (∀ (s : State), 2 ^ 71 ≤ s.rtcRaw →
      ∃ t, exec (.rtcCountWrap) s = .next t ∧
        t.rtcRaw = s.rtcRaw % 2 ^ 71 ∧
        t.perRaw = s.perRaw ∧
        t.on RTC_STAT.WRAP = true ∧
        t.mem = s.mem ∧
        RegsBut [Reg.RTC_STAT] s t) ∧
  (∀ (s : State), s.rtcRaw < 2 ^ 71 →
      ∃ t, exec (.rtcCountWrap) s = .next t ∧
        t = s)

/-- Alarm, periodic wake, trim, backup and charger. ALARM_ARM, RTC_ALARM, PERIODIC_RESTART, PERIODIC_WAKE, TRIM_WINDOW, BACKUP_CHECK and CHARGER_WRITE; writes as the bus takes them. Memory and every register not named stay. (1) A write of RTC_ALMCTL with EN = 1 arms, clears LATE and notes whether the count is at or past the target. (2) With EN = 0 it disarms. (3) A write of RTC_ALMSEC while disarmed takes the target. (4) While armed it arms anew. (5) RTC_ALARM of an armed alarm at or past its target disarms it, sets ALM, shows LATE when it was past at arming, and wakes the part when it may; the count goes on. (6) Else it changes nothing. (7) PERIODIC_RESTART with EN = 1 restarts the accumulator from 0; the count goes on. (8) With EN = 0 it stops. (9) PERIODIC_WAKE when the accumulator has reached N ticks, with no event-matrix line on it, sets PER, keeps what lies over, and wakes the part when it may. (10) Else it changes nothing. (11) TRIM_WINDOW of a good mains window shows its error E and moves TRIM against it, shifted and within MAXSTEP, saturated at ±4,295 with TRIMSAT; it is counted and the count goes on. (12) That of a good network window of 2^NETPER s likewise, and the next begins. (13) A mains window that is bad, empty or of the RC clock is discarded. (14) A network window that is none, spoilt or of the RC clock is discarded and the next begins. (15) With no window of the selected source, or no source, nothing changes. (16) BACKUP_CHECK while VBAT feeds the section shows the comparison in BKLOW. (17) On backup it changes nothing. (18) CHARGER_WRITE takes EN, RSEL and VSEL when its upper byte is 0xA5, else nothing. -/
def Obligations.AlarmsAndTrim : Prop :=
  (∀ (d : Word) (s : State), Core Reg.RTC_ALMCTL s →
      RTC_ALMCTL.EN.of d = 1 →
      ∃ t, exec (.alarmArm true d) s = .next t ∧
        t.on RTC_ALMCTL.EN = true ∧
        t.on RTC_ALMCTL.LATE = false ∧
        t.get RTC_ALMCTL.FRAC = RTC_ALMCTL.FRAC.of d ∧
        t.rtc = { s.rtc with armedLate := decide (t.rtcTarget ≤ t.rtcFracs) } ∧
        t.mem = s.mem ∧
        RegsBut [Reg.RTC_ALMCTL] s t) ∧
  (∀ (d : Word) (s : State), Core Reg.RTC_ALMCTL s →
      RTC_ALMCTL.EN.of d = 0 →
      ∃ t, exec (.alarmArm true d) s = .next t ∧
        t.on RTC_ALMCTL.EN = false ∧
        t.get RTC_ALMCTL.FRAC = RTC_ALMCTL.FRAC.of d ∧
        t.rtc = s.rtc ∧
        t.mem = s.mem ∧
        RegsBut [Reg.RTC_ALMCTL] s t) ∧
  (∀ (d : Word) (s : State), Core Reg.RTC_ALMSEC s →
      s.on RTC_ALMCTL.EN = false →
      ∃ t, exec (.alarmArm false d) s = .next t ∧
        t.reg Reg.RTC_ALMSEC = d ∧
        t.rtc = s.rtc ∧
        t.mem = s.mem ∧
        RegsBut [Reg.RTC_ALMSEC] s t) ∧
  (∀ (d : Word) (s : State), Core Reg.RTC_ALMSEC s →
      s.on RTC_ALMCTL.EN = true →
      ∃ t, exec (.alarmArm false d) s = .next t ∧
        t.reg Reg.RTC_ALMSEC = d ∧
        t.on RTC_ALMCTL.EN = true ∧
        t.on RTC_ALMCTL.LATE = false ∧
        t.rtc = { s.rtc with armedLate := decide (t.rtcTarget ≤ t.rtcFracs) } ∧
        t.mem = s.mem ∧
        RegsBut [Reg.RTC_ALMSEC, Reg.RTC_ALMCTL] s t) ∧
  (∀ (s : State), s.on RTC_ALMCTL.EN = true →
      s.rtcTarget ≤ s.rtcFracs →
      ∃ t, exec (.rtcAlarm) s = .next t ∧
        t.on RTC_ALMCTL.EN = false ∧
        t.on RTC_IRQ.ALM = true ∧
        t.on RTC_ALMCTL.LATE = s.rtc.armedLate ∧
        t.on RTC_IRQ.ALMLATE = (s.rtc.armedLate || s.on RTC_IRQ.ALMLATE) ∧
        t.rtcRaw = s.rtcRaw ∧
        t.power.st = (if s.wakeEnabled .rtcAlm then (match s.power.st with | .sleep => .waking .sleep | .deepSleep => .waking .deepSleep | x => x) else s.power.st) ∧
        t.mem = s.mem ∧
        RegsBut [Reg.RTC_ALMCTL, Reg.RTC_IRQ, Reg.SYSC_WAKESRC, Reg.SYSC_LPSTAT] s t) ∧
  (∀ (s : State), s.on RTC_ALMCTL.EN = false ∨ s.rtcFracs < s.rtcTarget →
      ∃ t, exec (.rtcAlarm) s = .next t ∧
        t = s) ∧
  (∀ (d : Word) (s : State), Core Reg.RTC_PER s →
      RTC_PER.EN.of d = 1 →
      ∃ t, exec (.periodicRestart d) s = .next t ∧
        t.on RTC_PER.EN = true ∧
        t.get RTC_PER.NM1 = RTC_PER.NM1.of d ∧
        t.perRaw = 0 ∧
        t.rtcRaw = s.rtcRaw ∧
        t.mem = s.mem ∧
        RegsBut [Reg.RTC_PER] s t) ∧
  (∀ (d : Word) (s : State), Core Reg.RTC_PER s →
      RTC_PER.EN.of d = 0 →
      ∃ t, exec (.periodicRestart d) s = .next t ∧
        t.on RTC_PER.EN = false ∧
        t.get RTC_PER.NM1 = RTC_PER.NM1.of d ∧
        t.rtc = s.rtc ∧
        t.mem = s.mem ∧
        RegsBut [Reg.RTC_PER] s t) ∧
  (∀ (s : State), s.on RTC_PER.EN = true →
      (s.get RTC_PER.NM1 + 1) * 2 ^ 31 ≤ s.perRaw →
      Unrouted 0x39 s →
      ∃ t, exec (.periodicWake) s = .next t ∧
        t.on RTC_IRQ.PER = true ∧
        t.perRaw = s.perRaw - (s.get RTC_PER.NM1 + 1) * 2 ^ 31 ∧
        t.rtcRaw = s.rtcRaw ∧
        t.power.st = (if s.wakeEnabled .rtcPer then (match s.power.st with | .sleep => .waking .sleep | .deepSleep => .waking .deepSleep | x => x) else s.power.st) ∧
        t.mem = s.mem ∧
        RegsBut [Reg.RTC_IRQ, Reg.SYSC_WAKESRC, Reg.SYSC_LPSTAT] s t) ∧
  (∀ (s : State), s.on RTC_PER.EN = false ∨ s.perRaw < (s.get RTC_PER.NM1 + 1) * 2 ^ 31 →
      ∃ t, exec (.periodicWake) s = .next t ∧
        t = s) ∧
  (∀ (r c fn : Nat) (s : State), s.get RTC_TRIMCFG.SRC = 1 →
      s.on SYSC_CLKSTAT.LPRC = false →
      s.rtc.mainsWin = some (r, c, fn, true) →
      0 < c →
      ∃ t, exec (.trimWindow) s = .next t ∧
        t.getI RTC_TRIMSTAT.E = clampInt (-32767) 32767 (roundDiv ((((r * fn : Nat) : Int) - ((c * 2 ^ 15 : Nat) : Int)) * 2 ^ 24) ((c * 2 ^ 15 : Nat) : Int)) ∧
        t.getI RTC_TRIM.TRIM = clampInt (-4295) 4295 (s.getI RTC_TRIM.TRIM - (clampInt (-(max 1 (s.get RTC_TRIMCFG.MAXSTEP) : Nat)) (max 1 (s.get RTC_TRIMCFG.MAXSTEP) : Nat) ((roundDiv ((((r * fn : Nat) : Int) - ((c * 2 ^ 15 : Nat) : Int)) * 2 ^ 24) ((c * 2 ^ 15 : Nat) : Int)).fdiv (2 ^ min 7 (s.get RTC_TRIMCFG.GAINSH))))) ∧
        t.get RTC_TRIMSTAT.WIN = min (s.get RTC_TRIMSTAT.WIN + 1) (2 ^ RTC_TRIMSTAT.WIN.w - 1) ∧
        t.on RTC_IRQ.TRIMSAT = (s.on RTC_IRQ.TRIMSAT || decide (4295 < (s.getI RTC_TRIM.TRIM - (clampInt (-(max 1 (s.get RTC_TRIMCFG.MAXSTEP) : Nat)) (max 1 (s.get RTC_TRIMCFG.MAXSTEP) : Nat) ((roundDiv ((((r * fn : Nat) : Int) - ((c * 2 ^ 15 : Nat) : Int)) * 2 ^ 24) ((c * 2 ^ 15 : Nat) : Int)).fdiv (2 ^ min 7 (s.get RTC_TRIMCFG.GAINSH))))).natAbs)) ∧
        t.rtc.mainsWin = none ∧
        t.rtcRaw = s.rtcRaw ∧
        t.mem = s.mem ∧
        RegsBut [Reg.RTC_TRIM, Reg.RTC_TRIMSTAT, Reg.RTC_IRQ] s t) ∧
  (∀ (b : Nat) (s : State), s.get RTC_TRIMCFG.SRC = 2 →
      s.time.valid = true →
      s.nt / 2 ^ 32 % 2 ^ s.netPer = 0 →
      s.on SYSC_CLKSTAT.LPRC = false →
      s.rtc.winBad = false →
      2 ^ s.netPer ≤ s.nt / 2 ^ 32 →
      s.rtc.winStart = some (b, s.nt / 2 ^ 32 - 2 ^ s.netPer) →
      ∃ t, exec (.trimWindow) s = .next t ∧
        t.getI RTC_TRIMSTAT.E = clampInt (-32767) 32767 (roundDiv (((((s.rtcFracs + 2 ^ 47 - b) % 2 ^ 47 : Nat) : Int) - ((2 ^ s.netPer * 2 ^ 15 : Nat) : Int)) * 2 ^ 24) ((2 ^ s.netPer * 2 ^ 15 : Nat) : Int)) ∧
        t.getI RTC_TRIM.TRIM = clampInt (-4295) 4295 (s.getI RTC_TRIM.TRIM - (clampInt (-(max 1 (s.get RTC_TRIMCFG.MAXSTEP) : Nat)) (max 1 (s.get RTC_TRIMCFG.MAXSTEP) : Nat) ((roundDiv (((((s.rtcFracs + 2 ^ 47 - b) % 2 ^ 47 : Nat) : Int) - ((2 ^ s.netPer * 2 ^ 15 : Nat) : Int)) * 2 ^ 24) ((2 ^ s.netPer * 2 ^ 15 : Nat) : Int)).fdiv (2 ^ min 7 (s.get RTC_TRIMCFG.GAINSH))))) ∧
        t.get RTC_TRIMSTAT.WIN = min (s.get RTC_TRIMSTAT.WIN + 1) (2 ^ RTC_TRIMSTAT.WIN.w - 1) ∧
        t.on RTC_IRQ.TRIMSAT = (s.on RTC_IRQ.TRIMSAT || decide (4295 < (s.getI RTC_TRIM.TRIM - (clampInt (-(max 1 (s.get RTC_TRIMCFG.MAXSTEP) : Nat)) (max 1 (s.get RTC_TRIMCFG.MAXSTEP) : Nat) ((roundDiv (((((s.rtcFracs + 2 ^ 47 - b) % 2 ^ 47 : Nat) : Int) - ((2 ^ s.netPer * 2 ^ 15 : Nat) : Int)) * 2 ^ 24) ((2 ^ s.netPer * 2 ^ 15 : Nat) : Int)).fdiv (2 ^ min 7 (s.get RTC_TRIMCFG.GAINSH))))).natAbs)) ∧
        t.rtc.winStart = some (s.rtcFracs, s.nt / 2 ^ 32) ∧
        t.rtc.winBad = false ∧
        t.rtcRaw = s.rtcRaw ∧
        t.mem = s.mem ∧
        RegsBut [Reg.RTC_TRIM, Reg.RTC_TRIMSTAT, Reg.RTC_IRQ] s t) ∧
  (∀ (r c fn : Nat) (ok : Bool) (s : State), s.get RTC_TRIMCFG.SRC = 1 →
      s.rtc.mainsWin = some (r, c, fn, ok) →
      ok = false ∨ c = 0 ∨ s.on SYSC_CLKSTAT.LPRC = true →
      ∃ t, exec (.trimWindow) s = .next t ∧
        t.rtc = { s.rtc with mainsWin := none } ∧
        t.mem = s.mem ∧
        t.regs = s.regs) ∧
  (∀ (s : State), s.get RTC_TRIMCFG.SRC = 2 →
      s.time.valid = true →
      s.nt / 2 ^ 32 % 2 ^ s.netPer = 0 →
      s.rtc.winStart = none ∨ s.rtc.winBad = true ∨ s.on SYSC_CLKSTAT.LPRC = true →
      ∃ t, exec (.trimWindow) s = .next t ∧
        t.rtc = { s.rtc with winStart := some (s.rtcFracs, s.nt / 2 ^ 32), winBad := s.on SYSC_CLKSTAT.LPRC } ∧
        t.mem = s.mem ∧
        t.regs = s.regs) ∧
  (∀ (s : State), (s.get RTC_TRIMCFG.SRC = 1 ∧ s.rtc.mainsWin = none) ∨ (s.get RTC_TRIMCFG.SRC = 2 ∧ (s.time.valid = false ∨ s.nt / 2 ^ 32 % 2 ^ s.netPer ≠ 0)) ∨ s.get RTC_TRIMCFG.SRC = 0 ∨ s.get RTC_TRIMCFG.SRC = 3 →
      ∃ t, exec (.trimWindow) s = .next t ∧
        t = s) ∧
  (∀ (low : Bool) (s : State), s.on SYSC_SUPSTAT.ONBACKUP = false →
      ∃ t, exec (.backupCheck low) s = .next t ∧
        t.on RTC_STAT.BKLOW = low ∧
        t.rtc = s.rtc ∧
        t.mem = s.mem ∧
        RegsBut [Reg.RTC_STAT] s t) ∧
  (∀ (low : Bool) (s : State), s.on SYSC_SUPSTAT.ONBACKUP = true →
      ∃ t, exec (.backupCheck low) s = .next t ∧
        t = s) ∧
  (∀ (d : Word) (s : State), Core Reg.RTC_CHG s →
      ∃ t, exec (.chargerWrite d) s = .next t ∧
        t.get RTC_CHG.EN = (if d.toNat / 2 ^ 24 = 0xA5 then RTC_CHG.EN.of d else s.get RTC_CHG.EN) ∧
        t.get RTC_CHG.RSEL = (if d.toNat / 2 ^ 24 = 0xA5 then RTC_CHG.RSEL.of d else s.get RTC_CHG.RSEL) ∧
        t.get RTC_CHG.VSEL = (if d.toNat / 2 ^ 24 = 0xA5 then RTC_CHG.VSEL.of d else s.get RTC_CHG.VSEL) ∧
        t.rtc = s.rtc ∧
        t.mem = s.mem ∧
        RegsBut [Reg.RTC_CHG] s t)

/-- Timers and the mains sense unit. TIMER_ENABLE, TIMER_COUNT_STEP, RELOAD_WRITE, TIMER_RESTART, TIMER_CAPTURE, TIMER_CAP_READ; SCAN_START, SCAN_END, ZERO_CROSSING, NOZC_TIMEOUT, MSU_ENABLE, MSU_DISABLE and MSU_THR_WRITE; writes and reads as the bus takes them. The values of a linked pair are its 64-bit ones. (1) TIMER_ENABLE of a stopped timer starts it with CLK and PRESC as written, the prescaler at 0 and the outputs low, LINK taken by an even timer; the count and memory stay, and with no pin in timer mode GPIO_IRQ. (2) One with EN = 0 stops it with the outputs low; CLK, PRESC, prescaler and count stay. (3) Of a running timer it changes neither CLK, PRESC, prescaler nor count, but SYNC. (4) TIMER_COUNT_STEP of a running timer whose prescaler is full takes the count to 0 at RELOAD, with RELOAD set, or at the top with RELOAD below, with WRAP_LONG set, else on by one; a channel whose CMP it reaches matches and the outputs act; memory stays, and with no pin in timer mode and no event-matrix line on it every register but the count and TMR_STAT. (5) Before that only the prescaler counts. (6) With the timers' clock gated, the timer stopped, the odd one of a linked pair, or on a pin in another mode, the edge is lost. (7) RELOAD_WRITE puts RELOAD, sets WRAP_LONG when it lies below the count, and leaves the count, memory and every other register. (8) TIMER_RESTART puts the count and prescaler to 0 without match or reload event; all else stays. (9) Of the odd timer of a linked pair it changes nothing. (10) TIMER_CAPTURE of an edge the timer takes queues the count and shows the head and the level; memory and every other register stay. (11) With four waiting the edge is dropped with CAPOVF, counted. (12) One the timer does not take changes nothing. (13) TIMER_CAP_READ removes the head and shows the level; memory and every other register stay. (14) Of an empty queue it changes no timer, register or memory. (15) SCAN_START with TRIG = 1 and no scan busy starts one and counts it in the half cycle; memory and every other register stay. (16) Within 60 µs of the last it is dropped, counted and flagged, and the half cycle is marked TJUMP. (17) With TRIG = 0 or the unit not running it changes nothing. (18) SCAN_END, no close waiting, crossings from ZC_IN and the sample ring off, shows the scan's number and adds the enabled channels' squares and clipping to the half cycle; memory and every other register stay. (19) With the ring on, in control SRAM, it writes the four codes, 0x8000 for a channel off, at the scan's place and nowhere else. (20) With no scan busy, or the unit not running, it changes nothing. (21) ZERO_CROSSING accepted from ZC_IN with no scan busy closes the half cycle: the next begins now in its direction, ZCOK is set, phase A's RMS is shown for a half cycle with scans and, with NOM set, its class; without NOM the phases' states stay, without a record ring memory. (22) With the record ring on, with room and in control SRAM, NOM 0, the 32 bytes at WR become the record of the half cycle that closed: first scan, scans, flags, network time and the frequency of the cycle that ended as it began; WR moves, HALF is set, other memory stays. (23) With the ring full the record is dropped and counted. (24) A rising crossing after one 13.3 to 25 ms earlier with no half cycle between flagged NOZC shows the cycle's frequency as valid. (25) Otherwise the cycle is bad: not valid, counted and flagged. (26) During a scan the crossing waits for its end. (27) One within ZCHOLD of the last, with crossings from channel A, or with the unit not running, leaves the unit and memory. (28) NOZC_TIMEOUT when due with no scan busy closes the half cycle: NOZC is set, ZCOK cleared, the next half cycle is due a nominal one later. (29) During a scan it waits for its end. (30) Sooner, with a close waiting or the unit not running, it changes nothing. (31) MSU_ENABLE of a stopped unit takes the configuration and starts it with empty scan count and half cycle; the event counts, memory and every other register stay. (32) Of a running one it changes neither configuration nor unit. (33) MSU_DISABLE stops it: phases NORMAL, RUN clear, windows and scan dropped; configuration and memory stay. (34) Of a stopped one it changes nothing of it. (35) MSU_THR_WRITE with every field in range and INTR + HYST below SAG takes the thresholds; all else stays. (36) Any other is discarded with BADCFG. -/
def Obligations.TimersAndMains : Prop :=
  (∀ (n : Fin 8) (d : Word) (s : State), Core (Reg.TMR_CTRL n) s →
      s.on (TMR_CTRL.EN n) = false →
      (TMR_CTRL.EN n).of d = 1 →
      ∃ t, exec (.timerEnable n d) s = .next t ∧
        t.on (TMR_CTRL.EN n) = true ∧
        t.get (TMR_CTRL.CLK n) = (TMR_CTRL.CLK n).of d ∧
        t.get (TMR_CTRL.PRESC n) = (TMR_CTRL.PRESC n).of d ∧
        (t.tm n).presc = 0 ∧
        (t.tm n).out0 = false ∧
        (t.tm n).out1 = false ∧
        (t.tm n).link = (if n.val % 2 = 0 then t.on (TMR_CTRL.LINK n) else (s.tm n).link) ∧
        t.reg (Reg.TMR_COUNT n) = s.reg (Reg.TMR_COUNT n) ∧
        t.mem = s.mem ∧
        ((∀ p : Fin 24, s.pinCode p ≠ 1) → t.reg (Reg.GPIO_IRQ) = s.reg (Reg.GPIO_IRQ))) ∧
  (∀ (n : Fin 8) (d : Word) (s : State), Core (Reg.TMR_CTRL n) s →
      s.on (TMR_CTRL.EN n) = true →
      (TMR_CTRL.EN n).of d = 0 →
      ∃ t, exec (.timerEnable n d) s = .next t ∧
        t.on (TMR_CTRL.EN n) = false ∧
        t.get (TMR_CTRL.CLK n) = s.get (TMR_CTRL.CLK n) ∧
        t.get (TMR_CTRL.PRESC n) = s.get (TMR_CTRL.PRESC n) ∧
        (t.tm n).out0 = false ∧
        (t.tm n).out1 = false ∧
        (t.tm n).presc = (s.tm n).presc ∧
        t.reg (Reg.TMR_COUNT n) = s.reg (Reg.TMR_COUNT n) ∧
        t.mem = s.mem) ∧
  (∀ (n : Fin 8) (d : Word) (s : State), Core (Reg.TMR_CTRL n) s →
      s.on (TMR_CTRL.EN n) = true →
      (TMR_CTRL.EN n).of d = 1 →
      ∃ t, exec (.timerEnable n d) s = .next t ∧
        t.on (TMR_CTRL.EN n) = true ∧
        t.get (TMR_CTRL.CLK n) = s.get (TMR_CTRL.CLK n) ∧
        t.get (TMR_CTRL.PRESC n) = s.get (TMR_CTRL.PRESC n) ∧
        t.get (TMR_CTRL.SYNC n) = (TMR_CTRL.SYNC n).of d ∧
        (t.tm n).presc = (s.tm n).presc ∧
        t.reg (Reg.TMR_COUNT n) = s.reg (Reg.TMR_COUNT n) ∧
        t.mem = s.mem) ∧
  (∀ (n : Fin 8) (s : State), s.tmClocked = true →
      s.on (TMR_CTRL.EN n) = true →
      s.get (TMR_CTRL.CLK n) ≠ 3 ∨ s.pinCode (16 + n.val) = 1 →
      s.tmHead n = n →
      s.get (TMR_CTRL.PRESC n) ≤ (s.tm n).presc →
      ∃ t, exec (.timerCountStep n) s = .next t ∧
        t.tmVal n Reg.TMR_COUNT = (if s.tmVal n Reg.TMR_COUNT = s.tmVal n Reg.TMR_RELOAD ∨ (decide (s.tmVal n Reg.TMR_COUNT = s.tmTop n) && decide (s.tmVal n Reg.TMR_RELOAD < s.tmVal n Reg.TMR_COUNT)) = true then 0 else s.tmVal n Reg.TMR_COUNT + 1) ∧
        (t.tm n).presc = 0 ∧
        t.on (TMR_STAT.RELOAD n) = (decide (s.tmVal n Reg.TMR_COUNT = s.tmVal n Reg.TMR_RELOAD) || s.on (TMR_STAT.RELOAD n)) ∧
        t.on (TMR_STAT.WRAP_LONG n) = (decide (s.tmVal n Reg.TMR_COUNT ≠ s.tmVal n Reg.TMR_RELOAD) && (decide (s.tmVal n Reg.TMR_COUNT = s.tmTop n) && decide (s.tmVal n Reg.TMR_RELOAD < s.tmVal n Reg.TMR_COUNT)) || s.on (TMR_STAT.WRAP_LONG n)) ∧
        t.on (TMR_STAT.MATCH0 n) = (decide (s.tmVal n Reg.TMR_CMP0 = (if s.tmVal n Reg.TMR_COUNT = s.tmVal n Reg.TMR_RELOAD ∨ (decide (s.tmVal n Reg.TMR_COUNT = s.tmTop n) && decide (s.tmVal n Reg.TMR_RELOAD < s.tmVal n Reg.TMR_COUNT)) = true then 0 else s.tmVal n Reg.TMR_COUNT + 1)) || s.on (TMR_STAT.MATCH0 n)) ∧
        t.on (TMR_STAT.MATCH1 n) = (decide (s.tmVal n Reg.TMR_CMP1 = (if s.tmVal n Reg.TMR_COUNT = s.tmVal n Reg.TMR_RELOAD ∨ (decide (s.tmVal n Reg.TMR_COUNT = s.tmTop n) && decide (s.tmVal n Reg.TMR_RELOAD < s.tmVal n Reg.TMR_COUNT)) = true then 0 else s.tmVal n Reg.TMR_COUNT + 1)) || s.on (TMR_STAT.MATCH1 n)) ∧
        (t.tm n).out0 = outAfter (s.get (TMR_CTRL.OM0 n)) (decide ((if s.tmVal n Reg.TMR_COUNT = s.tmVal n Reg.TMR_RELOAD ∨ (decide (s.tmVal n Reg.TMR_COUNT = s.tmTop n) && decide (s.tmVal n Reg.TMR_RELOAD < s.tmVal n Reg.TMR_COUNT)) = true then 0 else s.tmVal n Reg.TMR_COUNT + 1) = 0)) (decide (s.tmVal n Reg.TMR_CMP0 = (if s.tmVal n Reg.TMR_COUNT = s.tmVal n Reg.TMR_RELOAD ∨ (decide (s.tmVal n Reg.TMR_COUNT = s.tmTop n) && decide (s.tmVal n Reg.TMR_RELOAD < s.tmVal n Reg.TMR_COUNT)) = true then 0 else s.tmVal n Reg.TMR_COUNT + 1))) (s.tm n).out0 ∧
        (t.tm n).out1 = outAfter (s.get (TMR_CTRL.OM1 n)) (decide ((if s.tmVal n Reg.TMR_COUNT = s.tmVal n Reg.TMR_RELOAD ∨ (decide (s.tmVal n Reg.TMR_COUNT = s.tmTop n) && decide (s.tmVal n Reg.TMR_RELOAD < s.tmVal n Reg.TMR_COUNT)) = true then 0 else s.tmVal n Reg.TMR_COUNT + 1) = 0)) (decide (s.tmVal n Reg.TMR_CMP1 = (if s.tmVal n Reg.TMR_COUNT = s.tmVal n Reg.TMR_RELOAD ∨ (decide (s.tmVal n Reg.TMR_COUNT = s.tmTop n) && decide (s.tmVal n Reg.TMR_RELOAD < s.tmVal n Reg.TMR_COUNT)) = true then 0 else s.tmVal n Reg.TMR_COUNT + 1))) (s.tm n).out1 ∧
        t.mem = s.mem ∧
        ((∀ p : Fin 24, s.pinCode p ≠ 1) → Unrouted (0x20 + n.val) s → Unrouted (0x28 + n.val) s → RegsBut [Reg.TMR_COUNT n, Reg.TMR_COUNT (pairHi n), Reg.TMR_STAT n] s t)) ∧
  (∀ (n : Fin 8) (s : State), s.tmClocked = true →
      s.on (TMR_CTRL.EN n) = true →
      s.get (TMR_CTRL.CLK n) ≠ 3 ∨ s.pinCode (16 + n.val) = 1 →
      s.tmHead n = n →
      (s.tm n).presc < s.get (TMR_CTRL.PRESC n) →
      ∃ t, exec (.timerCountStep n) s = .next t ∧
        (t.tm n) = { s.tm n with presc := (s.tm n).presc + 1 } ∧
        t.mem = s.mem ∧
        t.regs = s.regs) ∧
  (∀ (n : Fin 8) (s : State), s.tmClocked = false ∨ s.on (TMR_CTRL.EN n) = false ∨ s.tmHead n ≠ n ∨ (s.get (TMR_CTRL.CLK n) = 3 ∧ s.pinCode (16 + n.val) ≠ 1) →
      ∃ t, exec (.timerCountStep n) s = .next t ∧
        t = s) ∧
  (∀ (n : Fin 8) (v : BitVec 64) (s : State), Core (Reg.TMR_RELOAD n) s →
      ∃ t, exec (.reloadWrite n v) s = .next t ∧
        t.tmVal n Reg.TMR_RELOAD = v.toNat % (s.tmTop n + 1) ∧
        t.tmVal n Reg.TMR_COUNT = s.tmVal n Reg.TMR_COUNT ∧
        t.on (TMR_STAT.WRAP_LONG (s.tmHead n)) = (s.on (TMR_STAT.WRAP_LONG (s.tmHead n)) || decide (v.toNat % (s.tmTop n + 1) < s.tmVal n Reg.TMR_COUNT)) ∧
        t.tmr = s.tmr ∧
        t.mem = s.mem ∧
        RegsBut [Reg.TMR_RELOAD n, Reg.TMR_RELOAD (pairLo n), Reg.TMR_RELOAD (pairHi n), Reg.TMR_STAT (s.tmHead n)] s t) ∧
  (∀ (n : Fin 8) (s : State), Core (Reg.TMR_CMD n) s →
      s.tmHead n = n →
      ∃ t, exec (.timerRestart n) s = .next t ∧
        t.tmVal n Reg.TMR_COUNT = 0 ∧
        (t.tm n) = { s.tm n with presc := 0 } ∧
        t.mem = s.mem ∧
        RegsBut [Reg.TMR_COUNT n, Reg.TMR_COUNT (pairHi n)] s t) ∧
  (∀ (n : Fin 8) (s : State), Core (Reg.TMR_CMD n) s →
      s.tmHead n ≠ n →
      ∃ t, exec (.timerRestart n) s = .next t ∧
        t = s) ∧
  (∀ (n : Fin 8) (rising : Bool) (s : State), s.tmClocked = true →
      s.tmHead n = n →
      edgeTaken (s.get (TMR_CTRL.CAPEDGE n)) rising = true →
      (s.tm n).caps.length < 4 →
      ∃ t, exec (.timerCapture n rising) s = .next t ∧
        (t.tm n) = { s.tm n with caps := (s.tm n).caps ++ [s.tmVal n Reg.TMR_COUNT] } ∧
        t.get (TMR_STAT.LEVEL n) = (s.tm n).caps.length + 1 ∧
        t.on (TMR_STAT.CAP n) = true ∧
        t.tmVal n Reg.TMR_CAP = ((s.tm n).caps ++ [s.tmVal n Reg.TMR_COUNT]).headD 0 % (s.tmTop n + 1) ∧
        t.mem = s.mem ∧
        RegsBut [Reg.TMR_STAT n, Reg.TMR_CAP n, Reg.TMR_CAP (pairHi n)] s t) ∧
  (∀ (n : Fin 8) (rising : Bool) (s : State), s.tmClocked = true →
      s.tmHead n = n →
      edgeTaken (s.get (TMR_CTRL.CAPEDGE n)) rising = true →
      4 ≤ (s.tm n).caps.length →
      ∃ t, exec (.timerCapture n rising) s = .next t ∧
        t.tmr = s.tmr ∧
        t.on (TMR_STAT.CAPOVF n) = true ∧
        t.get (TMR_STAT.OVFCNT n) = min (s.get (TMR_STAT.OVFCNT n) + 1) (2 ^ (TMR_STAT.OVFCNT n).w - 1) ∧
        t.mem = s.mem ∧
        RegsBut [Reg.TMR_STAT n] s t) ∧
  (∀ (n : Fin 8) (rising : Bool) (s : State), s.tmClocked = false ∨ s.tmHead n ≠ n ∨ edgeTaken (s.get (TMR_CTRL.CAPEDGE n)) rising = false →
      ∃ t, exec (.timerCapture n rising) s = .next t ∧
        t = s) ∧
  (∀ (n : Fin 8) (e : Nat) (q : List Nat) (s : State), TakesRead .coreData (Reg.TMR_CAP n) s →
      s.tmHead n = n →
      (s.tm n).caps = e :: q →
      q.length ≤ 3 →
      ∃ t, exec (.timerCapRead n) s = .next t ∧
        (t.tm n) = { s.tm n with caps := q } ∧
        t.get (TMR_STAT.LEVEL n) = q.length ∧
        t.on (TMR_STAT.CAP n) = !q.isEmpty ∧
        t.mem = s.mem ∧
        RegsBut [Reg.TMR_STAT n, Reg.TMR_CAP n, Reg.TMR_CAP (pairHi n)] s t) ∧
  (∀ (n : Fin 8) (s : State), TakesRead .coreData (Reg.TMR_CAP n) s →
      (s.tm (s.tmHead n)).caps = [] →
      ∃ t, exec (.timerCapRead n) s = .next t ∧
        t.tmr = s.tmr ∧
        t.mem = s.mem ∧
        t.regs = s.regs) ∧
  (∀ (s : State), s.on MSU_CFG.TRIG = true →
      s.msuRuns = true →
      s.msu.scanAt.all (fun a => decide (a + us 60 ≤ s.now)) = true →
      ∃ t, exec (.scanStart) s = .next t ∧
        t.msu.scanAt = some s.now ∧
        t.msu.half.n = s.msu.half.n + 1 ∧
        t.msu.half.firstScan = (if s.msu.half.n = 0 then s.msu.nextScan else s.msu.half.firstScan) ∧
        t.msu.half.tjump = s.msu.half.tjump ∧
        t.on MSU_STAT.RUN = true ∧
        t.mem = s.mem ∧
        RegsBut [Reg.MSU_STAT] s t) ∧
  (∀ (at_ : Nat) (s : State), s.on MSU_CFG.TRIG = true →
      s.msuRuns = true →
      s.msu.scanAt = some at_ →
      s.now < at_ + us 60 →
      ∃ t, exec (.scanStart) s = .next t ∧
        t.msu = { s.msu with half := { s.msu.half with tjump := true } } ∧
        t.on MSU_IRQ.SCANOVR = true ∧
        t.get MSU_CNT.SCANOVR = min (s.get MSU_CNT.SCANOVR + 1) 0xFFFF ∧
        t.mem = s.mem ∧
        RegsBut [Reg.MSU_IRQ, Reg.MSU_CNT] s t) ∧
  (∀ (s : State), s.on MSU_CFG.TRIG = false ∨ s.msuRuns = false →
      ∃ t, exec (.scanStart) s = .next t ∧
        t = s) ∧
  (∀ (codes : Vector (BitVec 10) 4) (at_ : Nat) (s : State), s.msuRuns = true →
      s.msu.scanAt = some at_ →
      s.msu.closing = [] →
      s.on MSU_CFG.ZCSRC = false →
      s.on MSU_SRING.EN = false →
      ∃ t, exec (.scanEnd codes) s = .next t ∧
        t.reg Reg.MSU_SCAN = BitVec.ofNat 32 s.msu.nextScan ∧
        t.msu.scanAt = none ∧
        t.msu.nextScan = (s.msu.nextScan + 1) % 2 ^ 32 ∧
        t.msu.half.n = s.msu.half.n ∧
        (∀ k : Fin 4, t.msu.half.sq[k] = s.msu.half.sq[k] + if bitOf (s.get MSU_CFG.CHEN) k.val then (codes[k].toInt * codes[k].toInt).toNat else 0) ∧
        t.msu.half.clip = (s.msu.half.clip || (List.finRange 4).any (fun (k : Fin 4) => bitOf (s.get MSU_CFG.CHEN) k.val && (codes[k].toInt == -512 || codes[k].toInt == 511))) ∧
        t.mem = s.mem ∧
        RegsBut [Reg.MSU_SCAN] s t) ∧
  (∀ (codes : Vector (BitVec 10) 4) (at_ : Nat) (s : State), s.msuRuns = true →
      s.msu.scanAt = some at_ →
      s.msu.closing = [] →
      s.on MSU_CFG.ZCSRC = false →
      s.on MSU_SRING.EN = true →
      inSram (4096 * s.get MSU_SRING.ADDR / (8 * (512 * 2 ^ (min 5 (s.get MSU_SRING.SIZE)))) * (8 * (512 * 2 ^ (min 5 (s.get MSU_SRING.SIZE)))) + 8 * (s.msu.nextScan % (512 * 2 ^ (min 5 (s.get MSU_SRING.SIZE))))) 8 = true →
      ∃ t, exec (.scanEnd codes) s = .next t ∧
        t.reg Reg.MSU_SCAN = BitVec.ofNat 32 s.msu.nextScan ∧
        t.msu.scanAt = none ∧
        t.msu.nextScan = (s.msu.nextScan + 1) % 2 ^ 32 ∧
        t.msu.half.n = s.msu.half.n ∧
        (∀ k : Fin 4, t.msu.half.sq[k] = s.msu.half.sq[k] + if bitOf (s.get MSU_CFG.CHEN) k.val then (codes[k].toInt * codes[k].toInt).toNat else 0) ∧
        t.msu.half.clip = (s.msu.half.clip || (List.finRange 4).any (fun (k : Fin 4) => bitOf (s.get MSU_CFG.CHEN) k.val && (codes[k].toInt == -512 || codes[k].toInt == 511))) ∧
        (∀ k : Fin 4, t.rn ((4096 * s.get MSU_SRING.ADDR / (8 * (512 * 2 ^ (min 5 (s.get MSU_SRING.SIZE)))) * (8 * (512 * 2 ^ (min 5 (s.get MSU_SRING.SIZE)))) + 8 * (s.msu.nextScan % (512 * 2 ^ (min 5 (s.get MSU_SRING.SIZE))))) + 2 * k.val) 2 = if bitOf (s.get MSU_CFG.CHEN) k.val then wrapInt 16 codes[k].toInt else 0x8000) ∧
        RegsBut [Reg.MSU_SCAN] s t ∧
        Outside (4096 * s.get MSU_SRING.ADDR / (8 * (512 * 2 ^ (min 5 (s.get MSU_SRING.SIZE)))) * (8 * (512 * 2 ^ (min 5 (s.get MSU_SRING.SIZE)))) + 8 * (s.msu.nextScan % (512 * 2 ^ (min 5 (s.get MSU_SRING.SIZE))))) 8 s t) ∧
  (∀ (codes : Vector (BitVec 10) 4) (s : State), s.msuRuns = false ∨ s.msu.scanAt = none →
      ∃ t, exec (.scanEnd codes) s = .next t ∧
        t = s) ∧
  (∀ (rising : Bool) (s : State), s.msuRuns = true →
      s.on MSU_CFG.ZCSRC = false →
      (s.msu.lastCross.map (fun c => decide (s.now < c + 25000 * max 1 (s.get MSU_CFG.ZCHOLD)))).getD false = false →
      s.msu.scanAt = none →
      ∃ t, exec (.zeroCrossing rising) s = .next t ∧
        t.msu.lastCross = some s.now ∧
        t.msu.half.startAt = s.now ∧
        t.msu.half.n = 0 ∧
        t.msu.half.begun = (if rising then .rising else .falling) ∧
        t.msu.dueAt = s.now + s.halfTimeout ∧
        t.on MSU_STAT.ZCOK = true ∧
        (0 < s.msu.half.n → bitOf (s.get MSU_CFG.CHEN) 0 = true → t.get MSU_RMS0.LOW = (rms16 s.msu.half.sq[0] s.msu.half.n) % 65536) ∧
        (0 < s.msu.half.n → bitOf (s.get MSU_CFG.CHEN) 0 = true → s.get MSU_NOM.NOM ≠ 0 → t.get ⟨Reg.MSU_STAT, 0, 2⟩ = classify s (rms16 s.msu.half.sq[0] s.msu.half.n) (s.get ⟨Reg.MSU_STAT, 0, 2⟩)) ∧
        (s.get MSU_NOM.NOM = 0 → t.get MSU_STAT.PHST = s.get MSU_STAT.PHST) ∧
        (s.on MSU_HRING.EN = false → t.mem = s.mem)) ∧
  (∀ (rising : Bool) (s : State), s.msuRuns = true →
      s.on MSU_CFG.ZCSRC = false →
      (s.msu.lastCross.map (fun c => decide (s.now < c + 25000 * max 1 (s.get MSU_CFG.ZCHOLD)))).getD false = false →
      s.msu.scanAt = none →
      s.on MSU_HRING.EN = true →
      (s.get MSU_HPTR.WR + 1) % 64 ≠ s.get MSU_HPTR.RD →
      inSram (2048 * s.get MSU_HRING.ADDR + 32 * s.get MSU_HPTR.WR) 32 = true →
      0 < s.msu.half.n →
      s.get MSU_NOM.NOM = 0 →
      s.msu.half.begun ≠ .timeout →
      ∃ t, exec (.zeroCrossing rising) s = .next t ∧
        t.msu.lastCross = some s.now ∧
        t.msu.half.startAt = s.now ∧
        t.msu.half.n = 0 ∧
        t.msu.half.begun = (if rising then .rising else .falling) ∧
        t.msu.dueAt = s.now + s.halfTimeout ∧
        t.on MSU_STAT.ZCOK = true ∧
        t.rn (2048 * s.get MSU_HRING.ADDR + 32 * s.get MSU_HPTR.WR) 4 = s.msu.half.firstScan % 2 ^ 32 ∧
        t.rn ((2048 * s.get MSU_HRING.ADDR + 32 * s.get MSU_HPTR.WR) + 4) 2 = s.msu.half.n % 65536 ∧
        t.rn ((2048 * s.get MSU_HRING.ADDR + 32 * s.get MSU_HPTR.WR) + 6) 1 = b2n (decide (s.msu.half.begun = .rising)) + b2n s.msu.half.clip * 4 + b2n s.msu.half.tjump * 8 + b2n s.msu.half.bad * 16 ∧
        t.rn ((2048 * s.get MSU_HRING.ADDR + 32 * s.get MSU_HPTR.WR) + 8) 8 = s.msu.half.nt0 % 2 ^ 64 ∧
        t.rn ((2048 * s.get MSU_HRING.ADDR + 32 * s.get MSU_HPTR.WR) + 24) 4 = s.msu.half.freq % 2 ^ 32 ∧
        t.get MSU_HPTR.WR = (s.get MSU_HPTR.WR + 1) % 64 ∧
        t.on MSU_IRQ.HALF = true ∧
        Outside (2048 * s.get MSU_HRING.ADDR + 32 * s.get MSU_HPTR.WR) 32 s t) ∧
  (∀ (rising : Bool) (s : State), s.msuRuns = true →
      s.on MSU_CFG.ZCSRC = false →
      (s.msu.lastCross.map (fun c => decide (s.now < c + 25000 * max 1 (s.get MSU_CFG.ZCHOLD)))).getD false = false →
      s.msu.scanAt = none →
      s.on MSU_HRING.EN = true →
      (s.get MSU_HPTR.WR + 1) % 64 = s.get MSU_HPTR.RD →
      ∃ t, exec (.zeroCrossing rising) s = .next t ∧
        t.msu.lastCross = some s.now ∧
        t.msu.half.startAt = s.now ∧
        t.msu.half.n = 0 ∧
        t.msu.half.begun = (if rising then .rising else .falling) ∧
        t.msu.dueAt = s.now + s.halfTimeout ∧
        t.on MSU_STAT.ZCOK = true ∧
        t.get MSU_HPTR.WR = s.get MSU_HPTR.WR ∧
        t.get MSU_HPTR.DROP = min (s.get MSU_HPTR.DROP + 1) (2 ^ MSU_HPTR.DROP.w - 1) ∧
        t.mem = s.mem) ∧
  (∀ (r : Nat) (s : State), s.msuRuns = true →
      s.on MSU_CFG.ZCSRC = false →
      (s.msu.lastCross.map (fun c => decide (s.now < c + 25000 * max 1 (s.get MSU_CFG.ZCHOLD)))).getD false = false →
      s.msu.scanAt = none →
      s.msu.lastRise = some r →
      r < s.now →
      40000 ≤ (roundDiv 250000000000 ((s.now : Int) - r)).toNat →
      (roundDiv 250000000000 ((s.now : Int) - r)).toNat ≤ 75000 →
      s.msu.cycNozc = false →
      ∃ t, exec (.zeroCrossing true) s = .next t ∧
        t.msu.lastCross = some s.now ∧
        t.msu.half.startAt = s.now ∧
        t.msu.half.n = 0 ∧
        t.msu.half.begun = .rising ∧
        t.msu.dueAt = s.now + s.halfTimeout ∧
        t.on MSU_STAT.ZCOK = true ∧
        t.on MSU_FREQ.VALID = true ∧
        t.get MSU_FREQ.MHZ = (roundDiv 250000000000 ((s.now : Int) - r)).toNat ∧
        t.msu.half.freq = (roundDiv 250000000000 ((s.now : Int) - r)).toNat ∧
        t.msu.lastRise = some s.now) ∧
  (∀ (r : Nat) (s : State), s.msuRuns = true →
      s.on MSU_CFG.ZCSRC = false →
      (s.msu.lastCross.map (fun c => decide (s.now < c + 25000 * max 1 (s.get MSU_CFG.ZCHOLD)))).getD false = false →
      s.msu.scanAt = none →
      s.msu.lastRise = some r →
      s.now ≤ r ∨ (roundDiv 250000000000 ((s.now : Int) - r)).toNat < 40000 ∨ 75000 < (roundDiv 250000000000 ((s.now : Int) - r)).toNat ∨ s.msu.cycNozc = true →
      ∃ t, exec (.zeroCrossing true) s = .next t ∧
        t.msu.lastCross = some s.now ∧
        t.msu.half.startAt = s.now ∧
        t.msu.half.n = 0 ∧
        t.msu.half.begun = .rising ∧
        t.msu.dueAt = s.now + s.halfTimeout ∧
        t.on MSU_STAT.ZCOK = true ∧
        t.on MSU_FREQ.VALID = false ∧
        t.msu.half.freq = 0 ∧
        t.msu.half.bad = true ∧
        t.get MSU_CNT.BADCYC = min (s.get MSU_CNT.BADCYC + 1) 0xFFFF ∧
        t.on MSU_IRQ.BADCYC = true ∧
        t.msu.lastRise = some s.now) ∧
  (∀ (rising : Bool) (at_ : Nat) (s : State), s.msuRuns = true →
      s.on MSU_CFG.ZCSRC = false →
      (s.msu.lastCross.map (fun c => decide (s.now < c + 25000 * max 1 (s.get MSU_CFG.ZCHOLD)))).getD false = false →
      s.msu.scanAt = some at_ →
      ∃ t, exec (.zeroCrossing rising) s = .next t ∧
        t.msu = { s.msu with closing := s.msu.closing ++ [(some rising, s.now)], lastCross := some s.now } ∧
        t.mem = s.mem) ∧
  (∀ (rising : Bool) (s : State), s.msuRuns = false ∨ s.on MSU_CFG.ZCSRC = true ∨ (s.msu.lastCross.map (fun c => decide (s.now < c + 25000 * max 1 (s.get MSU_CFG.ZCHOLD)))).getD false = true →
      ∃ t, exec (.zeroCrossing rising) s = .next t ∧
        t.msu = s.msu ∧
        t.mem = s.mem) ∧
  (∀ (s : State), s.msuRuns = true →
      s.msu.dueAt ≤ s.now →
      s.msu.closing = [] →
      s.msu.scanAt = none →
      ∃ t, exec (.nozcTimeout) s = .next t ∧
        t.msu.lastCross = s.msu.lastCross ∧
        t.msu.half.startAt = s.msu.dueAt ∧
        t.msu.half.begun = .timeout ∧
        t.msu.half.n = 0 ∧
        t.msu.dueAt = s.msu.dueAt + s.halfNominal ∧
        t.on MSU_STAT.ZCOK = false ∧
        t.on MSU_IRQ.NOZC = true ∧
        (s.on MSU_HRING.EN = false → t.mem = s.mem)) ∧
  (∀ (at_ : Nat) (s : State), s.msuRuns = true →
      s.msu.dueAt ≤ s.now →
      s.msu.closing = [] →
      s.msu.scanAt = some at_ →
      ∃ t, exec (.nozcTimeout) s = .next t ∧
        t.msu = { s.msu with closing := [(none, s.msu.dueAt)] } ∧
        t.mem = s.mem ∧
        t.regs = s.regs) ∧
  (∀ (s : State), s.msuRuns = false ∨ s.now < s.msu.dueAt ∨ s.msu.closing ≠ [] →
      ∃ t, exec (.nozcTimeout) s = .next t ∧
        t = s) ∧
  (∀ (cfg : Word) (s : State), Core Reg.MSU_CFG s →
      s.on MSU_CFG.EN = false →
      ∃ t, exec (.msuEnable cfg) s = .next t ∧
        t.on MSU_CFG.EN = true ∧
        t.get MSU_CFG.CHEN = MSU_CFG.CHEN.of cfg ∧
        t.get MSU_CFG.TRIG = MSU_CFG.TRIG.of cfg ∧
        t.msu.half.startAt = s.now ∧
        t.msu.half.n = 0 ∧
        t.msu.lastCross = none ∧
        t.msu.nextScan = 0 ∧
        t.msu.sags = s.msu.sags ∧
        t.mem = s.mem ∧
        RegsBut [Reg.MSU_CFG] s t) ∧
  (∀ (cfg : Word) (s : State), Core Reg.MSU_CFG s →
      s.on MSU_CFG.EN = true →
      ∃ t, exec (.msuEnable cfg) s = .next t ∧
        t.on MSU_CFG.EN = true ∧
        t.get MSU_CFG.CHEN = s.get MSU_CFG.CHEN ∧
        t.get MSU_CFG.TRIG = s.get MSU_CFG.TRIG ∧
        t.msu = s.msu ∧
        t.mem = s.mem ∧
        RegsBut [Reg.MSU_CFG] s t) ∧
  (∀ (s : State), Core Reg.MSU_CFG s →
      s.on MSU_CFG.EN = true →
      ∃ t, exec (.msuDisable) s = .next t ∧
        t.on MSU_CFG.EN = false ∧
        t.get MSU_CFG.CHEN = s.get MSU_CFG.CHEN ∧
        t.get MSU_STAT.PHST = 0 ∧
        t.on MSU_STAT.RUN = false ∧
        t.msu.win10 = none ∧
        t.msu.win600 = none ∧
        t.msu.scanAt = none ∧
        t.mem = s.mem ∧
        RegsBut [Reg.MSU_CFG, Reg.MSU_STAT] s t) ∧
  (∀ (s : State), Core Reg.MSU_CFG s →
      s.on MSU_CFG.EN = false →
      ∃ t, exec (.msuDisable) s = .next t ∧
        t.on MSU_CFG.EN = false ∧
        t.get MSU_CFG.CHEN = s.get MSU_CFG.CHEN ∧
        t.msu = s.msu ∧
        t.mem = s.mem ∧
        RegsBut [Reg.MSU_CFG] s t) ∧
  (∀ (d : Word) (s : State), Core Reg.MSU_THR s →
      101 ≤ MSU_THR.SWELL.of d →
      MSU_THR.SWELL.of d ≤ 200 →
      50 ≤ MSU_THR.SAG.of d →
      MSU_THR.SAG.of d ≤ 99 →
      1 ≤ MSU_THR.INTR.of d →
      MSU_THR.INTR.of d ≤ 49 →
      MSU_THR.HYST.of d ≤ 10 →
      MSU_THR.INTR.of d + MSU_THR.HYST.of d < MSU_THR.SAG.of d →
      ∃ t, exec (.msuThrWrite d) s = .next t ∧
        t.reg Reg.MSU_THR = d ∧
        t.msu = s.msu ∧
        t.mem = s.mem ∧
        RegsBut [Reg.MSU_THR] s t) ∧
  (∀ (d : Word) (s : State), Core Reg.MSU_THR s →
      ¬ (101 ≤ MSU_THR.SWELL.of d ∧ MSU_THR.SWELL.of d ≤ 200 ∧ 50 ≤ MSU_THR.SAG.of d ∧ MSU_THR.SAG.of d ≤ 99 ∧ 1 ≤ MSU_THR.INTR.of d ∧ MSU_THR.INTR.of d ≤ 49 ∧ MSU_THR.HYST.of d ≤ 10 ∧ MSU_THR.INTR.of d + MSU_THR.HYST.of d < MSU_THR.SAG.of d) →
      ∃ t, exec (.msuThrWrite d) s = .next t ∧
        t.on MSU_IRQ.BADCFG = true ∧
        t.msu = s.msu ∧
        t.mem = s.mem ∧
        RegsBut [Reg.MSU_IRQ] s t)

/-- Programs, erases, OTP, reads and the scrub of the nonvolatile memory. NVM_PROGRAM, NVM_ERASE, NVM_OTPPROG, OTP_PROGRAM_DONE, PROGRAM_UNIT_DONE, ERASE_COMPLETE, ERASE_SUSPEND, ERASE_RESUME, NVM_READ, METADATA_LOAD and SCRUB_STEP. Commands are written by the core or as the bus takes them; the bank, block and unit are those of NVM_ADDR. Where a row could report to the event recorder, the recorder is off. (1) NVM_PROGRAM whose range lies aligned in one block outside the protected ones, erased, not read-only, its source in SRAM and its region's keys usable, starts firmware's program in an idle bank with its first 32 bytes and keys taken and BUSY set; memory stays, and every register but NVM_CMDSTAT and NVM_STAT. (2) Behind another program it waits in the bank's queue by rank, the program in progress untouched. (3) One misaligned, over a block's end or not in NVM ends BADARG, CMDDONE set, with nothing done. (4) In a protected block it ends PROTECTED so. (5) In a read-only one RDONLY. (6) In the block of a suspended erase SUSPENDED. (7) Over a unit not erased OVERWRITE. (8) With a source not aligned or outside SRAM BUS. (9) With a region whose keys are not usable NOKEY. (10) NVM_PROGRAM, NVM_ERASE and NVM_OTPPROG with BUSY set are discarded with CMDOVR. (11) NVM_ERASE of a block in NVM neither protected nor read-only starts firmware's erase in an idle bank, its block noted as abandoned until it ends; BUSY is clear and STATUS OK at once, NVM_ESTAT shows the erase; memory stays. (12) Behind a program it waits in the bank's queue with BUSY set. (13) Outside NVM it ends BADARG with nothing done. (14) Of a protected block PROTECTED. (15) Of a read-only one RDONLY. (16) In a bank with a suspended erase SUSPENDED. (17) NVM_OTPPROG of an unlocked word never programmed, with VBAT high enough, takes the word and sets BUSY. (18) With VBAT too low it ends LOWV with nothing done. (19) Of a programmed word OVERWRITE. (20) Of a locked one PROTECTED. (21) Outside OTP's words BADARG. (22) OTP_PROGRAM_DONE of a word taken stores it, with OK and CMDDONE; a word of 0 counts as programmed too (the model's reading, log 16); every other byte stays. (23) With none taken, or no clock, it changes nothing. (24) PROGRAM_UNIT_DONE of firmware's last unit, verified, stores its 32 bytes, encrypted where its region says so, ends the program OK, or RETIRED when an earlier unit retired its block, with the units done and CMDDONE; PVCOUNT takes the pulses; every other byte stays. (25) Of an earlier unit it stores it and goes on to the next, the gap before which begins now; BUSY stays. (26) A unit that fails with no spare ends the program PFAIL, the map as it was, and changes no byte outside the unit. (27) One that fails with a spare, nothing lost in the copy, is written in the spare: the block is retired, the spare takes its place, RETIRE is set. (28) A program whose keys were not usable as it started ends NOKEY; memory stays. (29) With no program in the bank, or no clock, it changes nothing. (30) ERASE_COMPLETE, verified, makes every byte of the block 0xFF, ends the erase OK with EDONE and counts the block's erase cycle; every other byte and the map stay. (31) One that fails with a spare takes the spare, erased, for the block, RETIRED, with RETIRE set. (32) With no spare it ends EFAIL; every byte outside the block stays. (33) With no erase in the bank, or no clock, it changes nothing. (34) ERASE_SUSPEND of a bank that erases, no program waiting, suspends the erase: REQ, ESTAT.SUSP and STAT.SUSP show it; the other bank and memory stay. (35) Of a bank that does not erase it changes nothing. (36) ERASE_RESUME of a suspended erase with no program there goes on with it and clears the same. (37) During a program it takes the request away and the erase waits. (38) With no erase it takes only the request away. (39) NVM_READ by core data or debug of a bank that erases, not suspended, only sets STATUS_READ. (40) One by the security engine, the NVM controller, the dictionary or instruction fetch waits and changes nothing. (41) Before READY a read changes nothing. (42) A read with as many wrong bits as the threshold and fewer than 5 sets EW, counts it and notes the master's last result; memory stays. (43) One with fewer only notes the result. (44) One with 5 or more, the recorder off, sets UNCORR, counts it and takes the address when UNCORR was clear; memory stays. (45) METADATA_LOAD before READY with no erase abandoned and no dictionary request waiting for the memory sets READY, puts the scrub at its saved place and shows the wear; memory stays. (46) With one abandoned it erases that block again, counts its cycle and sets REERASE; every other byte stays. (47) Once ready, or without a clock, it changes nothing. (48) SCRUB_STEP with the scrub on, the memory ready and the bank neither programming nor erasing, and no unit at the threshold, only moves on one block, saving its place every 64 and counting a pass after 1,024. (49) With the log on it writes the block's byte there, 0 where no bit was wrong. (50) A unit at the threshold has its block copied to a free one, with REFRESH and EW set and EW counted: the old physical block becomes free, and memory reads as before. (51) An uncorrectable one sets UNCORR, counts it and leaves both banks and memory. (52) Off, not ready, during a program or erase in the bank or without a clock it changes nothing. -/
def Obligations.NvmOperations : Prop :=
  (∀ (count : BitVec 7) (s : State), Core Reg.NVM_CMD s →
      s.on NVM_CMDSTAT.BUSY = false →
      BankIdle (nvmBankOf (s.get NVM_ADDR.ADDR)) s →
      regionOf (s.get NVM_ADDR.ADDR) = .nvm ∧ (s.get NVM_ADDR.ADDR) % 32 = 0 ∧ (s.get NVM_ADDR.ADDR) % 4096 / 32 + count.toNat + 1 ≤ 128 →
      nvmProtectedBlock (nvmBlockOf (s.get NVM_ADDR.ADDR)) = false →
      nvmReadOnly s (nvmBankOf (s.get NVM_ADDR.ADDR)) (nvmBlockOf (s.get NVM_ADDR.ADDR)) = false →
      (∀ i ≤ count.toNat, s.unitErased ((s.get NVM_ADDR.ADDR) + 32 * i) = true) →
      (s.get NVM_SRC.SRC) % 4 = 0 ∧ inSram (s.get NVM_SRC.SRC) (32 * (count.toNat + 1)) = true →
      s.xtsUnusable (s.get NVM_ADDR.ADDR) = false →
      ∃ t, exec (.nvmProgram count) s = .next t ∧
        t.on NVM_CMDSTAT.BUSY = true ∧
        t.get NVM_CMDSTAT.UNITS = 0 ∧
        (t.bank (nvmBankOf (s.get NVM_ADDR.ADDR))).prog = some ⟨.firmware, (s.get NVM_ADDR.ADDR), some (s.get NVM_SRC.SRC), [s.bytes (s.get NVM_SRC.SRC) 32], count.toNat + 1, 0, false, s.xtsUse (s.get NVM_ADDR.ADDR), none⟩ ∧
        t.on NVM_IRQ.CMDDONE = s.on NVM_IRQ.CMDDONE ∧
        t.mem = s.mem ∧
        RegsBut [Reg.NVM_CMDSTAT, Reg.NVM_STAT] s t) ∧
  (∀ (count : BitVec 7) (j : ProgJob) (s : State), Core Reg.NVM_CMD s →
      s.on NVM_CMDSTAT.BUSY = false →
      (s.bank (nvmBankOf (s.get NVM_ADDR.ADDR))).prog = some j →
      (s.bank (nvmBankOf (s.get NVM_ADDR.ADDR))).erase = none →
      regionOf (s.get NVM_ADDR.ADDR) = .nvm ∧ (s.get NVM_ADDR.ADDR) % 32 = 0 ∧ (s.get NVM_ADDR.ADDR) % 4096 / 32 + count.toNat + 1 ≤ 128 →
      nvmProtectedBlock (nvmBlockOf (s.get NVM_ADDR.ADDR)) = false →
      nvmReadOnly s (nvmBankOf (s.get NVM_ADDR.ADDR)) (nvmBlockOf (s.get NVM_ADDR.ADDR)) = false →
      (∀ i ≤ count.toNat, s.unitErased ((s.get NVM_ADDR.ADDR) + 32 * i) = true) →
      (s.get NVM_SRC.SRC) % 4 = 0 ∧ inSram (s.get NVM_SRC.SRC) (32 * (count.toNat + 1)) = true →
      s.xtsUnusable (s.get NVM_ADDR.ADDR) = false →
      ∃ t, exec (.nvmProgram count) s = .next t ∧
        t.on NVM_CMDSTAT.BUSY = true ∧
        t.get NVM_CMDSTAT.UNITS = 0 ∧
        (t.bank (nvmBankOf (s.get NVM_ADDR.ADDR))).prog = some j ∧
        (t.bank (nvmBankOf (s.get NVM_ADDR.ADDR))).progQ = rankInsert ProgJob.user { user := .firmware, addr := (s.get NVM_ADDR.ADDR), src := some (s.get NVM_SRC.SRC), data := [], left := count.toNat + 1 } (s.bank (nvmBankOf (s.get NVM_ADDR.ADDR))).progQ ∧
        t.mem = s.mem ∧
        RegsBut [Reg.NVM_CMDSTAT, Reg.NVM_STAT] s t) ∧
  (∀ (count : BitVec 7) (s : State), Core Reg.NVM_CMD s →
      s.on NVM_CMDSTAT.BUSY = false →
      regionOf (s.get NVM_ADDR.ADDR) ≠ .nvm ∨ (s.get NVM_ADDR.ADDR) % 32 ≠ 0 ∨ 128 < (s.get NVM_ADDR.ADDR) % 4096 / 32 + count.toNat + 1 →
      ∃ t, exec (.nvmProgram count) s = .next t ∧
        t.on NVM_CMDSTAT.BUSY = false ∧
        t.on NVM_IRQ.CMDDONE = true ∧
        t.nvm = s.nvm ∧
        t.mem = s.mem ∧
        t.get NVM_CMDSTAT.STATUS = nvBadarg ∧
        RegsBut [Reg.NVM_CMDSTAT, Reg.NVM_IRQ] s t) ∧
  (∀ (count : BitVec 7) (s : State), Core Reg.NVM_CMD s →
      s.on NVM_CMDSTAT.BUSY = false →
      regionOf (s.get NVM_ADDR.ADDR) = .nvm ∧ (s.get NVM_ADDR.ADDR) % 32 = 0 ∧ (s.get NVM_ADDR.ADDR) % 4096 / 32 + count.toNat + 1 ≤ 128 →
      nvmProtectedBlock (nvmBlockOf (s.get NVM_ADDR.ADDR)) = true →
      ∃ t, exec (.nvmProgram count) s = .next t ∧
        t.on NVM_CMDSTAT.BUSY = false ∧
        t.on NVM_IRQ.CMDDONE = true ∧
        t.nvm = s.nvm ∧
        t.mem = s.mem ∧
        t.get NVM_CMDSTAT.STATUS = nvProtected ∧
        RegsBut [Reg.NVM_CMDSTAT, Reg.NVM_IRQ] s t) ∧
  (∀ (count : BitVec 7) (s : State), Core Reg.NVM_CMD s →
      s.on NVM_CMDSTAT.BUSY = false →
      regionOf (s.get NVM_ADDR.ADDR) = .nvm ∧ (s.get NVM_ADDR.ADDR) % 32 = 0 ∧ (s.get NVM_ADDR.ADDR) % 4096 / 32 + count.toNat + 1 ≤ 128 →
      nvmProtectedBlock (nvmBlockOf (s.get NVM_ADDR.ADDR)) = false →
      nvmReadOnly s (nvmBankOf (s.get NVM_ADDR.ADDR)) (nvmBlockOf (s.get NVM_ADDR.ADDR)) = true →
      ∃ t, exec (.nvmProgram count) s = .next t ∧
        t.on NVM_CMDSTAT.BUSY = false ∧
        t.on NVM_IRQ.CMDDONE = true ∧
        t.nvm = s.nvm ∧
        t.mem = s.mem ∧
        t.get NVM_CMDSTAT.STATUS = nvRdonly ∧
        RegsBut [Reg.NVM_CMDSTAT, Reg.NVM_IRQ] s t) ∧
  (∀ (count : BitVec 7) (s : State), Core Reg.NVM_CMD s →
      s.on NVM_CMDSTAT.BUSY = false →
      regionOf (s.get NVM_ADDR.ADDR) = .nvm ∧ (s.get NVM_ADDR.ADDR) % 32 = 0 ∧ (s.get NVM_ADDR.ADDR) % 4096 / 32 + count.toNat + 1 ≤ 128 →
      nvmProtectedBlock (nvmBlockOf (s.get NVM_ADDR.ADDR)) = false →
      nvmReadOnly s (nvmBankOf (s.get NVM_ADDR.ADDR)) (nvmBlockOf (s.get NVM_ADDR.ADDR)) = false →
      (s.bank (nvmBankOf (s.get NVM_ADDR.ADDR))).erase.any (fun e => e.susp && e.block == (nvmBlockOf (s.get NVM_ADDR.ADDR))) = true →
      ∃ t, exec (.nvmProgram count) s = .next t ∧
        t.on NVM_CMDSTAT.BUSY = false ∧
        t.on NVM_IRQ.CMDDONE = true ∧
        t.nvm = s.nvm ∧
        t.mem = s.mem ∧
        t.get NVM_CMDSTAT.STATUS = nvSuspended ∧
        RegsBut [Reg.NVM_CMDSTAT, Reg.NVM_IRQ] s t) ∧
  (∀ (count : BitVec 7) (s : State), Core Reg.NVM_CMD s →
      s.on NVM_CMDSTAT.BUSY = false →
      regionOf (s.get NVM_ADDR.ADDR) = .nvm ∧ (s.get NVM_ADDR.ADDR) % 32 = 0 ∧ (s.get NVM_ADDR.ADDR) % 4096 / 32 + count.toNat + 1 ≤ 128 →
      nvmProtectedBlock (nvmBlockOf (s.get NVM_ADDR.ADDR)) = false →
      nvmReadOnly s (nvmBankOf (s.get NVM_ADDR.ADDR)) (nvmBlockOf (s.get NVM_ADDR.ADDR)) = false →
      (s.bank (nvmBankOf (s.get NVM_ADDR.ADDR))).erase.all (fun e => e.block != (nvmBlockOf (s.get NVM_ADDR.ADDR))) = true →
      (∃ i : Fin 128, i.val ≤ count.toNat ∧ s.unitErased ((s.get NVM_ADDR.ADDR) + 32 * i.val) = false) →
      ∃ t, exec (.nvmProgram count) s = .next t ∧
        t.on NVM_CMDSTAT.BUSY = false ∧
        t.on NVM_IRQ.CMDDONE = true ∧
        t.nvm = s.nvm ∧
        t.mem = s.mem ∧
        t.get NVM_CMDSTAT.STATUS = nvOverwrite ∧
        RegsBut [Reg.NVM_CMDSTAT, Reg.NVM_IRQ] s t) ∧
  (∀ (count : BitVec 7) (s : State), Core Reg.NVM_CMD s →
      s.on NVM_CMDSTAT.BUSY = false →
      regionOf (s.get NVM_ADDR.ADDR) = .nvm ∧ (s.get NVM_ADDR.ADDR) % 32 = 0 ∧ (s.get NVM_ADDR.ADDR) % 4096 / 32 + count.toNat + 1 ≤ 128 →
      nvmProtectedBlock (nvmBlockOf (s.get NVM_ADDR.ADDR)) = false →
      nvmReadOnly s (nvmBankOf (s.get NVM_ADDR.ADDR)) (nvmBlockOf (s.get NVM_ADDR.ADDR)) = false →
      (s.bank (nvmBankOf (s.get NVM_ADDR.ADDR))).erase = none →
      (∀ i ≤ count.toNat, s.unitErased ((s.get NVM_ADDR.ADDR) + 32 * i) = true) →
      (s.get NVM_SRC.SRC) % 4 ≠ 0 ∨ inSram (s.get NVM_SRC.SRC) (32 * (count.toNat + 1)) = false →
      ∃ t, exec (.nvmProgram count) s = .next t ∧
        t.on NVM_CMDSTAT.BUSY = false ∧
        t.on NVM_IRQ.CMDDONE = true ∧
        t.nvm = s.nvm ∧
        t.mem = s.mem ∧
        t.get NVM_CMDSTAT.STATUS = nvBus) ∧
  (∀ (count : BitVec 7) (s : State), Core Reg.NVM_CMD s →
      s.on NVM_CMDSTAT.BUSY = false →
      regionOf (s.get NVM_ADDR.ADDR) = .nvm ∧ (s.get NVM_ADDR.ADDR) % 32 = 0 ∧ (s.get NVM_ADDR.ADDR) % 4096 / 32 + count.toNat + 1 ≤ 128 →
      nvmProtectedBlock (nvmBlockOf (s.get NVM_ADDR.ADDR)) = false →
      nvmReadOnly s (nvmBankOf (s.get NVM_ADDR.ADDR)) (nvmBlockOf (s.get NVM_ADDR.ADDR)) = false →
      (s.bank (nvmBankOf (s.get NVM_ADDR.ADDR))).erase = none →
      (∀ i ≤ count.toNat, s.unitErased ((s.get NVM_ADDR.ADDR) + 32 * i) = true) →
      (s.get NVM_SRC.SRC) % 4 = 0 ∧ inSram (s.get NVM_SRC.SRC) (32 * (count.toNat + 1)) = true →
      s.xtsUnusable (s.get NVM_ADDR.ADDR) = true →
      ∃ t, exec (.nvmProgram count) s = .next t ∧
        t.on NVM_CMDSTAT.BUSY = false ∧
        t.on NVM_IRQ.CMDDONE = true ∧
        t.nvm = s.nvm ∧
        t.mem = s.mem ∧
        t.get NVM_CMDSTAT.STATUS = nvNokey ∧
        RegsBut [Reg.NVM_CMDSTAT, Reg.NVM_IRQ] s t) ∧
  (∀ (c : Instr) (count : BitVec 7) (ok : Bool) (s : State), Core Reg.NVM_CMD s →
      s.on NVM_CMDSTAT.BUSY = true →
      c ∈ [.nvmProgram count, .nvmErase, .nvmOtpprog ok] →
      ∃ t, exec (c) s = .next t ∧
        t.on NVM_IRQ.CMDOVR = true ∧
        t.nvm = s.nvm ∧
        t.mem = s.mem ∧
        RegsBut [Reg.NVM_IRQ] s t) ∧
  (∀ (s : State), Core Reg.NVM_CMD s →
      s.on NVM_CMDSTAT.BUSY = false →
      BankIdle (nvmBankOf (s.get NVM_ADDR.ADDR)) s →
      regionOf (s.get NVM_ADDR.ADDR) = .nvm →
      nvmProtectedBlock (nvmBlockOf (s.get NVM_ADDR.ADDR)) = false →
      nvmReadOnly s (nvmBankOf (s.get NVM_ADDR.ADDR)) (nvmBlockOf (s.get NVM_ADDR.ADDR)) = false →
      ∃ t, exec (.nvmErase) s = .next t ∧
        (t.bank (nvmBankOf (s.get NVM_ADDR.ADDR))).erase = some ⟨.firmware, (nvmBlockOf (s.get NVM_ADDR.ADDR)), false⟩ ∧
        (t.bank (nvmBankOf (s.get NVM_ADDR.ADDR))).abandoned = some (nvmBlockOf (s.get NVM_ADDR.ADDR)) ∧
        t.on NVM_CMDSTAT.BUSY = false ∧
        t.get NVM_CMDSTAT.STATUS = nvOk ∧
        t.on (NVM_ESTAT.BUSY (b2n (nvmBankOf (s.get NVM_ADDR.ADDR)))) = true ∧
        t.get (NVM_ESTAT.BLOCK (b2n (nvmBankOf (s.get NVM_ADDR.ADDR)))) = (nvmBlockOf (s.get NVM_ADDR.ADDR)) ∧
        t.mem = s.mem ∧
        RegsBut [Reg.NVM_CMDSTAT, Reg.NVM_STAT, Reg.NVM_ESTAT (b2n (nvmBankOf (s.get NVM_ADDR.ADDR)))] s t) ∧
  (∀ (j : ProgJob) (s : State), Core Reg.NVM_CMD s →
      s.on NVM_CMDSTAT.BUSY = false →
      (s.bank (nvmBankOf (s.get NVM_ADDR.ADDR))).prog = some j →
      (s.bank (nvmBankOf (s.get NVM_ADDR.ADDR))).erase = none →
      regionOf (s.get NVM_ADDR.ADDR) = .nvm →
      nvmProtectedBlock (nvmBlockOf (s.get NVM_ADDR.ADDR)) = false →
      nvmReadOnly s (nvmBankOf (s.get NVM_ADDR.ADDR)) (nvmBlockOf (s.get NVM_ADDR.ADDR)) = false →
      ∃ t, exec (.nvmErase) s = .next t ∧
        (t.bank (nvmBankOf (s.get NVM_ADDR.ADDR))).erase = none ∧
        (t.bank (nvmBankOf (s.get NVM_ADDR.ADDR))).eraseQ = rankInsert EraseJob.user { user := .firmware, block := (nvmBlockOf (s.get NVM_ADDR.ADDR)) } (s.bank (nvmBankOf (s.get NVM_ADDR.ADDR))).eraseQ ∧
        t.on NVM_CMDSTAT.BUSY = true ∧
        t.mem = s.mem ∧
        RegsBut [Reg.NVM_CMDSTAT] s t) ∧
  (∀ (s : State), Core Reg.NVM_CMD s →
      s.on NVM_CMDSTAT.BUSY = false →
      regionOf (s.get NVM_ADDR.ADDR) ≠ .nvm →
      ∃ t, exec (.nvmErase) s = .next t ∧
        t.on NVM_CMDSTAT.BUSY = false ∧
        t.get NVM_CMDSTAT.STATUS = nvBadarg ∧
        t.nvm = s.nvm ∧
        t.mem = s.mem ∧
        RegsBut [Reg.NVM_CMDSTAT] s t) ∧
  (∀ (s : State), Core Reg.NVM_CMD s →
      s.on NVM_CMDSTAT.BUSY = false →
      regionOf (s.get NVM_ADDR.ADDR) = .nvm →
      nvmProtectedBlock (nvmBlockOf (s.get NVM_ADDR.ADDR)) = true →
      ∃ t, exec (.nvmErase) s = .next t ∧
        t.on NVM_CMDSTAT.BUSY = false ∧
        t.get NVM_CMDSTAT.STATUS = nvProtected ∧
        t.nvm = s.nvm ∧
        t.mem = s.mem ∧
        RegsBut [Reg.NVM_CMDSTAT] s t) ∧
  (∀ (s : State), Core Reg.NVM_CMD s →
      s.on NVM_CMDSTAT.BUSY = false →
      regionOf (s.get NVM_ADDR.ADDR) = .nvm →
      nvmProtectedBlock (nvmBlockOf (s.get NVM_ADDR.ADDR)) = false →
      nvmReadOnly s (nvmBankOf (s.get NVM_ADDR.ADDR)) (nvmBlockOf (s.get NVM_ADDR.ADDR)) = true →
      ∃ t, exec (.nvmErase) s = .next t ∧
        t.on NVM_CMDSTAT.BUSY = false ∧
        t.get NVM_CMDSTAT.STATUS = nvRdonly ∧
        t.nvm = s.nvm ∧
        t.mem = s.mem ∧
        RegsBut [Reg.NVM_CMDSTAT] s t) ∧
  (∀ (s : State), Core Reg.NVM_CMD s →
      s.on NVM_CMDSTAT.BUSY = false →
      regionOf (s.get NVM_ADDR.ADDR) = .nvm →
      nvmProtectedBlock (nvmBlockOf (s.get NVM_ADDR.ADDR)) = false →
      nvmReadOnly s (nvmBankOf (s.get NVM_ADDR.ADDR)) (nvmBlockOf (s.get NVM_ADDR.ADDR)) = false →
      (s.bank (nvmBankOf (s.get NVM_ADDR.ADDR))).erase.any (fun e => e.susp) = true →
      ∃ t, exec (.nvmErase) s = .next t ∧
        t.on NVM_CMDSTAT.BUSY = false ∧
        t.get NVM_CMDSTAT.STATUS = nvSuspended ∧
        t.nvm = s.nvm ∧
        t.mem = s.mem ∧
        RegsBut [Reg.NVM_CMDSTAT] s t) ∧
  (∀ (l : Nat) (s : State), Core Reg.NVM_CMD s →
      s.on NVM_CMDSTAT.BUSY = false →
      regionOf (s.get NVM_ADDR.ADDR) = .otp →
      (s.get NVM_ADDR.ADDR) % 4 = 0 →
      otpLock ((s.get NVM_ADDR.ADDR) - 0x08800000) = some l →
      (s.otpWord l).getLsbD 0 = false →
      s.otpWord ((s.get NVM_ADDR.ADDR) - 0x08800000) = 0 →
      s.nvm.otpZero.contains ((s.get NVM_ADDR.ADDR) - 0x08800000) = false →
      ∃ t, exec (.nvmOtpprog true) s = .next t ∧
        t.on NVM_CMDSTAT.BUSY = true ∧
        t.nvm = { s.nvm with otp := some ((s.get NVM_ADDR.ADDR), s.reg Reg.NVM_OTPDATA) } ∧
        t.mem = s.mem ∧
        RegsBut [Reg.NVM_CMDSTAT] s t) ∧
  (∀ (l : Nat) (s : State), Core Reg.NVM_CMD s →
      s.on NVM_CMDSTAT.BUSY = false →
      regionOf (s.get NVM_ADDR.ADDR) = .otp →
      (s.get NVM_ADDR.ADDR) % 4 = 0 →
      otpLock ((s.get NVM_ADDR.ADDR) - 0x08800000) = some l →
      (s.otpWord l).getLsbD 0 = false →
      s.otpWord ((s.get NVM_ADDR.ADDR) - 0x08800000) = 0 →
      s.nvm.otpZero.contains ((s.get NVM_ADDR.ADDR) - 0x08800000) = false →
      ∃ t, exec (.nvmOtpprog false) s = .next t ∧
        t.on NVM_CMDSTAT.BUSY = false ∧
        t.on NVM_IRQ.CMDDONE = true ∧
        t.nvm = s.nvm ∧
        t.mem = s.mem ∧
        t.get NVM_CMDSTAT.STATUS = nvLowv ∧
        RegsBut [Reg.NVM_CMDSTAT, Reg.NVM_IRQ] s t) ∧
  (∀ (ok : Bool) (l : Nat) (s : State), Core Reg.NVM_CMD s →
      s.on NVM_CMDSTAT.BUSY = false →
      regionOf (s.get NVM_ADDR.ADDR) = .otp →
      (s.get NVM_ADDR.ADDR) % 4 = 0 →
      otpLock ((s.get NVM_ADDR.ADDR) - 0x08800000) = some l →
      (s.otpWord l).getLsbD 0 = false →
      s.otpWord ((s.get NVM_ADDR.ADDR) - 0x08800000) ≠ 0 ∨ s.nvm.otpZero.contains ((s.get NVM_ADDR.ADDR) - 0x08800000) = true →
      ∃ t, exec (.nvmOtpprog ok) s = .next t ∧
        t.on NVM_CMDSTAT.BUSY = false ∧
        t.on NVM_IRQ.CMDDONE = true ∧
        t.nvm = s.nvm ∧
        t.mem = s.mem ∧
        t.get NVM_CMDSTAT.STATUS = nvOverwrite ∧
        RegsBut [Reg.NVM_CMDSTAT, Reg.NVM_IRQ] s t) ∧
  (∀ (ok : Bool) (l : Nat) (s : State), Core Reg.NVM_CMD s →
      s.on NVM_CMDSTAT.BUSY = false →
      regionOf (s.get NVM_ADDR.ADDR) = .otp →
      (s.get NVM_ADDR.ADDR) % 4 = 0 →
      otpLock ((s.get NVM_ADDR.ADDR) - 0x08800000) = some l →
      (s.otpWord l).getLsbD 0 = true →
      ∃ t, exec (.nvmOtpprog ok) s = .next t ∧
        t.on NVM_CMDSTAT.BUSY = false ∧
        t.on NVM_IRQ.CMDDONE = true ∧
        t.nvm = s.nvm ∧
        t.mem = s.mem ∧
        t.get NVM_CMDSTAT.STATUS = nvProtected ∧
        RegsBut [Reg.NVM_CMDSTAT, Reg.NVM_IRQ] s t) ∧
  (∀ (ok : Bool) (s : State), Core Reg.NVM_CMD s →
      s.on NVM_CMDSTAT.BUSY = false →
      regionOf (s.get NVM_ADDR.ADDR) ≠ .otp ∨ (s.get NVM_ADDR.ADDR) % 4 ≠ 0 ∨ otpLock ((s.get NVM_ADDR.ADDR) - 0x08800000) = none →
      ∃ t, exec (.nvmOtpprog ok) s = .next t ∧
        t.on NVM_CMDSTAT.BUSY = false ∧
        t.on NVM_IRQ.CMDDONE = true ∧
        t.nvm = s.nvm ∧
        t.mem = s.mem ∧
        t.get NVM_CMDSTAT.STATUS = nvBadarg ∧
        RegsBut [Reg.NVM_CMDSTAT, Reg.NVM_IRQ] s t) ∧
  (∀ (a : Nat) (d : Word) (s : State), s.clocked = true →
      s.nvm.otp = some (a, d) →
      ∃ t, exec (.otpProgramDone) s = .next t ∧
        t.rw32 a = d ∧
        t.nvm.otp = none ∧
        t.nvm.otpZero = (if d = 0 then (a - 0x08800000) :: s.nvm.otpZero else s.nvm.otpZero) ∧
        t.on NVM_CMDSTAT.BUSY = false ∧
        t.get NVM_CMDSTAT.STATUS = nvOk ∧
        t.on NVM_IRQ.CMDDONE = true ∧
        RegsBut [Reg.NVM_CMDSTAT, Reg.NVM_IRQ] s t ∧
        Outside a 4 s t) ∧
  (∀ (s : State), s.clocked = false ∨ s.nvm.otp = none →
      ∃ t, exec (.otpProgramDone) s = .next t ∧
        t = s) ∧
  (∀ (k : Bool) (pulses : BitVec 4) (lost : List (Fin 128)) (j : ProgJob) (e : List Byte) (s : State), s.clocked = true →
      (s.bank k).prog = some j →
      j.user = .firmware →
      j.data.head?.isSome = true →
      xtsUnit j.xts j.addr (j.data.headD []) = some e →
      e.length = 32 →
      j.left = 1 →
      j.done < 128 →
      (s.bank k).eraseQ = [] →
      1 ≤ pulses.toNat ∧ pulses.toNat ≤ 8 →
      ∃ t, exec (.programUnitDone k true pulses lost) s = .next t ∧
        t.bytes j.addr 32 = e ∧
        t.on NVM_CMDSTAT.BUSY = false ∧
        t.get NVM_CMDSTAT.STATUS = (if j.retired then nvRetired else nvOk) ∧
        t.get NVM_CMDSTAT.UNITS = j.done + 1 ∧
        t.on NVM_IRQ.CMDDONE = true ∧
        t.get NVM_PVCOUNT.LAST = pulses.toNat ∧
        t.get NVM_PVCOUNT.MAX = max pulses.toNat (s.get NVM_PVCOUNT.MAX) ∧
        t.on NVM_IRQ.PVHIGH = (s.on NVM_IRQ.PVHIGH || decide (6 < pulses.toNat)) ∧
        Outside j.addr 32 s t) ∧
  (∀ (k : Bool) (pulses : BitVec 4) (lost : List (Fin 128)) (j : ProgJob) (e : List Byte) (s : State), s.clocked = true →
      (s.bank k).prog = some j →
      j.user = .firmware →
      j.data.head?.isSome = true →
      xtsUnit j.xts j.addr (j.data.headD []) = some e →
      e.length = 32 →
      2 ≤ j.left →
      j.done < 127 →
      1 ≤ pulses.toNat ∧ pulses.toNat ≤ 8 →
      ∃ t, exec (.programUnitDone k true pulses lost) s = .next t ∧
        t.bytes j.addr 32 = e ∧
        (t.bank k).prog.map (fun i => (i.addr, i.left, i.done, i.gapAt)) = some (j.addr + 32, j.left - 1, j.done + 1, some s.now) ∧
        t.get NVM_CMDSTAT.UNITS = j.done + 1 ∧
        t.on NVM_CMDSTAT.BUSY = s.on NVM_CMDSTAT.BUSY ∧
        t.get NVM_PVCOUNT.LAST = pulses.toNat ∧
        t.get NVM_PVCOUNT.MAX = max pulses.toNat (s.get NVM_PVCOUNT.MAX) ∧
        t.on NVM_IRQ.PVHIGH = (s.on NVM_IRQ.PVHIGH || decide (6 < pulses.toNat)) ∧
        RegsBut [Reg.NVM_CMDSTAT, Reg.NVM_PVCOUNT, Reg.NVM_IRQ] s t ∧
        Outside j.addr 32 s t) ∧
  (∀ (k : Bool) (pulses : BitVec 4) (lost : List (Fin 128)) (j : ProgJob) (e : List Byte) (s : State), s.clocked = true →
      (s.bank k).prog = some j →
      j.user = .firmware →
      j.data.head?.isSome = true →
      xtsUnit j.xts j.addr (j.data.headD []) = some e →
      e.length = 32 →
      s.on EVR_CFG.EN = false →
      (s.bank k).free = [] →
      (s.bank k).eraseQ = [] →
      j.done < 128 →
      ∃ t, exec (.programUnitDone k false pulses lost) s = .next t ∧
        t.on NVM_CMDSTAT.BUSY = false ∧
        t.get NVM_CMDSTAT.STATUS = nvPfail ∧
        t.get NVM_CMDSTAT.UNITS = j.done ∧
        t.on NVM_IRQ.CMDDONE = true ∧
        t.get NVM_PVCOUNT.LAST = 8 ∧
        (t.bank k).map = (s.bank k).map ∧
        Outside j.addr 32 s t) ∧
  (∀ (k : Bool) (pulses : BitVec 4) (j : ProgJob) (e : List Byte) (s : State), s.clocked = true →
      (s.bank k).prog = some j →
      j.user = .firmware →
      j.data.head?.isSome = true →
      xtsUnit j.xts j.addr (j.data.headD []) = some e →
      e.length = 32 →
      s.on EVR_CFG.EN = false →
      j.left = 1 →
      (s.bank k).free ≠ [] →
      (s.bank k).eraseQ = [] →
      ∃ t, exec (.programUnitDone k false pulses []) s = .next t ∧
        t.bytes j.addr 32 = e ∧
        t.get NVM_CMDSTAT.STATUS = nvRetired ∧
        t.on NVM_IRQ.RETIRE = true ∧
        (t.bank k).retired = (s.bank k).phys (nvmBlockOf j.addr) :: (s.bank k).retired ∧
        (t.bank k).phys (nvmBlockOf j.addr) ∈ (s.bank k).free ∧
        (t.bank k).phys (nvmBlockOf j.addr) ∉ (t.bank k).free ∧
        Outside j.addr 32 s t) ∧
  (∀ (k ok : Bool) (pulses : BitVec 4) (lost : List (Fin 128)) (j : ProgJob) (s : State), s.clocked = true →
      (s.bank k).prog = some j →
      j.user = .firmware →
      j.xts = .unusable →
      (s.bank k).eraseQ = [] →
      ∃ t, exec (.programUnitDone k ok pulses lost) s = .next t ∧
        t.get NVM_CMDSTAT.STATUS = nvNokey ∧
        t.on NVM_CMDSTAT.BUSY = false ∧
        t.on NVM_IRQ.CMDDONE = true ∧
        t.mem = s.mem) ∧
  (∀ (k ok : Bool) (pulses : BitVec 4) (lost : List (Fin 128)) (s : State), s.clocked = false ∨ (s.bank k).prog = none →
      ∃ t, exec (.programUnitDone k ok pulses lost) s = .next t ∧
        t = s) ∧
  (∀ (k : Bool) (b : Nat) (s : State), Erasing k b s →
      s.on EVR_CFG.EN = false →
      b < 512 →
      ∃ t, exec (.eraseComplete k true) s = .next t ∧
        (t.bank k).erase = none ∧
        (t.bank k).abandoned = none ∧
        t.on (NVM_ESTAT.BUSY (b2n k)) = false ∧
        t.on NVM_IRQ.EDONE = true ∧
        Sparse.get (fun _ => 0#32) (t.bank k).cycles ((s.bank k).phys b) = Sparse.get (fun _ => 0#32) (s.bank k).cycles ((s.bank k).phys b) + 1 ∧
        t.get (NVM_ESTAT.STATUS (b2n k)) = nvOk ∧
        (t.bank k).map = (s.bank k).map ∧
        (∀ x, t.rb x = if nvmBlockAddr k b ≤ x ∧ x < nvmBlockAddr k b + 4096 then 0xFF else s.rb x)) ∧
  (∀ (k : Bool) (b : Nat) (s : State), Erasing k b s →
      s.on EVR_CFG.EN = false →
      b < 512 →
      (s.bank k).free ≠ [] →
      ∃ t, exec (.eraseComplete k false) s = .next t ∧
        (t.bank k).erase = none ∧
        (t.bank k).abandoned = none ∧
        t.on (NVM_ESTAT.BUSY (b2n k)) = false ∧
        t.on NVM_IRQ.EDONE = true ∧
        Sparse.get (fun _ => 0#32) (t.bank k).cycles ((s.bank k).phys b) = Sparse.get (fun _ => 0#32) (s.bank k).cycles ((s.bank k).phys b) + 1 ∧
        t.get (NVM_ESTAT.STATUS (b2n k)) = nvRetired ∧
        t.on NVM_IRQ.RETIRE = true ∧
        (t.bank k).phys b ∈ (s.bank k).free ∧
        (∀ x, t.rb x = if nvmBlockAddr k b ≤ x ∧ x < nvmBlockAddr k b + 4096 then 0xFF else s.rb x)) ∧
  (∀ (k : Bool) (b : Nat) (s : State), Erasing k b s →
      s.on EVR_CFG.EN = false →
      b < 512 →
      (s.bank k).free = [] →
      ∃ t, exec (.eraseComplete k false) s = .next t ∧
        (t.bank k).erase = none ∧
        (t.bank k).abandoned = none ∧
        t.on (NVM_ESTAT.BUSY (b2n k)) = false ∧
        t.on NVM_IRQ.EDONE = true ∧
        Sparse.get (fun _ => 0#32) (t.bank k).cycles ((s.bank k).phys b) = Sparse.get (fun _ => 0#32) (s.bank k).cycles ((s.bank k).phys b) + 1 ∧
        t.get (NVM_ESTAT.STATUS (b2n k)) = nvEfail ∧
        (t.bank k).map = (s.bank k).map ∧
        Outside (nvmBlockAddr k b) 4096 s t) ∧
  (∀ (k ok : Bool) (s : State), s.clocked = false ∨ (s.bank k).erase = none →
      ∃ t, exec (.eraseComplete k ok) s = .next t ∧
        t = s) ∧
  (∀ (k : Bool) (e : EraseJob) (s : State), Core Reg.NVM_SUSP s →
      (s.bank k).erase = some e →
      (s.bank k).progQ = [] →
      ∃ t, exec (.eraseSuspend k) s = .next t ∧
        (t.bank k).erase = some { e with susp := true } ∧
        (t.bank k).suspReq = true ∧
        t.get NVM_SUSP.REQ = s.get NVM_SUSP.REQ ||| (b2n k + 1) ∧
        t.on (NVM_ESTAT.SUSP (b2n k)) = true ∧
        t.get NVM_STAT.SUSP = s.get NVM_STAT.SUSP ||| (b2n k + 1) ∧
        t.bank (!k) = s.bank (!k) ∧
        t.mem = s.mem ∧
        RegsBut [Reg.NVM_SUSP, Reg.NVM_STAT, Reg.NVM_ESTAT (b2n k)] s t) ∧
  (∀ (k : Bool) (s : State), Core Reg.NVM_SUSP s →
      (s.bank k).erase = none →
      ∃ t, exec (.eraseSuspend k) s = .next t ∧
        t = s) ∧
  (∀ (k : Bool) (e : EraseJob) (s : State), Core Reg.NVM_SUSP s →
      (s.bank k).erase = some e →
      e.susp = true →
      (s.bank k).prog = none →
      (s.bank k).progQ = [] →
      ∃ t, exec (.eraseResume k) s = .next t ∧
        (t.bank k).erase = some { e with susp := false } ∧
        (t.bank k).suspReq = false ∧
        t.get NVM_SUSP.REQ = s.get NVM_SUSP.REQ &&& (3 - (b2n k + 1)) ∧
        t.on (NVM_ESTAT.SUSP (b2n k)) = false ∧
        t.bank (!k) = s.bank (!k) ∧
        t.mem = s.mem ∧
        RegsBut [Reg.NVM_SUSP, Reg.NVM_STAT, Reg.NVM_ESTAT (b2n k)] s t) ∧
  (∀ (k : Bool) (e : EraseJob) (s : State), Core Reg.NVM_SUSP s →
      (s.bank k).erase = some e →
      (s.bank k).prog ≠ none →
      ∃ t, exec (.eraseResume k) s = .next t ∧
        (t.bank k).erase = some e ∧
        (t.bank k).suspReq = false ∧
        t.get NVM_SUSP.REQ = s.get NVM_SUSP.REQ &&& (3 - (b2n k + 1)) ∧
        t.mem = s.mem ∧
        RegsBut [Reg.NVM_SUSP] s t) ∧
  (∀ (k : Bool) (s : State), Core Reg.NVM_SUSP s →
      (s.bank k).erase = none →
      ∃ t, exec (.eraseResume k) s = .next t ∧
        t.get NVM_SUSP.REQ = s.get NVM_SUSP.REQ &&& (3 - (b2n k + 1)) ∧
        (t.bank k) = { s.bank k with suspReq := false } ∧
        t.mem = s.mem ∧
        RegsBut [Reg.NVM_SUSP] s t) ∧
  (∀ (m : Master) (a : Word) (z : Size) (wrong : Fin 6) (b : Nat) (s : State), m = .coreData ∨ m = .debug →
      s.clocked = true →
      regionOf a.toNat = .nvm →
      busRefusal s ⟨m, a.toNat, z, false⟩ = none →
      Erasing (nvmBankOf a.toNat) b s →
      s.on NVM_STAT.READY = true →
      ∃ t, exec (.nvmRead m a z wrong) s = .next t ∧
        t = s.put NVM_STAT.STATUS_READ 1) ∧
  (∀ (m : Master) (a : Word) (z : Size) (wrong : Fin 6) (b : Nat) (s : State), m ∈ [.secDma, .nvm, .dict, .coreInstr] →
      s.clocked = true →
      regionOf a.toNat = .nvm →
      busRefusal s ⟨m, a.toNat, z, false⟩ = none →
      Erasing (nvmBankOf a.toNat) b s →
      s.on NVM_STAT.READY = true →
      ∃ t, exec (.nvmRead m a z wrong) s = .next t ∧
        t = s) ∧
  (∀ (m : Master) (a : Word) (z : Size) (wrong : Fin 6) (s : State), s.clocked = true →
      regionOf a.toNat = .nvm →
      busRefusal s ⟨m, a.toNat, z, false⟩ = none →
      s.on NVM_STAT.READY = false →
      ∃ t, exec (.nvmRead m a z wrong) s = .next t ∧
        t = s) ∧
  (∀ (m : Master) (a : Word) (z : Size) (wrong : Fin 6) (s : State), s.clocked = true →
      regionOf a.toNat = .nvm →
      busRefusal s ⟨m, a.toNat, z, false⟩ = none →
      (s.bank (nvmBankOf a.toNat)).prog = none →
      (s.bank (nvmBankOf a.toNat)).erase = none →
      s.on NVM_STAT.READY = true →
      s.ewThresh ≤ wrong.val ∧ wrong.val < 5 →
      ∃ t, exec (.nvmRead m a z wrong) s = .next t ∧
        t.on NVM_IRQ.EW = true ∧
        t.get NVM_ECCCNT.EW = min (s.get NVM_ECCCNT.EW + 1) (2 ^ NVM_ECCCNT.EW.w - 1) ∧
        Sparse.get (fun _ => 0#32) t.nvm.lastEcc (masterId m) = eccWord a.toNat false wrong.val ∧
        t.mem = s.mem ∧
        RegsBut [Reg.NVM_IRQ, Reg.NVM_ECCCNT] s t) ∧
  (∀ (m : Master) (a : Word) (z : Size) (wrong : Fin 6) (s : State), s.clocked = true →
      regionOf a.toNat = .nvm →
      busRefusal s ⟨m, a.toNat, z, false⟩ = none →
      (s.bank (nvmBankOf a.toNat)).prog = none →
      (s.bank (nvmBankOf a.toNat)).erase = none →
      s.on NVM_STAT.READY = true →
      wrong.val < s.ewThresh →
      ∃ t, exec (.nvmRead m a z wrong) s = .next t ∧
        Sparse.get (fun _ => 0#32) t.nvm.lastEcc (masterId m) = eccWord a.toNat false wrong.val ∧
        t.mem = s.mem ∧
        t.regs = s.regs) ∧
  (∀ (m : Master) (a : Word) (z : Size) (s : State), s.clocked = true →
      regionOf a.toNat = .nvm →
      busRefusal s ⟨m, a.toNat, z, false⟩ = none →
      (s.bank (nvmBankOf a.toNat)).prog = none →
      (s.bank (nvmBankOf a.toNat)).erase = none →
      s.on NVM_STAT.READY = true →
      s.on EVR_CFG.EN = false →
      ∃ t, exec (.nvmRead m a z 5) s = .next t ∧
        t.on NVM_IRQ.UNCORR = true ∧
        t.get NVM_ECCCNT.UNCORR = min (s.get NVM_ECCCNT.UNCORR + 1) (2 ^ NVM_ECCCNT.UNCORR.w - 1) ∧
        t.reg Reg.NVM_ECCADDR = (if s.on NVM_IRQ.UNCORR then s.reg Reg.NVM_ECCADDR else a) ∧
        Sparse.get (fun _ => 0#32) t.nvm.lastEcc (masterId m) = eccWord a.toNat true 0 ∧
        t.mem = s.mem) ∧
  (∀ (s : State), s.clocked = true →
      s.on NVM_STAT.READY = false →
      s.nvm.bank0.abandoned = none ∧ s.nvm.bank1.abandoned = none →
      s.dict.meshWait = none ∧ s.dict.store.ops = [] →
      ∃ t, exec (.metadataLoad) s = .next t ∧
        t.on NVM_STAT.READY = true ∧
        t.nvm.scrubAt = s.nvm.scrubJ ∧
        t.on NVM_STAT.WEAR_WARN = s.wearHigh ∧
        t.on NVM_IRQ.REERASE = s.on NVM_IRQ.REERASE ∧
        t.mem = s.mem) ∧
  (∀ (k : Bool) (b : Nat) (s : State), s.clocked = true →
      s.on NVM_STAT.READY = false →
      s.on EVR_CFG.EN = false →
      (s.bank k).abandoned = some b →
      b < 512 →
      (s.bank (!k)).abandoned = none →
      s.dict.meshWait = none ∧ s.dict.store.ops = [] →
      ∃ t, exec (.metadataLoad) s = .next t ∧
        t.on NVM_STAT.READY = true ∧
        (t.bank k).abandoned = none ∧
        t.on NVM_IRQ.REERASE = true ∧
        Sparse.get (fun _ => 0#32) (t.bank k).cycles ((s.bank k).phys b) = Sparse.get (fun _ => 0#32) (s.bank k).cycles ((s.bank k).phys b) + 1 ∧
        (∀ x, t.rb x = if nvmBlockAddr k b ≤ x ∧ x < nvmBlockAddr k b + 4096 then 0xFF else s.rb x)) ∧
  (∀ (s : State), s.clocked = false ∨ (s.on NVM_STAT.READY = true ∧ s.dict.meshWait = none ∧ s.dict.store.ops = []) →
      ∃ t, exec (.metadataLoad) s = .next t ∧
        t = s) ∧
  (∀ (units : List (Fin 128 × Fin 6)) (s : State), s.clocked = true →
      s.on NVM_CTRL.SCRUBEN = true →
      s.on NVM_STAT.READY = true →
      s.nvmBusy (nvmBlockAddr (decide (512 ≤ s.nvm.scrubAt)) 0) = false →
      s.nvm.scrubAt < 1024 →
      s.on NVM_SCRLOG.EN = false →
      (∀ u ∈ units, u.2.val < s.ewThresh) →
      ∃ t, exec (.scrubStep units) s = .next t ∧
        t.nvm.scrubAt = (s.nvm.scrubAt + 1) % 1024 ∧
        t.nvm.scrubJ = (if (s.nvm.scrubAt + 1) % 64 = 0 then (s.nvm.scrubAt + 1) % 1024 else s.nvm.scrubJ) ∧
        t.get NVM_SCRUB.BANK * 512 + t.get NVM_SCRUB.BLOCK = (s.nvm.scrubAt + 1) % 1024 ∧
        t.get NVM_SCRUB.PASSES = (if s.nvm.scrubAt = 1023 then (s.get NVM_SCRUB.PASSES + 1) % 2 ^ NVM_SCRUB.PASSES.w else s.get NVM_SCRUB.PASSES) ∧
        t.mem = s.mem ∧
        RegsBut [Reg.NVM_SCRUB] s t) ∧
  (∀ (units : List (Fin 128 × Fin 6)) (s : State), s.clocked = true →
      s.on NVM_CTRL.SCRUBEN = true →
      s.on NVM_STAT.READY = true →
      s.nvmBusy (nvmBlockAddr (decide (512 ≤ s.nvm.scrubAt)) 0) = false →
      s.nvm.scrubAt < 1024 →
      s.on NVM_SCRLOG.EN = true →
      (∀ u ∈ units, u.2.val = 0) →
      inSram (1024 * s.get NVM_SCRLOG.ADDR + s.nvm.scrubAt) 1 = true →
      ∃ t, exec (.scrubStep units) s = .next t ∧
        t.nvm.scrubAt = (s.nvm.scrubAt + 1) % 1024 ∧
        t.nvm.scrubJ = (if (s.nvm.scrubAt + 1) % 64 = 0 then (s.nvm.scrubAt + 1) % 1024 else s.nvm.scrubJ) ∧
        t.get NVM_SCRUB.BANK * 512 + t.get NVM_SCRUB.BLOCK = (s.nvm.scrubAt + 1) % 1024 ∧
        t.get NVM_SCRUB.PASSES = (if s.nvm.scrubAt = 1023 then (s.get NVM_SCRUB.PASSES + 1) % 2 ^ NVM_SCRUB.PASSES.w else s.get NVM_SCRUB.PASSES) ∧
        t.rb (1024 * s.get NVM_SCRLOG.ADDR + s.nvm.scrubAt) = 0 ∧
        RegsBut [Reg.NVM_SCRUB] s t ∧
        Outside (1024 * s.get NVM_SCRLOG.ADDR + s.nvm.scrubAt) 1 s t) ∧
  (∀ (u : Fin 128) (w : Fin 6) (s : State), s.clocked = true →
      s.on NVM_CTRL.SCRUBEN = true →
      s.on NVM_STAT.READY = true →
      s.nvmBusy (nvmBlockAddr (decide (512 ≤ s.nvm.scrubAt)) 0) = false →
      s.nvm.scrubAt < 1024 →
      s.on NVM_SCRLOG.EN = false →
      s.on EVR_CFG.EN = false →
      s.ewThresh ≤ w.val ∧ w.val < 5 →
      (s.bank (decide (512 ≤ s.nvm.scrubAt))).prog = none ∧ (s.bank (decide (512 ≤ s.nvm.scrubAt))).erase = none →
      (s.bank (decide (512 ≤ s.nvm.scrubAt))).free ≠ [] →
      s.nvm.scrubAt % 512 < 496 →
      ∃ t, exec (.scrubStep [(u, w)]) s = .next t ∧
        t.nvm.scrubAt = (s.nvm.scrubAt + 1) % 1024 ∧
        t.nvm.scrubJ = (if (s.nvm.scrubAt + 1) % 64 = 0 then (s.nvm.scrubAt + 1) % 1024 else s.nvm.scrubJ) ∧
        t.get NVM_SCRUB.BANK * 512 + t.get NVM_SCRUB.BLOCK = (s.nvm.scrubAt + 1) % 1024 ∧
        t.get NVM_SCRUB.PASSES = (if s.nvm.scrubAt = 1023 then (s.get NVM_SCRUB.PASSES + 1) % 2 ^ NVM_SCRUB.PASSES.w else s.get NVM_SCRUB.PASSES) ∧
        t.on NVM_IRQ.REFRESH = true ∧
        t.on NVM_IRQ.EW = true ∧
        t.get NVM_ECCCNT.EW = min (s.get NVM_ECCCNT.EW + 1) (2 ^ NVM_ECCCNT.EW.w - 1) ∧
        ((t.bank (decide (512 ≤ s.nvm.scrubAt))).phys (s.nvm.scrubAt % 512) ∈ (s.bank (decide (512 ≤ s.nvm.scrubAt))).free ∨ (t.bank (decide (512 ≤ s.nvm.scrubAt))).phys (s.nvm.scrubAt % 512) = s.nvm.scrubAt % 512) ∧
        (s.bank (decide (512 ≤ s.nvm.scrubAt))).phys (s.nvm.scrubAt % 512) ∈ (t.bank (decide (512 ≤ s.nvm.scrubAt))).free ∧
        t.mem = s.mem) ∧
  (∀ (u : Fin 128) (s : State), s.clocked = true →
      s.on NVM_CTRL.SCRUBEN = true →
      s.on NVM_STAT.READY = true →
      s.nvmBusy (nvmBlockAddr (decide (512 ≤ s.nvm.scrubAt)) 0) = false →
      s.nvm.scrubAt < 1024 →
      s.on NVM_SCRLOG.EN = false →
      s.on EVR_CFG.EN = false →
      ∃ t, exec (.scrubStep [(u, 5)]) s = .next t ∧
        t.nvm.scrubAt = (s.nvm.scrubAt + 1) % 1024 ∧
        t.nvm.scrubJ = (if (s.nvm.scrubAt + 1) % 64 = 0 then (s.nvm.scrubAt + 1) % 1024 else s.nvm.scrubJ) ∧
        t.get NVM_SCRUB.BANK * 512 + t.get NVM_SCRUB.BLOCK = (s.nvm.scrubAt + 1) % 1024 ∧
        t.get NVM_SCRUB.PASSES = (if s.nvm.scrubAt = 1023 then (s.get NVM_SCRUB.PASSES + 1) % 2 ^ NVM_SCRUB.PASSES.w else s.get NVM_SCRUB.PASSES) ∧
        t.on NVM_IRQ.UNCORR = true ∧
        t.get NVM_ECCCNT.UNCORR = min (s.get NVM_ECCCNT.UNCORR + 1) (2 ^ NVM_ECCCNT.UNCORR.w - 1) ∧
        t.nvm.bank0 = s.nvm.bank0 ∧ t.nvm.bank1 = s.nvm.bank1 ∧
        t.mem = s.mem) ∧
  (∀ (units : List (Fin 128 × Fin 6)) (s : State), s.clocked = false ∨ s.on NVM_CTRL.SCRUBEN = false ∨ s.on NVM_STAT.READY = false ∨ s.nvmBusy (nvmBlockAddr (decide (512 ≤ s.nvm.scrubAt)) 0) = true →
      ∃ t, exec (.scrubStep units) s = .next t ∧
        t = s)

/-- The serial memory port: reads, stores and direct commands. XIP_LINE_FILL and XIP_WRITE that the bus takes, WRITE_QUEUE_ENTRY, STATUS_POLL, POLL_TIMEOUT, DIRECT_COMMAND and DIRECT_COMMAND_END. A line has 32 bytes, its set 4 ways. (1) XIP_LINE_FILL with the cache on, no store waiting, no poll, its line neither cached nor partly collected and its set not full adds the fetched line as the newest and changes nothing else. (2) With the set full the set's oldest line goes. (3) While a store waits or a poll runs it changes nothing. (4) Nor with the cache off, the line cached or partly collected. (5) XIP_WRITE outside the XTS regions, with room and no block partly collected, queues its bytes, drops the line from the cache and changes nothing else. (6) With a block partly collected it also discards that, sets XTSPART and counts one WDROP. (7) With the queue full it waits and changes nothing. (8) In an XTS region, no other block partly collected, a store that leaves bytes of its block missing only adds its own to the buffer and drops the line. (9) One that completes the block, its keys usable, queues the block encrypted and empties the buffer. (10) With the queue full it waits and changes nothing. (11) Outside the window, or without a clock, XIP_WRITE changes nothing. (12) WRITE_QUEUE_ENTRY with no poll and no direct command programs the oldest entry, every other byte as before, and begins to poll its select. (13) Entries ahead of a direct command go first; it waits for one fewer. (14) With the port off, a poll, an empty queue, or a direct command running or next, it changes nothing. (15) STATUS_POLL with the busy bit set changes nothing. (16) With it clear, no direct command next, the poll ends; WDONE sets when the queue is empty. (17) A direct command that is next starts. (18) A polled direct command ends with DDONE, and with WREN the cache is empty. (19) With no poll, or the port off, it changes nothing. (20) POLL_TIMEOUT of an entry's poll, no direct command there, ends it, discards the queue, counts its entries in WDROP and one TOUT and sets WTOUT. (21) A direct command that waited starts. (22) A polled direct command ends so too. (23) With no poll, or the port off, it changes nothing. (24) DIRECT_COMMAND with none there, the queue empty and no poll starts with its buffer; memory and every register but SPIM_DCMD stay. (25) Behind entries or a poll it waits for them. (26) With one there it only sets DOVR. (27) DIRECT_COMMAND_END of an unpolled read into SRAM stores what was read, at most 256 bytes, and ends with DDONE, the cache empty with WREN; every other byte stays. (28) Of an unpolled write that changes one byte of the memory, that byte only. (29) Of a polled one that is no read it begins the poll. (30) With none running, or the port off, it changes nothing. -/
def Obligations.MemoryPort : Prop :=
  (∀ (m : Master) (a : Word) (s : State), s.clocked = true →
      regionOf (a.toNat / 4 * 4) = .xip →
      busRefusal s ⟨m, (a.toNat / 4 * 4), .b32, false⟩ = none →
      s.spim.queue = [] ∧ s.spimPolls = false →
      s.on SPIM_CFG.CACHEEN = true →
      s.spim.cache.any (fun l => l.1 == (a.toNat / 32 * 32)) = false →
      s.spim.part.all (fun p => p.1 / 32 * 32 != (a.toNat / 32 * 32)) = true →
      (s.spim.cache.filter (fun l => l.1 / 32 % 64 == (a.toNat / 32 * 32) / 32 % 64)).length < 4 →
      ∃ t, exec (.xipLineFill m a) s = .next t ∧
        t = s.modSpim (fun p => { p with cache := p.cache ++ [((a.toNat / 32 * 32), (List.range 32).map (fun i => s.xipFetch ((a.toNat / 32 * 32) + i)))] })) ∧
  (∀ (m : Master) (a : Word) (old : Nat × List Byte) (s : State), s.clocked = true →
      regionOf (a.toNat / 4 * 4) = .xip →
      busRefusal s ⟨m, (a.toNat / 4 * 4), .b32, false⟩ = none →
      s.spim.queue = [] ∧ s.spimPolls = false →
      s.on SPIM_CFG.CACHEEN = true →
      s.spim.cache.any (fun l => l.1 == (a.toNat / 32 * 32)) = false →
      s.spim.part.all (fun p => p.1 / 32 * 32 != (a.toNat / 32 * 32)) = true →
      (s.spim.cache.filter (fun l => l.1 / 32 % 64 == (a.toNat / 32 * 32) / 32 % 64)).head? = some old ∧ 4 ≤ (s.spim.cache.filter (fun l => l.1 / 32 % 64 == (a.toNat / 32 * 32) / 32 % 64)).length →
      ∃ t, exec (.xipLineFill m a) s = .next t ∧
        t = s.modSpim (fun p => { p with cache := p.cache.erase old ++ [((a.toNat / 32 * 32), (List.range 32).map (fun i => s.xipFetch ((a.toNat / 32 * 32) + i)))] })) ∧
  (∀ (m : Master) (a : Word) (s : State), s.clocked = true →
      regionOf (a.toNat / 4 * 4) = .xip →
      busRefusal s ⟨m, (a.toNat / 4 * 4), .b32, false⟩ = none →
      s.spim.queue ≠ [] ∨ s.spimPolls = true →
      ∃ t, exec (.xipLineFill m a) s = .next t ∧
        t = s) ∧
  (∀ (m : Master) (a : Word) (s : State), s.clocked = true →
      regionOf (a.toNat / 4 * 4) = .xip →
      busRefusal s ⟨m, (a.toNat / 4 * 4), .b32, false⟩ = none →
      s.on SPIM_CFG.CACHEEN = false ∨ s.spim.cache.any (fun l => l.1 == (a.toNat / 32 * 32)) = true ∨ s.spim.part.any (fun p => p.1 / 32 * 32 == (a.toNat / 32 * 32)) = true →
      ∃ t, exec (.xipLineFill m a) s = .next t ∧
        t = s) ∧
  (∀ (m : Master) (a : Word) (z : Size) (d : BitVec 64) (s : State), s.clocked = true →
      regionOf a.toNat = .xip →
      busRefusal s ⟨m, a.toNat, z, true⟩ = none →
      s.xtsRegion a.toNat = none →
      s.spim.queue.length < 4 →
      s.spim.part = none →
      ∃ t, exec (.xipWrite m a z d) s = .next t ∧
        t = s.modSpim (fun p => { p with queue := p.queue ++ [⟨a.toNat, leBytes (sizeBytes z) d.toNat⟩], cache := p.cache.filter (fun l => l.1 != (a.toNat / 32 * 32)) })) ∧
  (∀ (m : Master) (a : Word) (z : Size) (d : BitVec 64) (s : State), s.clocked = true →
      regionOf a.toNat = .xip →
      busRefusal s ⟨m, a.toNat, z, true⟩ = none →
      s.xtsRegion a.toNat = none →
      s.spim.queue.length < 4 →
      s.spim.part ≠ none →
      ∃ t, exec (.xipWrite m a z d) s = .next t ∧
        t.spim = { s.spim with queue := s.spim.queue ++ [⟨a.toNat, leBytes (sizeBytes z) d.toNat⟩], part := none, cache := s.spim.cache.filter (fun l => l.1 != (a.toNat / 32 * 32)) } ∧
        t.on SPIM_IRQ.XTSPART = true ∧
        t.get SPIM_CNT.WDROP = min (s.get SPIM_CNT.WDROP + 1) (2 ^ SPIM_CNT.WDROP.w - 1) ∧
        t.mem = s.mem ∧
        RegsBut [Reg.SPIM_IRQ, Reg.SPIM_CNT] s t) ∧
  (∀ (m : Master) (a : Word) (z : Size) (d : BitVec 64) (s : State), s.clocked = true →
      regionOf a.toNat = .xip →
      busRefusal s ⟨m, a.toNat, z, true⟩ = none →
      s.xtsRegion a.toNat = none →
      4 ≤ s.spim.queue.length →
      ∃ t, exec (.xipWrite m a z d) s = .next t ∧
        t = s) ∧
  (∀ (m : Master) (a : Word) (z : Size) (d : BitVec 64) (n : Nat) (s : State), s.clocked = true →
      regionOf a.toNat = .xip →
      busRefusal s ⟨m, a.toNat, z, true⟩ = none →
      s.xtsRegion a.toNat = some n →
      s.spim.part.all (fun p => p.1 == (a.toNat / 16 * 16)) = true →
      (collect ((s.spim.part.map (·.2)).getD (List.replicate 16 none)) (a.toNat % 16) (leBytes (sizeBytes z) d.toNat)).any (fun b => b.isNone) = true →
      ∃ t, exec (.xipWrite m a z d) s = .next t ∧
        t = s.modSpim (fun p => { p with part := some ((a.toNat / 16 * 16), (collect ((s.spim.part.map (·.2)).getD (List.replicate 16 none)) (a.toNat % 16) (leBytes (sizeBytes z) d.toNat))), cache := p.cache.filter (fun l => l.1 != (a.toNat / 32 * 32)) })) ∧
  (∀ (m : Master) (a : Word) (z : Size) (d : BitVec 64) (n : Nat) (k1 k2 : List Byte) (s : State), s.clocked = true →
      regionOf a.toNat = .xip →
      busRefusal s ⟨m, a.toNat, z, true⟩ = none →
      s.xtsRegion a.toNat = some n →
      s.spim.part.all (fun p => p.1 == (a.toNat / 16 * 16)) = true →
      (collect ((s.spim.part.map (·.2)).getD (List.replicate 16 none)) (a.toNat % 16) (leBytes (sizeBytes z) d.toNat)).all (fun b => b.isSome) = true →
      s.xtsKeys n = some (k1, k2) →
      s.spim.queue.length < 4 →
      ∃ t, exec (.xipWrite m a z d) s = .next t ∧
        t = s.modSpim (fun p => { p with part := none, queue := p.queue ++ [⟨(a.toNat / 16 * 16), (xtsEnc k1 k2 (a.toNat / 4096 - s.get (SEC_XTSA.BASE n)) (a.toNat % 4096 / 16) ((collect ((s.spim.part.map (·.2)).getD (List.replicate 16 none)) (a.toNat % 16) (leBytes (sizeBytes z) d.toNat)).map (fun b => b.getD 0)))⟩], cache := p.cache.filter (fun l => l.1 != (a.toNat / 32 * 32)) })) ∧
  (∀ (m : Master) (a : Word) (z : Size) (d : BitVec 64) (n : Nat) (k1 k2 : List Byte) (s : State), s.clocked = true →
      regionOf a.toNat = .xip →
      busRefusal s ⟨m, a.toNat, z, true⟩ = none →
      s.xtsRegion a.toNat = some n →
      s.spim.part.all (fun p => p.1 == (a.toNat / 16 * 16)) = true →
      (collect ((s.spim.part.map (·.2)).getD (List.replicate 16 none)) (a.toNat % 16) (leBytes (sizeBytes z) d.toNat)).all (fun b => b.isSome) = true →
      s.xtsKeys n = some (k1, k2) →
      4 ≤ s.spim.queue.length →
      ∃ t, exec (.xipWrite m a z d) s = .next t ∧
        t = s) ∧
  (∀ (m : Master) (a : Word) (z : Size) (d : BitVec 64) (s : State), s.clocked = false ∨ regionOf a.toNat ≠ .xip →
      ∃ t, exec (.xipWrite m a z d) s = .next t ∧
        t = s) ∧
  (∀ (e : WqEntry) (rest : List WqEntry) (sel o : Nat) (s : State), s.spimOn = true ∧ s.spimPolls = false →
      s.spim.queue = e :: rest →
      s.xipTarget (e.addr - 0x10000000) = some (sel, o) →
      s.spim.direct = none →
      ∃ t, exec (.writeQueueEntry) s = .next t ∧
        t.bytes e.addr e.data.length = e.data ∧
        t.spim = { s.spim with queue := rest, poll := some sel } ∧
        t.regs = s.regs ∧
        Outside e.addr e.data.length s t) ∧
  (∀ (e : WqEntry) (rest : List WqEntry) (sel o : Nat) (w : Word) (b n : Nat) (s : State), s.spimOn = true ∧ s.spimPolls = false →
      s.spim.queue = e :: rest →
      s.xipTarget (e.addr - 0x10000000) = some (sel, o) →
      s.spim.direct = some (w, b, .waiting (n + 1)) →
      ∃ t, exec (.writeQueueEntry) s = .next t ∧
        t.bytes e.addr e.data.length = e.data ∧
        t.spim = { s.spim with queue := rest, poll := some sel, direct := some (w, b, .waiting n) } ∧
        t.regs = s.regs ∧
        Outside e.addr e.data.length s t) ∧
  (∀ (s : State), s.spimOn = false ∨ s.spimPolls = true ∨ s.spim.queue = [] ∨ s.spim.direct.any (fun d => d.2.2 == .running || d.2.2 == .waiting 0) = true →
      ∃ t, exec (.writeQueueEntry) s = .next t ∧
        t = s) ∧
  (∀ (v : BitVec 8) (k : Nat) (s : State), s.spimOn = true →
      s.spim.poll = some k →
      v.getLsbD (s.get (SPIM_WR.BUSYBIT k)) = true →
      ∃ t, exec (.statusPoll v) s = .next t ∧
        t = s) ∧
  (∀ (v : BitVec 8) (k : Nat) (s : State), s.spimOn = true →
      s.spim.poll = some k →
      v.getLsbD (s.get (SPIM_WR.BUSYBIT k)) = false →
      s.spim.direct.all (fun d => d.2.2 != .waiting 0) = true →
      ∃ t, exec (.statusPoll v) s = .next t ∧
        t.spim = { s.spim with poll := none } ∧
        t.on SPIM_IRQ.WDONE = (s.on SPIM_IRQ.WDONE || s.spim.queue.isEmpty) ∧
        t.mem = s.mem ∧
        RegsBut [Reg.SPIM_IRQ] s t) ∧
  (∀ (v : BitVec 8) (k : Nat) (w : Word) (b : Nat) (s : State), s.spimOn = true →
      s.spim.poll = some k →
      v.getLsbD (s.get (SPIM_WR.BUSYBIT k)) = false →
      s.spim.direct = some (w, b, .waiting 0) →
      ∃ t, exec (.statusPoll v) s = .next t ∧
        t.spim = { s.spim with poll := none, direct := some (w, b, .running) } ∧
        t.on SPIM_IRQ.WDONE = (s.on SPIM_IRQ.WDONE || s.spim.queue.isEmpty) ∧
        t.mem = s.mem ∧
        RegsBut [Reg.SPIM_IRQ] s t) ∧
  (∀ (v : BitVec 8) (w : Word) (b : Nat) (s : State), s.spimOn = true →
      s.spim.poll = none ∧ s.spim.direct = some (w, b, .polling) →
      v.getLsbD (s.get (SPIM_WR.BUSYBIT (SPIM_DCMD.CS.of w))) = false →
      ∃ t, exec (.statusPoll v) s = .next t ∧
        t.spim = { s.spim with direct := none, cache := if SPIM_DCMD.WREN.of w = 1 then [] else s.spim.cache } ∧
        t.on SPIM_IRQ.DDONE = true ∧
        t.mem = s.mem ∧
        RegsBut [Reg.SPIM_IRQ] s t) ∧
  (∀ (v : BitVec 8) (s : State), s.spimOn = false ∨ s.spimPolls = false →
      ∃ t, exec (.statusPoll v) s = .next t ∧
        t = s) ∧
  (∀ (s : State), s.spimOn = true →
      s.spim.poll.isSome = true ∧ s.spim.direct = none →
      ∃ t, exec (.pollTimeout) s = .next t ∧
        t.spim = { s.spim with poll := none, queue := [] } ∧
        t.on SPIM_IRQ.WTOUT = true ∧
        t.get SPIM_CNT.WDROP = min (s.get SPIM_CNT.WDROP + s.spim.queue.length) (2 ^ SPIM_CNT.WDROP.w - 1) ∧
        t.get SPIM_CNT.TOUT = min (s.get SPIM_CNT.TOUT + 1) (2 ^ SPIM_CNT.TOUT.w - 1) ∧
        t.mem = s.mem ∧
        RegsBut [Reg.SPIM_IRQ, Reg.SPIM_CNT] s t) ∧
  (∀ (w : Word) (b n : Nat) (s : State), s.spimOn = true →
      s.spim.poll.isSome = true ∧ s.spim.direct = some (w, b, .waiting n) →
      ∃ t, exec (.pollTimeout) s = .next t ∧
        t.spim = { s.spim with poll := none, queue := [], direct := some (w, b, .running) } ∧
        t.on SPIM_IRQ.WTOUT = true ∧
        t.get SPIM_CNT.WDROP = min (s.get SPIM_CNT.WDROP + s.spim.queue.length) (2 ^ SPIM_CNT.WDROP.w - 1) ∧
        t.get SPIM_CNT.TOUT = min (s.get SPIM_CNT.TOUT + 1) (2 ^ SPIM_CNT.TOUT.w - 1) ∧
        t.mem = s.mem ∧
        RegsBut [Reg.SPIM_IRQ, Reg.SPIM_CNT] s t) ∧
  (∀ (w : Word) (b : Nat) (s : State), s.spimOn = true →
      s.spim.poll = none ∧ s.spim.direct = some (w, b, .polling) →
      ∃ t, exec (.pollTimeout) s = .next t ∧
        t.spim = { s.spim with queue := [], direct := none, cache := if SPIM_DCMD.WREN.of w = 1 then [] else s.spim.cache } ∧
        t.on SPIM_IRQ.DDONE = true ∧
        t.on SPIM_IRQ.WTOUT = true ∧
        t.get SPIM_CNT.WDROP = min (s.get SPIM_CNT.WDROP + s.spim.queue.length) (2 ^ SPIM_CNT.WDROP.w - 1) ∧
        t.get SPIM_CNT.TOUT = min (s.get SPIM_CNT.TOUT + 1) (2 ^ SPIM_CNT.TOUT.w - 1) ∧
        t.mem = s.mem ∧
        RegsBut [Reg.SPIM_IRQ, Reg.SPIM_CNT] s t) ∧
  (∀ (s : State), s.spimOn = false ∨ s.spimPolls = false →
      ∃ t, exec (.pollTimeout) s = .next t ∧
        t = s) ∧
  (∀ (d : Word) (s : State), Core Reg.SPIM_DCMD s →
      s.spim.direct = none ∧ s.spim.queue = [] ∧ s.spim.poll = none →
      ∃ t, exec (.directCommand d) s = .next t ∧
        t.spim = { s.spim with direct := some (d ||| 0x80000000#32, s.get SPIM_DBUF.ADDR * 4, .running) } ∧
        t.mem = s.mem ∧
        RegsBut [Reg.SPIM_DCMD] s t) ∧
  (∀ (d : Word) (s : State), Core Reg.SPIM_DCMD s →
      s.spim.direct = none →
      s.spim.queue ≠ [] ∨ s.spim.poll ≠ none →
      ∃ t, exec (.directCommand d) s = .next t ∧
        t.spim = { s.spim with direct := some (d ||| 0x80000000#32, s.get SPIM_DBUF.ADDR * 4, .waiting s.spim.queue.length) } ∧
        t.mem = s.mem ∧
        RegsBut [Reg.SPIM_DCMD] s t) ∧
  (∀ (d : Word) (s : State), Core Reg.SPIM_DCMD s →
      s.spim.direct.isSome = true →
      ∃ t, exec (.directCommand d) s = .next t ∧
        t = s.put SPIM_IRQ.DOVR 1) ∧
  (∀ (rd : List (BitVec 8)) (d : Word) (b : Nat) (s : State), s.spimOn = true →
      s.spim.direct = some (d, b, .running) →
      SPIM_DCMD.DIR.of d = 1 →
      rd.length = min 256 (SPIM_DCMD.LEN.of d) ∧ inSram b rd.length = true →
      SPIM_DCMD.POLL.of d = 0 →
      ∃ t, exec (.directCommandEnd rd []) s = .next t ∧
        t.bytes b rd.length = rd ∧
        t.spim = { s.spim with direct := none, cache := if SPIM_DCMD.WREN.of d = 1 then [] else s.spim.cache } ∧
        t.on SPIM_IRQ.DDONE = true ∧
        RegsBut [Reg.SPIM_IRQ] s t ∧
        Outside b rd.length s t) ∧
  (∀ (rd : List (BitVec 8)) (d : Word) (b : Nat) (o : BitVec 26) (v : BitVec 8) (s : State), s.spimOn = true →
      s.spim.direct = some (d, b, .running) →
      SPIM_DCMD.DIR.of d ≠ 1 →
      SPIM_DCMD.POLL.of d = 0 →
      ∃ t, exec (.directCommandEnd rd [(o, v)]) s = .next t ∧
        t.rb (0x10000000 + o.toNat) = v ∧
        t.spim = { s.spim with direct := none, cache := if SPIM_DCMD.WREN.of d = 1 then [] else s.spim.cache } ∧
        t.on SPIM_IRQ.DDONE = true ∧
        RegsBut [Reg.SPIM_IRQ] s t ∧
        Outside (0x10000000 + o.toNat) 1 s t) ∧
  (∀ (rd : List (BitVec 8)) (d : Word) (b : Nat) (s : State), s.spimOn = true →
      s.spim.direct = some (d, b, .running) →
      SPIM_DCMD.DIR.of d ≠ 1 →
      SPIM_DCMD.POLL.of d = 1 →
      ∃ t, exec (.directCommandEnd rd []) s = .next t ∧
        t = s.modSpim (fun p => { p with direct := some (d, b, .polling) })) ∧
  (∀ (rd : List (BitVec 8)) (ext : List (BitVec 26 × BitVec 8)) (s : State), s.spimOn = false ∨ s.spim.direct.all (fun d => d.2.2 != .running) = true →
      ∃ t, exec (.directCommandEnd rd ext) s = .next t ∧
        t = s)

/-- Frames at the host port. HOST_NOP, HOST_REPEAT, MBOX_PUT, MBOX_GET, HOST_ATTN, HOST_DICT of an empty payload, BROKEN_FRAME, BUSY_FRAME and SPIS_ENABLE_WRITE, the last as the bus takes it. A frame taken at a ready port, of at most 2,048 bytes, shows its TAG and command, sets FRAME, clears the noted break, and ATTN.REPLY when it is as long as the kept reply; memory and every register not named stay. (1) HOST_NOP is answered OK. (2) HOST_REPEAT keeps the kept reply. (3) MBOX_PUT of a record that fits before mailbox 0's end and leaves 4 bytes writes its length, 0 and its bytes at WR, moves WR past it, sets MBOX and is answered OK; RD and every byte outside the record stay. (4) One that fits only from the start puts the pad mark at WR and the record at the start; every byte outside the mailbox stays. (5) One that does not fit is answered FULL. (6) So is any with the mailbox off. (7) An empty one is answered BADCMD. (8) MBOX_GET returns mailbox 1's oldest record, at most 2,048 bytes, moves RD past it and sets MBGET. (9) One that stands behind a pad mark is taken from the start. (10) With the mailbox empty or off the reply is empty. (11) With a payload BADCMD. (12) HOST_ATTN clears the SW bits its mask names and returns SPIS_ATTN after that. (13) Of another length than 4 BADCMD. (14) HOST_DICT without a request is answered BADCMD; the dictionary stays. (15) Any of the six, or BUSY_FRAME, while a reply is outstanding is not taken: only BUSY counts, and that the reply will be late is noted. (16) One longer than 2,048 is broken with BADLEN, counted; the kept reply stays. (17) One while HS_RDY is low is broken with OVERRUN. (18) With the port off, its clock gated or none, frames change nothing. (19) BROKEN_FRAME of codes 1 to 5 notes the code, counts it in its own counter and sets BROKEN, not FRAME; the kept reply stays. (20) While a reply is outstanding it counts BUSY only. (21) Of another code, or with the port off, it changes nothing. (22) BUSY_FRAME with no reply outstanding changes nothing. (23) SPIS_ENABLE_WRITE with EN = 0 drops the kept and the outstanding reply and ends the host's dictionary session. (24) With EN = 1 it keeps both. -/
def Obligations.HostPort : Prop :=
  (∀ (tag : BitVec 4) (b : List (BitVec 8)) (s : State), HostReady s →
      b.length ≤ 2048 →
      ∃ t, exec (.hostNop tag b) s = .next t ∧
        t.spis = { s.spis with kept := some ⟨0, tag.toNat, []⟩, brk := 0, busySeen := false, taken := s.spis.taken + 1 } ∧
        t.get SPIS_STAT.LASTTAG = tag.toNat ∧
        t.get SPIS_STAT.LASTCMD = 0 ∧
        t.on SPIS_IRQ.FRAME = true ∧
        t.on SPIS_ATTN.REPLY = (s.on SPIS_ATTN.REPLY && decide (b.length < ((s.spis.kept.map (fun r => r.payload.length)).getD 0))) ∧
        t.mem = s.mem ∧
        RegsBut [Reg.SPIS_STAT, Reg.SPIS_IRQ, Reg.SPIS_ATTN] s t) ∧
  (∀ (tag : BitVec 4) (b : List (BitVec 8)) (s : State), HostReady s →
      b.length ≤ 2048 →
      ∃ t, exec (.hostRepeat tag b) s = .next t ∧
        t.spis = { s.spis with brk := 0, busySeen := false, taken := s.spis.taken + 1 } ∧
        t.get SPIS_STAT.LASTTAG = tag.toNat ∧
        t.get SPIS_STAT.LASTCMD = 1 ∧
        t.on SPIS_IRQ.FRAME = true ∧
        t.on SPIS_ATTN.REPLY = (s.on SPIS_ATTN.REPLY && decide (b.length < ((s.spis.kept.map (fun r => r.payload.length)).getD 0))) ∧
        t.mem = s.mem ∧
        RegsBut [Reg.SPIS_STAT, Reg.SPIS_IRQ, Reg.SPIS_ATTN] s t) ∧
  (∀ (tag : BitVec 4) (b : List (BitVec 8)) (s : State), HostReady s →
      0 < b.length ∧ b.length ≤ 2048 →
      s.mbOn 0 = true →
      4 * s.get (SPIS_MBPTR.WR 0) < s.mbSize 0 ∧ 4 * s.get (SPIS_MBPTR.RD 0) < s.mbSize 0 →
      4 * s.get (SPIS_MBPTR.WR 0) + (mbRecord b).length ≤ s.mbSize 0 →
      (mbRecord b).length + 4 ≤ (if s.get (SPIS_MBPTR.RD 0) = s.get (SPIS_MBPTR.WR 0) then s.mbSize 0 else (4 * s.get (SPIS_MBPTR.RD 0) + s.mbSize 0 - 4 * s.get (SPIS_MBPTR.WR 0)) % s.mbSize 0) →
      ∃ t, exec (.mboxPut tag b) s = .next t ∧
        t.rn (s.mbBase 0 + 4 * s.get (SPIS_MBPTR.WR 0)) 2 = b.length ∧
        t.rn (s.mbBase 0 + 4 * s.get (SPIS_MBPTR.WR 0) + 2) 2 = 0 ∧
        t.bytes (s.mbBase 0 + 4 * s.get (SPIS_MBPTR.WR 0) + 4) b.length = b ∧
        4 * t.get (SPIS_MBPTR.WR 0) = (4 * s.get (SPIS_MBPTR.WR 0) + (mbRecord b).length) % s.mbSize 0 ∧
        t.get (SPIS_MBPTR.RD 0) = s.get (SPIS_MBPTR.RD 0) ∧
        t.on SPIS_IRQ.MBOX = true ∧
        t.spis = { s.spis with kept := some ⟨0, tag.toNat, []⟩, brk := 0, busySeen := false, taken := s.spis.taken + 1 } ∧
        t.get SPIS_STAT.LASTTAG = tag.toNat ∧
        t.get SPIS_STAT.LASTCMD = 3 ∧
        t.on SPIS_IRQ.FRAME = true ∧
        t.on SPIS_ATTN.REPLY = (s.on SPIS_ATTN.REPLY && decide (b.length < ((s.spis.kept.map (fun r => r.payload.length)).getD 0))) ∧
        RegsBut [Reg.SPIS_STAT, Reg.SPIS_IRQ, Reg.SPIS_ATTN, Reg.SPIS_MBPTR 0] s t ∧
        Outside (s.mbBase 0 + 4 * s.get (SPIS_MBPTR.WR 0)) (mbRecord b).length s t) ∧
  (∀ (tag : BitVec 4) (b : List (BitVec 8)) (s : State), HostReady s →
      0 < b.length ∧ b.length ≤ 2048 →
      s.mbOn 0 = true →
      4 * s.get (SPIS_MBPTR.WR 0) < s.mbSize 0 ∧ 4 * s.get (SPIS_MBPTR.RD 0) < s.mbSize 0 →
      s.mbSize 0 < 4 * s.get (SPIS_MBPTR.WR 0) + (mbRecord b).length →
      s.mbSize 0 - 4 * s.get (SPIS_MBPTR.WR 0) + (mbRecord b).length + 4 ≤ (if s.get (SPIS_MBPTR.RD 0) = s.get (SPIS_MBPTR.WR 0) then s.mbSize 0 else (4 * s.get (SPIS_MBPTR.RD 0) + s.mbSize 0 - 4 * s.get (SPIS_MBPTR.WR 0)) % s.mbSize 0) →
      ∃ t, exec (.mboxPut tag b) s = .next t ∧
        t.rn (s.mbBase 0 + 4 * s.get (SPIS_MBPTR.WR 0)) 2 = 0xFFFF ∧
        t.rn (s.mbBase 0) 2 = b.length ∧
        t.bytes (s.mbBase 0 + 4) b.length = b ∧
        4 * t.get (SPIS_MBPTR.WR 0) = (mbRecord b).length ∧
        t.on SPIS_IRQ.MBOX = true ∧
        t.spis = { s.spis with kept := some ⟨0, tag.toNat, []⟩, brk := 0, busySeen := false, taken := s.spis.taken + 1 } ∧
        t.get SPIS_STAT.LASTTAG = tag.toNat ∧
        t.get SPIS_STAT.LASTCMD = 3 ∧
        t.on SPIS_IRQ.FRAME = true ∧
        t.on SPIS_ATTN.REPLY = (s.on SPIS_ATTN.REPLY && decide (b.length < ((s.spis.kept.map (fun r => r.payload.length)).getD 0))) ∧
        RegsBut [Reg.SPIS_STAT, Reg.SPIS_IRQ, Reg.SPIS_ATTN, Reg.SPIS_MBPTR 0] s t ∧
        (∀ x, (x < s.mbBase 0 ∨ s.mbBase 0 + s.mbSize 0 ≤ x) → t.rb x = s.rb x)) ∧
  (∀ (tag : BitVec 4) (b : List (BitVec 8)) (s : State), HostReady s →
      0 < b.length ∧ b.length ≤ 2048 →
      s.mbOn 0 = true →
      4 * s.get (SPIS_MBPTR.WR 0) < s.mbSize 0 ∧ 4 * s.get (SPIS_MBPTR.RD 0) < s.mbSize 0 →
      (if s.get (SPIS_MBPTR.RD 0) = s.get (SPIS_MBPTR.WR 0) then s.mbSize 0 else (4 * s.get (SPIS_MBPTR.RD 0) + s.mbSize 0 - 4 * s.get (SPIS_MBPTR.WR 0)) % s.mbSize 0) < (if s.mbSize 0 < 4 * s.get (SPIS_MBPTR.WR 0) + (mbRecord b).length then s.mbSize 0 - 4 * s.get (SPIS_MBPTR.WR 0) else 0) + (mbRecord b).length + 4 →
      ∃ t, exec (.mboxPut tag b) s = .next t ∧
        t.spis = { s.spis with kept := some ⟨3, tag.toNat, []⟩, brk := 0, busySeen := false, taken := s.spis.taken + 1 } ∧
        t.get SPIS_STAT.LASTTAG = tag.toNat ∧
        t.get SPIS_STAT.LASTCMD = 3 ∧
        t.on SPIS_IRQ.FRAME = true ∧
        t.on SPIS_ATTN.REPLY = (s.on SPIS_ATTN.REPLY && decide (b.length < ((s.spis.kept.map (fun r => r.payload.length)).getD 0))) ∧
        t.mem = s.mem ∧
        RegsBut [Reg.SPIS_STAT, Reg.SPIS_IRQ, Reg.SPIS_ATTN] s t) ∧
  (∀ (tag : BitVec 4) (b : List (BitVec 8)) (s : State), HostReady s →
      0 < b.length ∧ b.length ≤ 2048 →
      s.mbOn 0 = false →
      ∃ t, exec (.mboxPut tag b) s = .next t ∧
        t.spis = { s.spis with kept := some ⟨3, tag.toNat, []⟩, brk := 0, busySeen := false, taken := s.spis.taken + 1 } ∧
        t.get SPIS_STAT.LASTTAG = tag.toNat ∧
        t.get SPIS_STAT.LASTCMD = 3 ∧
        t.on SPIS_IRQ.FRAME = true ∧
        t.on SPIS_ATTN.REPLY = (s.on SPIS_ATTN.REPLY && decide (b.length < ((s.spis.kept.map (fun r => r.payload.length)).getD 0))) ∧
        t.mem = s.mem ∧
        RegsBut [Reg.SPIS_STAT, Reg.SPIS_IRQ, Reg.SPIS_ATTN] s t) ∧
  (∀ (tag : BitVec 4) (s : State), HostReady s →
      ∃ t, exec (.mboxPut tag []) s = .next t ∧
        t.spis = { s.spis with kept := some ⟨2, tag.toNat, []⟩, brk := 0, busySeen := false, taken := s.spis.taken + 1 } ∧
        t.get SPIS_STAT.LASTTAG = tag.toNat ∧
        t.get SPIS_STAT.LASTCMD = 3 ∧
        t.on SPIS_IRQ.FRAME = true ∧
        t.on SPIS_ATTN.REPLY = (s.on SPIS_ATTN.REPLY && decide (0 < ((s.spis.kept.map (fun r => r.payload.length)).getD 0))) ∧
        t.mem = s.mem ∧
        RegsBut [Reg.SPIS_STAT, Reg.SPIS_IRQ, Reg.SPIS_ATTN] s t) ∧
  (∀ (tag : BitVec 4) (s : State), HostReady s →
      s.mbOn 1 = true ∧ s.get (SPIS_MBPTR.RD 1) ≠ s.get (SPIS_MBPTR.WR 1) →
      4 * s.get (SPIS_MBPTR.WR 1) < s.mbSize 1 ∧ 4 * s.get (SPIS_MBPTR.RD 1) < s.mbSize 1 →
      s.rn (s.mbBase 1 + 4 * s.get (SPIS_MBPTR.RD 1)) 2 ≤ 2048 →
      ∃ t, exec (.mboxGet tag []) s = .next t ∧
        t.spis = { s.spis with kept := some ⟨0, tag.toNat, s.bytes (s.mbBase 1 + 4 * s.get (SPIS_MBPTR.RD 1) + 4) (s.rn (s.mbBase 1 + 4 * s.get (SPIS_MBPTR.RD 1)) 2)⟩, brk := 0, busySeen := false, taken := s.spis.taken + 1 } ∧
        4 * t.get (SPIS_MBPTR.RD 1) = (4 * s.get (SPIS_MBPTR.RD 1) + 4 + (s.rn (s.mbBase 1 + 4 * s.get (SPIS_MBPTR.RD 1)) 2 + 3) / 4 * 4) % s.mbSize 1 ∧
        t.get (SPIS_MBPTR.WR 1) = s.get (SPIS_MBPTR.WR 1) ∧
        t.on SPIS_IRQ.MBGET = true ∧
        t.get SPIS_STAT.LASTTAG = tag.toNat ∧
        t.get SPIS_STAT.LASTCMD = 4 ∧
        t.on SPIS_IRQ.FRAME = true ∧
        t.on SPIS_ATTN.REPLY = (s.on SPIS_ATTN.REPLY && decide (0 < ((s.spis.kept.map (fun r => r.payload.length)).getD 0))) ∧
        t.mem = s.mem ∧
        RegsBut [Reg.SPIS_STAT, Reg.SPIS_IRQ, Reg.SPIS_ATTN, Reg.SPIS_MBPTR 1] s t) ∧
  (∀ (tag : BitVec 4) (s : State), HostReady s →
      s.mbOn 1 = true ∧ s.get (SPIS_MBPTR.RD 1) ≠ s.get (SPIS_MBPTR.WR 1) →
      4 * s.get (SPIS_MBPTR.WR 1) < s.mbSize 1 ∧ 4 * s.get (SPIS_MBPTR.RD 1) < s.mbSize 1 →
      s.rn (s.mbBase 1 + 4 * s.get (SPIS_MBPTR.RD 1)) 2 = 0xFFFF →
      s.get (SPIS_MBPTR.WR 1) ≠ 0 →
      s.rn (s.mbBase 1) 2 ≤ 2048 →
      ∃ t, exec (.mboxGet tag []) s = .next t ∧
        t.spis = { s.spis with kept := some ⟨0, tag.toNat, s.bytes (s.mbBase 1 + 4) (s.rn (s.mbBase 1) 2)⟩, brk := 0, busySeen := false, taken := s.spis.taken + 1 } ∧
        4 * t.get (SPIS_MBPTR.RD 1) = (4 + (s.rn (s.mbBase 1) 2 + 3) / 4 * 4) % s.mbSize 1 ∧
        t.on SPIS_IRQ.MBGET = true ∧
        t.get SPIS_STAT.LASTTAG = tag.toNat ∧
        t.get SPIS_STAT.LASTCMD = 4 ∧
        t.on SPIS_IRQ.FRAME = true ∧
        t.on SPIS_ATTN.REPLY = (s.on SPIS_ATTN.REPLY && decide (0 < ((s.spis.kept.map (fun r => r.payload.length)).getD 0))) ∧
        t.mem = s.mem ∧
        RegsBut [Reg.SPIS_STAT, Reg.SPIS_IRQ, Reg.SPIS_ATTN, Reg.SPIS_MBPTR 1] s t) ∧
  (∀ (tag : BitVec 4) (s : State), HostReady s →
      s.mbOn 1 = false ∨ s.get (SPIS_MBPTR.RD 1) = s.get (SPIS_MBPTR.WR 1) →
      ∃ t, exec (.mboxGet tag []) s = .next t ∧
        t.spis = { s.spis with kept := some ⟨0, tag.toNat, []⟩, brk := 0, busySeen := false, taken := s.spis.taken + 1 } ∧
        t.get SPIS_STAT.LASTTAG = tag.toNat ∧
        t.get SPIS_STAT.LASTCMD = 4 ∧
        t.on SPIS_IRQ.FRAME = true ∧
        t.on SPIS_ATTN.REPLY = (s.on SPIS_ATTN.REPLY && decide (0 < ((s.spis.kept.map (fun r => r.payload.length)).getD 0))) ∧
        t.mem = s.mem ∧
        RegsBut [Reg.SPIS_STAT, Reg.SPIS_IRQ, Reg.SPIS_ATTN] s t) ∧
  (∀ (tag : BitVec 4) (b : List (BitVec 8)) (s : State), HostReady s →
      b.length ≤ 2048 →
      b ≠ [] →
      ∃ t, exec (.mboxGet tag b) s = .next t ∧
        t.spis = { s.spis with kept := some ⟨2, tag.toNat, []⟩, brk := 0, busySeen := false, taken := s.spis.taken + 1 } ∧
        t.get SPIS_STAT.LASTTAG = tag.toNat ∧
        t.get SPIS_STAT.LASTCMD = 4 ∧
        t.on SPIS_IRQ.FRAME = true ∧
        t.on SPIS_ATTN.REPLY = (s.on SPIS_ATTN.REPLY && decide (b.length < ((s.spis.kept.map (fun r => r.payload.length)).getD 0))) ∧
        t.mem = s.mem ∧
        RegsBut [Reg.SPIS_STAT, Reg.SPIS_IRQ, Reg.SPIS_ATTN] s t) ∧
  (∀ (tag : BitVec 4) (b : List (BitVec 8)) (s : State), HostReady s →
      b.length = 4 →
      ∃ t, exec (.hostAttn tag b) s = .next t ∧
        t.get SPIS_ATTN.SW = s.get SPIS_ATTN.SW &&& (255 - leNat b % 256) ∧
        t.spis = { s.spis with kept := some ⟨0, tag.toNat, leBytes 4 t.spisAttn.toNat⟩, brk := 0, busySeen := false, taken := s.spis.taken + 1 } ∧
        t.get SPIS_STAT.LASTTAG = tag.toNat ∧
        t.get SPIS_STAT.LASTCMD = 5 ∧
        t.on SPIS_IRQ.FRAME = true ∧
        t.on SPIS_ATTN.REPLY = (s.on SPIS_ATTN.REPLY && decide (4 < ((s.spis.kept.map (fun r => r.payload.length)).getD 0))) ∧
        t.mem = s.mem ∧
        RegsBut [Reg.SPIS_STAT, Reg.SPIS_IRQ, Reg.SPIS_ATTN] s t) ∧
  (∀ (tag : BitVec 4) (b : List (BitVec 8)) (s : State), HostReady s →
      b.length ≤ 2048 →
      b.length ≠ 4 →
      ∃ t, exec (.hostAttn tag b) s = .next t ∧
        t.spis = { s.spis with kept := some ⟨2, tag.toNat, []⟩, brk := 0, busySeen := false, taken := s.spis.taken + 1 } ∧
        t.get SPIS_STAT.LASTTAG = tag.toNat ∧
        t.get SPIS_STAT.LASTCMD = 5 ∧
        t.on SPIS_IRQ.FRAME = true ∧
        t.on SPIS_ATTN.REPLY = (s.on SPIS_ATTN.REPLY && decide (b.length < ((s.spis.kept.map (fun r => r.payload.length)).getD 0))) ∧
        t.mem = s.mem ∧
        RegsBut [Reg.SPIS_STAT, Reg.SPIS_IRQ, Reg.SPIS_ATTN] s t) ∧
  (∀ (tag : BitVec 4) (s : State), HostReady s →
      ∃ t, exec (.hostDict tag []) s = .next t ∧
        t.spis = { s.spis with kept := some ⟨2, tag.toNat, []⟩, brk := 0, busySeen := false, taken := s.spis.taken + 1 } ∧
        t.get SPIS_STAT.LASTTAG = tag.toNat ∧
        t.get SPIS_STAT.LASTCMD = 2 ∧
        t.on SPIS_IRQ.FRAME = true ∧
        t.on SPIS_ATTN.REPLY = (s.on SPIS_ATTN.REPLY && decide (0 < ((s.spis.kept.map (fun r => r.payload.length)).getD 0))) ∧
        t.dict = s.dict ∧
        t.mem = s.mem ∧
        RegsBut [Reg.SPIS_STAT, Reg.SPIS_IRQ, Reg.SPIS_ATTN] s t) ∧
  (∀ (c : Instr) (tag : BitVec 4) (b : List (BitVec 8)) (s : State), s.clocked = true ∧ s.on SPIS_CTRL.EN = true ∧ s.on SYSC_CLKGATE.SPIS = true ∧ s.spis.pend = true →
      c ∈ [.hostNop tag b, .hostRepeat tag b, .mboxPut tag b, .mboxGet tag b, .hostAttn tag b, .hostDict tag b, .busyFrame] →
      ∃ t, exec (c) s = .next t ∧
        t.spis = { s.spis with busySeen := true } ∧
        t.get SPIS_CNT0.BUSY = min (s.get SPIS_CNT0.BUSY + 1) (2 ^ SPIS_CNT0.BUSY.w - 1) ∧
        t.mem = s.mem ∧
        RegsBut [Reg.SPIS_CNT0] s t) ∧
  (∀ (c : Instr) (tag : BitVec 4) (b : List (BitVec 8)) (s : State), s.clocked = true ∧ s.on SPIS_CTRL.EN = true ∧ s.on SYSC_CLKGATE.SPIS = true ∧ s.spis.pend = false →
      2048 < b.length →
      c ∈ [.hostNop tag b, .hostRepeat tag b, .mboxPut tag b, .mboxGet tag b, .hostAttn tag b, .hostDict tag b] →
      ∃ t, exec (c) s = .next t ∧
        t.spis = { s.spis with brk := 5 } ∧
        t.get SPIS_STAT.LASTBRK = 5 ∧
        t.on SPIS_IRQ.BROKEN = true ∧
        t.on SPIS_IRQ.FRAME = s.on SPIS_IRQ.FRAME ∧
        t.get SPIS_CNT1.BADLEN = min (s.get SPIS_CNT1.BADLEN + 1) (2 ^ SPIS_CNT1.BADLEN.w - 1) ∧
        t.mem = s.mem ∧
        RegsBut [Reg.SPIS_STAT, Reg.SPIS_IRQ, Reg.SPIS_CNT1, Reg.SPIS_ATTN] s t) ∧
  (∀ (c : Instr) (tag : BitVec 4) (b : List (BitVec 8)) (s : State), s.clocked = true ∧ s.on SPIS_CTRL.EN = true ∧ s.on SYSC_CLKGATE.SPIS = true ∧ s.spis.pend = false →
      s.hsRdy = false →
      b.length ≤ 2048 →
      c ∈ [.hostNop tag b, .hostRepeat tag b, .mboxPut tag b, .mboxGet tag b, .hostAttn tag b, .hostDict tag b] →
      ∃ t, exec (c) s = .next t ∧
        t.spis = { s.spis with brk := 4 } ∧
        t.get SPIS_STAT.LASTBRK = 4 ∧
        t.on SPIS_IRQ.BROKEN = true ∧
        t.on SPIS_IRQ.FRAME = s.on SPIS_IRQ.FRAME ∧
        t.get SPIS_CNT1.OVERRUN = min (s.get SPIS_CNT1.OVERRUN + 1) (2 ^ SPIS_CNT1.OVERRUN.w - 1) ∧
        t.mem = s.mem ∧
        RegsBut [Reg.SPIS_STAT, Reg.SPIS_IRQ, Reg.SPIS_CNT1, Reg.SPIS_ATTN] s t) ∧
  (∀ (c : Instr) (tag : BitVec 4) (b : List (BitVec 8)) (s : State), s.clocked = false ∨ s.on SPIS_CTRL.EN = false ∨ s.on SYSC_CLKGATE.SPIS = false →
      c ∈ [.hostNop tag b, .hostRepeat tag b, .mboxPut tag b, .mboxGet tag b, .hostAttn tag b, .hostDict tag b, .busyFrame] →
      ∃ t, exec (c) s = .next t ∧
        t = s) ∧
  (∀ (code : BitVec 3) (s : State), s.clocked = true ∧ s.on SPIS_CTRL.EN = true ∧ s.on SYSC_CLKGATE.SPIS = true ∧ s.spis.pend = false →
      1 ≤ code.toNat ∧ code.toNat ≤ 5 →
      ∃ t, exec (.brokenFrame code) s = .next t ∧
        t.spis = { s.spis with brk := code.toNat } ∧
        t.get SPIS_STAT.LASTBRK = code.toNat ∧
        t.on SPIS_IRQ.BROKEN = true ∧
        t.on SPIS_IRQ.FRAME = s.on SPIS_IRQ.FRAME ∧
        t.get SPIS_CNT0.SHORT = (if code.toNat = 1 then min (s.get SPIS_CNT0.SHORT + 1) (2 ^ SPIS_CNT0.SHORT.w - 1) else s.get SPIS_CNT0.SHORT) ∧
        t.get SPIS_CNT0.LONG = (if code.toNat = 2 then min (s.get SPIS_CNT0.LONG + 1) (2 ^ SPIS_CNT0.LONG.w - 1) else s.get SPIS_CNT0.LONG) ∧
        t.get SPIS_CNT0.CRC = (if code.toNat = 3 then min (s.get SPIS_CNT0.CRC + 1) (2 ^ SPIS_CNT0.CRC.w - 1) else s.get SPIS_CNT0.CRC) ∧
        t.get SPIS_CNT1.OVERRUN = (if code.toNat = 4 then min (s.get SPIS_CNT1.OVERRUN + 1) (2 ^ SPIS_CNT1.OVERRUN.w - 1) else s.get SPIS_CNT1.OVERRUN) ∧
        t.get SPIS_CNT1.BADLEN = (if code.toNat = 5 then min (s.get SPIS_CNT1.BADLEN + 1) (2 ^ SPIS_CNT1.BADLEN.w - 1) else s.get SPIS_CNT1.BADLEN) ∧
        (s.on SPIS_ATTN.REPLY = false → t.on SPIS_ATTN.REPLY = false) ∧
        t.mem = s.mem ∧
        RegsBut [Reg.SPIS_STAT, Reg.SPIS_IRQ, Reg.SPIS_CNT0, Reg.SPIS_CNT1, Reg.SPIS_ATTN] s t) ∧
  (∀ (code : BitVec 3) (s : State), s.clocked = true ∧ s.on SPIS_CTRL.EN = true ∧ s.on SYSC_CLKGATE.SPIS = true ∧ s.spis.pend = true →
      1 ≤ code.toNat ∧ code.toNat ≤ 5 →
      ∃ t, exec (.brokenFrame code) s = .next t ∧
        t.spis = { s.spis with busySeen := true } ∧
        t.get SPIS_CNT0.BUSY = min (s.get SPIS_CNT0.BUSY + 1) (2 ^ SPIS_CNT0.BUSY.w - 1) ∧
        t.mem = s.mem ∧
        RegsBut [Reg.SPIS_CNT0] s t) ∧
  (∀ (code : BitVec 3) (s : State), s.clocked = false ∨ s.on SPIS_CTRL.EN = false ∨ s.on SYSC_CLKGATE.SPIS = false ∨ code.toNat = 0 ∨ 5 < code.toNat →
      ∃ t, exec (.brokenFrame code) s = .next t ∧
        t = s) ∧
  (∀ (s : State), s.spis.pend = false →
      ∃ t, exec (.busyFrame) s = .next t ∧
        t = s) ∧
  (∀ (d : Word) (s : State), Core Reg.SPIS_CTRL s →
      SPIS_CTRL.EN.of d = 0 →
      ∃ t, exec (.spisEnableWrite d) s = .next t ∧
        t.on SPIS_CTRL.EN = false ∧
        t.spis = { s.spis with kept := none, pend := false, busySeen := false } ∧
        (t.sess .host).kept = none ∧ (t.sess .host).trans = none ∧ (t.sess .host).snap = none ∧
        t.mem = s.mem) ∧
  (∀ (d : Word) (s : State), Core Reg.SPIS_CTRL s →
      SPIS_CTRL.EN.of d = 1 →
      ∃ t, exec (.spisEnableWrite d) s = .next t ∧
        t.on SPIS_CTRL.EN = true ∧
        t.spis = s.spis ∧
        t.dict = s.dict ∧
        t.mem = s.mem ∧
        RegsBut [Reg.SPIS_CTRL] s t)

/-- Frames of the Selvage ring. CYCLE_RECEIVED, CYCLE_LOSS and the frames TIME, NUMBER, CLAIM, STATUS, SVC, APP, BULK, DREQ and DRSP at a part with the ring block on. A part is in the ring from CLAIM on; a frame that goes on leaves on the primary output with every field as it came unless a clause says otherwise. Memory and every register not named stay. (1) CYCLE_RECEIVED in the ring, not at the manager, sends the set on, takes its number and time, and what the last cycle's STATUS frames named becomes the present positions. (2) In LISTEN the same, with JOIN entered and nothing sent. (3) In BYPASS and JOIN the same without either. (4) At the manager it shows the loop's latency in ns, at most 65,535, and is not sent on. (5) CYCLE_LOSS in RUN or MANAGER, no candidate, no descriptor ready, enters MEMBER. (6) A descriptor ready then ends NOPOS. (7) A candidate in MEMBER, RUN or MANAGER enters CLAIM. (8) In LISTEN it does so with its switches open. (9) No candidate in LISTEN or MEMBER, and no part in BYPASS, JOIN or CLAIM, changes state. (10) A whole TIME frame of another part in RUN gives plan, tick, bulk owner and NPOS, latches RESID, the reference and the count, sets TIME and goes on with CORR corrected; without TMEAS, QUAL bit 0, DVALID or valid time it measures nothing. (11) With all four, the servo off, it is source 1's measurement too. (12) In MEMBER and CLAIM it latches no reference. (13) The manager strips it. (14) A whole NUMBER in MEMBER or RUN with a count below 32 makes RUN at that position in its epoch, clears NOPOS, sets POSCHG when position or state changed, and goes on with the count plus 1; with nothing new the dictionary stays. (15) With 32 or more, no descriptor ready, MEMBER with NOPOS; the count goes on as it is. (16) In CLAIM it only goes on. (17) The manager strips it. (18) A higher claim at a candidate in CLAIM or MANAGER, no descriptor ready, enters MEMBER and goes on. (19) At a part that is no candidate, and a higher one at a candidate in MEMBER or RUN, it only goes on. (20) A lower one at a candidate, or its own rank outside CLAIM, is stripped and changes nothing. (21) Its own claim back in CLAIM makes it manager at position 0 with NUMBER due and nothing known of the ring. (22) A whole STATUS of another position notes its address, in order of position, and its bulk request, and goes on, unless the manager knows no such position. (23) Of a source of 32 or more it only goes on. (24) A TIME, STATUS, SVC, APP or BULK frame from the own position is stripped and changes nothing. (25) A broken TIME or STATUS of another source, not at the manager, is counted by its fate, goes on, aborted when it came with a code violation or an abort, and does nothing else. (26) So is a broken NUMBER. (27) And a broken CLAIM at a part that is no candidate. (28) A whole SVC, APP or BULK for a numbered part from another, in its epoch, a SVC as a response or with DICTEN = 0, out of recovery, becomes a record of the receive queue at WR when it fits before the end with room for 8 more bytes; WR moves, RXQ is set; every other byte stays, and it goes on. (29) When it fits only from the start, a pad record fills the end. (30) Without room or queue it only goes on. (31) Of another epoch it is counted STALE and goes on. (32) For another part, or at a part without a position, it only goes on. (33) With a bad CRC it is counted when it is addressed to the part, and goes on. (34) RING_DREQ in the ring is answered on its port with the count now and the count of the answer. (35) RING_DRSP of an exchange shows half the mean of the last 8 round trips in units of 62.5 ps, within 16 bits, DVALID after 4, and ends the exchange; the other port stays. (36) With no exchange open it changes nothing. (37) In BYPASS, LISTEN and JOIN every frame changes nothing but that nothing is sent. (38) With RING off, no clock or EN = 0 none of them changes anything. -/
def Obligations.RingFrames : Prop :=
  (∀ (low : BitVec 16) (s : State), RingUp s →
      s.inRing = true ∧ s.rg ≠ rgManager →
      ∃ t, exec (.cycleReceived low) s = .next t ∧
        t = s.modRing (fun r => { r with sent := [{ typ := 0, src := 0, dst := 0xFF, flags := 0, seq := 0, payload := leBytes 2 low.toNat, port := s.primaryOut }], cyc := low.toNat, cycAt := s.now, present := s.ring.seen, seen := [] })) ∧
  (∀ (low : BitVec 16) (s : State), RingUp s →
      s.rg = rgListen →
      ∃ t, exec (.cycleReceived low) s = .next t ∧
        t.rg = rgJoin ∧
        t.on RING_IRQ.STATE = true ∧
        t.ring = { s.ring with sent := [], cyc := low.toNat, cycAt := s.now, present := s.ring.seen, seen := [] } ∧
        t.pins = s.pins ∧
        t.mem = s.mem ∧
        RegsBut [Reg.RING_STAT, Reg.RING_IRQ] s t) ∧
  (∀ (low : BitVec 16) (s : State), RingUp s →
      s.rg = rgBypass ∨ s.rg = rgJoin →
      ∃ t, exec (.cycleReceived low) s = .next t ∧
        t = s.modRing (fun r => { r with sent := [], cyc := low.toNat, cycAt := s.now, present := s.ring.seen, seen := [] })) ∧
  (∀ (low : BitVec 16) (s : State), RingUp s →
      s.rg = rgManager →
      ∃ t, exec (.cycleReceived low) s = .next t ∧
        t.get RING_LAT.LAT = min 65535 (4 * (s.now - s.ring.cycAt)) ∧
        t.ring = { s.ring with sent := [] } ∧
        t.mem = s.mem ∧
        RegsBut [Reg.RING_LAT] s t) ∧
  (∀ (s : State), RingUp s →
      s.rg = rgRun ∨ s.rg = rgManager →
      s.get RING_CFG.MGRPRI = 0 →
      s.ringReady = [] →
      ∃ t, exec (.cycleLoss) s = .next t ∧
        t.rg = rgMember ∧
        t.on RING_IRQ.STATE = true ∧
        t.pins = s.pins ∧
        t.mem = s.mem ∧
        RegsBut [Reg.RING_STAT, Reg.RING_IRQ] s t) ∧
  (∀ (i : Nat) (s : State), RingUp s →
      s.rg = rgRun ∨ s.rg = rgManager →
      s.get RING_CFG.MGRPRI = 0 →
      s.ringTxOn = true ∧ i < 16 ∧ s.get RING_TXQPTR.TAIL = i ∧ s.get RING_TXQPTR.HEAD = (i + 1) % 16 ∧ s.rb (s.ringDesc i) = 1 →
      ∃ t, exec (.cycleLoss) s = .next t ∧
        t.rg = rgMember ∧
        t.on RING_IRQ.STATE = true ∧
        t.rb (s.ringDesc i) = 2 ∧
        t.rb (s.ringDesc i + 6) = 3 ∧
        t.rw32 (s.ringDesc i + 12) = BitVec.ofNat 32 s.ring.tick ∧
        t.get RING_TXQPTR.TAIL = s.get RING_TXQPTR.HEAD ∧
        t.on RING_IRQ.TXDONE = true ∧
        Outside (s.ringDesc i) 16 s t) ∧
  (∀ (s : State), RingUp s →
      s.rg = rgMember ∨ s.rg = rgRun ∨ s.rg = rgManager →
      s.get RING_CFG.MGRPRI ≠ 0 →
      s.ringReady = [] →
      ∃ t, exec (.cycleLoss) s = .next t ∧
        t.rg = rgClaim ∧
        t.on RING_IRQ.STATE = true ∧
        t.pins = s.pins ∧
        t.mem = s.mem ∧
        RegsBut [Reg.RING_STAT, Reg.RING_IRQ] s t) ∧
  (∀ (s : State), RingUp s →
      s.rg = rgListen →
      s.get RING_CFG.MGRPRI ≠ 0 →
      s.ringReady = [] →
      ∃ t, exec (.cycleLoss) s = .next t ∧
        t.rg = rgClaim ∧
        t.pins = { s.pins with bypass := false } ∧
        t.on RING_IRQ.STATE = true ∧
        t.mem = s.mem ∧
        RegsBut [Reg.RING_STAT, Reg.RING_IRQ] s t) ∧
  (∀ (s : State), RingUp s →
      (s.get RING_CFG.MGRPRI = 0 ∧ (s.rg = rgListen ∨ s.rg = rgMember)) ∨ s.rg = rgBypass ∨ s.rg = rgJoin ∨ s.rg = rgClaim →
      ∃ t, exec (.cycleLoss) s = .next t ∧
        t = s.modRing (fun r => { r with sent := [] })) ∧
  (∀ (h : RingHdr) (qual npos bulk : BitVec 8) (plan : Word) (origin : DWord) (corr tick : Word) (resid : BitVec 16) (s : State), RingUp s →
      s.rg = rgRun →
      h.fate = .good ∧ h.src.toNat ≠ s.pos →
      (s.on RING_CFG.TMEAS && qual.getLsbD 0 && s.on (RING_PORT.DVALID s.primaryIn) && s.time.valid) = false →
      ∃ t, exec (.ringTimeFrame h qual npos bulk plan origin corr tick resid) s = .next t ∧
        t.ring = { s.ring with plan := plan, tick := tick.toNat, bulkOwn := bulk.toNat, sent := [{ typ := 0x01, src := h.src.toNat, dst := h.dst.toNat, flags := h.flags.toNat, seq := h.seq.toNat, payload := (timePayload qual.toNat npos.toNat bulk.toNat plan origin.toNat (corrOn corr.toInt resid.toNat (s.get (RING_PORT.DELAY s.primaryIn))) tick.toNat), port := s.primaryOut }] } ∧
        t.get RING_STAT.NPOS = npos.toNat ∧
        t.get RING_LAT.RESID = resid.toNat ∧
        (t.reg Reg.RING_TREF_LO).toNat + (t.reg Reg.RING_TREF_HI).toNat * 2 ^ 32 = (timeRef origin.toNat corr.toInt (s.get (RING_PORT.DELAY s.primaryIn))) ∧
        (t.reg Reg.RING_TRXC_LO).toNat + (t.reg Reg.RING_TRXC_HI).toNat * 2 ^ 32 = s.now % 2 ^ 64 ∧
        t.on RING_IRQ.TIME = true ∧
        t.time = s.time ∧
        t.mem = s.mem ∧
        RegsBut [Reg.RING_STAT, Reg.RING_LAT, Reg.RING_TREF_LO, Reg.RING_TREF_HI, Reg.RING_TRXC_LO, Reg.RING_TRXC_HI, Reg.RING_IRQ] s t) ∧
  (∀ (h : RingHdr) (qual npos bulk : BitVec 8) (plan : Word) (origin : DWord) (corr tick : Word) (resid : BitVec 16) (s : State), RingUp s →
      s.rg = rgRun →
      h.fate = .good ∧ h.src.toNat ≠ s.pos →
      (s.on RING_CFG.TMEAS && qual.getLsbD 0 && s.on (RING_PORT.DVALID s.primaryIn) && s.time.valid) = true →
      s.on TIME_STAT.SERVO = false →
      ∃ t, exec (.ringTimeFrame h qual npos bulk plan origin corr tick resid) s = .next t ∧
        t.ring = { s.ring with plan := plan, tick := tick.toNat, bulkOwn := bulk.toNat, sent := [{ typ := 0x01, src := h.src.toNat, dst := h.dst.toNat, flags := h.flags.toNat, seq := h.seq.toNat, payload := (timePayload qual.toNat npos.toNat bulk.toNat plan origin.toNat (corrOn corr.toInt resid.toNat (s.get (RING_PORT.DELAY s.primaryIn))) tick.toNat), port := s.primaryOut }] } ∧
        t.get RING_STAT.NPOS = npos.toNat ∧
        t.get RING_LAT.RESID = resid.toNat ∧
        (t.reg Reg.RING_TREF_LO).toNat + (t.reg Reg.RING_TREF_HI).toNat * 2 ^ 32 = (timeRef origin.toNat corr.toInt (s.get (RING_PORT.DELAY s.primaryIn))) ∧
        (t.reg Reg.RING_TRXC_LO).toNat + (t.reg Reg.RING_TRXC_HI).toNat * 2 ^ 32 = s.now % 2 ^ 64 ∧
        t.on RING_IRQ.TIME = true ∧
        t.getI (TIME_MEAS.X 1) = clampInt (-(2 ^ 31 - 1)) (2 ^ 31 - 1) (roundDiv (1000000000 * ntDiff s.nt (timeRef origin.toNat corr.toInt (s.get (RING_PORT.DELAY s.primaryIn)))) (2 ^ 32)) ∧
        t.on TIME_IRQ.MEAS = true ∧
        t.mem = s.mem) ∧
  (∀ (h : RingHdr) (qual npos bulk : BitVec 8) (plan : Word) (origin : DWord) (corr tick : Word) (resid : BitVec 16) (s : State), RingUp s →
      s.rg = rgMember ∨ s.rg = rgClaim →
      h.fate = .good →
      ∃ t, exec (.ringTimeFrame h qual npos bulk plan origin corr tick resid) s = .next t ∧
        t.ring = { s.ring with plan := plan, tick := tick.toNat, bulkOwn := bulk.toNat, sent := [{ typ := 0x01, src := h.src.toNat, dst := h.dst.toNat, flags := h.flags.toNat, seq := h.seq.toNat, payload := (timePayload qual.toNat npos.toNat bulk.toNat plan origin.toNat (corrOn corr.toInt resid.toNat (s.get (RING_PORT.DELAY s.primaryIn))) tick.toNat), port := s.primaryOut }] } ∧
        t.get RING_STAT.NPOS = npos.toNat ∧
        t.get RING_LAT.RESID = resid.toNat ∧
        t.time = s.time ∧
        t.mem = s.mem ∧
        RegsBut [Reg.RING_STAT, Reg.RING_LAT] s t) ∧
  (∀ (h : RingHdr) (qual npos bulk : BitVec 8) (plan : Word) (origin : DWord) (corr tick : Word) (resid : BitVec 16) (s : State), RingUp s →
      s.rg = rgManager →
      ∃ t, exec (.ringTimeFrame h qual npos bulk plan origin corr tick resid) s = .next t ∧
        t = s.modRing (fun r => { r with sent := [] })) ∧
  (∀ (h : RingHdr) (hop : BitVec 8) (epoch : BitVec 16) (s : State), RingUp s →
      s.rg = rgMember ∨ s.rg = rgRun →
      h.fate = .good →
      hop.toNat < 32 →
      ∃ t, exec (.ringNumber h hop epoch) s = .next t ∧
        t.rg = rgRun ∧
        t.pos = hop.toNat ∧
        t.on RING_STAT.NOPOS = false ∧
        t.ring = { s.ring with epoch := epoch.toNat, sent := [{ typ := 0x02, src := h.src.toNat, dst := h.dst.toNat, flags := h.flags.toNat, seq := h.seq.toNat, payload := leBytes 1 (hop.toNat + 1) ++ [0] ++ leBytes 2 epoch.toNat, port := s.primaryOut }] } ∧
        t.on RING_IRQ.POSCHG = (s.on RING_IRQ.POSCHG || decide (s.rg ≠ rgRun ∨ s.pos ≠ hop.toNat)) ∧
        t.on RING_IRQ.STATE = (s.on RING_IRQ.STATE || decide (s.rg ≠ rgRun)) ∧
        (s.rg = rgRun ∧ s.pos = hop.toNat ∧ s.ring.epoch = epoch.toNat → t.dict = s.dict) ∧
        t.mem = s.mem ∧
        RegsBut [Reg.RING_STAT, Reg.RING_IRQ] s t) ∧
  (∀ (h : RingHdr) (hop : BitVec 8) (epoch : BitVec 16) (s : State), RingUp s →
      s.rg = rgMember ∨ s.rg = rgRun →
      h.fate = .good →
      32 ≤ hop.toNat →
      s.ringReady = [] →
      ∃ t, exec (.ringNumber h hop epoch) s = .next t ∧
        t.rg = rgMember ∧
        t.on RING_STAT.NOPOS = true ∧
        t.on RING_IRQ.NOPOS = true ∧
        t.ring = { s.ring with epoch := epoch.toNat, sent := [{ typ := 0x02, src := h.src.toNat, dst := h.dst.toNat, flags := h.flags.toNat, seq := h.seq.toNat, payload := leBytes 1 (hop.toNat) ++ [0] ++ leBytes 2 epoch.toNat, port := s.primaryOut }] } ∧
        t.mem = s.mem ∧
        RegsBut [Reg.RING_STAT, Reg.RING_IRQ] s t) ∧
  (∀ (h : RingHdr) (hop : BitVec 8) (epoch : BitVec 16) (s : State), RingUp s →
      s.rg = rgClaim →
      h.fate = .good →
      ∃ t, exec (.ringNumber h hop epoch) s = .next t ∧
        t = s.modRing (fun r => { r with sent := [{ typ := 0x02, src := h.src.toNat, dst := h.dst.toNat, flags := h.flags.toNat, seq := h.seq.toNat, payload := leBytes 1 (hopOn hop.toNat) ++ [0] ++ leBytes 2 epoch.toNat, port := s.primaryOut }] })) ∧
  (∀ (h : RingHdr) (hop : BitVec 8) (epoch : BitVec 16) (s : State), RingUp s →
      s.rg = rgManager →
      ∃ t, exec (.ringNumber h hop epoch) s = .next t ∧
        t = s.modRing (fun r => { r with sent := [] })) ∧
  (∀ (h : RingHdr) (pri : BitVec 8) (ext : DWord) (s : State), RingUp s →
      s.rg = rgClaim ∨ s.rg = rgManager →
      s.get RING_CFG.MGRPRI ≠ 0 →
      h.fate = .good →
      claimRank (s.get RING_CFG.MGRPRI) s.factoryExt < claimRank pri.toNat ext.toNat →
      s.ringReady = [] →
      ∃ t, exec (.ringClaim h pri ext) s = .next t ∧
        t.rg = rgMember ∧
        t.on RING_IRQ.STATE = true ∧
        t.ring = { s.ring with sent := [{ typ := 0x03, src := h.src.toNat, dst := h.dst.toNat, flags := h.flags.toNat, seq := h.seq.toNat, payload := leBytes 1 pri.toNat ++ List.replicate 7 0 ++ leBytes 8 ext.toNat, port := s.primaryOut }] } ∧
        t.pins = s.pins ∧
        t.mem = s.mem ∧
        RegsBut [Reg.RING_STAT, Reg.RING_IRQ] s t) ∧
  (∀ (h : RingHdr) (pri : BitVec 8) (ext : DWord) (s : State), RingUp s →
      s.inRing = true →
      h.fate = .good →
      s.get RING_CFG.MGRPRI = 0 ∨ ((s.rg = rgMember ∨ s.rg = rgRun) ∧ claimRank (s.get RING_CFG.MGRPRI) s.factoryExt < claimRank pri.toNat ext.toNat) →
      ∃ t, exec (.ringClaim h pri ext) s = .next t ∧
        t = s.modRing (fun r => { r with sent := [{ typ := 0x03, src := h.src.toNat, dst := h.dst.toNat, flags := h.flags.toNat, seq := h.seq.toNat, payload := leBytes 1 pri.toNat ++ List.replicate 7 0 ++ leBytes 8 ext.toNat, port := s.primaryOut }] })) ∧
  (∀ (h : RingHdr) (pri : BitVec 8) (ext : DWord) (s : State), RingUp s →
      s.inRing = true →
      s.get RING_CFG.MGRPRI ≠ 0 →
      h.fate = .good →
      claimRank pri.toNat ext.toNat < claimRank (s.get RING_CFG.MGRPRI) s.factoryExt ∨ (claimRank pri.toNat ext.toNat = claimRank (s.get RING_CFG.MGRPRI) s.factoryExt ∧ s.rg ≠ rgClaim) →
      ∃ t, exec (.ringClaim h pri ext) s = .next t ∧
        t = s.modRing (fun r => { r with sent := [] })) ∧
  (∀ (h : RingHdr) (pri : BitVec 8) (ext : DWord) (s : State), RingUp s →
      s.rg = rgClaim →
      s.get RING_CFG.MGRPRI ≠ 0 →
      h.fate = .good →
      claimRank pri.toNat ext.toNat = claimRank (s.get RING_CFG.MGRPRI) s.factoryExt →
      ∃ t, exec (.ringClaim h pri ext) s = .next t ∧
        t.rg = rgManager ∧
        t.pos = 0 ∧
        t.on RING_IRQ.STATE = true ∧
        t.on RING_IRQ.POSCHG = (s.on RING_IRQ.POSCHG || decide (s.pos ≠ 0)) ∧
        t.ring = { s.ring with sent := [], numDue := true, numAge := 0, seen := [], present := [], bulkReq := [], cycAt := s.now } ∧
        t.pins = s.pins ∧
        t.mem = s.mem ∧
        RegsBut [Reg.RING_STAT, Reg.RING_IRQ] s t) ∧
  (∀ (h : RingHdr) (ext : DWord) (state wrap : BitVec 8) (s : State), RingUp s →
      s.inRing = true →
      h.fate = .good →
      (s.numbered && h.src.toNat == s.pos) = false →
      h.src.toNat < 32 →
      ∃ t, exec (.statusFrame h ext state wrap) s = .next t ∧
        t = s.modRing (fun r => { r with seen := (s.ring.seen.filter (fun e => decide (e.1 < h.src.toNat)) ++ (h.src.toNat, ext.toNat) :: s.ring.seen.filter (fun e => decide (h.src.toNat < e.1))), bulkReq := (if h.flags.getLsbD 0 then h.src.toNat :: s.ring.bulkReq.filter (fun p => p != h.src.toNat) else s.ring.bulkReq), sent := (if s.ringStrips h then [] else [{ typ := 4, src := h.src.toNat, dst := h.dst.toNat, flags := h.flags.toNat, seq := h.seq.toNat, payload := leBytes 8 ext.toNat ++ leBytes 1 state.toNat ++ leBytes 1 wrap.toNat ++ List.replicate 6 0, port := s.primaryOut }]) })) ∧
  (∀ (h : RingHdr) (ext : DWord) (state wrap : BitVec 8) (s : State), RingUp s →
      s.inRing = true →
      h.fate = .good →
      (s.numbered && h.src.toNat == s.pos) = false →
      32 ≤ h.src.toNat →
      ∃ t, exec (.statusFrame h ext state wrap) s = .next t ∧
        t = s.modRing (fun r => { r with sent := (if s.ringStrips h then [] else [{ typ := 4, src := h.src.toNat, dst := h.dst.toNat, flags := h.flags.toNat, seq := h.seq.toNat, payload := leBytes 8 ext.toNat ++ leBytes 1 state.toNat ++ leBytes 1 wrap.toNat ++ List.replicate 6 0, port := s.primaryOut }]) })) ∧
  (∀ (c : Instr) (h : RingHdr) (qual npos bulk state wrap : BitVec 8) (plan : Word) (ext origin : DWord) (corr tick : Word) (resid : BitVec 16) (b : List (BitVec 8)) (s : State), RingUp s →
      s.numbered = true ∧ h.src.toNat = s.pos →
      c ∈ [.ringTimeFrame h qual npos bulk plan origin corr tick resid, .statusFrame h ext state wrap, .ringSvc h b, .ringApp h b, .ringBulk h b] →
      ∃ t, exec (c) s = .next t ∧
        t = s.modRing (fun r => { r with sent := [] })) ∧
  (∀ (c : Instr) (h : RingHdr) (qual : BitVec 8) (npos : BitVec 8) (bulk : BitVec 8) (state : BitVec 8) (wrap : BitVec 8) (plan : Word) (ext : DWord) (origin : DWord) (corr : Word) (tick : Word) (resid : BitVec 16) (s : State), RingUp s →
      s.inRing = true ∧ s.rg ≠ rgManager →
      h.fate ≠ .good ∧ (s.numbered && h.src.toNat == s.pos) = false →
      c ∈ [.ringTimeFrame h qual npos bulk plan origin corr tick resid, .statusFrame h ext state wrap] →
      ∃ t, exec (c) s = .next t ∧
        t.get RING_CNT0.CRC = (if h.fate = .badCrc ∨ h.fate = .badType then min (s.get RING_CNT0.CRC + 1) 65535 else s.get RING_CNT0.CRC) ∧
        t.get RING_CNT0.ABORT = (if h.fate = .aborted then min (s.get RING_CNT0.ABORT + 1) 65535 else s.get RING_CNT0.ABORT) ∧
        t.get RING_CNT1.CODEERR = (if h.fate = .codeErr then min (s.get RING_CNT1.CODEERR + 1) 65535 else s.get RING_CNT1.CODEERR) ∧
        t.ring.sent.map (fun f => (f.src, f.dst, f.seq, f.port, f.aborted)) = [(h.src.toNat, h.dst.toNat, h.seq.toNat, s.primaryOut, decide (h.fate = .codeErr ∨ h.fate = .aborted))] ∧
        { t.ring with sent := s.ring.sent } = s.ring ∧
        t.dict = s.dict ∧
        t.time = s.time ∧
        t.mem = s.mem ∧
        RegsBut [Reg.RING_CNT0, Reg.RING_CNT1] s t) ∧
  (∀ (h : RingHdr) (hop : BitVec 8) (epoch : BitVec 16) (s : State), RingUp s →
      s.inRing = true ∧ s.rg ≠ rgManager →
      h.fate ≠ .good →
      ∃ t, exec (.ringNumber h hop epoch) s = .next t ∧
        t.get RING_CNT0.CRC = (if h.fate = .badCrc ∨ h.fate = .badType then min (s.get RING_CNT0.CRC + 1) 65535 else s.get RING_CNT0.CRC) ∧
        t.get RING_CNT0.ABORT = (if h.fate = .aborted then min (s.get RING_CNT0.ABORT + 1) 65535 else s.get RING_CNT0.ABORT) ∧
        t.get RING_CNT1.CODEERR = (if h.fate = .codeErr then min (s.get RING_CNT1.CODEERR + 1) 65535 else s.get RING_CNT1.CODEERR) ∧
        t.ring.sent.map (fun f => (f.src, f.dst, f.seq, f.port, f.aborted)) = [(h.src.toNat, h.dst.toNat, h.seq.toNat, s.primaryOut, decide (h.fate = .codeErr ∨ h.fate = .aborted))] ∧
        { t.ring with sent := s.ring.sent } = s.ring ∧
        t.dict = s.dict ∧
        t.time = s.time ∧
        t.mem = s.mem ∧
        RegsBut [Reg.RING_CNT0, Reg.RING_CNT1] s t) ∧
  (∀ (h : RingHdr) (pri : BitVec 8) (ext : DWord) (s : State), RingUp s →
      s.inRing = true →
      s.get RING_CFG.MGRPRI = 0 →
      h.fate ≠ .good →
      ∃ t, exec (.ringClaim h pri ext) s = .next t ∧
        t.get RING_CNT0.CRC = (if h.fate = .badCrc ∨ h.fate = .badType then min (s.get RING_CNT0.CRC + 1) 65535 else s.get RING_CNT0.CRC) ∧
        t.get RING_CNT0.ABORT = (if h.fate = .aborted then min (s.get RING_CNT0.ABORT + 1) 65535 else s.get RING_CNT0.ABORT) ∧
        t.get RING_CNT1.CODEERR = (if h.fate = .codeErr then min (s.get RING_CNT1.CODEERR + 1) 65535 else s.get RING_CNT1.CODEERR) ∧
        t.ring.sent.map (fun f => (f.src, f.dst, f.seq, f.port, f.aborted)) = [(h.src.toNat, h.dst.toNat, h.seq.toNat, s.primaryOut, decide (h.fate = .codeErr ∨ h.fate = .aborted))] ∧
        { t.ring with sent := s.ring.sent } = s.ring ∧
        t.dict = s.dict ∧
        t.time = s.time ∧
        t.mem = s.mem ∧
        RegsBut [Reg.RING_CNT0, Reg.RING_CNT1] s t) ∧
  (∀ (c : Instr) (typ : Nat) (h : RingHdr) (b : List (BitVec 8)) (s : State), RingUp s →
      s.numbered = true →
      h.fate = .good ∧ h.src.toNat ≠ s.pos ∧ s.ringMine h = true →
      h.flags.toNat / 16 = s.ring.epoch % 16 →
      s.on RING_CFG.DICTEN = false ∨ h.flags.getLsbD 1 = true →
      s.boot.recovery = false →
      s.on RING_RXQBASE.EN = true ∧ inSram (4096 * s.get RING_RXQBASE.ADDR) s.rrxSize = true →
      8 * s.get RING_RXQPTR.WR < s.rrxSize ∧ 8 * s.get RING_RXQPTR.RD < s.rrxSize →
      b.length ≤ 1024 →
      8 * s.get RING_RXQPTR.WR + (8 + (b.length + 7) / 8 * 8) ≤ s.rrxSize →
      (8 + (b.length + 7) / 8 * 8) + 8 ≤ (if s.get RING_RXQPTR.RD = s.get RING_RXQPTR.WR then s.rrxSize else (8 * s.get RING_RXQPTR.RD + s.rrxSize - 8 * s.get RING_RXQPTR.WR) % s.rrxSize) →
      (c, typ) ∈ ([(.ringSvc h b, 0x10), (.ringApp h b, 0x11), (.ringBulk h b, 0x20)] : List (Instr × Nat)) →
      ∃ t, exec (c) s = .next t ∧
        t.bytes ((4096 * s.get RING_RXQBASE.ADDR) + 8 * s.get RING_RXQPTR.WR) (8 + (b.length + 7) / 8 * 8) = (leBytes 2 (8 + (b.length + 7) / 8 * 8) ++ leBytes 1 typ ++ leBytes 1 h.src.toNat ++ leBytes 1 h.flags.toNat ++ [0] ++ leBytes 2 b.length ++ b ++ List.replicate ((8 + (b.length + 7) / 8 * 8) - 8 - b.length) 0) ∧
        t.get RING_RXQPTR.WR = (8 * s.get RING_RXQPTR.WR + (8 + (b.length + 7) / 8 * 8)) % s.rrxSize / 8 ∧
        t.get RING_RXQPTR.RD = s.get RING_RXQPTR.RD ∧
        t.on RING_IRQ.RXQ = true ∧
        t.ring = { s.ring with sent := (if s.ringStrips h then [] else [{ typ := typ, src := h.src.toNat, dst := h.dst.toNat, flags := h.flags.toNat, seq := h.seq.toNat, payload := b, port := s.primaryOut }]) } ∧
        RegsBut [Reg.RING_RXQPTR, Reg.RING_IRQ] s t ∧
        Outside ((4096 * s.get RING_RXQBASE.ADDR) + 8 * s.get RING_RXQPTR.WR) (8 + (b.length + 7) / 8 * 8) s t) ∧
  (∀ (c : Instr) (typ : Nat) (h : RingHdr) (b : List (BitVec 8)) (s : State), RingUp s →
      s.numbered = true →
      h.fate = .good ∧ h.src.toNat ≠ s.pos ∧ s.ringMine h = true →
      h.flags.toNat / 16 = s.ring.epoch % 16 →
      s.on RING_CFG.DICTEN = false ∨ h.flags.getLsbD 1 = true →
      s.boot.recovery = false →
      s.on RING_RXQBASE.EN = true ∧ inSram (4096 * s.get RING_RXQBASE.ADDR) s.rrxSize = true →
      8 * s.get RING_RXQPTR.WR < s.rrxSize ∧ 8 * s.get RING_RXQPTR.RD < s.rrxSize →
      b.length ≤ 1024 →
      s.rrxSize < 8 * s.get RING_RXQPTR.WR + (8 + (b.length + 7) / 8 * 8) →
      (s.rrxSize - 8 * s.get RING_RXQPTR.WR) + (8 + (b.length + 7) / 8 * 8) + 8 ≤ (if s.get RING_RXQPTR.RD = s.get RING_RXQPTR.WR then s.rrxSize else (8 * s.get RING_RXQPTR.RD + s.rrxSize - 8 * s.get RING_RXQPTR.WR) % s.rrxSize) →
      (c, typ) ∈ ([(.ringSvc h b, 0x10), (.ringApp h b, 0x11), (.ringBulk h b, 0x20)] : List (Instr × Nat)) →
      ∃ t, exec (c) s = .next t ∧
        t.rn ((4096 * s.get RING_RXQBASE.ADDR) + 8 * s.get RING_RXQPTR.WR) 2 = (s.rrxSize - 8 * s.get RING_RXQPTR.WR) ∧
        t.rb ((4096 * s.get RING_RXQBASE.ADDR) + 8 * s.get RING_RXQPTR.WR + 2) = 2 ∧
        t.bytes (4096 * s.get RING_RXQBASE.ADDR) (8 + (b.length + 7) / 8 * 8) = (leBytes 2 (8 + (b.length + 7) / 8 * 8) ++ leBytes 1 typ ++ leBytes 1 h.src.toNat ++ leBytes 1 h.flags.toNat ++ [0] ++ leBytes 2 b.length ++ b ++ List.replicate ((8 + (b.length + 7) / 8 * 8) - 8 - b.length) 0) ∧
        t.get RING_RXQPTR.WR = (8 + (b.length + 7) / 8 * 8) / 8 ∧
        t.on RING_IRQ.RXQ = true ∧
        t.ring = { s.ring with sent := (if s.ringStrips h then [] else [{ typ := typ, src := h.src.toNat, dst := h.dst.toNat, flags := h.flags.toNat, seq := h.seq.toNat, payload := b, port := s.primaryOut }]) } ∧
        RegsBut [Reg.RING_RXQPTR, Reg.RING_IRQ] s t ∧
        (∀ x, (x < (4096 * s.get RING_RXQBASE.ADDR) + 8 * s.get RING_RXQPTR.WR ∨ (4096 * s.get RING_RXQBASE.ADDR) + 8 * s.get RING_RXQPTR.WR + 3 ≤ x) → (x < (4096 * s.get RING_RXQBASE.ADDR) ∨ (4096 * s.get RING_RXQBASE.ADDR) + (8 + (b.length + 7) / 8 * 8) ≤ x) → t.rb x = s.rb x)) ∧
  (∀ (c : Instr) (typ : Nat) (h : RingHdr) (b : List (BitVec 8)) (s : State), RingUp s →
      s.numbered = true →
      h.fate = .good ∧ h.src.toNat ≠ s.pos ∧ s.ringMine h = true →
      h.flags.toNat / 16 = s.ring.epoch % 16 →
      s.on RING_CFG.DICTEN = false ∨ h.flags.getLsbD 1 = true →
      s.boot.recovery = false →
      8 * s.get RING_RXQPTR.WR < s.rrxSize ∧ 8 * s.get RING_RXQPTR.RD < s.rrxSize →
      s.on RING_RXQBASE.EN = false ∨ (if s.get RING_RXQPTR.RD = s.get RING_RXQPTR.WR then s.rrxSize else (8 * s.get RING_RXQPTR.RD + s.rrxSize - 8 * s.get RING_RXQPTR.WR) % s.rrxSize) < (if s.rrxSize < 8 * s.get RING_RXQPTR.WR + (8 + (b.length + 7) / 8 * 8) then (s.rrxSize - 8 * s.get RING_RXQPTR.WR) else 0) + (8 + (b.length + 7) / 8 * 8) + 8 →
      (c, typ) ∈ ([(.ringSvc h b, 0x10), (.ringApp h b, 0x11), (.ringBulk h b, 0x20)] : List (Instr × Nat)) →
      ∃ t, exec (c) s = .next t ∧
        t = s.modRing (fun r => { r with sent := (if s.ringStrips h then [] else [{ typ := typ, src := h.src.toNat, dst := h.dst.toNat, flags := h.flags.toNat, seq := h.seq.toNat, payload := b, port := s.primaryOut }]) })) ∧
  (∀ (c : Instr) (typ : Nat) (h : RingHdr) (b : List (BitVec 8)) (s : State), RingUp s →
      s.numbered = true →
      h.fate = .good ∧ h.src.toNat ≠ s.pos ∧ s.ringMine h = true →
      h.flags.toNat / 16 ≠ s.ring.epoch % 16 →
      (c, typ) ∈ ([(.ringSvc h b, 0x10), (.ringApp h b, 0x11), (.ringBulk h b, 0x20)] : List (Instr × Nat)) →
      ∃ t, exec (c) s = .next t ∧
        t.get RING_CNT1.STALE = min (s.get RING_CNT1.STALE + 1) (2 ^ RING_CNT1.STALE.w - 1) ∧
        t.ring = { s.ring with sent := (if s.ringStrips h then [] else [{ typ := typ, src := h.src.toNat, dst := h.dst.toNat, flags := h.flags.toNat, seq := h.seq.toNat, payload := b, port := s.primaryOut }]) } ∧
        t.dict = s.dict ∧
        t.mem = s.mem ∧
        RegsBut [Reg.RING_CNT1] s t) ∧
  (∀ (c : Instr) (typ : Nat) (h : RingHdr) (b : List (BitVec 8)) (s : State), RingUp s →
      s.inRing = true →
      h.fate = .good →
      (s.numbered && h.src.toNat == s.pos) = false →
      s.numbered = false ∨ s.ringMine h = false →
      (c, typ) ∈ ([(.ringSvc h b, 0x10), (.ringApp h b, 0x11), (.ringBulk h b, 0x20)] : List (Instr × Nat)) →
      ∃ t, exec (c) s = .next t ∧
        t = s.modRing (fun r => { r with sent := (if s.ringStrips h then [] else [{ typ := typ, src := h.src.toNat, dst := h.dst.toNat, flags := h.flags.toNat, seq := h.seq.toNat, payload := b, port := s.primaryOut }]) })) ∧
  (∀ (c : Instr) (typ : Nat) (h : RingHdr) (b : List (BitVec 8)) (s : State), RingUp s →
      s.inRing = true →
      h.fate = .badCrc →
      (s.numbered && h.src.toNat == s.pos) = false →
      (c, typ) ∈ ([(.ringSvc h b, 0x10), (.ringApp h b, 0x11), (.ringBulk h b, 0x20)] : List (Instr × Nat)) →
      ∃ t, exec (c) s = .next t ∧
        t.get RING_CNT0.CRC = (if s.ringMine h then min (s.get RING_CNT0.CRC + 1) 65535 else s.get RING_CNT0.CRC) ∧
        t.ring = { s.ring with sent := (if s.ringStrips h then [] else [{ typ := typ, src := h.src.toNat, dst := h.dst.toNat, flags := h.flags.toNat, seq := h.seq.toNat, payload := b, port := s.primaryOut }]) } ∧
        t.dict = s.dict ∧
        t.mem = s.mem ∧
        RegsBut [Reg.RING_CNT0] s t) ∧
  (∀ (p : Port) (turn : BitVec 16) (s : State), RingUp s →
      s.inRing = true →
      ∃ t, exec (.ringDreq p .good turn) s = .next t ∧
        t = s.modRing (fun r => { r with sent := [{ typ := 0x31, src := s.ringSrc, dst := 0xFF, flags := 0, seq := 0, payload := leBytes 8 s.now ++ leBytes 8 (s.now + turn.toNat), port := portNo p }] })) ∧
  (∀ (p : Port) (t1 : Nat) (t2 t3 : DWord) (s : State), RingUp s →
      s.inRing = true →
      (s.rport (portNo p)).t1 = some t1 →
      ∃ t, exec (.ringDrsp p .good t2 t3) s = .next t ∧
        t.get (RING_PORT.DELAY (portNo p)) = (clampInt 0 65535 (roundDiv (32 * ((((s.now : Int) - t1 - signedOf 64 (wrapInt 64 ((t3.toNat : Int) - t2.toNat))) :: (s.rport (portNo p)).delays).take 8).foldl (· + ·) 0) (((((s.now : Int) - t1 - signedOf 64 (wrapInt 64 ((t3.toNat : Int) - t2.toNat))) :: (s.rport (portNo p)).delays).take 8).length : Nat))).toNat ∧
        t.on (RING_PORT.DVALID (portNo p)) = (s.on (RING_PORT.DVALID (portNo p)) || decide (3 ≤ (s.rport (portNo p)).delays.length)) ∧
        (t.rport (portNo p)).t1 = none ∧
        (t.rport (portNo p)).delays = (((s.now : Int) - t1 - signedOf 64 (wrapInt 64 ((t3.toNat : Int) - t2.toNat))) :: (s.rport (portNo p)).delays).take 8 ∧
        t.rport (1 - portNo p) = s.rport (1 - portNo p) ∧
        t.ring.sent = [] ∧
        t.mem = s.mem ∧
        RegsBut [Reg.RING_PORT (portNo p)] s t) ∧
  (∀ (p : Port) (t2 t3 : DWord) (s : State), RingUp s →
      (s.rport (portNo p)).t1 = none →
      ∃ t, exec (.ringDrsp p .good t2 t3) s = .next t ∧
        t = s.modRing (fun r => { r with sent := [] })) ∧
  (∀ (c : Instr) (h : RingHdr) (qual : BitVec 8) (npos : BitVec 8) (bulk : BitVec 8) (state : BitVec 8) (wrap : BitVec 8) (hop : BitVec 8) (pri : BitVec 8) (plan : Word) (ext : DWord) (origin : DWord) (corr : Word) (tick : Word) (resid : BitVec 16) (epoch : BitVec 16) (turn : BitVec 16) (p : Port) (fate : RingFate) (t2 : DWord) (t3 : DWord) (b : List (BitVec 8)) (s : State), RingUp s →
      s.inRing = false →
      c ∈ [.ringTimeFrame h qual npos bulk plan origin corr tick resid, .ringNumber h hop epoch, .ringClaim h pri ext, .statusFrame h ext state wrap, .ringSvc h b, .ringApp h b, .ringBulk h b, .ringDreq p fate turn, .ringDrsp p fate t2 t3] →
      ∃ t, exec (c) s = .next t ∧
        t = s.modRing (fun r => { r with sent := [] })) ∧
  (∀ (c : Instr) (low : BitVec 16) (h : RingHdr) (qual npos bulk state wrap hop pri : BitVec 8) (plan : Word) (ext origin : DWord) (corr tick : Word) (resid epoch turn : BitVec 16) (p : Port) (fate : RingFate) (t2 t3 : DWord) (b : List (BitVec 8)) (s : State), s.ringOn = false ∨ s.clocked = false ∨ s.on RING_CFG.EN = false →
      c ∈ [.cycleReceived low, .cycleLoss, .ringTimeFrame h qual npos bulk plan origin corr tick resid, .ringNumber h hop epoch, .ringClaim h pri ext, .statusFrame h ext state wrap, .ringSvc h b, .ringApp h b, .ringBulk h b, .ringDreq p fate turn, .ringDrsp p fate t2 t3] →
      ∃ t, exec (c) s = .next t ∧
        t = s)

/-- Ports, wrap, slots, gap and enable of the ring. PORT_DOWN, PORT_UP, RING_WRAP, RING_UNWRAP, SERVICE_SLOT, BULK_WINDOW and RING_GAP with the ring block on; RING_ENABLE and RING_DISABLE that the bus takes from the core. Memory and every register not named stay. Where a clause names a ready descriptor, it is the queue's only one. (1) PORT_DOWN of a port that is up, its receiver or its neighbour's report bad, clears UP and DVALID, shows both, keeps DELAY, forgets the port's exchange, sets DOWN, counts, and shows ISOL when the other is down too; the violations are counted. (2) Of a port that is down, or with both good, only the violations are counted. (3) PORT_UP in the ring of a port that is down sets UP, RXOK and NBOK, clears ISOL and leaves the wraps. (4) Out of the ring, or up already, it changes nothing. (5) RING_WRAP wraps each port that has been down for 10 µs and is not wrapped, with WRAP set; position and state stay. (6) With no such port, or out of the ring, it changes nothing. (7) RING_UNWRAP in a cycle whose number is a multiple of 128 unwraps each wrapped port that is up. (8) In another cycle, with no such port or out of the ring it changes nothing. (9) SERVICE_SLOT of a numbered part with a slot, nothing queued, sends its STATUS, notes it as seen and changes nothing else but SEQ. (10) The manager with NUMBER due sends that after it. (11) The only dictionary response goes out after STATUS. (12) A good ready SVC or APP descriptor goes out after STATUS, RESP only of a SVC, and ends SENT with the tick; every other byte stays. (13) A bad one ends BADDESC. (14) A good BULK one waits; STATUS carries the bulk request. (15) Without a position or a slot it changes nothing. (16) BULK_WINDOW of its owner sends a good BULK descriptor whose frame fits the window and ends it SENT. (17) One that does not fit waits. (18) A bad one ends BADDESC. (19) Of another owner, without a position or a ready descriptor it changes nothing. (20) RING_GAP in JOIN, no descriptor ready, opens the switches and enters MEMBER; in a cycle whose number is a multiple of 16, the model's reading of every 16th (log 25), DREQ goes out on both ports. (21) In the ring DREQ goes out in such a cycle and the time of each is noted. (22) In any other cycle, or outside the ring and JOIN, it changes nothing. (23) RING_ENABLE of a block that is off enters LISTEN with its settings as written; the switches stay closed. (24) Of one that is on it only writes the settings. (25) RING_DISABLE enters BYPASS from any state, closes the switches, clears RING_STAT and both ports and forgets responses and present positions. (26) A ready descriptor ends FLUSHED. (27) Of a block that is off it only writes the settings. (28) With RING off, no clock or EN = 0 the port, slot and gap commands change nothing. -/
def Obligations.RingPorts : Prop :=
  (∀ (p : Port) (rxok nbok : Bool) (viol : BitVec 16) (s : State), RingUp s →
      s.on (RING_PORT.UP (portNo p)) = true →
      rxok = false ∨ nbok = false →
      ∃ t, exec (.portDown p rxok nbok viol) s = .next t ∧
        t.on (RING_PORT.UP (portNo p)) = false ∧
        t.on (RING_PORT.DVALID (portNo p)) = false ∧
        t.on (RING_PORT.RXOK (portNo p)) = rxok ∧
        t.on (RING_PORT.NBOK (portNo p)) = nbok ∧
        t.get (RING_PORT.DELAY (portNo p)) = s.get (RING_PORT.DELAY (portNo p)) ∧
        (t.rport (portNo p)) = { downAt := s.now } ∧
        t.rport (1 - portNo p) = s.rport (1 - portNo p) ∧
        t.on RING_IRQ.DOWN = true ∧
        t.ring.downs = s.ring.downs + 1 ∧
        t.on RING_STAT.ISOL = !(s.on (RING_PORT.UP (1 - portNo p))) ∧
        t.get RING_CNT1.CODEERR = min 65535 (s.get RING_CNT1.CODEERR + viol.toNat) ∧
        t.mem = s.mem ∧
        RegsBut [Reg.RING_PORT (portNo p), Reg.RING_IRQ, Reg.RING_STAT, Reg.RING_CNT1] s t) ∧
  (∀ (p : Port) (rxok nbok : Bool) (viol : BitVec 16) (s : State), RingUp s →
      s.on (RING_PORT.UP (portNo p)) = false ∨ (rxok = true ∧ nbok = true) →
      ∃ t, exec (.portDown p rxok nbok viol) s = .next t ∧
        t.get RING_CNT1.CODEERR = min 65535 (s.get RING_CNT1.CODEERR + viol.toNat) ∧
        t.ring = { s.ring with sent := [] } ∧
        t.mem = s.mem ∧
        RegsBut [Reg.RING_CNT1] s t) ∧
  (∀ (p : Port) (s : State), RingUp s →
      s.inRing = true →
      s.on (RING_PORT.UP (portNo p)) = false →
      ∃ t, exec (.portUp p) s = .next t ∧
        t.on (RING_PORT.UP (portNo p)) = true ∧
        t.on (RING_PORT.RXOK (portNo p)) = true ∧
        t.on (RING_PORT.NBOK (portNo p)) = true ∧
        t.on RING_IRQ.UP = true ∧
        t.on RING_STAT.ISOL = false ∧
        t.get RING_STAT.WRAPE = s.get RING_STAT.WRAPE ∧ t.get RING_STAT.WRAPW = s.get RING_STAT.WRAPW ∧
        t.ring = { s.ring with sent := [] } ∧
        t.mem = s.mem ∧
        RegsBut [Reg.RING_PORT (portNo p), Reg.RING_IRQ, Reg.RING_STAT] s t) ∧
  (∀ (p : Port) (s : State), RingUp s →
      s.inRing = false ∨ s.on (RING_PORT.UP (portNo p)) = true →
      ∃ t, exec (.portUp p) s = .next t ∧
        t = s.modRing (fun r => { r with sent := [] })) ∧
  (∀ (s : State), RingUp s →
      s.inRing = true →
      ((!(s.on (RING_PORT.UP 0)) && decide ((s.rport 0).downAt + 2500 ≤ s.now)) && !(s.on RING_STAT.WRAPE) || (!(s.on (RING_PORT.UP 1)) && decide ((s.rport 1).downAt + 2500 ≤ s.now)) && !(s.on RING_STAT.WRAPW)) = true →
      ∃ t, exec (.ringWrap) s = .next t ∧
        t.on RING_STAT.WRAPE = (s.on RING_STAT.WRAPE || (!(s.on (RING_PORT.UP 0)) && decide ((s.rport 0).downAt + 2500 ≤ s.now))) ∧
        t.on RING_STAT.WRAPW = (s.on RING_STAT.WRAPW || (!(s.on (RING_PORT.UP 1)) && decide ((s.rport 1).downAt + 2500 ≤ s.now))) ∧
        t.on RING_IRQ.WRAP = true ∧
        t.rg = s.rg ∧ t.pos = s.pos ∧
        t.mem = s.mem ∧
        RegsBut [Reg.RING_IRQ, Reg.RING_STAT] s t) ∧
  (∀ (s : State), RingUp s →
      s.inRing = false ∨ ((!(s.on (RING_PORT.UP 0)) && decide ((s.rport 0).downAt + 2500 ≤ s.now)) && !(s.on RING_STAT.WRAPE) || (!(s.on (RING_PORT.UP 1)) && decide ((s.rport 1).downAt + 2500 ≤ s.now)) && !(s.on RING_STAT.WRAPW)) = false →
      ∃ t, exec (.ringWrap) s = .next t ∧
        t = s.modRing (fun r => { r with sent := [] })) ∧
  (∀ (s : State), RingUp s →
      s.inRing = true →
      s.ring.cyc % 128 = 0 →
      (s.on (RING_PORT.UP 0) && s.on RING_STAT.WRAPE || s.on (RING_PORT.UP 1) && s.on RING_STAT.WRAPW) = true →
      ∃ t, exec (.ringUnwrap) s = .next t ∧
        t.on RING_STAT.WRAPE = (s.on RING_STAT.WRAPE && !(s.on (RING_PORT.UP 0))) ∧
        t.on RING_STAT.WRAPW = (s.on RING_STAT.WRAPW && !(s.on (RING_PORT.UP 1))) ∧
        t.on RING_IRQ.WRAP = true ∧
        t.rg = s.rg ∧ t.pos = s.pos ∧
        t.mem = s.mem ∧
        RegsBut [Reg.RING_IRQ, Reg.RING_STAT] s t) ∧
  (∀ (s : State), RingUp s →
      s.inRing = false ∨ s.ring.cyc % 128 ≠ 0 ∨ (s.on (RING_PORT.UP 0) && s.on RING_STAT.WRAPE || s.on (RING_PORT.UP 1) && s.on RING_STAT.WRAPW) = false →
      ∃ t, exec (.ringUnwrap) s = .next t ∧
        t = s.modRing (fun r => { r with sent := [] })) ∧
  (∀ (s : State), RingUp s →
      s.numbered = true ∧ s.pos < RING_PLAN.NSLOT.of s.ring.plan →
      s.ring.svcOut = [] ∧ s.ringReady = [] →
      (s.rg == rgManager && s.ring.numDue) = false →
      ∃ t, exec (.serviceSlot) s = .next t ∧
        t = s.modRing (fun r => { r with sent := [{ typ := 4, src := s.pos, dst := 0xFF, flags := 0 + s.ring.epoch % 16 * 16, seq := s.ring.seq, payload := leBytes 8 s.factoryExt ++ leBytes 1 s.rg ++ leBytes 1 (s.get RING_STAT.WRAPE + 2 * s.get RING_STAT.WRAPW) ++ List.replicate 6 0, port := s.primaryOut }], seq := (s.ring.seq + 1) % 65536, seen := s.ring.seen.filter (fun e => decide (e.1 < s.pos)) ++ (s.pos, s.factoryExt) :: s.ring.seen.filter (fun e => decide (s.pos < e.1)) })) ∧
  (∀ (s : State), RingUp s →
      s.numbered = true ∧ s.pos < RING_PLAN.NSLOT.of s.ring.plan →
      s.ring.seq < 65535 →
      s.ring.svcOut = [] ∧ s.ringReady = [] →
      s.rg = rgManager ∧ s.ring.numDue = true →
      ∃ t, exec (.serviceSlot) s = .next t ∧
        t = s.modRing (fun r => { r with sent := [{ typ := 4, src := s.pos, dst := 0xFF, flags := 0 + s.ring.epoch % 16 * 16, seq := s.ring.seq, payload := leBytes 8 s.factoryExt ++ leBytes 1 s.rg ++ leBytes 1 (s.get RING_STAT.WRAPE + 2 * s.get RING_STAT.WRAPW) ++ List.replicate 6 0, port := s.primaryOut }, { typ := 2, src := s.pos, dst := 0xFF, flags := 0 + s.ring.epoch % 16 * 16, seq := (s.ring.seq + 1) % 65536, payload := leBytes 1 1 ++ [0] ++ leBytes 2 s.ring.epoch, port := s.primaryOut }], seq := (s.ring.seq + 2) % 65536, seen := s.ring.seen.filter (fun e => decide (e.1 < s.pos)) ++ (s.pos, s.factoryExt) :: s.ring.seen.filter (fun e => decide (s.pos < e.1)), numDue := false, numAge := 0 })) ∧
  (∀ (x : RingResp) (s : State), RingUp s →
      s.numbered = true ∧ s.pos < RING_PLAN.NSLOT.of s.ring.plan →
      s.ring.seq < 65535 →
      s.ring.svcOut = [x] ∧ s.ringReady = [] →
      (s.rg == rgManager && s.ring.numDue) = false →
      ∃ t, exec (.serviceSlot) s = .next t ∧
        t.ring.sent = [{ typ := 4, src := s.pos, dst := 0xFF, flags := 0 + s.ring.epoch % 16 * 16, seq := s.ring.seq, payload := leBytes 8 s.factoryExt ++ leBytes 1 s.rg ++ leBytes 1 (s.get RING_STAT.WRAPE + 2 * s.get RING_STAT.WRAPW) ++ List.replicate 6 0, port := s.primaryOut }, { typ := x.typ, src := s.pos, dst := x.dst, flags := 2 * b2n (x.typ == 0x10) + s.ring.epoch % 16 * 16, seq := x.seq, payload := x.payload, port := s.primaryOut }] ∧
        t.ring.svcOut = [] ∧
        t.mem = s.mem ∧
        t.regs = s.regs) ∧
  (∀ (i : Nat) (s : State), RingUp s →
      s.numbered = true ∧ s.pos < RING_PLAN.NSLOT.of s.ring.plan →
      s.ring.seq < 65535 →
      (s.rg == rgManager && s.ring.numDue) = false →
      s.ring.svcOut = [] →
      s.ringTxOn = true ∧ i < 16 ∧ s.get RING_TXQPTR.TAIL = i ∧ s.get RING_TXQPTR.HEAD = (i + 1) % 16 ∧ s.rb (s.ringDesc i) = 1 →
      s.rdBad i = false →
      s.rdTyp i ≠ 0x20 →
      ∃ t, exec (.serviceSlot) s = .next t ∧
        t.ring.sent = [{ typ := 4, src := s.pos, dst := 0xFF, flags := 0 + s.ring.epoch % 16 * 16, seq := s.ring.seq, payload := leBytes 8 s.factoryExt ++ leBytes 1 s.rg ++ leBytes 1 (s.get RING_STAT.WRAPE + 2 * s.get RING_STAT.WRAPW) ++ List.replicate 6 0, port := s.primaryOut }, { typ := s.rdTyp i, src := s.pos, dst := s.rn (s.ringDesc i + 2) 1, flags := (s.rn (s.ringDesc i + 3) 1 &&& (if s.rdTyp i = 0x10 then 2 else 0)) % 16 + s.ring.epoch % 16 * 16, seq := (s.ring.seq + 1) % 65536, payload := s.bytes (s.rdAddr i) (s.rdLen i), port := s.primaryOut }] ∧
        t.rb (s.ringDesc i) = 2 ∧
        t.rb (s.ringDesc i + 6) = 1 ∧
        t.rw32 (s.ringDesc i + 12) = BitVec.ofNat 32 s.ring.tick ∧
        t.get RING_TXQPTR.TAIL = s.get RING_TXQPTR.HEAD ∧
        t.on RING_IRQ.TXDONE = true ∧
        RegsBut [Reg.RING_TXQPTR, Reg.RING_IRQ] s t ∧
        Outside (s.ringDesc i) 16 s t) ∧
  (∀ (i : Nat) (s : State), RingUp s →
      s.numbered = true ∧ s.pos < RING_PLAN.NSLOT.of s.ring.plan →
      s.ring.seq < 65535 →
      (s.rg == rgManager && s.ring.numDue) = false →
      s.ring.svcOut = [] →
      s.ringTxOn = true ∧ i < 16 ∧ s.get RING_TXQPTR.TAIL = i ∧ s.get RING_TXQPTR.HEAD = (i + 1) % 16 ∧ s.rb (s.ringDesc i) = 1 →
      s.rdBad i = true →
      s.rdTyp i ≠ 0x20 →
      ∃ t, exec (.serviceSlot) s = .next t ∧
        t.ring.sent = [{ typ := 4, src := s.pos, dst := 0xFF, flags := 0 + s.ring.epoch % 16 * 16, seq := s.ring.seq, payload := leBytes 8 s.factoryExt ++ leBytes 1 s.rg ++ leBytes 1 (s.get RING_STAT.WRAPE + 2 * s.get RING_STAT.WRAPW) ++ List.replicate 6 0, port := s.primaryOut }] ∧
        t.rb (s.ringDesc i) = 2 ∧
        t.rb (s.ringDesc i + 6) = 2 ∧
        t.rw32 (s.ringDesc i + 12) = BitVec.ofNat 32 s.ring.tick ∧
        t.get RING_TXQPTR.TAIL = s.get RING_TXQPTR.HEAD ∧
        t.on RING_IRQ.TXDONE = true ∧
        RegsBut [Reg.RING_TXQPTR, Reg.RING_IRQ] s t ∧
        Outside (s.ringDesc i) 16 s t) ∧
  (∀ (i : Nat) (s : State), RingUp s →
      s.numbered = true ∧ s.pos < RING_PLAN.NSLOT.of s.ring.plan →
      s.ring.seq < 65535 →
      (s.rg == rgManager && s.ring.numDue) = false →
      s.ring.svcOut = [] →
      s.ringTxOn = true ∧ i < 16 ∧ s.get RING_TXQPTR.TAIL = i ∧ s.get RING_TXQPTR.HEAD = (i + 1) % 16 ∧ s.rb (s.ringDesc i) = 1 →
      s.rdBad i = false →
      s.rdTyp i = 0x20 →
      ∃ t, exec (.serviceSlot) s = .next t ∧
        t.ring.sent = [{ typ := 4, src := s.pos, dst := 0xFF, flags := 1 + s.ring.epoch % 16 * 16, seq := s.ring.seq, payload := leBytes 8 s.factoryExt ++ leBytes 1 s.rg ++ leBytes 1 (s.get RING_STAT.WRAPE + 2 * s.get RING_STAT.WRAPW) ++ List.replicate 6 0, port := s.primaryOut }] ∧
        t.mem = s.mem ∧
        t.regs = s.regs) ∧
  (∀ (s : State), RingUp s →
      s.numbered = false ∨ RING_PLAN.NSLOT.of s.ring.plan ≤ s.pos →
      ∃ t, exec (.serviceSlot) s = .next t ∧
        t = s.modRing (fun r => { r with sent := [] })) ∧
  (∀ (i : Nat) (s : State), RingUp s →
      s.numbered = true ∧ s.ring.bulkOwn = s.pos →
      s.ringTxOn = true ∧ i < 16 ∧ s.get RING_TXQPTR.TAIL = i ∧ s.get RING_TXQPTR.HEAD = (i + 1) % 16 ∧ s.rb (s.ringDesc i) = 1 →
      s.rdTyp i = 0x20 →
      s.rdBad i = false →
      2 * (14 + s.rdLen i) ≤ 25 * (1000 - RING_PLAN.GAP.of s.ring.plan - (8 + RING_PLAN.NSLOT.of s.ring.plan * RING_PLAN.SLOT.of s.ring.plan) - 1) →
      ∃ t, exec (.bulkWindow) s = .next t ∧
        t.ring.sent = [{ typ := 0x20, src := s.pos, dst := s.rn (s.ringDesc i + 2) 1, flags := s.rn (s.ringDesc i + 3) 1 &&& 4 + s.ring.epoch % 16 * 16, seq := s.ring.seq, payload := s.bytes (s.rdAddr i) (s.rdLen i), port := s.primaryOut }] ∧
        t.rb (s.ringDesc i) = 2 ∧
        t.rb (s.ringDesc i + 6) = 1 ∧
        t.rw32 (s.ringDesc i + 12) = BitVec.ofNat 32 s.ring.tick ∧
        t.get RING_TXQPTR.TAIL = s.get RING_TXQPTR.HEAD ∧
        t.on RING_IRQ.TXDONE = true ∧
        RegsBut [Reg.RING_TXQPTR, Reg.RING_IRQ] s t ∧
        Outside (s.ringDesc i) 16 s t) ∧
  (∀ (i : Nat) (s : State), RingUp s →
      s.numbered = true ∧ s.ring.bulkOwn = s.pos →
      s.ringTxOn = true ∧ i < 16 ∧ s.get RING_TXQPTR.TAIL = i ∧ s.get RING_TXQPTR.HEAD = (i + 1) % 16 ∧ s.rb (s.ringDesc i) = 1 →
      s.rdTyp i = 0x20 →
      s.rdBad i = false →
      25 * (1000 - RING_PLAN.GAP.of s.ring.plan - (8 + RING_PLAN.NSLOT.of s.ring.plan * RING_PLAN.SLOT.of s.ring.plan) - 1) < 2 * (14 + s.rdLen i) →
      ∃ t, exec (.bulkWindow) s = .next t ∧
        t = s.modRing (fun r => { r with sent := [] })) ∧
  (∀ (i : Nat) (s : State), RingUp s →
      s.numbered = true ∧ s.ring.bulkOwn = s.pos →
      s.ringTxOn = true ∧ i < 16 ∧ s.get RING_TXQPTR.TAIL = i ∧ s.get RING_TXQPTR.HEAD = (i + 1) % 16 ∧ s.rb (s.ringDesc i) = 1 →
      s.rdTyp i = 0x20 →
      s.rdBad i = true →
      ∃ t, exec (.bulkWindow) s = .next t ∧
        t.ring.sent = [] ∧
        t.rb (s.ringDesc i) = 2 ∧
        t.rb (s.ringDesc i + 6) = 2 ∧
        t.rw32 (s.ringDesc i + 12) = BitVec.ofNat 32 s.ring.tick ∧
        t.get RING_TXQPTR.TAIL = s.get RING_TXQPTR.HEAD ∧
        t.on RING_IRQ.TXDONE = true ∧
        RegsBut [Reg.RING_TXQPTR, Reg.RING_IRQ] s t ∧
        Outside (s.ringDesc i) 16 s t) ∧
  (∀ (s : State), RingUp s →
      s.numbered = false ∨ s.ring.bulkOwn ≠ s.pos ∨ s.ringReady = [] →
      ∃ t, exec (.bulkWindow) s = .next t ∧
        t = s.modRing (fun r => { r with sent := [] })) ∧
  (∀ (s : State), RingUp s →
      s.rg = rgJoin →
      s.ringReady = [] →
      ∃ t, exec (.ringGap) s = .next t ∧
        t.rg = rgMember ∧
        t.pins = { s.pins with bypass := false } ∧
        t.on RING_IRQ.STATE = true ∧
        t.ring.sent.map (fun f => (f.typ, f.src, f.port)) = (if s.ring.cyc % 16 = 0 then [(0x30, 0xFE, 0), (0x30, 0xFE, 1)] else []) ∧
        t.mem = s.mem ∧
        RegsBut [Reg.RING_STAT, Reg.RING_IRQ] s t) ∧
  (∀ (s : State), RingUp s →
      s.inRing = true →
      s.ring.cyc % 16 = 0 →
      ∃ t, exec (.ringGap) s = .next t ∧
        t = s.modRing (fun r => { r with sent := [{ typ := 0x30, src := s.ringSrc, dst := 0xFF, flags := 0, seq := 0, payload := [], port := 0 }, { typ := 0x30, src := s.ringSrc, dst := 0xFF, flags := 0, seq := 0, payload := [], port := 1 }], east := { r.east with t1 := some s.now }, west := { r.west with t1 := some s.now } })) ∧
  (∀ (s : State), RingUp s →
      s.rg ≠ rgJoin →
      s.inRing = false ∨ s.ring.cyc % 16 ≠ 0 →
      ∃ t, exec (.ringGap) s = .next t ∧
        t = s.modRing (fun r => { r with sent := [] })) ∧
  (∀ (d : Word) (s : State), Core Reg.RING_CFG s →
      s.on RING_CFG.EN = false ∧ s.rg = rgBypass →
      ∃ t, exec (.ringEnable d) s = .next t ∧
        t.on RING_CFG.EN = true ∧
        t.get RING_CFG.MGRPRI = RING_CFG.MGRPRI.of d ∧
        t.rg = rgListen ∧
        t.on RING_IRQ.STATE = true ∧
        t.pins = s.pins ∧
        t.mem = s.mem ∧
        RegsBut [Reg.RING_CFG, Reg.RING_STAT, Reg.RING_IRQ] s t) ∧
  (∀ (d : Word) (s : State), Core Reg.RING_CFG s →
      s.on RING_CFG.EN = true →
      ∃ t, exec (.ringEnable d) s = .next t ∧
        t.on RING_CFG.EN = true ∧
        t.get RING_CFG.MGRPRI = RING_CFG.MGRPRI.of d ∧
        t.ring = { s.ring with sent := [] } ∧
        t.pins = s.pins ∧
        t.mem = s.mem ∧
        RegsBut [Reg.RING_CFG] s t) ∧
  (∀ (d : Word) (s : State), Core Reg.RING_CFG s →
      s.on RING_CFG.EN = true →
      s.rg ≠ rgBypass →
      s.ringReady = [] →
      ∃ t, exec (.ringDisable d) s = .next t ∧
        t.on RING_CFG.EN = false ∧
        t.rg = rgBypass ∧
        t.reg Reg.RING_STAT = 0 ∧
        t.reg (Reg.RING_PORT 0) = 0 ∧ t.reg (Reg.RING_PORT 1) = 0 ∧
        t.pins = { s.pins with bypass := true } ∧
        t.on RING_IRQ.STATE = true ∧
        t.ring.svcOut = [] ∧ t.ring.present = [] ∧ t.ring.downs = s.ring.downs ∧
        t.mem = s.mem ∧
        RegsBut [Reg.RING_CFG, Reg.RING_STAT, Reg.RING_PORT 0, Reg.RING_PORT 1, Reg.RING_IRQ, Reg.RING_TXQPTR] s t) ∧
  (∀ (d : Word) (i : Nat) (s : State), Core Reg.RING_CFG s →
      s.on RING_CFG.EN = true →
      s.rg ≠ rgBypass →
      s.ringTxOn = true ∧ i < 16 ∧ s.get RING_TXQPTR.TAIL = i ∧ s.get RING_TXQPTR.HEAD = (i + 1) % 16 ∧ s.rb (s.ringDesc i) = 1 →
      ∃ t, exec (.ringDisable d) s = .next t ∧
        t.on RING_CFG.EN = false ∧
        t.rg = rgBypass ∧
        t.reg Reg.RING_STAT = 0 ∧
        t.reg (Reg.RING_PORT 0) = 0 ∧ t.reg (Reg.RING_PORT 1) = 0 ∧
        t.pins = { s.pins with bypass := true } ∧
        t.on RING_IRQ.STATE = true ∧
        t.ring.svcOut = [] ∧ t.ring.present = [] ∧ t.ring.downs = s.ring.downs ∧
        t.rb (s.ringDesc i) = 2 ∧
        t.rb (s.ringDesc i + 6) = 4 ∧
        t.rw32 (s.ringDesc i + 12) = BitVec.ofNat 32 s.ring.tick ∧
        t.get RING_TXQPTR.TAIL = s.get RING_TXQPTR.HEAD ∧
        t.on RING_IRQ.TXDONE = true ∧
        RegsBut [Reg.RING_CFG, Reg.RING_STAT, Reg.RING_PORT 0, Reg.RING_PORT 1, Reg.RING_IRQ, Reg.RING_TXQPTR] s t ∧
        Outside (s.ringDesc i) 16 s t) ∧
  (∀ (d : Word) (s : State), Core Reg.RING_CFG s →
      s.on RING_CFG.EN = false →
      ∃ t, exec (.ringDisable d) s = .next t ∧
        t.on RING_CFG.EN = false ∧
        t.ring = { s.ring with sent := [] } ∧
        t.pins = s.pins ∧
        t.mem = s.mem ∧
        RegsBut [Reg.RING_CFG] s t) ∧
  (∀ (c : Instr) (p : Port) (rxok nbok : Bool) (viol : BitVec 16) (s : State), s.ringOn = false ∨ s.clocked = false ∨ s.on RING_CFG.EN = false →
      c ∈ [.portDown p rxok nbok viol, .portUp p, .ringWrap, .ringUnwrap, .serviceSlot, .bulkWindow, .ringGap] →
      ∃ t, exec (c) s = .next t ∧
        t = s)

/-- Services of the object dictionary. DICT_READ, DICT_WRITE, DICT_BEGIN, DICT_COMMIT, DICT_ABORT, DICT_SNAPSHOT and DICT_FETCH from the host port, ready for a frame, and from a ring position, and HOST_DICT of a BEGIN's bytes; the engine serves at a part that is no standby and the request repeats none answered or in work, where the clause does not say otherwise. The host's answer is its next reply, a ring position's waits for the part's slot. Memory and every register but the port's own stay where not named. The wrong items are those that the model's staging test refuses. (1) DICT_READ of at most 64 items waits for the tick boundary; the reply is outstanding. (2) Of more it is answered BADMSG. (3) Any request to an engine that does not serve is answered BUSY and changes no session. (4) One that repeats the last executed one's RID, not 0, and service gets the kept response again and executes nothing. (5) One in work already executes nothing again. (6) DICT_BEGIN with no transaction and a free buffer opens one. (7) HOST_DICT of its four bytes does the same. (8) With one open TRANSOPEN. (9) Without a free buffer BUSY. (10) DICT_WRITE in an open transaction stages an item that passes. (11) A name staged takes the place of one staged before; the value in force stays. (12) An item that fails is answered with its status, index and subindex, and nothing is staged. (13) Without a transaction a good write is one of its own, through its check, and waits for its boundary. (14) A bad one is refused, counted, and starts nothing. (15) Without a free buffer BUSY. (16) DICT_COMMIT of a name with the engine idle and room in the store passes its check and waits for its boundary; the value in force stays till then. (17) Behind a COMMIT that waits for its boundary it queues. (18) A transaction that was given a write to a set in use is refused RANGE with that entry. (19) Without a transaction NOTRANS. (20) After one has expired WRITE, COMMIT and ABORT are answered EXPIRED, once. (21) DICT_ABORT discards the transaction. (22) Without one NOTRANS. (23) DICT_SNAPSHOT with a free buffer frees the session's old one and waits for the boundary. (24) Without buffers BUSY. (25) DICT_FETCH returns the bytes asked, cut at the list's end, and frees the buffer with the last byte. (26) More than a response holds is answered TOOBIG and keeps the buffer. (27) Without a buffer NOTRANS. (28) From a ring position READ waits for the boundary, (29) BEGIN opens the position's own transaction, (30) WRITE stages in it, (31) COMMIT takes it through its check, (32) ABORT discards it, (33) SNAPSHOT waits for the boundary, (34) and FETCH returns what fits the slot. -/
def Obligations.DictServices : Prop :=
  (∀ (tag : BitVec 4) (rid : BitVec 8) (items : List (BitVec 16 × BitVec 8)) (s : State), DictHost 1 rid s →
      items.length ≤ 64 →
      ∃ t, exec (.dictRead (.host tag) rid items) s = .next t ∧
        t.dict = { s.dict with reads := s.dict.reads ++ [⟨hostReq 1 rid, keysOf items⟩] } ∧
        t.spis.pend = true ∧
        t.get SPIS_STAT.LASTCMD = 2 ∧
        t.mem = s.mem ∧
        RegsBut [Reg.SPIS_STAT, Reg.SPIS_IRQ, Reg.SPIS_ATTN] s t) ∧
  (∀ (tag : BitVec 4) (rid : BitVec 8) (items : List (BitVec 16 × BitVec 8)) (s : State), DictHost 1 rid s →
      64 < items.length →
      ∃ t, exec (.dictRead (.host tag) rid items) s = .next t ∧
        Answered tag 1 rid { st := 13 } s t ∧
        t.dict = s.dict ∧
        t.mem = s.mem ∧
        RegsBut [Reg.SPIS_STAT, Reg.SPIS_IRQ, Reg.SPIS_ATTN] s t) ∧
  (∀ (c : Instr) (svc : Nat) (tag : BitVec 4) (rid : BitVec 8) (items : List (BitVec 16 × BitVec 8)) (off len : BitVec 16) (s : State), HostReady s →
      items.length ≤ 64 →
      s.dictReady = false →
      (c, svc) ∈ ([(.dictRead (.host tag) rid items, 1), (.dictBegin (.host tag) rid, 3), (.dictCommit (.host tag) rid, 4), (.dictAbort (.host tag) rid, 5), (.dictSnapshot (.host tag) rid items, 6), (.dictFetch (.host tag) rid off len, 7)] : List (Instr × Nat)) →
      ∃ t, exec (c) s = .next t ∧
        Answered tag svc rid { st := 9 } s t ∧
        t.dict = s.dict ∧
        t.mem = s.mem ∧
        RegsBut [Reg.SPIS_STAT, Reg.SPIS_IRQ, Reg.SPIS_ATTN] s t) ∧
  (∀ (c : Instr) (svc : Nat) (tag : BitVec 4) (rid : BitVec 8) (items : List (BitVec 16 × BitVec 8)) (off len : BitVec 16) (b : List (BitVec 8)) (s : State), HostReady s →
      items.length ≤ 64 →
      s.dictReady = true →
      rid ≠ 0 →
      (s.sess .host).kept = some (svc, rid.toNat, b) →
      (c, svc) ∈ ([(.dictRead (.host tag) rid items, 1), (.dictBegin (.host tag) rid, 3), (.dictCommit (.host tag) rid, 4), (.dictAbort (.host tag) rid, 5), (.dictSnapshot (.host tag) rid items, 6), (.dictFetch (.host tag) rid off len, 7)] : List (Instr × Nat)) →
      ∃ t, exec (c) s = .next t ∧
        t.spis.pend = false ∧
        t.spis.kept = some ⟨0, tag.toNat, b⟩ ∧
        t.dict = s.dict ∧
        t.mem = s.mem ∧
        RegsBut [Reg.SPIS_STAT, Reg.SPIS_IRQ, Reg.SPIS_ATTN] s t) ∧
  (∀ (c : Instr) (svc : Nat) (tag : BitVec 4) (rid : BitVec 8) (items : List (BitVec 16 × BitVec 8)) (off len : BitVec 16) (s : State), HostReady s →
      items.length ≤ 64 →
      s.dictReady = true →
      (s.sess .host).kept = none →
      s.serving (hostReq svc rid) = true →
      (c, svc) ∈ ([(.dictRead (.host tag) rid items, 1), (.dictBegin (.host tag) rid, 3), (.dictCommit (.host tag) rid, 4), (.dictAbort (.host tag) rid, 5), (.dictSnapshot (.host tag) rid items, 6), (.dictFetch (.host tag) rid off len, 7)] : List (Instr × Nat)) →
      ∃ t, exec (c) s = .next t ∧
        t.spis.pend = true ∧
        t.dict = s.dict ∧
        t.mem = s.mem ∧
        RegsBut [Reg.SPIS_STAT, Reg.SPIS_IRQ, Reg.SPIS_ATTN] s t) ∧
  (∀ (tag : BitVec 4) (rid : BitVec 8) (s : State), DictHost 3 rid s →
      (s.sess .host).trans = none →
      s.bufferFree = true →
      ∃ t, exec (.dictBegin (.host tag) rid) s = .next t ∧
        (t.sess .host).trans = some [] ∧ (t.sess .host).doomed = none ∧
        (t.sess .host).snap = (s.sess .host).snap ∧
        Answered tag 3 rid {} s t ∧
        t.mem = s.mem ∧
        RegsBut [Reg.SPIS_STAT, Reg.SPIS_IRQ, Reg.SPIS_ATTN] s t) ∧
  (∀ (tag : BitVec 4) (rid : BitVec 8) (s : State), DictHost 3 rid s →
      (s.sess .host).trans = none →
      s.bufferFree = true →
      ∃ t, exec (.hostDict tag [3, rid, 0, 0]) s = .next t ∧
        (t.sess .host).trans = some [] ∧
        Answered tag 3 rid {} s t ∧
        t.mem = s.mem ∧
        RegsBut [Reg.SPIS_STAT, Reg.SPIS_IRQ, Reg.SPIS_ATTN] s t) ∧
  (∀ (tag : BitVec 4) (rid : BitVec 8) (l : List DItem) (s : State), DictHost 3 rid s →
      (s.sess .host).trans = some l →
      ∃ t, exec (.dictBegin (.host tag) rid) s = .next t ∧
        (t.sess .host).trans = some l ∧
        Answered tag 3 rid { st := 7 } s t ∧
        t.mem = s.mem ∧
        RegsBut [Reg.SPIS_STAT, Reg.SPIS_IRQ, Reg.SPIS_ATTN] s t) ∧
  (∀ (tag : BitVec 4) (rid : BitVec 8) (s : State), DictHost 3 rid s →
      (s.sess .host).trans = none →
      s.bufferFree = false →
      ∃ t, exec (.dictBegin (.host tag) rid) s = .next t ∧
        (t.sess .host).trans = none ∧
        Answered tag 3 rid { st := 9 } s t ∧
        t.mem = s.mem ∧
        RegsBut [Reg.SPIS_STAT, Reg.SPIS_IRQ, Reg.SPIS_ATTN] s t) ∧
  (∀ (tag : BitVec 4) (rid : BitVec 8) (i : BitVec 16) (n : BitVec 8) (b : List (BitVec 8)) (l l2 : List DItem) (s : State), DictHost 2 rid s →
      (s.sess .host).trans = some l →
      (s.sess .host).expired = false →
      b.length ≤ 1024 →
      stageItems [⟨i.toNat, n.toNat, b⟩] l s = (l2, none) →
      ∃ t, exec (.dictWrite (.host tag) rid [(i, n, b)]) s = .next t ∧
        (t.sess .host).trans = some l2 ∧
        Answered tag 2 rid {} s t ∧
        t.mem = s.mem ∧
        RegsBut [Reg.SPIS_STAT, Reg.SPIS_IRQ, Reg.SPIS_ATTN] s t) ∧
  (∀ (tag : BitVec 4) (rid : BitVec 8) (v : List (BitVec 8)) (l : List DItem) (s : State), DictHost 2 rid s →
      (s.sess .host).trans = some l ∧ (s.sess .host).expired = false →
      v.length ≤ 32 ∧ s.dict.locked = none →
      s.standby = false →
      stageLimit (stageIn ⟨0x5000, 1, v⟩ l) s = false →
      ∃ t, exec (.dictWrite (.host tag) rid [(0x5000, 1, v)]) s = .next t ∧
        (t.sess .host).trans = some (l.filter (fun i => !(i.idx == 0x5000 && i.sub == 1)) ++ [⟨0x5000, 1, v⟩]) ∧
        t.assetVal 1 = s.assetVal 1 ∧
        Answered tag 2 rid {} s t ∧
        t.mem = s.mem ∧
        RegsBut [Reg.SPIS_STAT, Reg.SPIS_IRQ, Reg.SPIS_ATTN] s t) ∧
  (∀ (tag : BitVec 4) (rid : BitVec 8) (i : BitVec 16) (n : BitVec 8) (b : List (BitVec 8)) (l : List DItem) (st : Nat) (s : State), DictHost 2 rid s →
      (s.sess .host).trans = some l →
      (s.sess .host).expired = false →
      b.length ≤ 1024 →
      stageItems [⟨i.toNat, n.toNat, b⟩] l s = (l, some (⟨i.toNat, n.toNat, b⟩, st)) →
      s.rxParamHeld i.toNat = false →
      ∃ t, exec (.dictWrite (.host tag) rid [(i, n, b)]) s = .next t ∧
        (t.sess .host).trans = some l ∧
        Answered tag 2 rid { st := st, fidx := i.toNat, fsub := n.toNat } s t ∧
        t.mem = s.mem ∧
        RegsBut [Reg.SPIS_STAT, Reg.SPIS_IRQ, Reg.SPIS_ATTN] s t) ∧
  (∀ (tag : BitVec 4) (rid : BitVec 8) (v : List (BitVec 8)) (s : State), DictHost 2 rid s →
      (s.sess .host).trans = none ∧ (s.sess .host).expired = false →
      s.bufferFree = true →
      v.length ≤ 32 ∧ s.dict.locked = none →
      DictIdle s →
      NoStore s →
      ∃ t, exec (.dictWrite (.host tag) rid [(0x5000, 1, v)]) s = .next t ∧
        t.dict.run = some ⟨hostReq 2 rid, .user, [⟨0x5000, 1, v⟩], .ready s.now⟩ ∧
        t.spis.pend = true ∧
        t.assetVal 1 = s.assetVal 1 ∧
        t.mem = s.mem) ∧
  (∀ (tag : BitVec 4) (rid : BitVec 8) (i : BitVec 16) (n : BitVec 8) (b : List (BitVec 8)) (st : Nat) (s : State), DictHost 2 rid s →
      (s.sess .host).trans = none ∧ (s.sess .host).expired = false →
      s.bufferFree = true →
      b.length ≤ 1024 →
      stageItems [⟨i.toNat, n.toNat, b⟩] [] s = ([], some (⟨i.toNat, n.toNat, b⟩, st)) →
      ∃ t, exec (.dictWrite (.host tag) rid [(i, n, b)]) s = .next t ∧
        t.get DICT_CNT.REFUSED = min (s.get DICT_CNT.REFUSED + 1) (2 ^ DICT_CNT.REFUSED.w - 1) ∧
        t.on DICT_IRQ.REFUSE = true ∧
        Answered tag 2 rid { st := st, fidx := i.toNat, fsub := n.toNat } s t ∧
        t.dict.run = s.dict.run ∧
        t.mem = s.mem ∧
        RegsBut [Reg.SPIS_STAT, Reg.SPIS_IRQ, Reg.SPIS_ATTN, Reg.DICT_CNT, Reg.DICT_IRQ] s t) ∧
  (∀ (tag : BitVec 4) (rid : BitVec 8) (i : BitVec 16) (n : BitVec 8) (b : List (BitVec 8)) (s : State), DictHost 2 rid s →
      (s.sess .host).trans = none ∧ (s.sess .host).expired = false →
      s.bufferFree = false →
      b.length ≤ 1024 →
      ∃ t, exec (.dictWrite (.host tag) rid [(i, n, b)]) s = .next t ∧
        Answered tag 2 rid { st := 9 } s t ∧
        t.mem = s.mem ∧
        RegsBut [Reg.SPIS_STAT, Reg.SPIS_IRQ, Reg.SPIS_ATTN] s t) ∧
  (∀ (tag : BitVec 4) (rid : BitVec 8) (v : List (BitVec 8)) (s : State), DictHost 4 rid s →
      (s.sess .host).trans = some [⟨0x5000, 1, v⟩] ∧ (s.sess .host).expired = false ∧ (s.sess .host).doomed = none →
      DictIdle s →
      s.noStore = true ∨ (storeAll (keptItems [⟨0x5000, 1, v⟩] s) s).isSome = true →
      ∃ t, exec (.dictCommit (.host tag) rid) s = .next t ∧
        t.dict.run = some ⟨hostReq 4 rid, .user, [⟨0x5000, 1, v⟩], .ready s.now⟩ ∧
        (t.sess .host).trans = none ∧
        t.assetVal 1 = s.assetVal 1 ∧
        t.spis.pend = true ∧
        t.mem = s.mem) ∧
  (∀ (tag : BitVec 4) (rid : BitVec 8) (l : List DItem) (r : DRun) (k : Nat) (s : State), DictHost 4 rid s →
      (s.sess .host).trans = some l ∧ (s.sess .host).expired = false ∧ (s.sess .host).doomed = none →
      s.dict.run = some r ∧ r.stage = .ready k →
      s.dict.store.ops = [] ∧ s.dict.meshWait = none →
      ∃ t, exec (.dictCommit (.host tag) rid) s = .next t ∧
        t.dict.run = some r ∧
        t.dict.queue = s.dict.queue ++ [⟨hostReq 4 rid, .user, l, .waiting⟩] ∧
        (t.sess .host).trans = none ∧
        t.spis.pend = true ∧
        t.mem = s.mem ∧
        RegsBut [Reg.SPIS_STAT, Reg.SPIS_IRQ, Reg.SPIS_ATTN] s t) ∧
  (∀ (tag : BitVec 4) (rid : BitVec 8) (l : List DItem) (i n : Nat) (s : State), DictHost 4 rid s →
      (s.sess .host).trans = some l ∧ (s.sess .host).expired = false →
      (s.sess .host).doomed = some (i, n) →
      ∃ t, exec (.dictCommit (.host tag) rid) s = .next t ∧
        (t.sess .host).trans = none ∧
        Answered tag 4 rid { st := 4, fidx := i, fsub := n } s t ∧
        t.get DICT_CNT.REFUSED = min (s.get DICT_CNT.REFUSED + 1) (2 ^ DICT_CNT.REFUSED.w - 1) ∧
        t.on DICT_IRQ.REFUSE = true ∧
        t.dict.run = s.dict.run ∧
        t.mem = s.mem ∧
        RegsBut [Reg.SPIS_STAT, Reg.SPIS_IRQ, Reg.SPIS_ATTN, Reg.DICT_CNT, Reg.DICT_IRQ] s t) ∧
  (∀ (tag : BitVec 4) (rid : BitVec 8) (s : State), DictHost 4 rid s →
      (s.sess .host).trans = none ∧ (s.sess .host).expired = false →
      ∃ t, exec (.dictCommit (.host tag) rid) s = .next t ∧
        Answered tag 4 rid { st := 6 } s t ∧
        t.dict.run = s.dict.run ∧
        t.mem = s.mem ∧
        RegsBut [Reg.SPIS_STAT, Reg.SPIS_IRQ, Reg.SPIS_ATTN] s t) ∧
  (∀ (c : Instr) (svc : Nat) (tag : BitVec 4) (rid : BitVec 8) (s : State), DictHost svc rid s →
      (s.sess .host).expired = true →
      (c, svc) ∈ ([(.dictWrite (.host tag) rid [], 2), (.dictCommit (.host tag) rid, 4), (.dictAbort (.host tag) rid, 5)] : List (Instr × Nat)) →
      ∃ t, exec (c) s = .next t ∧
        Answered tag svc rid { st := 15 } s t ∧
        (t.sess .host).expired = false ∧
        t.dict.run = s.dict.run ∧
        t.mem = s.mem ∧
        RegsBut [Reg.SPIS_STAT, Reg.SPIS_IRQ, Reg.SPIS_ATTN] s t) ∧
  (∀ (tag : BitVec 4) (rid : BitVec 8) (l : List DItem) (s : State), DictHost 5 rid s →
      (s.sess .host).trans = some l ∧ (s.sess .host).expired = false →
      ∃ t, exec (.dictAbort (.host tag) rid) s = .next t ∧
        (t.sess .host).trans = none ∧ (t.sess .host).doomed = none ∧
        Answered tag 5 rid {} s t ∧
        t.mem = s.mem ∧
        RegsBut [Reg.SPIS_STAT, Reg.SPIS_IRQ, Reg.SPIS_ATTN] s t) ∧
  (∀ (tag : BitVec 4) (rid : BitVec 8) (s : State), DictHost 5 rid s →
      (s.sess .host).trans = none ∧ (s.sess .host).expired = false →
      ∃ t, exec (.dictAbort (.host tag) rid) s = .next t ∧
        Answered tag 5 rid { st := 6 } s t ∧
        t.mem = s.mem ∧
        RegsBut [Reg.SPIS_STAT, Reg.SPIS_IRQ, Reg.SPIS_ATTN] s t) ∧
  (∀ (tag : BitVec 4) (rid : BitVec 8) (items : List (BitVec 16 × BitVec 8)) (s : State), DictHost 6 rid s →
      items.length ≤ 64 →
      s.on DICT_BUFBASE.EN = true ∧ s.dictUsed < 8 →
      ∃ t, exec (.dictSnapshot (.host tag) rid items) s = .next t ∧
        t.dict.reads = s.dict.reads ++ [⟨hostReq 6 rid, keysOf items⟩] ∧
        (t.sess .host).snap = none ∧
        (t.sess .host).trans = (s.sess .host).trans ∧
        t.spis.pend = true ∧
        t.mem = s.mem ∧
        RegsBut [Reg.SPIS_STAT, Reg.SPIS_IRQ, Reg.SPIS_ATTN] s t) ∧
  (∀ (tag : BitVec 4) (rid : BitVec 8) (items : List (BitVec 16 × BitVec 8)) (s : State), DictHost 6 rid s →
      items.length ≤ 64 →
      s.on DICT_BUFBASE.EN = false →
      ∃ t, exec (.dictSnapshot (.host tag) rid items) s = .next t ∧
        Answered tag 6 rid { st := 9 } s t ∧
        t.dict.reads = s.dict.reads ∧
        (t.sess .host).snap = none ∧
        t.mem = s.mem ∧
        RegsBut [Reg.SPIS_STAT, Reg.SPIS_IRQ, Reg.SPIS_ATTN] s t) ∧
  (∀ (tag : BitVec 4) (rid : BitVec 8) (off len : BitVec 16) (k n : Nat) (s : State), DictHost 7 rid s →
      (s.sess .host).snap = some (k, n) →
      len.toNat ≤ 2036 →
      ∃ t, exec (.dictFetch (.host tag) rid off len) s = .next t ∧
        Answered tag 7 rid { fidx := n, body := (((s.bytes (s.dictBuf k) n).drop off.toNat).take len.toNat) } s t ∧
        (t.sess .host).snap = (if 0 < (((s.bytes (s.dictBuf k) n).drop off.toNat).take len.toNat).length ∧ n ≤ off.toNat + (((s.bytes (s.dictBuf k) n).drop off.toNat).take len.toNat).length then none else some (k, n)) ∧
        t.mem = s.mem ∧
        RegsBut [Reg.SPIS_STAT, Reg.SPIS_IRQ, Reg.SPIS_ATTN] s t) ∧
  (∀ (tag : BitVec 4) (rid : BitVec 8) (off len : BitVec 16) (k n : Nat) (s : State), DictHost 7 rid s →
      (s.sess .host).snap = some (k, n) →
      2036 < (((s.bytes (s.dictBuf k) n).drop off.toNat).take len.toNat).length →
      ∃ t, exec (.dictFetch (.host tag) rid off len) s = .next t ∧
        Answered tag 7 rid { st := 12 } s t ∧
        (t.sess .host).snap = some (k, n) ∧
        t.mem = s.mem ∧
        RegsBut [Reg.SPIS_STAT, Reg.SPIS_IRQ, Reg.SPIS_ATTN] s t) ∧
  (∀ (tag : BitVec 4) (rid : BitVec 8) (off len : BitVec 16) (s : State), DictHost 7 rid s →
      (s.sess .host).snap = none →
      ∃ t, exec (.dictFetch (.host tag) rid off len) s = .next t ∧
        Answered tag 7 rid { st := 6 } s t ∧
        t.mem = s.mem ∧
        RegsBut [Reg.SPIS_STAT, Reg.SPIS_IRQ, Reg.SPIS_ATTN] s t) ∧
  (∀ (h : RingHdr) (rid : BitVec 8) (items : List (BitVec 16 × BitVec 8)) (s : State), DictRing h 1 rid s →
      items.length ≤ 64 →
      ∃ t, exec (.dictRead (.ring h) rid items) s = .next t ∧
        t.dict = { s.dict with reads := s.dict.reads ++ [⟨ringReq h 1 rid, keysOf items⟩] } ∧
        t.ring.svcOut = s.ring.svcOut ∧
        t.mem = s.mem ∧
        t.regs = s.regs) ∧
  (∀ (h : RingHdr) (rid : BitVec 8) (s : State), DictRing h 3 rid s →
      12 ≤ s.ringLimit →
      (s.sess (.ring h.src.toNat)).trans = none →
      s.bufferFree = true →
      ∃ t, exec (.dictBegin (.ring h) rid) s = .next t ∧
        (t.sess (.ring h.src.toNat)).trans = some [] ∧
        (t.sess .host) = (s.sess .host) ∧
        RingAnswered h 3 rid {} s t ∧
        t.mem = s.mem ∧
        t.regs = s.regs) ∧
  (∀ (h : RingHdr) (rid : BitVec 8) (i : BitVec 16) (n : BitVec 8) (b : List (BitVec 8)) (l l2 : List DItem) (s : State), DictRing h 2 rid s →
      12 ≤ s.ringLimit →
      (s.sess (.ring h.src.toNat)).trans = some l ∧ (s.sess (.ring h.src.toNat)).expired = false →
      b.length ≤ 1024 →
      stageItems [⟨i.toNat, n.toNat, b⟩] l s = (l2, none) →
      ∃ t, exec (.dictWrite (.ring h) rid [(i, n, b)]) s = .next t ∧
        (t.sess (.ring h.src.toNat)).trans = some l2 ∧
        RingAnswered h 2 rid {} s t ∧
        t.mem = s.mem ∧
        t.regs = s.regs) ∧
  (∀ (h : RingHdr) (rid : BitVec 8) (v : List (BitVec 8)) (s : State), DictRing h 4 rid s →
      12 ≤ s.ringLimit →
      (s.sess (.ring h.src.toNat)).trans = some [⟨0x5000, 1, v⟩] ∧ (s.sess (.ring h.src.toNat)).expired = false ∧ (s.sess (.ring h.src.toNat)).doomed = none →
      DictIdle s →
      NoStore s →
      ∃ t, exec (.dictCommit (.ring h) rid) s = .next t ∧
        t.dict.run = some ⟨ringReq h 4 rid, .user, [⟨0x5000, 1, v⟩], .ready s.now⟩ ∧
        (t.sess (.ring h.src.toNat)).trans = none ∧
        t.ring.svcOut = s.ring.svcOut ∧
        t.mem = s.mem) ∧
  (∀ (h : RingHdr) (rid : BitVec 8) (l : List DItem) (s : State), DictRing h 5 rid s →
      12 ≤ s.ringLimit →
      (s.sess (.ring h.src.toNat)).trans = some l ∧ (s.sess (.ring h.src.toNat)).expired = false →
      ∃ t, exec (.dictAbort (.ring h) rid) s = .next t ∧
        (t.sess (.ring h.src.toNat)).trans = none ∧
        RingAnswered h 5 rid {} s t ∧
        t.mem = s.mem ∧
        t.regs = s.regs) ∧
  (∀ (h : RingHdr) (rid : BitVec 8) (items : List (BitVec 16 × BitVec 8)) (s : State), DictRing h 6 rid s →
      items.length ≤ 64 →
      s.on DICT_BUFBASE.EN = true ∧ s.dictUsed < 8 →
      ∃ t, exec (.dictSnapshot (.ring h) rid items) s = .next t ∧
        t.dict.reads = s.dict.reads ++ [⟨ringReq h 6 rid, keysOf items⟩] ∧
        (t.sess (.ring h.src.toNat)).snap = none ∧
        t.ring.svcOut = s.ring.svcOut ∧
        t.mem = s.mem ∧
        t.regs = s.regs) ∧
  (∀ (h : RingHdr) (rid : BitVec 8) (off len : BitVec 16) (k n : Nat) (s : State), DictRing h 7 rid s →
      (s.sess (.ring h.src.toNat)).snap = some (k, n) →
      len.toNat + 12 ≤ min 2048 s.ringLimit →
      ∃ t, exec (.dictFetch (.ring h) rid off len) s = .next t ∧
        RingAnswered h 7 rid { fidx := n, body := (((s.bytes (s.dictBuf k) n).drop off.toNat).take len.toNat) } s t ∧
        t.mem = s.mem ∧
        t.regs = s.regs)

/-- The dictionary engine beside its services. SNAPSHOT_BUFFER_EXPIRY, TRANSACTION_EXPIRY, HOLDMAX_EXPIRY, CHECK_TIMEOUT, CHECK_VERDICT, MESH_ENVELOPE, LOCAL_REQUEST, DICT_RESTORE, STORE_CFG_WRITE and APP_TABLE_WRITE; writes as the bus takes them. Memory and every register not named stay. Of the mesh queue the descriptor at TAIL is ready, its buffers in control SRAM and its output clear of the queue. (1) SNAPSHOT_BUFFER_EXPIRY frees the session's buffer and keeps its transaction. (2) TRANSACTION_EXPIRY ends the session's transaction, which it will be told, and keeps its buffer. (3) With neither, or the engine's clock gated, both change nothing. (4) HOLDMAX_EXPIRY of the host's COMMIT on hold refuses it BUSY. (5) CHECK_TIMEOUT in its check does too. (6) With no COMMIT, or the clock gated, both change nothing. (7) CHECK_VERDICT of a refusal with GO, an entry offered, refuses it APPREF with firmware's DETAIL. (8) Of an acceptance of the last entry, the transaction a name, it goes on to wait for its boundary. (9) Of another one the next entry is offered; the model has it of no type here, so no value is placed. (10) Without GO or with nothing offered, the engine idle, it changes nothing. (11) MESH_ENVELOPE with a good MIC and a counter above the last one, the store in use and with room, appends the counter's record and waits for it with the request decrypted. (12) A lower counter is dropped: DROPPED, counted, REPLAY, TAIL moves; nothing but the descriptor's first 8 bytes changes in memory. (13) The last counter is answered with the kept envelope. (14) A wrong dispatch, flags or level is dropped. (15) So is a wrong MIC or an envelope too short for one. (16) And one under no valid DICT key. (17) A kind above 1 ends BADDESC. (18) So does an empty or too long input. (19) With no descriptor to serve, or one of the other kind, both change nothing. (20) LOCAL_REQUEST of a BEGIN opens the local transaction, writes the response where OUTADDR says with its length, ends ANSWERED and moves TAIL; every other byte stays. (21) With less than 12 bytes of room it ends NOROOM. (22) DICT_RESTORE with EN rising, no store in use, is READY at once. (23) With a store in which no record is found it commits an empty restore, READY after its boundary. (24) With EN = 0, nothing waiting, READY clears. (25) A read that the host waits for is answered BUSY. (26) STORE_CFG_WRITE of a ring of 2 to 32 blocks within 388 to 495 takes it and enables the store. (27) Any other is discarded with STOREERR. (28) While it is enabled EN = 1 changes nothing. (29) EN = 0 disables it and keeps the ring's place. (30) APP_TABLE_WRITE takes the base or the count and shows whether the table passes. -/
def Obligations.DictEngine : Prop :=
  (∀ (q : Sess) (s : State), s.dictClocked = true →
      (s.sess q).snap.isSome = true →
      ∃ t, exec (.snapshotBufferExpiry q) s = .next t ∧
        (t.sess q).snap = none ∧
        (t.sess q).trans = (s.sess q).trans ∧
        t.mem = s.mem ∧
        t.regs = s.regs) ∧
  (∀ (q : Sess) (s : State), s.dictClocked = true →
      (s.sess q).trans.isSome = true →
      ∃ t, exec (.transactionExpiry q) s = .next t ∧
        (t.sess q).trans = none ∧
        (t.sess q).expired = true ∧
        (t.sess q).snap = (s.sess q).snap ∧
        t.mem = s.mem ∧
        t.regs = s.regs) ∧
  (∀ (c : Instr) (q : Sess) (s : State), s.dictClocked = false ∨ ((s.sess q).snap = none ∧ (s.sess q).trans = none) →
      c ∈ [.snapshotBufferExpiry q, .transactionExpiry q] →
      ∃ t, exec (c) s = .next t ∧
        t = s) ∧
  (∀ (rid : BitVec 8) (l : List DItem) (s : State), HostRuns rid l .hold s →
      ∃ t, exec (.holdmaxExpiry) s = .next t ∧
        Refused 9 s t ∧
        t.mem = s.mem) ∧
  (∀ (rid : BitVec 8) (l : List DItem) (left : List Nat) (s : State), HostRuns rid l (.check left) s →
      ∃ t, exec (.checkTimeout) s = .next t ∧
        Refused 9 s t ∧
        t.mem = s.mem) ∧
  (∀ (c : Instr) (s : State), s.dict.run = none ∨ s.dictClocked = false →
      c ∈ [.holdmaxExpiry, .checkTimeout] →
      ∃ t, exec (c) s = .next t ∧
        t = s) ∧
  (∀ (d : Word) (rid : BitVec 8) (l : List DItem) (left : List Nat) (s : State), HostRuns rid l (.check left) s →
      Core Reg.DICT_CBRES s →
      s.on DICT_CB.VALID = true →
      d.getLsbD 31 = true ∧ d.getLsbD 8 = true →
      ∃ t, exec (.checkVerdict d) s = .next t ∧
        Refused 17 s t ∧
        t.spis.kept.map (fun r => oct r.payload 11) = some (d.setWidth 8) ∧
        t.on DICT_CB.VALID = false ∧
        t.mem = s.mem) ∧
  (∀ (d : Word) (rid : BitVec 8) (v : List Byte) (k : Nat) (s : State), HostRuns rid [⟨0x5000, 1, v⟩] (.check [k]) s →
      Core Reg.DICT_CBRES s →
      s.on DICT_CB.VALID = true →
      d.getLsbD 31 = true ∧ d.getLsbD 8 = false →
      ∃ t, exec (.checkVerdict d) s = .next t ∧
        t.dict.run = some ⟨hostReq 4 rid, .user, [⟨0x5000, 1, v⟩], .ready s.now⟩ ∧
        t.on DICT_CB.VALID = false ∧
        t.get DICT_CNT.REFUSED = s.get DICT_CNT.REFUSED ∧
        t.mem = s.mem) ∧
  (∀ (d : Word) (rid : BitVec 8) (l : List DItem) (k k2 : Nat) (left : List Nat) (s : State), HostRuns rid l (.check (k :: k2 :: left)) s →
      s.appTyp k2 = none ∧ k2 < 1024 →
      Core Reg.DICT_CBRES s →
      s.on DICT_CB.VALID = true →
      d.getLsbD 31 = true ∧ d.getLsbD 8 = false →
      ∃ t, exec (.checkVerdict d) s = .next t ∧
        t.dict.run = some ⟨hostReq 4 rid, .user, l, .check (k2 :: left)⟩ ∧
        t.on DICT_CB.VALID = true ∧
        t.get DICT_CB.DESC = k2 ∧
        t.on DICT_IRQ.APPCHK = true ∧
        t.mem = s.mem ∧
        RegsBut [Reg.DICT_CB, Reg.DICT_IRQ] s t) ∧
  (∀ (d : Word) (s : State), Core Reg.DICT_CBRES s →
      DictIdle s ∧ s.on DICT_CTRL.EN = true →
      d.getLsbD 31 = false ∨ s.on DICT_CB.VALID = false →
      ∃ t, exec (.checkVerdict d) s = .next t ∧
        t = s) ∧
  (∀ (n slot level src ctr : Nat) (enc : List Byte) (s : State), MqHead n 0 s →
      s.dictSlot (s.slot slot).keyId = some slot ∧ (s.slot slot).keyId < 256 →
      5 ≤ level ∧ level ≤ 7 ∧ ctr < 2 ^ 32 ∧ src < 2 ^ 64 ∧ enc.length ≤ 2048 →
      Envelope (s.slot slot) level src ctr enc (s.bytes (s.mqF n 8 4) (s.mqF n 4 2)) →
      (s.meshLast (s.slot slot).kcv).all (fun k => decide (k < ctr)) = true →
      s.noStore = false ∧ s.dict.store.busy = true ∧ s.dict.store.used + 1 ≤ 128 ∧ (s.slot slot).kcv.length = 8 →
      ∃ t, exec (.meshEnvelope) s = .next t ∧
        t.dict.meshWait = some ⟨n, slot, level, ctr, ccmCrypt (s.slot slot).key (macNonce src ctr level) enc⟩ ∧
        t.dict.serving = some n ∧
        t.dict.store.used = s.dict.store.used + 1 ∧
        t.mem = s.mem ∧
        t.regs = s.regs) ∧
  (∀ (n slot level src ctr : Nat) (enc : List Byte) (k : Nat) (s : State), MqHead n 0 s →
      s.dictSlot (s.slot slot).keyId = some slot ∧ (s.slot slot).keyId < 256 →
      5 ≤ level ∧ level ≤ 7 ∧ ctr < 2 ^ 32 ∧ src < 2 ^ 64 ∧ enc.length ≤ 2048 →
      Envelope (s.slot slot) level src ctr enc (s.bytes (s.mqF n 8 4) (s.mqF n 4 2)) →
      (s.meshLast (s.slot slot).kcv) = some k ∧ ctr < k →
      ∃ t, exec (.meshEnvelope) s = .next t ∧
        t.rb (s.mqDesc n) = 2 ∧
        t.rb (s.mqDesc n + 2) = 2 ∧
        t.rn (s.mqDesc n + 6) 2 = 0 ∧
        t.get DICT_MQPTR.TAIL = (s.get DICT_MQPTR.TAIL + 1) % 8 ∧
        t.get DICT_CNT.DROPPED = min (s.get DICT_CNT.DROPPED + 1) (2 ^ DICT_CNT.DROPPED.w - 1) ∧
        t.on DICT_IRQ.REPLAY = true ∧ t.on DICT_IRQ.MQ = true ∧
        t.dict.serving = none ∧
        RegsBut [Reg.DICT_MQPTR, Reg.DICT_CNT, Reg.DICT_IRQ] s t ∧
        Outside (s.mqDesc n) 8 s t) ∧
  (∀ (n slot level src ctr : Nat) (enc : List Byte) (e : List Byte) (s : State), MqHead n 0 s →
      s.dictSlot (s.slot slot).keyId = some slot ∧ (s.slot slot).keyId < 256 →
      5 ≤ level ∧ level ≤ 7 ∧ ctr < 2 ^ 32 ∧ src < 2 ^ 64 ∧ enc.length ≤ 2048 →
      Envelope (s.slot slot) level src ctr enc (s.bytes (s.mqF n 8 4) (s.mqF n 4 2)) →
      (s.meshLast (s.slot slot).kcv) = some ctr →
      (s.sess (.mesh slot)).keptEnv = e ∧ e ≠ [] ∧ e.length ≤ s.mqF n 6 2 →
      ∃ t, exec (.meshEnvelope) s = .next t ∧
        t.bytes (s.mqF n 0x0C 4) e.length = e ∧
        t.rb (s.mqDesc n) = 2 ∧ t.rb (s.mqDesc n + 2) = 1 ∧ t.rn (s.mqDesc n + 6) 2 = e.length % 65536 ∧
        t.get DICT_MQPTR.TAIL = (s.get DICT_MQPTR.TAIL + 1) % 8 ∧
        t.on DICT_IRQ.MQ = true ∧
        RegsBut [Reg.DICT_MQPTR, Reg.DICT_IRQ] s t ∧
        (∀ x, (x < s.mqDesc n ∨ s.mqDesc n + 8 ≤ x) → (x < s.mqF n 0x0C 4 ∨ s.mqF n 0x0C 4 + e.length ≤ x) → t.rb x = s.rb x)) ∧
  (∀ (n slot : Nat) (s : State), MqHead n 0 s →
      16 ≤ s.mqF n 4 2 ∧ s.mqF n 4 2 ≤ 2080 →
      s.dictSlot (s.rb (s.mqF n 8 4 + 2)).toNat = some slot →
      s.rb (s.mqF n 8 4) ≠ 0x4C ∨ s.rb (s.mqF n 8 4 + 1) ≠ 0 ∨ s.rb (s.mqF n 8 4 + 3) < 5 ∨ 7 < s.rb (s.mqF n 8 4 + 3) →
      ∃ t, exec (.meshEnvelope) s = .next t ∧
        t.rb (s.mqDesc n) = 2 ∧
        t.rb (s.mqDesc n + 2) = 2 ∧
        t.rn (s.mqDesc n + 6) 2 = 0 ∧
        t.get DICT_MQPTR.TAIL = (s.get DICT_MQPTR.TAIL + 1) % 8 ∧
        t.get DICT_CNT.DROPPED = min (s.get DICT_CNT.DROPPED + 1) (2 ^ DICT_CNT.DROPPED.w - 1) ∧
        t.on DICT_IRQ.REPLAY = true ∧ t.on DICT_IRQ.MQ = true ∧
        t.dict.serving = none ∧
        RegsBut [Reg.DICT_MQPTR, Reg.DICT_CNT, Reg.DICT_IRQ] s t ∧
        Outside (s.mqDesc n) 8 s t) ∧
  (∀ (n slot level : Nat) (s : State), MqHead n 0 s →
      16 ≤ s.mqF n 4 2 ∧ s.mqF n 4 2 ≤ 2080 →
      s.dictSlot (s.rb (s.mqF n 8 4 + 2)).toNat = some slot →
      (s.rb (s.mqF n 8 4 + 3)).toNat = level →
      (s.bytes (s.mqF n 8 4) (s.mqF n 4 2)).length < 16 + micOctets level ∨ ccmMic (s.slot slot).key (macNonce (leNat (((s.bytes (s.mqF n 8 4) (s.mqF n 4 2)).drop 4).take 8)) (leNat (((s.bytes (s.mqF n 8 4) (s.mqF n 4 2)).drop 12).take 4)) level) ((s.bytes (s.mqF n 8 4) (s.mqF n 4 2)).take 16) (ccmCrypt (s.slot slot).key (macNonce (leNat (((s.bytes (s.mqF n 8 4) (s.mqF n 4 2)).drop 4).take 8)) (leNat (((s.bytes (s.mqF n 8 4) (s.mqF n 4 2)).drop 12).take 4)) level) (((s.bytes (s.mqF n 8 4) (s.mqF n 4 2)).drop 16).take ((s.bytes (s.mqF n 8 4) (s.mqF n 4 2)).length - 16 - micOctets level))) (micOctets level) ≠ (s.bytes (s.mqF n 8 4) (s.mqF n 4 2)).drop ((s.bytes (s.mqF n 8 4) (s.mqF n 4 2)).length - micOctets level) →
      ∃ t, exec (.meshEnvelope) s = .next t ∧
        t.rb (s.mqDesc n) = 2 ∧
        t.rb (s.mqDesc n + 2) = 2 ∧
        t.rn (s.mqDesc n + 6) 2 = 0 ∧
        t.get DICT_MQPTR.TAIL = (s.get DICT_MQPTR.TAIL + 1) % 8 ∧
        t.get DICT_CNT.DROPPED = min (s.get DICT_CNT.DROPPED + 1) (2 ^ DICT_CNT.DROPPED.w - 1) ∧
        t.on DICT_IRQ.REPLAY = true ∧ t.on DICT_IRQ.MQ = true ∧
        t.dict.serving = none ∧
        RegsBut [Reg.DICT_MQPTR, Reg.DICT_CNT, Reg.DICT_IRQ] s t ∧
        Outside (s.mqDesc n) 8 s t) ∧
  (∀ (n : Nat) (s : State), MqHead n 0 s →
      16 ≤ s.mqF n 4 2 ∧ s.mqF n 4 2 ≤ 2080 →
      s.dictSlot (s.rb (s.mqF n 8 4 + 2)).toNat = none →
      ∃ t, exec (.meshEnvelope) s = .next t ∧
        t.rb (s.mqDesc n) = 2 ∧
        t.rb (s.mqDesc n + 2) = 2 ∧
        t.rn (s.mqDesc n + 6) 2 = 0 ∧
        t.get DICT_MQPTR.TAIL = (s.get DICT_MQPTR.TAIL + 1) % 8 ∧
        t.get DICT_CNT.DROPPED = min (s.get DICT_CNT.DROPPED + 1) (2 ^ DICT_CNT.DROPPED.w - 1) ∧
        t.on DICT_IRQ.REPLAY = true ∧ t.on DICT_IRQ.MQ = true ∧
        t.dict.serving = none ∧
        RegsBut [Reg.DICT_MQPTR, Reg.DICT_CNT, Reg.DICT_IRQ] s t ∧
        Outside (s.mqDesc n) 8 s t) ∧
  (∀ (c : Instr) (n : Nat) (s : State), s.mqNext = some n →
      1 < s.mqF n 1 1 →
      c ∈ [.meshEnvelope, .localRequest] →
      ∃ t, exec (c) s = .next t ∧
        t.rb (s.mqDesc n) = 2 ∧ t.rb (s.mqDesc n + 2) = 3 ∧
        t.get DICT_MQPTR.TAIL = (s.get DICT_MQPTR.TAIL + 1) % 8 ∧
        t.on DICT_IRQ.MQ = true ∧
        RegsBut [Reg.DICT_MQPTR, Reg.DICT_IRQ] s t ∧
        Outside (s.mqDesc n) 8 s t) ∧
  (∀ (c : Instr) (n k : Nat) (s : State), s.mqNext = some n ∧ s.mqF n 1 1 = k →
      s.mqF n 4 2 = 0 ∨ 2080 < s.mqF n 4 2 →
      (c, k) ∈ ([(.meshEnvelope, 0), (.localRequest, 1)] : List (Instr × Nat)) →
      ∃ t, exec (c) s = .next t ∧
        t.rb (s.mqDesc n) = 2 ∧ t.rb (s.mqDesc n + 2) = 3 ∧
        t.get DICT_MQPTR.TAIL = (s.get DICT_MQPTR.TAIL + 1) % 8 ∧
        t.on DICT_IRQ.MQ = true ∧
        RegsBut [Reg.DICT_MQPTR, Reg.DICT_IRQ] s t ∧
        Outside (s.mqDesc n) 8 s t) ∧
  (∀ (c : Instr) (k : Nat) (s : State), s.mqNext = none ∨ s.mqNext.any (fun n => s.mqF n 1 1 == 1 - k) = true →
      (c, k) ∈ ([(.meshEnvelope, 0), (.localRequest, 1)] : List (Instr × Nat)) →
      ∃ t, exec (c) s = .next t ∧
        t = s) ∧
  (∀ (n : Nat) (rid : BitVec 8) (s : State), MqHead n 1 s →
      s.mqF n 4 2 = 4 ∧ s.bytes (s.mqF n 8 4) 4 = [3, rid, 0, 0] →
      12 ≤ s.mqF n 6 2 →
      DictFresh ⟨.desc n, .loc, 3, rid.toNat⟩ s →
      (s.sess .loc).trans = none →
      s.bufferFree = true →
      ∃ t, exec (.localRequest) s = .next t ∧
        (t.sess .loc).trans = some [] ∧
        t.bytes (s.mqF n 0x0C 4) 12 = respBytes ⟨.desc n, .loc, 3, rid.toNat⟩ {} s ∧
        t.rb (s.mqDesc n) = 2 ∧ t.rb (s.mqDesc n + 2) = 1 ∧
        t.rn (s.mqDesc n + 6) 2 = 12 ∧
        t.get DICT_MQPTR.TAIL = (s.get DICT_MQPTR.TAIL + 1) % 8 ∧
        t.on DICT_IRQ.MQ = true ∧
        RegsBut [Reg.DICT_MQPTR, Reg.DICT_IRQ] s t ∧
        (∀ x, (x < s.mqDesc n ∨ s.mqDesc n + 8 ≤ x) → (x < s.mqF n 0x0C 4 ∨ s.mqF n 0x0C 4 + 12 ≤ x) → t.rb x = s.rb x)) ∧
  (∀ (n : Nat) (rid : BitVec 8) (s : State), MqHead n 1 s →
      s.mqF n 4 2 = 4 ∧ s.bytes (s.mqF n 8 4) 4 = [3, rid, 0, 0] →
      s.mqF n 6 2 < 12 →
      DictFresh ⟨.desc n, .loc, 3, rid.toNat⟩ s →
      (s.sess .loc).trans = none →
      s.bufferFree = true →
      ∃ t, exec (.localRequest) s = .next t ∧
        (t.sess .loc).trans = some [] ∧
        t.rb (s.mqDesc n) = 2 ∧ t.rb (s.mqDesc n + 2) = 4 ∧
        t.get DICT_MQPTR.TAIL = (s.get DICT_MQPTR.TAIL + 1) % 8 ∧
        t.on DICT_IRQ.MQ = true ∧
        RegsBut [Reg.DICT_MQPTR, Reg.DICT_IRQ] s t ∧
        Outside (s.mqDesc n) 8 s t) ∧
  (∀ (d : Word) (s : State), Core Reg.DICT_CTRL s →
      s.dictClocked = true →
      s.on DICT_CTRL.EN = false ∧ DICT_CTRL.EN.of d = 1 →
      DictIdle s →
      NoStore s →
      ∃ t, exec (.dictRestore d) s = .next t ∧
        t.on DICT_CTRL.EN = true ∧
        t.on DICT_STAT.READY = true ∧
        t.dict.run = none ∧
        t.mem = s.mem ∧
        RegsBut [Reg.DICT_CTRL, Reg.DICT_STAT] s t) ∧
  (∀ (d : Word) (s : State), Core Reg.DICT_CTRL s →
      s.dictClocked = true →
      s.on DICT_CTRL.EN = false ∧ DICT_CTRL.EN.of d = 1 →
      DictIdle s →
      s.on DICT_STORE.EN = true →
      (storeScan s).dict.store.recs = [] →
      ∃ t, exec (.dictRestore d) s = .next t ∧
        t.on DICT_CTRL.EN = true ∧
        t.dict.run = some ⟨⟨.nobody, .relay, 4, 0⟩, .restore, [], .ready s.now⟩ ∧
        t.on DICT_STAT.READY = s.on DICT_STAT.READY ∧
        t.mem = s.mem) ∧
  (∀ (d : Word) (s : State), Core Reg.DICT_CTRL s →
      DICT_CTRL.EN.of d = 0 →
      s.dict.reads = [] ∧ s.dict.queue = [] →
      ∃ t, exec (.dictRestore d) s = .next t ∧
        t.on DICT_CTRL.EN = false ∧
        t.on DICT_STAT.READY = false ∧
        t.dict = { s.dict with restoreDue := false } ∧
        t.mem = s.mem ∧
        RegsBut [Reg.DICT_CTRL, Reg.DICT_STAT] s t) ∧
  (∀ (d : Word) (rid : BitVec 8) (items : List (Nat × Nat)) (s : State), Core Reg.DICT_CTRL s →
      s.dictClocked = true →
      DICT_CTRL.EN.of d = 0 →
      s.spis.pend = true →
      s.dict.reads = [⟨hostReq 1 rid, items⟩] ∧ s.dict.queue = [] →
      ∃ t, exec (.dictRestore d) s = .next t ∧
        t.on DICT_CTRL.EN = false ∧
        t.dict.reads = [] ∧
        t.spis.pend = false ∧
        t.spis.kept.map (fun r => oct r.payload 2) = some 9 ∧
        t.mem = s.mem ∧
        RegsBut [Reg.DICT_CTRL, Reg.DICT_STAT, Reg.SPIS_ATTN] s t) ∧
  (∀ (d : Word) (s : State), Core Reg.DICT_STORE s →
      (s.dictClocked = true → DictRest s ∧ s.dict.store.ops = [] ∧ s.dict.meshWait = none) →
      s.on DICT_STORE.EN = false →
      DICT_STORE.EN.of d = 1 ∧ 2 ≤ DICT_STORE.NBLK.of d ∧ DICT_STORE.NBLK.of d ≤ 32 ∧ 388 ≤ DICT_STORE.FIRST.of d ∧ DICT_STORE.FIRST.of d + DICT_STORE.NBLK.of d - 1 ≤ 495 →
      ∃ t, exec (.storeCfgWrite d) s = .next t ∧
        t.on DICT_STORE.EN = true ∧
        t.get DICT_STORE.FIRST = DICT_STORE.FIRST.of d ∧
        t.get DICT_STORE.NBLK = DICT_STORE.NBLK.of d ∧
        t.get DICT_STORE.BANK = DICT_STORE.BANK.of d ∧
        { t.dict with store := s.dict.store } = s.dict ∧
        t.mem = s.mem ∧
        RegsBut [Reg.DICT_STORE] s t) ∧
  (∀ (d : Word) (s : State), Core Reg.DICT_STORE s →
      (s.dictClocked = true → DictRest s ∧ s.dict.store.ops = [] ∧ s.dict.meshWait = none) →
      s.on DICT_STORE.EN = false →
      DICT_STORE.EN.of d = 1 →
      DICT_STORE.NBLK.of d < 2 ∨ 32 < DICT_STORE.NBLK.of d ∨ DICT_STORE.FIRST.of d < 388 ∨ 495 < DICT_STORE.FIRST.of d + DICT_STORE.NBLK.of d - 1 →
      ∃ t, exec (.storeCfgWrite d) s = .next t ∧
        t = s.put DICT_IRQ.STOREERR 1) ∧
  (∀ (d : Word) (s : State), Core Reg.DICT_STORE s →
      (s.dictClocked = true → DictRest s ∧ s.dict.store.ops = [] ∧ s.dict.meshWait = none) →
      s.on DICT_STORE.EN = true →
      DICT_STORE.EN.of d = 1 →
      ∃ t, exec (.storeCfgWrite d) s = .next t ∧
        t = s) ∧
  (∀ (d : Word) (s : State), Core Reg.DICT_STORE s →
      (s.dictClocked = true → DictRest s ∧ s.dict.store.ops = [] ∧ s.dict.meshWait = none) →
      s.on DICT_STORE.EN = true →
      DICT_STORE.EN.of d = 0 →
      ∃ t, exec (.storeCfgWrite d) s = .next t ∧
        t.on DICT_STORE.EN = false ∧
        t.get DICT_STORE.FIRST = s.get DICT_STORE.FIRST ∧ t.get DICT_STORE.NBLK = s.get DICT_STORE.NBLK ∧
        t.dict.store.recs = [] ∧
        t.mem = s.mem ∧
        RegsBut [Reg.DICT_STORE] s t) ∧
  (∀ (n : Bool) (d : Word) (s : State), Core (if n then Reg.DICT_APPN else Reg.DICT_APPBASE) s →
      ∃ t, exec (.appTableWrite n d) s = .next t ∧
        t.on DICT_STAT.APPBAD = (t.on DICT_APPBASE.EN && !t.appOk) ∧
        (n = false → t.get DICT_APPBASE.ADDR = DICT_APPBASE.ADDR.of d ∧ t.get DICT_APPBASE.EN = DICT_APPBASE.EN.of d ∧ t.reg Reg.DICT_APPN = s.reg Reg.DICT_APPN) ∧
        (n = true → t.get DICT_APPN.N = DICT_APPN.N.of d ∧ t.reg Reg.DICT_APPBASE = s.reg Reg.DICT_APPBASE) ∧
        t.dict = s.dict ∧
        t.mem = s.mem ∧
        RegsBut [Reg.DICT_APPBASE, Reg.DICT_APPN, Reg.DICT_STAT] s t)

/-- Frames of the Twill link. The fourteen frames of the link at a part in pair mode, and a request that a standby relays. Unless a clause says otherwise the link is up, the frame is whole, no end record of a synchronisation waits to be acknowledged, and a sequenced frame has the next SEQ; the frames its ACK covers leave the list of unacknowledged ones. Memory, every register not named and, where it says so, the rest of the link's state stay. (1) HELLO while the link is down notes version, whether it is compatible, role, address, state and key check values and is answered with the part's own. (2) While it is up it changes nothing. (3) Any other frame that fails its CRC is only counted. (4) So is a HELLO. (5) While the link is down any other whole frame changes nothing. (6) Out of pair mode, with RING off or without a clock no frame changes anything. (7) A sequenced frame with another SEQ is not applied; its ACK is taken. (8) A mirror frame at a part that is no standby only moves the SEQ. (9) An ACK of the end record sets INSYNC in the active part (log 26). (10) HANDOVER notes the tick of the change. (11) TICK of the active part at a standby with a measured delay shows the difference of the times in ns; with TFOLLOW clear nothing else. (12) With TFOLLOW and no valid time the time is set, as TIME_SET does. (13) With a difference within JUMPMAX it is slewed, (14) with a larger one stepped, with FORCE as TFORCE says. (15) Else only the partner's state is noted. (16) DREQ is answered with the count now and of the answer; frames that waited take the places of acknowledged ones. (17) DRSP shows half the mean of the last 8 round trips in units of 62.5 ps, within 16 bits, DVALID after 4. (18) With no exchange open it does nothing. (19) TBL at a standby writes its entry, whose generation moves on; every other byte of memory stays. (20) Of an index from 8192 on it only moves the SEQ. (21) CTR writes the last counter of its entry. (22) At or after the tick a HANDOVER named it makes the standby ACTIVE, with nothing held; this is no takeover. (23) RES, the ledger off, is held as the newest block of a slot with its key and acknowledged at once by RESACK. (24) RESACK at the active part marks the reservation at that START of a slot with that key acknowledged and changes nothing else of the slot. (25) Of another key, or at another part, it only moves the SEQ. (26) DICT of a name, the engine ready and idle and no store in use, begins a transaction for the next boundary; the value stays till then. (27) Items that fail, or an engine not ready, set MIRREJ and clear INSYNC. (28) TXB at a standby notes the interval, the newest of 16. (29) At another part it does nothing. (30) FWD at the active part is counted; with RADIO off the MAC stays. (31) With RADIO on a frame of no octets is counted bad by the MAC. (32) At another part it does nothing. (33) SYNC's end record sets INSYNC unless KEYMIS is set. (34) A table item writes its entry as TBL does and clears INSYNC. (35) A reservation is held as RES does. (36) Dictionary items begin a transaction as DICT does. (37) RELAY of a READ at the active part waits there for the tick boundary. (38) DICT_READ of the host at a standby whose link is up, an item outside the pair range, goes out as RELAY. (39) RELAY at the standby brings the oldest relayed request's response to its session unchanged. -/
def Obligations.TwillFrames : Prop :=
  (∀ (ver state role : BitVec 8) (addr : DWord) (kcv : Vector (BitVec 16) 32) (s : State), TwClocked s →
      s.on TWIL_STAT.LINK = false →
      ∃ t, exec (.twillHello false ver state role addr kcv) s = .next t ∧
        t.get TWIL_STAT.PVER = ver.toNat ∧
        t.on TWIL_STAT.INCOMPAT = !(versOk (s.get TWIL_CFG.VER) ver.toNat) ∧
        t.twil = { s.twil with helloOk := versOk (s.get TWIL_CFG.VER) ver.toNat, partnerRole := role.getLsbD 0, partnerAddr := addr.toNat, partnerState := state.toNat % 4, partnerKcv := kcv.toList.map (·.toNat), lastUnseq := t.twil.lastUnseq } ∧
        t.twil.lastUnseq = some (1, s.hello) ∧
        t.pairState = s.pairState ∧
        t.mem = s.mem ∧
        RegsBut [Reg.TWIL_STAT] s t) ∧
  (∀ (ver state role : BitVec 8) (addr : DWord) (kcv : Vector (BitVec 16) 32) (s : State), TwClocked s →
      s.on TWIL_STAT.LINK = true →
      ∃ t, exec (.twillHello false ver state role addr kcv) s = .next t ∧
        t = s) ∧
  (∀ (c : Instr) (h : TwHdr) (tick : Word) (start : Word) (gen : Word) (st : BitVec 8) (qual : BitVec 8) (origin : DWord) (t2 : DWord) (t3 : DWord) (kcv : DWord) (first : DWord) (last : DWord) (nt : DWord) (turn : BitVec 16) (i : BitVec 16) (n : Fin 32) (e : Vector (BitVec 8) 32) (d : Vector (BitVec 8) 32) (ps : List (BitVec 16 × Word)) (kind : BitVec 8) (b : List (BitVec 8)) (s : State), TwClocked s →
      h.bad = true →
      c ∈ [.twillTick h tick st qual origin, .twillDreq h turn, .twillDrsp h t2 t3, .twillTxb h first last, .twillFwd h nt d b, .twillTbl h i e, .twillCtr h ps, .twillRes h n kcv start, .twillDict h gen b, .twillSync h kind b, .twillHandover h tick, .twillResack h n kcv start, .twillRelay h b] →
      ∃ t, exec (c) s = .next t ∧
        t = s.sat TWIL_CNT0.ERR) ∧
  (∀ (ver state role : BitVec 8) (addr : DWord) (kcv : Vector (BitVec 16) 32) (s : State), TwClocked s →
      ∃ t, exec (.twillHello true ver state role addr kcv) s = .next t ∧
        t = s.sat TWIL_CNT0.ERR) ∧
  (∀ (c : Instr) (h : TwHdr) (tick : Word) (start : Word) (gen : Word) (st : BitVec 8) (qual : BitVec 8) (origin : DWord) (t2 : DWord) (t3 : DWord) (kcv : DWord) (first : DWord) (last : DWord) (nt : DWord) (turn : BitVec 16) (i : BitVec 16) (n : Fin 32) (e : Vector (BitVec 8) 32) (d : Vector (BitVec 8) 32) (ps : List (BitVec 16 × Word)) (kind : BitVec 8) (b : List (BitVec 8)) (s : State), s.on TWIL_STAT.LINK = false →
      h.bad = false →
      c ∈ [.twillTick h tick st qual origin, .twillDreq h turn, .twillDrsp h t2 t3, .twillTxb h first last, .twillFwd h nt d b, .twillTbl h i e, .twillCtr h ps, .twillRes h n kcv start, .twillDict h gen b, .twillSync h kind b, .twillHandover h tick, .twillResack h n kcv start, .twillRelay h b] →
      ∃ t, exec (c) s = .next t ∧
        t = s) ∧
  (∀ (c : Instr) (h : TwHdr) (tick : Word) (start : Word) (gen : Word) (st : BitVec 8) (qual : BitVec 8) (origin : DWord) (t2 : DWord) (t3 : DWord) (kcv : DWord) (first : DWord) (last : DWord) (nt : DWord) (turn : BitVec 16) (i : BitVec 16) (n : Fin 32) (e : Vector (BitVec 8) 32) (d : Vector (BitVec 8) 32) (ps : List (BitVec 16 × Word)) (kind : BitVec 8) (b : List (BitVec 8)) (ver : BitVec 8) (state : BitVec 8) (role : BitVec 8) (addr : DWord) (kv : Vector (BitVec 16) 32) (s : State), s.ringOn = false ∨ s.clocked = false ∨ s.pairState = pairOff →
      c ∈ [.twillHello false ver state role addr kv, .twillTick h tick st qual origin, .twillDreq h turn, .twillDrsp h t2 t3, .twillTxb h first last, .twillFwd h nt d b, .twillTbl h i e, .twillCtr h ps, .twillRes h n kcv start, .twillDict h gen b, .twillSync h kind b, .twillHandover h tick, .twillResack h n kcv start, .twillRelay h b] →
      ∃ t, exec (c) s = .next t ∧
        t = s) ∧
  (∀ (c : Instr) (h : TwHdr) (tick : Word) (start : Word) (gen : Word) (kcv : DWord) (i : BitVec 16) (n : Fin 32) (e : Vector (BitVec 8) 32) (ps : List (BitVec 16 × Word)) (kind : BitVec 8) (b : List (BitVec 8)) (s : State), TwUp s →
      h.bad = false →
      h.seq.toNat ≠ (s.twil.rxSeq + 1) % 65536 →
      c ∈ [.twillTbl h i e, .twillCtr h ps, .twillRes h n kcv start, .twillDict h gen b, .twillSync h kind b, .twillHandover h tick, .twillResack h n kcv start, .twillRelay h b] →
      ∃ t, exec (c) s = .next t ∧
        { t.twil with unacked := s.twil.unacked, waitq := s.twil.waitq } = s.twil ∧
        t.twil.unacked = (s.twil.unacked.filter (fun f => !((fun f : TwFrame => decide ((h.ack.toNat + 65536 - f.seq) % 65536 < 32768)) f))) ++ (s.twil.waitq.take (64 - (s.twil.unacked.filter (fun f => !((fun f : TwFrame => decide ((h.ack.toNat + 65536 - f.seq) % 65536 < 32768)) f))).length)).map (fun f => { f with firstAt := s.now, sentAt := s.now }) ∧
        t.twil.waitq = s.twil.waitq.drop (64 - (s.twil.unacked.filter (fun f => !((fun f : TwFrame => decide ((h.ack.toNat + 65536 - f.seq) % 65536 < 32768)) f))).length) ∧
        t.dict = s.dict ∧ t.time = s.time ∧ t.sec = s.sec ∧ t.mac = s.mac ∧
        t.mem = s.mem ∧
        t.regs = s.regs) ∧
  (∀ (c : Instr) (h : TwHdr) (tick : Word) (start : Word) (gen : Word) (kcv : DWord) (i : BitVec 16) (n : Fin 32) (e : Vector (BitVec 8) 32) (ps : List (BitVec 16 × Word)) (kind : BitVec 8) (b : List (BitVec 8)) (s : State), TwUp s →
      TwNext h s →
      s.standby = false →
      c ∈ [.twillTbl h i e, .twillCtr h ps, .twillRes h n kcv start, .twillDict h gen b, .twillSync h kind b, .twillHandover h tick] →
      ∃ t, exec (c) s = .next t ∧
        { t.twil with unacked := s.twil.unacked, waitq := s.twil.waitq } = { s.twil with rxSeq := h.seq.toNat } ∧
        t.twil.unacked = (s.twil.unacked.filter (fun f => !((fun f : TwFrame => decide ((h.ack.toNat + 65536 - f.seq) % 65536 < 32768)) f))) ++ (s.twil.waitq.take (64 - (s.twil.unacked.filter (fun f => !((fun f : TwFrame => decide ((h.ack.toNat + 65536 - f.seq) % 65536 < 32768)) f))).length)).map (fun f => { f with firstAt := s.now, sentAt := s.now }) ∧
        t.twil.waitq = s.twil.waitq.drop (64 - (s.twil.unacked.filter (fun f => !((fun f : TwFrame => decide ((h.ack.toNat + 65536 - f.seq) % 65536 < 32768)) f))).length) ∧
        t.dict = s.dict ∧ t.time = s.time ∧ t.sec = s.sec ∧ t.mac = s.mac ∧
        t.mem = s.mem ∧
        t.regs = s.regs) ∧
  (∀ (h : TwHdr) (turn : BitVec 16) (e : Nat) (s : State), TwClocked s →
      s.on TWIL_STAT.LINK = true →
      h.bad = false →
      s.twil.endSeq = some e →
      (s.twil.unacked.filter (fun f : TwFrame => decide ((h.ack.toNat + 65536 - f.seq) % 65536 < 32768))).any (fun f => f.seq == e) = true →
      ∃ t, exec (.twillDreq h turn) s = .next t ∧
        t.on TWIL_STAT.INSYNC = true ∧
        t.on TWIL_IRQ.INSYNC = (s.on TWIL_IRQ.INSYNC || !(s.on TWIL_STAT.INSYNC)) ∧
        t.twil.endSeq = none ∧
        t.twil.unacked = (s.twil.unacked.filter (fun f => !((fun f : TwFrame => decide ((h.ack.toNat + 65536 - f.seq) % 65536 < 32768)) f))) ++ (s.twil.waitq.take (64 - (s.twil.unacked.filter (fun f => !((fun f : TwFrame => decide ((h.ack.toNat + 65536 - f.seq) % 65536 < 32768)) f))).length)).map (fun f => { f with firstAt := s.now, sentAt := s.now }) ∧
        t.mem = s.mem ∧
        RegsBut [Reg.TWIL_STAT, Reg.TWIL_IRQ] s t) ∧
  (∀ (h : TwHdr) (tick : Word) (s : State), TwUp s →
      TwNext h s →
      s.standby = true →
      ∃ t, exec (.twillHandover h tick) s = .next t ∧
        { t.twil with unacked := s.twil.unacked, waitq := s.twil.waitq } = { s.twil with rxSeq := h.seq.toNat, handoverIn := some tick.toNat } ∧
        t.dict = s.dict ∧ t.time = s.time ∧ t.sec = s.sec ∧ t.mac = s.mac ∧
        t.mem = s.mem ∧
        t.regs = s.regs) ∧
  (∀ (h : TwHdr) (tick : Word) (st qual : BitVec 8) (origin : DWord) (s : State), TwUp s →
      h.bad = false →
      s.standby = true ∧ st.toNat % 4 = pairActive ∧ s.on TWIL_DELAY.DVALID = true →
      s.on TWIL_CFG.TFOLLOW = false →
      ∃ t, exec (.twillTick h tick st qual origin) s = .next t ∧
        t.getI TWIL_TOFS.TOFS = clampInt (-(2 ^ 31 - 1)) (2 ^ 31 - 1) (roundDiv (1000000000 * (ntDiff s.ntRead (wrapInt 64 ((origin.toNat : Int) + s.twDelay)))) (2 ^ 32)) ∧
        { t.twil with unacked := s.twil.unacked, waitq := s.twil.waitq } = { s.twil with partnerState := 3 } ∧
        t.dict = s.dict ∧ t.time = s.time ∧ t.sec = s.sec ∧ t.mac = s.mac ∧
        t.mem = s.mem ∧
        RegsBut [Reg.TWIL_TOFS] s t) ∧
  (∀ (h : TwHdr) (tick : Word) (st qual : BitVec 8) (origin : DWord) (s : State), TwUp s →
      h.bad = false →
      s.standby = true ∧ st.toNat % 4 = pairActive ∧ s.on TWIL_DELAY.DVALID = true →
      s.on TWIL_CFG.TFOLLOW = true →
      s.time.valid = false →
      ∃ t, exec (.twillTick h tick st qual origin) s = .next t ∧
        t.getI TWIL_TOFS.TOFS = clampInt (-(2 ^ 31 - 1)) (2 ^ 31 - 1) (roundDiv (1000000000 * (ntDiff s.ntRead (wrapInt 64 ((origin.toNat : Int) + s.twDelay)))) (2 ^ 32)) ∧
        t.time = (timeCommand 1 false (wrapInt 64 ((((wrapInt 64 ((origin.toNat : Int) + s.twDelay)) : Nat) : Int))) (((s.putI TWIL_TOFS.TOFS (clampInt (-(2 ^ 31 - 1)) (2 ^ 31 - 1) (roundDiv (1000000000 * (ntDiff s.ntRead (wrapInt 64 ((origin.toNat : Int) + s.twDelay)))) (2 ^ 32)))).setReg Reg.TIME_CORR_LO (BitVec.ofNat 32 (wrapInt 64 ((((wrapInt 64 ((origin.toNat : Int) + s.twDelay)) : Nat) : Int))))).setReg Reg.TIME_CORR_HI (BitVec.ofNat 32 ((wrapInt 64 ((((wrapInt 64 ((origin.toNat : Int) + s.twDelay)) : Nat) : Int))) / 2 ^ 32)))).1.time ∧
        t.twil.partnerState = 3 ∧
        t.mem = s.mem) ∧
  (∀ (h : TwHdr) (tick : Word) (st qual : BitVec 8) (origin : DWord) (s : State), TwUp s →
      h.bad = false →
      s.standby = true ∧ st.toNat % 4 = pairActive ∧ s.on TWIL_DELAY.DVALID = true →
      s.on TWIL_CFG.TFOLLOW = true →
      s.time.valid = true →
      (roundDiv (1000000000 * (ntDiff s.ntRead (wrapInt 64 ((origin.toNat : Int) + s.twDelay)))) (2 ^ 32)).natAbs ≤ s.get TIME_JUMPMAX.MAX →
      ∃ t, exec (.twillTick h tick st qual origin) s = .next t ∧
        t.getI TWIL_TOFS.TOFS = clampInt (-(2 ^ 31 - 1)) (2 ^ 31 - 1) (roundDiv (1000000000 * (ntDiff s.ntRead (wrapInt 64 ((origin.toNat : Int) + s.twDelay)))) (2 ^ 32)) ∧
        t.time = (timeCommand 3 false (wrapInt 64 (-(ntDiff s.ntRead (wrapInt 64 ((origin.toNat : Int) + s.twDelay))) - s.slewLeft.tdiv ntQ)) (((s.putI TWIL_TOFS.TOFS (clampInt (-(2 ^ 31 - 1)) (2 ^ 31 - 1) (roundDiv (1000000000 * (ntDiff s.ntRead (wrapInt 64 ((origin.toNat : Int) + s.twDelay)))) (2 ^ 32)))).setReg Reg.TIME_CORR_LO (BitVec.ofNat 32 (wrapInt 64 (-(ntDiff s.ntRead (wrapInt 64 ((origin.toNat : Int) + s.twDelay))) - s.slewLeft.tdiv ntQ)))).setReg Reg.TIME_CORR_HI (BitVec.ofNat 32 ((wrapInt 64 (-(ntDiff s.ntRead (wrapInt 64 ((origin.toNat : Int) + s.twDelay))) - s.slewLeft.tdiv ntQ)) / 2 ^ 32)))).1.time ∧
        t.twil.partnerState = 3 ∧
        t.mem = s.mem) ∧
  (∀ (h : TwHdr) (tick : Word) (st qual : BitVec 8) (origin : DWord) (s : State), TwUp s →
      h.bad = false →
      s.standby = true ∧ st.toNat % 4 = pairActive ∧ s.on TWIL_DELAY.DVALID = true →
      s.on TWIL_CFG.TFOLLOW = true →
      s.time.valid = true →
      s.get TIME_JUMPMAX.MAX < (roundDiv (1000000000 * (ntDiff s.ntRead (wrapInt 64 ((origin.toNat : Int) + s.twDelay)))) (2 ^ 32)).natAbs →
      ∃ t, exec (.twillTick h tick st qual origin) s = .next t ∧
        t.getI TWIL_TOFS.TOFS = clampInt (-(2 ^ 31 - 1)) (2 ^ 31 - 1) (roundDiv (1000000000 * (ntDiff s.ntRead (wrapInt 64 ((origin.toNat : Int) + s.twDelay)))) (2 ^ 32)) ∧
        t.time = (timeCommand 2 (s.on TWIL_CFG.TFORCE) (wrapInt 64 (-(ntDiff s.ntRead (wrapInt 64 ((origin.toNat : Int) + s.twDelay))))) (((s.putI TWIL_TOFS.TOFS (clampInt (-(2 ^ 31 - 1)) (2 ^ 31 - 1) (roundDiv (1000000000 * (ntDiff s.ntRead (wrapInt 64 ((origin.toNat : Int) + s.twDelay)))) (2 ^ 32)))).setReg Reg.TIME_CORR_LO (BitVec.ofNat 32 (wrapInt 64 (-(ntDiff s.ntRead (wrapInt 64 ((origin.toNat : Int) + s.twDelay))))))).setReg Reg.TIME_CORR_HI (BitVec.ofNat 32 ((wrapInt 64 (-(ntDiff s.ntRead (wrapInt 64 ((origin.toNat : Int) + s.twDelay))))) / 2 ^ 32)))).1.time ∧
        t.twil.partnerState = 3 ∧
        t.mem = s.mem) ∧
  (∀ (h : TwHdr) (tick : Word) (st qual : BitVec 8) (origin : DWord) (s : State), TwUp s →
      h.bad = false →
      s.standby = false ∨ st.toNat % 4 ≠ pairActive ∨ s.on TWIL_DELAY.DVALID = false →
      ∃ t, exec (.twillTick h tick st qual origin) s = .next t ∧
        { t.twil with unacked := s.twil.unacked, waitq := s.twil.waitq } = { s.twil with partnerState := st.toNat % 4 } ∧
        t.twil.unacked = (s.twil.unacked.filter (fun f => !((fun f : TwFrame => decide ((h.ack.toNat + 65536 - f.seq) % 65536 < 32768)) f))) ++ (s.twil.waitq.take (64 - (s.twil.unacked.filter (fun f => !((fun f : TwFrame => decide ((h.ack.toNat + 65536 - f.seq) % 65536 < 32768)) f))).length)).map (fun f => { f with firstAt := s.now, sentAt := s.now }) ∧
        t.twil.waitq = s.twil.waitq.drop (64 - (s.twil.unacked.filter (fun f => !((fun f : TwFrame => decide ((h.ack.toNat + 65536 - f.seq) % 65536 < 32768)) f))).length) ∧
        t.dict = s.dict ∧ t.time = s.time ∧ t.sec = s.sec ∧ t.mac = s.mac ∧
        t.mem = s.mem ∧
        t.regs = s.regs) ∧
  (∀ (h : TwHdr) (turn : BitVec 16) (s : State), TwUp s →
      h.bad = false →
      ∃ t, exec (.twillDreq h turn) s = .next t ∧
        { t.twil with unacked := s.twil.unacked, waitq := s.twil.waitq } = { s.twil with lastUnseq := some (3, leBytes 8 s.now ++ leBytes 8 (s.now + turn.toNat)) } ∧
        t.twil.unacked = (s.twil.unacked.filter (fun f => !((fun f : TwFrame => decide ((h.ack.toNat + 65536 - f.seq) % 65536 < 32768)) f))) ++ (s.twil.waitq.take (64 - (s.twil.unacked.filter (fun f => !((fun f : TwFrame => decide ((h.ack.toNat + 65536 - f.seq) % 65536 < 32768)) f))).length)).map (fun f => { f with firstAt := s.now, sentAt := s.now }) ∧
        t.twil.waitq = s.twil.waitq.drop (64 - (s.twil.unacked.filter (fun f => !((fun f : TwFrame => decide ((h.ack.toNat + 65536 - f.seq) % 65536 < 32768)) f))).length) ∧
        t.dict = s.dict ∧ t.time = s.time ∧ t.sec = s.sec ∧ t.mac = s.mac ∧
        t.mem = s.mem ∧
        t.regs = s.regs) ∧
  (∀ (h : TwHdr) (t1 : Nat) (t2 t3 : DWord) (s : State), TwUp s →
      h.bad = false →
      s.twil.dreqAt = some t1 →
      ∃ t, exec (.twillDrsp h t2 t3) s = .next t ∧
        t.get TWIL_DELAY.DELAY = (clampInt 0 65535 (roundDiv (32 * ((((s.now : Int) - t1 - signedOf 64 (wrapInt 64 ((t3.toNat : Int) - t2.toNat))) :: s.twil.delays).take 8).foldl (· + ·) 0) ((((s.now : Int) - t1 - signedOf 64 (wrapInt 64 ((t3.toNat : Int) - t2.toNat))) :: s.twil.delays).take 8).length)).toNat ∧
        t.on TWIL_DELAY.DVALID = (s.on TWIL_DELAY.DVALID || decide (3 ≤ s.twil.delays.length)) ∧
        { t.twil with unacked := s.twil.unacked, waitq := s.twil.waitq } = { s.twil with dreqAt := none, delays := ((((s.now : Int) - t1 - signedOf 64 (wrapInt 64 ((t3.toNat : Int) - t2.toNat))) :: s.twil.delays).take 8) } ∧
        t.mem = s.mem ∧
        RegsBut [Reg.TWIL_DELAY] s t) ∧
  (∀ (h : TwHdr) (t2 t3 : DWord) (s : State), TwUp s →
      h.bad = false →
      s.twil.dreqAt = none →
      ∃ t, exec (.twillDrsp h t2 t3) s = .next t ∧
        { t.twil with unacked := s.twil.unacked, waitq := s.twil.waitq } = s.twil ∧
        t.twil.unacked = (s.twil.unacked.filter (fun f => !((fun f : TwFrame => decide ((h.ack.toNat + 65536 - f.seq) % 65536 < 32768)) f))) ++ (s.twil.waitq.take (64 - (s.twil.unacked.filter (fun f => !((fun f : TwFrame => decide ((h.ack.toNat + 65536 - f.seq) % 65536 < 32768)) f))).length)).map (fun f => { f with firstAt := s.now, sentAt := s.now }) ∧
        t.twil.waitq = s.twil.waitq.drop (64 - (s.twil.unacked.filter (fun f => !((fun f : TwFrame => decide ((h.ack.toNat + 65536 - f.seq) % 65536 < 32768)) f))).length) ∧
        t.dict = s.dict ∧ t.time = s.time ∧ t.sec = s.sec ∧ t.mac = s.mac ∧
        t.mem = s.mem ∧
        t.regs = s.regs) ∧
  (∀ (h : TwHdr) (i : BitVec 16) (e : Vector (BitVec 8) 32) (s : State), TwUp s →
      TwNext h s →
      s.standby = true →
      i.toNat < 8192 →
      ∃ t, exec (.twillTbl h i e) s = .next t ∧
        (t.entry i.toNat).take 26 = e.toList.take 26 ∧
        (t.entry i.toNat).drop 28 = e.toList.drop 28 ∧
        eN (t.entry i.toNat) 26 2 = (eN (s.entry i.toNat) 26 2 + 1) % 65536 ∧
        t.twil.rxSeq = h.seq.toNat ∧
        t.regs = s.regs ∧
        Outside (tblAddr i.toNat) 32 s t) ∧
  (∀ (h : TwHdr) (i : BitVec 16) (e : Vector (BitVec 8) 32) (s : State), TwUp s →
      TwNext h s →
      s.standby = true →
      8192 ≤ i.toNat →
      ∃ t, exec (.twillTbl h i e) s = .next t ∧
        { t.twil with unacked := s.twil.unacked, waitq := s.twil.waitq } = { s.twil with rxSeq := h.seq.toNat } ∧
        t.dict = s.dict ∧ t.time = s.time ∧ t.sec = s.sec ∧ t.mac = s.mac ∧
        t.mem = s.mem ∧
        t.regs = s.regs) ∧
  (∀ (h : TwHdr) (i : BitVec 16) (c : Word) (s : State), TwUp s →
      TwNext h s →
      s.standby = true →
      i.toNat < 8192 →
      s.twil.handoverIn.all (fun k => decide (signedOf 32 (wrapInt 32 (((s.reg Reg.SYSC_TICK).toNat : Int) - k)) < 0)) = true →
      ∃ t, exec (.twillCtr h [(i, c)]) s = .next t ∧
        eN (t.entry i.toNat) 16 4 = c.toNat ∧
        (t.entry i.toNat).take 16 = (s.entry i.toNat).take 16 ∧
        t.pairState = pairStandby ∧
        t.regs = s.regs ∧
        Outside (tblAddr i.toNat) 32 s t) ∧
  (∀ (h : TwHdr) (k : Nat) (s : State), TwUp s →
      TwNext h s →
      s.standby = true →
      s.twil.handoverIn = some k →
      0 ≤ signedOf 32 (wrapInt 32 (((s.reg Reg.SYSC_TICK).toNat : Int) - k)) →
      s.radioOn = false →
      (∀ n : Fin 32, s.counts n = false) →
      ∃ t, exec (.twillCtr h []) s = .next t ∧
        t.pairState = pairActive ∧
        t.on TWIL_IRQ.STATE = true ∧
        t.twil.handoverIn = none ∧ t.twil.held = [] ∧ t.twil.txb = [] ∧
        t.twil.takeovers = s.twil.takeovers ∧
        t.mem = s.mem ∧
        RegsBut [Reg.TWIL_STAT, Reg.TWIL_IRQ] s t) ∧
  (∀ (h : TwHdr) (n : Fin 32) (kcv : DWord) (start : Word) (s : State), TwUp s →
      TwNext h s →
      s.standby = true →
      s.on SEC_LEDGER.EN = false →
      (s.slot n.val).kcv = leBytes 8 kcv.toNat ∧ (s.newestStart n.val).all (fun k => decide (k < start.toNat)) = true →
      (s.counter n.val).resv = none →
      s.twil.resPend = [] ∧ s.twil.unacked = [] ∧ s.twil.waitq = [] →
      ∃ t, exec (.twillRes h n kcv start) s = .next t ∧
        t.newestStart n.val = some start.toNat ∧
        t.twil.unacked.map (fun f => (f.typ, f.payload)) = [(0x12, leBytes 1 n.val ++ [0, 0, 0] ++ leBytes 8 kcv.toNat ++ leBytes 4 start.toNat)] ∧
        t.mem = s.mem ∧
        t.regs = s.regs) ∧
  (∀ (h : TwHdr) (n : Fin 32) (kcv : DWord) (start : Word) (r : Resv) (s : State), TwUp s →
      TwNext h s →
      s.pairState = pairActive →
      (s.slot n.val).kcv = leBytes 8 kcv.toNat →
      (s.counter n.val).resv = some r ∧ r.start = start.toNat →
      ∃ t, exec (.twillResack h n kcv start) s = .next t ∧
        (t.counter n.val) = { s.counter n.val with resv := some { r with ack := true } } ∧
        t.sec.slots = s.sec.slots ∧
        t.twil.rxSeq = h.seq.toNat ∧
        t.mem = s.mem ∧
        t.regs = s.regs) ∧
  (∀ (h : TwHdr) (n : Fin 32) (kcv : DWord) (start : Word) (s : State), TwUp s →
      TwNext h s →
      s.pairState ≠ pairActive ∨ (s.slot n.val).kcv ≠ leBytes 8 kcv.toNat →
      ∃ t, exec (.twillResack h n kcv start) s = .next t ∧
        { t.twil with unacked := s.twil.unacked, waitq := s.twil.waitq } = { s.twil with rxSeq := h.seq.toNat } ∧
        t.twil.unacked = (s.twil.unacked.filter (fun f => !((fun f : TwFrame => decide ((h.ack.toNat + 65536 - f.seq) % 65536 < 32768)) f))) ++ (s.twil.waitq.take (64 - (s.twil.unacked.filter (fun f => !((fun f : TwFrame => decide ((h.ack.toNat + 65536 - f.seq) % 65536 < 32768)) f))).length)).map (fun f => { f with firstAt := s.now, sentAt := s.now }) ∧
        t.twil.waitq = s.twil.waitq.drop (64 - (s.twil.unacked.filter (fun f => !((fun f : TwFrame => decide ((h.ack.toNat + 65536 - f.seq) % 65536 < 32768)) f))).length) ∧
        t.dict = s.dict ∧ t.time = s.time ∧ t.sec = s.sec ∧ t.mac = s.mac ∧
        t.mem = s.mem ∧
        t.regs = s.regs) ∧
  (∀ (h : TwHdr) (gen : Word) (v : List (BitVec 8)) (s : State), TwUp s →
      TwNext h s →
      s.standby = true →
      s.dictReady = true →
      v.length ≤ 32 ∧ s.dict.locked = none →
      DictIdle s →
      NoStore s →
      ∃ t, exec (.twillDict h gen (itemBytes ⟨0x5000, 1, v⟩)) s = .next t ∧
        t.dict.run = some ⟨⟨.nobody, .relay, 4, 0⟩, .mirror, [⟨0x5000, 1, v⟩], .ready 0⟩ ∧
        t.assetVal 1 = s.assetVal 1 ∧
        t.on TWIL_IRQ.MIRREJ = s.on TWIL_IRQ.MIRREJ ∧
        t.mem = s.mem) ∧
  (∀ (h : TwHdr) (gen : Word) (b : List (BitVec 8)) (s : State), TwUp s →
      TwNext h s →
      s.standby = true →
      s.dictReady = false ∨ parseAll (b.length + 1) b = none ∨ (parseAll (b.length + 1) b).any (fun l => l.any (fun i => stageTest i s != dsOk)) = true →
      ∃ t, exec (.twillDict h gen b) s = .next t ∧
        t.on TWIL_IRQ.MIRREJ = true ∧
        t.on TWIL_STAT.INSYNC = false ∧
        t.dict = s.dict ∧
        t.mem = s.mem ∧
        RegsBut [Reg.TWIL_STAT, Reg.TWIL_IRQ] s t) ∧
  (∀ (h : TwHdr) (first last : DWord) (s : State), TwUp s →
      h.bad = false →
      s.standby = true →
      ∃ t, exec (.twillTxb h first last) s = .next t ∧
        { t.twil with unacked := s.twil.unacked, waitq := s.twil.waitq } = { s.twil with txb := ((first.toNat, last.toNat) :: s.twil.txb).take 16 } ∧
        t.dict = s.dict ∧ t.time = s.time ∧ t.sec = s.sec ∧ t.mac = s.mac ∧
        t.mem = s.mem ∧
        t.regs = s.regs) ∧
  (∀ (h : TwHdr) (first last : DWord) (s : State), TwUp s →
      h.bad = false →
      s.standby = false →
      ∃ t, exec (.twillTxb h first last) s = .next t ∧
        { t.twil with unacked := s.twil.unacked, waitq := s.twil.waitq } = s.twil ∧
        t.twil.unacked = (s.twil.unacked.filter (fun f => !((fun f : TwFrame => decide ((h.ack.toNat + 65536 - f.seq) % 65536 < 32768)) f))) ++ (s.twil.waitq.take (64 - (s.twil.unacked.filter (fun f => !((fun f : TwFrame => decide ((h.ack.toNat + 65536 - f.seq) % 65536 < 32768)) f))).length)).map (fun f => { f with firstAt := s.now, sentAt := s.now }) ∧
        t.twil.waitq = s.twil.waitq.drop (64 - (s.twil.unacked.filter (fun f => !((fun f : TwFrame => decide ((h.ack.toNat + 65536 - f.seq) % 65536 < 32768)) f))).length) ∧
        t.dict = s.dict ∧ t.time = s.time ∧ t.sec = s.sec ∧ t.mac = s.mac ∧
        t.mem = s.mem ∧
        t.regs = s.regs) ∧
  (∀ (h : TwHdr) (nt : DWord) (d : Vector (BitVec 8) 32) (b : List (BitVec 8)) (s : State), TwUp s →
      h.bad = false →
      s.pairState = pairActive →
      s.radioOn = false →
      ∃ t, exec (.twillFwd h nt d b) s = .next t ∧
        t.get TWIL_CNT1.FWD = min (s.get TWIL_CNT1.FWD + 1) 65535 ∧
        t.mac = s.mac ∧
        t.mem = s.mem ∧
        RegsBut [Reg.TWIL_CNT1] s t) ∧
  (∀ (h : TwHdr) (nt : DWord) (d : Vector (BitVec 8) 32) (b : List (BitVec 8)) (s : State), TwUp s →
      h.bad = false →
      s.pairState = pairActive →
      s.radioOn = true ∧ MacQuiet s →
      leNat ((d.toList.drop 6).take 2) = 0 →
      ∃ t, exec (.twillFwd h nt d b) s = .next t ∧
        t.get TWIL_CNT1.FWD = min (s.get TWIL_CNT1.FWD + 1) 65535 ∧
        t.get (MAC_CNT.HI 2) = min (s.get (MAC_CNT.HI 2) + 1) 65535 ∧
        t.mem = s.mem ∧
        RegsBut [Reg.TWIL_CNT1, Reg.MAC_CNT 2] s t) ∧
  (∀ (h : TwHdr) (nt : DWord) (d : Vector (BitVec 8) 32) (b : List (BitVec 8)) (s : State), TwUp s →
      h.bad = false →
      s.pairState ≠ pairActive →
      ∃ t, exec (.twillFwd h nt d b) s = .next t ∧
        { t.twil with unacked := s.twil.unacked, waitq := s.twil.waitq } = s.twil ∧
        t.twil.unacked = (s.twil.unacked.filter (fun f => !((fun f : TwFrame => decide ((h.ack.toNat + 65536 - f.seq) % 65536 < 32768)) f))) ++ (s.twil.waitq.take (64 - (s.twil.unacked.filter (fun f => !((fun f : TwFrame => decide ((h.ack.toNat + 65536 - f.seq) % 65536 < 32768)) f))).length)).map (fun f => { f with firstAt := s.now, sentAt := s.now }) ∧
        t.twil.waitq = s.twil.waitq.drop (64 - (s.twil.unacked.filter (fun f => !((fun f : TwFrame => decide ((h.ack.toNat + 65536 - f.seq) % 65536 < 32768)) f))).length) ∧
        t.dict = s.dict ∧ t.time = s.time ∧ t.sec = s.sec ∧ t.mac = s.mac ∧
        t.mem = s.mem ∧
        t.regs = s.regs) ∧
  (∀ (h : TwHdr) (b : List (BitVec 8)) (s : State), TwUp s →
      TwNext h s →
      s.standby = true →
      ∃ t, exec (.twillSync h 0x0F b) s = .next t ∧
        t.on TWIL_STAT.INSYNC = (s.on TWIL_STAT.INSYNC || !(s.on TWIL_STAT.KEYMIS)) ∧
        t.on TWIL_IRQ.INSYNC = (s.on TWIL_IRQ.INSYNC || (!(s.on TWIL_STAT.INSYNC) && !(s.on TWIL_STAT.KEYMIS))) ∧
        t.twil.rxSeq = h.seq.toNat ∧
        t.mem = s.mem ∧
        RegsBut [Reg.TWIL_STAT, Reg.TWIL_IRQ] s t) ∧
  (∀ (h : TwHdr) (i : BitVec 16) (e : Vector (BitVec 8) 32) (s : State), TwUp s →
      TwNext h s →
      s.standby = true →
      i.toNat < 8192 →
      ∃ t, exec (.twillSync h 1 (leBytes 2 i.toNat ++ [0, 0] ++ e.toList)) s = .next t ∧
        (t.entry i.toNat).take 26 = e.toList.take 26 ∧
        (t.entry i.toNat).drop 28 = e.toList.drop 28 ∧
        eN (t.entry i.toNat) 26 2 = (eN (s.entry i.toNat) 26 2 + 1) % 65536 ∧
        t.on TWIL_STAT.INSYNC = false ∧
        t.on TWIL_IRQ.INSYNC = (s.on TWIL_IRQ.INSYNC || s.on TWIL_STAT.INSYNC) ∧
        RegsBut [Reg.TWIL_STAT, Reg.TWIL_IRQ] s t ∧
        Outside (tblAddr i.toNat) 32 s t) ∧
  (∀ (h : TwHdr) (n : Fin 32) (kcv : DWord) (start : Word) (s : State), TwUp s →
      TwNext h s →
      s.standby = true →
      s.on SEC_LEDGER.EN = false →
      (s.slot n.val).kcv = leBytes 8 kcv.toNat ∧ (s.newestStart n.val).all (fun k => decide (k < start.toNat)) = true →
      (s.counter n.val).resv = none →
      ∃ t, exec (.twillSync h 2 (leBytes 1 n.val ++ [0, 0, 0] ++ leBytes 8 kcv.toNat ++ leBytes 4 start.toNat)) s = .next t ∧
        t.newestStart n.val = some start.toNat ∧
        t.on TWIL_STAT.INSYNC = false ∧
        t.on TWIL_IRQ.INSYNC = (s.on TWIL_IRQ.INSYNC || s.on TWIL_STAT.INSYNC) ∧
        t.mem = s.mem ∧
        RegsBut [Reg.TWIL_STAT, Reg.TWIL_IRQ] s t) ∧
  (∀ (h : TwHdr) (gen : Word) (v : List (BitVec 8)) (s : State), TwUp s →
      TwNext h s →
      s.standby = true →
      s.dictReady = true →
      v.length ≤ 32 ∧ s.dict.locked = none →
      DictIdle s →
      NoStore s →
      ∃ t, exec (.twillSync h 3 (leBytes 4 gen.toNat ++ itemBytes ⟨0x5000, 1, v⟩)) s = .next t ∧
        t.dict.run = some ⟨⟨.nobody, .relay, 4, 0⟩, .mirror, [⟨0x5000, 1, v⟩], .ready 0⟩ ∧
        t.on TWIL_STAT.INSYNC = false ∧
        t.on TWIL_IRQ.INSYNC = (s.on TWIL_IRQ.INSYNC || s.on TWIL_STAT.INSYNC) ∧
        t.mem = s.mem) ∧
  (∀ (h : TwHdr) (rid : BitVec 8) (s : State), TwUp s →
      TwNext h s →
      s.pairState = pairActive →
      DictFresh ⟨.relay, .relay, 1, rid.toNat⟩ s →
      ∃ t, exec (.twillRelay h [1, rid, 0, 1, 0x08, 0x10, 0, 0]) s = .next t ∧
        t.dict = { s.dict with reads := s.dict.reads ++ [⟨⟨.relay, .relay, 1, rid.toNat⟩, [(0x1008, 0)]⟩] } ∧
        t.twil.rxSeq = h.seq.toNat ∧
        t.mem = s.mem ∧
        t.regs = s.regs) ∧
  (∀ (tag : BitVec 4) (rid : BitVec 8) (items : List (BitVec 16 × BitVec 8)) (s : State), HostReady s →
      s.dictReady = true →
      (s.sess .host).kept = none ∧ s.serving (hostReq 1 rid) = false →
      s.standby = true ∧ s.on TWIL_STAT.LINK = true →
      items.length ≤ 64 ∧ items.any (fun e => decide (e.1.toNat < 0x9000) || decide (0x9FFF < e.1.toNat)) = true →
      s.twil.unacked.length < 64 →
      ∃ t, exec (.dictRead (.host tag) rid items) s = .next t ∧
        t.twil.relays = s.twil.relays ++ [hostReq 1 rid] ∧
        t.twil.unacked.getLast?.map (fun f => (f.typ, f.seq, f.payload)) = some (0x17, s.twil.seqNext, keysMsg 1 rid.toNat (keysOf items)) ∧
        t.dict = s.dict ∧
        t.spis.pend = true ∧
        t.mem = s.mem ∧
        RegsBut [Reg.SPIS_STAT, Reg.SPIS_IRQ, Reg.SPIS_ATTN] s t) ∧
  (∀ (h : TwHdr) (q : DReq) (rest : List DReq) (b : List (BitVec 8)) (s : State), TwUp s →
      TwNext h s →
      s.standby = true →
      s.twil.relays = q :: rest ∧ q.replyTo = .host ∧ q.sess = .host →
      s.spis.pend = true →
      b.length ≤ 2048 →
      ∃ t, exec (.twillRelay h b) s = .next t ∧
        t.twil.relays = rest ∧
        t.spis.pend = false ∧
        t.spis.kept.map (fun r => (r.status, r.payload)) = some (0, b) ∧
        t.mem = s.mem ∧
        RegsBut [Reg.SPIS_ATTN] s t)

/-- The pair: link, roles, takeover, handover. TWILL_LINK_DOWN, TWILL_LINK_UP, TWILL_RETRANSMIT, TWILL_ACK_TIMEOUT, STARTWAIT_EXPIRY, TWILL_TAKEOVER, TWILL_YIELD, TWILL_FORCE, TWILL_RESYNC and TW_LIVE_WINDOW; the three commands as the bus takes them from the core. Memory and every register not named stay. Where the part's state changes RADIO is off. (1) TWILL_LINK_DOWN clears LINK, INSYNC and DVALID and any handover, and shows SPLIT beside a live partner of a standby or active part; with no counting slot, or no standby, the security engine stays. (2) A standby, the ledger off, holds for a slot the block SKIP beyond its newest. (3) A relayed request of the host is answered BUSY. (4) With the link down it changes nothing. (5) TWILL_LINK_UP of a part not active beside an active one makes it STANDBY: numbering begins afresh, INSYNC is clear, KEYMIS tells whether the keys differ. (6) So does one with neither active, when its role, or with equal roles its lower address, says so. (7) The other becomes ACTIVE and starts a full synchronisation. (8) An active part beside one that is not, or one that it outranks, stays so and synchronises; DUALACT tells of two. (9) Outranked by another active part it becomes STANDBY with DUALACT. (10) With the link up, or no compatible HELLO, and no synchronisation due it changes nothing. (11) TWILL_RETRANSMIT sends every unacknowledged frame again, counted once. (12) With none, or the link down, it changes nothing. (13) TWILL_ACK_TIMEOUT clears INSYNC with its interrupt; a synchronisation is due. (14) At the active part it starts. (15) With the link down it changes nothing. (16) STARTWAIT_EXPIRY in START with the link down and no live partner makes ACTIVE; the security engine stays. (17) Beside a live partner STANDBY with SPLIT. (18) In another state, or with the link up, it changes nothing. (19) TWILL_TAKEOVER of a standby with neither link nor live partner, no frame held and no counting slot, makes it ACTIVE and counts. (20) The only counting slot's counter goes on from the block after its newest, and the next block, if there is one, is reserved. (21) Otherwise it changes nothing. (22) TWILL_YIELD of an active part in sync with its standby sends a HANDOVER that names the next tick. (23) Otherwise it changes nothing. (24) TWILL_FORCE of a standby waits for the boundary. (25) Of any other part it changes nothing. (26) TWILL_RESYNC of a part that does not mirror clears INSYNC and makes a synchronisation due. (27) Of one that does it starts it. (28) TW_LIVE_WINDOW of a part that pulls the line shows the partner's level as PLIVE, and SPLIT follows it: set, with its interrupt, while the link is down in a standby or active part. (29) Of a part that does not, or without a clock, it changes nothing. (30) Out of pair mode, with RING off or without a clock the six events change nothing. -/
def Obligations.TwillPair : Prop :=
  (∀ (s : State), TwClocked s →
      s.on TWIL_STAT.LINK = true →
      s.twil.relays = [] →
      (s.standby = false ∨ ∀ n : Fin 32, s.counts n = false) →
      ∃ t, exec (.twillLinkDown) s = .next t ∧
        t.on TWIL_STAT.LINK = false ∧
        t.on TWIL_STAT.INSYNC = false ∧
        t.on TWIL_IRQ.LINK = true ∧
        t.on TWIL_IRQ.INSYNC = (s.on TWIL_IRQ.INSYNC || s.on TWIL_STAT.INSYNC) ∧
        t.on TWIL_DELAY.DVALID = false ∧
        t.twil.delays = [] ∧ t.twil.dreqAt = none ∧ t.twil.handoverIn = none ∧ t.twil.handoverOut = none ∧
        t.on TWIL_STAT.SPLIT = (s.on TWIL_STAT.PLIVE && (s.on TWIL_STAT.SPLIT || s.standby || s.pairState == pairActive)) ∧
        t.pairState = s.pairState ∧
        t.mem = s.mem ∧
        t.sec = s.sec ∧
        RegsBut [Reg.TWIL_STAT, Reg.TWIL_IRQ, Reg.TWIL_DELAY] s t) ∧
  (∀ (st : Nat) (s : State), TwClocked s →
      s.on TWIL_STAT.LINK = true →
      s.standby = true ∧ s.twil.relays = [] ∧ s.on SEC_LEDGER.EN = false →
      s.counts 3 = true ∧ s.newestStart 3 = some st ∧ (s.counter 3).resv = none ∧ st + 1024 * s.twSkip < 2 ^ 32 →
      ∃ t, exec (.twillLinkDown) s = .next t ∧
        t.on TWIL_STAT.LINK = false ∧
        t.on TWIL_STAT.INSYNC = false ∧
        t.on TWIL_IRQ.LINK = true ∧
        t.on TWIL_IRQ.INSYNC = (s.on TWIL_IRQ.INSYNC || s.on TWIL_STAT.INSYNC) ∧
        t.on TWIL_DELAY.DVALID = false ∧
        t.twil.delays = [] ∧ t.twil.dreqAt = none ∧ t.twil.handoverIn = none ∧ t.twil.handoverOut = none ∧
        t.on TWIL_STAT.SPLIT = (s.on TWIL_STAT.PLIVE && (s.on TWIL_STAT.SPLIT || s.standby || s.pairState == pairActive)) ∧
        t.pairState = s.pairState ∧
        t.mem = s.mem ∧
        t.newestStart 3 = some (st + 1024 * s.twSkip) ∧
        RegsBut [Reg.TWIL_STAT, Reg.TWIL_IRQ, Reg.TWIL_DELAY] s t) ∧
  (∀ (q : DReq) (s : State), TwClocked s →
      s.on TWIL_STAT.LINK = true →
      s.standby = true ∧ (∀ n : Fin 32, s.counts n = false) →
      s.twil.relays = [q] ∧ q.replyTo = .host →
      s.spis.pend = true →
      ∃ t, exec (.twillLinkDown) s = .next t ∧
        t.twil.relays = [] ∧
        t.spis.pend = false ∧
        t.spis.kept.map (fun r => oct r.payload 2) = some 9 ∧
        t.mem = s.mem) ∧
  (∀ (s : State), s.on TWIL_STAT.LINK = false →
      s.twil.relays = [] →
      ∃ t, exec (.twillLinkDown) s = .next t ∧
        t = s) ∧
  (∀ (s : State), TwClocked s →
      s.on TWIL_STAT.LINK = false ∧ s.twil.helloOk = true →
      s.pairState ≠ pairActive ∧ s.twil.partnerState = pairActive →
      s.radioOn = false →
      ∃ t, exec (.twillLinkUp) s = .next t ∧
        t.on TWIL_STAT.LINK = true ∧
        t.on TWIL_IRQ.LINK = true ∧
        t.on TWIL_STAT.ROLECONF = (s.on GPIO_STRAP.ROLE == s.twil.partnerRole) ∧
        t.on TWIL_STAT.INSYNC = false ∧
        t.on TWIL_STAT.SPLIT = false ∧
        t.on TWIL_STAT.VERLOW = (s.get TWIL_STAT.PVER % 16 != s.get TWIL_CFG.VER % 16) ∧
        t.twil.rxSeq = 0xFFFF ∧ t.twil.helloOk = false ∧ t.twil.relays = [] ∧ t.twil.resPend = [] ∧
        t.pairState = pairStandby ∧
        t.twil.unacked = [] ∧ t.twil.seqNext = 0 ∧
        t.on TWIL_STAT.KEYMIS = s.keysDiffer ∧
        t.twil.syncDue = true ∧
        t.mem = s.mem) ∧
  (∀ (s : State), TwClocked s →
      s.on TWIL_STAT.LINK = false ∧ s.twil.helloOk = true →
      s.pairState ≠ pairActive ∧ s.twil.partnerState ≠ pairActive →
      s.radioOn = false →
      (if (s.on GPIO_STRAP.ROLE == s.twil.partnerRole) then decide (s.twil.partnerAddr < s.factoryExt) else !(s.on GPIO_STRAP.ROLE)) = false →
      ∃ t, exec (.twillLinkUp) s = .next t ∧
        t.on TWIL_STAT.LINK = true ∧
        t.on TWIL_IRQ.LINK = true ∧
        t.on TWIL_STAT.ROLECONF = (s.on GPIO_STRAP.ROLE == s.twil.partnerRole) ∧
        t.on TWIL_STAT.INSYNC = false ∧
        t.on TWIL_STAT.SPLIT = false ∧
        t.on TWIL_STAT.VERLOW = (s.get TWIL_STAT.PVER % 16 != s.get TWIL_CFG.VER % 16) ∧
        t.twil.rxSeq = 0xFFFF ∧ t.twil.helloOk = false ∧ t.twil.relays = [] ∧ t.twil.resPend = [] ∧
        t.pairState = pairStandby ∧
        t.twil.unacked = [] ∧ t.twil.seqNext = 0 ∧
        t.on TWIL_STAT.KEYMIS = s.keysDiffer ∧
        t.twil.syncDue = true ∧
        t.mem = s.mem) ∧
  (∀ (s : State), TwClocked s →
      s.on TWIL_STAT.LINK = false ∧ s.twil.helloOk = true →
      s.pairState ≠ pairActive ∧ s.twil.partnerState ≠ pairActive →
      (s.radioOn = false ∧ ∀ n : Fin 32, s.counts n = false) →
      (if (s.on GPIO_STRAP.ROLE == s.twil.partnerRole) then decide (s.twil.partnerAddr < s.factoryExt) else !(s.on GPIO_STRAP.ROLE)) = true →
      ∃ t, exec (.twillLinkUp) s = .next t ∧
        t.on TWIL_STAT.LINK = true ∧
        t.on TWIL_IRQ.LINK = true ∧
        t.on TWIL_STAT.ROLECONF = (s.on GPIO_STRAP.ROLE == s.twil.partnerRole) ∧
        t.on TWIL_STAT.INSYNC = false ∧
        t.on TWIL_STAT.SPLIT = false ∧
        t.on TWIL_STAT.VERLOW = (s.get TWIL_STAT.PVER % 16 != s.get TWIL_CFG.VER % 16) ∧
        t.twil.rxSeq = 0xFFFF ∧ t.twil.helloOk = false ∧ t.twil.relays = [] ∧ t.twil.resPend = [] ∧
        t.pairState = pairActive ∧
        t.twil.syncDue = false ∧
        t.twil.endSeq.isSome = true ∧
        t.on TWIL_STAT.KEYMIS = false ∧
        t.mem = s.mem) ∧
  (∀ (s : State), TwClocked s →
      s.on TWIL_STAT.LINK = false ∧ s.twil.helloOk = true →
      s.pairState = pairActive ∧ (s.twil.partnerState ≠ pairActive ∨ (if (s.on GPIO_STRAP.ROLE == s.twil.partnerRole) then decide (s.twil.partnerAddr < s.factoryExt) else !(s.on GPIO_STRAP.ROLE)) = true) →
      ∃ t, exec (.twillLinkUp) s = .next t ∧
        t.on TWIL_STAT.LINK = true ∧
        t.on TWIL_IRQ.LINK = true ∧
        t.on TWIL_STAT.ROLECONF = (s.on GPIO_STRAP.ROLE == s.twil.partnerRole) ∧
        t.on TWIL_STAT.INSYNC = false ∧
        t.on TWIL_STAT.SPLIT = false ∧
        t.on TWIL_STAT.VERLOW = (s.get TWIL_STAT.PVER % 16 != s.get TWIL_CFG.VER % 16) ∧
        t.twil.rxSeq = 0xFFFF ∧ t.twil.helloOk = false ∧ t.twil.relays = [] ∧ t.twil.resPend = [] ∧
        t.pairState = pairActive ∧
        t.twil.syncDue = false ∧
        t.twil.endSeq.isSome = true ∧
        t.on TWIL_STAT.KEYMIS = false ∧
        t.on TWIL_IRQ.DUALACT = (s.on TWIL_IRQ.DUALACT || s.twil.partnerState == pairActive) ∧
        t.mem = s.mem) ∧
  (∀ (s : State), TwClocked s →
      s.on TWIL_STAT.LINK = false ∧ s.twil.helloOk = true →
      s.pairState = pairActive ∧ s.twil.partnerState = pairActive →
      s.radioOn = false →
      (if (s.on GPIO_STRAP.ROLE == s.twil.partnerRole) then decide (s.twil.partnerAddr < s.factoryExt) else !(s.on GPIO_STRAP.ROLE)) = false →
      ∃ t, exec (.twillLinkUp) s = .next t ∧
        t.on TWIL_STAT.LINK = true ∧
        t.on TWIL_IRQ.LINK = true ∧
        t.on TWIL_STAT.ROLECONF = (s.on GPIO_STRAP.ROLE == s.twil.partnerRole) ∧
        t.on TWIL_STAT.INSYNC = false ∧
        t.on TWIL_STAT.SPLIT = false ∧
        t.on TWIL_STAT.VERLOW = (s.get TWIL_STAT.PVER % 16 != s.get TWIL_CFG.VER % 16) ∧
        t.twil.rxSeq = 0xFFFF ∧ t.twil.helloOk = false ∧ t.twil.relays = [] ∧ t.twil.resPend = [] ∧
        t.pairState = pairStandby ∧
        t.twil.unacked = [] ∧ t.twil.seqNext = 0 ∧
        t.on TWIL_STAT.KEYMIS = s.keysDiffer ∧
        t.twil.syncDue = true ∧
        t.on TWIL_IRQ.DUALACT = true ∧
        t.mem = s.mem) ∧
  (∀ (s : State), s.on TWIL_STAT.LINK = true ∨ s.twil.helloOk = false →
      s.twil.syncDue = false →
      ∃ t, exec (.twillLinkUp) s = .next t ∧
        t = s) ∧
  (∀ (s : State), TwClocked s →
      s.on TWIL_STAT.LINK = true →
      s.twil.unacked ≠ [] →
      ∃ t, exec (.twillRetransmit) s = .next t ∧
        t.twil = { s.twil with unacked := s.twil.unacked.map (fun f => { f with sentAt := s.now }) } ∧
        t.get TWIL_CNT0.RETX = min (s.get TWIL_CNT0.RETX + 1) (2 ^ TWIL_CNT0.RETX.w - 1) ∧
        t.mem = s.mem ∧
        RegsBut [Reg.TWIL_CNT0] s t) ∧
  (∀ (s : State), s.on TWIL_STAT.LINK = false ∨ s.twil.unacked = [] →
      ∃ t, exec (.twillRetransmit) s = .next t ∧
        t = s) ∧
  (∀ (s : State), TwClocked s →
      s.on TWIL_STAT.LINK = true →
      s.pairState ≠ pairActive →
      ∃ t, exec (.twillAckTimeout) s = .next t ∧
        t.on TWIL_STAT.INSYNC = false ∧
        t.on TWIL_IRQ.INSYNC = (s.on TWIL_IRQ.INSYNC || s.on TWIL_STAT.INSYNC) ∧
        t.twil = { s.twil with syncDue := true } ∧
        t.mem = s.mem ∧
        RegsBut [Reg.TWIL_STAT, Reg.TWIL_IRQ] s t) ∧
  (∀ (s : State), TwClocked s →
      s.on TWIL_STAT.LINK = true →
      s.pairState = pairActive →
      ∃ t, exec (.twillAckTimeout) s = .next t ∧
        t.on TWIL_STAT.INSYNC = false ∧
        t.on TWIL_IRQ.INSYNC = (s.on TWIL_IRQ.INSYNC || s.on TWIL_STAT.INSYNC) ∧
        t.twil.syncDue = false ∧
        t.twil.endSeq.isSome = true ∧
        t.mem = s.mem ∧
        RegsBut [Reg.TWIL_STAT, Reg.TWIL_IRQ] s t) ∧
  (∀ (s : State), s.on TWIL_STAT.LINK = false →
      ∃ t, exec (.twillAckTimeout) s = .next t ∧
        t = s) ∧
  (∀ (s : State), TwClocked s →
      s.pairState = pairStart ∧ s.on TWIL_STAT.LINK = false →
      s.on TWIL_STAT.PLIVE = false ∧ s.radioOn = false →
      ∃ t, exec (.startwaitExpiry) s = .next t ∧
        t.pairState = pairActive ∧
        t.on TWIL_IRQ.STATE = true ∧
        t.sec = s.sec ∧
        t.mem = s.mem ∧
        RegsBut [Reg.TWIL_STAT, Reg.TWIL_IRQ] s t) ∧
  (∀ (s : State), TwClocked s →
      s.pairState = pairStart ∧ s.on TWIL_STAT.LINK = false →
      s.on TWIL_STAT.PLIVE = true ∧ s.radioOn = false →
      ∃ t, exec (.startwaitExpiry) s = .next t ∧
        t.pairState = pairStandby ∧
        t.on TWIL_STAT.SPLIT = true ∧
        t.on TWIL_STAT.INSYNC = false ∧
        t.on TWIL_IRQ.STATE = true ∧
        t.mem = s.mem) ∧
  (∀ (s : State), s.pairState ≠ pairStart ∨ s.on TWIL_STAT.LINK = true →
      ∃ t, exec (.startwaitExpiry) s = .next t ∧
        t = s) ∧
  (∀ (s : State), TwClocked s →
      s.standby = true ∧ s.on TWIL_STAT.LINK = false ∧ s.on TWIL_STAT.PLIVE = false ∧ s.radioOn = false →
      (s.twil.held = [] ∧ ∀ n : Fin 32, s.counts n = false) →
      ∃ t, exec (.twillTakeover) s = .next t ∧
        t.pairState = pairActive ∧
        t.on TWIL_IRQ.TAKEOVER = true ∧
        t.on TWIL_IRQ.STATE = true ∧
        t.twil.takeovers = s.twil.takeovers + 1 ∧
        t.twil.held = [] ∧ t.twil.txb = [] ∧ t.twil.force = false ∧
        t.sec = s.sec ∧
        t.mem = s.mem ∧
        RegsBut [Reg.TWIL_STAT, Reg.TWIL_IRQ] s t) ∧
  (∀ (st : Nat) (s : State), TwClocked s →
      s.standby = true ∧ s.on TWIL_STAT.LINK = false ∧ s.on TWIL_STAT.PLIVE = false ∧ s.radioOn = false →
      s.twil.held = [] ∧ s.counts 3 = true ∧ (s.counter 3).exhausted = false ∧ (∀ n : Fin 32, n ≠ 3 → s.counts n = false) →
      s.newestStart 3 = some st ∧ st + 1024 < 2 ^ 32 →
      s.secClocked = true ∧ s.on SEC_LEDGER.EN = false ∧ (s.counter 3).next ≤ st + 1024 →
      ∃ t, exec (.twillTakeover) s = .next t ∧
        t.pairState = pairActive ∧
        t.on TWIL_IRQ.TAKEOVER = true ∧
        t.on TWIL_IRQ.STATE = true ∧
        t.twil.takeovers = s.twil.takeovers + 1 ∧
        t.twil.held = [] ∧ t.twil.txb = [] ∧ t.twil.force = false ∧
        (t.counter 3).next = st + 1024 ∧
        (t.counter 3).durable = some st ∧
        (t.counter 3).resv = (if st + 2048 ≤ 2 ^ 32 then some ⟨st + 1024, true, false, false⟩ else none) ∧
        t.mem = s.mem) ∧
  (∀ (s : State), s.standby = false ∨ s.on TWIL_STAT.LINK = true ∨ s.on TWIL_STAT.PLIVE = true →
      ∃ t, exec (.twillTakeover) s = .next t ∧
        t = s) ∧
  (∀ (s : State), Core Reg.TWIL_CMD s →
      s.pairState = pairActive ∧ s.on TWIL_STAT.LINK = true ∧ s.on TWIL_STAT.INSYNC = true →
      s.twil.partnerState = pairStandby ∧ s.twil.handoverOut = none →
      s.twil.unacked.length < 64 →
      ∃ t, exec (.twillYield) s = .next t ∧
        t.twil = { s.twil with handoverOut := some (((s.reg Reg.SYSC_TICK).toNat + 1) % 2 ^ 32), seqNext := (s.twil.seqNext + 1) % 65536, unacked := s.twil.unacked ++ [⟨0x18, s.twil.seqNext, leBytes 4 (((s.reg Reg.SYSC_TICK).toNat + 1) % 2 ^ 32), s.now, s.now⟩] } ∧
        t.mem = s.mem ∧
        t.regs = s.regs) ∧
  (∀ (s : State), Core Reg.TWIL_CMD s →
      s.pairState ≠ pairActive ∨ s.on TWIL_STAT.LINK = false ∨ s.on TWIL_STAT.INSYNC = false ∨ s.twil.partnerState ≠ pairStandby ∨ s.twil.handoverOut ≠ none →
      ∃ t, exec (.twillYield) s = .next t ∧
        t = s) ∧
  (∀ (s : State), Core Reg.TWIL_CMD s →
      s.standby = true →
      ∃ t, exec (.twillForce) s = .next t ∧
        t = s.modTwil (fun x => { x with force := true })) ∧
  (∀ (s : State), Core Reg.TWIL_CMD s →
      s.standby = false →
      ∃ t, exec (.twillForce) s = .next t ∧
        t = s) ∧
  (∀ (s : State), Core Reg.TWIL_CMD s →
      s.mirrors = false →
      ∃ t, exec (.twillResync) s = .next t ∧
        t.on TWIL_STAT.INSYNC = false ∧
        t.on TWIL_IRQ.INSYNC = (s.on TWIL_IRQ.INSYNC || s.on TWIL_STAT.INSYNC) ∧
        t.twil = { s.twil with syncDue := true } ∧
        t.mem = s.mem ∧
        RegsBut [Reg.TWIL_STAT, Reg.TWIL_IRQ] s t) ∧
  (∀ (s : State), Core Reg.TWIL_CMD s →
      s.mirrors = true →
      ∃ t, exec (.twillResync) s = .next t ∧
        t.on TWIL_STAT.INSYNC = false ∧
        t.on TWIL_IRQ.INSYNC = (s.on TWIL_IRQ.INSYNC || s.on TWIL_STAT.INSYNC) ∧
        t.twil.syncDue = false ∧
        t.twil.endSeq.isSome = true ∧
        t.mem = s.mem ∧
        RegsBut [Reg.TWIL_STAT, Reg.TWIL_IRQ] s t) ∧
  (∀ (low : Bool) (s : State), s.pins.twLive = true ∧ s.clocked = true →
      ∃ t, exec (.twLiveWindow low) s = .next t ∧
        t.on TWIL_STAT.PLIVE = low ∧
        t.pins = { s.pins with partnerLive := low } ∧
        t.on TWIL_STAT.SPLIT = (low && !(s.on TWIL_STAT.LINK) && (s.on TWIL_STAT.SPLIT || s.standby || s.pairState == pairActive)) ∧
        t.on TWIL_IRQ.SPLIT = (s.on TWIL_IRQ.SPLIT || (t.on TWIL_STAT.SPLIT && !(s.on TWIL_STAT.SPLIT))) ∧
        t.pairState = s.pairState ∧
        t.twil = s.twil ∧
        t.mem = s.mem ∧
        RegsBut [Reg.TWIL_STAT, Reg.TWIL_IRQ] s t) ∧
  (∀ (low : Bool) (s : State), s.pins.twLive = false ∨ s.clocked = false →
      ∃ t, exec (.twLiveWindow low) s = .next t ∧
        t = s) ∧
  (∀ (c : Instr) (s : State), s.ringOn = false ∨ s.clocked = false ∨ s.pairState = pairOff →
      c ∈ [.twillLinkDown, .twillLinkUp, .twillRetransmit, .twillAckTimeout, .startwaitExpiry, .twillTakeover] →
      ∃ t, exec (c) s = .next t ∧
        t = s)

/-- The event recorder: reports, coalescing, the ring of units, clearing, the scan. Snapshot and variable reports of any master that the bus takes, the writing of staged records into the recorder's ring of NVM units, CLEAR and the scan after READY. A report that counts is one with the recorder clocked and on and its class enabled; its class is 1 or at least 6 and its source 0 or at least 13. Captured registers that name an operand of the security engine are left out of the snapshot clauses, since their reading writes. Memory and, where a clause lists them, every register not listed stay. (1) A snapshot report with nothing staged, no waiting alarm record, no drain and NOCOAL clear is staged, with its arguments, the captured registers and a repeat count of 1, and its master reads result 0. (2) One like the staged record, with no write begun and less than 65535 repeats, counts one repeat; result 1. (3) One like the newest of the queue does the same there. (4) With a write begun a report that does not coalesce goes to the end of a queue of fewer than 16; result 0. (5) With 16 waiting it is dropped: the source's count, saturating, and IRQ.DROP; result 2. (6) With the recorder off, the class disabled, or a class, source or count of arguments out of range, a snapshot report is refused with result 3 and nothing staged. (7) So is a variable report from control SRAM, its length above 240 included. (8) One whose bytes lie outside control SRAM is refused as well (here with the bus-fault class disabled). (9) A variable report of bytes in control SRAM takes a copy of them at once and queues behind the staged record. (10) While the copy buffer is in use another is dropped, with result 2. (11) A staged snapshot that must not wait longer (NOCOAL, class 2, a drain, another report behind it, or its time over) is programmed at the recorder's position, two units. (12) The end of the coalescing time programs it, (13) and so does FLUSH. (14) While a write or CLEAR is in hand, before the scan, without a clock or with nothing staged no write starts. (15) Nor does FLUSH start one. (16) Before any of these reasons holds nothing happens. (17) With EVR_STORE.EN clear the staged record is lost and counted. (18) FLUSH does the same then. (19) In stop mode with no room it is lost and counted, FULL is set, and IRQ.FULL where FULL was not. (20) With drops to tell, a gap record of one unit is programmed first and the drop counts are cleared. (21) CLEAR during a write waits for its end. (22) A second CLEAR while one runs does nothing. (23) CLEAR of a ring within the data blocks of an idle bank erases its blocks one after another. (24) The scan of a ring with no record makes the recorder ready at its start, SEQ 0; after POR the second and power counts start from 0. (25) A ring with one record of n units at unit u leaves the position behind it, SEQ one on, and after POR the counts of that record, its power cycles one more. (26) Before the NVM is ready, without a clock or when already done it does nothing. -/
def Obligations.EventRecorder : Prop :=
  (∀ (m : Master) (d : Word) (s : State), Takes m Reg.EVR_RPT s →
      EvrOpen (d.toNat / 2 ^ 24 % 16) s →
      ((d.toNat / 2 ^ 24 % 16) = 1 ∨ 6 ≤ (d.toNat / 2 ^ 24 % 16)) ∧ ((d.toNat / 2 ^ 16 % 16) = 0 ∨ 13 ≤ (d.toNat / 2 ^ 16 % 16)) ∧ (d.toNat / 2 ^ 8 % 8) ≤ 4 →
      (s.selectors (d.toNat / 2 ^ 24 % 16)).all (fun x => !(isSecOperand (0x40000000 + 4 * x))) = true →
      s.on EVR_STAT.READY = true ∧ s.evr.queue = [] ∧ s.evr.staged = none ∧ s.evr.alarm = none →
      s.on (EVR_CLS.NOCOAL (d.toNat / 2 ^ 24 % 16)) = false ∧ s.draining = false →
      ∃ t, exec (.eventReport m d) s = .next t ∧
        t.evr.staged.map (fun r => (r.form, r.cls, r.source)) = some (0, (d.toNat / 2 ^ 24 % 16), (d.toNat / 2 ^ 16 % 16)) ∧
        t.evr.staged.map (fun r => (r.arg0, r.payload, r.rep)) = some ((if (d.toNat / 2 ^ 8 % 8) = 0 then 0 else s.reg (Reg.EVR_RPTARG 0)), (snapPayload (d.toNat / 2 ^ 24 % 16) (((List.range (d.toNat / 2 ^ 8 % 8)).map (fun k => (s.reg (Reg.EVR_RPTARG k)).toNat)).flatMap (leBytes 4)) s).1, 1) ∧
        t.evr.queue = [] ∧ t.evr.stagedAt = s.now ∧
        Sparse.get (fun _ => 0#32) t.evr.rptStat (masterId m) = 0 ∧
        t.mem = s.mem ∧
        t.regs = s.regs) ∧
  (∀ (m : Master) (d : Word) (r : Report) (s : State), Takes m Reg.EVR_RPT s →
      EvrOpen (d.toNat / 2 ^ 24 % 16) s →
      ((d.toNat / 2 ^ 24 % 16) = 1 ∨ 6 ≤ (d.toNat / 2 ^ 24 % 16)) ∧ ((d.toNat / 2 ^ 16 % 16) = 0 ∨ 13 ≤ (d.toNat / 2 ^ 16 % 16)) ∧ (d.toNat / 2 ^ 8 % 8) ≤ 4 →
      (s.selectors (d.toNat / 2 ^ 24 % 16)).all (fun x => !(isSecOperand (0x40000000 + 4 * x))) = true →
      s.evr.queue = [] ∧ s.evr.staged = some r ∧ s.evr.writing = false →
      s.on (EVR_CLS.NOCOAL (d.toNat / 2 ^ 24 % 16)) = false →
      sameReport r { form := 0, cls := (d.toNat / 2 ^ 24 % 16), source := (d.toNat / 2 ^ 16 % 16), arg0 := (if (d.toNat / 2 ^ 8 % 8) = 0 then 0 else s.reg (Reg.EVR_RPTARG 0)), payload := [] } = true ∧ r.rep < 65535 →
      ∃ t, exec (.eventReport m d) s = .next t ∧
        t.evr.staged = some { r with rep := r.rep + 1 } ∧
        t.evr.queue = [] ∧
        Sparse.get (fun _ => 0#32) t.evr.rptStat (masterId m) = 1 ∧
        t.mem = s.mem ∧
        t.regs = s.regs) ∧
  (∀ (m : Master) (d : Word) (l : List Report) (r : Report) (s : State), Takes m Reg.EVR_RPT s →
      EvrOpen (d.toNat / 2 ^ 24 % 16) s →
      ((d.toNat / 2 ^ 24 % 16) = 1 ∨ 6 ≤ (d.toNat / 2 ^ 24 % 16)) ∧ ((d.toNat / 2 ^ 16 % 16) = 0 ∨ 13 ≤ (d.toNat / 2 ^ 16 % 16)) ∧ (d.toNat / 2 ^ 8 % 8) ≤ 4 →
      (s.selectors (d.toNat / 2 ^ 24 % 16)).all (fun x => !(isSecOperand (0x40000000 + 4 * x))) = true →
      s.evr.queue = l ++ [r] →
      s.on (EVR_CLS.NOCOAL (d.toNat / 2 ^ 24 % 16)) = false →
      sameReport r { form := 0, cls := (d.toNat / 2 ^ 24 % 16), source := (d.toNat / 2 ^ 16 % 16), arg0 := (if (d.toNat / 2 ^ 8 % 8) = 0 then 0 else s.reg (Reg.EVR_RPTARG 0)), payload := [] } = true ∧ r.rep < 65535 →
      ∃ t, exec (.eventReport m d) s = .next t ∧
        t.evr.queue = l ++ [{ r with rep := r.rep + 1 }] ∧
        t.evr.staged = s.evr.staged ∧
        Sparse.get (fun _ => 0#32) t.evr.rptStat (masterId m) = 1 ∧
        t.mem = s.mem ∧
        t.regs = s.regs) ∧
  (∀ (m : Master) (d : Word) (r : Report) (s : State), Takes m Reg.EVR_RPT s →
      EvrOpen (d.toNat / 2 ^ 24 % 16) s →
      ((d.toNat / 2 ^ 24 % 16) = 1 ∨ 6 ≤ (d.toNat / 2 ^ 24 % 16)) ∧ ((d.toNat / 2 ^ 16 % 16) = 0 ∨ 13 ≤ (d.toNat / 2 ^ 16 % 16)) ∧ (d.toNat / 2 ^ 8 % 8) ≤ 4 →
      (s.selectors (d.toNat / 2 ^ 24 % 16)).all (fun x => !(isSecOperand (0x40000000 + 4 * x))) = true →
      s.evr.queue.length < 16 ∧ s.evr.staged = some r ∧ s.evr.writing = true ∧ s.evr.gap = false →
      (s.on (EVR_CLS.NOCOAL (d.toNat / 2 ^ 24 % 16)) || s.evr.queue.getLast?.all (fun q => !(sameReport q { form := 0, cls := (d.toNat / 2 ^ 24 % 16), source := (d.toNat / 2 ^ 16 % 16), arg0 := (if (d.toNat / 2 ^ 8 % 8) = 0 then 0 else s.reg (Reg.EVR_RPTARG 0)), payload := [] }))) = true →
      ∃ t, exec (.eventReport m d) s = .next t ∧
        t.evr.queue.map (fun r => (r.form, r.cls, r.source)) = s.evr.queue.map (fun r => (r.form, r.cls, r.source)) ++ [(0, (d.toNat / 2 ^ 24 % 16), (d.toNat / 2 ^ 16 % 16))] ∧
        t.evr.queue.map (fun r => (r.arg0, r.payload, r.rep)) = s.evr.queue.map (fun r => (r.arg0, r.payload, r.rep)) ++ [((if (d.toNat / 2 ^ 8 % 8) = 0 then 0 else s.reg (Reg.EVR_RPTARG 0)), (snapPayload (d.toNat / 2 ^ 24 % 16) (((List.range (d.toNat / 2 ^ 8 % 8)).map (fun k => (s.reg (Reg.EVR_RPTARG k)).toNat)).flatMap (leBytes 4)) s).1, 1)] ∧
        t.evr.staged = some r ∧
        Sparse.get (fun _ => 0#32) t.evr.rptStat (masterId m) = 0 ∧
        t.mem = s.mem ∧
        t.regs = s.regs) ∧
  (∀ (m : Master) (d : Word) (r : Report) (s : State), Takes m Reg.EVR_RPT s →
      EvrOpen (d.toNat / 2 ^ 24 % 16) s →
      ((d.toNat / 2 ^ 24 % 16) = 1 ∨ 6 ≤ (d.toNat / 2 ^ 24 % 16)) ∧ ((d.toNat / 2 ^ 16 % 16) = 0 ∨ 13 ≤ (d.toNat / 2 ^ 16 % 16)) ∧ (d.toNat / 2 ^ 8 % 8) ≤ 4 →
      (s.selectors (d.toNat / 2 ^ 24 % 16)).all (fun x => !(isSecOperand (0x40000000 + 4 * x))) = true →
      16 ≤ s.evr.queue.length ∧ s.evr.staged = some r →
      (s.on (EVR_CLS.NOCOAL (d.toNat / 2 ^ 24 % 16)) || s.evr.queue.getLast?.all (fun q => !(sameReport q { form := 0, cls := (d.toNat / 2 ^ 24 % 16), source := (d.toNat / 2 ^ 16 % 16), arg0 := (if (d.toNat / 2 ^ 8 % 8) = 0 then 0 else s.reg (Reg.EVR_RPTARG 0)), payload := [] }))) = true →
      ∃ t, exec (.eventReport m d) s = .next t ∧
        t.get (⟨Reg.EVR_DROP ((d.toNat / 2 ^ 16 % 16) / 4), 8 * ((d.toNat / 2 ^ 16 % 16) % 4), 8⟩ : Field) = min (s.get (⟨Reg.EVR_DROP ((d.toNat / 2 ^ 16 % 16) / 4), 8 * ((d.toNat / 2 ^ 16 % 16) % 4), 8⟩ : Field) + 1) 255 ∧
        t.on EVR_IRQ.DROP = true ∧
        t.evr.queue = s.evr.queue ∧ t.evr.staged = some r ∧
        Sparse.get (fun _ => 0#32) t.evr.rptStat (masterId m) = 2 ∧
        t.mem = s.mem ∧
        RegsBut [Reg.EVR_DROP ((d.toNat / 2 ^ 16 % 16) / 4), Reg.EVR_IRQ] s t) ∧
  (∀ (m : Master) (d : Word) (s : State), Takes m Reg.EVR_RPT s →
      s.on EVR_CFG.EN = false ∨ s.on (EVR_CLS.EN (d.toNat / 2 ^ 24 % 16)) = false ∨ ¬(((d.toNat / 2 ^ 24 % 16) = 1 ∨ 6 ≤ (d.toNat / 2 ^ 24 % 16)) ∧ ((d.toNat / 2 ^ 16 % 16) = 0 ∨ 13 ≤ (d.toNat / 2 ^ 16 % 16)) ∧ (d.toNat / 2 ^ 8 % 8) ≤ 4) →
      ∃ t, exec (.eventReport m d) s = .next t ∧
        t.evr.queue = s.evr.queue ∧ t.evr.staged = s.evr.staged ∧
        Sparse.get (fun _ => 0#32) t.evr.rptStat (masterId m) = 3 ∧
        t.mem = s.mem ∧
        t.regs = s.regs) ∧
  (∀ (m : Master) (d : Word) (s : State), Takes m Reg.EVR_RPT s →
      inSram (s.reg Reg.EVR_VADDR).toNat (d.toNat % 256) = true →
      s.on EVR_CFG.EN = false ∨ s.on (EVR_CLS.EN (d.toNat / 2 ^ 24 % 16)) = false ∨ ¬(((d.toNat / 2 ^ 24 % 16) = 1 ∨ 6 ≤ (d.toNat / 2 ^ 24 % 16)) ∧ ((d.toNat / 2 ^ 16 % 16) = 0 ∨ 13 ≤ (d.toNat / 2 ^ 16 % 16)) ∧ (d.toNat % 256) ≤ 240) →
      ∃ t, exec (.variableReport m d) s = .next t ∧
        t.evr.queue = s.evr.queue ∧ t.evr.staged = s.evr.staged ∧
        Sparse.get (fun _ => 0#32) t.evr.rptStat (masterId m) = 3 ∧
        t.mem = s.mem ∧
        t.regs = s.regs) ∧
  (∀ (m : Master) (d : Word) (s : State), Takes m Reg.EVR_RPT s →
      ((d.toNat / 2 ^ 24 % 16) = 1 ∨ 6 ≤ (d.toNat / 2 ^ 24 % 16)) ∧ ((d.toNat / 2 ^ 16 % 16) = 0 ∨ 13 ≤ (d.toNat / 2 ^ 16 % 16)) ∧ (d.toNat % 256) ≤ 240 →
      inSram (s.reg Reg.EVR_VADDR).toNat (d.toNat % 256) = false →
      s.on (EVR_CLS.EN 4) = false →
      ∃ t, exec (.variableReport m d) s = .next t ∧
        t.evr.queue = s.evr.queue ∧ t.evr.staged = s.evr.staged ∧
        Sparse.get (fun _ => 0#32) t.evr.rptStat (masterId m) = 3 ∧
        t.mem = s.mem) ∧
  (∀ (m : Master) (d : Word) (r : Report) (s : State), Takes m Reg.EVR_RPT s →
      EvrOpen (d.toNat / 2 ^ 24 % 16) s →
      ((d.toNat / 2 ^ 24 % 16) = 1 ∨ 6 ≤ (d.toNat / 2 ^ 24 % 16)) ∧ ((d.toNat / 2 ^ 16 % 16) = 0 ∨ 13 ≤ (d.toNat / 2 ^ 16 % 16)) ∧ (d.toNat % 256) ≤ 240 →
      inSram (s.reg Reg.EVR_VADDR).toNat (d.toNat % 256) = true →
      s.evr.queue.length < 16 ∧ s.evr.queue.all (fun q => q.form == 0) = true →
      s.evr.staged = some r ∧ r.form = 0 ∧ s.evr.writing = true →
      ∃ t, exec (.variableReport m d) s = .next t ∧
        t.evr.queue = s.evr.queue ++ [{ form := 1, cls := (d.toNat / 2 ^ 24 % 16), source := (d.toNat / 2 ^ 16 % 16), arg0 := 0, payload := s.bytes (s.reg Reg.EVR_VADDR).toNat (d.toNat % 256) }] ∧
        t.evr.staged = some r ∧
        Sparse.get (fun _ => 0#32) t.evr.rptStat (masterId m) = 0 ∧
        t.mem = s.mem ∧
        t.regs = s.regs) ∧
  (∀ (m : Master) (d : Word) (s : State), Takes m Reg.EVR_RPT s →
      EvrOpen (d.toNat / 2 ^ 24 % 16) s →
      ((d.toNat / 2 ^ 24 % 16) = 1 ∨ 6 ≤ (d.toNat / 2 ^ 24 % 16)) ∧ ((d.toNat / 2 ^ 16 % 16) = 0 ∨ 13 ≤ (d.toNat / 2 ^ 16 % 16)) ∧ (d.toNat % 256) ≤ 240 →
      inSram (s.reg Reg.EVR_VADDR).toNat (d.toNat % 256) = true →
      EVR_STAT.VCOPY.of s.evrStat = 1 →
      ∃ t, exec (.variableReport m d) s = .next t ∧
        t.get (⟨Reg.EVR_DROP ((d.toNat / 2 ^ 16 % 16) / 4), 8 * ((d.toNat / 2 ^ 16 % 16) % 4), 8⟩ : Field) = min (s.get (⟨Reg.EVR_DROP ((d.toNat / 2 ^ 16 % 16) / 4), 8 * ((d.toNat / 2 ^ 16 % 16) % 4), 8⟩ : Field) + 1) 255 ∧
        t.on EVR_IRQ.DROP = true ∧
        t.evr.queue = s.evr.queue ∧ t.evr.staged = s.evr.staged ∧
        Sparse.get (fun _ => 0#32) t.evr.rptStat (masterId m) = 2 ∧
        t.mem = s.mem ∧
        RegsBut [Reg.EVR_DROP ((d.toNat / 2 ^ 16 % 16) / 4), Reg.EVR_IRQ] s t) ∧
  (∀ (r : Report) (s : State), EvrDue r s →
      s.on (EVR_CLS.NOCOAL r.cls) = true ∨ r.cls = 2 ∨ s.draining = true ∨ s.evr.queue ≠ [] ∨ s.evr.alarm.isSome = true ∨ s.evr.stagedAt + 25000000 * max 1 (s.get EVR_CFG.COALT) ≤ s.now →
      ∃ t, exec (.stagingWrite) s = .next t ∧
        t.evr.writing = true ∧
        (t.bank (s.on EVR_STORE.BANK)).prog.map (fun j => (j.user, j.addr, j.left)) = some (.evr, s.evrUnitAddr (s.get EVR_POS.BLK) (s.get EVR_POS.UNIT), 2) ∧
        t.evr.staged = some r ∧
        t.evr.queue = s.evr.queue ∧
        t.mem = s.mem) ∧
  (∀ (r : Report) (s : State), EvrDue r s →
      ∃ t, exec (.coalesceTimeout) s = .next t ∧
        t.evr.writing = true ∧
        (t.bank (s.on EVR_STORE.BANK)).prog.map (fun j => (j.user, j.addr, j.left)) = some (.evr, s.evrUnitAddr (s.get EVR_POS.BLK) (s.get EVR_POS.UNIT), 2) ∧
        t.evr.staged = some r ∧
        t.evr.queue = s.evr.queue ∧
        t.mem = s.mem) ∧
  (∀ (r : Report) (s : State), Core Reg.EVR_CMD s →
      EvrDue r s →
      ∃ t, exec (.evrFlush) s = .next t ∧
        t.evr.writing = true ∧
        (t.bank (s.on EVR_STORE.BANK)).prog.map (fun j => (j.user, j.addr, j.left)) = some (.evr, s.evrUnitAddr (s.get EVR_POS.BLK) (s.get EVR_POS.UNIT), 2) ∧
        t.evr.staged = some r ∧
        t.evr.queue = s.evr.queue ∧
        t.mem = s.mem) ∧
  (∀ (c : Instr) (s : State), s.evr.writing = true ∨ s.evr.clearWait = true ∨ s.evr.clearing ≠ 0 ∨ s.on EVR_STAT.READY = false ∨ s.evrClocked = false ∨ (s.evr.staged = none ∧ s.evr.queue = [] ∧ s.evr.alarm = none) →
      c ∈ [.stagingWrite, .coalesceTimeout] →
      ∃ t, exec (c) s = .next t ∧
        t = s) ∧
  (∀ (s : State), Core Reg.EVR_CMD s →
      s.evr.writing = true ∨ s.evr.clearWait = true ∨ s.evr.clearing ≠ 0 ∨ s.on EVR_STAT.READY = false ∨ s.evrClocked = false ∨ (s.evr.staged = none ∧ s.evr.queue = [] ∧ s.evr.alarm = none) →
      ∃ t, exec (.evrFlush) s = .next t ∧
        t = s) ∧
  (∀ (r : Report) (s : State), s.evr.staged = some r ∧ r.form = 0 →
      ¬(s.on (EVR_CLS.NOCOAL r.cls) = true ∨ r.cls = 2 ∨ s.draining = true ∨ s.evr.queue ≠ [] ∨ s.evr.alarm.isSome = true ∨ s.evr.stagedAt + 25000000 * max 1 (s.get EVR_CFG.COALT) ≤ s.now) →
      ∃ t, exec (.stagingWrite) s = .next t ∧
        t = s) ∧
  (∀ (r : Report) (s : State), s.evr.writing = false ∧ s.evr.clearWait = false ∧ s.evr.clearing = 0 ∧ s.on EVR_STAT.READY = true ∧ s.evrClocked = true →
      s.evr.staged = some r ∧ r.form = 0 ∧ s.evr.queue = [] ∧ s.evr.alarm = none →
      s.anyDrop = false →
      s.on EVR_STORE.EN = false →
      ∃ t, exec (.coalesceTimeout) s = .next t ∧
        t.evr.writing = false ∧ t.evr.staged = none ∧
        t.get EVR_LOST.COUNT = (s.get EVR_LOST.COUNT + 1) % 2 ^ EVR_LOST.COUNT.w ∧
        t.nvm = s.nvm ∧
        t.mem = s.mem ∧
        RegsBut [Reg.EVR_LOST] s t) ∧
  (∀ (r : Report) (s : State), Core Reg.EVR_CMD s →
      s.evr.writing = false ∧ s.evr.clearWait = false ∧ s.evr.clearing = 0 ∧ s.on EVR_STAT.READY = true ∧ s.evrClocked = true →
      s.evr.staged = some r ∧ r.form = 0 ∧ s.evr.queue = [] ∧ s.evr.alarm = none →
      s.anyDrop = false →
      s.on EVR_STORE.EN = false →
      ∃ t, exec (.evrFlush) s = .next t ∧
        t.evr.writing = false ∧ t.evr.staged = none ∧
        t.get EVR_LOST.COUNT = (s.get EVR_LOST.COUNT + 1) % 2 ^ EVR_LOST.COUNT.w ∧
        t.nvm = s.nvm ∧
        t.mem = s.mem ∧
        RegsBut [Reg.EVR_LOST] s t) ∧
  (∀ (r : Report) (s : State), s.evr.writing = false ∧ s.evr.clearWait = false ∧ s.evr.clearing = 0 ∧ s.on EVR_STAT.READY = true ∧ s.evrClocked = true →
      s.evr.staged = some r ∧ r.form = 0 ∧ s.evr.queue = [] ∧ s.evr.alarm = none →
      s.on EVR_STORE.EN = true ∧ s.on EVR_CFG.STOP = true →
      s.on EVR_STAT.FULL = true ∨ (s.anyDrop = false ∧ 128 * s.evrBlocks < s.evr.used + 2 ∧ s.get EVR_POS.UNIT + 2 ≤ 128) →
      ∃ t, exec (.coalesceTimeout) s = .next t ∧
        t.evr.writing = false ∧ t.evr.staged = none ∧
        t.get EVR_LOST.COUNT = (s.get EVR_LOST.COUNT + 1) % 2 ^ EVR_LOST.COUNT.w ∧
        t.on EVR_STAT.FULL = true ∧
        t.on EVR_IRQ.FULL = (s.on EVR_IRQ.FULL || !(s.on EVR_STAT.FULL)) ∧
        t.nvm = s.nvm ∧
        t.mem = s.mem ∧
        RegsBut [Reg.EVR_LOST, Reg.EVR_STAT, Reg.EVR_IRQ] s t) ∧
  (∀ (r : Report) (s : State), s.evr.writing = false ∧ s.evr.clearWait = false ∧ s.evr.clearing = 0 ∧ s.on EVR_STAT.READY = true ∧ s.evrClocked = true →
      s.evr.staged = some r →
      s.evr.queue.length < 16 ∧ s.anyDrop = true →
      s.on EVR_STORE.EN = true ∧ s.on EVR_CFG.STOP = false →
      388 ≤ s.get EVR_STORE.FIRST ∧ s.get EVR_STORE.FIRST + s.get EVR_POS.BLK ≤ 495 →
      BankIdle (s.on EVR_STORE.BANK) s ∧ (s.bank (s.on EVR_STORE.BANK)).free ≠ [] →
      0 < s.get EVR_POS.UNIT ∧ s.get EVR_POS.UNIT + 1 ≤ 128 →
      s.unitErased (s.evrUnitAddr (s.get EVR_POS.BLK) (s.get EVR_POS.UNIT)) = true ∧ s.xtsUnusable (s.evrUnitAddr (s.get EVR_POS.BLK) (s.get EVR_POS.UNIT)) = false →
      ∃ t, exec (.coalesceTimeout) s = .next t ∧
        t.evr.writing = true ∧ t.evr.gap = true ∧
        (t.bank (s.on EVR_STORE.BANK)).prog.map (fun j => (j.user, j.addr, j.left)) = some (.evr, s.evrUnitAddr (s.get EVR_POS.BLK) (s.get EVR_POS.UNIT), 1) ∧
        t.evr.staged = some r ∧
        t.anyDrop = false ∧
        t.mem = s.mem) ∧
  (∀ (s : State), Core Reg.EVR_CMD s →
      s.evr.writing = true ∧ s.evr.clearing = 0 →
      ∃ t, exec (.evrClear) s = .next t ∧
        t = s.modEvr (fun e => { e with clearWait := true })) ∧
  (∀ (s : State), Core Reg.EVR_CMD s →
      s.evr.clearing ≠ 0 →
      ∃ t, exec (.evrClear) s = .next t ∧
        t = s) ∧
  (∀ (s : State), Core Reg.EVR_CMD s →
      s.evr.writing = false ∧ s.evr.clearing = 0 →
      388 ≤ s.get EVR_STORE.FIRST ∧ 0 < s.evrBlocks ∧ s.get EVR_STORE.FIRST + s.evrBlocks ≤ 496 →
      BankIdle (s.on EVR_STORE.BANK) s →
      (s.bank (s.on EVR_STORE.BANK)).free ≠ [] →
      ∃ t, exec (.evrClear) s = .next t ∧
        t.evr = { s.evr with clearWait := false, clearing := s.evrBlocks } ∧
        (t.bank (s.on EVR_STORE.BANK)).erase = some ⟨.evr, s.get EVR_STORE.FIRST, false⟩ ∧
        (t.bank (s.on EVR_STORE.BANK)).eraseQ.map (·.block) = (List.range (s.evrBlocks - 1)).map (fun b => s.get EVR_STORE.FIRST + 1 + b) ∧
        t.mem = s.mem) ∧
  (∀ (s : State), s.on NVM_STAT.READY = true ∧ s.evrClocked = true ∧ s.on EVR_STAT.READY = false →
      s.evr.queue = [] ∧ s.evr.staged = none ∧ s.evr.alarm = none →
      s.evrRecords = [] →
      ∃ t, exec (.evrScan) s = .next t ∧
        t.on EVR_STAT.READY = true ∧
        t.get EVR_POS.BLK = 0 ∧ t.get EVR_POS.UNIT = 0 ∧
        t.evr.used = 0 ∧ t.evr.seq = 0 ∧ t.evr.fromPor = false ∧
        t.reg Reg.EVR_OPSEC = (if s.evr.fromPor then 0 else s.reg Reg.EVR_OPSEC) ∧
        t.reg Reg.EVR_PCYC = (if s.evr.fromPor then 0 else s.reg Reg.EVR_PCYC) ∧
        t.mem = s.mem ∧
        RegsBut [Reg.EVR_STAT, Reg.EVR_POS, Reg.EVR_SEQ, Reg.EVR_OPSEC, Reg.EVR_PCYC] s t) ∧
  (∀ (u q n : Nat) (s : State), s.on NVM_STAT.READY = true ∧ s.evrClocked = true ∧ s.on EVR_STAT.READY = false →
      s.evr.queue = [] ∧ s.evr.staged = none ∧ s.evr.alarm = none →
      s.evrRecords = [(u, q, n)] →
      0 < n ∧ n ≤ 128 ∧ q < 65536 ∧ 2 ≤ s.evrBlocks ∧ u < 128 * s.evrBlocks →
      ∃ t, exec (.evrScan) s = .next t ∧
        t.on EVR_STAT.READY = true ∧
        t.get EVR_SEQ.NEWEST = q ∧ t.get EVR_SEQ.OLDEST = q ∧
        t.evr.seq = (q + 1) % 65536 ∧
        t.get EVR_POS.BLK * 128 + t.get EVR_POS.UNIT = ((u + n) % (128 * s.evrBlocks)) ∧
        t.evr.used = n ∧
        t.reg Reg.EVR_OPSEC = (if s.evr.fromPor then BitVec.ofNat 32 (leNat (((s.nvmBytes (s.evrUnitAddr (u / 128) (u % 128)) 16).drop 4).take 4)) else s.reg Reg.EVR_OPSEC) ∧
        t.reg Reg.EVR_PCYC = (if s.evr.fromPor then BitVec.ofNat 32 (min (2 ^ 24 - 1) (leNat (((s.nvmBytes (s.evrUnitAddr (u / 128) (u % 128)) 16).drop 8).take 3) + 1)) else s.reg Reg.EVR_PCYC) ∧
        t.mem = s.mem ∧
        RegsBut [Reg.EVR_STAT, Reg.EVR_POS, Reg.EVR_SEQ, Reg.EVR_OPSEC, Reg.EVR_PCYC] s t) ∧
  (∀ (s : State), s.on NVM_STAT.READY = false ∨ s.evrClocked = false ∨ s.on EVR_STAT.READY = true →
      ∃ t, exec (.evrScan) s = .next t ∧
        t = s)

/-- The boot ROM: choosing a slot, its services, trial and ID_UPD. BOOT_SELECT as the ROM acts on a reset with the NVM ready; the services as firmware in machine mode calls them, with recovery not entered; the trial timer and ID_UPD. A candidate is a complete slot without REJECT; the first candidate is the only one or the newer of two. A service returns its status in g1 at the address in g31, keeps g16 to g31, STATUS and every register not named, and writes 0x200FE000 to 0x200FEFFF; unless its clause says otherwise it writes no other memory. g2 to g15 and that scratch area are free values (log 29). The operands nvA, nvB and nv are NVM statuses met beyond the model's own tests. (1) With STRAP.RUN low the ROM enters recovery with the host port on; the core's state and memory stay. (2) So it does with no candidate. (3) It then writes a variable record of class 1, source 1, of 36 bytes: VER 1, OUTCOME 4, slot 0xFF, marks 0 (the recorder ready with nothing waiting; its versions and SEQ are free values). (4) A confirmed first candidate whose images pass is started: the pc at its base plus ENTRY, g1 its base, g2 its Weft image or 0, g3 ID_BOOTSTAT, every other register 0, the rest of the core as after reset but the software lines, the receive-parameter defaults in control SRAM, TRIALEXP and TRIAL 0, SLOT the slot; the trial timer stays as it was. (5) Where the unprogrammed words of a kind's counter up to the SVN of its image can be programmed, its floor is then at least that SVN. (6) A first candidate in trial that passes, its trial not over and its next mark's unit free, is started as well, TRIAL 1, with that mark programmed and the timer running, from 120 s unless it ran already. (7) A start writes a variable record of class 0, source 1, of 36 bytes: VER 1, for a confirmed slot with none rejected OUTCOME 1, the slot (the recorder ready with nothing waiting). (8) A sole candidate whose checks fail gets REJECT with the status and FELLBACK sets; no other byte changes, and recovery follows. (9) Where the other slot is a confirmed candidate that passes, that one is started. (10) A sole candidate whose trial is over gets REJECT with a status that is a free value (log 29), as the spec names none; recovery follows. (11) A sole candidate whose verification meets an NVM status is not rejected; recovery follows. (12) With nothing due, the core not running or the NVM not ready the ROM does nothing. (13) VERIFY of an area's header gives FORMAT, SIGNATURE, ROLLBACK or OK, in this order. (14) With a wrong MAGIC anywhere it gives FORMAT. (15) BEGIN erases the state block of the other slot. (16) With the erase refused or failing it answers NVM. (17) With the running slot in trial BEGIN answers BADSTATE. (18) FINISH of a slot that passes, its SLOTREC's unit free, programs that record: complete, SEQ one on from the running slot's, the images present, 19 bytes 0. (19) FINISH of a slot that does not pass returns the status, (20) COMPAT where it holds no image. (21) With the program refused or failing it answers NVM. (22) CONFIRM in trial programs its unit, ends the slot's trial and stops the timer. (23) With the program refused or failing it answers NVM and the timer goes on. (24) Out of trial it answers BADSTATE. (25) VERSION returns the ROM version, an opaque constant of the model. (26) Without firmware running in machine mode, or in recovery, no service can be called: nothing changes (log 29). (27) TRIAL_EXPIRY with RUN set resets the part with cause SOFT and sets TRIALEXP, in every state but off and outside a power-on reset. (28) With RUN clear or in off it does nothing. (29) TRIAL_STOP, taken by the bus, stops the timer at its count. (30) ID_UPD_WRITE, taken by the bus, stores the word but its reserved bits; PEND sets with any REQ other than 0. -/
def Obligations.BootRom : Prop :=
  (∀ (nvA nvB : BitVec 8) (vbatOk : Bool) (s : State), s.boot.due = true ∧ s.coreRuns = true ∧ s.on NVM_STAT.READY = true →
      s.on GPIO_STRAP.RUN = false →
      ∃ t, exec (.bootSelect nvA nvB vbatOk) s = .next t ∧
        t.boot.recovery = true ∧ t.boot.due = false ∧ t.boot.owner = none ∧
        t.on SPIS_CTRL.EN = true ∧ t.on SYSC_CLKGATE.SPIS = true ∧
        t.core = s.core ∧
        t.mem = s.mem) ∧
  (∀ (nvA nvB : BitVec 8) (vbatOk : Bool) (s : State), RomBoots s →
      candidate false s = false ∧ candidate true s = false →
      ∃ t, exec (.bootSelect nvA nvB vbatOk) s = .next t ∧
        t.boot.recovery = true ∧ t.boot.due = false ∧ t.boot.owner = none ∧
        t.on SPIS_CTRL.EN = true ∧ t.on SYSC_CLKGATE.SPIS = true ∧
        t.core = s.core ∧
        t.mem = s.mem) ∧
  (∀ (nvA nvB : BitVec 8) (vbatOk : Bool) (s : State), RomBoots s →
      candidate false s = false ∧ candidate true s = false →
      EvrOpen 1 s ∧ s.evr.queue = [] ∧ s.evr.staged = none ∧ s.evr.alarm = none ∧ s.on EVR_STAT.READY = true ∧ s.draining = false →
      ∃ t, exec (.bootSelect nvA nvB vbatOk) s = .next t ∧
        t.evr.staged.map (fun r => (r.form, r.cls, r.source)) = some (1, 1, 1) ∧
        t.evr.staged.map (fun r => r.payload.take 4) = some [1, 4, 0xFF, 0] ∧
        t.evr.staged.map (fun r => r.payload.length) = some 36) ∧
  (∀ (k : Bool) (nvA nvB : BitVec 8) (vbatOk : Bool) (s : State), RomBoots s →
      FirstSlot k s →
      (if k then nvB.toNat else nvA.toNat) = 0 ∧ slotCheck k s = 0 →
      s.slotTrial k = false →
      ∃ t, exec (.bootSelect nvA nvB vbatOk) s = .next t ∧
        t.boot.recovery = s.boot.recovery ∧ t.boot.due = false ∧
        t.core = { swLines := s.core.swLines, cpu := { g := t.core.cpu.g, pc := t.core.cpu.pc } } ∧
        t.core.cpu.pc = BitVec.ofNat 32 (nvmBlockAddr k 0 + s.imgN (nvmBlockAddr k 0) 0x10 4) ∧
        t.core.cpu.get 1 = BitVec.ofNat 32 (nvmBlockAddr k 0) ∧
        t.core.cpu.get 2 = (if s.present k 2 then BitVec.ofNat 32 (areaAddr k 2) else 0) ∧
        t.core.cpu.get 3 = t.reg Reg.ID_BOOTSTAT ∧
        t.on ID_BOOTSTAT.TRIALEXP = false ∧
        t.bytes 0x200FF000 512 = (List.range 16).flatMap (fun _ => leBytes 2 2047 ++ [10, 8, 7, 0x1F, 0, 0x0F, 0] ++ List.replicate 23 0) ∧
        (t.get ID_BOOTSTAT.SLOT = if k then 1 else 0) ∧
        t.on ID_BOOTSTAT.TRIAL = false ∧
        t.on ID_TRIAL.RUN = s.on ID_TRIAL.RUN ∧
        (∀ r : BitVec 5, 4 ≤ r.toNat → t.core.cpu.get r = 0)) ∧
  (∀ (k : Bool) (nvA nvB : BitVec 8) (vbatOk : Bool) (kind : Nat) (s : State), RomBoots s →
      FirstSlot k s →
      (if k then nvB.toNat else nvA.toNat) = 0 ∧ slotCheck k s = 0 →
      s.slotTrial k = false →
      1 ≤ kind ∧ kind ≤ 3 ∧ s.present k kind = true →
      s.imgN (areaAddr k kind) 7 1 ≤ 64 →
      (∀ i < s.imgN (areaAddr k kind) 7 1, s.otpWord (counterAt kind + 4 * i) = 0 → otpTest (0x08800000 + counterAt kind + 4 * i) vbatOk s = none) →
      ∃ t, exec (.bootSelect nvA nvB vbatOk) s = .next t ∧
        s.imgN (areaAddr k kind) 7 1 ≤ t.romFloor kind) ∧
  (∀ (k : Bool) (nvA nvB : BitVec 8) (vbatOk : Bool) (s : State), RomBoots s →
      FirstSlot k s →
      (if k then nvB.toNat else nvA.toNat) = 0 ∧ slotCheck k s = 0 →
      s.slotTrial k = true ∧ trialOver k s = false ∧ s.slotMarks k < 3 →
      Programs (stateUnit k (s.slotMarks k + 1)) s →
      ∃ t, exec (.bootSelect nvA nvB vbatOk) s = .next t ∧
        t.boot.recovery = s.boot.recovery ∧ t.boot.due = false ∧
        t.core = { swLines := s.core.swLines, cpu := { g := t.core.cpu.g, pc := t.core.cpu.pc } } ∧
        t.core.cpu.pc = BitVec.ofNat 32 (nvmBlockAddr k 0 + s.imgN (nvmBlockAddr k 0) 0x10 4) ∧
        t.core.cpu.get 1 = BitVec.ofNat 32 (nvmBlockAddr k 0) ∧
        t.core.cpu.get 2 = (if s.present k 2 then BitVec.ofNat 32 (areaAddr k 2) else 0) ∧
        t.core.cpu.get 3 = t.reg Reg.ID_BOOTSTAT ∧
        t.on ID_BOOTSTAT.TRIALEXP = false ∧
        t.bytes 0x200FF000 512 = (List.range 16).flatMap (fun _ => leBytes 2 2047 ++ [10, 8, 7, 0x1F, 0, 0x0F, 0] ++ List.replicate 23 0) ∧
        (t.get ID_BOOTSTAT.SLOT = if k then 1 else 0) ∧
        t.on ID_BOOTSTAT.TRIAL = true ∧
        t.get ID_BOOTSTAT.MARKS = t.slotMarks k ∧
        t.bytes (stateUnit k (s.slotMarks k + 1)) 32 = [1] ++ List.replicate 31 0 ∧
        t.on ID_TRIAL.RUN = true ∧
        t.get ID_TRIAL.REMAIN = (if s.on ID_TRIAL.RUN then s.get ID_TRIAL.REMAIN else 120) ∧
        (∀ r : BitVec 5, 4 ≤ r.toNat → t.core.cpu.get r = 0)) ∧
  (∀ (k : Bool) (nvA nvB : BitVec 8) (vbatOk : Bool) (s : State), RomBoots s →
      FirstSlot k s →
      (if k then nvB.toNat else nvA.toNat) = 0 ∧ slotCheck k s = 0 →
      s.slotTrial k = false ∧ s.on ID_BOOTSTAT.FELLBACK = false →
      EvrOpen 0 s ∧ s.evr.queue = [] ∧ s.evr.staged = none ∧ s.evr.alarm = none ∧ s.on EVR_STAT.READY = true ∧ s.draining = false →
      ∃ t, exec (.bootSelect nvA nvB vbatOk) s = .next t ∧
        t.evr.staged.map (fun r => (r.form, r.cls, r.source)) = some (1, 0, 1) ∧
        t.evr.staged.map (fun r => r.payload.take 3) = some [1, 1, if k then 1 else 0] ∧
        t.evr.staged.map (fun r => r.payload.length) = some 36) ∧
  (∀ (k : Bool) (nvA nvB : BitVec 8) (vbatOk : Bool) (st : Nat) (s : State), RomBoots s →
      FirstSlot k s ∧ candidate (!k) s = false →
      trialOver k s = false ∨ s.slotTrial k = false →
      (if k then nvB.toNat else nvA.toNat) = 0 ∧ slotCheck k s = st ∧ st ≠ 0 ∧ st < 256 →
      Programs (stateUnit k 5) s →
      ∃ t, exec (.bootSelect nvA nvB vbatOk) s = .next t ∧
        t.boot.recovery = true ∧ t.boot.due = false ∧ t.boot.owner = none ∧
        t.on SPIS_CTRL.EN = true ∧ t.on SYSC_CLKGATE.SPIS = true ∧
        t.on ID_BOOTSTAT.FELLBACK = true ∧
        t.bytes (stateUnit k 5) 32 = leBytes 4 st ++ List.replicate 28 0 ∧
        t.core = s.core ∧
        Outside (stateUnit k 5) 32 s t) ∧
  (∀ (k : Bool) (nvA nvB : BitVec 8) (vbatOk : Bool) (st : Nat) (s : State), RomBoots s →
      FirstSlot k s ∧ candidate (!k) s = true →
      s.slotTrial (!k) = false →
      trialOver k s = false ∨ s.slotTrial k = false →
      nvA = 0 ∧ nvB = 0 ∧ slotCheck k s = st ∧ st ≠ 0 ∧ st < 256 ∧ slotCheck (!k) s = 0 →
      Programs (stateUnit k 5) s →
      ∃ t, exec (.bootSelect nvA nvB vbatOk) s = .next t ∧
        t.boot.recovery = s.boot.recovery ∧ t.boot.due = false ∧
        t.bytes (stateUnit k 5) 32 = leBytes 4 st ++ List.replicate 28 0 ∧
        t.on ID_BOOTSTAT.FELLBACK = true ∧
        (t.get ID_BOOTSTAT.SLOT = if k then 0 else 1) ∧
        t.core.cpu.pc = BitVec.ofNat 32 (nvmBlockAddr (!k) 0 + s.imgN (nvmBlockAddr (!k) 0) 0x10 4)) ∧
  (∀ (k : Bool) (nvA nvB : BitVec 8) (vbatOk : Bool) (s : State), RomBoots s →
      FirstSlot k s ∧ candidate (!k) s = false →
      s.slotTrial k = true ∧ trialOver k s = true →
      Programs (stateUnit k 5) s →
      ∃ t, exec (.bootSelect nvA nvB vbatOk) s = .next t ∧
        t.boot.recovery = true ∧ t.boot.due = false ∧ t.boot.owner = none ∧
        t.on SPIS_CTRL.EN = true ∧ t.on SYSC_CLKGATE.SPIS = true ∧
        t.on ID_BOOTSTAT.FELLBACK = true ∧
        t.core = s.core ∧
        (∃ d : Nat, t.bytes (stateUnit k 5) 32 = leBytes 4 ((Config.freeWord d).toNat % 256) ++ List.replicate 28 0) ∧
        Outside (stateUnit k 5) 32 s t) ∧
  (∀ (k : Bool) (nvA nvB : BitVec 8) (vbatOk : Bool) (s : State), RomBoots s →
      FirstSlot k s ∧ candidate (!k) s = false →
      trialOver k s = false ∨ s.slotTrial k = false →
      (if k then nvB.toNat else nvA.toNat) ≠ 0 →
      ∃ t, exec (.bootSelect nvA nvB vbatOk) s = .next t ∧
        t.boot.recovery = true ∧ t.boot.due = false ∧ t.boot.owner = none ∧
        t.on SPIS_CTRL.EN = true ∧ t.on SYSC_CLKGATE.SPIS = true ∧
        t.on ID_BOOTSTAT.FELLBACK = s.on ID_BOOTSTAT.FELLBACK ∧
        t.mem = s.mem ∧
        t.core = s.core) ∧
  (∀ (nvA nvB : BitVec 8) (vbatOk : Bool) (s : State), ¬(s.boot.due = true ∧ s.coreRuns = true ∧ s.on NVM_STAT.READY = true) →
      ∃ t, exec (.bootSelect nvA nvB vbatOk) s = .next t ∧
        t = s) ∧
  (∀ (k : Bool) (kind : Nat) (s : State), RomReady s →
      1 ≤ kind ∧ kind ≤ 3 →
      (s.core.cpu.get 1).toNat = areaAddr k kind →
      ∃ t, exec (.romVerify) s = .next t ∧
        t.regs = s.regs ∧
        Returned (if imageForm (areaAddr k kind) kind s = false then 0x41 else if imageSigned (areaAddr k kind) s = false then 0x42 else if s.imgN (areaAddr k kind) 7 1 < s.romFloor kind then 0x43 else 0) s t ∧
        Outside 0x200FE000 4096 s t) ∧
  (∀ (s : State), RomReady s →
      s.imgN (s.core.cpu.get 1).toNat 0 4 ≠ 0x474D494C →
      ∃ t, exec (.romVerify) s = .next t ∧
        t.regs = s.regs ∧
        Returned 0x41 s t ∧
        Outside 0x200FE000 4096 s t) ∧
  (∀ (s : State), RomReady s →
      s.slotTrial s.runSlot = false →
      eraseTest (stateUnit (!s.runSlot) 0) s = none →
      ∃ t, exec (.romBegin 0) s = .next t ∧
        Returned 0 s t ∧
        (∀ b, (b < 0x200FE000 ∨ 0x200FF000 ≤ b) → t.rb b = if stateUnit (!s.runSlot) 0 ≤ b ∧ b < stateUnit (!s.runSlot) 0 + 4096 then 0xFF else s.rb b)) ∧
  (∀ (nv : BitVec 8) (s : State), RomReady s →
      s.slotTrial s.runSlot = false →
      nv ≠ 0 ∨ eraseTest (stateUnit (!s.runSlot) 0) s ≠ none →
      ∃ t, exec (.romBegin nv) s = .next t ∧
        t.regs = s.regs ∧
        Returned 0x45 s t ∧
        Outside 0x200FE000 4096 s t) ∧
  (∀ (nv : BitVec 8) (s : State), RomReady s →
      s.slotTrial s.runSlot = true →
      ∃ t, exec (.romBegin nv) s = .next t ∧
        t.regs = s.regs ∧
        Returned 0x40 s t ∧
        Outside 0x200FE000 4096 s t) ∧
  (∀ (s : State), RomReady s →
      slotCheck (!s.runSlot) s = 0 →
      Programs (stateUnit (!s.runSlot) 0) s →
      s.slotSeq s.runSlot < 2 ^ 32 - 1 →
      ∃ t, exec (.romFinish 0) s = .next t ∧
        t.slotComplete (!s.runSlot) = true ∧ t.slotSeq (!s.runSlot) = s.slotSeq s.runSlot + 1 ∧
        t.bytes (stateUnit (!s.runSlot) 0 + 8) 20 = leBytes 1 ([1, 2, 3].foldl (fun v x => v + (if s.present (!s.runSlot) x then 2 ^ (x - 1) else 0)) 0) ++ List.replicate 19 0 ∧
        t.regs = s.regs ∧
        Returned 0 s t ∧
        (∀ b, (b < 0x200FE000 ∨ 0x200FF000 ≤ b) → (b < stateUnit (!s.runSlot) 0 ∨ stateUnit (!s.runSlot) 0 + 32 ≤ b) → t.rb b = s.rb b)) ∧
  (∀ (nv : BitVec 8) (st : Nat) (s : State), RomReady s →
      slotCheck (!s.runSlot) s = st ∧ st ≠ 0 →
      ∃ t, exec (.romFinish nv) s = .next t ∧
        t.regs = s.regs ∧
        Returned (BitVec.ofNat 32 st) s t ∧
        Outside 0x200FE000 4096 s t) ∧
  (∀ (nv : BitVec 8) (s : State), RomReady s →
      (∀ k ∈ imageKinds, s.present (!s.runSlot) k = false) →
      ∃ t, exec (.romFinish nv) s = .next t ∧
        t.regs = s.regs ∧
        Returned 0x44 s t ∧
        Outside 0x200FE000 4096 s t) ∧
  (∀ (nv : BitVec 8) (s : State), RomReady s →
      slotCheck (!s.runSlot) s = 0 →
      nv ≠ 0 ∨ progTest (stateUnit (!s.runSlot) 0) 1 none s ≠ none →
      ∃ t, exec (.romFinish nv) s = .next t ∧
        t.regs = s.regs ∧
        Returned 0x45 s t ∧
        Outside 0x200FE000 4096 s t) ∧
  (∀ (s : State), RomReady s →
      s.slotTrial s.runSlot = true →
      Programs (stateUnit s.runSlot 4) s →
      ∃ t, exec (.romConfirm 0) s = .next t ∧
        t.bytes (stateUnit s.runSlot 4) 32 = [1] ++ List.replicate 31 0 ∧
        t.slotTrial s.runSlot = false ∧
        t.on ID_TRIAL.RUN = false ∧
        RegsBut [Reg.ID_TRIAL] s t ∧
        Returned 0 s t ∧
        (∀ b, (b < 0x200FE000 ∨ 0x200FF000 ≤ b) → (b < stateUnit s.runSlot 4 ∨ stateUnit s.runSlot 4 + 32 ≤ b) → t.rb b = s.rb b)) ∧
  (∀ (nv : BitVec 8) (s : State), RomReady s →
      s.slotTrial s.runSlot = true →
      nv ≠ 0 ∨ progTest (stateUnit s.runSlot 4) 1 none s ≠ none →
      ∃ t, exec (.romConfirm nv) s = .next t ∧
        t.regs = s.regs ∧
        Returned 0x45 s t ∧
        Outside 0x200FE000 4096 s t) ∧
  (∀ (nv : BitVec 8) (s : State), RomReady s →
      s.slotTrial s.runSlot = false →
      ∃ t, exec (.romConfirm nv) s = .next t ∧
        t.regs = s.regs ∧
        Returned 0x40 s t ∧
        Outside 0x200FE000 4096 s t) ∧
  (∀ (s : State), RomReady s →
      ∃ t, exec (.romVersion) s = .next t ∧
        t.regs = s.regs ∧
        Returned Config.romVersion s t ∧
        Outside 0x200FE000 4096 s t) ∧
  (∀ (c : Instr) (nv : BitVec 8) (s : State), s.coreRuns = false ∨ s.boot.due = true ∨ s.boot.recovery = true ∨ s.core.status.getLsbD 8 = true →
      c ∈ [.romVerify, .romBegin nv, .romFinish nv, .romConfirm nv, .romVersion] →
      ∃ t, exec (c) s = .next t ∧
        t = s) ∧
  (∀ (s : State), s.on ID_TRIAL.RUN = true →
      s.power.st ≠ .off ∧ s.power.por = false →
      ∃ t, exec (.trialExpiry) s = .next t ∧
        t.on ID_BOOTSTAT.TRIALEXP = true ∧
        t.on ID_TRIAL.RUN = false ∧
        ResetTo SYSC_RSTCAUSE.SOFT s t) ∧
  (∀ (s : State), s.on ID_TRIAL.RUN = false ∨ s.power.st = .off →
      ∃ t, exec (.trialExpiry) s = .next t ∧
        t = s) ∧
  (∀ (s : State), Core Reg.ID_TRIAL s →
      ∃ t, exec (.trialStop) s = .next t ∧
        t.on ID_TRIAL.RUN = false ∧
        t.get ID_TRIAL.REMAIN = ID_TRIAL.REMAIN.of s.idTrial ∧
        t.mem = s.mem ∧
        RegsBut [Reg.ID_TRIAL] s t) ∧
  (∀ (m : Master) (d : Word) (s : State), Takes m Reg.ID_UPD s →
      ∃ t, exec (.idUpdWrite m d) s = .next t ∧
        t.reg Reg.ID_UPD = (d &&& 0x80FF00FF) ||| (if d.toNat % 256 = 0 then 0 else 0x80000000) ∧
        t.mem = s.mem ∧
        RegsBut [Reg.ID_UPD] s t)

/-- Recovery mode over the host port and the ring. RINFO, RERASE, RWRITE, RFINISH, ROTP and RBOOT at a part in recovery, through either port: the host's, ready for a frame, or the ring's, in a whole APP frame of another position that the numbered part takes. The reply is the host's next, or a frame that waits for the part's slot. The other port does not own recovery where the clause does not say so. Memory, registers but the host port's own and the boot state stay where the clause says so. The operand nv is an NVM status met beyond the model's own tests. (1) RINFO gives ROM version, revision, target, usable keys, address, both SEQ, the floors and 0. (2) RERASE by the owner erases every block of the area, and nothing else. (3) The first RERASE makes its port the owner and erases the target's state block too. (4) Of an unknown area it answers RANGE (log 29). (5) An erase that fails answers NVM with its status. (6) RWRITE by the owner of whole erased units within the area programs them, and nothing else. (7) The first RWRITE makes its port the owner and erases the target's state block. (8) A programmed unit written again answers NVM with OVERWRITE. (9) A program that fails answers NVM with its status. (10) Other areas, offsets and lengths answer RANGE. (11) RFINISH of a target that passes programs its SLOTREC with the other slot's SEQ plus 1, or 1, and answers that SEQ. (12) Of one that does not pass it answers the status, (13) COMPAT where it holds no image. (14) A program that fails answers NVM with its status. (15) A refused RFINISH writes a variable record of class 1, source 1: VER 1, OUTCOME 5, the slot and the status (the recorder ready with nothing waiting). (16) ROTP of an open word of its ranges programs it. (17) Of an aligned word that cannot be programmed it answers OTPFAIL with the NVM status, (18) of a misaligned one NVM with BADARG (log 29), (19) with VBAT low OTPFAIL with LOWV, (20) outside its ranges RANGE. (21) RBOOT resets the part with cause SOFT, outside a power-on reset. (22) A port that does not own recovery, the other one owning it, is answered BADSTATE to every command. (23) Out of recovery the host port answers BADCMD to every one. -/
def Obligations.Recovery : Prop :=
  (∀ (p : RecPort) (s : State), RecOpen p s →
      ∃ t, exec (.rinfo p) s = .next t ∧
        recAnswer p 0 s.rinfo s t = true ∧
        s.rinfo = leBytes 4 Config.romVersion.toNat ++ leBytes 2 ((s.reg Reg.ID_REV).toNat % 2 ^ 16) ++ [if s.target then 1 else 0] ++ leBytes 1 ((List.range 4).foldl (fun v k => v + (if s.keyUsable k then 2 ^ k else 0)) 0) ++ leBytes 4 (s.reg Reg.ID_EXTADDR_LO).toNat ++ leBytes 4 (s.reg Reg.ID_EXTADDR_HI).toNat ++ leBytes 4 (s.slotSeq false) ++ leBytes 4 (s.slotSeq true) ++ [1, 2, 3].flatMap (fun x => leBytes 1 (s.romFloor x)) ++ [0] ∧
        t.boot = s.boot ∧
        t.mem = s.mem ∧
        RegsBut [Reg.SPIS_STAT, Reg.SPIS_IRQ, Reg.SPIS_ATTN] s t) ∧
  (∀ (p : RecPort) (kind : BitVec 8) (s : State), RecOwned p s →
      1 ≤ kind.toNat ∧ kind.toNat ≤ 3 →
      (∀ i < (areaBlocks kind.toNat).2, eraseTest (areaAddr s.target kind.toNat + 4096 * i) s = none) →
      ∃ t, exec (.rerase p kind 0) s = .next t ∧
        recAnswer p 0 [] s t = true ∧
        t.boot.owner = s.boot.owner ∧
        (∀ b, t.rb b = if areaAddr s.target kind.toNat ≤ b ∧ b < areaAddr s.target kind.toNat + areaSize kind.toNat then 0xFF else s.rb b)) ∧
  (∀ (p : RecPort) (kind : BitVec 8) (s : State), RecOpen p s →
      s.boot.owner = none →
      1 ≤ kind.toNat ∧ kind.toNat ≤ 3 →
      (eraseTest (stateUnit s.target 0) s = none ∧ ∀ i < (areaBlocks kind.toNat).2, eraseTest (areaAddr s.target kind.toNat + 4096 * i) s = none) →
      ∃ t, exec (.rerase p kind 0) s = .next t ∧
        recAnswer p 0 [] s t = true ∧
        t.boot.owner = some (portId p) ∧
        (∀ b, t.rb b = if (areaAddr s.target kind.toNat ≤ b ∧ b < areaAddr s.target kind.toNat + areaSize kind.toNat) ∨ (stateUnit s.target 0 ≤ b ∧ b < stateUnit s.target 0 + 4096) then 0xFF else s.rb b)) ∧
  (∀ (p : RecPort) (kind nv : BitVec 8) (s : State), RecOpen p s →
      kind = 0 ∨ 3 < kind.toNat →
      ∃ t, exec (.rerase p kind nv) s = .next t ∧
        recAnswer p 0x46 [] s t = true ∧
        t.boot = s.boot ∧
        t.mem = s.mem ∧
        RegsBut [Reg.SPIS_STAT, Reg.SPIS_IRQ, Reg.SPIS_ATTN] s t) ∧
  (∀ (p : RecPort) (kind nv : BitVec 8) (s : State), RecOwned p s →
      1 ≤ kind.toNat ∧ kind.toNat ≤ 3 →
      nv ≠ 0 →
      ∃ t, exec (.rerase p kind nv) s = .next t ∧
        recAnswer p 0x45 [nv] s t = true ∧
        t.boot = s.boot ∧
        t.mem = s.mem ∧
        RegsBut [Reg.SPIS_STAT, Reg.SPIS_IRQ, Reg.SPIS_ATTN] s t) ∧
  (∀ (p : RecPort) (kind : BitVec 8) (off : Word) (d : List (BitVec 8)) (s : State), RecOwned p s →
      1 ≤ kind.toNat ∧ kind.toNat ≤ 3 ∧ off.toNat % 32 = 0 ∧ d.length % 32 = 0 ∧ 32 ≤ d.length ∧ d.length ≤ 2016 ∧ off.toNat + d.length ≤ areaSize kind.toNat →
      (∀ i < d.length / 32, Programs (areaAddr s.target kind.toNat + off.toNat + 32 * i) s) →
      ∃ t, exec (.rwrite p kind off d 0) s = .next t ∧
        recAnswer p 0 [] s t = true ∧
        t.bytes (areaAddr s.target kind.toNat + off.toNat) d.length = d ∧
        t.boot.owner = s.boot.owner ∧
        Outside (areaAddr s.target kind.toNat + off.toNat) d.length s t) ∧
  (∀ (p : RecPort) (kind : BitVec 8) (off : Word) (d : List (BitVec 8)) (s : State), RecOpen p s →
      s.boot.owner = none →
      1 ≤ kind.toNat ∧ kind.toNat ≤ 3 ∧ off.toNat % 32 = 0 ∧ d.length % 32 = 0 ∧ 32 ≤ d.length ∧ d.length ≤ 2016 ∧ off.toNat + d.length ≤ areaSize kind.toNat →
      (∀ i < d.length / 32, Programs (areaAddr s.target kind.toNat + off.toNat + 32 * i) s) →
      eraseTest (stateUnit s.target 0) s = none →
      ∃ t, exec (.rwrite p kind off d 0) s = .next t ∧
        recAnswer p 0 [] s t = true ∧
        t.bytes (areaAddr s.target kind.toNat + off.toNat) d.length = d ∧
        t.boot.owner = some (portId p) ∧
        (∀ b, (b < areaAddr s.target kind.toNat + off.toNat ∨ areaAddr s.target kind.toNat + off.toNat + d.length ≤ b) → t.rb b = if stateUnit s.target 0 ≤ b ∧ b < stateUnit s.target 0 + 4096 then 0xFF else s.rb b)) ∧
  (∀ (p : RecPort) (kind : BitVec 8) (off : Word) (d : List (BitVec 8)) (s : State), RecOwned p s →
      1 ≤ kind.toNat ∧ kind.toNat ≤ 3 ∧ off.toNat % 32 = 0 ∧ d.length % 32 = 0 ∧ 32 ≤ d.length ∧ d.length ≤ 2016 ∧ off.toNat + d.length ≤ areaSize kind.toNat →
      progTest (areaAddr s.target kind.toNat + off.toNat) 1 none s = some nvOverwrite →
      ∃ t, exec (.rwrite p kind off d 0) s = .next t ∧
        recAnswer p 0x45 [3] s t = true ∧
        t.boot = s.boot ∧
        t.mem = s.mem ∧
        RegsBut [Reg.SPIS_STAT, Reg.SPIS_IRQ, Reg.SPIS_ATTN] s t) ∧
  (∀ (p : RecPort) (kind : BitVec 8) (off : Word) (d : List (BitVec 8)) (nv : BitVec 8) (s : State), RecOwned p s →
      1 ≤ kind.toNat ∧ kind.toNat ≤ 3 ∧ off.toNat % 32 = 0 ∧ d.length % 32 = 0 ∧ 32 ≤ d.length ∧ d.length ≤ 2016 ∧ off.toNat + d.length ≤ areaSize kind.toNat →
      nv ≠ 0 →
      ∃ t, exec (.rwrite p kind off d nv) s = .next t ∧
        recAnswer p 0x45 [nv] s t = true ∧
        t.boot = s.boot ∧
        t.mem = s.mem ∧
        RegsBut [Reg.SPIS_STAT, Reg.SPIS_IRQ, Reg.SPIS_ATTN] s t) ∧
  (∀ (p : RecPort) (kind : BitVec 8) (off : Word) (d : List (BitVec 8)) (nv : BitVec 8) (s : State), RecOpen p s →
      ¬(1 ≤ kind.toNat ∧ kind.toNat ≤ 3 ∧ off.toNat % 32 = 0 ∧ d.length % 32 = 0 ∧ 32 ≤ d.length ∧ d.length ≤ 2016 ∧ off.toNat + d.length ≤ areaSize kind.toNat) →
      d.length ≤ 2040 →
      ∃ t, exec (.rwrite p kind off d nv) s = .next t ∧
        recAnswer p 0x46 [] s t = true ∧
        t.boot = s.boot ∧
        t.mem = s.mem ∧
        RegsBut [Reg.SPIS_STAT, Reg.SPIS_IRQ, Reg.SPIS_ATTN] s t) ∧
  (∀ (p : RecPort) (s : State), RecOpen p s →
      slotCheck s.target s = 0 →
      Programs (stateUnit s.target 0) s →
      s.slotSeq (!s.target) < 2 ^ 32 - 1 →
      ∃ t, exec (.rfinish p 0) s = .next t ∧
        recAnswer p 0 (leBytes 4 (if s.slotComplete (!s.target) then s.slotSeq (!s.target) + 1 else 1)) s t = true ∧
        t.slotComplete s.target = true ∧ t.slotSeq s.target = (if s.slotComplete (!s.target) then s.slotSeq (!s.target) + 1 else 1) ∧
        t.boot = s.boot ∧
        Outside (stateUnit s.target 0) 32 s t) ∧
  (∀ (p : RecPort) (nv : BitVec 8) (st : Nat) (s : State), RecOpen p s →
      slotCheck s.target s = st ∧ st ≠ 0 →
      ∃ t, exec (.rfinish p nv) s = .next t ∧
        recAnswer p st [] s t = true ∧
        t.mem = s.mem) ∧
  (∀ (p : RecPort) (nv : BitVec 8) (s : State), RecOpen p s →
      (∀ k ∈ imageKinds, s.present s.target k = false) →
      ∃ t, exec (.rfinish p nv) s = .next t ∧
        recAnswer p 0x44 [] s t = true ∧
        t.mem = s.mem) ∧
  (∀ (p : RecPort) (nv : BitVec 8) (s : State), RecOpen p s →
      slotCheck s.target s = 0 →
      nv ≠ 0 →
      ∃ t, exec (.rfinish p nv) s = .next t ∧
        recAnswer p 0x45 [nv] s t = true ∧
        t.mem = s.mem) ∧
  (∀ (p : RecPort) (s : State), RecOpen p s →
      slotCheck s.target s ≠ 0 →
      EvrOpen 1 s ∧ s.evr.queue = [] ∧ s.evr.staged = none ∧ s.evr.alarm = none ∧ s.on EVR_STAT.READY = true ∧ s.draining = false →
      ∃ t, exec (.rfinish p 0) s = .next t ∧
        t.evr.staged.map (fun r => (r.form, r.cls, r.source)) = some (1, 1, 1) ∧
        t.evr.staged.map (fun r => r.payload.take 3) = some [1, 5, if s.target then 1 else 0] ∧
        t.evr.staged.map (fun r => (r.payload.drop 29).take 1) = some (leBytes 1 (slotCheck s.target s))) ∧
  (∀ (p : RecPort) (off : BitVec 16) (v : Word) (vbatOk : Bool) (s : State), RecOpen p s →
      ((0x3000 ≤ off.toNat ∧ off.toNat < 0x3C00) ∨ off.toNat = 0x3F08) →
      otpTest (0x08800000 + off.toNat) vbatOk s = none →
      ∃ t, exec (.rotp p off v vbatOk) s = .next t ∧
        recAnswer p 0 [0] s t = true ∧
        t.otpWord off.toNat = v ∧
        t.boot = s.boot ∧
        RegsBut [Reg.SPIS_STAT, Reg.SPIS_IRQ, Reg.SPIS_ATTN] s t ∧
        Outside (0x08800000 + off.toNat) 4 s t) ∧
  (∀ (p : RecPort) (off : BitVec 16) (v : Word) (vbatOk : Bool) (st : Nat) (s : State), RecOpen p s →
      ((0x3000 ≤ off.toNat ∧ off.toNat < 0x3C00) ∨ off.toNat = 0x3F08) →
      off.toNat % 4 = 0 →
      otpTest (0x08800000 + off.toNat) vbatOk s = some st →
      ∃ t, exec (.rotp p off v vbatOk) s = .next t ∧
        recAnswer p 0x47 (leBytes 1 st) s t = true ∧
        t.boot = s.boot ∧
        t.mem = s.mem ∧
        RegsBut [Reg.SPIS_STAT, Reg.SPIS_IRQ, Reg.SPIS_ATTN] s t) ∧
  (∀ (p : RecPort) (off : BitVec 16) (v : Word) (vbatOk : Bool) (s : State), RecOpen p s →
      ((0x3000 ≤ off.toNat ∧ off.toNat < 0x3C00) ∨ off.toNat = 0x3F08) →
      off.toNat % 4 ≠ 0 →
      ∃ t, exec (.rotp p off v vbatOk) s = .next t ∧
        recAnswer p 0x45 [1] s t = true ∧
        t.boot = s.boot ∧
        t.mem = s.mem ∧
        RegsBut [Reg.SPIS_STAT, Reg.SPIS_IRQ, Reg.SPIS_ATTN] s t) ∧
  (∀ (p : RecPort) (off : BitVec 16) (v : Word) (s : State), RecOpen p s →
      ((0x3000 ≤ off.toNat ∧ off.toNat < 0x3C00) ∨ off.toNat = 0x3F08) →
      off.toNat % 4 = 0 →
      otpTest (0x08800000 + off.toNat) true s = none →
      ∃ t, exec (.rotp p off v false) s = .next t ∧
        recAnswer p 0x47 [8] s t = true ∧
        t.mem = s.mem ∧
        RegsBut [Reg.SPIS_STAT, Reg.SPIS_IRQ, Reg.SPIS_ATTN] s t) ∧
  (∀ (p : RecPort) (off : BitVec 16) (v : Word) (vbatOk : Bool) (s : State), RecOpen p s →
      ¬((0x3000 ≤ off.toNat ∧ off.toNat < 0x3C00) ∨ off.toNat = 0x3F08) →
      ∃ t, exec (.rotp p off v vbatOk) s = .next t ∧
        recAnswer p 0x46 [] s t = true ∧
        t.boot = s.boot ∧
        t.mem = s.mem ∧
        RegsBut [Reg.SPIS_STAT, Reg.SPIS_IRQ, Reg.SPIS_ATTN] s t) ∧
  (∀ (p : RecPort) (s : State), RecOpen p s →
      s.power.st ≠ .off ∧ s.power.por = false →
      ∃ t, exec (.rboot p) s = .next t ∧
        ResetTo SYSC_RSTCAUSE.SOFT s t) ∧
  (∀ (p : RecPort) (c : Instr) (kind nv : BitVec 8) (off : Word) (o2 : BitVec 16) (v : Word) (d : List (BitVec 8)) (vbatOk : Bool) (s : State), portTakes p s = true ∧ s.boot.recovery = true ∧ s.boot.owner = some (!(portId p)) →
      d.length ≤ 2040 →
      c ∈ [.rinfo p, .rerase p kind nv, .rwrite p kind off d nv, .rfinish p nv, .rotp p o2 v vbatOk, .rboot p] →
      ∃ t, exec (c) s = .next t ∧
        recAnswer p 0x40 [] s t = true ∧
        t.boot = s.boot ∧ t.power = s.power ∧
        t.mem = s.mem ∧
        RegsBut [Reg.SPIS_STAT, Reg.SPIS_IRQ, Reg.SPIS_ATTN] s t) ∧
  (∀ (tag : BitVec 4) (c : Instr) (kind nv : BitVec 8) (off : Word) (o2 : BitVec 16) (v : Word) (d : List (BitVec 8)) (vbatOk : Bool) (s : State), HostReady s →
      s.boot.recovery = false →
      d.length ≤ 2040 →
      c ∈ [.rinfo (.host tag), .rerase (.host tag) kind nv, .rwrite (.host tag) kind off d nv, .rfinish (.host tag) nv, .rotp (.host tag) o2 v vbatOk, .rboot (.host tag)] →
      ∃ t, exec (c) s = .next t ∧
        t.spis.kept = some ⟨2, tag.toNat, []⟩ ∧
        t.boot = s.boot ∧ t.power = s.power ∧
        t.mem = s.mem ∧
        RegsBut [Reg.SPIS_STAT, Reg.SPIS_IRQ, Reg.SPIS_ATTN] s t)
end

