-- ==== Sys2Proof/Laws/Sparse.lean ====
section
/-! SUPPORT. Laws/Sparse.lean: what reading, writing and clearing do to a sparse map, and that each keeps its canonical
form. -/
namespace Sys2Proof.Machine

variable {w : Nat} {d : Nat → BitVec w}

theorem Sparse.get_erase_same (m : Sparse w) (a : Nat) : Sparse.get d (Sparse.erase m a) a = d a := by
  induction m with
  | nil => rfl
  | cons e m ih =>
    simp only [Sparse.erase]
    split
    · exact ih
    · rename_i h
      simp only [Sparse.get, if_neg h, ih]

theorem Sparse.get_erase_other (m : Sparse w) {a b : Nat} (h : b ≠ a) :
    Sparse.get d (Sparse.erase m a) b = Sparse.get d m b := by
  induction m with
  | nil => rfl
  | cons e m ih =>
    simp only [Sparse.erase]
    split
    · rename_i he
      rw [ih, Sparse.get, if_neg (by rw [he]; exact fun x => h x.symm)]
    · simp only [Sparse.get, ih]

theorem Sparse.get_insert_same (m : Sparse w) (a : Nat) (x : BitVec w) : Sparse.get d (Sparse.insert m a x) a = x := by
  induction m with
  | nil => simp [Sparse.insert, Sparse.get]
  | cons e m ih =>
    simp only [Sparse.insert]
    split
    · simp [Sparse.get]
    · split
      · simp [Sparse.get]
      · rename_i h
        simp only [Sparse.get, ih]
        rw [if_neg (fun x => h x.symm)]

theorem Sparse.get_insert_other (m : Sparse w) {a b : Nat} (x : BitVec w) (h : b ≠ a) :
    Sparse.get d (Sparse.insert m a x) b = Sparse.get d m b := by
  have h' : ¬ a = b := fun e => h e.symm
  induction m with
  | nil => simp [Sparse.insert, Sparse.get, h']
  | cons e m ih =>
    simp only [Sparse.insert]
    split
    · rw [Sparse.get, if_neg h']
    · split
      · rename_i he
        rw [Sparse.get, if_neg h', Sparse.get_erase_other m h, Sparse.get, if_neg (by rw [← he]; exact h')]
      · simp only [Sparse.get, ih]

/-- A write is read back. -/
@[simp] theorem Sparse.get_set_same (m : Sparse w) (a : Nat) (x : BitVec w) : Sparse.get d (Sparse.set d m a x) a = x := by
  unfold Sparse.set
  split
  · rename_i h
    rw [Sparse.get_erase_same, h]
  · exact Sparse.get_insert_same m a x

/-- A write leaves every other address alone. -/
theorem Sparse.get_set_other (m : Sparse w) {a b : Nat} (x : BitVec w) (h : b ≠ a) :
    Sparse.get d (Sparse.set d m a x) b = Sparse.get d m b := by
  unfold Sparse.set
  split
  · exact Sparse.get_erase_other m h
  · exact Sparse.get_insert_other m x h

/-- What is read after a write. -/
theorem Sparse.get_set (m : Sparse w) (a b : Nat) (x : BitVec w) :
    Sparse.get d (Sparse.set d m a x) b = if b = a then x else Sparse.get d m b := by
  split
  · rename_i h
    rw [h, Sparse.get_set_same]
  · rename_i h
    exact Sparse.get_set_other m x h

theorem Sparse.mem_erase {m : Sparse w} {a : Nat} {e : Nat × BitVec w} (h : e ∈ Sparse.erase m a) : e ∈ m := by
  induction m with
  | nil => exact h
  | cons f m ih =>
    simp only [Sparse.erase] at h
    split at h
    · exact List.mem_cons_of_mem _ (ih h)
    · rcases List.mem_cons.mp h with h | h
      · exact h ▸ List.mem_cons_self
      · exact List.mem_cons_of_mem _ (ih h)

theorem Sparse.mem_insert {m : Sparse w} {a : Nat} {x : BitVec w} {e : Nat × BitVec w} (h : e ∈ Sparse.insert m a x) :
    e = (a, x) ∨ e ∈ m := by
  induction m with
  | nil => exact .inl (by simpa [Sparse.insert] using h)
  | cons f m ih =>
    simp only [Sparse.insert] at h
    split at h
    · exact (List.mem_cons.mp h).imp id id
    · split at h
      · exact (List.mem_cons.mp h).imp id (fun x => List.mem_cons_of_mem _ (Sparse.mem_erase x))
      · rcases List.mem_cons.mp h with h | h
        · exact .inr (h ▸ List.mem_cons_self)
        · exact (ih h).imp id (List.mem_cons_of_mem _)

/-- The canonical form as a proposition, by its first entry. -/
theorem Sparse.wf_cons {m : Sparse w} {k : Nat} {v : BitVec w} :
    Sparse.wf d ((k, v) :: m) = true ↔ v ≠ d k ∧ (∀ e ∈ m, k < e.1) ∧ Sparse.wf d m = true := by
  simp [Sparse.wf, and_assoc]

theorem Sparse.wf_filter {m : Sparse w} (p : Nat × BitVec w → Bool) (h : Sparse.wf d m = true) :
    Sparse.wf d (m.filter p) = true := by
  induction m with
  | nil => exact h
  | cons e m ih =>
    obtain ⟨hv, hk, hm⟩ := Sparse.wf_cons.mp h
    simp only [List.filter_cons]
    split
    · exact Sparse.wf_cons.mpr ⟨hv, fun e he => hk e ((List.mem_filter.mp he).1), ih hm⟩
    · exact ih hm

theorem Sparse.wf_erase {m : Sparse w} (a : Nat) (h : Sparse.wf d m = true) : Sparse.wf d (Sparse.erase m a) = true := by
  induction m with
  | nil => exact h
  | cons e m ih =>
    obtain ⟨hv, hk, hm⟩ := Sparse.wf_cons.mp h
    simp only [Sparse.erase]
    split
    · exact ih hm
    · exact Sparse.wf_cons.mpr ⟨hv, fun e he => hk e (Sparse.mem_erase he), ih hm⟩

theorem Sparse.wf_insert {m : Sparse w} (a : Nat) {x : BitVec w} (hx : x ≠ d a) (h : Sparse.wf d m = true) :
    Sparse.wf d (Sparse.insert m a x) = true := by
  induction m with
  | nil => simp [Sparse.insert, Sparse.wf, hx]
  | cons e m ih =>
    obtain ⟨hv, hk, hm⟩ := Sparse.wf_cons.mp h
    simp only [Sparse.insert]
    split
    · rename_i hlt
      refine Sparse.wf_cons.mpr ⟨hx, fun f hf => ?_, h⟩
      rcases List.mem_cons.mp hf with rfl | hf
      · exact hlt
      · exact Nat.lt_trans hlt (hk f hf)
    · split
      · rename_i he
        refine Sparse.wf_cons.mpr ⟨hx, fun f hf => he ▸ hk f (Sparse.mem_erase hf), Sparse.wf_erase a hm⟩
      · rename_i hn hne
        refine Sparse.wf_cons.mpr ⟨hv, fun f hf => ?_, ih hm⟩
        rcases Sparse.mem_insert hf with rfl | hf
        · show e.1 < a
          omega
        · exact hk f hf

/-- A write keeps the canonical form. -/
theorem Sparse.wf_set {m : Sparse w} (a : Nat) (x : BitVec w) (h : Sparse.wf d m = true) :
    Sparse.wf d (Sparse.set d m a x) = true := by
  unfold Sparse.set
  split
  · exact Sparse.wf_erase a h
  · rename_i hx
    exact Sparse.wf_insert a hx h

/-- Clearing keeps the canonical form. -/
theorem Sparse.wf_clear {m : Sparse w} (p : Nat → Bool) (h : Sparse.wf d m = true) : Sparse.wf d (Sparse.clear m p) = true :=
  Sparse.wf_filter _ h

/-- Another default that agrees on the listed addresses. -/
theorem Sparse.wf_congr {d' : Nat → BitVec w} {m : Sparse w} (hd : ∀ e ∈ m, d' e.1 = d e.1) (h : Sparse.wf d m = true) :
    Sparse.wf d' m = true := by
  induction m with
  | nil => rfl
  | cons e m ih =>
    obtain ⟨hv, hk, hm⟩ := Sparse.wf_cons.mp h
    refine Sparse.wf_cons.mpr ⟨?_, hk, ih (fun f hf => hd f (List.mem_cons_of_mem _ hf)) hm⟩
    have := hd e List.mem_cons_self
    rw [this]
    exact hv

theorem Sparse.get_filter_in {m : Sparse w} (p : Nat → Bool) {a : Nat} (h : p a = true) :
    Sparse.get d (m.filter (fun e => p e.1)) a = Sparse.get d m a := by
  induction m with
  | nil => rfl
  | cons e m ih =>
    simp only [List.filter_cons]
    split
    · simp only [Sparse.get, ih]
    · rename_i he
      rw [ih, Sparse.get, if_neg (fun x => he (by rw [x]; exact h))]

theorem Sparse.get_filter_out {m : Sparse w} (p : Nat → Bool) {a : Nat} (h : p a = false) :
    Sparse.get d (m.filter (fun e => p e.1)) a = d a := by
  induction m with
  | nil => rfl
  | cons e m ih =>
    simp only [List.filter_cons]
    split
    · rename_i he
      simp only [Sparse.get, ih]
      rw [if_neg (fun x => by rw [x, h] at he; exact Bool.noConfusion he)]
    · exact ih

/-- Two maps in canonical form that read alike everywhere are one list. -/
theorem Sparse.ext {m n : Sparse w} (hm : Sparse.wf d m = true) (hn : Sparse.wf d n = true)
    (h : ∀ a, Sparse.get d m a = Sparse.get d n a) : m = n := by
  have low {l : Sparse w} {a : Nat} (hl : ∀ e ∈ l, a < e.1) : Sparse.get d l a = d a := by
    induction l with
    | nil => rfl
    | cons f l ih =>
      have h1 := hl f List.mem_cons_self
      rw [Sparse.get, if_neg (by omega)]
      exact ih (fun e he => hl e (List.mem_cons_of_mem _ he))
  induction m generalizing n with
  | nil =>
    cases n with
    | nil => rfl
    | cons f n =>
      obtain ⟨hv, _, _⟩ := Sparse.wf_cons.mp hn
      have := h f.1
      simp only [Sparse.get, if_true] at this
      exact absurd this.symm hv
  | cons e m ih =>
    obtain ⟨hv, hk, hm'⟩ := Sparse.wf_cons.mp hm
    cases n with
    | nil =>
      have := h e.1
      simp only [Sparse.get, if_true] at this
      exact absurd this hv
    | cons f n =>
      obtain ⟨hv2, hk2, hn'⟩ := Sparse.wf_cons.mp hn
      have hkey : e.1 = f.1 := by
        rcases Nat.lt_trichotomy e.1 f.1 with hlt | heq | hlt
        · have := h e.1
          rw [Sparse.get, if_pos rfl, Sparse.get, if_neg (by omega), low (fun g hg => Nat.lt_trans hlt (hk2 g hg))] at this
          exact absurd this hv
        · exact heq
        · have := h f.1
          rw [Sparse.get, if_neg (by omega), low (fun g hg => Nat.lt_trans hlt (hk g hg)), Sparse.get, if_pos rfl] at this
          exact absurd this.symm hv2
      have hval : e.2 = f.2 := by
        have := h e.1
        rw [Sparse.get, if_pos rfl, Sparse.get, if_pos hkey.symm] at this
        exact this
      have hrest : m = n := by
        refine ih hm' hn' (fun a => ?_)
        by_cases ha : e.1 < a
        · have := h a
          rwa [Sparse.get, if_neg (by omega), Sparse.get, if_neg (by omega)] at this
        · rw [low (fun g hg => by have := hk g hg; omega), low (fun g hg => by have := hk2 g hg; omega)]
      rw [hrest, Prod.ext hkey hval]

end Sys2Proof.Machine
end

