-- ==== Sys2Proof/Laws/State.lean ====
section
/-! SUPPORT. Laws/State.lean: one lemma per field per named update of the state. -/
namespace Sys2Proof.Machine

variable (s : State)

/-! ### State.setReg -/

@[simp] theorem State.setReg_pending (a : Nat) (v : Word) : (s.setReg a v).pending = s.pending := rfl
@[simp] theorem State.setReg_now (a : Nat) (v : Word) : (s.setReg a v).now = s.now := rfl
@[simp] theorem State.setReg_free (a : Nat) (v : Word) : (s.setReg a v).free = s.free := rfl
@[simp] theorem State.setReg_totals (a : Nat) (v : Word) : (s.setReg a v).totals = s.totals := rfl
@[simp] theorem State.setReg_mem (a : Nat) (v : Word) : (s.setReg a v).mem = s.mem := rfl
@[simp] theorem State.setReg_bus (a : Nat) (v : Word) : (s.setReg a v).bus = s.bus := rfl
@[simp] theorem State.setReg_tick (a : Nat) (v : Word) : (s.setReg a v).tick = s.tick := rfl
@[simp] theorem State.setReg_pins (a : Nat) (v : Word) : (s.setReg a v).pins = s.pins := rfl
@[simp] theorem State.setReg_power (a : Nat) (v : Word) : (s.setReg a v).power = s.power := rfl
@[simp] theorem State.setReg_boot (a : Nat) (v : Word) : (s.setReg a v).boot = s.boot := rfl
@[simp] theorem State.setReg_core (a : Nat) (v : Word) : (s.setReg a v).core = s.core := rfl
@[simp] theorem State.setReg_shtl (a : Nat) (v : Word) : (s.setReg a v).shtl = s.shtl := rfl
@[simp] theorem State.setReg_rfrx (a : Nat) (v : Word) : (s.setReg a v).rfrx = s.rfrx := rfl
@[simp] theorem State.setReg_loom (a : Nat) (v : Word) : (s.setReg a v).loom = s.loom := rfl
@[simp] theorem State.setReg_demod (a : Nat) (v : Word) : (s.setReg a v).demod = s.demod := rfl
@[simp] theorem State.setReg_tx (a : Nat) (v : Word) : (s.setReg a v).tx = s.tx := rfl
@[simp] theorem State.setReg_mac (a : Nat) (v : Word) : (s.setReg a v).mac = s.mac := rfl
@[simp] theorem State.setReg_sec (a : Nat) (v : Word) : (s.setReg a v).sec = s.sec := rfl
@[simp] theorem State.setReg_tbl (a : Nat) (v : Word) : (s.setReg a v).tbl = s.tbl := rfl
@[simp] theorem State.setReg_time (a : Nat) (v : Word) : (s.setReg a v).time = s.time := rfl
@[simp] theorem State.setReg_tmr (a : Nat) (v : Word) : (s.setReg a v).tmr = s.tmr := rfl
@[simp] theorem State.setReg_nvm (a : Nat) (v : Word) : (s.setReg a v).nvm = s.nvm := rfl
@[simp] theorem State.setReg_spim (a : Nat) (v : Word) : (s.setReg a v).spim = s.spim := rfl
@[simp] theorem State.setReg_spis (a : Nat) (v : Word) : (s.setReg a v).spis = s.spis := rfl
@[simp] theorem State.setReg_rtc (a : Nat) (v : Word) : (s.setReg a v).rtc = s.rtc := rfl
@[simp] theorem State.setReg_msu (a : Nat) (v : Word) : (s.setReg a v).msu = s.msu := rfl
@[simp] theorem State.setReg_twil (a : Nat) (v : Word) : (s.setReg a v).twil = s.twil := rfl
@[simp] theorem State.setReg_evr (a : Nat) (v : Word) : (s.setReg a v).evr = s.evr := rfl
@[simp] theorem State.setReg_ring (a : Nat) (v : Word) : (s.setReg a v).ring = s.ring := rfl
@[simp] theorem State.setReg_dict (a : Nat) (v : Word) : (s.setReg a v).dict = s.dict := rfl

/-! ### State.put -/

@[simp] theorem State.put_pending (f : Field) (v : Nat) : (s.put f v).pending = s.pending := rfl
@[simp] theorem State.put_now (f : Field) (v : Nat) : (s.put f v).now = s.now := rfl
@[simp] theorem State.put_free (f : Field) (v : Nat) : (s.put f v).free = s.free := rfl
@[simp] theorem State.put_totals (f : Field) (v : Nat) : (s.put f v).totals = s.totals := rfl
@[simp] theorem State.put_mem (f : Field) (v : Nat) : (s.put f v).mem = s.mem := rfl
@[simp] theorem State.put_bus (f : Field) (v : Nat) : (s.put f v).bus = s.bus := rfl
@[simp] theorem State.put_tick (f : Field) (v : Nat) : (s.put f v).tick = s.tick := rfl
@[simp] theorem State.put_pins (f : Field) (v : Nat) : (s.put f v).pins = s.pins := rfl
@[simp] theorem State.put_power (f : Field) (v : Nat) : (s.put f v).power = s.power := rfl
@[simp] theorem State.put_boot (f : Field) (v : Nat) : (s.put f v).boot = s.boot := rfl
@[simp] theorem State.put_core (f : Field) (v : Nat) : (s.put f v).core = s.core := rfl
@[simp] theorem State.put_shtl (f : Field) (v : Nat) : (s.put f v).shtl = s.shtl := rfl
@[simp] theorem State.put_rfrx (f : Field) (v : Nat) : (s.put f v).rfrx = s.rfrx := rfl
@[simp] theorem State.put_loom (f : Field) (v : Nat) : (s.put f v).loom = s.loom := rfl
@[simp] theorem State.put_demod (f : Field) (v : Nat) : (s.put f v).demod = s.demod := rfl
@[simp] theorem State.put_tx (f : Field) (v : Nat) : (s.put f v).tx = s.tx := rfl
@[simp] theorem State.put_mac (f : Field) (v : Nat) : (s.put f v).mac = s.mac := rfl
@[simp] theorem State.put_sec (f : Field) (v : Nat) : (s.put f v).sec = s.sec := rfl
@[simp] theorem State.put_tbl (f : Field) (v : Nat) : (s.put f v).tbl = s.tbl := rfl
@[simp] theorem State.put_time (f : Field) (v : Nat) : (s.put f v).time = s.time := rfl
@[simp] theorem State.put_tmr (f : Field) (v : Nat) : (s.put f v).tmr = s.tmr := rfl
@[simp] theorem State.put_nvm (f : Field) (v : Nat) : (s.put f v).nvm = s.nvm := rfl
@[simp] theorem State.put_spim (f : Field) (v : Nat) : (s.put f v).spim = s.spim := rfl
@[simp] theorem State.put_spis (f : Field) (v : Nat) : (s.put f v).spis = s.spis := rfl
@[simp] theorem State.put_rtc (f : Field) (v : Nat) : (s.put f v).rtc = s.rtc := rfl
@[simp] theorem State.put_msu (f : Field) (v : Nat) : (s.put f v).msu = s.msu := rfl
@[simp] theorem State.put_twil (f : Field) (v : Nat) : (s.put f v).twil = s.twil := rfl
@[simp] theorem State.put_evr (f : Field) (v : Nat) : (s.put f v).evr = s.evr := rfl
@[simp] theorem State.put_ring (f : Field) (v : Nat) : (s.put f v).ring = s.ring := rfl
@[simp] theorem State.put_dict (f : Field) (v : Nat) : (s.put f v).dict = s.dict := rfl

/-! ### State.putI -/

@[simp] theorem State.putI_pending (f : Field) (v : Int) : (s.putI f v).pending = s.pending := rfl
@[simp] theorem State.putI_now (f : Field) (v : Int) : (s.putI f v).now = s.now := rfl
@[simp] theorem State.putI_free (f : Field) (v : Int) : (s.putI f v).free = s.free := rfl
@[simp] theorem State.putI_totals (f : Field) (v : Int) : (s.putI f v).totals = s.totals := rfl
@[simp] theorem State.putI_mem (f : Field) (v : Int) : (s.putI f v).mem = s.mem := rfl
@[simp] theorem State.putI_bus (f : Field) (v : Int) : (s.putI f v).bus = s.bus := rfl
@[simp] theorem State.putI_tick (f : Field) (v : Int) : (s.putI f v).tick = s.tick := rfl
@[simp] theorem State.putI_pins (f : Field) (v : Int) : (s.putI f v).pins = s.pins := rfl
@[simp] theorem State.putI_power (f : Field) (v : Int) : (s.putI f v).power = s.power := rfl
@[simp] theorem State.putI_boot (f : Field) (v : Int) : (s.putI f v).boot = s.boot := rfl
@[simp] theorem State.putI_core (f : Field) (v : Int) : (s.putI f v).core = s.core := rfl
@[simp] theorem State.putI_shtl (f : Field) (v : Int) : (s.putI f v).shtl = s.shtl := rfl
@[simp] theorem State.putI_rfrx (f : Field) (v : Int) : (s.putI f v).rfrx = s.rfrx := rfl
@[simp] theorem State.putI_loom (f : Field) (v : Int) : (s.putI f v).loom = s.loom := rfl
@[simp] theorem State.putI_demod (f : Field) (v : Int) : (s.putI f v).demod = s.demod := rfl
@[simp] theorem State.putI_tx (f : Field) (v : Int) : (s.putI f v).tx = s.tx := rfl
@[simp] theorem State.putI_mac (f : Field) (v : Int) : (s.putI f v).mac = s.mac := rfl
@[simp] theorem State.putI_sec (f : Field) (v : Int) : (s.putI f v).sec = s.sec := rfl
@[simp] theorem State.putI_tbl (f : Field) (v : Int) : (s.putI f v).tbl = s.tbl := rfl
@[simp] theorem State.putI_time (f : Field) (v : Int) : (s.putI f v).time = s.time := rfl
@[simp] theorem State.putI_tmr (f : Field) (v : Int) : (s.putI f v).tmr = s.tmr := rfl
@[simp] theorem State.putI_nvm (f : Field) (v : Int) : (s.putI f v).nvm = s.nvm := rfl
@[simp] theorem State.putI_spim (f : Field) (v : Int) : (s.putI f v).spim = s.spim := rfl
@[simp] theorem State.putI_spis (f : Field) (v : Int) : (s.putI f v).spis = s.spis := rfl
@[simp] theorem State.putI_rtc (f : Field) (v : Int) : (s.putI f v).rtc = s.rtc := rfl
@[simp] theorem State.putI_msu (f : Field) (v : Int) : (s.putI f v).msu = s.msu := rfl
@[simp] theorem State.putI_twil (f : Field) (v : Int) : (s.putI f v).twil = s.twil := rfl
@[simp] theorem State.putI_evr (f : Field) (v : Int) : (s.putI f v).evr = s.evr := rfl
@[simp] theorem State.putI_ring (f : Field) (v : Int) : (s.putI f v).ring = s.ring := rfl
@[simp] theorem State.putI_dict (f : Field) (v : Int) : (s.putI f v).dict = s.dict := rfl

/-! ### State.putB -/

@[simp] theorem State.putB_pending (f : Field) (b : Bool) : (s.putB f b).pending = s.pending := rfl
@[simp] theorem State.putB_now (f : Field) (b : Bool) : (s.putB f b).now = s.now := rfl
@[simp] theorem State.putB_free (f : Field) (b : Bool) : (s.putB f b).free = s.free := rfl
@[simp] theorem State.putB_totals (f : Field) (b : Bool) : (s.putB f b).totals = s.totals := rfl
@[simp] theorem State.putB_mem (f : Field) (b : Bool) : (s.putB f b).mem = s.mem := rfl
@[simp] theorem State.putB_bus (f : Field) (b : Bool) : (s.putB f b).bus = s.bus := rfl
@[simp] theorem State.putB_tick (f : Field) (b : Bool) : (s.putB f b).tick = s.tick := rfl
@[simp] theorem State.putB_pins (f : Field) (b : Bool) : (s.putB f b).pins = s.pins := rfl
@[simp] theorem State.putB_power (f : Field) (b : Bool) : (s.putB f b).power = s.power := rfl
@[simp] theorem State.putB_boot (f : Field) (b : Bool) : (s.putB f b).boot = s.boot := rfl
@[simp] theorem State.putB_core (f : Field) (b : Bool) : (s.putB f b).core = s.core := rfl
@[simp] theorem State.putB_shtl (f : Field) (b : Bool) : (s.putB f b).shtl = s.shtl := rfl
@[simp] theorem State.putB_rfrx (f : Field) (b : Bool) : (s.putB f b).rfrx = s.rfrx := rfl
@[simp] theorem State.putB_loom (f : Field) (b : Bool) : (s.putB f b).loom = s.loom := rfl
@[simp] theorem State.putB_demod (f : Field) (b : Bool) : (s.putB f b).demod = s.demod := rfl
@[simp] theorem State.putB_tx (f : Field) (b : Bool) : (s.putB f b).tx = s.tx := rfl
@[simp] theorem State.putB_mac (f : Field) (b : Bool) : (s.putB f b).mac = s.mac := rfl
@[simp] theorem State.putB_sec (f : Field) (b : Bool) : (s.putB f b).sec = s.sec := rfl
@[simp] theorem State.putB_tbl (f : Field) (b : Bool) : (s.putB f b).tbl = s.tbl := rfl
@[simp] theorem State.putB_time (f : Field) (b : Bool) : (s.putB f b).time = s.time := rfl
@[simp] theorem State.putB_tmr (f : Field) (b : Bool) : (s.putB f b).tmr = s.tmr := rfl
@[simp] theorem State.putB_nvm (f : Field) (b : Bool) : (s.putB f b).nvm = s.nvm := rfl
@[simp] theorem State.putB_spim (f : Field) (b : Bool) : (s.putB f b).spim = s.spim := rfl
@[simp] theorem State.putB_spis (f : Field) (b : Bool) : (s.putB f b).spis = s.spis := rfl
@[simp] theorem State.putB_rtc (f : Field) (b : Bool) : (s.putB f b).rtc = s.rtc := rfl
@[simp] theorem State.putB_msu (f : Field) (b : Bool) : (s.putB f b).msu = s.msu := rfl
@[simp] theorem State.putB_twil (f : Field) (b : Bool) : (s.putB f b).twil = s.twil := rfl
@[simp] theorem State.putB_evr (f : Field) (b : Bool) : (s.putB f b).evr = s.evr := rfl
@[simp] theorem State.putB_ring (f : Field) (b : Bool) : (s.putB f b).ring = s.ring := rfl
@[simp] theorem State.putB_dict (f : Field) (b : Bool) : (s.putB f b).dict = s.dict := rfl

/-! ### State.inc -/

@[simp] theorem State.inc_pending (f : Field) : (s.inc f).pending = s.pending := rfl
@[simp] theorem State.inc_now (f : Field) : (s.inc f).now = s.now := rfl
@[simp] theorem State.inc_free (f : Field) : (s.inc f).free = s.free := rfl
@[simp] theorem State.inc_totals (f : Field) : (s.inc f).totals = s.totals := rfl
@[simp] theorem State.inc_mem (f : Field) : (s.inc f).mem = s.mem := rfl
@[simp] theorem State.inc_bus (f : Field) : (s.inc f).bus = s.bus := rfl
@[simp] theorem State.inc_tick (f : Field) : (s.inc f).tick = s.tick := rfl
@[simp] theorem State.inc_pins (f : Field) : (s.inc f).pins = s.pins := rfl
@[simp] theorem State.inc_power (f : Field) : (s.inc f).power = s.power := rfl
@[simp] theorem State.inc_boot (f : Field) : (s.inc f).boot = s.boot := rfl
@[simp] theorem State.inc_core (f : Field) : (s.inc f).core = s.core := rfl
@[simp] theorem State.inc_shtl (f : Field) : (s.inc f).shtl = s.shtl := rfl
@[simp] theorem State.inc_rfrx (f : Field) : (s.inc f).rfrx = s.rfrx := rfl
@[simp] theorem State.inc_loom (f : Field) : (s.inc f).loom = s.loom := rfl
@[simp] theorem State.inc_demod (f : Field) : (s.inc f).demod = s.demod := rfl
@[simp] theorem State.inc_tx (f : Field) : (s.inc f).tx = s.tx := rfl
@[simp] theorem State.inc_mac (f : Field) : (s.inc f).mac = s.mac := rfl
@[simp] theorem State.inc_sec (f : Field) : (s.inc f).sec = s.sec := rfl
@[simp] theorem State.inc_tbl (f : Field) : (s.inc f).tbl = s.tbl := rfl
@[simp] theorem State.inc_time (f : Field) : (s.inc f).time = s.time := rfl
@[simp] theorem State.inc_tmr (f : Field) : (s.inc f).tmr = s.tmr := rfl
@[simp] theorem State.inc_nvm (f : Field) : (s.inc f).nvm = s.nvm := rfl
@[simp] theorem State.inc_spim (f : Field) : (s.inc f).spim = s.spim := rfl
@[simp] theorem State.inc_spis (f : Field) : (s.inc f).spis = s.spis := rfl
@[simp] theorem State.inc_rtc (f : Field) : (s.inc f).rtc = s.rtc := rfl
@[simp] theorem State.inc_msu (f : Field) : (s.inc f).msu = s.msu := rfl
@[simp] theorem State.inc_twil (f : Field) : (s.inc f).twil = s.twil := rfl
@[simp] theorem State.inc_evr (f : Field) : (s.inc f).evr = s.evr := rfl
@[simp] theorem State.inc_ring (f : Field) : (s.inc f).ring = s.ring := rfl
@[simp] theorem State.inc_dict (f : Field) : (s.inc f).dict = s.dict := rfl

/-! ### State.sat -/

@[simp] theorem State.sat_pending (f : Field) : (s.sat f).pending = s.pending := rfl
@[simp] theorem State.sat_now (f : Field) : (s.sat f).now = s.now := rfl
@[simp] theorem State.sat_free (f : Field) : (s.sat f).free = s.free := rfl
@[simp] theorem State.sat_mem (f : Field) : (s.sat f).mem = s.mem := rfl
@[simp] theorem State.sat_bus (f : Field) : (s.sat f).bus = s.bus := rfl
@[simp] theorem State.sat_tick (f : Field) : (s.sat f).tick = s.tick := rfl
@[simp] theorem State.sat_pins (f : Field) : (s.sat f).pins = s.pins := rfl
@[simp] theorem State.sat_power (f : Field) : (s.sat f).power = s.power := rfl
@[simp] theorem State.sat_boot (f : Field) : (s.sat f).boot = s.boot := rfl
@[simp] theorem State.sat_core (f : Field) : (s.sat f).core = s.core := rfl
@[simp] theorem State.sat_shtl (f : Field) : (s.sat f).shtl = s.shtl := rfl
@[simp] theorem State.sat_rfrx (f : Field) : (s.sat f).rfrx = s.rfrx := rfl
@[simp] theorem State.sat_loom (f : Field) : (s.sat f).loom = s.loom := rfl
@[simp] theorem State.sat_demod (f : Field) : (s.sat f).demod = s.demod := rfl
@[simp] theorem State.sat_tx (f : Field) : (s.sat f).tx = s.tx := rfl
@[simp] theorem State.sat_mac (f : Field) : (s.sat f).mac = s.mac := rfl
@[simp] theorem State.sat_sec (f : Field) : (s.sat f).sec = s.sec := rfl
@[simp] theorem State.sat_tbl (f : Field) : (s.sat f).tbl = s.tbl := rfl
@[simp] theorem State.sat_time (f : Field) : (s.sat f).time = s.time := rfl
@[simp] theorem State.sat_tmr (f : Field) : (s.sat f).tmr = s.tmr := rfl
@[simp] theorem State.sat_nvm (f : Field) : (s.sat f).nvm = s.nvm := rfl
@[simp] theorem State.sat_spim (f : Field) : (s.sat f).spim = s.spim := rfl
@[simp] theorem State.sat_spis (f : Field) : (s.sat f).spis = s.spis := rfl
@[simp] theorem State.sat_rtc (f : Field) : (s.sat f).rtc = s.rtc := rfl
@[simp] theorem State.sat_msu (f : Field) : (s.sat f).msu = s.msu := rfl
@[simp] theorem State.sat_twil (f : Field) : (s.sat f).twil = s.twil := rfl
@[simp] theorem State.sat_evr (f : Field) : (s.sat f).evr = s.evr := rfl
@[simp] theorem State.sat_ring (f : Field) : (s.sat f).ring = s.ring := rfl
@[simp] theorem State.sat_dict (f : Field) : (s.sat f).dict = s.dict := rfl

/-! ### State.wb -/

@[simp] theorem State.wb_pending (a : Nat) (v : Byte) : (s.wb a v).pending = s.pending := rfl
@[simp] theorem State.wb_now (a : Nat) (v : Byte) : (s.wb a v).now = s.now := rfl
@[simp] theorem State.wb_free (a : Nat) (v : Byte) : (s.wb a v).free = s.free := rfl
@[simp] theorem State.wb_regs (a : Nat) (v : Byte) : (s.wb a v).regs = s.regs := rfl
@[simp] theorem State.wb_totals (a : Nat) (v : Byte) : (s.wb a v).totals = s.totals := rfl
@[simp] theorem State.wb_bus (a : Nat) (v : Byte) : (s.wb a v).bus = s.bus := rfl
@[simp] theorem State.wb_tick (a : Nat) (v : Byte) : (s.wb a v).tick = s.tick := rfl
@[simp] theorem State.wb_pins (a : Nat) (v : Byte) : (s.wb a v).pins = s.pins := rfl
@[simp] theorem State.wb_power (a : Nat) (v : Byte) : (s.wb a v).power = s.power := rfl
@[simp] theorem State.wb_boot (a : Nat) (v : Byte) : (s.wb a v).boot = s.boot := rfl
@[simp] theorem State.wb_core (a : Nat) (v : Byte) : (s.wb a v).core = s.core := rfl
@[simp] theorem State.wb_shtl (a : Nat) (v : Byte) : (s.wb a v).shtl = s.shtl := rfl
@[simp] theorem State.wb_rfrx (a : Nat) (v : Byte) : (s.wb a v).rfrx = s.rfrx := rfl
@[simp] theorem State.wb_loom (a : Nat) (v : Byte) : (s.wb a v).loom = s.loom := rfl
@[simp] theorem State.wb_demod (a : Nat) (v : Byte) : (s.wb a v).demod = s.demod := rfl
@[simp] theorem State.wb_tx (a : Nat) (v : Byte) : (s.wb a v).tx = s.tx := rfl
@[simp] theorem State.wb_mac (a : Nat) (v : Byte) : (s.wb a v).mac = s.mac := rfl
@[simp] theorem State.wb_sec (a : Nat) (v : Byte) : (s.wb a v).sec = s.sec := rfl
@[simp] theorem State.wb_tbl (a : Nat) (v : Byte) : (s.wb a v).tbl = s.tbl := rfl
@[simp] theorem State.wb_time (a : Nat) (v : Byte) : (s.wb a v).time = s.time := rfl
@[simp] theorem State.wb_tmr (a : Nat) (v : Byte) : (s.wb a v).tmr = s.tmr := rfl
@[simp] theorem State.wb_nvm (a : Nat) (v : Byte) : (s.wb a v).nvm = s.nvm := rfl
@[simp] theorem State.wb_spim (a : Nat) (v : Byte) : (s.wb a v).spim = s.spim := rfl
@[simp] theorem State.wb_spis (a : Nat) (v : Byte) : (s.wb a v).spis = s.spis := rfl
@[simp] theorem State.wb_rtc (a : Nat) (v : Byte) : (s.wb a v).rtc = s.rtc := rfl
@[simp] theorem State.wb_msu (a : Nat) (v : Byte) : (s.wb a v).msu = s.msu := rfl
@[simp] theorem State.wb_twil (a : Nat) (v : Byte) : (s.wb a v).twil = s.twil := rfl
@[simp] theorem State.wb_evr (a : Nat) (v : Byte) : (s.wb a v).evr = s.evr := rfl
@[simp] theorem State.wb_ring (a : Nat) (v : Byte) : (s.wb a v).ring = s.ring := rfl
@[simp] theorem State.wb_dict (a : Nat) (v : Byte) : (s.wb a v).dict = s.dict := rfl

/-! ### State.setPend -/

@[simp] theorem State.setPend_pending (b : Blk) (p : Option PendingSet) : (s.setPend b p).pending = s.pending := rfl
@[simp] theorem State.setPend_now (b : Blk) (p : Option PendingSet) : (s.setPend b p).now = s.now := rfl
@[simp] theorem State.setPend_free (b : Blk) (p : Option PendingSet) : (s.setPend b p).free = s.free := rfl
@[simp] theorem State.setPend_regs (b : Blk) (p : Option PendingSet) : (s.setPend b p).regs = s.regs := rfl
@[simp] theorem State.setPend_totals (b : Blk) (p : Option PendingSet) : (s.setPend b p).totals = s.totals := rfl
@[simp] theorem State.setPend_mem (b : Blk) (p : Option PendingSet) : (s.setPend b p).mem = s.mem := rfl
@[simp] theorem State.setPend_bus (b : Blk) (p : Option PendingSet) : (s.setPend b p).bus = s.bus := rfl
@[simp] theorem State.setPend_pins (b : Blk) (p : Option PendingSet) : (s.setPend b p).pins = s.pins := rfl
@[simp] theorem State.setPend_power (b : Blk) (p : Option PendingSet) : (s.setPend b p).power = s.power := rfl
@[simp] theorem State.setPend_boot (b : Blk) (p : Option PendingSet) : (s.setPend b p).boot = s.boot := rfl
@[simp] theorem State.setPend_core (b : Blk) (p : Option PendingSet) : (s.setPend b p).core = s.core := rfl
@[simp] theorem State.setPend_shtl (b : Blk) (p : Option PendingSet) : (s.setPend b p).shtl = s.shtl := rfl
@[simp] theorem State.setPend_rfrx (b : Blk) (p : Option PendingSet) : (s.setPend b p).rfrx = s.rfrx := rfl
@[simp] theorem State.setPend_loom (b : Blk) (p : Option PendingSet) : (s.setPend b p).loom = s.loom := rfl
@[simp] theorem State.setPend_demod (b : Blk) (p : Option PendingSet) : (s.setPend b p).demod = s.demod := rfl
@[simp] theorem State.setPend_tx (b : Blk) (p : Option PendingSet) : (s.setPend b p).tx = s.tx := rfl
@[simp] theorem State.setPend_mac (b : Blk) (p : Option PendingSet) : (s.setPend b p).mac = s.mac := rfl
@[simp] theorem State.setPend_sec (b : Blk) (p : Option PendingSet) : (s.setPend b p).sec = s.sec := rfl
@[simp] theorem State.setPend_tbl (b : Blk) (p : Option PendingSet) : (s.setPend b p).tbl = s.tbl := rfl
@[simp] theorem State.setPend_time (b : Blk) (p : Option PendingSet) : (s.setPend b p).time = s.time := rfl
@[simp] theorem State.setPend_tmr (b : Blk) (p : Option PendingSet) : (s.setPend b p).tmr = s.tmr := rfl
@[simp] theorem State.setPend_nvm (b : Blk) (p : Option PendingSet) : (s.setPend b p).nvm = s.nvm := rfl
@[simp] theorem State.setPend_spim (b : Blk) (p : Option PendingSet) : (s.setPend b p).spim = s.spim := rfl
@[simp] theorem State.setPend_spis (b : Blk) (p : Option PendingSet) : (s.setPend b p).spis = s.spis := rfl
@[simp] theorem State.setPend_rtc (b : Blk) (p : Option PendingSet) : (s.setPend b p).rtc = s.rtc := rfl
@[simp] theorem State.setPend_msu (b : Blk) (p : Option PendingSet) : (s.setPend b p).msu = s.msu := rfl
@[simp] theorem State.setPend_twil (b : Blk) (p : Option PendingSet) : (s.setPend b p).twil = s.twil := rfl
@[simp] theorem State.setPend_evr (b : Blk) (p : Option PendingSet) : (s.setPend b p).evr = s.evr := rfl
@[simp] theorem State.setPend_ring (b : Blk) (p : Option PendingSet) : (s.setPend b p).ring = s.ring := rfl
@[simp] theorem State.setPend_dict (b : Blk) (p : Option PendingSet) : (s.setPend b p).dict = s.dict := rfl

/-! ### State.modCore -/

@[simp] theorem State.modCore_pending (f : CoreSt → CoreSt) : (s.modCore f).pending = s.pending := rfl
@[simp] theorem State.modCore_now (f : CoreSt → CoreSt) : (s.modCore f).now = s.now := rfl
@[simp] theorem State.modCore_free (f : CoreSt → CoreSt) : (s.modCore f).free = s.free := rfl
@[simp] theorem State.modCore_regs (f : CoreSt → CoreSt) : (s.modCore f).regs = s.regs := rfl
@[simp] theorem State.modCore_totals (f : CoreSt → CoreSt) : (s.modCore f).totals = s.totals := rfl
@[simp] theorem State.modCore_mem (f : CoreSt → CoreSt) : (s.modCore f).mem = s.mem := rfl
@[simp] theorem State.modCore_bus (f : CoreSt → CoreSt) : (s.modCore f).bus = s.bus := rfl
@[simp] theorem State.modCore_tick (f : CoreSt → CoreSt) : (s.modCore f).tick = s.tick := rfl
@[simp] theorem State.modCore_pins (f : CoreSt → CoreSt) : (s.modCore f).pins = s.pins := rfl
@[simp] theorem State.modCore_power (f : CoreSt → CoreSt) : (s.modCore f).power = s.power := rfl
@[simp] theorem State.modCore_boot (f : CoreSt → CoreSt) : (s.modCore f).boot = s.boot := rfl
@[simp] theorem State.modCore_shtl (f : CoreSt → CoreSt) : (s.modCore f).shtl = s.shtl := rfl
@[simp] theorem State.modCore_rfrx (f : CoreSt → CoreSt) : (s.modCore f).rfrx = s.rfrx := rfl
@[simp] theorem State.modCore_loom (f : CoreSt → CoreSt) : (s.modCore f).loom = s.loom := rfl
@[simp] theorem State.modCore_demod (f : CoreSt → CoreSt) : (s.modCore f).demod = s.demod := rfl
@[simp] theorem State.modCore_tx (f : CoreSt → CoreSt) : (s.modCore f).tx = s.tx := rfl
@[simp] theorem State.modCore_mac (f : CoreSt → CoreSt) : (s.modCore f).mac = s.mac := rfl
@[simp] theorem State.modCore_sec (f : CoreSt → CoreSt) : (s.modCore f).sec = s.sec := rfl
@[simp] theorem State.modCore_tbl (f : CoreSt → CoreSt) : (s.modCore f).tbl = s.tbl := rfl
@[simp] theorem State.modCore_time (f : CoreSt → CoreSt) : (s.modCore f).time = s.time := rfl
@[simp] theorem State.modCore_tmr (f : CoreSt → CoreSt) : (s.modCore f).tmr = s.tmr := rfl
@[simp] theorem State.modCore_nvm (f : CoreSt → CoreSt) : (s.modCore f).nvm = s.nvm := rfl
@[simp] theorem State.modCore_spim (f : CoreSt → CoreSt) : (s.modCore f).spim = s.spim := rfl
@[simp] theorem State.modCore_spis (f : CoreSt → CoreSt) : (s.modCore f).spis = s.spis := rfl
@[simp] theorem State.modCore_rtc (f : CoreSt → CoreSt) : (s.modCore f).rtc = s.rtc := rfl
@[simp] theorem State.modCore_msu (f : CoreSt → CoreSt) : (s.modCore f).msu = s.msu := rfl
@[simp] theorem State.modCore_twil (f : CoreSt → CoreSt) : (s.modCore f).twil = s.twil := rfl
@[simp] theorem State.modCore_evr (f : CoreSt → CoreSt) : (s.modCore f).evr = s.evr := rfl
@[simp] theorem State.modCore_ring (f : CoreSt → CoreSt) : (s.modCore f).ring = s.ring := rfl
@[simp] theorem State.modCore_dict (f : CoreSt → CoreSt) : (s.modCore f).dict = s.dict := rfl

/-! ### State.modCpu -/

@[simp] theorem State.modCpu_pending (f : Cpu → Cpu) : (s.modCpu f).pending = s.pending := rfl
@[simp] theorem State.modCpu_now (f : Cpu → Cpu) : (s.modCpu f).now = s.now := rfl
@[simp] theorem State.modCpu_free (f : Cpu → Cpu) : (s.modCpu f).free = s.free := rfl
@[simp] theorem State.modCpu_regs (f : Cpu → Cpu) : (s.modCpu f).regs = s.regs := rfl
@[simp] theorem State.modCpu_totals (f : Cpu → Cpu) : (s.modCpu f).totals = s.totals := rfl
@[simp] theorem State.modCpu_mem (f : Cpu → Cpu) : (s.modCpu f).mem = s.mem := rfl
@[simp] theorem State.modCpu_bus (f : Cpu → Cpu) : (s.modCpu f).bus = s.bus := rfl
@[simp] theorem State.modCpu_tick (f : Cpu → Cpu) : (s.modCpu f).tick = s.tick := rfl
@[simp] theorem State.modCpu_pins (f : Cpu → Cpu) : (s.modCpu f).pins = s.pins := rfl
@[simp] theorem State.modCpu_power (f : Cpu → Cpu) : (s.modCpu f).power = s.power := rfl
@[simp] theorem State.modCpu_boot (f : Cpu → Cpu) : (s.modCpu f).boot = s.boot := rfl
@[simp] theorem State.modCpu_shtl (f : Cpu → Cpu) : (s.modCpu f).shtl = s.shtl := rfl
@[simp] theorem State.modCpu_rfrx (f : Cpu → Cpu) : (s.modCpu f).rfrx = s.rfrx := rfl
@[simp] theorem State.modCpu_loom (f : Cpu → Cpu) : (s.modCpu f).loom = s.loom := rfl
@[simp] theorem State.modCpu_demod (f : Cpu → Cpu) : (s.modCpu f).demod = s.demod := rfl
@[simp] theorem State.modCpu_tx (f : Cpu → Cpu) : (s.modCpu f).tx = s.tx := rfl
@[simp] theorem State.modCpu_mac (f : Cpu → Cpu) : (s.modCpu f).mac = s.mac := rfl
@[simp] theorem State.modCpu_sec (f : Cpu → Cpu) : (s.modCpu f).sec = s.sec := rfl
@[simp] theorem State.modCpu_tbl (f : Cpu → Cpu) : (s.modCpu f).tbl = s.tbl := rfl
@[simp] theorem State.modCpu_time (f : Cpu → Cpu) : (s.modCpu f).time = s.time := rfl
@[simp] theorem State.modCpu_tmr (f : Cpu → Cpu) : (s.modCpu f).tmr = s.tmr := rfl
@[simp] theorem State.modCpu_nvm (f : Cpu → Cpu) : (s.modCpu f).nvm = s.nvm := rfl
@[simp] theorem State.modCpu_spim (f : Cpu → Cpu) : (s.modCpu f).spim = s.spim := rfl
@[simp] theorem State.modCpu_spis (f : Cpu → Cpu) : (s.modCpu f).spis = s.spis := rfl
@[simp] theorem State.modCpu_rtc (f : Cpu → Cpu) : (s.modCpu f).rtc = s.rtc := rfl
@[simp] theorem State.modCpu_msu (f : Cpu → Cpu) : (s.modCpu f).msu = s.msu := rfl
@[simp] theorem State.modCpu_twil (f : Cpu → Cpu) : (s.modCpu f).twil = s.twil := rfl
@[simp] theorem State.modCpu_evr (f : Cpu → Cpu) : (s.modCpu f).evr = s.evr := rfl
@[simp] theorem State.modCpu_ring (f : Cpu → Cpu) : (s.modCpu f).ring = s.ring := rfl
@[simp] theorem State.modCpu_dict (f : Cpu → Cpu) : (s.modCpu f).dict = s.dict := rfl

/-! ### State.modDict -/

@[simp] theorem State.modDict_pending (f : DictSt → DictSt) : (s.modDict f).pending = s.pending := rfl
@[simp] theorem State.modDict_now (f : DictSt → DictSt) : (s.modDict f).now = s.now := rfl
@[simp] theorem State.modDict_free (f : DictSt → DictSt) : (s.modDict f).free = s.free := rfl
@[simp] theorem State.modDict_regs (f : DictSt → DictSt) : (s.modDict f).regs = s.regs := rfl
@[simp] theorem State.modDict_totals (f : DictSt → DictSt) : (s.modDict f).totals = s.totals := rfl
@[simp] theorem State.modDict_mem (f : DictSt → DictSt) : (s.modDict f).mem = s.mem := rfl
@[simp] theorem State.modDict_bus (f : DictSt → DictSt) : (s.modDict f).bus = s.bus := rfl
@[simp] theorem State.modDict_tick (f : DictSt → DictSt) : (s.modDict f).tick = s.tick := rfl
@[simp] theorem State.modDict_pins (f : DictSt → DictSt) : (s.modDict f).pins = s.pins := rfl
@[simp] theorem State.modDict_power (f : DictSt → DictSt) : (s.modDict f).power = s.power := rfl
@[simp] theorem State.modDict_boot (f : DictSt → DictSt) : (s.modDict f).boot = s.boot := rfl
@[simp] theorem State.modDict_core (f : DictSt → DictSt) : (s.modDict f).core = s.core := rfl
@[simp] theorem State.modDict_shtl (f : DictSt → DictSt) : (s.modDict f).shtl = s.shtl := rfl
@[simp] theorem State.modDict_rfrx (f : DictSt → DictSt) : (s.modDict f).rfrx = s.rfrx := rfl
@[simp] theorem State.modDict_loom (f : DictSt → DictSt) : (s.modDict f).loom = s.loom := rfl
@[simp] theorem State.modDict_demod (f : DictSt → DictSt) : (s.modDict f).demod = s.demod := rfl
@[simp] theorem State.modDict_tx (f : DictSt → DictSt) : (s.modDict f).tx = s.tx := rfl
@[simp] theorem State.modDict_mac (f : DictSt → DictSt) : (s.modDict f).mac = s.mac := rfl
@[simp] theorem State.modDict_sec (f : DictSt → DictSt) : (s.modDict f).sec = s.sec := rfl
@[simp] theorem State.modDict_tbl (f : DictSt → DictSt) : (s.modDict f).tbl = s.tbl := rfl
@[simp] theorem State.modDict_time (f : DictSt → DictSt) : (s.modDict f).time = s.time := rfl
@[simp] theorem State.modDict_tmr (f : DictSt → DictSt) : (s.modDict f).tmr = s.tmr := rfl
@[simp] theorem State.modDict_nvm (f : DictSt → DictSt) : (s.modDict f).nvm = s.nvm := rfl
@[simp] theorem State.modDict_spim (f : DictSt → DictSt) : (s.modDict f).spim = s.spim := rfl
@[simp] theorem State.modDict_spis (f : DictSt → DictSt) : (s.modDict f).spis = s.spis := rfl
@[simp] theorem State.modDict_rtc (f : DictSt → DictSt) : (s.modDict f).rtc = s.rtc := rfl
@[simp] theorem State.modDict_msu (f : DictSt → DictSt) : (s.modDict f).msu = s.msu := rfl
@[simp] theorem State.modDict_twil (f : DictSt → DictSt) : (s.modDict f).twil = s.twil := rfl
@[simp] theorem State.modDict_evr (f : DictSt → DictSt) : (s.modDict f).evr = s.evr := rfl
@[simp] theorem State.modDict_ring (f : DictSt → DictSt) : (s.modDict f).ring = s.ring := rfl

/-! ### State.modStore -/

@[simp] theorem State.modStore_pending (f : StoreSt → StoreSt) : (s.modStore f).pending = s.pending := rfl
@[simp] theorem State.modStore_now (f : StoreSt → StoreSt) : (s.modStore f).now = s.now := rfl
@[simp] theorem State.modStore_free (f : StoreSt → StoreSt) : (s.modStore f).free = s.free := rfl
@[simp] theorem State.modStore_regs (f : StoreSt → StoreSt) : (s.modStore f).regs = s.regs := rfl
@[simp] theorem State.modStore_totals (f : StoreSt → StoreSt) : (s.modStore f).totals = s.totals := rfl
@[simp] theorem State.modStore_mem (f : StoreSt → StoreSt) : (s.modStore f).mem = s.mem := rfl
@[simp] theorem State.modStore_bus (f : StoreSt → StoreSt) : (s.modStore f).bus = s.bus := rfl
@[simp] theorem State.modStore_tick (f : StoreSt → StoreSt) : (s.modStore f).tick = s.tick := rfl
@[simp] theorem State.modStore_pins (f : StoreSt → StoreSt) : (s.modStore f).pins = s.pins := rfl
@[simp] theorem State.modStore_power (f : StoreSt → StoreSt) : (s.modStore f).power = s.power := rfl
@[simp] theorem State.modStore_boot (f : StoreSt → StoreSt) : (s.modStore f).boot = s.boot := rfl
@[simp] theorem State.modStore_core (f : StoreSt → StoreSt) : (s.modStore f).core = s.core := rfl
@[simp] theorem State.modStore_shtl (f : StoreSt → StoreSt) : (s.modStore f).shtl = s.shtl := rfl
@[simp] theorem State.modStore_rfrx (f : StoreSt → StoreSt) : (s.modStore f).rfrx = s.rfrx := rfl
@[simp] theorem State.modStore_loom (f : StoreSt → StoreSt) : (s.modStore f).loom = s.loom := rfl
@[simp] theorem State.modStore_demod (f : StoreSt → StoreSt) : (s.modStore f).demod = s.demod := rfl
@[simp] theorem State.modStore_tx (f : StoreSt → StoreSt) : (s.modStore f).tx = s.tx := rfl
@[simp] theorem State.modStore_mac (f : StoreSt → StoreSt) : (s.modStore f).mac = s.mac := rfl
@[simp] theorem State.modStore_sec (f : StoreSt → StoreSt) : (s.modStore f).sec = s.sec := rfl
@[simp] theorem State.modStore_tbl (f : StoreSt → StoreSt) : (s.modStore f).tbl = s.tbl := rfl
@[simp] theorem State.modStore_time (f : StoreSt → StoreSt) : (s.modStore f).time = s.time := rfl
@[simp] theorem State.modStore_tmr (f : StoreSt → StoreSt) : (s.modStore f).tmr = s.tmr := rfl
@[simp] theorem State.modStore_nvm (f : StoreSt → StoreSt) : (s.modStore f).nvm = s.nvm := rfl
@[simp] theorem State.modStore_spim (f : StoreSt → StoreSt) : (s.modStore f).spim = s.spim := rfl
@[simp] theorem State.modStore_spis (f : StoreSt → StoreSt) : (s.modStore f).spis = s.spis := rfl
@[simp] theorem State.modStore_rtc (f : StoreSt → StoreSt) : (s.modStore f).rtc = s.rtc := rfl
@[simp] theorem State.modStore_msu (f : StoreSt → StoreSt) : (s.modStore f).msu = s.msu := rfl
@[simp] theorem State.modStore_twil (f : StoreSt → StoreSt) : (s.modStore f).twil = s.twil := rfl
@[simp] theorem State.modStore_evr (f : StoreSt → StoreSt) : (s.modStore f).evr = s.evr := rfl
@[simp] theorem State.modStore_ring (f : StoreSt → StoreSt) : (s.modStore f).ring = s.ring := rfl

/-! ### State.modEvr -/

@[simp] theorem State.modEvr_pending (f : EvrSt → EvrSt) : (s.modEvr f).pending = s.pending := rfl
@[simp] theorem State.modEvr_now (f : EvrSt → EvrSt) : (s.modEvr f).now = s.now := rfl
@[simp] theorem State.modEvr_free (f : EvrSt → EvrSt) : (s.modEvr f).free = s.free := rfl
@[simp] theorem State.modEvr_regs (f : EvrSt → EvrSt) : (s.modEvr f).regs = s.regs := rfl
@[simp] theorem State.modEvr_totals (f : EvrSt → EvrSt) : (s.modEvr f).totals = s.totals := rfl
@[simp] theorem State.modEvr_mem (f : EvrSt → EvrSt) : (s.modEvr f).mem = s.mem := rfl
@[simp] theorem State.modEvr_bus (f : EvrSt → EvrSt) : (s.modEvr f).bus = s.bus := rfl
@[simp] theorem State.modEvr_tick (f : EvrSt → EvrSt) : (s.modEvr f).tick = s.tick := rfl
@[simp] theorem State.modEvr_pins (f : EvrSt → EvrSt) : (s.modEvr f).pins = s.pins := rfl
@[simp] theorem State.modEvr_power (f : EvrSt → EvrSt) : (s.modEvr f).power = s.power := rfl
@[simp] theorem State.modEvr_boot (f : EvrSt → EvrSt) : (s.modEvr f).boot = s.boot := rfl
@[simp] theorem State.modEvr_core (f : EvrSt → EvrSt) : (s.modEvr f).core = s.core := rfl
@[simp] theorem State.modEvr_shtl (f : EvrSt → EvrSt) : (s.modEvr f).shtl = s.shtl := rfl
@[simp] theorem State.modEvr_rfrx (f : EvrSt → EvrSt) : (s.modEvr f).rfrx = s.rfrx := rfl
@[simp] theorem State.modEvr_loom (f : EvrSt → EvrSt) : (s.modEvr f).loom = s.loom := rfl
@[simp] theorem State.modEvr_demod (f : EvrSt → EvrSt) : (s.modEvr f).demod = s.demod := rfl
@[simp] theorem State.modEvr_tx (f : EvrSt → EvrSt) : (s.modEvr f).tx = s.tx := rfl
@[simp] theorem State.modEvr_mac (f : EvrSt → EvrSt) : (s.modEvr f).mac = s.mac := rfl
@[simp] theorem State.modEvr_sec (f : EvrSt → EvrSt) : (s.modEvr f).sec = s.sec := rfl
@[simp] theorem State.modEvr_tbl (f : EvrSt → EvrSt) : (s.modEvr f).tbl = s.tbl := rfl
@[simp] theorem State.modEvr_time (f : EvrSt → EvrSt) : (s.modEvr f).time = s.time := rfl
@[simp] theorem State.modEvr_tmr (f : EvrSt → EvrSt) : (s.modEvr f).tmr = s.tmr := rfl
@[simp] theorem State.modEvr_nvm (f : EvrSt → EvrSt) : (s.modEvr f).nvm = s.nvm := rfl
@[simp] theorem State.modEvr_spim (f : EvrSt → EvrSt) : (s.modEvr f).spim = s.spim := rfl
@[simp] theorem State.modEvr_spis (f : EvrSt → EvrSt) : (s.modEvr f).spis = s.spis := rfl
@[simp] theorem State.modEvr_rtc (f : EvrSt → EvrSt) : (s.modEvr f).rtc = s.rtc := rfl
@[simp] theorem State.modEvr_msu (f : EvrSt → EvrSt) : (s.modEvr f).msu = s.msu := rfl
@[simp] theorem State.modEvr_twil (f : EvrSt → EvrSt) : (s.modEvr f).twil = s.twil := rfl
@[simp] theorem State.modEvr_ring (f : EvrSt → EvrSt) : (s.modEvr f).ring = s.ring := rfl
@[simp] theorem State.modEvr_dict (f : EvrSt → EvrSt) : (s.modEvr f).dict = s.dict := rfl

/-! ### State.modSec -/

@[simp] theorem State.modSec_pending (f : SecSt → SecSt) : (s.modSec f).pending = s.pending := rfl
@[simp] theorem State.modSec_now (f : SecSt → SecSt) : (s.modSec f).now = s.now := rfl
@[simp] theorem State.modSec_free (f : SecSt → SecSt) : (s.modSec f).free = s.free := rfl
@[simp] theorem State.modSec_regs (f : SecSt → SecSt) : (s.modSec f).regs = s.regs := rfl
@[simp] theorem State.modSec_totals (f : SecSt → SecSt) : (s.modSec f).totals = s.totals := rfl
@[simp] theorem State.modSec_mem (f : SecSt → SecSt) : (s.modSec f).mem = s.mem := rfl
@[simp] theorem State.modSec_bus (f : SecSt → SecSt) : (s.modSec f).bus = s.bus := rfl
@[simp] theorem State.modSec_tick (f : SecSt → SecSt) : (s.modSec f).tick = s.tick := rfl
@[simp] theorem State.modSec_pins (f : SecSt → SecSt) : (s.modSec f).pins = s.pins := rfl
@[simp] theorem State.modSec_power (f : SecSt → SecSt) : (s.modSec f).power = s.power := rfl
@[simp] theorem State.modSec_boot (f : SecSt → SecSt) : (s.modSec f).boot = s.boot := rfl
@[simp] theorem State.modSec_core (f : SecSt → SecSt) : (s.modSec f).core = s.core := rfl
@[simp] theorem State.modSec_shtl (f : SecSt → SecSt) : (s.modSec f).shtl = s.shtl := rfl
@[simp] theorem State.modSec_rfrx (f : SecSt → SecSt) : (s.modSec f).rfrx = s.rfrx := rfl
@[simp] theorem State.modSec_loom (f : SecSt → SecSt) : (s.modSec f).loom = s.loom := rfl
@[simp] theorem State.modSec_demod (f : SecSt → SecSt) : (s.modSec f).demod = s.demod := rfl
@[simp] theorem State.modSec_tx (f : SecSt → SecSt) : (s.modSec f).tx = s.tx := rfl
@[simp] theorem State.modSec_mac (f : SecSt → SecSt) : (s.modSec f).mac = s.mac := rfl
@[simp] theorem State.modSec_tbl (f : SecSt → SecSt) : (s.modSec f).tbl = s.tbl := rfl
@[simp] theorem State.modSec_time (f : SecSt → SecSt) : (s.modSec f).time = s.time := rfl
@[simp] theorem State.modSec_tmr (f : SecSt → SecSt) : (s.modSec f).tmr = s.tmr := rfl
@[simp] theorem State.modSec_nvm (f : SecSt → SecSt) : (s.modSec f).nvm = s.nvm := rfl
@[simp] theorem State.modSec_spim (f : SecSt → SecSt) : (s.modSec f).spim = s.spim := rfl
@[simp] theorem State.modSec_spis (f : SecSt → SecSt) : (s.modSec f).spis = s.spis := rfl
@[simp] theorem State.modSec_rtc (f : SecSt → SecSt) : (s.modSec f).rtc = s.rtc := rfl
@[simp] theorem State.modSec_msu (f : SecSt → SecSt) : (s.modSec f).msu = s.msu := rfl
@[simp] theorem State.modSec_twil (f : SecSt → SecSt) : (s.modSec f).twil = s.twil := rfl
@[simp] theorem State.modSec_evr (f : SecSt → SecSt) : (s.modSec f).evr = s.evr := rfl
@[simp] theorem State.modSec_ring (f : SecSt → SecSt) : (s.modSec f).ring = s.ring := rfl
@[simp] theorem State.modSec_dict (f : SecSt → SecSt) : (s.modSec f).dict = s.dict := rfl

/-! ### State.modLoom -/

@[simp] theorem State.modLoom_pending (f : LoomSt → LoomSt) : (s.modLoom f).pending = s.pending := rfl
@[simp] theorem State.modLoom_now (f : LoomSt → LoomSt) : (s.modLoom f).now = s.now := rfl
@[simp] theorem State.modLoom_free (f : LoomSt → LoomSt) : (s.modLoom f).free = s.free := rfl
@[simp] theorem State.modLoom_regs (f : LoomSt → LoomSt) : (s.modLoom f).regs = s.regs := rfl
@[simp] theorem State.modLoom_totals (f : LoomSt → LoomSt) : (s.modLoom f).totals = s.totals := rfl
@[simp] theorem State.modLoom_mem (f : LoomSt → LoomSt) : (s.modLoom f).mem = s.mem := rfl
@[simp] theorem State.modLoom_bus (f : LoomSt → LoomSt) : (s.modLoom f).bus = s.bus := rfl
@[simp] theorem State.modLoom_tick (f : LoomSt → LoomSt) : (s.modLoom f).tick = s.tick := rfl
@[simp] theorem State.modLoom_pins (f : LoomSt → LoomSt) : (s.modLoom f).pins = s.pins := rfl
@[simp] theorem State.modLoom_power (f : LoomSt → LoomSt) : (s.modLoom f).power = s.power := rfl
@[simp] theorem State.modLoom_boot (f : LoomSt → LoomSt) : (s.modLoom f).boot = s.boot := rfl
@[simp] theorem State.modLoom_core (f : LoomSt → LoomSt) : (s.modLoom f).core = s.core := rfl
@[simp] theorem State.modLoom_shtl (f : LoomSt → LoomSt) : (s.modLoom f).shtl = s.shtl := rfl
@[simp] theorem State.modLoom_rfrx (f : LoomSt → LoomSt) : (s.modLoom f).rfrx = s.rfrx := rfl
@[simp] theorem State.modLoom_demod (f : LoomSt → LoomSt) : (s.modLoom f).demod = s.demod := rfl
@[simp] theorem State.modLoom_tx (f : LoomSt → LoomSt) : (s.modLoom f).tx = s.tx := rfl
@[simp] theorem State.modLoom_mac (f : LoomSt → LoomSt) : (s.modLoom f).mac = s.mac := rfl
@[simp] theorem State.modLoom_sec (f : LoomSt → LoomSt) : (s.modLoom f).sec = s.sec := rfl
@[simp] theorem State.modLoom_tbl (f : LoomSt → LoomSt) : (s.modLoom f).tbl = s.tbl := rfl
@[simp] theorem State.modLoom_time (f : LoomSt → LoomSt) : (s.modLoom f).time = s.time := rfl
@[simp] theorem State.modLoom_tmr (f : LoomSt → LoomSt) : (s.modLoom f).tmr = s.tmr := rfl
@[simp] theorem State.modLoom_nvm (f : LoomSt → LoomSt) : (s.modLoom f).nvm = s.nvm := rfl
@[simp] theorem State.modLoom_spim (f : LoomSt → LoomSt) : (s.modLoom f).spim = s.spim := rfl
@[simp] theorem State.modLoom_spis (f : LoomSt → LoomSt) : (s.modLoom f).spis = s.spis := rfl
@[simp] theorem State.modLoom_rtc (f : LoomSt → LoomSt) : (s.modLoom f).rtc = s.rtc := rfl
@[simp] theorem State.modLoom_msu (f : LoomSt → LoomSt) : (s.modLoom f).msu = s.msu := rfl
@[simp] theorem State.modLoom_twil (f : LoomSt → LoomSt) : (s.modLoom f).twil = s.twil := rfl
@[simp] theorem State.modLoom_evr (f : LoomSt → LoomSt) : (s.modLoom f).evr = s.evr := rfl
@[simp] theorem State.modLoom_ring (f : LoomSt → LoomSt) : (s.modLoom f).ring = s.ring := rfl
@[simp] theorem State.modLoom_dict (f : LoomSt → LoomSt) : (s.modLoom f).dict = s.dict := rfl

/-! ### State.modMac -/

@[simp] theorem State.modMac_pending (f : MacSt → MacSt) : (s.modMac f).pending = s.pending := rfl
@[simp] theorem State.modMac_now (f : MacSt → MacSt) : (s.modMac f).now = s.now := rfl
@[simp] theorem State.modMac_free (f : MacSt → MacSt) : (s.modMac f).free = s.free := rfl
@[simp] theorem State.modMac_regs (f : MacSt → MacSt) : (s.modMac f).regs = s.regs := rfl
@[simp] theorem State.modMac_totals (f : MacSt → MacSt) : (s.modMac f).totals = s.totals := rfl
@[simp] theorem State.modMac_mem (f : MacSt → MacSt) : (s.modMac f).mem = s.mem := rfl
@[simp] theorem State.modMac_bus (f : MacSt → MacSt) : (s.modMac f).bus = s.bus := rfl
@[simp] theorem State.modMac_tick (f : MacSt → MacSt) : (s.modMac f).tick = s.tick := rfl
@[simp] theorem State.modMac_pins (f : MacSt → MacSt) : (s.modMac f).pins = s.pins := rfl
@[simp] theorem State.modMac_power (f : MacSt → MacSt) : (s.modMac f).power = s.power := rfl
@[simp] theorem State.modMac_boot (f : MacSt → MacSt) : (s.modMac f).boot = s.boot := rfl
@[simp] theorem State.modMac_core (f : MacSt → MacSt) : (s.modMac f).core = s.core := rfl
@[simp] theorem State.modMac_shtl (f : MacSt → MacSt) : (s.modMac f).shtl = s.shtl := rfl
@[simp] theorem State.modMac_rfrx (f : MacSt → MacSt) : (s.modMac f).rfrx = s.rfrx := rfl
@[simp] theorem State.modMac_loom (f : MacSt → MacSt) : (s.modMac f).loom = s.loom := rfl
@[simp] theorem State.modMac_demod (f : MacSt → MacSt) : (s.modMac f).demod = s.demod := rfl
@[simp] theorem State.modMac_tx (f : MacSt → MacSt) : (s.modMac f).tx = s.tx := rfl
@[simp] theorem State.modMac_sec (f : MacSt → MacSt) : (s.modMac f).sec = s.sec := rfl
@[simp] theorem State.modMac_tbl (f : MacSt → MacSt) : (s.modMac f).tbl = s.tbl := rfl
@[simp] theorem State.modMac_time (f : MacSt → MacSt) : (s.modMac f).time = s.time := rfl
@[simp] theorem State.modMac_tmr (f : MacSt → MacSt) : (s.modMac f).tmr = s.tmr := rfl
@[simp] theorem State.modMac_nvm (f : MacSt → MacSt) : (s.modMac f).nvm = s.nvm := rfl
@[simp] theorem State.modMac_spim (f : MacSt → MacSt) : (s.modMac f).spim = s.spim := rfl
@[simp] theorem State.modMac_spis (f : MacSt → MacSt) : (s.modMac f).spis = s.spis := rfl
@[simp] theorem State.modMac_rtc (f : MacSt → MacSt) : (s.modMac f).rtc = s.rtc := rfl
@[simp] theorem State.modMac_msu (f : MacSt → MacSt) : (s.modMac f).msu = s.msu := rfl
@[simp] theorem State.modMac_twil (f : MacSt → MacSt) : (s.modMac f).twil = s.twil := rfl
@[simp] theorem State.modMac_evr (f : MacSt → MacSt) : (s.modMac f).evr = s.evr := rfl
@[simp] theorem State.modMac_ring (f : MacSt → MacSt) : (s.modMac f).ring = s.ring := rfl
@[simp] theorem State.modMac_dict (f : MacSt → MacSt) : (s.modMac f).dict = s.dict := rfl

/-! ### State.modMsu -/

@[simp] theorem State.modMsu_pending (f : MsuSt → MsuSt) : (s.modMsu f).pending = s.pending := rfl
@[simp] theorem State.modMsu_now (f : MsuSt → MsuSt) : (s.modMsu f).now = s.now := rfl
@[simp] theorem State.modMsu_free (f : MsuSt → MsuSt) : (s.modMsu f).free = s.free := rfl
@[simp] theorem State.modMsu_regs (f : MsuSt → MsuSt) : (s.modMsu f).regs = s.regs := rfl
@[simp] theorem State.modMsu_totals (f : MsuSt → MsuSt) : (s.modMsu f).totals = s.totals := rfl
@[simp] theorem State.modMsu_mem (f : MsuSt → MsuSt) : (s.modMsu f).mem = s.mem := rfl
@[simp] theorem State.modMsu_bus (f : MsuSt → MsuSt) : (s.modMsu f).bus = s.bus := rfl
@[simp] theorem State.modMsu_tick (f : MsuSt → MsuSt) : (s.modMsu f).tick = s.tick := rfl
@[simp] theorem State.modMsu_pins (f : MsuSt → MsuSt) : (s.modMsu f).pins = s.pins := rfl
@[simp] theorem State.modMsu_power (f : MsuSt → MsuSt) : (s.modMsu f).power = s.power := rfl
@[simp] theorem State.modMsu_boot (f : MsuSt → MsuSt) : (s.modMsu f).boot = s.boot := rfl
@[simp] theorem State.modMsu_core (f : MsuSt → MsuSt) : (s.modMsu f).core = s.core := rfl
@[simp] theorem State.modMsu_shtl (f : MsuSt → MsuSt) : (s.modMsu f).shtl = s.shtl := rfl
@[simp] theorem State.modMsu_rfrx (f : MsuSt → MsuSt) : (s.modMsu f).rfrx = s.rfrx := rfl
@[simp] theorem State.modMsu_loom (f : MsuSt → MsuSt) : (s.modMsu f).loom = s.loom := rfl
@[simp] theorem State.modMsu_demod (f : MsuSt → MsuSt) : (s.modMsu f).demod = s.demod := rfl
@[simp] theorem State.modMsu_tx (f : MsuSt → MsuSt) : (s.modMsu f).tx = s.tx := rfl
@[simp] theorem State.modMsu_mac (f : MsuSt → MsuSt) : (s.modMsu f).mac = s.mac := rfl
@[simp] theorem State.modMsu_sec (f : MsuSt → MsuSt) : (s.modMsu f).sec = s.sec := rfl
@[simp] theorem State.modMsu_tbl (f : MsuSt → MsuSt) : (s.modMsu f).tbl = s.tbl := rfl
@[simp] theorem State.modMsu_time (f : MsuSt → MsuSt) : (s.modMsu f).time = s.time := rfl
@[simp] theorem State.modMsu_tmr (f : MsuSt → MsuSt) : (s.modMsu f).tmr = s.tmr := rfl
@[simp] theorem State.modMsu_nvm (f : MsuSt → MsuSt) : (s.modMsu f).nvm = s.nvm := rfl
@[simp] theorem State.modMsu_spim (f : MsuSt → MsuSt) : (s.modMsu f).spim = s.spim := rfl
@[simp] theorem State.modMsu_spis (f : MsuSt → MsuSt) : (s.modMsu f).spis = s.spis := rfl
@[simp] theorem State.modMsu_rtc (f : MsuSt → MsuSt) : (s.modMsu f).rtc = s.rtc := rfl
@[simp] theorem State.modMsu_twil (f : MsuSt → MsuSt) : (s.modMsu f).twil = s.twil := rfl
@[simp] theorem State.modMsu_evr (f : MsuSt → MsuSt) : (s.modMsu f).evr = s.evr := rfl
@[simp] theorem State.modMsu_ring (f : MsuSt → MsuSt) : (s.modMsu f).ring = s.ring := rfl
@[simp] theorem State.modMsu_dict (f : MsuSt → MsuSt) : (s.modMsu f).dict = s.dict := rfl

/-! ### State.modPower -/

@[simp] theorem State.modPower_pending (f : PowerSt → PowerSt) : (s.modPower f).pending = s.pending := rfl
@[simp] theorem State.modPower_now (f : PowerSt → PowerSt) : (s.modPower f).now = s.now := rfl
@[simp] theorem State.modPower_free (f : PowerSt → PowerSt) : (s.modPower f).free = s.free := rfl
@[simp] theorem State.modPower_regs (f : PowerSt → PowerSt) : (s.modPower f).regs = s.regs := rfl
@[simp] theorem State.modPower_totals (f : PowerSt → PowerSt) : (s.modPower f).totals = s.totals := rfl
@[simp] theorem State.modPower_mem (f : PowerSt → PowerSt) : (s.modPower f).mem = s.mem := rfl
@[simp] theorem State.modPower_bus (f : PowerSt → PowerSt) : (s.modPower f).bus = s.bus := rfl
@[simp] theorem State.modPower_tick (f : PowerSt → PowerSt) : (s.modPower f).tick = s.tick := rfl
@[simp] theorem State.modPower_pins (f : PowerSt → PowerSt) : (s.modPower f).pins = s.pins := rfl
@[simp] theorem State.modPower_boot (f : PowerSt → PowerSt) : (s.modPower f).boot = s.boot := rfl
@[simp] theorem State.modPower_core (f : PowerSt → PowerSt) : (s.modPower f).core = s.core := rfl
@[simp] theorem State.modPower_shtl (f : PowerSt → PowerSt) : (s.modPower f).shtl = s.shtl := rfl
@[simp] theorem State.modPower_rfrx (f : PowerSt → PowerSt) : (s.modPower f).rfrx = s.rfrx := rfl
@[simp] theorem State.modPower_loom (f : PowerSt → PowerSt) : (s.modPower f).loom = s.loom := rfl
@[simp] theorem State.modPower_demod (f : PowerSt → PowerSt) : (s.modPower f).demod = s.demod := rfl
@[simp] theorem State.modPower_tx (f : PowerSt → PowerSt) : (s.modPower f).tx = s.tx := rfl
@[simp] theorem State.modPower_mac (f : PowerSt → PowerSt) : (s.modPower f).mac = s.mac := rfl
@[simp] theorem State.modPower_sec (f : PowerSt → PowerSt) : (s.modPower f).sec = s.sec := rfl
@[simp] theorem State.modPower_tbl (f : PowerSt → PowerSt) : (s.modPower f).tbl = s.tbl := rfl
@[simp] theorem State.modPower_time (f : PowerSt → PowerSt) : (s.modPower f).time = s.time := rfl
@[simp] theorem State.modPower_tmr (f : PowerSt → PowerSt) : (s.modPower f).tmr = s.tmr := rfl
@[simp] theorem State.modPower_nvm (f : PowerSt → PowerSt) : (s.modPower f).nvm = s.nvm := rfl
@[simp] theorem State.modPower_spim (f : PowerSt → PowerSt) : (s.modPower f).spim = s.spim := rfl
@[simp] theorem State.modPower_spis (f : PowerSt → PowerSt) : (s.modPower f).spis = s.spis := rfl
@[simp] theorem State.modPower_rtc (f : PowerSt → PowerSt) : (s.modPower f).rtc = s.rtc := rfl
@[simp] theorem State.modPower_msu (f : PowerSt → PowerSt) : (s.modPower f).msu = s.msu := rfl
@[simp] theorem State.modPower_twil (f : PowerSt → PowerSt) : (s.modPower f).twil = s.twil := rfl
@[simp] theorem State.modPower_evr (f : PowerSt → PowerSt) : (s.modPower f).evr = s.evr := rfl
@[simp] theorem State.modPower_ring (f : PowerSt → PowerSt) : (s.modPower f).ring = s.ring := rfl
@[simp] theorem State.modPower_dict (f : PowerSt → PowerSt) : (s.modPower f).dict = s.dict := rfl

/-! ### State.modRing -/

@[simp] theorem State.modRing_pending (f : RingSt → RingSt) : (s.modRing f).pending = s.pending := rfl
@[simp] theorem State.modRing_now (f : RingSt → RingSt) : (s.modRing f).now = s.now := rfl
@[simp] theorem State.modRing_free (f : RingSt → RingSt) : (s.modRing f).free = s.free := rfl
@[simp] theorem State.modRing_regs (f : RingSt → RingSt) : (s.modRing f).regs = s.regs := rfl
@[simp] theorem State.modRing_totals (f : RingSt → RingSt) : (s.modRing f).totals = s.totals := rfl
@[simp] theorem State.modRing_mem (f : RingSt → RingSt) : (s.modRing f).mem = s.mem := rfl
@[simp] theorem State.modRing_bus (f : RingSt → RingSt) : (s.modRing f).bus = s.bus := rfl
@[simp] theorem State.modRing_tick (f : RingSt → RingSt) : (s.modRing f).tick = s.tick := rfl
@[simp] theorem State.modRing_pins (f : RingSt → RingSt) : (s.modRing f).pins = s.pins := rfl
@[simp] theorem State.modRing_power (f : RingSt → RingSt) : (s.modRing f).power = s.power := rfl
@[simp] theorem State.modRing_boot (f : RingSt → RingSt) : (s.modRing f).boot = s.boot := rfl
@[simp] theorem State.modRing_core (f : RingSt → RingSt) : (s.modRing f).core = s.core := rfl
@[simp] theorem State.modRing_shtl (f : RingSt → RingSt) : (s.modRing f).shtl = s.shtl := rfl
@[simp] theorem State.modRing_rfrx (f : RingSt → RingSt) : (s.modRing f).rfrx = s.rfrx := rfl
@[simp] theorem State.modRing_loom (f : RingSt → RingSt) : (s.modRing f).loom = s.loom := rfl
@[simp] theorem State.modRing_demod (f : RingSt → RingSt) : (s.modRing f).demod = s.demod := rfl
@[simp] theorem State.modRing_tx (f : RingSt → RingSt) : (s.modRing f).tx = s.tx := rfl
@[simp] theorem State.modRing_mac (f : RingSt → RingSt) : (s.modRing f).mac = s.mac := rfl
@[simp] theorem State.modRing_sec (f : RingSt → RingSt) : (s.modRing f).sec = s.sec := rfl
@[simp] theorem State.modRing_tbl (f : RingSt → RingSt) : (s.modRing f).tbl = s.tbl := rfl
@[simp] theorem State.modRing_time (f : RingSt → RingSt) : (s.modRing f).time = s.time := rfl
@[simp] theorem State.modRing_tmr (f : RingSt → RingSt) : (s.modRing f).tmr = s.tmr := rfl
@[simp] theorem State.modRing_nvm (f : RingSt → RingSt) : (s.modRing f).nvm = s.nvm := rfl
@[simp] theorem State.modRing_spim (f : RingSt → RingSt) : (s.modRing f).spim = s.spim := rfl
@[simp] theorem State.modRing_spis (f : RingSt → RingSt) : (s.modRing f).spis = s.spis := rfl
@[simp] theorem State.modRing_rtc (f : RingSt → RingSt) : (s.modRing f).rtc = s.rtc := rfl
@[simp] theorem State.modRing_msu (f : RingSt → RingSt) : (s.modRing f).msu = s.msu := rfl
@[simp] theorem State.modRing_twil (f : RingSt → RingSt) : (s.modRing f).twil = s.twil := rfl
@[simp] theorem State.modRing_evr (f : RingSt → RingSt) : (s.modRing f).evr = s.evr := rfl
@[simp] theorem State.modRing_dict (f : RingSt → RingSt) : (s.modRing f).dict = s.dict := rfl

/-! ### State.modRtc -/

@[simp] theorem State.modRtc_pending (f : RtcSt → RtcSt) : (s.modRtc f).pending = s.pending := rfl
@[simp] theorem State.modRtc_now (f : RtcSt → RtcSt) : (s.modRtc f).now = s.now := rfl
@[simp] theorem State.modRtc_free (f : RtcSt → RtcSt) : (s.modRtc f).free = s.free := rfl
@[simp] theorem State.modRtc_regs (f : RtcSt → RtcSt) : (s.modRtc f).regs = s.regs := rfl
@[simp] theorem State.modRtc_totals (f : RtcSt → RtcSt) : (s.modRtc f).totals = s.totals := rfl
@[simp] theorem State.modRtc_mem (f : RtcSt → RtcSt) : (s.modRtc f).mem = s.mem := rfl
@[simp] theorem State.modRtc_bus (f : RtcSt → RtcSt) : (s.modRtc f).bus = s.bus := rfl
@[simp] theorem State.modRtc_tick (f : RtcSt → RtcSt) : (s.modRtc f).tick = s.tick := rfl
@[simp] theorem State.modRtc_pins (f : RtcSt → RtcSt) : (s.modRtc f).pins = s.pins := rfl
@[simp] theorem State.modRtc_power (f : RtcSt → RtcSt) : (s.modRtc f).power = s.power := rfl
@[simp] theorem State.modRtc_boot (f : RtcSt → RtcSt) : (s.modRtc f).boot = s.boot := rfl
@[simp] theorem State.modRtc_core (f : RtcSt → RtcSt) : (s.modRtc f).core = s.core := rfl
@[simp] theorem State.modRtc_shtl (f : RtcSt → RtcSt) : (s.modRtc f).shtl = s.shtl := rfl
@[simp] theorem State.modRtc_rfrx (f : RtcSt → RtcSt) : (s.modRtc f).rfrx = s.rfrx := rfl
@[simp] theorem State.modRtc_loom (f : RtcSt → RtcSt) : (s.modRtc f).loom = s.loom := rfl
@[simp] theorem State.modRtc_demod (f : RtcSt → RtcSt) : (s.modRtc f).demod = s.demod := rfl
@[simp] theorem State.modRtc_tx (f : RtcSt → RtcSt) : (s.modRtc f).tx = s.tx := rfl
@[simp] theorem State.modRtc_mac (f : RtcSt → RtcSt) : (s.modRtc f).mac = s.mac := rfl
@[simp] theorem State.modRtc_sec (f : RtcSt → RtcSt) : (s.modRtc f).sec = s.sec := rfl
@[simp] theorem State.modRtc_tbl (f : RtcSt → RtcSt) : (s.modRtc f).tbl = s.tbl := rfl
@[simp] theorem State.modRtc_time (f : RtcSt → RtcSt) : (s.modRtc f).time = s.time := rfl
@[simp] theorem State.modRtc_tmr (f : RtcSt → RtcSt) : (s.modRtc f).tmr = s.tmr := rfl
@[simp] theorem State.modRtc_nvm (f : RtcSt → RtcSt) : (s.modRtc f).nvm = s.nvm := rfl
@[simp] theorem State.modRtc_spim (f : RtcSt → RtcSt) : (s.modRtc f).spim = s.spim := rfl
@[simp] theorem State.modRtc_spis (f : RtcSt → RtcSt) : (s.modRtc f).spis = s.spis := rfl
@[simp] theorem State.modRtc_msu (f : RtcSt → RtcSt) : (s.modRtc f).msu = s.msu := rfl
@[simp] theorem State.modRtc_twil (f : RtcSt → RtcSt) : (s.modRtc f).twil = s.twil := rfl
@[simp] theorem State.modRtc_evr (f : RtcSt → RtcSt) : (s.modRtc f).evr = s.evr := rfl
@[simp] theorem State.modRtc_ring (f : RtcSt → RtcSt) : (s.modRtc f).ring = s.ring := rfl
@[simp] theorem State.modRtc_dict (f : RtcSt → RtcSt) : (s.modRtc f).dict = s.dict := rfl

/-! ### State.modRx -/

@[simp] theorem State.modRx_pending (f : RfrxSt → RfrxSt) : (s.modRx f).pending = s.pending := rfl
@[simp] theorem State.modRx_now (f : RfrxSt → RfrxSt) : (s.modRx f).now = s.now := rfl
@[simp] theorem State.modRx_free (f : RfrxSt → RfrxSt) : (s.modRx f).free = s.free := rfl
@[simp] theorem State.modRx_regs (f : RfrxSt → RfrxSt) : (s.modRx f).regs = s.regs := rfl
@[simp] theorem State.modRx_totals (f : RfrxSt → RfrxSt) : (s.modRx f).totals = s.totals := rfl
@[simp] theorem State.modRx_mem (f : RfrxSt → RfrxSt) : (s.modRx f).mem = s.mem := rfl
@[simp] theorem State.modRx_bus (f : RfrxSt → RfrxSt) : (s.modRx f).bus = s.bus := rfl
@[simp] theorem State.modRx_tick (f : RfrxSt → RfrxSt) : (s.modRx f).tick = s.tick := rfl
@[simp] theorem State.modRx_pins (f : RfrxSt → RfrxSt) : (s.modRx f).pins = s.pins := rfl
@[simp] theorem State.modRx_power (f : RfrxSt → RfrxSt) : (s.modRx f).power = s.power := rfl
@[simp] theorem State.modRx_boot (f : RfrxSt → RfrxSt) : (s.modRx f).boot = s.boot := rfl
@[simp] theorem State.modRx_core (f : RfrxSt → RfrxSt) : (s.modRx f).core = s.core := rfl
@[simp] theorem State.modRx_shtl (f : RfrxSt → RfrxSt) : (s.modRx f).shtl = s.shtl := rfl
@[simp] theorem State.modRx_loom (f : RfrxSt → RfrxSt) : (s.modRx f).loom = s.loom := rfl
@[simp] theorem State.modRx_demod (f : RfrxSt → RfrxSt) : (s.modRx f).demod = s.demod := rfl
@[simp] theorem State.modRx_tx (f : RfrxSt → RfrxSt) : (s.modRx f).tx = s.tx := rfl
@[simp] theorem State.modRx_mac (f : RfrxSt → RfrxSt) : (s.modRx f).mac = s.mac := rfl
@[simp] theorem State.modRx_sec (f : RfrxSt → RfrxSt) : (s.modRx f).sec = s.sec := rfl
@[simp] theorem State.modRx_tbl (f : RfrxSt → RfrxSt) : (s.modRx f).tbl = s.tbl := rfl
@[simp] theorem State.modRx_time (f : RfrxSt → RfrxSt) : (s.modRx f).time = s.time := rfl
@[simp] theorem State.modRx_tmr (f : RfrxSt → RfrxSt) : (s.modRx f).tmr = s.tmr := rfl
@[simp] theorem State.modRx_nvm (f : RfrxSt → RfrxSt) : (s.modRx f).nvm = s.nvm := rfl
@[simp] theorem State.modRx_spim (f : RfrxSt → RfrxSt) : (s.modRx f).spim = s.spim := rfl
@[simp] theorem State.modRx_spis (f : RfrxSt → RfrxSt) : (s.modRx f).spis = s.spis := rfl
@[simp] theorem State.modRx_rtc (f : RfrxSt → RfrxSt) : (s.modRx f).rtc = s.rtc := rfl
@[simp] theorem State.modRx_msu (f : RfrxSt → RfrxSt) : (s.modRx f).msu = s.msu := rfl
@[simp] theorem State.modRx_twil (f : RfrxSt → RfrxSt) : (s.modRx f).twil = s.twil := rfl
@[simp] theorem State.modRx_evr (f : RfrxSt → RfrxSt) : (s.modRx f).evr = s.evr := rfl
@[simp] theorem State.modRx_ring (f : RfrxSt → RfrxSt) : (s.modRx f).ring = s.ring := rfl
@[simp] theorem State.modRx_dict (f : RfrxSt → RfrxSt) : (s.modRx f).dict = s.dict := rfl

/-! ### State.modEng -/

@[simp] theorem State.modEng_pending (n : Fin 32) (f : Engine → Engine) : (s.modEng n f).pending = s.pending := rfl
@[simp] theorem State.modEng_now (n : Fin 32) (f : Engine → Engine) : (s.modEng n f).now = s.now := rfl
@[simp] theorem State.modEng_free (n : Fin 32) (f : Engine → Engine) : (s.modEng n f).free = s.free := rfl
@[simp] theorem State.modEng_regs (n : Fin 32) (f : Engine → Engine) : (s.modEng n f).regs = s.regs := rfl
@[simp] theorem State.modEng_totals (n : Fin 32) (f : Engine → Engine) : (s.modEng n f).totals = s.totals := rfl
@[simp] theorem State.modEng_mem (n : Fin 32) (f : Engine → Engine) : (s.modEng n f).mem = s.mem := rfl
@[simp] theorem State.modEng_bus (n : Fin 32) (f : Engine → Engine) : (s.modEng n f).bus = s.bus := rfl
@[simp] theorem State.modEng_tick (n : Fin 32) (f : Engine → Engine) : (s.modEng n f).tick = s.tick := rfl
@[simp] theorem State.modEng_pins (n : Fin 32) (f : Engine → Engine) : (s.modEng n f).pins = s.pins := rfl
@[simp] theorem State.modEng_power (n : Fin 32) (f : Engine → Engine) : (s.modEng n f).power = s.power := rfl
@[simp] theorem State.modEng_boot (n : Fin 32) (f : Engine → Engine) : (s.modEng n f).boot = s.boot := rfl
@[simp] theorem State.modEng_core (n : Fin 32) (f : Engine → Engine) : (s.modEng n f).core = s.core := rfl
@[simp] theorem State.modEng_rfrx (n : Fin 32) (f : Engine → Engine) : (s.modEng n f).rfrx = s.rfrx := rfl
@[simp] theorem State.modEng_loom (n : Fin 32) (f : Engine → Engine) : (s.modEng n f).loom = s.loom := rfl
@[simp] theorem State.modEng_demod (n : Fin 32) (f : Engine → Engine) : (s.modEng n f).demod = s.demod := rfl
@[simp] theorem State.modEng_tx (n : Fin 32) (f : Engine → Engine) : (s.modEng n f).tx = s.tx := rfl
@[simp] theorem State.modEng_mac (n : Fin 32) (f : Engine → Engine) : (s.modEng n f).mac = s.mac := rfl
@[simp] theorem State.modEng_sec (n : Fin 32) (f : Engine → Engine) : (s.modEng n f).sec = s.sec := rfl
@[simp] theorem State.modEng_tbl (n : Fin 32) (f : Engine → Engine) : (s.modEng n f).tbl = s.tbl := rfl
@[simp] theorem State.modEng_time (n : Fin 32) (f : Engine → Engine) : (s.modEng n f).time = s.time := rfl
@[simp] theorem State.modEng_tmr (n : Fin 32) (f : Engine → Engine) : (s.modEng n f).tmr = s.tmr := rfl
@[simp] theorem State.modEng_nvm (n : Fin 32) (f : Engine → Engine) : (s.modEng n f).nvm = s.nvm := rfl
@[simp] theorem State.modEng_spim (n : Fin 32) (f : Engine → Engine) : (s.modEng n f).spim = s.spim := rfl
@[simp] theorem State.modEng_spis (n : Fin 32) (f : Engine → Engine) : (s.modEng n f).spis = s.spis := rfl
@[simp] theorem State.modEng_rtc (n : Fin 32) (f : Engine → Engine) : (s.modEng n f).rtc = s.rtc := rfl
@[simp] theorem State.modEng_msu (n : Fin 32) (f : Engine → Engine) : (s.modEng n f).msu = s.msu := rfl
@[simp] theorem State.modEng_twil (n : Fin 32) (f : Engine → Engine) : (s.modEng n f).twil = s.twil := rfl
@[simp] theorem State.modEng_evr (n : Fin 32) (f : Engine → Engine) : (s.modEng n f).evr = s.evr := rfl
@[simp] theorem State.modEng_ring (n : Fin 32) (f : Engine → Engine) : (s.modEng n f).ring = s.ring := rfl
@[simp] theorem State.modEng_dict (n : Fin 32) (f : Engine → Engine) : (s.modEng n f).dict = s.dict := rfl

/-! ### State.modWeft -/

@[simp] theorem State.modWeft_pending (n : Fin 32) (f : Cpu → Cpu) : (s.modWeft n f).pending = s.pending := rfl
@[simp] theorem State.modWeft_now (n : Fin 32) (f : Cpu → Cpu) : (s.modWeft n f).now = s.now := rfl
@[simp] theorem State.modWeft_free (n : Fin 32) (f : Cpu → Cpu) : (s.modWeft n f).free = s.free := rfl
@[simp] theorem State.modWeft_regs (n : Fin 32) (f : Cpu → Cpu) : (s.modWeft n f).regs = s.regs := rfl
@[simp] theorem State.modWeft_totals (n : Fin 32) (f : Cpu → Cpu) : (s.modWeft n f).totals = s.totals := rfl
@[simp] theorem State.modWeft_mem (n : Fin 32) (f : Cpu → Cpu) : (s.modWeft n f).mem = s.mem := rfl
@[simp] theorem State.modWeft_bus (n : Fin 32) (f : Cpu → Cpu) : (s.modWeft n f).bus = s.bus := rfl
@[simp] theorem State.modWeft_tick (n : Fin 32) (f : Cpu → Cpu) : (s.modWeft n f).tick = s.tick := rfl
@[simp] theorem State.modWeft_pins (n : Fin 32) (f : Cpu → Cpu) : (s.modWeft n f).pins = s.pins := rfl
@[simp] theorem State.modWeft_power (n : Fin 32) (f : Cpu → Cpu) : (s.modWeft n f).power = s.power := rfl
@[simp] theorem State.modWeft_boot (n : Fin 32) (f : Cpu → Cpu) : (s.modWeft n f).boot = s.boot := rfl
@[simp] theorem State.modWeft_core (n : Fin 32) (f : Cpu → Cpu) : (s.modWeft n f).core = s.core := rfl
@[simp] theorem State.modWeft_rfrx (n : Fin 32) (f : Cpu → Cpu) : (s.modWeft n f).rfrx = s.rfrx := rfl
@[simp] theorem State.modWeft_loom (n : Fin 32) (f : Cpu → Cpu) : (s.modWeft n f).loom = s.loom := rfl
@[simp] theorem State.modWeft_demod (n : Fin 32) (f : Cpu → Cpu) : (s.modWeft n f).demod = s.demod := rfl
@[simp] theorem State.modWeft_tx (n : Fin 32) (f : Cpu → Cpu) : (s.modWeft n f).tx = s.tx := rfl
@[simp] theorem State.modWeft_mac (n : Fin 32) (f : Cpu → Cpu) : (s.modWeft n f).mac = s.mac := rfl
@[simp] theorem State.modWeft_sec (n : Fin 32) (f : Cpu → Cpu) : (s.modWeft n f).sec = s.sec := rfl
@[simp] theorem State.modWeft_tbl (n : Fin 32) (f : Cpu → Cpu) : (s.modWeft n f).tbl = s.tbl := rfl
@[simp] theorem State.modWeft_time (n : Fin 32) (f : Cpu → Cpu) : (s.modWeft n f).time = s.time := rfl
@[simp] theorem State.modWeft_tmr (n : Fin 32) (f : Cpu → Cpu) : (s.modWeft n f).tmr = s.tmr := rfl
@[simp] theorem State.modWeft_nvm (n : Fin 32) (f : Cpu → Cpu) : (s.modWeft n f).nvm = s.nvm := rfl
@[simp] theorem State.modWeft_spim (n : Fin 32) (f : Cpu → Cpu) : (s.modWeft n f).spim = s.spim := rfl
@[simp] theorem State.modWeft_spis (n : Fin 32) (f : Cpu → Cpu) : (s.modWeft n f).spis = s.spis := rfl
@[simp] theorem State.modWeft_rtc (n : Fin 32) (f : Cpu → Cpu) : (s.modWeft n f).rtc = s.rtc := rfl
@[simp] theorem State.modWeft_msu (n : Fin 32) (f : Cpu → Cpu) : (s.modWeft n f).msu = s.msu := rfl
@[simp] theorem State.modWeft_twil (n : Fin 32) (f : Cpu → Cpu) : (s.modWeft n f).twil = s.twil := rfl
@[simp] theorem State.modWeft_evr (n : Fin 32) (f : Cpu → Cpu) : (s.modWeft n f).evr = s.evr := rfl
@[simp] theorem State.modWeft_ring (n : Fin 32) (f : Cpu → Cpu) : (s.modWeft n f).ring = s.ring := rfl
@[simp] theorem State.modWeft_dict (n : Fin 32) (f : Cpu → Cpu) : (s.modWeft n f).dict = s.dict := rfl

/-! ### State.modSpim -/

@[simp] theorem State.modSpim_pending (f : SpimSt → SpimSt) : (s.modSpim f).pending = s.pending := rfl
@[simp] theorem State.modSpim_now (f : SpimSt → SpimSt) : (s.modSpim f).now = s.now := rfl
@[simp] theorem State.modSpim_free (f : SpimSt → SpimSt) : (s.modSpim f).free = s.free := rfl
@[simp] theorem State.modSpim_regs (f : SpimSt → SpimSt) : (s.modSpim f).regs = s.regs := rfl
@[simp] theorem State.modSpim_totals (f : SpimSt → SpimSt) : (s.modSpim f).totals = s.totals := rfl
@[simp] theorem State.modSpim_mem (f : SpimSt → SpimSt) : (s.modSpim f).mem = s.mem := rfl
@[simp] theorem State.modSpim_bus (f : SpimSt → SpimSt) : (s.modSpim f).bus = s.bus := rfl
@[simp] theorem State.modSpim_tick (f : SpimSt → SpimSt) : (s.modSpim f).tick = s.tick := rfl
@[simp] theorem State.modSpim_pins (f : SpimSt → SpimSt) : (s.modSpim f).pins = s.pins := rfl
@[simp] theorem State.modSpim_power (f : SpimSt → SpimSt) : (s.modSpim f).power = s.power := rfl
@[simp] theorem State.modSpim_boot (f : SpimSt → SpimSt) : (s.modSpim f).boot = s.boot := rfl
@[simp] theorem State.modSpim_core (f : SpimSt → SpimSt) : (s.modSpim f).core = s.core := rfl
@[simp] theorem State.modSpim_shtl (f : SpimSt → SpimSt) : (s.modSpim f).shtl = s.shtl := rfl
@[simp] theorem State.modSpim_rfrx (f : SpimSt → SpimSt) : (s.modSpim f).rfrx = s.rfrx := rfl
@[simp] theorem State.modSpim_loom (f : SpimSt → SpimSt) : (s.modSpim f).loom = s.loom := rfl
@[simp] theorem State.modSpim_demod (f : SpimSt → SpimSt) : (s.modSpim f).demod = s.demod := rfl
@[simp] theorem State.modSpim_tx (f : SpimSt → SpimSt) : (s.modSpim f).tx = s.tx := rfl
@[simp] theorem State.modSpim_mac (f : SpimSt → SpimSt) : (s.modSpim f).mac = s.mac := rfl
@[simp] theorem State.modSpim_sec (f : SpimSt → SpimSt) : (s.modSpim f).sec = s.sec := rfl
@[simp] theorem State.modSpim_tbl (f : SpimSt → SpimSt) : (s.modSpim f).tbl = s.tbl := rfl
@[simp] theorem State.modSpim_time (f : SpimSt → SpimSt) : (s.modSpim f).time = s.time := rfl
@[simp] theorem State.modSpim_tmr (f : SpimSt → SpimSt) : (s.modSpim f).tmr = s.tmr := rfl
@[simp] theorem State.modSpim_nvm (f : SpimSt → SpimSt) : (s.modSpim f).nvm = s.nvm := rfl
@[simp] theorem State.modSpim_spis (f : SpimSt → SpimSt) : (s.modSpim f).spis = s.spis := rfl
@[simp] theorem State.modSpim_rtc (f : SpimSt → SpimSt) : (s.modSpim f).rtc = s.rtc := rfl
@[simp] theorem State.modSpim_msu (f : SpimSt → SpimSt) : (s.modSpim f).msu = s.msu := rfl
@[simp] theorem State.modSpim_twil (f : SpimSt → SpimSt) : (s.modSpim f).twil = s.twil := rfl
@[simp] theorem State.modSpim_evr (f : SpimSt → SpimSt) : (s.modSpim f).evr = s.evr := rfl
@[simp] theorem State.modSpim_ring (f : SpimSt → SpimSt) : (s.modSpim f).ring = s.ring := rfl
@[simp] theorem State.modSpim_dict (f : SpimSt → SpimSt) : (s.modSpim f).dict = s.dict := rfl

/-! ### State.modSpis -/

@[simp] theorem State.modSpis_pending (f : SpisSt → SpisSt) : (s.modSpis f).pending = s.pending := rfl
@[simp] theorem State.modSpis_now (f : SpisSt → SpisSt) : (s.modSpis f).now = s.now := rfl
@[simp] theorem State.modSpis_free (f : SpisSt → SpisSt) : (s.modSpis f).free = s.free := rfl
@[simp] theorem State.modSpis_regs (f : SpisSt → SpisSt) : (s.modSpis f).regs = s.regs := rfl
@[simp] theorem State.modSpis_totals (f : SpisSt → SpisSt) : (s.modSpis f).totals = s.totals := rfl
@[simp] theorem State.modSpis_mem (f : SpisSt → SpisSt) : (s.modSpis f).mem = s.mem := rfl
@[simp] theorem State.modSpis_bus (f : SpisSt → SpisSt) : (s.modSpis f).bus = s.bus := rfl
@[simp] theorem State.modSpis_tick (f : SpisSt → SpisSt) : (s.modSpis f).tick = s.tick := rfl
@[simp] theorem State.modSpis_pins (f : SpisSt → SpisSt) : (s.modSpis f).pins = s.pins := rfl
@[simp] theorem State.modSpis_power (f : SpisSt → SpisSt) : (s.modSpis f).power = s.power := rfl
@[simp] theorem State.modSpis_boot (f : SpisSt → SpisSt) : (s.modSpis f).boot = s.boot := rfl
@[simp] theorem State.modSpis_core (f : SpisSt → SpisSt) : (s.modSpis f).core = s.core := rfl
@[simp] theorem State.modSpis_shtl (f : SpisSt → SpisSt) : (s.modSpis f).shtl = s.shtl := rfl
@[simp] theorem State.modSpis_rfrx (f : SpisSt → SpisSt) : (s.modSpis f).rfrx = s.rfrx := rfl
@[simp] theorem State.modSpis_loom (f : SpisSt → SpisSt) : (s.modSpis f).loom = s.loom := rfl
@[simp] theorem State.modSpis_demod (f : SpisSt → SpisSt) : (s.modSpis f).demod = s.demod := rfl
@[simp] theorem State.modSpis_tx (f : SpisSt → SpisSt) : (s.modSpis f).tx = s.tx := rfl
@[simp] theorem State.modSpis_mac (f : SpisSt → SpisSt) : (s.modSpis f).mac = s.mac := rfl
@[simp] theorem State.modSpis_sec (f : SpisSt → SpisSt) : (s.modSpis f).sec = s.sec := rfl
@[simp] theorem State.modSpis_tbl (f : SpisSt → SpisSt) : (s.modSpis f).tbl = s.tbl := rfl
@[simp] theorem State.modSpis_time (f : SpisSt → SpisSt) : (s.modSpis f).time = s.time := rfl
@[simp] theorem State.modSpis_tmr (f : SpisSt → SpisSt) : (s.modSpis f).tmr = s.tmr := rfl
@[simp] theorem State.modSpis_nvm (f : SpisSt → SpisSt) : (s.modSpis f).nvm = s.nvm := rfl
@[simp] theorem State.modSpis_spim (f : SpisSt → SpisSt) : (s.modSpis f).spim = s.spim := rfl
@[simp] theorem State.modSpis_rtc (f : SpisSt → SpisSt) : (s.modSpis f).rtc = s.rtc := rfl
@[simp] theorem State.modSpis_msu (f : SpisSt → SpisSt) : (s.modSpis f).msu = s.msu := rfl
@[simp] theorem State.modSpis_twil (f : SpisSt → SpisSt) : (s.modSpis f).twil = s.twil := rfl
@[simp] theorem State.modSpis_evr (f : SpisSt → SpisSt) : (s.modSpis f).evr = s.evr := rfl
@[simp] theorem State.modSpis_ring (f : SpisSt → SpisSt) : (s.modSpis f).ring = s.ring := rfl
@[simp] theorem State.modSpis_dict (f : SpisSt → SpisSt) : (s.modSpis f).dict = s.dict := rfl

/-! ### State.modTime -/

@[simp] theorem State.modTime_pending (f : TimeSt → TimeSt) : (s.modTime f).pending = s.pending := rfl
@[simp] theorem State.modTime_now (f : TimeSt → TimeSt) : (s.modTime f).now = s.now := rfl
@[simp] theorem State.modTime_free (f : TimeSt → TimeSt) : (s.modTime f).free = s.free := rfl
@[simp] theorem State.modTime_regs (f : TimeSt → TimeSt) : (s.modTime f).regs = s.regs := rfl
@[simp] theorem State.modTime_totals (f : TimeSt → TimeSt) : (s.modTime f).totals = s.totals := rfl
@[simp] theorem State.modTime_mem (f : TimeSt → TimeSt) : (s.modTime f).mem = s.mem := rfl
@[simp] theorem State.modTime_bus (f : TimeSt → TimeSt) : (s.modTime f).bus = s.bus := rfl
@[simp] theorem State.modTime_tick (f : TimeSt → TimeSt) : (s.modTime f).tick = s.tick := rfl
@[simp] theorem State.modTime_pins (f : TimeSt → TimeSt) : (s.modTime f).pins = s.pins := rfl
@[simp] theorem State.modTime_power (f : TimeSt → TimeSt) : (s.modTime f).power = s.power := rfl
@[simp] theorem State.modTime_boot (f : TimeSt → TimeSt) : (s.modTime f).boot = s.boot := rfl
@[simp] theorem State.modTime_core (f : TimeSt → TimeSt) : (s.modTime f).core = s.core := rfl
@[simp] theorem State.modTime_shtl (f : TimeSt → TimeSt) : (s.modTime f).shtl = s.shtl := rfl
@[simp] theorem State.modTime_rfrx (f : TimeSt → TimeSt) : (s.modTime f).rfrx = s.rfrx := rfl
@[simp] theorem State.modTime_loom (f : TimeSt → TimeSt) : (s.modTime f).loom = s.loom := rfl
@[simp] theorem State.modTime_demod (f : TimeSt → TimeSt) : (s.modTime f).demod = s.demod := rfl
@[simp] theorem State.modTime_tx (f : TimeSt → TimeSt) : (s.modTime f).tx = s.tx := rfl
@[simp] theorem State.modTime_mac (f : TimeSt → TimeSt) : (s.modTime f).mac = s.mac := rfl
@[simp] theorem State.modTime_sec (f : TimeSt → TimeSt) : (s.modTime f).sec = s.sec := rfl
@[simp] theorem State.modTime_tbl (f : TimeSt → TimeSt) : (s.modTime f).tbl = s.tbl := rfl
@[simp] theorem State.modTime_tmr (f : TimeSt → TimeSt) : (s.modTime f).tmr = s.tmr := rfl
@[simp] theorem State.modTime_nvm (f : TimeSt → TimeSt) : (s.modTime f).nvm = s.nvm := rfl
@[simp] theorem State.modTime_spim (f : TimeSt → TimeSt) : (s.modTime f).spim = s.spim := rfl
@[simp] theorem State.modTime_spis (f : TimeSt → TimeSt) : (s.modTime f).spis = s.spis := rfl
@[simp] theorem State.modTime_rtc (f : TimeSt → TimeSt) : (s.modTime f).rtc = s.rtc := rfl
@[simp] theorem State.modTime_msu (f : TimeSt → TimeSt) : (s.modTime f).msu = s.msu := rfl
@[simp] theorem State.modTime_twil (f : TimeSt → TimeSt) : (s.modTime f).twil = s.twil := rfl
@[simp] theorem State.modTime_evr (f : TimeSt → TimeSt) : (s.modTime f).evr = s.evr := rfl
@[simp] theorem State.modTime_ring (f : TimeSt → TimeSt) : (s.modTime f).ring = s.ring := rfl
@[simp] theorem State.modTime_dict (f : TimeSt → TimeSt) : (s.modTime f).dict = s.dict := rfl

/-! ### State.modTm -/

@[simp] theorem State.modTm_pending (n : Fin 8) (f : TmrSt → TmrSt) : (s.modTm n f).pending = s.pending := rfl
@[simp] theorem State.modTm_now (n : Fin 8) (f : TmrSt → TmrSt) : (s.modTm n f).now = s.now := rfl
@[simp] theorem State.modTm_free (n : Fin 8) (f : TmrSt → TmrSt) : (s.modTm n f).free = s.free := rfl
@[simp] theorem State.modTm_regs (n : Fin 8) (f : TmrSt → TmrSt) : (s.modTm n f).regs = s.regs := rfl
@[simp] theorem State.modTm_totals (n : Fin 8) (f : TmrSt → TmrSt) : (s.modTm n f).totals = s.totals := rfl
@[simp] theorem State.modTm_mem (n : Fin 8) (f : TmrSt → TmrSt) : (s.modTm n f).mem = s.mem := rfl
@[simp] theorem State.modTm_bus (n : Fin 8) (f : TmrSt → TmrSt) : (s.modTm n f).bus = s.bus := rfl
@[simp] theorem State.modTm_tick (n : Fin 8) (f : TmrSt → TmrSt) : (s.modTm n f).tick = s.tick := rfl
@[simp] theorem State.modTm_pins (n : Fin 8) (f : TmrSt → TmrSt) : (s.modTm n f).pins = s.pins := rfl
@[simp] theorem State.modTm_power (n : Fin 8) (f : TmrSt → TmrSt) : (s.modTm n f).power = s.power := rfl
@[simp] theorem State.modTm_boot (n : Fin 8) (f : TmrSt → TmrSt) : (s.modTm n f).boot = s.boot := rfl
@[simp] theorem State.modTm_core (n : Fin 8) (f : TmrSt → TmrSt) : (s.modTm n f).core = s.core := rfl
@[simp] theorem State.modTm_shtl (n : Fin 8) (f : TmrSt → TmrSt) : (s.modTm n f).shtl = s.shtl := rfl
@[simp] theorem State.modTm_rfrx (n : Fin 8) (f : TmrSt → TmrSt) : (s.modTm n f).rfrx = s.rfrx := rfl
@[simp] theorem State.modTm_loom (n : Fin 8) (f : TmrSt → TmrSt) : (s.modTm n f).loom = s.loom := rfl
@[simp] theorem State.modTm_demod (n : Fin 8) (f : TmrSt → TmrSt) : (s.modTm n f).demod = s.demod := rfl
@[simp] theorem State.modTm_tx (n : Fin 8) (f : TmrSt → TmrSt) : (s.modTm n f).tx = s.tx := rfl
@[simp] theorem State.modTm_mac (n : Fin 8) (f : TmrSt → TmrSt) : (s.modTm n f).mac = s.mac := rfl
@[simp] theorem State.modTm_sec (n : Fin 8) (f : TmrSt → TmrSt) : (s.modTm n f).sec = s.sec := rfl
@[simp] theorem State.modTm_tbl (n : Fin 8) (f : TmrSt → TmrSt) : (s.modTm n f).tbl = s.tbl := rfl
@[simp] theorem State.modTm_time (n : Fin 8) (f : TmrSt → TmrSt) : (s.modTm n f).time = s.time := rfl
@[simp] theorem State.modTm_nvm (n : Fin 8) (f : TmrSt → TmrSt) : (s.modTm n f).nvm = s.nvm := rfl
@[simp] theorem State.modTm_spim (n : Fin 8) (f : TmrSt → TmrSt) : (s.modTm n f).spim = s.spim := rfl
@[simp] theorem State.modTm_spis (n : Fin 8) (f : TmrSt → TmrSt) : (s.modTm n f).spis = s.spis := rfl
@[simp] theorem State.modTm_rtc (n : Fin 8) (f : TmrSt → TmrSt) : (s.modTm n f).rtc = s.rtc := rfl
@[simp] theorem State.modTm_msu (n : Fin 8) (f : TmrSt → TmrSt) : (s.modTm n f).msu = s.msu := rfl
@[simp] theorem State.modTm_twil (n : Fin 8) (f : TmrSt → TmrSt) : (s.modTm n f).twil = s.twil := rfl
@[simp] theorem State.modTm_evr (n : Fin 8) (f : TmrSt → TmrSt) : (s.modTm n f).evr = s.evr := rfl
@[simp] theorem State.modTm_ring (n : Fin 8) (f : TmrSt → TmrSt) : (s.modTm n f).ring = s.ring := rfl
@[simp] theorem State.modTm_dict (n : Fin 8) (f : TmrSt → TmrSt) : (s.modTm n f).dict = s.dict := rfl

/-! ### State.modTwil -/

@[simp] theorem State.modTwil_pending (f : TwilSt → TwilSt) : (s.modTwil f).pending = s.pending := rfl
@[simp] theorem State.modTwil_now (f : TwilSt → TwilSt) : (s.modTwil f).now = s.now := rfl
@[simp] theorem State.modTwil_free (f : TwilSt → TwilSt) : (s.modTwil f).free = s.free := rfl
@[simp] theorem State.modTwil_regs (f : TwilSt → TwilSt) : (s.modTwil f).regs = s.regs := rfl
@[simp] theorem State.modTwil_totals (f : TwilSt → TwilSt) : (s.modTwil f).totals = s.totals := rfl
@[simp] theorem State.modTwil_mem (f : TwilSt → TwilSt) : (s.modTwil f).mem = s.mem := rfl
@[simp] theorem State.modTwil_bus (f : TwilSt → TwilSt) : (s.modTwil f).bus = s.bus := rfl
@[simp] theorem State.modTwil_tick (f : TwilSt → TwilSt) : (s.modTwil f).tick = s.tick := rfl
@[simp] theorem State.modTwil_pins (f : TwilSt → TwilSt) : (s.modTwil f).pins = s.pins := rfl
@[simp] theorem State.modTwil_power (f : TwilSt → TwilSt) : (s.modTwil f).power = s.power := rfl
@[simp] theorem State.modTwil_boot (f : TwilSt → TwilSt) : (s.modTwil f).boot = s.boot := rfl
@[simp] theorem State.modTwil_core (f : TwilSt → TwilSt) : (s.modTwil f).core = s.core := rfl
@[simp] theorem State.modTwil_shtl (f : TwilSt → TwilSt) : (s.modTwil f).shtl = s.shtl := rfl
@[simp] theorem State.modTwil_rfrx (f : TwilSt → TwilSt) : (s.modTwil f).rfrx = s.rfrx := rfl
@[simp] theorem State.modTwil_loom (f : TwilSt → TwilSt) : (s.modTwil f).loom = s.loom := rfl
@[simp] theorem State.modTwil_demod (f : TwilSt → TwilSt) : (s.modTwil f).demod = s.demod := rfl
@[simp] theorem State.modTwil_tx (f : TwilSt → TwilSt) : (s.modTwil f).tx = s.tx := rfl
@[simp] theorem State.modTwil_mac (f : TwilSt → TwilSt) : (s.modTwil f).mac = s.mac := rfl
@[simp] theorem State.modTwil_sec (f : TwilSt → TwilSt) : (s.modTwil f).sec = s.sec := rfl
@[simp] theorem State.modTwil_tbl (f : TwilSt → TwilSt) : (s.modTwil f).tbl = s.tbl := rfl
@[simp] theorem State.modTwil_time (f : TwilSt → TwilSt) : (s.modTwil f).time = s.time := rfl
@[simp] theorem State.modTwil_tmr (f : TwilSt → TwilSt) : (s.modTwil f).tmr = s.tmr := rfl
@[simp] theorem State.modTwil_nvm (f : TwilSt → TwilSt) : (s.modTwil f).nvm = s.nvm := rfl
@[simp] theorem State.modTwil_spim (f : TwilSt → TwilSt) : (s.modTwil f).spim = s.spim := rfl
@[simp] theorem State.modTwil_spis (f : TwilSt → TwilSt) : (s.modTwil f).spis = s.spis := rfl
@[simp] theorem State.modTwil_rtc (f : TwilSt → TwilSt) : (s.modTwil f).rtc = s.rtc := rfl
@[simp] theorem State.modTwil_msu (f : TwilSt → TwilSt) : (s.modTwil f).msu = s.msu := rfl
@[simp] theorem State.modTwil_evr (f : TwilSt → TwilSt) : (s.modTwil f).evr = s.evr := rfl
@[simp] theorem State.modTwil_ring (f : TwilSt → TwilSt) : (s.modTwil f).ring = s.ring := rfl
@[simp] theorem State.modTwil_dict (f : TwilSt → TwilSt) : (s.modTwil f).dict = s.dict := rfl

/-! ### State.modTx -/

@[simp] theorem State.modTx_pending (f : TxSt → TxSt) : (s.modTx f).pending = s.pending := rfl
@[simp] theorem State.modTx_now (f : TxSt → TxSt) : (s.modTx f).now = s.now := rfl
@[simp] theorem State.modTx_free (f : TxSt → TxSt) : (s.modTx f).free = s.free := rfl
@[simp] theorem State.modTx_regs (f : TxSt → TxSt) : (s.modTx f).regs = s.regs := rfl
@[simp] theorem State.modTx_totals (f : TxSt → TxSt) : (s.modTx f).totals = s.totals := rfl
@[simp] theorem State.modTx_mem (f : TxSt → TxSt) : (s.modTx f).mem = s.mem := rfl
@[simp] theorem State.modTx_bus (f : TxSt → TxSt) : (s.modTx f).bus = s.bus := rfl
@[simp] theorem State.modTx_tick (f : TxSt → TxSt) : (s.modTx f).tick = s.tick := rfl
@[simp] theorem State.modTx_pins (f : TxSt → TxSt) : (s.modTx f).pins = s.pins := rfl
@[simp] theorem State.modTx_power (f : TxSt → TxSt) : (s.modTx f).power = s.power := rfl
@[simp] theorem State.modTx_boot (f : TxSt → TxSt) : (s.modTx f).boot = s.boot := rfl
@[simp] theorem State.modTx_core (f : TxSt → TxSt) : (s.modTx f).core = s.core := rfl
@[simp] theorem State.modTx_shtl (f : TxSt → TxSt) : (s.modTx f).shtl = s.shtl := rfl
@[simp] theorem State.modTx_rfrx (f : TxSt → TxSt) : (s.modTx f).rfrx = s.rfrx := rfl
@[simp] theorem State.modTx_loom (f : TxSt → TxSt) : (s.modTx f).loom = s.loom := rfl
@[simp] theorem State.modTx_demod (f : TxSt → TxSt) : (s.modTx f).demod = s.demod := rfl
@[simp] theorem State.modTx_mac (f : TxSt → TxSt) : (s.modTx f).mac = s.mac := rfl
@[simp] theorem State.modTx_sec (f : TxSt → TxSt) : (s.modTx f).sec = s.sec := rfl
@[simp] theorem State.modTx_tbl (f : TxSt → TxSt) : (s.modTx f).tbl = s.tbl := rfl
@[simp] theorem State.modTx_time (f : TxSt → TxSt) : (s.modTx f).time = s.time := rfl
@[simp] theorem State.modTx_tmr (f : TxSt → TxSt) : (s.modTx f).tmr = s.tmr := rfl
@[simp] theorem State.modTx_nvm (f : TxSt → TxSt) : (s.modTx f).nvm = s.nvm := rfl
@[simp] theorem State.modTx_spim (f : TxSt → TxSt) : (s.modTx f).spim = s.spim := rfl
@[simp] theorem State.modTx_spis (f : TxSt → TxSt) : (s.modTx f).spis = s.spis := rfl
@[simp] theorem State.modTx_rtc (f : TxSt → TxSt) : (s.modTx f).rtc = s.rtc := rfl
@[simp] theorem State.modTx_msu (f : TxSt → TxSt) : (s.modTx f).msu = s.msu := rfl
@[simp] theorem State.modTx_twil (f : TxSt → TxSt) : (s.modTx f).twil = s.twil := rfl
@[simp] theorem State.modTx_evr (f : TxSt → TxSt) : (s.modTx f).evr = s.evr := rfl
@[simp] theorem State.modTx_ring (f : TxSt → TxSt) : (s.modTx f).ring = s.ring := rfl
@[simp] theorem State.modTx_dict (f : TxSt → TxSt) : (s.modTx f).dict = s.dict := rfl

/-! ### The fields that an update writes -/

@[simp] theorem State.modCore_core (f : CoreSt → CoreSt) : (s.modCore f).core = f s.core := rfl
@[simp] theorem State.modDict_dict (f : DictSt → DictSt) : (s.modDict f).dict = f s.dict := rfl
@[simp] theorem State.modEvr_evr (f : EvrSt → EvrSt) : (s.modEvr f).evr = f s.evr := rfl
@[simp] theorem State.modSec_sec (f : SecSt → SecSt) : (s.modSec f).sec = f s.sec := rfl
@[simp] theorem State.modLoom_loom (f : LoomSt → LoomSt) : (s.modLoom f).loom = f s.loom := rfl
@[simp] theorem State.modMac_mac (f : MacSt → MacSt) : (s.modMac f).mac = f s.mac := rfl
@[simp] theorem State.modMsu_msu (f : MsuSt → MsuSt) : (s.modMsu f).msu = f s.msu := rfl
@[simp] theorem State.modPower_power (f : PowerSt → PowerSt) : (s.modPower f).power = f s.power := rfl
@[simp] theorem State.modRing_ring (f : RingSt → RingSt) : (s.modRing f).ring = f s.ring := rfl
@[simp] theorem State.modRtc_rtc (f : RtcSt → RtcSt) : (s.modRtc f).rtc = f s.rtc := rfl
@[simp] theorem State.modRx_rfrx (f : RfrxSt → RfrxSt) : (s.modRx f).rfrx = f s.rfrx := rfl
@[simp] theorem State.modSpim_spim (f : SpimSt → SpimSt) : (s.modSpim f).spim = f s.spim := rfl
@[simp] theorem State.modSpis_spis (f : SpisSt → SpisSt) : (s.modSpis f).spis = f s.spis := rfl
@[simp] theorem State.modTime_time (f : TimeSt → TimeSt) : (s.modTime f).time = f s.time := rfl
@[simp] theorem State.modTwil_twil (f : TwilSt → TwilSt) : (s.modTwil f).twil = f s.twil := rfl
@[simp] theorem State.modTx_tx (f : TxSt → TxSt) : (s.modTx f).tx = f s.tx := rfl
@[simp] theorem State.modCpu_core (f : Cpu → Cpu) : (s.modCpu f).core = { s.core with cpu := f s.core.cpu } := rfl
@[simp] theorem State.modTm_tmr (n : Fin 8) (f : TmrSt → TmrSt) : (s.modTm n f).tmr = s.tmr.set n (f s.tmr[n]) := rfl

/-! ### Free values -/

@[simp] theorem State.draw_fst : s.draw.1 = s.free := rfl
@[simp] theorem State.draw_snd : s.draw.2 = { s with free := s.free + 1 } := rfl

end Sys2Proof.Machine
end

