-- ==== Sys2Proof/Laws/Regs.lean ====
section
/-! SUPPORT. Laws/Regs.lean: what reading a register or a field after a write gives. -/
namespace Sys2Proof.Machine

variable (s : State)

/-! ## Registers -/

theorem State.reg_setReg (a b : Nat) (v : Word) : (s.setReg a v).reg b = if b = a then v else s.reg b :=
  Sparse.get_set s.regs a b v

@[simp] theorem State.reg_setReg_same (a : Nat) (v : Word) : (s.setReg a v).reg a = v := Sparse.get_set_same s.regs a v

theorem State.reg_setReg_other {a b : Nat} (v : Word) (h : b ≠ a) : (s.setReg a v).reg b = s.reg b :=
  Sparse.get_set_other s.regs v h

theorem State.reg_put (f : Field) (v b : Nat) :
    (s.put f v).reg b = if b = f.reg then f.into (s.reg f.reg) v else s.reg b := State.reg_setReg s _ _ _

theorem State.reg_put_other {f : Field} (v : Nat) {b : Nat} (h : b ≠ f.reg) : (s.put f v).reg b = s.reg b :=
  State.reg_setReg_other s _ h

/-- Registers depend on the list of registers alone. -/
theorem State.reg_congr {s t : State} (h : t.regs = s.regs) (a : Nat) : t.reg a = s.reg a := by
  unfold State.reg
  rw [h]

theorem State.get_congr {s t : State} (h : t.regs = s.regs) (f : Field) : t.get f = s.get f := by
  unfold State.get
  rw [State.reg_congr h]

/-! ## Fields -/

theorem Field.getLsbD_mask (f : Field) (j : Nat) :
    f.mask.getLsbD j = (decide (f.lo ≤ j) && decide (j < f.lo + f.w) && decide (j < 32)) := by
  unfold Field.mask
  simp only [BitVec.getLsbD_shiftLeft, BitVec.getLsbD_ofNat, Nat.testBit_two_pow_sub_one]
  by_cases h1 : j < 32 <;> by_cases h2 : f.lo ≤ j <;> by_cases h3 : j < f.lo + f.w <;>
    simp [h1, h2, h3] <;> omega

theorem Field.getLsbD_into (f : Field) (r : Word) (v j : Nat) (hj : j < 32) :
    (f.into r v).getLsbD j = if f.lo ≤ j ∧ j < f.lo + f.w then v.testBit (j - f.lo) else r.getLsbD j := by
  have hm := Field.getLsbD_mask f j
  unfold Field.mask at hm
  unfold Field.into
  simp only [BitVec.getLsbD_or, BitVec.getLsbD_and, BitVec.getLsbD_not, BitVec.getLsbD_shiftLeft, BitVec.getLsbD_ofNat] at hm ⊢
  rw [hm]
  by_cases h1 : f.lo ≤ j <;> by_cases h2 : j < f.lo + f.w <;> simp [h1, h2, hj]
  rw [decide_eq_false (by omega : ¬ j < f.lo), decide_eq_true (by omega : j - f.lo < 32)]
  simp

theorem Field.testBit_of (f : Field) (r : Word) (i : Nat) :
    (f.of r).testBit i = (decide (i < f.w) && r.getLsbD (f.lo + i)) := by
  unfold Field.of
  rw [Nat.testBit_mod_two_pow, Nat.testBit_div_two_pow, Nat.add_comm]
  rfl

/-- A field reads as the low bits written to it. -/
theorem Field.of_into (f : Field) (r : Word) (v : Nat) (h : f.lo + f.w ≤ 32) : f.of (f.into r v) = v % 2 ^ f.w := by
  apply Nat.eq_of_testBit_eq
  intro i
  rw [Field.testBit_of, Nat.testBit_mod_two_pow]
  by_cases hi : i < f.w
  · rw [Field.getLsbD_into f r v (f.lo + i) (by omega), if_pos ⟨by omega, by omega⟩]
    simp
  · simp [hi]

/-- Another field of the register keeps its value. -/
theorem Field.of_into_other (f g : Field) (r : Word) (v : Nat) (h : f.lo + f.w ≤ g.lo ∨ g.lo + g.w ≤ f.lo) :
    g.of (f.into r v) = g.of r := by
  apply Nat.eq_of_testBit_eq
  intro i
  rw [Field.testBit_of, Field.testBit_of]
  by_cases hi : i < g.w
  · by_cases h32 : g.lo + i < 32
    · rw [Field.getLsbD_into f r v _ h32, if_neg (by omega)]
    · simp [BitVec.getLsbD_of_ge _ _ (by omega : 32 ≤ g.lo + i)]
  · simp [hi]

theorem Field.of_lt (f : Field) (r : Word) : f.of r < 2 ^ f.w := Nat.mod_lt _ (by positivity)

/-- Where a field lies. -/
abbrev Field.fits (f : Field) : Prop := f.lo + f.w ≤ 32

/-- Two fields share no bit. -/
abbrev Field.apart (f g : Field) : Prop := f.reg ≠ g.reg ∨ f.lo + f.w ≤ g.lo ∨ g.lo + g.w ≤ f.lo

theorem State.get_put_same (f : Field) (v : Nat) (h : f.fits) : (s.put f v).get f = v % 2 ^ f.w := by
  unfold State.get State.put
  rw [State.reg_setReg_same, Field.of_into f _ _ h]

theorem State.get_put_other {f g : Field} (v : Nat) (h : f.apart g) : (s.put f v).get g = s.get g := by
  unfold State.get State.put
  by_cases hr : g.reg = f.reg
  · rw [hr, State.reg_setReg_same]
    rcases h with h | h
    · exact absurd hr.symm h
    · exact Field.of_into_other f g _ v h
  · rw [State.reg_setReg_other s _ hr]

theorem State.get_setReg_same (f : Field) (v : Word) : (s.setReg f.reg v).get f = f.of v := by
  unfold State.get
  rw [State.reg_setReg_same]

theorem State.get_setReg_other {f : Field} {a : Nat} (v : Word) (h : f.reg ≠ a) : (s.setReg a v).get f = s.get f := by
  unfold State.get
  rw [State.reg_setReg_other s v h]

theorem State.get_sat_same (f : Field) (h : f.fits) :
    (s.sat f).get f = min (s.get f + 1) (2 ^ f.w - 1) := by
  have : (s.sat f).get f = (s.put f (min (s.get f + 1) (2 ^ f.w - 1))).get f := State.get_congr rfl f
  rw [this, State.get_put_same s f _ h, Nat.mod_eq_of_lt]
  have : 0 < 2 ^ f.w := by positivity
  omega

theorem State.get_sat_other {f g : Field} (h : f.apart g) : (s.sat f).get g = s.get g := by
  have : (s.sat f).get g = (s.put f (min (s.get f + 1) (2 ^ f.w - 1))).get g := State.get_congr rfl g
  rw [this, State.get_put_other s _ h]

theorem State.get_inc_same (f : Field) (h : f.fits) : (s.inc f).get f = (s.get f + 1) % 2 ^ f.w :=
  State.get_put_same s f _ h

theorem State.get_inc_other {f g : Field} (h : f.apart g) : (s.inc f).get g = s.get g := State.get_put_other s _ h

/-- A one-bit field that has been set reads as set. -/
theorem State.on_put_one (f : Field) (h : f.fits) (hw : f.w = 1) : (s.put f 1).on f = true := by
  unfold State.on
  rw [State.get_put_same s f 1 h, hw]
  rfl

end Sys2Proof.Machine
end

