-- ==== Sys2Proof/Laws/Memory.lean ====
section
/-! SUPPORT. Laws/Memory.lean: reads after writes of memory, and that every memory operation keeps the canonical form. -/
namespace Sys2Proof.Machine

variable (s : State)

/-! ## One byte -/

theorem State.rb_wb (a b : Nat) (v : Byte) : (s.wb a v).rb b = if b = a then v else s.rb b :=
  Sparse.get_set s.mem.cells a b v

@[simp] theorem State.rb_wb_same (a : Nat) (v : Byte) : (s.wb a v).rb a = v := Sparse.get_set_same s.mem.cells a v

theorem State.rb_wb_other {a b : Nat} (v : Byte) (h : b ≠ a) : (s.wb a v).rb b = s.rb b :=
  Sparse.get_set_other s.mem.cells v h

/-- A byte depends on the memory alone. -/
theorem State.rb_congr {s t : State} (h : t.mem = s.mem) (a : Nat) : t.rb a = s.rb a := by
  unfold State.rb
  rw [h]

theorem State.mem_wf_wb (a : Nat) (v : Byte) (h : s.mem.wf = true) : (s.wb a v).mem.wf = true := Sparse.wf_set a v h

/-! ## Several bytes -/

theorem State.bytes_congr {s t : State} (h : t.mem = s.mem) (a n : Nat) : t.bytes a n = s.bytes a n := by
  induction n generalizing a with
  | zero => rfl
  | succ n ih => rw [State.bytes, State.bytes, State.rb_congr h, ih]

@[simp] theorem State.length_bytes (a n : Nat) : (s.bytes a n).length = n := by
  induction n generalizing a with
  | zero => rfl
  | succ n ih => rw [State.bytes, List.length_cons, ih]

theorem State.mem_wf_wbytes (a : Nat) (l : List Byte) (h : s.mem.wf = true) : (s.wbytes a l).mem.wf = true := by
  induction l generalizing s a with
  | nil => exact h
  | cons b l ih => exact ih _ _ (State.mem_wf_wb s a b h)

/-- A write of bytes leaves every address outside them alone. -/
theorem State.rb_wbytes_other (a : Nat) (l : List Byte) {b : Nat} (h : b < a ∨ a + l.length ≤ b) :
    (s.wbytes a l).rb b = s.rb b := by
  induction l generalizing s a with
  | nil => rfl
  | cons x l ih =>
    rw [List.length_cons] at h
    rw [State.wbytes, ih _ _ (by omega), State.rb_wb_other s x (by omega)]

/-- A write of bytes is read back. -/
theorem State.rb_wbytes (a : Nat) (l : List Byte) (i : Nat) (h : i < l.length) : (s.wbytes a l).rb (a + i) = l[i] := by
  induction l generalizing s a i with
  | nil => exact absurd h (Nat.not_lt_zero _)
  | cons x l ih =>
    cases i with
    | zero =>
      rw [State.wbytes, State.rb_wbytes_other _ _ _ (by omega)]
      exact State.rb_wb_same s a x
    | succ i =>
      rw [State.wbytes, show a + (i + 1) = a + 1 + i by omega, ih _ _ _ (by simpa using h)]
      rfl

@[simp] theorem State.wbytes_regs (a : Nat) (l : List Byte) : (s.wbytes a l).regs = s.regs := by
  induction l generalizing s a with
  | nil => rfl
  | cons b l ih => rw [State.wbytes, ih]; rfl

/-- A write of bytes changes nothing but the memory. -/
theorem State.wbytes_eq (a : Nat) (l : List Byte) : ∃ m, s.wbytes a l = { s with mem := m } := by
  induction l generalizing s a with
  | nil => exact ⟨s.mem, rfl⟩
  | cons b l ih =>
    obtain ⟨m, hm⟩ := ih (s.wb a b) (a + 1)
    exact ⟨m, hm⟩

/-! ## Numbers in bytes -/

@[simp] theorem length_leBytes (n v : Nat) : (leBytes n v).length = n := by
  induction n generalizing v with
  | zero => rfl
  | succ n ih => rw [leBytes, List.length_cons, ih]

/-- The bytes of a number spell its low bytes. -/
theorem leNat_leBytes (n v : Nat) : leNat (leBytes n v) = v % 256 ^ n := by
  induction n generalizing v with
  | zero => simp [leBytes, leNat, Nat.mod_one]
  | succ n ih =>
    rw [leBytes, leNat, ih, Nat.pow_succ', Nat.mod_mul]
    simp

theorem State.bytes_wbytes (a : Nat) (l : List Byte) : (s.wbytes a l).bytes a l.length = l := by
  induction l generalizing s a with
  | nil => rfl
  | cons x l ih =>
    have h0 : (s.wbytes a (x :: l)).rb a = x := State.rb_wbytes s a (x :: l) 0 (by simp)
    rw [List.length_cons, State.bytes, h0, State.wbytes, ih]

/-- A number written in memory is read back. -/
theorem State.rn_wn (a n v : Nat) : (s.wn a n v).rn a n = v % 256 ^ n := by
  have h := State.bytes_wbytes s a (leBytes n v)
  rw [length_leBytes] at h
  rw [State.rn, State.wn, h, leNat_leBytes]

theorem State.mem_wf_wn (a n v : Nat) (h : s.mem.wf = true) : (s.wn a n v).mem.wf = true := State.mem_wf_wbytes s a _ h

/-! ## Loss of contents -/

theorem Memory.wf_lose {m : Memory} (p : Nat → Bool) (l : Losses)
    (hd : ∀ a, p a = false → memDefault l a = memDefault m.lost a) (h : m.wf = true) : (m.lose p l).wf = true := by
  refine Sparse.wf_congr (fun e he => ?_) (Sparse.wf_clear p h)
  have := (List.mem_filter.mp he).2
  exact hd e.1 (by simpa using this)

theorem Memory.wf_loseSram {m : Memory} (h : m.wf = true) : m.loseSram.wf = true :=
  Memory.wf_lose _ _ (fun a ha => by
    unfold memDefault
    cases hr : regionOf a <;> simp_all) h

theorem Memory.wf_loseRetention {m : Memory} (h : m.wf = true) : m.loseRetention.wf = true :=
  Memory.wf_lose _ _ (fun a ha => by
    unfold memDefault
    cases hr : regionOf a <;> simp_all) h

theorem Memory.wf_loseRadio {m : Memory} (h : m.wf = true) : m.loseRadio.wf = true :=
  Memory.wf_lose _ _ (fun a ha => by
    unfold memDefault
    cases hr : regionOf a <;> simp_all) h

theorem Memory.wf_loseTable {m : Memory} (h : m.wf = true) : m.loseTable.wf = true :=
  Memory.wf_lose _ _ (fun a ha => by
    unfold memDefault
    cases hr : regionOf a <;> simp_all) h

theorem Memory.wf_clear {m : Memory} (p : Nat → Bool) (h : m.wf = true) :
    ({ m with cells := Sparse.clear m.cells p } : Memory).wf = true := Sparse.wf_clear p h

/-! ## After reset -/

theorem State.reset_mem_wf : State.reset.mem.wf = true := rfl

end Sys2Proof.Machine
end

