-- ==== Sys2Proof/Laws/Ops.lean ====
section
/-! SUPPORT. Laws/Ops.lean: what the shared operations can do: accesses through the bus, and which operations keep the queue
and the canonical form of memory and registers. -/
namespace Sys2Proof.Machine
open Sys2Proof.Safety

/-! ## Accesses through the bus (R38, R44, R48) -/

/-- A write by the core comes into force, is refused, or finds the clocks of CORE standing. -/
theorem viaBus_cases (a : Nat) (f : State → State) (s : State) :
    (s.clocked = false ∧ viaBus a f s = s) ∨
    (∃ c, s.clocked = true ∧ busRefusal s ⟨.coreData, a, .b32, true⟩ = some c ∧ viaBus a f s = answered c ⟨.coreData, a, .b32, true⟩ s) ∨
    (Takes .coreData a s ∧ viaBus a f s = f s) := by
  unfold viaBus Takes
  cases hc : s.clocked <;> cases hb : busRefusal s ⟨.coreData, a, .b32, true⟩ <;> simp [hb]

/-- The same of a read. -/
theorem viaRead_cases (a : Nat) (f : State → State) (s : State) :
    (s.clocked = false ∧ viaRead a f s = s) ∨
    (∃ c, s.clocked = true ∧ busRefusal s ⟨.coreData, a, .b32, false⟩ = some c ∧ viaRead a f s = answered c ⟨.coreData, a, .b32, false⟩ s) ∨
    (TakesRead .coreData a s ∧ viaRead a f s = f s) := by
  unfold viaRead TakesRead
  cases hc : s.clocked <;> cases hb : busRefusal s ⟨.coreData, a, .b32, false⟩ <;> simp [hb]

/-- The same of a write by any master. -/
theorem viaMaster_cases (m : Master) (a : Nat) (f : State → State) (s : State) :
    (s.clocked = false ∧ viaMaster m a f s = s) ∨
    (∃ c, s.clocked = true ∧ busRefusal s ⟨m, a, .b32, true⟩ = some c ∧ viaMaster m a f s = answered c ⟨m, a, .b32, true⟩ s) ∨
    (Takes m a s ∧ viaMaster m a f s = f s) := by
  unfold viaMaster Takes
  cases hc : s.clocked <;> cases hb : busRefusal s ⟨m, a, .b32, true⟩ <;> simp [hb]

/-- Where the bus takes the write, it comes into force. -/
theorem viaBus_taken {a : Nat} {s : State} (f : State → State) (h : Takes .coreData a s) : viaBus a f s = f s := by
  simp [viaBus, h.1, h.2]

theorem viaRead_taken {a : Nat} {s : State} (f : State → State) (h : TakesRead .coreData a s) : viaRead a f s = f s := by
  simp [viaRead, h.1, h.2]

theorem viaMaster_taken {m : Master} {a : Nat} {s : State} (f : State → State) (h : Takes m a s) : viaMaster m a f s = f s := by
  simp [viaMaster, h.1, h.2]

/-! ## What keeps the queue and the canonical form -/

/-- From `s` to `t` the queue is left alone and the canonical form of memory and registers is kept. -/
structure Preserves (s t : State) : Prop where
  pending : t.pending = s.pending
  canonical : Canonical s → Canonical t

variable {s t : State}

@[refl] theorem Preserves.refl (s : State) : Preserves s s := ⟨rfl, fun h => h⟩

theorem Preserves.trans {u : State} (h : Preserves s t) (k : Preserves t u) : Preserves s u :=
  ⟨k.pending.trans h.pending, fun c => k.canonical (h.canonical c)⟩

/-- A change of neither queue, memory nor registers. -/
theorem Preserves.of_eq {u : State} (h : Preserves s t) (hp : u.pending = t.pending) (hm : u.mem = t.mem) (hr : u.regs = t.regs) :
    Preserves s u :=
  ⟨hp.trans h.pending, fun c => ⟨by rw [hm]; exact (h.canonical c).1, by rw [hr]; exact (h.canonical c).2⟩⟩

/-- A choice. -/
theorem Preserves.ite {u : State} {c : Prop} [Decidable c] (ht : c → Preserves s t) (hu : ¬ c → Preserves s u) :
    Preserves s (if c then t else u) := by
  by_cases h : c
  · simpa [h] using ht h
  · simpa [h] using hu h

/-- A fold of operations each of which preserves them. -/
theorem Preserves.foldl {α : Type} {f : State → α → State} (hf : ∀ u x, Preserves u (f u x)) (l : List α) (h : Preserves s t) :
    Preserves s (l.foldl f t) := by
  induction l generalizing t with
  | nil => exact h
  | cons x l ih => exact ih (h.trans (hf t x))

theorem Preserves.setReg (h : Preserves s t) (a : Nat) (v : Word) : Preserves s (t.setReg a v) :=
  h.trans ⟨rfl, fun c => ⟨c.1, Sparse.wf_set a v c.2⟩⟩

theorem Preserves.put (h : Preserves s t) (f : Field) (v : Nat) : Preserves s (t.put f v) := h.setReg _ _

theorem Preserves.putI (h : Preserves s t) (f : Field) (v : Int) : Preserves s (t.putI f v) := h.setReg _ _

theorem Preserves.putB (h : Preserves s t) (f : Field) (b : Bool) : Preserves s (t.putB f b) := h.setReg _ _

theorem Preserves.inc (h : Preserves s t) (f : Field) : Preserves s (t.inc f) := h.setReg _ _

theorem Preserves.sat (h : Preserves s t) (f : Field) : Preserves s (t.sat f) :=
  (h.put f (min (t.get f + 1) (2 ^ f.w - 1))).of_eq rfl rfl rfl

theorem Preserves.plainWrite (h : Preserves s t) (a : Nat) (d : Word) : Preserves s (t.plainWrite a d) := by
  unfold State.plainWrite
  split
  · exact h.setReg _ _
  · exact h

theorem Preserves.clearRc (h : Preserves s t) (a : Nat) : Preserves s (t.clearRc a) := by
  unfold State.clearRc
  split
  · split
    · exact h
    · exact h.setReg _ _
  · exact h

theorem Preserves.wb (h : Preserves s t) (a : Nat) (v : Byte) : Preserves s (t.wb a v) :=
  h.trans ⟨rfl, fun c => ⟨State.mem_wf_wb t a v c.1, c.2⟩⟩

theorem Preserves.wbytes (h : Preserves s t) (a : Nat) (l : List Byte) : Preserves s (t.wbytes a l) := by
  induction l generalizing a t with
  | nil => exact h
  | cons b l ih => exact ih (h.wb a b) (a + 1)

theorem Preserves.wn (h : Preserves s t) (a n v : Nat) : Preserves s (t.wn a n v) := h.wbytes a _

theorem Preserves.draw (h : Preserves s t) : Preserves s t.draw.2 := h.of_eq rfl rfl rfl

theorem Preserves.latchHi (h : Preserves s t) (m : Master) (a : Nat) (hi : Word) : Preserves s (t.latchHi m a hi) := h.of_eq rfl rfl rfl

theorem Preserves.setWriteHold (h : Preserves s t) (m : Master) (a : Nat) (hi : Word) : Preserves s (t.setWriteHold m a hi) :=
  h.of_eq rfl rfl rfl

theorem Preserves.modCore (h : Preserves s t) (f : CoreSt → CoreSt) : Preserves s (t.modCore f) := h.of_eq rfl rfl rfl

theorem Preserves.modCpu (h : Preserves s t) (f : Cpu → Cpu) : Preserves s (t.modCpu f) := h.of_eq rfl rfl rfl

/-- A part of memory that a reset or a power-down loses. -/
theorem Preserves.loseSram (h : Preserves s t) : Preserves s { t with mem := t.mem.loseSram } :=
  h.trans ⟨rfl, fun c => ⟨Memory.wf_loseSram c.1, c.2⟩⟩

theorem Preserves.loseRetention (h : Preserves s t) : Preserves s { t with mem := t.mem.loseRetention } :=
  h.trans ⟨rfl, fun c => ⟨Memory.wf_loseRetention c.1, c.2⟩⟩

theorem Preserves.loseRadio (h : Preserves s t) : Preserves s { t with mem := t.mem.loseRadio } :=
  h.trans ⟨rfl, fun c => ⟨Memory.wf_loseRadio c.1, c.2⟩⟩

theorem Preserves.loseTable (h : Preserves s t) : Preserves s { t with mem := t.mem.loseTable } :=
  h.trans ⟨rfl, fun c => ⟨Memory.wf_loseTable c.1, c.2⟩⟩

theorem Preserves.passTime (h : Preserves s t) : Preserves s t.passTime := by
  unfold State.passTime
  split <;> exact h.of_eq rfl rfl rfl

theorem Preserves.captureFault (h : Preserves s t) (c : BusCause) (x : Access) : Preserves s (captureFault c x t) := by
  unfold Machine.captureFault
  split
  · exact h
  · exact (h.setReg _ _).setReg _ _

theorem Preserves.offAccess (h : Preserves s t) (x : Access) : Preserves s (offAccess x t) := by
  unfold Machine.offAccess
  dsimp only
  split
  · exact h
  · split <;> split
    · exact ((((h.setReg _ _).setReg _ _).put _ _).sat _).captureFault _ _
    · exact ((h.put _ _).sat _).captureFault _ _
    · exact (((h.setReg _ _).setReg _ _).put _ _).sat _
    · exact (h.put _ _).sat _

theorem Preserves.refuse (h : Preserves s t) (c : BusCause) (x : Access) : Preserves s (refuse c x t) := by
  cases c with
  | decode => exact (h.put _ _).captureFault _ _
  | size => exact (h.put _ _).captureFault _ _
  | off => exact h.offAccess x

/-- What a refusal does to the core of it (R51, R132). -/
theorem Preserves.coreFaulted (h : Preserves s t) (x : Access) : Preserves s (coreFaulted x t) := by
  unfold Machine.coreFaulted
  dsimp only
  repeat' split
  all_goals first | exact h | exact h.of_eq rfl rfl rfl

/-- A refusal with what it does to the core. -/
theorem Preserves.answered (h : Preserves s t) (c : BusCause) (x : Access) : Preserves s (answered c x t) := by
  unfold Machine.answered
  split
  · exact (h.refuse c x).coreFaulted x
  · exact h.refuse c x

/-- A write through the bus preserves what its effect preserves. -/
theorem Preserves.viaMaster (h : Preserves s t) (m : Master) (a : Nat) {f : State → State} (hf : ∀ u, Preserves u (f u)) :
    Preserves s (viaMaster m a f t) := by
  obtain ⟨-, e⟩ | ⟨c, -, -, e⟩ | ⟨-, e⟩ := viaMaster_cases m a f t <;> rw [e]
  · exact h
  · exact h.answered c _
  · exact h.trans (hf t)

theorem Preserves.viaBus (h : Preserves s t) (a : Nat) {f : State → State} (hf : ∀ u, Preserves u (f u)) :
    Preserves s (viaBus a f t) := h.viaMaster .coreData a hf

theorem Preserves.viaRead (h : Preserves s t) (a : Nat) {f : State → State} (hf : ∀ u, Preserves u (f u)) :
    Preserves s (viaRead a f t) := by
  obtain ⟨-, e⟩ | ⟨c, -, -, e⟩ | ⟨-, e⟩ := viaRead_cases a f t <;> rw [e]
  · exact h
  · exact h.answered c _
  · exact h.trans (hf t)

/-- A write of an engine to memory, taken or refused. -/
theorem Preserves.memWrite (h : Preserves s t) (m : Master) (a : Nat) (sz : Size) (v : Nat) :
    Preserves s (memWrite m a sz v t).1 := by
  unfold Machine.memWrite
  dsimp only
  split
  · exact h.refuse _ _
  · exact h.wn _ _ _

/-! ## General registers and entries (R119, R132) -/

/-- g0 reads 0. -/
@[simp] theorem Cpu.get_zero (c : Cpu) : c.get 0 = 0 := by simp [Cpu.get]

/-- A write of a register, which g0 discards. -/
theorem Cpu.get_put (c : Cpu) (r q : BitVec 5) (v : Word) :
    (c.put r v).get q = if q = r ∧ r ≠ 0 then v else c.get q := by
  unfold Cpu.put
  split
  · next hr => rw [if_neg (fun h => h.2 hr)]
  · next hr =>
    by_cases hq : q = r
    · rw [if_pos ⟨hq, hr⟩, Cpu.get, if_neg (hq ▸ hr)]
      simp [hq]
    · rw [if_neg (fun h => hq h.1), Cpu.get, Cpu.get]
      have hn : r.toNat ≠ q.toNat := fun e => hq (BitVec.eq_of_toNat_eq e.symm)
      simp [hn]

/-- An exception outside an entry: what R132 writes. -/
theorem CoreSt.exception_enters (c : CoreSt) (code : Nat) (eaddr epc : Word) (h : c.exl = false) :
    let t := c.exception code eaddr epc
    t.ecause = BitVec.ofNat 32 code ∧ t.eaddr = eaddr ∧ t.epc = epc ∧ t.cpu.pc = c.vbase ∧ t.cpu.g = c.cpu.g ∧
      t.cpu.rep = none ∧ t.status = (c.status &&& 0x070#32) ||| 0x200#32 ∧ t.halted = c.halted := by
  simp [CoreSt.exception, CoreSt.enter, h]

end Sys2Proof.Machine
end

