-- ==== Sys2Proof/WellFormed.lean ====
section
/-! DEFINITION. WellFormed.lean: what a command's operands must satisfy beyond their types: the lengths that the spec gives to
frames, requests and blocks. The meanings answer for every command, well-formed or not. -/
namespace Sys2Proof

/-- Bytes of a READ or SNAPSHOT request: its header and 4 bytes an item (R457). -/
def itemBytes (l : List (BitVec 16 × BitVec 8)) : Nat := 4 + 4 * l.length

/-- Bytes of a WRITE request: its header, and 6 bytes beside the value an item (R457). -/
def valueBytes (l : List (BitVec 16 × BitVec 8 × List (BitVec 8))) : Nat := 4 + (l.map (fun e => 6 + e.2.2.length)).sum

/-- Well-formed commands: host frames (R420), ring frames (R450, R451), dictionary messages (R457), Twill frames (R482, R487,
R490), recovery data (R530), direct commands (SPIM_DCMD.LEN), NVM blocks of 128 units (R388), a transmission with an
airtime (R233), a level as a magnitude (R195). -/
def Instr.wf (i : Instr) : Bool :=
  match i with
  | .agcStep _ rms => decide (0 ≤ rms)
  | .txRequest r => decide (0 < r.airtime)
  | .programUnitDone _ _ _ lost => decide (lost.length ≤ 128)
  | .scrubStep units => decide (units.length ≤ 128)
  | .hostNop _ payload => decide (payload.length ≤ 2048)
  | .hostRepeat _ payload => decide (payload.length ≤ 2048)
  | .hostDict _ payload => decide (payload.length ≤ 2048)
  | .mboxPut _ payload => decide (payload.length ≤ 2048)
  | .mboxGet _ payload => decide (payload.length ≤ 2048)
  | .hostAttn _ payload => decide (payload.length ≤ 2048)
  | .ringSvc _ payload => decide (payload.length ≤ 1024)
  | .ringApp _ payload => decide (payload.length ≤ 1024)
  | .ringBulk _ payload => decide (payload.length ≤ 1024)
  | .dictRead _ _ items => decide (items.length ≤ 64 ∧ itemBytes items ≤ 2048)
  | .dictWrite _ _ items => decide (items.length ≤ 64 ∧ valueBytes items ≤ 2048)
  | .dictSnapshot _ _ items => decide (items.length ≤ 64 ∧ itemBytes items ≤ 2048)
  | .twillCtr _ pairs => decide (pairs.length ≤ 64)
  | .twillDict _ _ items => decide (items.length ≤ 4096)
  | .twillFwd _ _ _ psdu => decide (psdu.length ≤ 2047)
  | .twillRelay _ message => decide (message.length ≤ 2048)
  | .rwrite _ _ _ data _ => decide (32 ≤ data.length ∧ data.length ≤ 2016 ∧ data.length % 32 = 0)
  | .directCommandEnd read _ => decide (read.length ≤ 256)
  | .tickBoundary .. | .tailJobRunnable .. | .packetEnd .. | .commitGo .. | .commitCheckDone .. | .groupCommitGo ..
  | .registerWrite .. | .holdLoRead .. | .holdHiWrite .. | .holdLoWrite .. | .offAccess .. | .decodeError ..
  | .sizeError .. | .storeBus | .gpioEdge .. | .gpioSet .. | .gpioClr .. | .evmSwpulse .. | .twLiveWindow ..
  | .powerOnReset .. | .brownOutReset | .pinReset | .internalResetRelease .. | .xoStartTimeout .. | .xoFail | .xtFail
  | .xtStable | .brownOutWarning | .backupSwitchover .. | .wdtCtrlWrite .. | .wdtFeed .. | .wdtTimeout | .softReset ..
  | .remoteReset | .alarmReset | .clkgateWrite .. | .domainEnable .. | .domainDisable .. | .startCalibrationDone ..
  | .enterIdle .. | .enterSleep .. | .enterDeepSleep .. | .enterOff .. | .drainEnd .. | .powerDownComplete ..
  | .idleWake | .wakeRecognised .. | .timedWake | .wakePin | .pllLock | .deepSleepResume | .add .. | .sub ..
  | .andR .. | .orR .. | .xorR .. | .shl .. | .shr .. | .sar .. | .minS .. | .maxS .. | .minu .. | .maxu ..
  | .cmpeq .. | .cmpne .. | .cmplt .. | .cmpltu .. | .cmple .. | .cmpleu .. | .sel .. | .clz .. | .sextb ..
  | .sexth .. | .zexth .. | .addi .. | .andi .. | .ori .. | .xori .. | .shli .. | .shri .. | .sari .. | .cmpeqi ..
  | .cmpnei .. | .cmplti .. | .cmpltui .. | .cmplei .. | .cmpleui .. | .kExt .. | .bz .. | .bnz .. | .jump ..
  | .call .. | .jr .. | .callr .. | .eret .. | .sys .. | .brk .. | .mul .. | .mulh .. | .mulhu .. | .mulAcc ..
  | .mac16 .. | .div .. | .divu .. | .rem .. | .remu .. | .cmul .. | .cmac .. | .cadd .. | .csub .. | .cmag2 ..
  | .corr .. | .acs .. | .lms .. | .ldb .. | .ldbu .. | .ldh .. | .ldhu .. | .ldw .. | .ldp .. | .ldwPi .. | .stb ..
  | .sth .. | .stw .. | .stp .. | .stwPi .. | .dinv .. | .fence .. | .mfsr .. | .mtsr .. | .iinv .. | .iex ..
  | .repi .. | .repir .. | .repn .. | .interruptEntry | .swLineSet .. | .swLineClr .. | .laneIn .. | .ctxIn ..
  | .ctxOut .. | .sramIn .. | .sramOut .. | .macOut .. | .dmaComplete .. | .wioDmawait .. | .wioEnd .. | .wioRemain ..
  | .jobPost .. | .jobDispatch .. | .budgetExceeded .. | .overbudget .. | .shtlHalt .. | .weftResume ..
  | .spanWrite .. | .rxRetune .. | .gainLimitWrite .. | .clipEvent .. | .clipStep | .gainStep | .energyBlock ..
  | .calReqVco .. | .calReqAdc .. | .calReqDc .. | .calReqIq .. | .rxCalStart | .calWaitLimit | .rxCalStepDone ..
  | .tempMeasure .. | .trimUpdate | .sentinelDetection .. | .sfdMatch .. | .sfdTimeout .. | .intakeAccept ..
  | .mswWindowExpiry | .txPrepare | .txLock | .lockFail | .coexReqStart | .sequencerStart .. | .gntwaitExpiry
  | .paEnable | .rampUp | .lastSymbol | .rampDownEnd | .paDisable | .lastTxSample .. | .blankingEnd
  | .coexGrantWithdrawn | .firWrite .. | .txCalVco | .txCalCheck | .txCalDone .. | .dutyBucketAdvance
  | .linkOccurrence | .beaconSlot | .txqHeadWrite .. | .ccaAssess .. | .deferExpiry .. | .macRxFrame | .rxWindowClose
  | .ackWaitClose .. | .parentWrite .. | .zephyrMatch .. | .zephyrHandoffTimeout | .ecbEncrypt | .ecbDecrypt
  | .ccmEncrypt | .ccmDecryptVerify | .keyLoad | .keyErase | .montgomeryMultiply .. | .modularAdd ..
  | .modularSubtract .. | .bnDone | .counterReserve .. | .reservationDurable .. | .reservationAckTimeout ..
  | .securityAlarm .. | .almcfgWrite .. | .epochWrite .. | .ledgerCfgWrite .. | .tblLookup .. | .tblRead ..
  | .tblAdd .. | .tblWrite .. | .tblDelete .. | .tblRefresh .. | .ageingScan | .tblSplitWrite .. | .timeSet ..
  | .timeStep .. | .timeSlew | .timeRate | .timeClear | .timeAccept | .slewEnd | .ppsMeasurement | .servoTakeover
  | .sourceLoss | .timeHoldover | .compareMatch .. | .pulseEnd .. | .timeCapture .. | .capturePop .. | .capcfgWrite ..
  | .nowRead .. | .utcOffsetChange | .rtcSecWrite .. | .rtcCountLoad | .rtcCaldWrite .. | .rtcCaltWrite .. | .syncnt
  | .rtcSyncLoad | .legacyFreezeRead .. | .freezeTimeout | .alarmArm .. | .rtcAlarm | .periodicRestart ..
  | .periodicWake | .trimWindow | .backupCheck .. | .chargerWrite .. | .timerEnable .. | .timerCountStep ..
  | .reloadWrite .. | .timerRestart .. | .timerCapture .. | .timerCapRead .. | .scanStart | .zeroCrossing ..
  | .nozcTimeout | .msuEnable .. | .msuDisable | .msuThrWrite .. | .nvmRead .. | .nvmProgram .. | .nvmErase
  | .nvmOtpprog .. | .eraseComplete .. | .eraseSuspend .. | .eraseResume .. | .metadataLoad | .xipLineFill ..
  | .xipWrite .. | .writeQueueEntry | .statusPoll .. | .pollTimeout | .directCommand .. | .brokenFrame .. | .busyFrame
  | .spisEnableWrite .. | .portDown .. | .portUp .. | .ringWrap | .ringUnwrap | .cycleReceived .. | .cycleLoss
  | .ringTimeFrame .. | .ringNumber .. | .ringClaim .. | .statusFrame .. | .ringDreq .. | .ringDrsp .. | .serviceSlot
  | .bulkWindow | .ringEnable .. | .ringDisable .. | .dictBegin .. | .dictCommit .. | .dictAbort .. | .dictFetch ..
  | .snapshotBufferExpiry .. | .transactionExpiry .. | .holdmaxExpiry | .checkVerdict .. | .checkTimeout
  | .meshEnvelope | .localRequest | .dictRestore .. | .storeCfgWrite .. | .appTableWrite .. | .twillHello ..
  | .twillTick .. | .twillDreq .. | .twillDrsp .. | .twillTbl .. | .twillRes .. | .twillResack .. | .twillTxb ..
  | .twillSync .. | .twillHandover .. | .twillLinkDown | .twillLinkUp | .twillRetransmit | .twillAckTimeout
  | .startwaitExpiry | .twillTakeover | .twillYield | .twillForce | .twillResync | .eventReport ..
  | .variableReport .. | .stagingWrite | .coalesceTimeout | .evrFlush | .evrClear | .evrScan | .bootSelect ..
  | .romVerify | .romBegin .. | .romFinish .. | .romConfirm .. | .romVersion | .trialExpiry | .trialStop
  | .idUpdWrite .. | .rinfo .. | .rerase .. | .rfinish .. | .rotp .. | .rboot .. | .rcFieldRead .. | .powerUp
  | .resetNRise | .brownOutWarningClear | .vddioLow .. | .coreResume | .coexGrant .. | .cmacCommand | .otpProgramDone
  | .scanEnd .. | .rtcCountWrap | .zephyrSynconly | .ringGap => true

end Sys2Proof
end

