-- ==== Sys2Proof/Tests/Slice0.lean ====
section
/-! SUPPORT. Tests/Slice0.lean: the model's own tests: small states, ill-formed commands refused, effects against the spec's
worked examples, and a witness for every statement's hypotheses. -/
namespace Sys2Proof.Tests
open Sys2Proof Sys2Proof.Machine Sys2Proof.Safety

set_option maxRecDepth 100000
set_option Elab.async false

/-! ## Small states -/

/-- After reset with RADIO powered. -/
def radioUp : State := State.reset.put SYSC_PDSTAT.RADIO 1

/-- The core in control SRAM with its I-cache off and g5 at a word there. -/
def coreAt : State :=
  (State.reset.modCpu (fun c => { c with pc := 0x20000100, g := c.g.set 5 0x20001000 })).modCore (fun c => { c with mpuCtrl := 2 })

/-- The same in user mode. -/
def userAt : State := coreAt.modCore (fun c => { c with status := 0x100 })

/-- Engine 3 running a job with g5 at a word of its local memory. -/
def weftAt : State := radioUp.modEng 3 (fun e => { e with
  st := .running, job := some ⟨0, 0, 0, 0, 0, 0, 0, .firmware, none, 0⟩, cpu := { e.cpu with pc := 0x100, g := e.cpu.g.set 5 0x40 } })


/-- The same engine with a LOOSE job whose context slot is 96. -/
def jobAt : State := weftAt.modEng 3 (fun e => { e with job := some ⟨0, 0, 0, 0x60000000, 2, 0, 0, .firmware, none, 0⟩ })

/-- Packet 7 on lane 5, its first job, and engine 3 running it. -/
def packet5 : Packet := { num := 7, lane := 5, bond := 0, mset := 2, metric := 0, level := 0, first := none, trim := 0 }
def packetTail : Packet := { packet5 with remain := some 100 }
def packetJob : Job := ⟨0x00070500, 0, 0, 0x05000002, 0, 64, 100, .shuttle, some 5, 0⟩
def packetAt : State := ({ weftAt with loom := { packets := [packet5] } }.modLane 5 (fun l => { l with pkt := some 7 })).modEng 3
  (fun e => { e with job := some packetJob })

/-- Lane sample 400 of a tick, with packet 7's tail due by a mode set that names a tail class. -/
def tailAt : State := { ((radioUp.setReg Reg.SHTL_ENGCFG_LIVE 32).setReg (Reg.LOOM_MSA_LIVE 2) ((LOOM_MSA.TAILEN 0).into 0 1)) with
  loom := { packets := [packetTail] }, now := 10000 + 400 * 625, tick := { bnd := 0, startAt := 10000 } }

/-- The Loom runs, the shared gain at code 6. -/
def loomUp : State := { (radioUp.put RFRX_GAIN.CODE 6) with loom := { running := true } }

/-- Lane 48 searches, at 868 MHz. -/
def searchAt : State := ((loomUp.put RFRX_SPAN.LIVE 1180).setReg (Reg.LOOM_LANE_LIVE 48) ((LOOM_LANE.EN 0).into 0 1)).put (LOOM_SENT.STATE 48) sentSearch

/-- Lane 48 awaits the frame start of packet 7. -/
def packet48 : Packet := { num := 7, lane := 48, bond := 0, mset := 0, metric := 0, level := 0, first := none, trim := 0 }
def syncAt : State := ((searchAt.put (LOOM_SENT.STATE 48) sentPreamble).modLane 48 (fun l => { l with pkt := some 7 })).modLoom
  (fun l => { l with packets := [packet48] })

/-- Engine 3 with a MAC_OUT of packet 5's frame outstanding. -/
def goodBlock : List Byte := leBytes 2 7 ++ [5, 2, 0, 8, 4, 0] ++ List.replicate 13 0 ++ [1] ++ List.replicate 10 0 ++ [0xAB, 0xCD, 0xBE, 0x56]
def macOutAt (b : List Byte) : State := ((packetAt.put MAC_RXCFG.KEEPBAD 0).wbytes (weftLocal 3 + 0x100) b).modEng 3
  (fun e => { e with dma := [⟨.macOut, 36, 0x100, 0⟩] })

/-- RADIO with a valid regulatory record: one band over every cell. -/
def recordBytes : List Byte :=
  leBytes 4 0x4C4D5247 ++ [1, 1, 1, 0, 40, 0, 0, 0] ++ leBytes 2 0 ++ leBytes 2 2099 ++ [28, 0] ++ leBytes 2 100 ++
  List.replicate 56 0 ++ List.replicate 262 0xFF ++ [0x0F, 0] ++ leBytes 4 4036081066 ++ leBytes 4 0
def recordAt : State := { radioUp with tx := { record := recordBytes } }

/-- A request for a mode-0 packet of 5 ms at 868.3 MHz, and a transmission of it in a phase. -/
def request : TxReq := ⟨none, 868300, some 0, 20, 0, true, 5000, false, []⟩
def txJob (p : TxPhase) : TxJob := { req := request, owner := .outside, phase := p, steps := 0, band := 0 }
def atTime (t : DWord) (p : TxPhase) : TxJob := { txJob p with req := { request with start := some t } }
def sending (p : TxPhase) : State := { radioUp with tx := { job := some (txJob p) } }

/-- Link 0, an RX link of a one-slot slotframe on channel 0, free running. -/
def linkAt : State := (((radioUp.setReg (Reg.MAC_LINKA_LIVE 0) ((MAC_LINKA.TYPE 0).into ((MAC_LINKA.EN 0).into 0 1) 1)).setReg (Reg.MAC_SF_LIVE 0)
  ((MAC_SF.LEN 0).into ((MAC_SF.EN 0).into 0 1) 1)).setReg (Reg.LOOM_LANE_LIVE 0) ((LOOM_LANE.EN 0).into 0 1)).setReg Reg.MAC_BCNSLOT_LIVE
  (MAC_BCNSLOT.BCNPER.into 0 1)

/-- Descriptor 2 in CSMA on lane 48, whose energy lies above the threshold. -/
def csma2 : Csma := { idx := 2, link := none, spanEnd := none, lane := 48, base := 0, be := 3 }
def csmaAt : State := ((((radioUp.put MAC_TXQBASE.ADDR 0x10020).put MAC_CSMA.CCAMODE 1).putI MAC_RADIO.CCATHR (-400)).putI (LOOM_NRG.NOW 48) (-100)).modMac
  (fun m => { m with descs := [{ idx := 2 }], csma := [csma2] })

/-- A frame whose check failed, kept, and a receive queue of 4 KB in control SRAM. -/
def badFrame : RxFrame := { pkt := 7, lane := 48, mset := 0, mode := 0, flags := 8, rssi := -300, snr := 20, lqi := 100, e := none,
                            rxTime := 5000, rate := 0, status := stCrcfail, psdu := [1, 2, 3, 4] }
/-- An unsecured data frame to short address 0x1234 of every PAN. -/
def dataFrame : RxFrame := { badFrame with status := stDone, psdu := [0x01, 0x08, 9, 0xFF, 0xFF, 0x34, 0x12, 7, 0, 0] }
def rxqAt (f : RxFrame) : State := { ((radioUp.put MAC_RXQBASE.ADDR 0x20010).put MAC_RXQBASE.EN 1) with demod := { done := [f] } }

/-- The Zephyr hears sync word 0; entry 2 matches address 0 and hands off on lane 48. -/
def zephAt : State := (((searchAt.put ZEPH_CTRL.EN 1).put ZEPH_CTRL.SYNC 0).put (ZEPH_ADDR.EN 2) 1).put (ZEPH_ADDR.ADDR 2) 0 |>.put ZEPH_HAND.LANE 48

/-- The security engine with slot 3 loaded and a descriptor over buffers in control SRAM. -/
def secAt (head : List Byte) (len : Nat) : State :=
  (((State.reset.put SEC_CMDBASE.ADDR 0x100100).put SEC_CMDBASE.EN 1).put SEC_CMDPTR.HEAD 1).modSec (fun x => { x with
    slots := x.slots.set 3 { valid := true, use := 0x1F, key := List.replicate 16 7 } }) |>.wbytes 0x20020000
    (head ++ leBytes 4 0x20021000 ++ leBytes 4 0x20022000 ++ leBytes 4 len ++ leBytes 4 0x20023000 ++ leBytes 4 8 ++ leBytes 4 0x20024000
      ++ leBytes 4 0x20025000)

/-- A wrapped key for slot 3, and the descriptor that loads it. -/
def blobHead : List Byte := [1, 3, 0, 0x1F, 9, 0, 0, 0] ++ leBytes 4 5 ++ leBytes 4 0 ++ List.replicate 16 3
def loadBlob : List Byte := blobHead ++ cmac (List.replicate 32 6) blobHead
def loadAt : State := (((secAt [0x10, 3, 0, 0] 48).wbytes 0x08803E00 (List.replicate 32 5)).wbytes 0x08803E20 (List.replicate 32 6)).wbytes 0x20021000 loadBlob

/-- Operands 3 and 4 and the modulus 7 in the modular unit. -/
def bnAt : State := State.reset.modSec (fun x => { x with bn := ((x.bn.set 0 3).set 1 4).set 7 7 })

/-- Slot 3 with a frame counter near the end of its block. -/
def ctrAt : State := State.reset.modSec (fun x => { x with slots := x.slots.set 3 { valid := true, use := 1 }
                                                           ctr := x.ctr.set 3 { durable := some 0, next := 1020 } })

/-- Entry 5 a peer with extended address 0x11; the same with bytes in TBL_DATA. -/
def tblAt : State := State.reset.wbytes (tblAddr 5) [1, 1, 0, 0, 0, 0, 255, 255, 0x11]
def tblDataAt (b : List Byte) : State := (List.range 8).foldl (fun s n => s.setReg (Reg.TBL_DATA n) (BitVec.ofNat 32 (eN b (4 * n) 4))) tblAt

/-- Network time valid at 10 s. -/
def timeAt : State := State.reset.modTime (fun t => { t with valid := true, bnt := 10 * 2 ^ 32 * ntQ, bc := 10000 })

/-- Timer 3 enabled with a count, and 20 to reload. -/
def tmrAt (c : Nat) : State := ((State.reset.put (TMR_CTRL.EN 3) 1).setReg (Reg.TMR_COUNT 3) (BitVec.ofNat 32 c)).setReg (Reg.TMR_RELOAD 3) 20

/-- The mains sense unit runs. -/
def msuAt : State := msuCfgWrite 0x80000F00 (domainOn .msu State.reset) |>.modMsu (fun m => { m with dueAt := 5000 })


/-- NVM ready, its bank 0 or 1 idle, with an address in NVM_ADDR and a source in control SRAM. -/
def nvmAt (a : Nat) : State := ((State.reset.put NVM_STAT.READY 1).put NVM_ADDR.ADDR a).put NVM_SRC.SRC 0x20030000

/-- Firmware's erase of block 16 runs in bank 1. -/
def erasingAt : State := (nvmAt 0).modBank true (fun b => { b with erase := some ⟨.firmware, 16, false⟩ })

/-- The memory port on. -/
def xipAt : State := (State.reset.put SPIM_CFG.EN 1).put SYSC_CLKGATE.SPIM 1

/-- The host port on, with both mailboxes of 4 KB in control SRAM. -/
def hostAt : State := (((((State.reset.put SPIS_CTRL.EN 1).put SYSC_CLKGATE.SPIS 1).put (SPIS_MBBASE.EN 0) 1).put (SPIS_MBBASE.ADDR 0) 0x20040).put
  (SPIS_MBBASE.EN 1) 1).put (SPIS_MBBASE.ADDR 1) 0x20048

/-- Position 2 of a ring with both ports up, and a receive queue. -/
def ringAt : State := ((((((((State.reset.put SYSC_PDSTAT.RING 1).put RING_CFG.EN 1).put RING_STAT.STATE 5).put RING_STAT.POS 2).put (RING_PORT.UP 0) 1).put
  (RING_PORT.UP 1) 1).put RING_RXQBASE.ADDR 0x20050).put RING_RXQBASE.EN 1).modRing (fun r => { r with cyc := 256 })

/-- The same with one BULK descriptor ready. -/
def ringTxAt : State := (((ringAt.put RING_TXQBASE.ADDR 0x200600).put RING_TXQBASE.EN 1).put RING_TXQPTR.HEAD 1).wbytes 0x20060000
  ([1, 0x20, 7, 4] ++ leBytes 2 100 ++ [0, 0] ++ leBytes 4 0x20061000)

/-- The dictionary engine serves, with its buffers, beside the host port. -/
def dictAt : State := ((((hostAt.put DICT_CTRL.EN 1).put DICT_STAT.READY 1).put DICT_BUFBASE.EN 1).put DICT_BUFBASE.ADDR 0x4010).put SYSC_CLKGATE.DICT 1

/-- The host's transaction is open. -/
def transAt (l : List DItem) : State := modSess .host (fun x => { x with trans := some l }) dictAt

/-- The host's COMMIT runs. -/
def runAt (l : List DItem) (st : RunStage) : State :=
  (dictAt.modSpis (fun p => { p with pend := true })).modDict (fun d => { d with run := some ⟨hostReq 4 7, .user, l, st⟩ })

/-- Descriptor 2 of the mesh queue holds a request. -/
def mqAt (kind : Nat) (b : List Byte) : State :=
  ((((((dictAt.put DICT_CTRL.MESHEN 1).put DICT_MQBASE.EN 1).put DICT_MQBASE.ADDR 0x400E00).put DICT_MQPTR.TAIL 2).put DICT_MQPTR.HEAD 3).wbytes 0x20070020
    ([1, BitVec.ofNat 8 kind, 0, 0] ++ leBytes 2 b.length ++ leBytes 2 64 ++ leBytes 4 0x20071000 ++ leBytes 4 0x20072000)).wbytes 0x20071000 b
def locAt : State := mqAt 1 [3, 7, 0, 0]

/-- An envelope of level 5 under the key of slot 3 (its MIC from the model's own CCM*, which the FIPS 197 test below checks). -/
def envEnc : List Byte := [0xF0, 0x89, 0x37, 0x0D]
def envAt : State := (((mqAt 0 (envHead 21 5 0x1122334455667788 9 ++ envEnc ++ [0x99, 0x89, 0x31, 0x95])).put DICT_STORE.EN 1).modSec (fun x => { x with
  slots := x.slots.set 3 { valid := true, use := 2, keyId := 21, key := List.replicate 16 7, kcv := List.replicate 8 1 } })).modDict
  (fun d => { d with store := { d.store with busy := true } })

/-- A part of a pair in a state, its link up, SEQ 4 received last; the dictionary engine serves. -/
def twilAt (st : Nat) : State :=
  ((((dictAt.put SYSC_PDSTAT.RING 1).put TWIL_CFG.EN 1).put TWIL_STAT.STATE st).put TWIL_STAT.LINK 1).modTwil (fun x => { x with rxSeq := 4 })

/-- The recorder is ready and takes class 6; a staged record of it, and one due to be written in an idle bank. -/
def evrAt : State := (State.reset.put (EVR_CLS.EN 6) 1).put EVR_STAT.READY 1
def snap6 : Report := { form := 0, cls := 6, source := 0, arg0 := 0, payload := [1, 2, 3, 4] }
def stagedAt6 : State := evrAt.modEvr (fun e => { e with staged := some snap6, stagedAt := 9000 })
def foundAt : State := (((evrAt.put NVM_STAT.READY 1).put EVR_STAT.READY 0).put EVR_STORE.NBLK 2).wbytes
  ((evrAt.put EVR_STORE.NBLK 2).evrUnitAddr 0 5) (Sys2Proof.Machine.recordBytes snap6 1 100 3 7)
def dueAt : State := ((stagedAt6.put NVM_STAT.READY 1).put EVR_POS.UNIT 4)

/-- Firmware runs and calls a service with g31 as its return address. -/
def romAt : State := { (State.reset.put NVM_STAT.READY 1).modCpu (fun c => { c with g := (c.g.set 31 0x20000040).set 1 0x20001000 }) with boot := { State.reset.boot with due := false } }

/-- Bytes written at an address, where nothing else is to stay. -/
def place (a : Nat) (b : List (BitVec 8)) (s : State) : State :=
  let new := (((List.range b.length).zip b).map (fun e => (a + e.1, e.2))).filter (fun c => c.2 != memDefault {} c.1)
  let below := s.mem.cells.filter (fun c => decide (c.1 < a))
  let above := s.mem.cells.filter (fun c => decide (a + b.length ≤ c.1))
  { s with mem := { s.mem with cells := below ++ new ++ above } }

/-- A signed control image of a slot (SVN 1, four bytes of code), its key as boot key 0. -/
def imgHead : List (BitVec 8) := leBytes 4 0x474D494C ++ [1, 1, 0, 1] ++ leBytes 4 0x010201 ++ leBytes 4 4 ++ leBytes 4 256 ++ List.replicate 44 0
  ++ beBytes 32 0x4578D45D03CFF50FF6527FD220BF9B281CD02A8E710E8937A1FA47C85F4E97B2
  ++ beBytes 32 0x4578D45D03CFF50FF6527FD220BF9B281CD02A8E710E8937A1FA47C85F4E97B2 ++ List.replicate 132 0
def withImage (k : Bool) (s : State) : State := place 0x08803000
  (beBytes 32 0x5B598CAD4BB7094C71F3E9E4F3A831B336B8724C4C20108BE871FF05B3F512EF
    ++ beBytes 32 0x005C826807DB1072DB553A19FCDFC5FC2AFDCA253689649066DAB778B508CA64)
  (place (areaAddr k 1) imgHead s)
/-- Slot A complete with SEQ 7. -/
def slotBytes : List (BitVec 8) := leBytes 4 0x544F4C53 ++ leBytes 4 7 ++ [1] ++ List.replicate 19 0 ++ leBytes 4 4029037408
def withSlot (s : State) : State := place (stateUnit false 0) slotBytes s
/-- Firmware in a trial of slot A. -/
def trialAt : State := withSlot (romAt.put ID_TRIAL.RUN 1)
/-- The ROM acts on a reset with the recorder ready, slot A in trial; and confirmed. -/
def bootTrial : State := withSlot ((((State.reset.put NVM_STAT.READY 1).put GPIO_STRAP.RUN 1).put (EVR_CLS.EN 0) 1).put EVR_STAT.READY 1)
def bootAt : State := bootTrial.wb (stateUnit false 4) 1

/-- The other slot complete and confirmed, with an image that passes; slot A's has none. -/
def fallBackAt : State := (place (stateUnit true 0) slotBytes (withImage true bootAt)).wb (stateUnit true 4) 1

/-- Recovery mode. -/
def modBoot (s : State) (f : BootSt → BootSt) : State := { s with boot := f s.boot }
def recAt : State := modBoot (hostAt.put NVM_STAT.READY 1) (fun b => { b with due := false, recovery := true })
def recRingAt : State := modBoot (ringAt.put NVM_STAT.READY 1) (fun b => { b with due := false, recovery := true })

/-! ## Ill-formed commands are refused: one for each check of `Instr.wf` -/

theorem test_wf_level : (Instr.agcStep 0 (-1)).wf = false := by decide
theorem test_wf_program : (Instr.programUnitDone false true 0 (List.replicate 129 0)).wf = false := by decide
theorem test_wf_scrub : (Instr.scrubStep (List.replicate 129 (0, 0))).wf = false := by decide
theorem test_wf_host : (Instr.hostNop 0 (List.replicate 2049 0)).wf = false ∧ (Instr.mboxPut 0 (List.replicate 2049 0)).wf = false := by decide
theorem test_wf_ring : (Instr.ringApp ⟨0, 0, 0, 0, .good⟩ (List.replicate 1025 0)).wf = false := by decide
theorem test_wf_dict : (Instr.dictRead (.host 0) 0 (List.replicate 65 (0, 0))).wf = false := by decide
theorem test_wf_relay : (Instr.twillRelay ⟨0, 0, false⟩ (List.replicate 2049 0)).wf = false := by decide
theorem test_wf_rwrite : (Instr.rwrite (.host 0) 0 0 (List.replicate 33 0) 0).wf = false := by decide
theorem test_wf_direct : (Instr.directCommandEnd (List.replicate 257 0) []).wf = false := by decide
theorem test_wf_holds : (Instr.rwrite (.host 0) 0 0 (List.replicate 64 0) 0).wf = true := by decide

/-! ## Worked examples and published vectors -/

/-- FIPS 197's AES-128 of the zero block under the zero key. -/
theorem test_aes : aesEnc (List.replicate 16 0) (List.replicate 16 0) =
    [0x66, 0xe9, 0x4b, 0xd4, 0xef, 0x8a, 0x2c, 0x3b, 0x88, 0x4c, 0xfa, 0x59, 0xca, 0x34, 0x2b, 0x2e] := by decide

/-- R420: the host frame's checksum of "123456789". -/
theorem test_crc_host : crc16Host [0x31, 0x32, 0x33, 0x34, 0x35, 0x36, 0x37, 0x38, 0x39] = 0x29B1 := by decide

/-- Chapter 16's example: the count 0xBC66DBF0 is 2100-02-28, a Sunday, 23:59:44. -/
theorem test_calendar : caldOf 0xBC66DBF0 = 0x0764021C#32 ∧ caltOf 0xBC66DBF0 = 0x00173B2C#32 := by decide

/-- The same example: 2100-02-29 is refused, and 2100-03-01T00:00:00 is 0xBC66DC00. -/
theorem test_calendar_value : calValue 0x0064021D 0 = none ∧ calValue 0x00640301 0 = some 0xBC66DC00 := by decide

/-- R363's example: 21 FRAC units fast over 600 s moves TRIM by −4. -/
theorem test_rtc_trim : (trimWindow 19660821 19660800 State.reset).getI RTC_TRIM.TRIM = -4 := by decide

/-- R183's example: five frames, m = 1,200, and TRIM goes from 0 to +50. -/
theorem test_crystal_loop : slotMean [(1210, 20), (1190, 25), (1250, 12), (1200, 30), (1180, 40)] State.reset = (1200, State.reset) := by decide

/-- Chapter 10's example: FOFS 28,783 at 915.0 MHz is 12.00 ppm. -/
theorem test_carrier_estimate : eOfFofs 28783 915000000 = 1200 := by decide

/-- R190's example: with the span centre at 915.0 MHz lane 0 lies at 905.5 MHz and lane 95 at 924.5 MHz. -/
theorem test_lane_centres : (State.reset.put RFRX_SPAN.LIVE 1650).channelHz 0 0 = 905500000 ∧
    (State.reset.put RFRX_SPAN.LIVE 1650).channelHz 95 0 = 924500000 := by decide

/-- Chapter 18's example: the states of half cycles H1 to H8 with NOM = 3,778. -/
theorem test_mains_states :
    ([3778, 3203, 246, 427, 1900, 3285, 3430, 3560].foldl (fun (l : List Nat) r =>
      l ++ [classify (State.reset.put MSU_NOM.NOM 3778) r (l.getLastD 0)]) []) =
    [phNormal, phSag, phIntr, phIntr, phSag, phSag, phSag, phNormal] := by decide

/-- Chapter 02's example: the core reads LOOM_COMMIT with the RADIO domain off. -/
theorem test_off_access : (match exec (.offAccess .coreData 0x40012FF0 .b32 false) State.reset with
    | .next t => t.on BUS_STAT.OFFACC && t.get BUS_STAT.OFFCNT == 1 && t.reg Reg.BUS_OFFADDR == 0x40012FF0 &&
        t.reg Reg.BUS_FADDR == 0x40012FF0 && t.get BUS_FINFO.CAUSE == 0
    | _ => false) = true := by decide

/-- R120: a sum that wraps; R121: the division corner of the most negative value by −1. -/
theorem test_add_wraps : (match exec (.add .core true 6 5 5 0) (coreAt.modCpu (fun c => c.put 5 0x80000001)) with
    | .next t => t.core.cpu.get 6 == 2
    | _ => false) = true := by decide

theorem test_div_corner : (match exec (.div .core true 6 5 7 0)
      ((coreAt.modCpu (fun c => c.put 5 0x80000000)).modCpu (fun c => c.put 7 0xFFFFFFFF)) with
    | .next t => t.core.cpu.get 6 == 0x80000000
    | _ => false) = true := by decide

/-- Chapter 06's example of a repeated loop: its syllables and their words. -/
theorem test_syllable_words :
    ([0x20100000#32, 0x7F201008#32, 0xA0200000#32, 0xA0300000#32, 0xF00000C7#32, 0x56208004#32, 0xC4310800#32].map decodeSyl) =
    [(false, { op := .addi, rd := 2 }), (false, { op := .k, imm := 0x201008 }), (true, { op := .addi, rd := 4 }),
      (true, { op := .addi, rd := 6 }), (true, { op := .repi, imm := 199 }), (false, { op := .ldwpi, rd := 4, rs1 := 2, imm := 4 }),
      (true, { op := .mac16, rd := 6, rs1 := 4, rs2 := 4 })] := by decide

/-- R120: an opcode that the tables do not list spells none. -/
theorem test_undefined_opcode : (decodeSyl 0x17000000).2.op = .undef := by decide

/-! Images whose signature passes (R517): R = G + Q, both factors 1. -/
theorem slot_bootAt : slotCheck false (withImage false bootAt) = 0 := by decide +kernel
theorem slot_bootTrial : slotCheck false (withImage false bootTrial) = 0 := by decide +kernel
theorem slot_fallBack : slotCheck (!false) fallBackAt = 0 := by decide +kernel
theorem slot_finish : slotCheck (!(withImage true (withSlot romAt)).runSlot) (withImage true (withSlot romAt)) = 0 := by
  decide +kernel
theorem slot_rec : slotCheck (withImage false recRingAt).target (withImage false recRingAt) = 0 := by decide +kernel

/-! ## Witnesses of the statements' hypotheses -/

theorem witness_StepRunsFront : ∃ (i : Instr) (rest : List Instr) (s : State), s.pending = i :: rest :=
  ⟨.hostNop 3 [], [], { State.reset with pending := [.hostNop 3 []] }, rfl⟩

theorem witness_StepRunsFront_idle : ∃ s : State, s.pending = [] := ⟨State.reset, rfl⟩

theorem witness_CanonicalKept : ∃ s t : State, Canonical s ∧ step s = .next t :=
  ⟨State.reset, State.reset.passTime, by decide, rfl⟩

theorem witness_QueueKept : ∃ (i : Instr) (s t : State), exec i s = .next t :=
  ⟨.busyFrame, State.reset, State.reset, rfl⟩

theorem witness_CommitCapture_go :
    ∃ (b : Blk) (s : State), (Core (blkBase b + 0xFF0) s) ∧ (s.pend b = none) ∧ (inGroup b s = false) :=
  ⟨(.time), (State.reset), by decide +kernel⟩

theorem witness_CommitCapture_again :
    ∃ (b : Blk) (s : State), (Core (blkBase b + 0xFF0) s) ∧ ((s.pend b).isSome = true) :=
  ⟨(.time), (commitGo .time State.reset), by decide +kernel⟩

theorem witness_CommitCapture_shadow :
    ∃ (b : Blk) (p : PendingSet) (addr : Word) (s : State), (addr.toNat ∈ (shadowPairs b).map Prod.fst) ∧ (Takes .coreData addr.toNat s) ∧ (s.pend b = some p) ∧ (DictRest s) :=
  ⟨(.time), (⟨State.reset.shadow .time, 10000, false⟩), (BitVec.ofNat 32 (Reg.TIME_CCTL 0)), (commitGo .time State.reset), by decide +kernel⟩

theorem witness_CommitChecks_fails :
    ∃ (b : Blk) (p : PendingSet) (code : Nat) (s : State), (s.clocked = true) ∧ (s.blkOn b = true) ∧ (s.pend b = some p) ∧ (p.passed = false) ∧ (inGroup b s = false) ∧ (blkCheck b (s.takeLive p.live) = some code) :=
  ⟨(.shtl), (⟨[(Reg.SHTL_ENGCFG_LIVE, 0)], 10000, false⟩), (0x10), (radioUp.setPend .shtl (some ⟨[(Reg.SHTL_ENGCFG_LIVE, 0)], 10000, false⟩)), by decide +kernel⟩

theorem witness_CommitChecks_passes :
    ∃ (b : Blk) (p : PendingSet) (s : State), (s.clocked = true) ∧ (s.blkOn b = true) ∧ (s.pend b = some p) ∧ (p.passed = false) ∧ (inGroup b s = false) ∧ (blkCheck b (s.takeLive p.live) = none) :=
  ⟨(.time), (⟨State.reset.shadow .time, 10000, false⟩), (commitGo .time State.reset), by decide +kernel⟩

theorem witness_CommitChecks_group :
    ∃ (mask : BitVec 5) (s : State), (Core Reg.SYSC_GCOMMIT s) ∧ (s.tick.group = none) ∧ ((members mask).all (fun b => s.blkOn b && (s.pend b).isNone) = true) :=
  ⟨(9), (radioUp), by decide +kernel⟩

theorem witness_CommitChecks_groupAgain :
    ∃ (s : State), (Core Reg.SYSC_GCOMMIT s) ∧ (s.tick.group.isSome = true) :=
  ⟨(groupGo 8 State.reset), by decide +kernel⟩

theorem witness_CommitChecks_groupBusy :
    ∃ (mask : BitVec 5) (b : Blk) (s : State), (Core Reg.SYSC_GCOMMIT s) ∧ (s.tick.group = none) ∧ ((members mask).all (fun c => s.blkOn c) = true) ∧ ((members mask).find? (fun c => (s.pend c).isSome) = some b) :=
  ⟨(9), (.time), (commitGo .time radioUp), by decide +kernel⟩

theorem witness_CommitChecks_groupOff :
    ∃ (mask : BitVec 5) (s : State), (Core Reg.SYSC_GCOMMIT s) ∧ (s.tick.group = none) ∧ ((members mask).any (fun b => !(s.blkOn b)) = true) :=
  ⟨(9), (State.reset), by decide +kernel⟩

theorem witness_TickBoundary_free :
    ∃ (s : State), (s.ticking = true) ∧ (s.time.valid = false) ∧ (DomainsOff s) ∧ (DictRest s) ∧ (Unrouted 0x3A s) ∧ (blks.all (fun b => (s.pend b).isNone) = true) ∧ (s.tick.group = none) ∧ (s.loom.blankFrom = none) :=
  ⟨(State.reset), by decide +kernel⟩

theorem witness_TickBoundary_any :
    ∃ (s : State), (s.ticking = true) ∧ (DictRest s) :=
  ⟨(loomUp), by decide +kernel⟩

theorem witness_RegisterAccess_write :
    ∃ (addr : Word) (s : State), (addr.toNat ∈ [Reg.SYSC_IRQ, Reg.SYSC_IRQEN, Reg.SYSC_SUPCFG, Reg.SYSC_GPWAKE, Reg.SYSC_RESUMEVEC, Reg.BUS_CTRL, Reg.INTC_EN 0, Reg.INTC_EN 1]) ∧ (Takes .coreData addr.toNat s) ∧ (DictRest s) :=
  ⟨(0x40000224), (State.reset), by decide +kernel⟩

theorem witness_RegisterAccess_rc :
    ∃ (m : Master) (addr : Word) (s : State), (((regRow addr.toNat).map (fun r => r.rc != 0)).getD false = true) ∧ (TakesRead m addr.toNat s) :=
  ⟨(.coreData), (BitVec.ofNat 32 (Reg.MAC_CNT 0)), (radioUp), by decide +kernel⟩

theorem witness_RegisterAccess_lo :
    ∃ (m : Master) (addr : Word) (hi : Nat) (s : State), (wideHi addr.toNat = some hi) ∧ (addr.toNat ≠ Reg.TIME_NOW_LO) ∧ (TakesRead m addr.toNat s) :=
  ⟨(.coreData), (BitVec.ofNat 32 Reg.TIME_CNT_LO), (Reg.TIME_CNT_HI), (State.reset), by decide +kernel⟩

theorem witness_WideWrites_hi :
    ∃ (m : Master) (addr : Word) (s : State), (s.isHeldHi addr.toNat = true) ∧ (Takes m addr.toNat s) ∧ (DictRest s) :=
  ⟨(.coreData), (BitVec.ofNat 32 Reg.TIME_CORR_HI), (State.reset), by decide +kernel⟩

theorem witness_WideWrites_lo :
    ∃ (m : Master) (addr : Word) (s : State), (addr.toNat ∈ [Reg.TIME_CORR_LO, Reg.SYSC_TWAKE_LO, Reg.TBL_KEY_LO] ++ (List.range 7).map Reg.TIME_CTGT_LO ++ (List.range 7).map Reg.TIME_CPER_LO) ∧ (Takes m addr.toNat s) ∧ (DictRest s) :=
  ⟨(.coreData), (BitVec.ofNat 32 Reg.TIME_CORR_LO), (State.reset.setWriteHold .coreData Reg.TIME_CORR_HI 9), by decide +kernel⟩

theorem witness_WideWrites_pair :
    ∃ (m : Master) (n : Fin 8) (k : Fin 3) (addr : Word) (s : State), (addr.toNat = [Reg.TMR_RELOAD, Reg.TMR_CMP0, Reg.TMR_CMP1][k] n) ∧ (s.linked n = true) ∧ (n = pairLo n) ∧ (Takes m addr.toNat s) ∧ (DictRest s) :=
  ⟨(.coreData), (2), (1), (BitVec.ofNat 32 (Reg.TMR_CMP0 2)), ((State.reset.modTm 2 (fun v => { v with link := true })).setWriteHold .coreData (Reg.TMR_CMP0 2) 9), by decide +kernel⟩

theorem witness_WideWrites_twill :
    ∃ (m : Master) (s : State), (s.on TWIL_CFG.EN = false) ∧ (Takes m Reg.TWIL_PAIRADDR_LO s) ∧ (DictRest s) :=
  ⟨(.coreData), ((State.reset.put SYSC_PDSTAT.RING 1).setWriteHold .coreData Reg.TWIL_PAIRADDR_LO 9), by decide +kernel⟩

theorem witness_RefusedAccesses_off :
    ∃ (m : Master) (addr : Word) (size : Size) (write : Bool) (s : State), (s.clocked = true) ∧ (m ≠ .debug) ∧ (busRefusal s ⟨m, addr.toNat, size, write⟩ = some .off) ∧ (s.on BUS_FINFO.VALID = false) :=
  ⟨(.coreData), (0x40012FF0), (.b32), (false), (State.reset), by decide +kernel⟩

theorem witness_RefusedAccesses_decode :
    ∃ (m : Master) (addr : Word) (size : Size) (write : Bool) (s : State), (s.clocked = true) ∧ (busRefusal s ⟨m, addr.toNat, size, write⟩ = some .decode) ∧ (s.on BUS_FINFO.VALID = false) :=
  ⟨(.mac), (0x90000000), (.b64), (true), (State.reset), by decide +kernel⟩

theorem witness_RefusedAccesses_size :
    ∃ (m : Master) (addr : Word) (size : Size) (write : Bool) (s : State), (s.clocked = true) ∧ (busRefusal s ⟨m, addr.toNat, size, write⟩ = some .size) ∧ (s.on BUS_FINFO.VALID = false) :=
  ⟨(.debug), (0x40012FF1), (.b8), (false), (State.reset), by decide +kernel⟩

theorem witness_PinRows_set :
    ∃ (s : State), (Core Reg.GPIO_SET s) :=
  ⟨(State.reset), by decide +kernel⟩

theorem witness_PinRows_clr :
    ∃ (s : State), (Core Reg.GPIO_CLR s) :=
  ⟨(State.reset.setReg Reg.GPIO_OUT 0xFF), by decide +kernel⟩

theorem witness_PinRows_edge :
    ∃ (pin : Fin 24) (level : Bool) (s : State), (s.gpioClocked = true) ∧ (s.bankOn pin = true) ∧ (s.driven pin = none) ∧ (s.pins.pads.getLsbD pin = !level) :=
  ⟨(7), (true), (State.reset.setReg Reg.GPIO_RISE 0x80), by decide +kernel⟩

theorem witness_PinRows_pulse :
    ∃ (l : Fin 24) (n : Fin 8) (s : State), (Core Reg.EVM_SWPULSE s) ∧ (s.evmClocked = true) ∧ (s.get (EVM_SRC.SRC l) = 0x3F) ∧ (s.on (EVM_SRC.INV l) = false) ∧ (s.on (TIME_CAPCFG.EN n) = true) ∧ (s.get (TIME_CAPCFG.SRC n) = 0x10 + l.val) ∧ (s.get (TIME_CAPCFG.EDGE n) = 1) ∧ (s.time.caps[n].length < 4) :=
  ⟨(3), (2), ((((State.reset.put (EVM_SRC.SRC 3) 0x3F).put (TIME_CAPCFG.EN 2) 1).put (TIME_CAPCFG.SRC 2) 0x13).put (TIME_CAPCFG.EDGE 2) 1), by decide +kernel⟩

theorem witness_Resets_brownOut :
    ∃ (s : State), (s.power.st ≠ .off) ∧ (s.power.por = false) :=
  ⟨(State.reset), by decide +kernel⟩

theorem witness_Resets_pin :
    ∃ (s : State), (s.power.st ≠ .off) ∧ (s.power.por = false) :=
  ⟨(State.reset), by decide +kernel⟩

theorem witness_Resets_wdt :
    ∃ (s : State), (s.wdtRuns = true) ∧ (s.power.por = false) :=
  ⟨(State.reset.put WDT_CTRL.EN 1), by decide +kernel⟩

theorem witness_Resets_feed :
    ∃ (data : Word) (s : State), (Core Reg.WDT_FEED s) ∧ (data ≠ 0x5A0F) ∧ (s.power.por = false) :=
  ⟨(1), (State.reset), by decide +kernel⟩

theorem witness_Resets_soft :
    ∃ (s : State), (Core Reg.SYSC_SWRST s) ∧ (s.power.por = false) :=
  ⟨(State.reset), by decide +kernel⟩

theorem witness_Resets_softOther :
    ∃ (key : Word) (s : State), (Core Reg.SYSC_SWRST s) ∧ (key ≠ 0xC35A) :=
  ⟨(1), (State.reset), by decide +kernel⟩

theorem witness_Resets_remote :
    ∃ (s : State), (s.power.remoteIn = some 0) ∧ (s.power.st ≠ .off) ∧ (s.power.por = false) :=
  ⟨({ State.reset with power := { State.reset.power with remoteIn := some 0 } }), by decide +kernel⟩

theorem witness_Resets_alarm :
    ∃ (s : State), (s.on SEC_ALMSTAT.LATCHED = true) ∧ (s.on SEC_ALMCFG.RSTEN = true) ∧ (s.sec.almStored = true) ∧ (s.power.st ≠ .off) ∧ (s.power.por = false) :=
  ⟨({ (State.reset.put SEC_ALMSTAT.LATCHED 1).put SEC_ALMCFG.RSTEN 1 with sec := { almStored := true } }), by decide +kernel⟩

theorem witness_Resets_up :
    ∃ (s : State), (s.power.st = .reset) ∧ (s.power.vbatLow = true) ∧ (s.power.por = true) :=
  ⟨(porReset true (State.reset.modPower (fun p => { p with vbatLow := true }))), by decide +kernel⟩

theorem witness_Resets_release :
    ∃ (s : State), (s.power.st = .reset) ∧ (s.power.vbatLow = false) ∧ (s.power.pinLow = false) :=
  ⟨(resetBy SYSC_RSTCAUSE.SOFT State.reset), by decide +kernel⟩

theorem witness_Resets_xo :
    ∃ (s : State), (s.power.st = .reset) ∧ (s.power.vbatLow = false) ∧ (s.power.pinLow = false) :=
  ⟨(resetBy SYSC_RSTCAUSE.SOFT State.reset), by decide +kernel⟩

theorem witness_FactoryTestStops :
    ∃ s : State, s.power.st = .reset ∧ s.power.vbatLow = false ∧ s.power.pinLow = false :=
  ⟨resetBy SYSC_RSTCAUSE.SOFT State.reset, by decide⟩

theorem witness_SupplyAndClockRows_xoFail :
    ∃ (s : State), (s.power.st = .run ∨ s.power.st = .idle) ∧ (s.power.xoDead = false) ∧ (s.on SYSC_LPSTAT.PLLRUN = true) :=
  ⟨(radioUp), by decide +kernel⟩

theorem witness_SupplyAndClockRows_bow :
    ∃ (s : State), (s.get SYSC_SUPCFG.BOWLVL ∈ [1, 2, 3, 4, 5]) ∧ (s.power.st = .run) :=
  ⟨(State.reset.put SYSC_SUPCFG.BOWLVL 2), by decide +kernel⟩

theorem witness_SupplyAndClockRows_bowAny :
    ∃ (s : State), (s.get SYSC_SUPCFG.BOWLVL ∈ [1, 2, 3, 4, 5]) ∧ (s.power.st ≠ .off ∧ s.power.st ≠ .reset) :=
  ⟨((State.reset.put SYSC_SUPCFG.BOWLVL 2).modPower (fun p => { p with st := .sleep })), by decide +kernel⟩

theorem witness_SupplyAndClockRows_wdtCtrl :
    ∃ (s : State), (Core Reg.WDT_CTRL s) ∧ (s.on WDT_CTRL.EN = false) :=
  ⟨(State.reset), by decide +kernel⟩

theorem witness_SupplyAndClockRows_wdtLocked :
    ∃ (s : State), (Core Reg.WDT_CTRL s) ∧ (s.on WDT_CTRL.EN = true) :=
  ⟨(State.reset.put WDT_CTRL.EN 1), by decide +kernel⟩

theorem witness_SupplyAndClockRows_wdtFeed :
    ∃ (s : State), (Core Reg.WDT_FEED s) :=
  ⟨(State.reset), by decide +kernel⟩

theorem witness_SupplyAndClockRows_gate :
    ∃ (s : State), (Core Reg.SYSC_CLKGATE s) ∧ (s.on SYSC_CLKGATE.EVR = true) ∧ (s.on SYSC_CLKGATE.SEC = true) :=
  ⟨(State.reset), by decide +kernel⟩

theorem witness_SupplyAndClockRows_gateAny :
    ∃ (s : State), (Core Reg.SYSC_CLKGATE s) :=
  ⟨(State.reset), by decide +kernel⟩

theorem witness_SupplyAndClockRows_feedWrong :
    ∃ (data : Word) (s : State), (Core Reg.WDT_FEED s) ∧ (data ≠ 0x5A0F) ∧ (s.power.por = false) :=
  ⟨(3), (State.reset), by decide +kernel⟩

theorem witness_DomainRows_enable :
    ∃ (d : PDom) (s : State), (Core Reg.SYSC_PDCTL s) ∧ (d = .msu ∨ (s.on SYSC_CLKSTAT.XOFAIL = false ∧ s.on SYSC_LPSTAT.PLLRUN = true)) ∧ (s.on (pdstat d) = false) :=
  ⟨(.ring), (State.reset), by decide +kernel⟩

theorem witness_DomainRows_enableRadio :
    ∃ (s : State), (Core Reg.SYSC_PDCTL s) ∧ (s.on SYSC_CLKSTAT.XOFAIL = false) ∧ (s.on SYSC_LPSTAT.PLLRUN = true) ∧ (s.on SYSC_PDSTAT.RADIO = false) :=
  ⟨(State.reset), by decide +kernel⟩

theorem witness_DomainRows_enableAgain :
    ∃ (d : PDom) (s : State), (Core Reg.SYSC_PDCTL s) ∧ (d = .msu ∨ (s.on SYSC_CLKSTAT.XOFAIL = false ∧ s.on SYSC_LPSTAT.PLLRUN = true)) ∧ (s.on (pdstat d) = true) :=
  ⟨(.msu), (domainOn .msu State.reset), by decide +kernel⟩

theorem witness_DomainRows_held :
    ∃ (d : PDom) (s : State), (Core Reg.SYSC_PDCTL s) ∧ (d ≠ .msu) ∧ (s.on SYSC_CLKSTAT.XOFAIL = false) ∧ (s.on SYSC_LPSTAT.PLLRUN = false) :=
  ⟨(.ring), (State.reset.put SYSC_LPSTAT.PLLRUN 0), by decide +kernel⟩

theorem witness_DomainRows_noXo :
    ∃ (d : PDom) (s : State), (Core Reg.SYSC_PDCTL s) ∧ (d ≠ .msu) ∧ (s.on SYSC_CLKSTAT.XOFAIL = true) :=
  ⟨(.ring), (State.reset.put SYSC_CLKSTAT.XOFAIL 1), by decide +kernel⟩

theorem witness_DomainRows_disable :
    ∃ (s : State), (Core Reg.SYSC_PDCTL s) ∧ (s.radioOn = true) ∧ (s.txBusy = false) :=
  ⟨(radioUp), by decide +kernel⟩

theorem witness_DomainRows_disableLater :
    ∃ (s : State), (Core Reg.SYSC_PDCTL s) ∧ (s.radioOn = true) ∧ (s.txBusy = true) :=
  ⟨(sending .preparing), by decide +kernel⟩

theorem witness_DomainRows_disableOther :
    ∃ (d : PDom) (s : State), (Core Reg.SYSC_PDCTL s) ∧ (d ≠ .radio) ∧ (s.on (pdstat d) = true) :=
  ⟨(.ring), (domainOn .ring State.reset), by decide +kernel⟩

theorem witness_DomainRows_calDone :
    ∃ (s : State), (s.radioOn = true) ∧ (s.power.calRun = true) :=
  ⟨(domainOn .radio State.reset), by decide +kernel⟩

theorem witness_EntryRows_idle :
    ∃ (s : State), (s.power.st = .run) ∧ (Takes .coreData Reg.SYSC_PWRCTL s) :=
  ⟨(State.reset), by decide +kernel⟩

theorem witness_EntryRows_sleep :
    ∃ (s : State), (s.power.st = .run) ∧ (Takes .coreData Reg.SYSC_PWRCTL s) ∧ (s.noWake = false) :=
  ⟨(State.reset.setReg Reg.SYSC_WAKEEN 1), by decide +kernel⟩

theorem witness_EntryRows_deep :
    ∃ (s : State), (s.power.st = .run) ∧ (Takes .coreData Reg.SYSC_PWRCTL s) ∧ (s.noWake = false) :=
  ⟨(State.reset.setReg Reg.SYSC_WAKEEN 1), by decide +kernel⟩

theorem witness_EntryRows_off :
    ∃ (s : State), (s.power.st = .run) ∧ (Takes .coreData Reg.SYSC_PWRCTL s) :=
  ⟨(State.reset), by decide +kernel⟩

theorem witness_EntryRows_noWakeSleep :
    ∃ (s : State), (s.power.st = .run) ∧ (Takes .coreData Reg.SYSC_PWRCTL s) ∧ (s.noWake = true) :=
  ⟨(State.reset.setReg Reg.SYSC_WAKEEN 0), by decide +kernel⟩

theorem witness_EntryRows_noWakeDeep :
    ∃ (s : State), (s.power.st = .run) ∧ (Takes .coreData Reg.SYSC_PWRCTL s) ∧ (s.noWake = true) :=
  ⟨(State.reset.setReg Reg.SYSC_WAKEEN 0), by decide +kernel⟩

theorem witness_EntryRows_drainEnd :
    ∃ (low : LowState) (s : State), (s.power.st = .draining low) ∧ (s.drained = true) :=
  ⟨(.sleep), ({ State.reset with power := { State.reset.power with st := .draining .sleep } }), by decide +kernel⟩

theorem witness_EntryRows_drainEndFrame :
    ∃ (low : LowState) (s : State), (s.power.st = .draining low) ∧ (s.drained = true) :=
  ⟨(.sleep), ({ State.reset with power := { State.reset.power with st := .draining .sleep } }), by decide +kernel⟩

theorem witness_EntryRows_drainWait :
    ∃ (s : State), (s.drained = false) :=
  ⟨({ sending .preparing with power := { radioUp.power with st := .draining .sleep } }), by decide +kernel⟩

theorem witness_EntryRows_sleepReached :
    ∃ (s : State), (s.power.st = .saving .sleep) ∧ (s.power.entryWake = 0) ∧ (s.wakeEnabled .gpio = true → s.pinsMoved = 0) ∧ (s.mac.handPend = false) :=
  ⟨({ State.reset with power := { State.reset.power with st := .saving .sleep } }), by decide +kernel⟩

theorem witness_EntryRows_sleepAny :
    ∃ (s : State), (s.power.st = .saving .sleep) :=
  ⟨({ State.reset with power := { State.reset.power with st := .saving .sleep, entryWake := 1 } }), by decide +kernel⟩

theorem witness_EntryRows_deepReached :
    ∃ (s : State), (s.power.st = .saving .deepSleep) ∧ (s.power.entryWake = 0) ∧ (s.wakeEnabled .gpio = false) ∧ (s.mac.handPend = false) ∧ (NvmRest s) :=
  ⟨({ State.reset with power := { State.reset.power with st := .saving .deepSleep } }), by decide +kernel⟩

theorem witness_EntryRows_deepAny :
    ∃ (s : State), (s.power.st = .saving .deepSleep) :=
  ⟨({ State.reset with power := { State.reset.power with st := .saving .deepSleep, entryWake := 1 } }), by decide +kernel⟩

theorem witness_EntryRows_offReached :
    ∃ (s : State), (s.power.st = .saving .off) :=
  ⟨({ State.reset with power := { State.reset.power with st := .saving .off } }), by decide +kernel⟩

theorem witness_EntryRows_offWake :
    ∃ (s : State), (s.power.st = .saving .off) :=
  ⟨({ State.reset with power := { State.reset.power with st := .saving .off } }), by decide +kernel⟩

theorem witness_WakeRows_idle :
    ∃ (s : State), (s.power.st = .idle) ∧ (s.anyEnabledLine = true) :=
  ⟨({ ((State.reset.put SYSC_IRQ.TICK 1).put SYSC_IRQEN.TICK 1).setReg (Reg.INTC_EN 0) 1 with power := { State.reset.power with st := .idle } }), by decide +kernel⟩

theorem witness_WakeRows_source :
    ∃ (src : WakeSrc) (low : LowState) (s : State), (src = .gpio → s.pinsMoved ≠ 0) ∧ ((low = .sleep ∧ s.power.st = .sleep) ∨ (low = .deepSleep ∧ s.power.st = .deepSleep)) ∧ (s.wakeEnabled src = true) :=
  ⟨(.gpio), (.deepSleep), ({ (State.reset.setReg Reg.SYSC_WAKEEN 4).setReg Reg.SYSC_GPWAKE 1 with pins := { State.reset.pins with pads := 1, ext := 1 }, power := { State.reset.power with st := .deepSleep } }), by decide +kernel⟩

theorem witness_WakeRows_sourceOff :
    ∃ (src : WakeSrc) (s : State), (s.wakeEnabled src = false) :=
  ⟨(.hsCs), ({ State.reset with power := { State.reset.power with st := .sleep } }), by decide +kernel⟩

theorem witness_WakeRows_pinStill :
    ∃ (s : State), (s.pinsMoved = 0) :=
  ⟨({ State.reset.setReg Reg.SYSC_WAKEEN 4 with power := { State.reset.power with st := .sleep } }), by decide +kernel⟩

theorem witness_WakeRows_timed :
    ∃ (low : LowState) (s : State), ((low = .sleep ∧ s.power.st = .sleep) ∨ (low = .deepSleep ∧ s.power.st = .deepSleep)) ∧ (s.twakeDue = true) ∧ (s.wakeEnabled .tWake = true) :=
  ⟨(.sleep), ({ State.reset.setReg Reg.SYSC_WAKEEN 0x20 with power := { State.reset.power with st := .sleep } }), by decide +kernel⟩

theorem witness_WakeRows_core :
    ∃ (s : State), (s.power.st = .waking .sleep) :=
  ⟨({ State.reset with power := { State.reset.power with st := .waking .sleep } }), by decide +kernel⟩

theorem witness_WakeRows_lock :
    ∃ (s : State), (s.power.st = .run ∨ s.power.st = .idle) ∧ (s.power.xoDead = false) ∧ (s.on SYSC_LPSTAT.PLLRUN = false) :=
  ⟨(State.reset.put SYSC_LPSTAT.PLLRUN 0), by decide +kernel⟩

theorem witness_WakeRows_lockDeep :
    ∃ (s : State), (s.power.st = .waking .deepSleep) ∧ (s.power.xoDead = false) ∧ (s.on SYSC_LPSTAT.PLLRUN = false) :=
  ⟨({ State.reset.put SYSC_LPSTAT.PLLRUN 0 with power := { State.reset.power with st := .waking .deepSleep } }), by decide +kernel⟩

theorem witness_WakeRows_lockDead :
    ∃ (s : State), (s.power.xoDead = true) :=
  ⟨({ State.reset.put SYSC_LPSTAT.PLLRUN 0 with power := { State.reset.power with st := .run, xoDead := true } }), by decide +kernel⟩

theorem witness_WakeRows_resume :
    ∃ (s : State), (s.power.st = .waking .deepSleep) ∧ (s.on SYSC_LPSTAT.PLLRUN = true) ∧ (s.power.xoDead = false) ∧ (regionOf (s.reg Reg.SYSC_RESUMEVEC).toNat ∈ [Region.nvm, .xip, .retention]) :=
  ⟨({ State.reset.setReg Reg.SYSC_RESUMEVEC 0x08001000 with power := { State.reset.power with st := .waking .deepSleep } }), by decide +kernel⟩

theorem witness_WakeRows_resumeBoot :
    ∃ (s : State), (s.power.st = .waking .deepSleep) ∧ (s.on SYSC_LPSTAT.PLLRUN = true) ∧ (s.power.xoDead = false) ∧ (regionOf (s.reg Reg.SYSC_RESUMEVEC).toNat ∉ [Region.nvm, .xip, .retention]) :=
  ⟨({ State.reset.setReg Reg.SYSC_RESUMEVEC 0x20020000 with power := { State.reset.power with st := .waking .deepSleep } }), by decide +kernel⟩

theorem witness_WakeRows_wakePin :
    ∃ (s : State), (s.power.st = .off) :=
  ⟨({ State.reset with power := { State.reset.power with st := .off, por := true } }), by decide +kernel⟩

theorem witness_RegisterArithmetic_core : Ready 1 .core coreAt := by
  refine ⟨rfl, rfl, ?_, ?_⟩ <;> decide

theorem witness_RegisterArithmetic_two : Ready 2 .core coreAt ∧ (1 : BitVec 5) ≠ 2 := by
  refine ⟨⟨rfl, rfl, ?_, ?_⟩, ?_⟩ <;> decide

theorem witness_RegisterArithmetic_weft : Ready 1 (.weft 3) weftAt := by
  refine ⟨rfl, rfl, ?_, ?_⟩ <;> decide

theorem witness_CompareAndSelect_core : Ready 1 .core coreAt := by
  refine ⟨rfl, rfl, ?_, ?_⟩ <;> decide

theorem witness_CompareAndSelect_weft : Ready 1 (.weft 3) weftAt := by
  refine ⟨rfl, rfl, ?_, ?_⟩ <;> decide

theorem witness_ImmediateRows_core : Ready 1 .core coreAt := by
  refine ⟨rfl, rfl, ?_, ?_⟩ <;> decide

theorem witness_ImmediateRows_weft : Ready 1 (.weft 3) weftAt := by
  refine ⟨rfl, rfl, ?_, ?_⟩ <;> decide

theorem witness_ImmediateRows_two : Ready 2 .core coreAt := by
  refine ⟨rfl, rfl, ?_, ?_⟩ <;> decide

theorem witness_MultiplyAndDivide_core : Ready 1 .core coreAt := by
  refine ⟨rfl, rfl, ?_, ?_⟩ <;> decide

theorem witness_MultiplyAndDivide_weft : Ready 1 (.weft 3) weftAt := by
  refine ⟨rfl, rfl, ?_, ?_⟩ <;> decide

theorem witness_WeftComplex_weft : Ready 1 (.weft 3) weftAt := by
  refine ⟨rfl, rfl, ?_, ?_⟩ <;> decide

theorem witness_BranchesAndRepeats_core : Ready 1 .core coreAt := by
  refine ⟨rfl, rfl, ?_, ?_⟩ <;> decide

theorem witness_BranchesAndRepeats_weft : Ready 1 (.weft 3) weftAt := by
  refine ⟨rfl, rfl, ?_, ?_⟩ <;> decide

theorem witness_BranchesAndRepeats_aligned : (gr .core coreAt 5).toNat % 4 = 0 := by decide

theorem witness_BranchesAndRepeats_odd :
    let s := coreAt.modCpu (fun c => c.put 5 0x20001002)
    Ready 1 .core s ∧ s.core.exl = false ∧ (gr .core s 5).toNat % 4 ≠ 0 := by
  refine ⟨⟨rfl, rfl, ?_, ?_⟩, ?_, ?_⟩ <;> decide

theorem witness_LoadRows_core : Ready 1 .core coreAt := by
  refine ⟨rfl, rfl, ?_, ?_⟩ <;> decide

theorem witness_LoadRows_weft : Ready 1 (.weft 3) weftAt := by
  refine ⟨rfl, rfl, ?_, ?_⟩ <;> decide

theorem witness_LoadRows_data : CoreData (gr .core coreAt 5) 4 coreAt ∧ CoreData (gr .core coreAt 5 + 4) 4 coreAt := by
  refine ⟨⟨?_, ?_, ?_⟩, ?_, ?_, ?_⟩ <;> decide

theorem witness_LoadRows_weftData : WeftData (gr (.weft 3) weftAt 5) 4 ∧ WeftData (gr (.weft 3) weftAt 5 + 4) 4 ∧
    WeftData 0x1FFC 4 ∧ WeftData 0x200FFFFC 4 := by
  refine ⟨⟨?_, ?_⟩, ⟨?_, ?_⟩, ⟨?_, ?_⟩, ?_, ?_⟩ <;> decide

theorem witness_StoreRows_core : Ready 1 .core coreAt := by
  refine ⟨rfl, rfl, ?_, ?_⟩ <;> decide

theorem witness_StoreRows_weft : Ready 1 (.weft 3) weftAt := by
  refine ⟨rfl, rfl, ?_, ?_⟩ <;> decide

theorem witness_StoreRows_rest : DictRest coreAt := by decide

theorem witness_SystemSyllables_machine : Ready 1 .core coreAt ∧ coreAt.core.exl = false ∧ Safety.Machine coreAt ∧
    coreAt.core.storeBus = false := by
  refine ⟨⟨rfl, rfl, ?_, ?_⟩, ?_, ?_, ?_⟩ <;> decide

theorem witness_SystemSyllables_weft : Ready 1 (.weft 3) weftAt := by
  refine ⟨rfl, rfl, ?_, ?_⟩ <;> decide

theorem witness_SystemSyllables_user : Ready 1 .core userAt ∧ userAt.core.um = true ∧ userAt.core.exl = false := by
  refine ⟨⟨rfl, rfl, ?_, ?_⟩, ?_, ?_⟩ <;> decide

theorem witness_CoreBoundary_interrupt :
    ∃ (n : Nat) (s : State), (s.atBoundary = true) ∧ (s.core.ie = true) ∧ (s.core.exl = false) ∧ (s.core.cpu.rep = none) ∧ (s.lineToTake s.core.thr = some n) :=
  ⟨(56), ((swLineWrite 1 0 ((State.reset.setReg (Reg.INTC_EN 1) 0x1000000).setReg (Reg.INTC_PRIO 7) 3)).modCore (fun c => { c with status := 1 })), by decide +kernel⟩

theorem witness_CoreBoundary_interruptRepeat :
    ∃ (n : Nat) (s : State), (s.atBoundary = true) ∧ (s.core.ie = true) ∧ (s.core.exl = false) ∧ (s.core.cpu.rep = some ⟨false, none⟩) ∧ (s.lineToTake s.core.thr = some n) :=
  ⟨(56), ((swLineWrite 1 0 ((State.reset.setReg (Reg.INTC_EN 1) 0x1000000).setReg (Reg.INTC_PRIO 7) 3)).modCore (fun c => { c with status := 1, cpu := { c.cpu with rep := some ⟨false, none⟩ } })), by decide +kernel⟩

theorem witness_CoreBoundary_heldOff :
    ∃ (r : Rep) (s : State), (s.core.cpu.rep = some r) ∧ (r.noInt = true ∨ r.before.isSome = true) :=
  ⟨(⟨true, none⟩), ((swLineWrite 1 0 ((State.reset.setReg (Reg.INTC_EN 1) 0x1000000).setReg (Reg.INTC_PRIO 7) 3)).modCore (fun c => { c with status := 1, cpu := { c.cpu with rep := some ⟨true, none⟩ } })), by decide +kernel⟩

theorem witness_CoreBoundary_storeBus :
    ∃ (s : State), (s.atBoundary = true) ∧ (s.core.storeBus = true) ∧ (s.core.exl = false) ∧ (s.core.cpu.rep = none) :=
  ⟨(State.reset.modCore (fun c => { c with storeBus := true })), by decide +kernel⟩

theorem witness_CoreBoundary_swSet :
    ∃ (s : State), (Core Reg.INTC_SW s) :=
  ⟨(State.reset), by decide +kernel⟩

theorem witness_CoreBoundary_swClr :
    ∃ (s : State), (Core Reg.INTC_SW s) :=
  ⟨(swLineWrite 0xF 0 State.reset), by decide +kernel⟩

theorem witness_WeftDma_laneIn :
    ∃ (n : Fin 32) (j : Job) (len : BitVec 12) (loc : BitVec 13) (remote : Word) (s : State), (Rx s) ∧ (Running n j s) ∧ ((s.eng n).ending = none) ∧ ((s.eng n).dma.length < 4) ∧ (dmaBad j ⟨.laneIn, len.toNat, loc.toNat, remote⟩ = false) :=
  ⟨(3), (⟨0, 0, 0, 0x60000000, 2, 0, 0, .firmware, none, 0⟩), (64), (0x100), (0x00000004), (jobAt), by decide +kernel⟩

theorem witness_WeftDma_laneInOutside :
    ∃ (n : Fin 32) (j : Job) (len : BitVec 12) (loc : BitVec 13) (remote : Word) (s : State), (Rx s) ∧ (Running n j s) ∧ ((s.eng n).ending = none) ∧ (dmaBad j ⟨.laneIn, len.toNat, loc.toNat, remote⟩ = true) :=
  ⟨(3), (⟨0, 0, 0, 0x60000000, 2, 0, 0, .firmware, none, 0⟩), (64), (0x100), (0x04000000), (jobAt), by decide +kernel⟩

theorem witness_WeftDma_laneInFull :
    ∃ (n : Fin 32) (j : Job) (len : BitVec 12) (loc : BitVec 13) (remote : Word) (s : State), (Rx s) ∧ (Running n j s) ∧ ((s.eng n).ending = none) ∧ (4 ≤ (s.eng n).dma.length) ∧ (dmaBad j ⟨.laneIn, len.toNat, loc.toNat, remote⟩ = false) :=
  ⟨(3), (⟨0, 0, 0, 0x60000000, 2, 0, 0, .firmware, none, 0⟩), (64), (0x100), (0x00000004), (jobAt.modEng 3 (fun e => { e with dma := List.replicate 4 ⟨.ctxIn, 64, 0x100, 0⟩ })), by decide +kernel⟩

theorem witness_WeftDma_ctxIn :
    ∃ (n : Fin 32) (j : Job) (len : BitVec 12) (loc : BitVec 13) (remote : Word) (s : State), (Rx s) ∧ (Running n j s) ∧ ((s.eng n).ending = none) ∧ ((s.eng n).dma.length < 4) ∧ (dmaBad j ⟨.ctxIn, len.toNat, loc.toNat, remote⟩ = false) :=
  ⟨(3), (⟨0, 0, 0, 0x60000000, 2, 0, 0, .firmware, none, 0⟩), (64), (0x100), (0), (jobAt), by decide +kernel⟩

theorem witness_WeftDma_ctxInOutside :
    ∃ (n : Fin 32) (j : Job) (len : BitVec 12) (loc : BitVec 13) (remote : Word) (s : State), (Rx s) ∧ (Running n j s) ∧ ((s.eng n).ending = none) ∧ (dmaBad j ⟨.ctxIn, len.toNat, loc.toNat, remote⟩ = true) :=
  ⟨(3), (⟨0, 0, 0, 0x60000000, 2, 0, 0, .firmware, none, 0⟩), (64), (0x100), (0x00000400), (jobAt), by decide +kernel⟩

theorem witness_WeftDma_ctxInFull :
    ∃ (n : Fin 32) (j : Job) (len : BitVec 12) (loc : BitVec 13) (remote : Word) (s : State), (Rx s) ∧ (Running n j s) ∧ ((s.eng n).ending = none) ∧ (4 ≤ (s.eng n).dma.length) ∧ (dmaBad j ⟨.ctxIn, len.toNat, loc.toNat, remote⟩ = false) :=
  ⟨(3), (⟨0, 0, 0, 0x60000000, 2, 0, 0, .firmware, none, 0⟩), (64), (0x100), (0), (jobAt.modEng 3 (fun e => { e with dma := List.replicate 4 ⟨.ctxIn, 64, 0x100, 0⟩ })), by decide +kernel⟩

theorem witness_WeftDma_ctxOut :
    ∃ (n : Fin 32) (j : Job) (len : BitVec 12) (loc : BitVec 13) (remote : Word) (s : State), (Rx s) ∧ (Running n j s) ∧ ((s.eng n).ending = none) ∧ ((s.eng n).dma.length < 4) ∧ (dmaBad j ⟨.ctxOut, len.toNat, loc.toNat, remote⟩ = false) :=
  ⟨(3), (⟨0, 0, 0, 0x60000000, 2, 0, 0, .firmware, none, 0⟩), (64), (0x100), (0), (jobAt), by decide +kernel⟩

theorem witness_WeftDma_ctxOutOutside :
    ∃ (n : Fin 32) (j : Job) (len : BitVec 12) (loc : BitVec 13) (remote : Word) (s : State), (Rx s) ∧ (Running n j s) ∧ ((s.eng n).ending = none) ∧ (dmaBad j ⟨.ctxOut, len.toNat, loc.toNat, remote⟩ = true) :=
  ⟨(3), (⟨0, 0, 0, 0x60000000, 2, 0, 0, .firmware, none, 0⟩), (64), (0x100), (0x00000400), (jobAt), by decide +kernel⟩

theorem witness_WeftDma_ctxOutFull :
    ∃ (n : Fin 32) (j : Job) (len : BitVec 12) (loc : BitVec 13) (remote : Word) (s : State), (Rx s) ∧ (Running n j s) ∧ ((s.eng n).ending = none) ∧ (4 ≤ (s.eng n).dma.length) ∧ (dmaBad j ⟨.ctxOut, len.toNat, loc.toNat, remote⟩ = false) :=
  ⟨(3), (⟨0, 0, 0, 0x60000000, 2, 0, 0, .firmware, none, 0⟩), (64), (0x100), (0), (jobAt.modEng 3 (fun e => { e with dma := List.replicate 4 ⟨.ctxIn, 64, 0x100, 0⟩ })), by decide +kernel⟩

theorem witness_WeftDma_sramIn :
    ∃ (n : Fin 32) (j : Job) (len : BitVec 12) (loc : BitVec 13) (remote : Word) (s : State), (Rx s) ∧ (Running n j s) ∧ ((s.eng n).ending = none) ∧ ((s.eng n).dma.length < 4) ∧ (dmaBad j ⟨.sramIn, len.toNat, loc.toNat, remote⟩ = false) :=
  ⟨(3), (⟨0, 0, 0, 0x60000000, 2, 0, 0, .firmware, none, 0⟩), (64), (0x100), (0x20000000), (jobAt), by decide +kernel⟩

theorem witness_WeftDma_sramInOutside :
    ∃ (n : Fin 32) (j : Job) (len : BitVec 12) (loc : BitVec 13) (remote : Word) (s : State), (Rx s) ∧ (Running n j s) ∧ ((s.eng n).ending = none) ∧ (dmaBad j ⟨.sramIn, len.toNat, loc.toNat, remote⟩ = true) :=
  ⟨(3), (⟨0, 0, 0, 0x60000000, 2, 0, 0, .firmware, none, 0⟩), (64), (0x100), (0x1FFFFFFC), (jobAt), by decide +kernel⟩

theorem witness_WeftDma_sramInFull :
    ∃ (n : Fin 32) (j : Job) (len : BitVec 12) (loc : BitVec 13) (remote : Word) (s : State), (Rx s) ∧ (Running n j s) ∧ ((s.eng n).ending = none) ∧ (4 ≤ (s.eng n).dma.length) ∧ (dmaBad j ⟨.sramIn, len.toNat, loc.toNat, remote⟩ = false) :=
  ⟨(3), (⟨0, 0, 0, 0x60000000, 2, 0, 0, .firmware, none, 0⟩), (64), (0x100), (0x20000000), (jobAt.modEng 3 (fun e => { e with dma := List.replicate 4 ⟨.ctxIn, 64, 0x100, 0⟩ })), by decide +kernel⟩

theorem witness_WeftDma_sramOut :
    ∃ (n : Fin 32) (j : Job) (len : BitVec 12) (loc : BitVec 13) (remote : Word) (s : State), (Rx s) ∧ (Running n j s) ∧ ((s.eng n).ending = none) ∧ ((s.eng n).dma.length < 4) ∧ (dmaBad j ⟨.sramOut, len.toNat, loc.toNat, remote⟩ = false) :=
  ⟨(3), (⟨0, 0, 0, 0x60000000, 2, 0, 0, .firmware, none, 0⟩), (64), (0x100), (0x20000000), (jobAt), by decide +kernel⟩

theorem witness_WeftDma_sramOutOutside :
    ∃ (n : Fin 32) (j : Job) (len : BitVec 12) (loc : BitVec 13) (remote : Word) (s : State), (Rx s) ∧ (Running n j s) ∧ ((s.eng n).ending = none) ∧ (dmaBad j ⟨.sramOut, len.toNat, loc.toNat, remote⟩ = true) :=
  ⟨(3), (⟨0, 0, 0, 0x60000000, 2, 0, 0, .firmware, none, 0⟩), (64), (0x100), (0x1FFFFFFC), (jobAt), by decide +kernel⟩

theorem witness_WeftDma_sramOutFull :
    ∃ (n : Fin 32) (j : Job) (len : BitVec 12) (loc : BitVec 13) (remote : Word) (s : State), (Rx s) ∧ (Running n j s) ∧ ((s.eng n).ending = none) ∧ (4 ≤ (s.eng n).dma.length) ∧ (dmaBad j ⟨.sramOut, len.toNat, loc.toNat, remote⟩ = false) :=
  ⟨(3), (⟨0, 0, 0, 0x60000000, 2, 0, 0, .firmware, none, 0⟩), (64), (0x100), (0x20000000), (jobAt.modEng 3 (fun e => { e with dma := List.replicate 4 ⟨.ctxIn, 64, 0x100, 0⟩ })), by decide +kernel⟩

theorem witness_WeftDma_macOut :
    ∃ (n : Fin 32) (j : Job) (len : BitVec 12) (loc : BitVec 13) (remote : Word) (s : State), (Rx s) ∧ (Running n j s) ∧ ((s.eng n).ending = none) ∧ ((s.eng n).dma.length < 4) ∧ (dmaBad j ⟨.macOut, len.toNat, loc.toNat, remote⟩ = false) :=
  ⟨(3), (⟨0, 0, 0, 0x60000000, 2, 0, 0, .firmware, none, 0⟩), (64), (0x100), (0), (jobAt), by decide +kernel⟩

theorem witness_WeftDma_macOutOutside :
    ∃ (n : Fin 32) (j : Job) (len : BitVec 12) (loc : BitVec 13) (remote : Word) (s : State), (Rx s) ∧ (Running n j s) ∧ ((s.eng n).ending = none) ∧ (dmaBad j ⟨.macOut, len.toNat, loc.toNat, remote⟩ = true) :=
  ⟨(3), (⟨0, 0, 0, 0x60000000, 2, 0, 0, .firmware, none, 0⟩), (64), (0x100), (4), (jobAt), by decide +kernel⟩

theorem witness_WeftDma_macOutFull :
    ∃ (n : Fin 32) (j : Job) (len : BitVec 12) (loc : BitVec 13) (remote : Word) (s : State), (Rx s) ∧ (Running n j s) ∧ ((s.eng n).ending = none) ∧ (4 ≤ (s.eng n).dma.length) ∧ (dmaBad j ⟨.macOut, len.toNat, loc.toNat, remote⟩ = false) :=
  ⟨(3), (⟨0, 0, 0, 0x60000000, 2, 0, 0, .firmware, none, 0⟩), (64), (0x100), (0), (jobAt.modEng 3 (fun e => { e with dma := List.replicate 4 ⟨.ctxIn, 64, 0x100, 0⟩ })), by decide +kernel⟩

theorem witness_WeftDma_doneLaneIn :
    ∃ (n : Fin 32) (j : Job) (c : DmaCmd) (cs : List DmaCmd) (s : State), (Rx s) ∧ (Running n j s) ∧ ((s.eng n).dma = c :: cs) ∧ ((s.eng n).ending = none) ∧ (c.kind = .laneIn) ∧ (dmaBad j c = false) ∧ (sampleBnd j s ≠ s.tick.bnd) :=
  ⟨(3), (⟨0, 0, 0, 0x60000000, 2, 0, 0, .firmware, none, 0⟩), (⟨.laneIn, 64, 0x100, 4⟩), ([]), ({ jobAt.modEng 3 (fun e => { e with dma := [⟨.laneIn, 64, 0x100, 4⟩] }) with tick := { State.reset.tick with bnd := 3 } }), by decide +kernel⟩

theorem witness_WeftDma_waitLaneIn :
    ∃ (n : Fin 32) (j : Job) (c : DmaCmd) (cs : List DmaCmd) (s : State), (Rx s) ∧ (Running n j s) ∧ ((s.eng n).dma = c :: cs) ∧ (c.kind = .laneIn) ∧ (sampleBnd j s = s.tick.bnd) ∧ (s.laneSampleNow < (c.remote.toNat / 2 ^ 16 % 1024 + c.len + 9) / 10 * 10) :=
  ⟨(3), ({ packetJob with endBnd := some 5 }), (⟨.laneIn, 64, 0x100, 4⟩), ([]), ({ (packetAt.modEng 3 (fun e => { e with job := some { packetJob with endBnd := some 5 }, dma := [⟨.laneIn, 64, 0x100, 4⟩] })) with tick := { State.reset.tick with bnd := 3 } }), by decide +kernel⟩

theorem witness_WeftDma_doneCtxIn :
    ∃ (n : Fin 32) (j : Job) (c : DmaCmd) (cs : List DmaCmd) (s : State), (Rx s) ∧ (Running n j s) ∧ ((s.eng n).dma = c :: cs) ∧ ((s.eng n).ending = none) ∧ (c.kind = .ctxIn) :=
  ⟨(3), (⟨0, 0, 0, 0x60000000, 2, 0, 0, .firmware, none, 0⟩), (⟨.ctxIn, 64, 0x100, 0⟩), ([]), (jobAt.modEng 3 (fun e => { e with dma := [⟨.ctxIn, 64, 0x100, 0⟩] })), by decide +kernel⟩

theorem witness_WeftDma_doneCtxOut :
    ∃ (n : Fin 32) (j : Job) (c : DmaCmd) (cs : List DmaCmd) (s : State), (Rx s) ∧ (Running n j s) ∧ ((s.eng n).dma = c :: cs) ∧ ((s.eng n).ending = none) ∧ (c.kind = .ctxOut) :=
  ⟨(3), (⟨0, 0, 0, 0x60000000, 2, 0, 0, .firmware, none, 0⟩), (⟨.ctxOut, 64, 0x100, 0⟩), ([]), (jobAt.modEng 3 (fun e => { e with dma := [⟨.ctxOut, 64, 0x100, 0⟩] })), by decide +kernel⟩

theorem witness_WeftDma_doneSramIn :
    ∃ (n : Fin 32) (j : Job) (c : DmaCmd) (cs : List DmaCmd) (s : State), (Rx s) ∧ (Running n j s) ∧ ((s.eng n).dma = c :: cs) ∧ ((s.eng n).ending = none) ∧ (c.kind = .sramIn) :=
  ⟨(3), (⟨0, 0, 0, 0x60000000, 2, 0, 0, .firmware, none, 0⟩), (⟨.sramIn, 64, 0x100, 0x20000000⟩), ([]), (jobAt.modEng 3 (fun e => { e with dma := [⟨.sramIn, 64, 0x100, 0x20000000⟩] })), by decide +kernel⟩

theorem witness_WeftDma_doneSramOut :
    ∃ (n : Fin 32) (j : Job) (c : DmaCmd) (cs : List DmaCmd) (s : State), (Rx s) ∧ (Running n j s) ∧ ((s.eng n).dma = c :: cs) ∧ ((s.eng n).ending = none) ∧ (c.kind = .sramOut) :=
  ⟨(3), (⟨0, 0, 0, 0x60000000, 2, 0, 0, .firmware, none, 0⟩), (⟨.sramOut, 64, 0x100, 0x20000000⟩), ([]), (jobAt.modEng 3 (fun e => { e with dma := [⟨.sramOut, 64, 0x100, 0x20000000⟩] })), by decide +kernel⟩

theorem witness_WeftDma_doneEnd :
    ∃ (n : Fin 32) (j : Job) (c : DmaCmd) (st : BitVec 8) (s : State), (Rx s) ∧ (Running n j s) ∧ ((s.eng n).dma = [c]) ∧ ((s.eng n).ending = some st) ∧ (c.kind ≠ .laneIn ∨ sampleBnd j s ≠ s.tick.bnd) ∧ (c.kind ≠ .macOut) :=
  ⟨(3), (⟨0, 0, 0, 0x60000000, 2, 0, 0, .firmware, none, 0⟩), (⟨.sramIn, 64, 0x100, 0x20000000⟩), (1), (jobAt.modEng 3 (fun e => { e with dma := [⟨.sramIn, 64, 0x100, 0x20000000⟩], ending := some 1 })), by decide +kernel⟩

theorem witness_WeftDma_wait :
    ∃ (n : Fin 32) (s : State), (Rx s) ∧ ((s.eng n).st = .running) ∧ ((s.eng n).dma = []) :=
  ⟨(3), (jobAt), by decide +kernel⟩

theorem witness_WeftDma_waitBusy :
    ∃ (n : Fin 32) (s : State), ((s.eng n).dma ≠ []) :=
  ⟨(3), (jobAt.modEng 3 (fun e => { e with dma := [⟨.sramIn, 64, 0x100, 0x20000000⟩] })), by decide +kernel⟩

theorem witness_JobEnds_ended :
    ∃ (n : Fin 32) (j : Job) (status : BitVec 8) (s : State), (Rx s) ∧ (Running n j s) ∧ ((s.eng n).ending = none) ∧ ((s.eng n).dma = []) ∧ (status.toNat < 0x80) :=
  ⟨(3), (⟨0, 0, 0, 0x60000000, 2, 0, 0, .firmware, none, 0⟩), (1), (jobAt), by decide +kernel⟩

theorem witness_JobEnds_waiting :
    ∃ (n : Fin 32) (j : Job) (status : BitVec 8) (s : State), (Rx s) ∧ (Running n j s) ∧ ((s.eng n).ending = none) ∧ ((s.eng n).dma ≠ []) ∧ (status.toNat < 0x80) :=
  ⟨(3), (⟨0, 0, 0, 0x60000000, 2, 0, 0, .firmware, none, 0⟩), (1), (jobAt.modEng 3 (fun e => { e with dma := [⟨.sramIn, 64, 0x100, 0x20000000⟩] })), by decide +kernel⟩

theorem witness_JobEnds_endsOnce :
    ∃ (n : Fin 32) (s : State), ((s.eng n).st ≠ .running ∨ (s.eng n).ending.isSome = true) :=
  ⟨(3), (radioUp), by decide +kernel⟩

theorem witness_JobEnds_reserved :
    ∃ (n : Fin 32) (j : Job) (status : BitVec 8) (s : State), (Rx s) ∧ (Running n j s) ∧ ((s.eng n).ending = none) ∧ (0x80 ≤ status.toNat) :=
  ⟨(3), (⟨0, 0, 0, 0x60000000, 2, 0, 0, .firmware, none, 0⟩), (0x80), (jobAt), by decide +kernel⟩

theorem witness_JobEnds_remain :
    ∃ (n : Fin 32) (j : Job) (p : Packet) (s : State), (Rx s) ∧ (Running n j s) ∧ (j.poster = .shuttle) ∧ (s.packetOf j = some p) ∧ (s.packet p.num = some p) ∧ ((s.lane p.lane).pkt = some p.num) ∧ (p.lane < 96) :=
  ⟨(3), (packetJob), (packet5), (packetAt), by decide +kernel⟩

theorem witness_JobEnds_budget :
    ∃ (n : Fin 32) (j : Job) (s : State), (Rx s) ∧ (Running n j s) ∧ ((j.prio == prioLoose) = false) ∧ ((s.eng n).overBudget = false) ∧ (j.budget < s.jobCycles n) :=
  ⟨(3), (⟨0, 0, 0, 0x60000000, 0, 0, 0, .firmware, none, 0⟩), (jobAt.modEng 3 (fun e => { e with job := some ⟨0, 0, 0, 0x60000000, 0, 0, 0, .firmware, none, 0⟩, startAt := 0 })), by decide +kernel⟩

theorem witness_JobEnds_budgetOnce :
    ∃ (n : Fin 32) (s : State), ((s.eng n).overBudget = true) :=
  ⟨(3), (jobAt.modEng 3 (fun e => { e with overBudget := true })), by decide +kernel⟩

theorem witness_JobEnds_underBudget :
    ∃ (n : Fin 32) (j : Job) (s : State), (Running n j s) ∧ (s.jobCycles n < j.budget) :=
  ⟨(3), (⟨0, 0, 0, 0x60000000, 2, 0, 10000, .firmware, none, 0⟩), (jobAt.modEng 3 (fun e => { e with job := some ⟨0, 0, 0, 0x60000000, 2, 0, 10000, .firmware, none, 0⟩ })), by decide +kernel⟩

theorem witness_JobEnds_over :
    ∃ (n : Fin 32) (j : Job) (s : State), (Rx s) ∧ (Running n j s) ∧ (j.prio = prioLoose) ∧ (j.budget ≤ s.jobCycles n) :=
  ⟨(3), (⟨0, 0, 0, 0x60000000, 2, 0, 0, .firmware, none, 0⟩), (jobAt), by decide +kernel⟩

theorem witness_ShuttlePostsAndTakes_post :
    ∃ (m : Master) (w0 : Word) (s : State), (Takes m Reg.SHTL_POST s) ∧ (postResult w0 (s.reg Reg.SHTL_PW3) s = postOk) ∧ (s.jcA (w0.toNat % 32) SHTL_JCA.PRIO = prioLoose) :=
  ⟨(.coreData), (0x00010000), ((radioUp.setReg (Reg.SHTL_JCA_LIVE 0) ((SHTL_JCA.PRIO 0).into ((SHTL_JCA.EN 0).into 0 1) 2)).setReg Reg.SHTL_PW3 0xFF000000), by decide +kernel⟩

theorem witness_ShuttlePostsAndTakes_postSlack :
    ∃ (m : Master) (w0 : Word) (s : State), (Takes m Reg.SHTL_POST s) ∧ (postResult w0 (s.reg Reg.SHTL_PW3) s = postOk) ∧ (s.jcA (w0.toNat % 32) SHTL_JCA.PRIO = prioSlack) :=
  ⟨(.coreData), (0x00010000), ((radioUp.setReg (Reg.SHTL_JCA_LIVE 0) ((SHTL_JCA.PRIO 0).into ((SHTL_JCA.EN 0).into 0 1) 1)).setReg Reg.SHTL_PW3 0xFF000000), by decide +kernel⟩

theorem witness_ShuttlePostsAndTakes_postRefused :
    ∃ (m : Master) (w0 : Word) (s : State), (Takes m Reg.SHTL_POST s) ∧ (postResult w0 (s.reg Reg.SHTL_PW3) s = postClass ∨ postResult w0 (s.reg Reg.SHTL_PW3) s = postCtx) :=
  ⟨(.coreData), (0x00010000), (radioUp), by decide +kernel⟩

theorem witness_ShuttlePostsAndTakes_full :
    ∃ (m : Master) (w0 : Word) (s : State), (Takes m Reg.SHTL_POST s) ∧ (postResult w0 (s.reg Reg.SHTL_PW3) s = postFull) :=
  ⟨(.coreData), (0x00010000), ({ ((radioUp.setReg (Reg.SHTL_JCA_LIVE 0) ((SHTL_JCA.PRIO 0).into ((SHTL_JCA.EN 0).into 0 1) 2)).setReg Reg.SHTL_PW3 0xFF000000) with shtl := { loose := List.replicate 64 packetJob } }), by decide +kernel⟩

theorem witness_ShuttlePostsAndTakes_dispatch :
    ∃ (n : Fin 32) (j : Job) (js : List Job) (s : State), (Rx s) ∧ (s.takes n = true) ∧ ((s.eng n).deque = j :: js) :=
  ⟨(3), (packetJob), ([]), ((radioUp.setReg Reg.SHTL_ENGCFG_LIVE 32).modEng 3 (fun e => { e with deque := [packetJob] })), by decide +kernel⟩

theorem witness_ShuttlePostsAndTakes_dispatchAmong :
    ∃ (n : Fin 32) (who : BitVec 32) (j : Job) (js : List Job) (s : State), (Rx s) ∧ (who.getLsbD n.val = true) ∧ (s.takes n = true) ∧ ((s.eng n).deque = j :: js) :=
  ⟨(3), (0xF8), (packetJob), ([packetJob]), ((radioUp.setReg Reg.SHTL_ENGCFG_LIVE 32).modEng 3 (fun e => { e with deque := [packetJob, packetJob] })), by decide +kernel⟩

theorem witness_ShuttlePostsAndTakes_steal :
    ∃ (n : Fin 32) (v : Fin 32) (j : Job) (s : State), (Rx s) ∧ (s.takes n = true) ∧ ((s.eng n).deque = []) ∧ (s.shtl.scanLen = []) ∧ (stealFrom s.dequeLens s n = some v) ∧ ((s.eng v).deque.getLast? = some j) :=
  ⟨(3), (9), (packetJob), ((radioUp.setReg Reg.SHTL_ENGCFG_LIVE 32).modEng 9 (fun e => { e with deque := [packetJob] })), by decide +kernel⟩

theorem witness_ShuttlePostsAndTakes_takeSlack :
    ∃ (n : Fin 32) (j : Job) (js : List Job) (s : State), (Rx s) ∧ (s.takes n = true) ∧ (s.shtl.eng.toList.all (fun e => e.deque.isEmpty) = true) ∧ (s.shtl.slack = j :: js) :=
  ⟨(3), (packetJob), ([]), ({ (radioUp.setReg Reg.SHTL_ENGCFG_LIVE 32) with shtl := { slack := [packetJob] } }), by decide +kernel⟩

theorem witness_ShuttlePostsAndTakes_takeLoose :
    ∃ (n : Fin 32) (j : Job) (js : List Job) (s : State), (Rx s) ∧ (s.takes n = true) ∧ (s.shtl.eng.toList.all (fun e => e.deque.isEmpty) = true) ∧ (s.shtl.slack = []) ∧ (s.shtl.loose = j :: js) :=
  ⟨(3), (packetJob), ([]), ({ (radioUp.setReg Reg.SHTL_ENGCFG_LIVE 32) with shtl := { loose := [packetJob] } }), by decide +kernel⟩

theorem witness_ShuttlePostsAndTakes_dispatchHalted :
    ∃ (s : State), (Rx s) ∧ (s.on SHTL_CTRL.HALT = true) :=
  ⟨(radioUp.put SHTL_CTRL.HALT 1), by decide +kernel⟩

theorem witness_ShuttlePostsAndTakes_halt :
    ∃ (s : State), (Core Reg.SHTL_CTRL s) :=
  ⟨(radioUp), by decide +kernel⟩

theorem witness_ShuttlePostsAndTakes_unhalt :
    ∃ (s : State), (Core Reg.SHTL_CTRL s) :=
  ⟨(radioUp.put SHTL_CTRL.HALT 1), by decide +kernel⟩

theorem witness_ShuttlePostsAndTakes_resume :
    ∃ (n : Fin 32) (s : State), (Core (Reg.WEFT_STAT n.val) s) ∧ ((s.eng n).st = .faulted) :=
  ⟨(3), (radioUp.modEng 3 (fun e => { e with st := .faulted })), by decide +kernel⟩

theorem witness_ShuttlePostsAndTakes_tail :
    ∃ (l : Fin 96) (p : Packet) (n : Fin 32) (s : State), (Rx s) ∧ (s.loom.packets.filter (fun p => p.lane == l.val) = [p]) ∧ (tailDue s p = true) ∧ (s.on SHTL_CTRL.HALT = false) ∧ (s.engCount ≤ 32) ∧ (n.val < s.engCount) ∧ ((s.eng n).st ≠ .faulted) ∧ ((s.eng n).deque.length < 8) :=
  ⟨(5), (packetTail), (3), (tailAt), by decide +kernel⟩

theorem witness_ShuttlePostsAndTakes_packetEnd :
    ∃ (l : Fin 96) (p : Packet) (s : State), (Rx s) ∧ (((s.lane l.val).pkt).bind s.packet = some p) ∧ (s.samplesEnded p = true) :=
  ⟨(5), (packetTail), (tailAt.modLane 5 (fun l => { l with pkt := some 7 })), by decide +kernel⟩

theorem witness_FrontEndRows_span :
    ∃ (d : Word) (s : State), (Core Reg.RFRX_SPAN s) ∧ (RFRX_SPAN.CENTRE.of d ≤ 2100) ∧ (RFRX_SPAN.CENTRE.of d ≠ s.get RFRX_SPAN.LIVE) :=
  ⟨(100), (radioUp), by decide +kernel⟩

theorem witness_FrontEndRows_spanBack :
    ∃ (d : Word) (s : State), (Core Reg.RFRX_SPAN s) ∧ (RFRX_SPAN.CENTRE.of d ≤ 2100) ∧ (RFRX_SPAN.CENTRE.of d = s.get RFRX_SPAN.LIVE) ∧ (s.on RFRX_SPAN.PEND = true) :=
  ⟨(0), ((radioUp.put RFRX_SPAN.LIVE 0).put RFRX_SPAN.PEND 1), by decide +kernel⟩

theorem witness_FrontEndRows_badSpan :
    ∃ (d : Word) (s : State), (Core Reg.RFRX_SPAN s) ∧ (2100 < RFRX_SPAN.CENTRE.of d) :=
  ⟨(2101), (radioUp), by decide +kernel⟩

theorem witness_FrontEndRows_retune :
    ∃ (s : State), (Rx s) ∧ (s.on RFRX_SPAN.PEND = true) ∧ (s.rfrx.retuneAt + us 50 ≤ s.now) :=
  ⟨({ packetAt.put RFRX_SPAN.PEND 1 with now := 30000 }), by decide +kernel⟩

theorem witness_FrontEndRows_retuneEarly :
    ∃ (s : State), (s.on RFRX_SPAN.PEND = false ∨ s.now < s.rfrx.retuneAt + us 50) :=
  ⟨(packetAt), by decide +kernel⟩

theorem witness_FrontEndRows_gain :
    ∃ (d : Word) (s : State), (Core Reg.RFRX_GAIN s) ∧ (RFRX_GAIN.MINCODE.of d ≤ RFRX_GAIN.MAXCODE.of d) ∧ (RFRX_GAIN.MAXCODE.of d ≤ 8) :=
  ⟨(RFRX_GAIN.MAXCODE.into (RFRX_GAIN.MINCODE.into 0 2) 8), (radioUp), by decide +kernel⟩

theorem witness_FrontEndRows_badGain :
    ∃ (d : Word) (s : State), (Core Reg.RFRX_GAIN s) ∧ (RFRX_GAIN.MAXCODE.of d < RFRX_GAIN.MINCODE.of d ∨ 8 < RFRX_GAIN.MAXCODE.of d) :=
  ⟨(RFRX_GAIN.MAXCODE.into (RFRX_GAIN.MINCODE.into 0 3) 2), (radioUp), by decide +kernel⟩

theorem witness_FrontEndRows_clip :
    ∃ (clip : BitVec 64) (lo : Nat) (hi : Nat) (s : State), (Rx s) ∧ (s.loom.running = true) ∧ (s.blanked = false) ∧ (s.loom.clipWin = none) ∧ (((List.range 64).filter (fun i => clip.getLsbD i)).head? = some lo) ∧ (((List.range 64).filter (fun i => clip.getLsbD i)).getLast? = some hi) ∧ (s.nclip ≤ ((List.range 64).filter (fun i => clip.getLsbD i)).length) :=
  ⟨(0x3F00000000000000), (56), (61), ((loomUp.put RFRX_CLIP.NCLIP 4).put RFRX_GAIN.MINCODE 2), by decide +kernel⟩

theorem witness_FrontEndRows_clipFew :
    ∃ (clip : BitVec 64) (s : State), (s.loom.clipWin = none) ∧ (((List.range 64).filter (fun i => clip.getLsbD i)).length < s.nclip) :=
  ⟨(0), (loomUp), by decide +kernel⟩

theorem witness_FrontEndRows_clipWithin :
    ∃ (last : Fin 25600) (w : Nat) (s : State), (s.loom.clipWin = some w) ∧ (25600 * s.tick.bnd + last.val < w + 63) :=
  ⟨(655), (600), (loomUp.modLoom (fun l => { l with clipWin := some 600 })), by decide +kernel⟩

theorem witness_FrontEndRows_clipBlanked :
    ∃ (s : State), (s.blanked = true) :=
  ⟨(loomUp.modLoom (fun l => { l with blankTx := true })), by decide +kernel⟩

theorem witness_FrontEndRows_clipStep :
    ∃ (adc : Nat) (s : State), (Rx s) ∧ (s.loom.clipStep = some adc) ∧ (s.gainHeld = false) ∧ (s.get RFRX_GAIN.MINCODE < s.gcode) :=
  ⟨(687), (loomUp.modLoom (fun l => { l with clipStep := some 687 })), by decide +kernel⟩

theorem witness_FrontEndRows_clipStepHeld :
    ∃ (adc : Nat) (s : State), (Rx s) ∧ (s.loom.clipStep = some adc) ∧ (s.gainHeld = true ∨ s.gcode ≤ s.get RFRX_GAIN.MINCODE) :=
  ⟨(687), ((loomUp.put RFRX_GAIN.MINCODE 6).modLoom (fun l => { l with clipStep := some 687 })), by decide +kernel⟩

theorem witness_FrontEndRows_stepHeld :
    ∃ (a : Announce) (s : State), (Rx s) ∧ (s.loom.announce = some a) ∧ (a.atBnd = s.tick.bnd) ∧ (s.gainHeld = true) :=
  ⟨(⟨false, 5, 0, 10⟩), (loomUp.modLoom (fun l => { l with announce := some ⟨false, 5, 0, 10⟩, blankTx := true })), by decide +kernel⟩

theorem witness_FrontEndRows_step :
    ∃ (a : Announce) (s : State), (Rx s) ∧ (s.loom.announce = some a) ∧ (a.atBnd = s.tick.bnd) ∧ (a.code ≤ 8) ∧ (s.gainHeld = false) :=
  ⟨(⟨false, 5, 0, 10⟩), (loomUp.modLoom (fun l => { l with announce := some ⟨false, 5, 0, 10⟩ })), by decide +kernel⟩

theorem witness_FrontEndRows_agc :
    ∃ (l : Fin 96) (s : State), (Rx s) ∧ (s.searching = true) ∧ (s.isChannel l.val = true) ∧ (s.get (LOOM_SENT.STATE l.val) = sentSearch) :=
  ⟨(48), (searchAt), by decide +kernel⟩

theorem witness_FrontEndRows_agcElse :
    ∃ (l : Fin 96) (s : State), (s.get (LOOM_SENT.STATE l.val) ≠ sentSearch) :=
  ⟨(48), (radioUp), by decide +kernel⟩

theorem witness_FrontEndRows_energy :
    ∃ (l : Fin 96) (s : State), (Rx s) ∧ (s.loom.running = true) ∧ (s.inBand l.val = true) ∧ (s.blockBlanked = false) :=
  ⟨(48), (searchAt), by decide +kernel⟩

theorem witness_FrontEndRows_energyBlanked :
    ∃ (s : State), (Rx s) ∧ (s.loom.running = true) ∧ (s.blockBlanked = true) :=
  ⟨(searchAt.modLoom (fun l => { l with blankTx := true })), by decide +kernel⟩

theorem witness_ReceiveCalibration_calReqVco :
    ∃ (s : State), (Core Reg.RFRX_CALREQ s) ∧ (s.on RFRX_CALSTAT.BUSY = false) :=
  ⟨(radioUp), by decide +kernel⟩

theorem witness_ReceiveCalibration_calReqAdc :
    ∃ (s : State), (Core Reg.RFRX_CALREQ s) ∧ (s.on RFRX_CALSTAT.BUSY = false) :=
  ⟨(radioUp), by decide +kernel⟩

theorem witness_ReceiveCalibration_calReqDc :
    ∃ (s : State), (Core Reg.RFRX_CALREQ s) ∧ (s.on RFRX_CALSTAT.BUSY = false) :=
  ⟨(radioUp), by decide +kernel⟩

theorem witness_ReceiveCalibration_calReqIq :
    ∃ (s : State), (Core Reg.RFRX_CALREQ s) ∧ (s.on RFRX_CALSTAT.BUSY = false) :=
  ⟨(radioUp), by decide +kernel⟩

theorem witness_ReceiveCalibration_busyVco :
    ∃ (s : State), (Core Reg.RFRX_CALREQ s) ∧ (s.on RFRX_CALSTAT.BUSY = true) :=
  ⟨(radioUp.put RFRX_CALSTAT.BUSY 1), by decide +kernel⟩

theorem witness_ReceiveCalibration_busyAdc :
    ∃ (s : State), (Core Reg.RFRX_CALREQ s) ∧ (s.on RFRX_CALSTAT.BUSY = true) :=
  ⟨(radioUp.put RFRX_CALSTAT.BUSY 1), by decide +kernel⟩

theorem witness_ReceiveCalibration_busyDc :
    ∃ (s : State), (Core Reg.RFRX_CALREQ s) ∧ (s.on RFRX_CALSTAT.BUSY = true) :=
  ⟨(radioUp.put RFRX_CALSTAT.BUSY 1), by decide +kernel⟩

theorem witness_ReceiveCalibration_busyIq :
    ∃ (s : State), (Core Reg.RFRX_CALREQ s) ∧ (s.on RFRX_CALSTAT.BUSY = true) :=
  ⟨(radioUp.put RFRX_CALSTAT.BUSY 1), by decide +kernel⟩

theorem witness_ReceiveCalibration_start :
    ∃ (s : State), (Rx s) ∧ (s.on RFRX_CALSTAT.WAITING = true) ∧ (s.rfrx.calReqAt + us 50 ≤ s.now) ∧ (s.rfrx.calForce = true ∨ s.calQualifies = true) :=
  ⟨({ calRequest 4 true radioUp with now := 30000 }), by decide +kernel⟩

theorem witness_ReceiveCalibration_startLater :
    ∃ (s : State), (s.on RFRX_CALSTAT.WAITING = false ∨ s.now < s.rfrx.calReqAt + us 50 ∨ (s.rfrx.calForce = false ∧ s.calQualifies = false)) :=
  ⟨(radioUp), by decide +kernel⟩

theorem witness_ReceiveCalibration_limitEarly :
    ∃ (s : State), (s.rfrx.calWaited < s.get RFRX_CALCFG.WAITLIM ∨ s.get RFRX_CALCFG.WAITLIM = 0) :=
  ⟨(radioUp.put RFRX_CALCFG.WAITLIM 0), by decide +kernel⟩

theorem witness_ReceiveCalibration_limit :
    ∃ (s : State), (Rx s) ∧ (s.on RFRX_CALSTAT.WAITING = true) ∧ (s.get RFRX_CALCFG.WAITLIM ≠ 0) ∧ (s.get RFRX_CALCFG.WAITLIM ≤ s.rfrx.calWaited) :=
  ⟨(((calRequest 4 false radioUp).put RFRX_CALCFG.WAITLIM 3).modRx (fun r => { r with calWaited := 3 })), by decide +kernel⟩

theorem witness_ReceiveCalibration_stepDone :
    ∃ (n : Nat) (s : State), (Rx s) ∧ (s.loom.blankTx = false) ∧ (firstStep s.rfrx.calRun = some n) ∧ (s.rfrx.calRun &&& ~~~(1#4 <<< n) ≠ 0) :=
  ⟨(0), (radioUp.modRx (fun r => { r with calRun := 0b0011 })), by decide +kernel⟩

theorem witness_ReceiveCalibration_stepPaused :
    ∃ (s : State), (s.loom.blankTx = true) :=
  ⟨((radioUp.modRx (fun r => { r with calRun := 0b0011 })).modLoom (fun l => { l with blankTx := true })), by decide +kernel⟩

theorem witness_ReceiveCalibration_lastDone :
    ∃ (n : Nat) (s : State), (Rx s) ∧ (s.loom.blankTx = false) ∧ (firstStep s.rfrx.calRun = some n) ∧ (s.rfrx.calRun &&& ~~~(1#4 <<< n) = 0) ∧ (s.tx.job = none) ∧ (s.tx.queue = []) :=
  ⟨(3), ((radioUp.put RFRX_CALSTAT.BUSY 1).modRx (fun r => { r with calRun := 0b1000 })), by decide +kernel⟩

theorem witness_ReceiveCalibration_lastDoneSending :
    ∃ (n : Nat) (s : State), (Rx s) ∧ (s.loom.blankTx = false) ∧ (firstStep s.rfrx.calRun = some n) ∧ (s.rfrx.calRun &&& ~~~(1#4 <<< n) = 0) :=
  ⟨(3), (((sending .waiting).put RFRX_CALSTAT.BUSY 1).modRx (fun r => { r with calRun := 0b1000 })), by decide +kernel⟩

theorem witness_ReceiveCalibration_temp :
    ∃ (s : State), (Rx s) :=
  ⟨(radioUp), by decide +kernel⟩

theorem witness_ReceiveCalibration_trimOff :
    ∃ (s : State), (Rx s) ∧ (s.get RFRX_TRIMCFG.MODE ≠ 1) :=
  ⟨((radioUp.put RFRX_TRIMCFG.MODE 0).modRx (fun r => { r with frames := [(100, 20)] })), by decide +kernel⟩

theorem witness_ReceiveCalibration_trimFew :
    ∃ (s : State), (Rx s) ∧ (s.get RFRX_TRIMCFG.MODE = 1) ∧ (s.rfrx.frames.length < max 1 (s.get RFRX_TRIMCFG.NMIN)) :=
  ⟨(radioUp.put RFRX_TRIMCFG.MODE 1), by decide +kernel⟩

theorem witness_ReceiveCalibration_trimFree :
    ∃ (s : State), (Rx s) ∧ (s.get RFRX_TRIMCFG.MODE = 1) ∧ (max 1 (s.get RFRX_TRIMCFG.NMIN) ≤ s.rfrx.frames.length) :=
  ⟨(((radioUp.put RFRX_TRIMCFG.MODE 1).put RFRX_TRIMCFG.NMIN 1).modRx (fun r => { r with frames := [(100, 0)] })), by decide +kernel⟩

theorem witness_ReceiveCalibration_trimOn :
    ∃ (m : Int) (s : State), (Rx s) ∧ (s.get RFRX_TRIMCFG.MODE = 1) ∧ (max 1 (s.get RFRX_TRIMCFG.NMIN) ≤ s.rfrx.frames.length) ∧ ((s.rfrx.frames.map (fun x => ((min 30 x.2 : Nat) : Int))).foldl (· + ·) 0 ≠ 0) ∧ ((slotMean s.rfrx.frames s).1 = m) :=
  ⟨(100), ((radioUp.put RFRX_TRIMCFG.NMIN 1).modRx (fun r => { r with frames := [(100, 20)] })), by decide +kernel⟩

theorem witness_SentinelRows_detect :
    ∃ (l : Fin 96) (metric : BitVec 8) (idx : Fin 400) (part : Bool) (n : Nat) (s : State), (Rx s) ∧ (s.searching = true) ∧ (s.isChannel l.val = true) ∧ (s.get (LOOM_SENT.STATE l.val) ≠ sentOff) ∧ (s.evalHits l.val metric.toNat (400 * s.tick.bnd + idx.val) part = some n) ∧ (s.msB (s.laneF l.val LOOM_LANE.MSET) LOOM_MSB.DETN < n) ∧ ((s.lane l.val).pkt = none) :=
  ⟨(48), (200), (399), (false), (4), ((searchAt.setReg (Reg.LOOM_MSB_LIVE 0) ((LOOM_MSB.PWIN 0).into 0 16)).modLane 48 (fun x => { x with hits := 3, evalAt := some 391 })), by decide +kernel⟩

theorem witness_SentinelRows_below :
    ∃ (l : Fin 96) (metric : BitVec 8) (idx : Fin 400) (part : Bool) (n : Nat) (s : State), (Rx s) ∧ (s.searching = true) ∧ (s.isChannel l.val = true) ∧ (s.get (LOOM_SENT.STATE l.val) ≠ sentOff) ∧ (s.evalHits l.val metric.toNat (400 * s.tick.bnd + idx.val) part = some n) ∧ (n ≤ s.msB (s.laneF l.val LOOM_LANE.MSET) LOOM_MSB.DETN) :=
  ⟨(48), (200), (399), (false), (1), (searchAt.setReg (Reg.LOOM_MSB_LIVE 0) ((LOOM_MSB.DETN 0).into ((LOOM_MSB.PWIN 0).into 0 16) 3)), by decide +kernel⟩

theorem witness_SentinelRows_noWindow :
    ∃ (l : Fin 96) (metric : BitVec 8) (idx : Fin 400) (part : Bool) (s : State), (s.searching = false ∨ s.isChannel l.val = false ∨ s.evalHits l.val metric.toNat (400 * s.tick.bnd + idx.val) part = none) :=
  ⟨(48), (200), (100), (false), (searchAt.setReg (Reg.LOOM_MSB_LIVE 0) ((LOOM_MSB.PWIN 0).into 0 16)), by decide +kernel⟩

theorem witness_SentinelRows_stands :
    ∃ (l : Fin 96) (metric : BitVec 8) (level : Int) (p : Packet) (s : State), ((s.lane l.val).pkt.bind s.packet = some p) ∧ (s.replaces p metric.toNat (s.levelOf level) = false) :=
  ⟨(48), (0), (-300), (packet48), (syncAt.setReg (Reg.LOOM_MSD_LIVE 0) ((LOOM_MSD.RSTDB 0).into ((LOOM_MSD.RSTM 0).into 0 10) 10)), by decide +kernel⟩

theorem witness_SentinelRows_restart :
    ∃ (l : Fin 96) (metric : BitVec 8) (level : Int) (idx : Fin 400) (part : Bool) (n : Nat) (p : Packet) (s : State), (Rx s) ∧ (s.searching = true) ∧ (s.isChannel l.val = true) ∧ (s.get (LOOM_SENT.STATE l.val) ≠ sentOff) ∧ (s.evalHits l.val metric.toNat (400 * s.tick.bnd + idx.val) part = some n) ∧ (s.msB (s.laneF l.val LOOM_LANE.MSET) LOOM_MSB.DETN < n) ∧ ((s.lane l.val).pkt.bind s.packet = some p) ∧ (s.replaces p metric.toNat (s.levelOf level) = true) :=
  ⟨(48), (200), (-300), (399), (false), (4), (packet48), ((syncAt.setReg (Reg.LOOM_MSB_LIVE 0) ((LOOM_MSB.PWIN 0).into 0 16)).modLane 48 (fun x => { x with hits := 3, evalAt := some 391 })), by decide +kernel⟩

theorem witness_SentinelRows_sfd :
    ∃ (l : Fin 96) (sfd1 : Bool) (idx : Fin 400) (p : Packet) (s : State), (Rx s) ∧ (s.searching = true) ∧ (s.inProgress l.val sentPreamble = some p) ∧ (sfd1 = false ∨ s.msD p.mset LOOM_MSD.SFDN2 ≠ 0) ∧ (p.sfdOver = false) ∧ (400 * s.tick.bnd + idx.val ≤ p.detAt + s.sfdSpan p.mset) :=
  ⟨(48), (false), (120), (packet48), (syncAt.setReg (Reg.LOOM_MSB_LIVE 0) ((LOOM_MSB.SFDWIN 0).into 0 4)), by decide +kernel⟩

theorem witness_SentinelRows_sfdLate :
    ∃ (l : Fin 96) (idx : Fin 400) (p : Packet) (s : State), (s.inProgress l.val sentPreamble = some p) ∧ (p.sfdOver = true ∨ p.detAt + s.sfdSpan p.mset < 400 * s.tick.bnd + idx.val) :=
  ⟨(48), (399), (packet48), (syncAt.setReg (Reg.LOOM_MSB_LIVE 0) ((LOOM_MSB.SFDWIN 0).into 0 4)), by decide +kernel⟩

theorem witness_SentinelRows_timeout :
    ∃ (l : Fin 96) (p : Packet) (s : State), (Rx s) ∧ (s.searching = true) ∧ (s.inProgress l.val sentPreamble = some p) ∧ (p.sfdOver = false) ∧ (p.detAt + s.sfdSpan p.mset ≤ s.laneIdx) :=
  ⟨(48), (packet48), ({ syncAt.setReg (Reg.LOOM_MSB_LIVE 0) ((LOOM_MSB.SFDWIN 0).into 0 4) with now := 10000 + 300 * 625, tick := { bnd := 0, startAt := 10000 } }), by decide +kernel⟩

theorem witness_SentinelRows_timeoutEarly :
    ∃ (l : Fin 96) (p : Packet) (s : State), (s.inProgress l.val sentPreamble = some p) ∧ (p.sfdOver = true ∨ s.laneIdx < p.detAt + s.sfdSpan p.mset) :=
  ⟨(48), (packet48), (syncAt.setReg (Reg.LOOM_MSB_LIVE 0) ((LOOM_MSB.SFDWIN 0).into 0 4)), by decide +kernel⟩

theorem witness_SentinelRows_intakeGood :
    ∃ (n : Fin 32) (j : Job) (c : DmaCmd) (cs : List DmaCmd) (p : Packet) (blk : List Byte) (s : State), (Rx s) ∧ (Running n j s) ∧ ((s.eng n).dma = c :: cs) ∧ ((s.eng n).ending = none) ∧ (c.kind = .macOut) ∧ (s.bytes (weftLocal n + c.loc) c.len = blk) ∧ (s.packetOf j = some p) ∧ (badDesc j p (blk.take 32) blk.length s = false) ∧ (blk.getD 0x15 0 = 1) ∧ (fcsOk (bitOf (blk.getD 5 0).toNat 3) ((blk.drop 32).take (leNat ((blk.drop 6).take 2))) = true) :=
  ⟨(3), (packetJob), (⟨.macOut, 36, 0x100, 0⟩), ([]), (packet5), (goodBlock), (macOutAt goodBlock), by decide +kernel⟩

theorem witness_SentinelRows_intakeBadDesc :
    ∃ (n : Fin 32) (j : Job) (c : DmaCmd) (cs : List DmaCmd) (p : Packet) (blk : List Byte) (s : State), (Rx s) ∧ (Running n j s) ∧ ((s.eng n).dma = c :: cs) ∧ ((s.eng n).ending = none) ∧ (c.kind = .macOut) ∧ (s.bytes (weftLocal n + c.loc) c.len = blk) ∧ (s.packetOf j = some p) ∧ (badDesc j p (blk.take 32) blk.length s = true) :=
  ⟨(3), (packetJob), (⟨.macOut, 36, 0x100, 0⟩), ([]), (packet5), ((goodBlock.set 2 9)), (macOutAt (goodBlock.set 2 9)), by decide +kernel⟩

theorem witness_SentinelRows_intakeBad :
    ∃ (n : Fin 32) (j : Job) (c : DmaCmd) (cs : List DmaCmd) (p : Packet) (blk : List Byte) (s : State), (Rx s) ∧ (Running n j s) ∧ ((s.eng n).dma = c :: cs) ∧ ((s.eng n).ending = none) ∧ (c.kind = .macOut) ∧ (s.bytes (weftLocal n + c.loc) c.len = blk) ∧ (s.packetOf j = some p) ∧ (badDesc j p (blk.take 32) blk.length s = false) ∧ (blk.getD 0x15 0 = 1) ∧ (fcsOk (bitOf (blk.getD 5 0).toNat 3) ((blk.drop 32).take (leNat ((blk.drop 6).take 2))) = false) ∧ (s.on MAC_RXCFG.KEEPBAD = false) :=
  ⟨(3), (packetJob), (⟨.macOut, 36, 0x100, 0⟩), ([]), (packet5), ((goodBlock.set 32 0xFF)), (macOutAt (goodBlock.set 32 0xFF)), by decide +kernel⟩

theorem witness_SentinelRows_window :
    ∃ (w : Nat × Nat) (s : State), (Rx s) ∧ (s.demod.msw = some w) ∧ (w.2 + s.mswWindow < s.now) :=
  ⟨((3, 0)), ({ radioUp with demod := { msw := some (3, 0) }, now := 600000 }), by decide +kernel⟩

theorem witness_SentinelRows_windowOpen :
    ∃ (w : Nat × Nat) (s : State), (s.demod.msw = some w) ∧ (s.now ≤ w.2 + s.mswWindow) :=
  ⟨((3, 0)), ({ radioUp with demod := { msw := some (3, 0) }, now := 10 }), by decide +kernel⟩

theorem witness_TransmitRequests_request :
    ∃ (r : TxReq) (k : Int) (b : Nat) (s : State), (ChainIdle s) ∧ (txTests r s = .inr (k, b)) ∧ (s.on RFTX_COEX.EN = false) ∧ (s.power.radioOffDue = false) :=
  ⟨(request), (0), (0), (recordAt), by decide +kernel⟩

theorem witness_TransmitRequests_requestCoex :
    ∃ (r : TxReq) (k : Int) (b : Nat) (s : State), (ChainIdle s) ∧ (txTests r s = .inr (k, b)) ∧ (s.on RFTX_COEX.EN = true) ∧ (s.power.radioOffDue = false) :=
  ⟨(request), (0), (0), (recordAt.put RFTX_COEX.EN 1), by decide +kernel⟩

theorem witness_TransmitRequests_requestWaits :
    ∃ (s : State), (s.radioOn = true) ∧ (MacQuiet s) ∧ (s.tx.job.isSome = true) ∧ (s.txBusy = true) :=
  ⟨(sending .ramp), by decide +kernel⟩

theorem witness_TransmitRequests_requestRefused :
    ∃ (r : TxReq) (st : Nat) (s : State), (ChainIdle s) ∧ (txTests r s = .inl st) ∧ (s.power.radioOffDue = false) :=
  ⟨(request), (txMaskfail), (recordAt.put RFTX_STAT.MASKF 1), by decide +kernel⟩

theorem witness_TransmitRequests_noRecord :
    ∃ (s : State), (ChainIdle s) ∧ (s.recValid = false) ∧ (s.power.radioOffDue = false) :=
  ⟨(radioUp), by decide +kernel⟩

theorem witness_TransmitRequests_prepare :
    ∃ (j : TxJob) (s : State), (Chain j s) ∧ (j.phase = .waiting) ∧ (s.tx.cal = none) ∧ (s.on RFRX_CALSTAT.DONE = true) ∧ (s.power.radioOffDue = false) :=
  ⟨((atTime 0x100000000000 .waiting)), ({ (radioUp.put RFRX_CALSTAT.DONE 1) with tx := { job := some (atTime 0x100000000000 .waiting) } }), by decide +kernel⟩

theorem witness_TransmitRequests_lock :
    ∃ (j : TxJob) (s : State), (Chain j s) ∧ (j.phase = .preparing) ∧ (j.req.start = none) ∧ (s.power.radioOffDue = false) :=
  ⟨((txJob .preparing)), (sending .preparing), by decide +kernel⟩

theorem witness_TransmitRequests_lockAny :
    ∃ (j : TxJob) (s : State), (s.radioOn = true) ∧ (s.tx.job = some j) ∧ (j.phase = .preparing) ∧ (j.req.start = none) :=
  ⟨((txJob .preparing)), (sending .preparing), by decide +kernel⟩

theorem witness_TransmitRequests_late :
    ∃ (j : TxJob) (at_ : DWord) (s : State), (Chain j s) ∧ (j.phase = .preparing) ∧ (j.req.start = some at_) ∧ (0 < ntDiff s.nt ((at_.toNat + 2 ^ 64 - usNt s.txSetup) % 2 ^ 64)) ∧ (s.power.radioOffDue = false) :=
  ⟨((atTime 0 .preparing)), (0), ({ radioUp with tx := { job := some (atTime 0 .preparing) } }), by decide +kernel⟩

theorem witness_TransmitRequests_noLock :
    ∃ (j : TxJob) (s : State), (Chain j s) ∧ (j.phase = .preparing) ∧ (j.req.start = none) ∧ (s.power.radioOffDue = false) :=
  ⟨((txJob .preparing)), (sending .preparing), by decide +kernel⟩

theorem witness_TransmitRequests_coexReq :
    ∃ (j : TxJob) (s : State), (Chain j s) ∧ (j.req.start.isSome = true) ∧ (s.on RFTX_COEX.EN = true) ∧ (s.power.radioOffDue = false) :=
  ⟨((atTime 0x100000000000 .waiting)), ({ (radioUp.put RFTX_COEX.EN 1) with tx := { job := some (atTime 0x100000000000 .waiting) } }), by decide +kernel⟩

theorem witness_TransmitRequests_grant :
    ∃ (j : TxJob) (s : State), (Chain j s) ∧ (j.phase = .grant) ∧ (s.lbtOk j = true) ∧ (s.power.radioOffDue = false) :=
  ⟨((txJob .grant)), ({ (radioUp.put RFTX_COEX.EN 1) with tx := { job := some (txJob .grant) } }), by decide +kernel⟩

theorem witness_TransmitRequests_grantElse :
    ∃ (s : State), (s.radioOn = true) ∧ (MacQuiet s) ∧ (s.power.radioOffDue = false) ∧ (s.tx.job = none) :=
  ⟨(radioUp), by decide +kernel⟩

theorem witness_TransmitRequests_gntwait :
    ∃ (j : TxJob) (s : State), (Chain j s) ∧ (j.phase = .grant) ∧ (s.power.radioOffDue = false) :=
  ⟨((txJob .grant)), (sending .grant), by decide +kernel⟩

theorem witness_TransmitRequests_withdrawn :
    ∃ (j : TxJob) (s : State), (Chain j s) ∧ (j.phase = .ramp) ∧ (s.on RFTX_COEX.EN = true) ∧ (s.on RFTX_COEX.ABORT = true) ∧ (s.power.radioOffDue = false) :=
  ⟨((txJob .ramp)), ({ ((radioUp.put RFTX_COEX.EN 1).put RFTX_COEX.ABORT 1) with tx := { job := some (txJob .ramp) } }), by decide +kernel⟩

theorem witness_TransmitRequests_withdrawnKept :
    ∃ (j : TxJob) (s : State), (Chain j s) ∧ (s.power.radioOffDue = false) ∧ (s.on RFTX_COEX.EN = false ∨ s.on RFTX_COEX.ABORT = false) :=
  ⟨((txJob .ramp)), (sending .ramp), by decide +kernel⟩

theorem witness_TransmitSequence_start :
    ∃ (j : TxJob) (s : State), (Chain j s) ∧ (j.phase = .locked) ∧ (s.lbtOk j = true) ∧ (s.granted = true) ∧ (s.power.radioOffDue = false) :=
  ⟨((txJob .locked)), (sending .locked), by decide +kernel⟩

theorem witness_TransmitSequence_lbt :
    ∃ (j : TxJob) (s : State), (Chain j s) ∧ (j.phase = .locked) ∧ (s.lbtOk j = false) ∧ (s.power.radioOffDue = false) :=
  ⟨((txJob .locked)), ({ sending .locked with tx := { (sending .locked).tx with record := recordBytes.set 0x11 1 } }), by decide +kernel⟩

theorem witness_TransmitSequence_denied :
    ∃ (j : TxJob) (s : State), (Chain j s) ∧ (j.phase = .locked) ∧ (s.lbtOk j = true) ∧ (s.granted = false) ∧ (j.req.start.isSome = true ∨ s.get RFTX_COEX.GNTWAIT = 0) ∧ (s.power.radioOffDue = false) :=
  ⟨((txJob .locked)), (((sending .locked).put RFTX_COEX.EN 1).put RFTX_COEX.GNTWAIT 0), by decide +kernel⟩

theorem witness_TransmitSequence_waits :
    ∃ (j : TxJob) (s : State), (Chain j s) ∧ (j.phase = .locked) ∧ (s.lbtOk j = true) ∧ (s.granted = false) ∧ (j.req.start = none) ∧ (s.get RFTX_COEX.GNTWAIT ≠ 0) ∧ (s.power.radioOffDue = false) :=
  ⟨((txJob .locked)), (((sending .locked).put RFTX_COEX.EN 1).put RFTX_COEX.GNTWAIT 5), by decide +kernel⟩

theorem witness_TransmitSequence_notLocked :
    ∃ (j : TxJob) (s : State), (Chain j s) ∧ (j.phase = .preparing) ∧ (j.req.start.isSome = true) ∧ (s.power.radioOffDue = false) :=
  ⟨((atTime 0x100000000000 .preparing)), ({ radioUp with tx := { job := some (atTime 0x100000000000 .preparing) } }), by decide +kernel⟩

theorem witness_TransmitSequence_paOn :
    ∃ (j : TxJob) (s : State), (Chain j s) ∧ (j.phase = .lead) ∧ (s.power.radioOffDue = false) :=
  ⟨((txJob .lead)), (sending .lead), by decide +kernel⟩

theorem witness_TransmitSequence_paOnAny :
    ∃ (j : TxJob) (s : State), (s.radioOn = true) ∧ (s.tx.job = some j) ∧ (j.phase = .lead) :=
  ⟨((txJob .lead)), (sending .lead), by decide +kernel⟩

theorem witness_TransmitSequence_ramp :
    ∃ (j : TxJob) (s : State), (Chain j s) ∧ (j.phase = .paOn) ∧ (s.power.radioOffDue = false) :=
  ⟨((txJob .paOn)), (sending .paOn), by decide +kernel⟩

theorem witness_TransmitSequence_rampAny :
    ∃ (j : TxJob) (s : State), (s.radioOn = true) ∧ (s.tx.job = some j) ∧ (j.phase = .paOn) :=
  ⟨((txJob .paOn)), (sending .paOn), by decide +kernel⟩

theorem witness_TransmitSequence_last :
    ∃ (j : TxJob) (s : State), (Chain j s) ∧ (j.phase = .ramp) ∧ (s.power.radioOffDue = false) :=
  ⟨((txJob .ramp)), (sending .ramp), by decide +kernel⟩

theorem witness_TransmitSequence_lastAny :
    ∃ (j : TxJob) (s : State), (s.radioOn = true) ∧ (s.tx.job = some j) ∧ (j.phase = .ramp) :=
  ⟨((txJob .ramp)), (sending .ramp), by decide +kernel⟩

theorem witness_TransmitSequence_down :
    ∃ (j : TxJob) (from_ : Nat) (s : State), (Chain j s) ∧ (j.phase = .down) ∧ (j.rampAt = some from_) ∧ (j.age < 360) ∧ (j.band < 4) ∧ (((s.tx.duty[j.band]?).getD []).length ≤ 360) ∧ (s.power.radioOffDue = false) :=
  ⟨({ txJob .down with rampAt := some 100, age := 3 }), (100), ({ radioUp with tx := { job := some { txJob .down with rampAt := some 100, age := 3 } } }), by decide +kernel⟩

theorem witness_TransmitSequence_paOff :
    ∃ (j : TxJob) (s : State), (Chain j s) ∧ (j.phase = .downEnd) ∧ (s.power.radioOffDue = false) :=
  ⟨((txJob .downEnd)), (sending .downEnd), by decide +kernel⟩

theorem witness_TransmitSequence_paOffAny :
    ∃ (j : TxJob) (s : State), (s.radioOn = true) ∧ (s.tx.job = some j) ∧ (j.phase = .downEnd) :=
  ⟨((txJob .downEnd)), (sending .downEnd), by decide +kernel⟩

theorem witness_TransmitSequence_sent :
    ∃ (j : TxJob) (s : State), (Chain j s) ∧ (j.phase = .paOff) ∧ (j.aborted = false) ∧ (s.power.radioOffDue = false) :=
  ⟨((txJob .paOff)), (sending .paOff), by decide +kernel⟩

theorem witness_TransmitSequence_aborted :
    ∃ (j : TxJob) (s : State), (Chain j s) ∧ (j.phase = .paOff) ∧ (j.aborted = true) ∧ (s.power.radioOffDue = false) :=
  ⟨({ txJob .paOff with aborted := true }), ({ radioUp with tx := { job := some { txJob .paOff with aborted := true } } }), by decide +kernel⟩

theorem witness_TransmitSequence_sentOff :
    ∃ (j : TxJob) (s : State), (Chain j s) ∧ (j.phase = .paOff) ∧ (s.power.radioOffDue = true) :=
  ⟨((txJob .paOff)), ({ sending .paOff with power := { radioUp.power with radioOffDue := true } }), by decide +kernel⟩

theorem witness_TransmitSequence_blanking :
    ∃ (s : State), (s.radioOn = true) ∧ (MacQuiet s) ∧ (s.onAir = false) ∧ (s.power.radioOffDue = false) :=
  ⟨({ radioUp with loom := { blankTx := true } }), by decide +kernel⟩

theorem witness_TransmitCalibration_tap :
    ∃ (n : Fin 16) (s : State), (Core (Reg.RFTX_FIR n.val) s) ∧ (s.txBusy = false) :=
  ⟨(3), (radioUp), by decide +kernel⟩

theorem witness_TransmitCalibration_held :
    ∃ (n : Fin 16) (s : State), (Core (Reg.RFTX_FIR n.val) s) ∧ (s.txBusy = true) :=
  ⟨(3), (sending .lead), by decide +kernel⟩

theorem witness_TransmitCalibration_vco :
    ∃ (s : State), (Core Reg.RFTX_CALREQ s) ∧ (ChainIdle s) ∧ (s.power.radioOffDue = false) :=
  ⟨(radioUp), by decide +kernel⟩

theorem witness_TransmitCalibration_check :
    ∃ (s : State), (Core Reg.RFTX_CALREQ s) ∧ (ChainIdle s) ∧ (s.power.radioOffDue = false) :=
  ⟨(radioUp), by decide +kernel⟩

theorem witness_TransmitCalibration_queuedVco :
    ∃ (j : TxJob) (s : State), (Core Reg.RFTX_CALREQ s) ∧ (s.tx.job = some j) :=
  ⟨((txJob .lead)), (sending .lead), by decide +kernel⟩

theorem witness_TransmitCalibration_queued :
    ∃ (j : TxJob) (s : State), (Core Reg.RFTX_CALREQ s) ∧ (s.tx.job = some j) :=
  ⟨((txJob .lead)), (sending .lead), by decide +kernel⟩

theorem witness_TransmitCalibration_done :
    ∃ (check : Bool) (s : State), (s.radioOn = true) ∧ (MacQuiet s) ∧ (s.tx.job = none) ∧ (s.tx.queue = []) ∧ (s.tx.calReq = 0) ∧ (s.tx.cal = some check) ∧ (s.power.radioOffDue = false) :=
  ⟨(true), ({ radioUp with tx := { cal := some true } }), by decide +kernel⟩

theorem witness_MacSchedule_link :
    ∃ (n : Nat) (s : State), (s.radioOn = true) ∧ (MacQuiet s) ∧ (s.linksIn lkRx s.schedSlot = [n]) ∧ (s.linksIn lkShared s.schedSlot = []) ∧ (s.on MAC_CFG.COORD = false) ∧ ((s.on MAC_PARENT.EN && s.linkB n MAC_LINKB.PEER == s.get MAC_PARENT.ENTRY) = false) ∧ (s.linksIn lkTx s.schedSlot = []) ∧ (s.planChan (s.linkLane n s.schedSlot) = true) ∧ (s.mac.acts = []) ∧ (s.mac.wins = []) :=
  ⟨(0), (linkAt), by decide +kernel⟩

theorem witness_MacSchedule_linkParent :
    ∃ (n : Nat) (s : State), (s.radioOn = true) ∧ (MacQuiet s) ∧ (s.linksIn lkRx s.schedSlot = [n]) ∧ (s.linksIn lkShared s.schedSlot = []) ∧ (s.linksIn lkTx s.schedSlot = []) ∧ (s.on MAC_CFG.COORD = false) ∧ (s.on MAC_PARENT.EN = true) ∧ (s.linkB n MAC_LINKB.PEER = s.get MAC_PARENT.ENTRY) ∧ (s.planChan (s.linkLane n s.schedSlot) = true) ∧ (s.mac.acts = []) ∧ (s.mac.wins = []) :=
  ⟨(0), (linkAt.put MAC_PARENT.EN 1), by decide +kernel⟩

theorem witness_MacSchedule_linkNoLane :
    ∃ (n : Nat) (s : State), (s.radioOn = true) ∧ (MacQuiet s) ∧ (s.linksIn lkTx s.schedSlot ++ s.linksIn lkShared s.schedSlot ++ s.linksIn lkRx s.schedSlot = [n]) ∧ (s.planChan (s.linkLane n s.schedSlot) = false) ∧ (s.mac.wins = []) :=
  ⟨(0), (linkAt.setReg (Reg.LOOM_LANE_LIVE 0) 0), by decide +kernel⟩

theorem witness_MacSchedule_coordinator :
    ∃ (s : State), (s.radioOn = true) ∧ (MacQuiet s) ∧ (s.on MAC_CFG.COORD = true) ∧ (s.mac.wins = []) :=
  ⟨(linkAt.put MAC_CFG.COORD 1), by decide +kernel⟩

theorem witness_MacSchedule_linkOff :
    ∃ (s : State), (s.radioOn = false) :=
  ⟨(State.reset), by decide +kernel⟩

theorem witness_MacSchedule_beacon :
    ∃ (l : Nat) (s : State), (s.radioOn = true) ∧ (MacQuiet s) ∧ (s.beaconSlot s.schedSlot = true) ∧ (s.ml MAC_BCNCFG.ROLE Reg.MAC_BCNCFG_LIVE = 1) ∧ (s.ml MAC_BCNCFG.LANE Reg.MAC_BCNCFG_LIVE = l) ∧ (s.planChan l = true) ∧ (s.get MAC_BSTAT.STATE = bsTrack ∨ s.get MAC_BSTAT.STATE = bsSearch) ∧ (s.mac.acts = []) ∧ (s.mac.wins = []) :=
  ⟨(0), ((linkAt.setReg Reg.MAC_BCNCFG_LIVE (MAC_BCNCFG.ROLE.into (MAC_BCNCFG.EN.into 0 1) 1)).put MAC_BSTAT.STATE bsTrack), by decide +kernel⟩

theorem witness_MacSchedule_beaconNoLane :
    ∃ (s : State), (s.radioOn = true) ∧ (MacQuiet s) ∧ (s.parentBeacon s.schedSlot ≠ none) ∧ (s.planChan (s.ml MAC_BCNCFG.LANE Reg.MAC_BCNCFG_LIVE) = false) ∧ (s.mac.wins = []) :=
  ⟨(((linkAt.setReg Reg.MAC_BCNCFG_LIVE (MAC_BCNCFG.ROLE.into (MAC_BCNCFG.EN.into 0 1) 1)).put MAC_BSTAT.STATE bsTrack).setReg (Reg.LOOM_LANE_LIVE 0) 0), by decide +kernel⟩

theorem witness_MacSchedule_beaconNone :
    ∃ (s : State), (s.radioOn = true) ∧ (MacQuiet s) ∧ (s.beaconSlot s.schedSlot = false) ∧ (s.mac.wins = []) ∧ (s.mac.acts = []) :=
  ⟨(linkAt), by decide +kernel⟩

theorem witness_MacSchedule_beaconOff :
    ∃ (s : State), (s.radioOn = false) :=
  ⟨(State.reset), by decide +kernel⟩

theorem witness_MacSchedule_head :
    ∃ (s : State), (Core Reg.MAC_TXQPTR s) ∧ (MacQuiet s) :=
  ⟨(radioUp), by decide +kernel⟩

theorem witness_MacSchedule_headBad :
    ∃ (s : State), (Core Reg.MAC_TXQPTR s) ∧ (s.macTx = true) ∧ (s.tx.done = []) ∧ (s.mac.descs = []) ∧ (s.mac.wins = []) ∧ (s.mac.csma = []) ∧ ((s.put MAC_TXQPTR.HEAD 1).txqOn = true) ∧ ((s.put MAC_TXQPTR.HEAD 1).ringIdx = [0]) ∧ (s.dF 0 0 1 = 1) ∧ (takeTests 0 (s.put MAC_TXQPTR.HEAD 1) = some msBaddesc) :=
  ⟨(((radioUp.put MAC_TXQBASE.ADDR 0x10010).put MAC_TXQBASE.EN 1).wb 0x20020000 1 |>.wb 0x20020001 5), by decide +kernel⟩

theorem witness_MacSchedule_busy :
    ∃ (desc : BitVec 8) (c : Csma) (s : State), (s.macTx = true) ∧ (MacQuiet s) ∧ (s.mac.csma = [c]) ∧ (c.idx = desc.toNat) ∧ (c.deferred = false) ∧ (c.spanEnd = none) ∧ ((s.desc desc.toNat).map (·.active) = some false) ∧ (s.heldDesc desc.toNat = false) ∧ ((s.on MAC_CFG.DEFERRX && !c.deferDone && s.anyPayload) = false) ∧ (s.ccaBusy c.lane = true) ∧ (c.nb < s.maxBo) :=
  ⟨(2), (csma2), (csmaAt), by decide +kernel⟩

theorem witness_MacSchedule_caFail :
    ∃ (desc : BitVec 8) (c : Csma) (d : MacDesc) (s : State), (s.macTx = true) ∧ (MacQuiet s) ∧ (s.mac.csma = [c]) ∧ (c.idx = desc.toNat) ∧ (c.deferred = false) ∧ (c.spanEnd = none) ∧ (s.mac.descs = [d]) ∧ (d.idx = desc.toNat) ∧ (d.active = false) ∧ (s.heldDesc desc.toNat = false) ∧ ((s.on MAC_CFG.DEFERRX && !c.deferDone && s.anyPayload) = false) ∧ (s.ccaBusy c.lane = true) ∧ (s.maxBo ≤ c.nb) :=
  ⟨(2), ({ csma2 with nb := 4 }), ({ idx := 2 }), (csmaAt.modMac (fun m => { m with csma := [{ csma2 with nb := 4 }] }) |>.put MAC_TXQBASE.ADDR 0x10010), by decide +kernel⟩

theorem witness_MacSchedule_cut :
    ∃ (desc : BitVec 8) (c : Csma) (d : MacDesc) (s : State), (s.macTx = true) ∧ (MacQuiet s) ∧ (s.mac.csma = [c]) ∧ (c.idx = desc.toNat) ∧ (c.deferred = false) ∧ (s.mac.descs = [d]) ∧ (d.idx = desc.toNat) ∧ (d.active = false) ∧ (s.heldDesc desc.toNat = false) ∧ ((s.on MAC_CFG.DEFERRX && !c.deferDone && s.anyPayload) = false) ∧ (s.boFits c = false) :=
  ⟨(2), ({ csma2 with spanEnd := some 0 }), ({ idx := 2 }), (csmaAt.modMac (fun m => { m with csma := [{ csma2 with spanEnd := some 0 }] })), by decide +kernel⟩

theorem witness_MacSchedule_held :
    ∃ (desc : BitVec 8) (c : Csma) (d : MacDesc) (s : State), (s.radioOn = true) ∧ (MacQuiet s) ∧ (s.mac.csma = [c]) ∧ (c.idx = desc.toNat) ∧ (s.mac.descs = [d]) ∧ (d.idx = desc.toNat) ∧ (d.active = false) ∧ (s.macTx = false ∨ s.heldDesc desc.toNat = true) :=
  ⟨(2), (csma2), ({ idx := 2 }), ((csmaAt.put MAC_PARENT.EN 1).put MAC_BSTAT.STATE bsSearch), by decide +kernel⟩

theorem witness_MacSchedule_assessOther :
    ∃ (desc : BitVec 8) (s : State), (s.radioOn = true) ∧ (MacQuiet s) ∧ (∀ c ∈ s.mac.csma, c.idx ≠ desc.toNat) :=
  ⟨(3), (csmaAt), by decide +kernel⟩

theorem witness_MacSchedule_defer :
    ∃ (desc : BitVec 8) (c : Csma) (s : State), (s.macTx = true) ∧ (MacQuiet s) ∧ (s.mac.csma = [c]) ∧ (c.idx = desc.toNat) ∧ ((s.desc desc.toNat).map (·.active) = some false) ∧ (s.heldDesc desc.toNat = false) ∧ ((s.on MAC_CFG.DEFERRX && !c.deferDone && s.anyPayload) = true) :=
  ⟨(2), (csma2), ((csmaAt.put MAC_CFG.DEFERRX 1).modLoom (fun l => { l with packets := [{ packet48 with st := .payload }] })), by decide +kernel⟩

theorem witness_MacSchedule_resumed :
    ∃ (desc : BitVec 8) (c : Csma) (s : State), (s.macTx = true) ∧ (MacQuiet s) ∧ (s.mac.csma = [c]) ∧ (c.idx = desc.toNat) ∧ (c.deferred = true) ∧ (s.boundary c - s.ccaLead c.lane ≤ (s.now : Int)) ∧ (c.spanEnd = none) ∧ ((s.desc desc.toNat).map (·.active) = some false) ∧ (s.heldDesc desc.toNat = false) ∧ (s.ccaBusy c.lane = true) ∧ (c.nb < s.maxBo) :=
  ⟨(2), ({ csma2 with deferred := true }), (csmaAt.modMac (fun m => { m with csma := [{ csma2 with deferred := true }] })), by decide +kernel⟩

theorem witness_MacSchedule_deferOver :
    ∃ (desc : BitVec 8) (c : Csma) (s : State), (s.radioOn = true) ∧ (MacQuiet s) ∧ (s.mac.csma = [c]) ∧ (c.idx = desc.toNat) ∧ (c.deferred = true) ∧ ((s.now : Int) < s.boundary c - s.ccaLead c.lane) :=
  ⟨(2), ({ csma2 with deferred := true, base := 10000000 }), (csmaAt.modMac (fun m => { m with csma := [{ csma2 with deferred := true, base := 10000000 }] })), by decide +kernel⟩

theorem witness_MacSchedule_deferNone :
    ∃ (desc : BitVec 8) (s : State), (s.radioOn = true) ∧ (MacQuiet s) ∧ (∀ c ∈ s.mac.csma, c.idx = desc.toNat → c.deferred = false) :=
  ⟨(2), (csmaAt), by decide +kernel⟩

theorem witness_MacReceive_kept :
    ∃ (f : RxFrame) (rest : List RxFrame) (next : Nat) (room : Nat) (s : State), (s.radioOn = true) ∧ (MacQuiet s) ∧ (s.standby = false) ∧ (s.demod.done = f :: rest) ∧ (f.status ≠ stDone) ∧ (f.psdu.length ≤ 2047) ∧ (s.rxqFits (recordSize (f.psdu.length - (if bitOf f.flags 3 then 2 else 4))) = true) ∧ (s.rxqWr + recordSize (f.psdu.length - (if bitOf f.flags 3 then 2 else 4)) ≤ s.rxqSize) ∧ (rxqPlace s.rxqSize (s.rxqWr, s.rxqRoom) (recordSize (f.psdu.length - (if bitOf f.flags 3 then 2 else 4))) = some (next, room)) :=
  ⟨(badFrame), ([]), (56), (4040), (rxqAt badFrame), by decide +kernel⟩

theorem witness_MacReceive_wrapped :
    ∃ (f : RxFrame) (rest : List RxFrame) (next : Nat) (room : Nat) (s : State), (s.radioOn = true) ∧ (MacQuiet s) ∧ (s.standby = false) ∧ (s.demod.done = f :: rest) ∧ (f.status ≠ stDone) ∧ (f.psdu.length ≤ 2047) ∧ (s.rxqFits (recordSize (f.psdu.length - (if bitOf f.flags 3 then 2 else 4))) = true) ∧ (s.rxqWr < s.rxqSize) ∧ (s.rxqSize < s.rxqWr + recordSize (f.psdu.length - (if bitOf f.flags 3 then 2 else 4))) ∧ (rxqPlace s.rxqSize (s.rxqWr, s.rxqRoom) (recordSize (f.psdu.length - (if bitOf f.flags 3 then 2 else 4))) = some (next, room)) :=
  ⟨(badFrame), ([]), (56), (4024), (((rxqAt badFrame).put MAC_RXQPTR.WR 510).put MAC_RXQPTR.RD 510), by decide +kernel⟩

theorem witness_MacReceive_noBuf :
    ∃ (f : RxFrame) (rest : List RxFrame) (s : State), (s.radioOn = true) ∧ (MacQuiet s) ∧ (s.standby = false) ∧ (s.demod.done = f :: rest) ∧ (f.status ≠ stDone) ∧ (s.rxqFits (recordSize (f.psdu.length - (if bitOf f.flags 3 then 2 else 4))) = false) :=
  ⟨(badFrame), ([]), ((rxqAt badFrame).put MAC_RXQBASE.EN 0), by decide +kernel⟩

theorem witness_MacReceive_standbyBad :
    ∃ (f : RxFrame) (rest : List RxFrame) (s : State), (s.radioOn = true) ∧ (MacQuiet s) ∧ (s.standby = true) ∧ (s.demod.done = f :: rest) ∧ (f.status ≠ stDone) :=
  ⟨(badFrame), ([]), ((rxqAt badFrame).put TWIL_STAT.STATE 2), by decide +kernel⟩

theorem witness_MacReceive_unreadable :
    ∃ (f : RxFrame) (rest : List RxFrame) (s : State), (s.radioOn = true) ∧ (MacQuiet s) ∧ (s.demod.done = f :: rest) ∧ (f.status = stDone) ∧ (parseMhr (f.psdu.take (f.psdu.length - (if bitOf f.flags 3 then 2 else 4))) = none) :=
  ⟨({ badFrame with status := stDone, psdu := [0x07, 0, 0, 0, 0, 0] }), ([]), (rxqAt { badFrame with status := stDone, psdu := [0x07, 0, 0, 0, 0, 0] }), by decide +kernel⟩

theorem witness_MacReceive_notMe :
    ∃ (f : RxFrame) (rest : List RxFrame) (s : State), (s.radioOn = true) ∧ (MacQuiet s) ∧ (s.standby = false) ∧ (s.demod.done = f :: rest) ∧ (f.status = stDone) ∧ ((parseMhr (f.psdu.take (f.psdu.length - (if bitOf f.flags 3 then 2 else 4)))).map s.forMe = some false) ∧ (s.on MAC_CFG.SNOOP = false) :=
  ⟨(dataFrame), ([]), (rxqAt dataFrame), by decide +kernel⟩

theorem witness_MacReceive_refused :
    ∃ (f : RxFrame) (rest : List RxFrame) (s : State), (s.radioOn = true) ∧ (MacQuiet s) ∧ (s.standby = false) ∧ (s.demod.done = f :: rest) ∧ (f.status = stDone) ∧ ((parseMhr (f.psdu.take (f.psdu.length - (if bitOf f.flags 3 then 2 else 4)))).map (fun m => s.forMe m && !m.sec) = some true) ∧ (s.on SYSC_CLKGATE.TBL = true) ∧ (s.on MAC_CFG.ACCUNSEC = false) :=
  ⟨(dataFrame), ([]), (((rxqAt dataFrame).put MAC_ADDR.SHORT 0x1234).put SYSC_CLKGATE.TBL 1), by decide +kernel⟩

theorem witness_MacReceive_noPeer :
    ∃ (f : RxFrame) (rest : List RxFrame) (s : State), (s.radioOn = true) ∧ (MacQuiet s) ∧ (s.standby = false) ∧ (s.demod.done = f :: rest) ∧ (f.status = stDone) ∧ ((parseMhr (f.psdu.take (f.psdu.length - (if bitOf f.flags 3 then 2 else 4)))).map s.forMe = some true) ∧ (s.on SYSC_CLKGATE.TBL = false) :=
  ⟨(dataFrame), ([]), (((rxqAt dataFrame).put MAC_ADDR.SHORT 0x1234).put SYSC_CLKGATE.TBL 0), by decide +kernel⟩

theorem witness_MacReceive_rxNone :
    ∃ (s : State), (s.demod.done = [] ∨ s.radioOn = false) :=
  ⟨(radioUp), by decide +kernel⟩

theorem witness_MacReceive_missed :
    ∃ (w : RxWin) (s : State), (s.radioOn = true) ∧ (MacQuiet s) ∧ (s.mac.wins = [w]) ∧ (w.kind = .beacon) ∧ (w.got = false) ∧ (s.winPending w = false) ∧ (s.get MAC_BSTAT.STATE = bsTrack) :=
  ⟨(⟨.beacon, 0, 100, 50, [48], 0, false⟩), (((radioUp.put MAC_BSTAT.STATE bsTrack).put MAC_BSTAT.MISS 2).modMac (fun m => { m with wins := [⟨.beacon, 0, 100, 50, [48], 0, false⟩] })), by decide +kernel⟩

theorem witness_MacReceive_lost :
    ∃ (w : RxWin) (s : State), (s.radioOn = true) ∧ (MacQuiet s) ∧ (s.mac.wins = [w]) ∧ (s.mac.descs = []) ∧ (w.kind = .beacon) ∧ (w.got = false) ∧ (s.winPending w = false) ∧ (s.get MAC_BSTAT.STATE = bsSearch) :=
  ⟨(⟨.beacon, 0, 100, 50, [48], 0, false⟩), (((radioUp.put MAC_BSTAT.STATE bsSearch).put MAC_BSTAT.MISS 20).modMac (fun m => { m with wins := [⟨.beacon, 0, 100, 50, [48], 0, false⟩] })), by decide +kernel⟩

theorem witness_MacReceive_heard :
    ∃ (w : RxWin) (s : State), (s.radioOn = true) ∧ (MacQuiet s) ∧ (s.mac.wins = [w]) ∧ (w.kind = .beacon) ∧ (w.got = true) ∧ (s.winPending w = false) :=
  ⟨(⟨.beacon, 0, 100, 50, [48], 0, true⟩), (radioUp.modMac (fun m => { m with wins := [⟨.beacon, 0, 100, 50, [48], 0, true⟩] })), by decide +kernel⟩

theorem witness_MacReceive_stillOpen :
    ∃ (w : RxWin) (s : State), (s.radioOn = true) ∧ (MacQuiet s) ∧ (s.mac.wins = [w]) ∧ (w.kind ≠ .beacon ∨ s.winPending w = true) :=
  ⟨(⟨.ackWait 2, 0, 100, 50, [48], 0, false⟩), (radioUp.modMac (fun m => { m with wins := [⟨.ackWait 2, 0, 100, 50, [48], 0, false⟩] })), by decide +kernel⟩

theorem witness_MacReceive_noAck :
    ∃ (desc : BitVec 8) (w : RxWin) (d : MacDesc) (s : State), (s.radioOn = true) ∧ (MacQuiet s) ∧ (s.mac.wins = [w]) ∧ (w.kind = .ackWait desc.toNat) ∧ (s.winPending w = false) ∧ (s.mac.descs = [d]) ∧ (d.idx = desc.toNat) ∧ (d.tries ≤ s.retries desc.toNat) ∧ ((s.toParent desc.toNat && s.get MAC_BSTAT.STATE == bsLost) = false) :=
  ⟨(2), (⟨.ackWait 2, 0, 100, 50, [48], 0, false⟩), ({ idx := 2, tries := 0, active := true }), (radioUp.modMac (fun m => { m with wins := [⟨.ackWait 2, 0, 100, 50, [48], 0, false⟩], descs := [{ idx := 2, tries := 0, active := true }] })), by decide +kernel⟩

theorem witness_MacReceive_noAckEnd :
    ∃ (desc : BitVec 8) (w : RxWin) (d : MacDesc) (s : State), (s.radioOn = true) ∧ (MacQuiet s) ∧ (s.mac.wins = [w]) ∧ (w.kind = .ackWait desc.toNat) ∧ (s.winPending w = false) ∧ (s.mac.descs = [d]) ∧ (d.idx = desc.toNat) ∧ (s.retries desc.toNat < d.tries) :=
  ⟨(2), (⟨.ackWait 2, 0, 100, 50, [48], 0, false⟩), ({ idx := 2, tries := 9, active := true }), ((radioUp.put MAC_TXQBASE.ADDR 0x10020).modMac (fun m => { m with wins := [⟨.ackWait 2, 0, 100, 50, [48], 0, false⟩], descs := [{ idx := 2, tries := 9, active := true }] })), by decide +kernel⟩

theorem witness_MacReceive_ackOther :
    ∃ (desc : BitVec 8) (s : State), (s.radioOn = true) ∧ (MacQuiet s) ∧ (∀ w ∈ s.mac.wins, w.kind ≠ .ackWait desc.toNat) :=
  ⟨(2), (radioUp), by decide +kernel⟩

theorem witness_MacReceive_parent :
    ∃ (s : State), (Core Reg.MAC_PARENT s) ∧ (MacQuiet s) :=
  ⟨(radioUp), by decide +kernel⟩

theorem witness_MacReceive_zephyr :
    ∃ (chips : BitVec 64) (i : Fin 8) (s : State), (s.zephHears = true) ∧ (syncErrors (((List.range 64).map (fun k => chips.getLsbD (63 - k))).take 32) (s.get ZEPH_CTRL.SYNC) ≤ min 4 (s.get ZEPH_CTRL.SYNCERR)) ∧ (s.zephEntry (((List.range 64).map (fun k => chips.getLsbD (63 - k))).drop 32) = some i) ∧ (s.power.st = .run ∨ s.power.st = .idle) ∧ (s.radioOn = true) ∧ (s.planChan (s.get ZEPH_HAND.LANE) = true) :=
  ⟨(0x5555555555555555#64), (2), (zephAt), by decide +kernel⟩

theorem witness_MacReceive_zephyrNoLane :
    ∃ (chips : BitVec 64) (i : Fin 8) (s : State), (s.zephHears = true) ∧ (syncErrors (((List.range 64).map (fun k => chips.getLsbD (63 - k))).take 32) (s.get ZEPH_CTRL.SYNC) ≤ min 4 (s.get ZEPH_CTRL.SYNCERR)) ∧ (s.zephEntry (((List.range 64).map (fun k => chips.getLsbD (63 - k))).drop 32) = some i) ∧ (s.power.st = .run ∨ s.power.st = .idle) ∧ (s.radioOn = true) ∧ (s.planChan (s.get ZEPH_HAND.LANE) = false) :=
  ⟨(0x5555555555555555#64), (2), (zephAt.put ZEPH_HAND.LANE 0), by decide +kernel⟩

theorem witness_MacReceive_zephyrSleep :
    ∃ (chips : BitVec 64) (i : Fin 8) (s : State), (s.zephHears = true) ∧ (syncErrors (((List.range 64).map (fun k => chips.getLsbD (63 - k))).take 32) (s.get ZEPH_CTRL.SYNC) ≤ min 4 (s.get ZEPH_CTRL.SYNCERR)) ∧ (s.zephEntry (((List.range 64).map (fun k => chips.getLsbD (63 - k))).drop 32) = some i) ∧ (s.power.st = .sleep ∨ s.power.st = .deepSleep) ∧ (s.radioOn = false) ∧ (s.wakeEnabled .zeph = true) :=
  ⟨(0x5555555555555555#64), (2), ({ (zephAt.put SYSC_PDSTAT.RADIO 0).setReg Reg.SYSC_WAKEEN 0x40 with power := { zephAt.power with st := .sleep } }), by decide +kernel⟩

theorem witness_MacReceive_zephyrNoAddress :
    ∃ (chips : BitVec 64) (s : State), (s.zephHears = true) ∧ (syncErrors (((List.range 64).map (fun k => chips.getLsbD (63 - k))).take 32) (s.get ZEPH_CTRL.SYNC) ≤ min 4 (s.get ZEPH_CTRL.SYNCERR)) ∧ (s.zephEntry (((List.range 64).map (fun k => chips.getLsbD (63 - k))).drop 32) = none) :=
  ⟨(0x5555555555555554#64), (zephAt), by decide +kernel⟩

theorem witness_MacReceive_zephyrErrors :
    ∃ (chips : BitVec 64) (s : State), (s.zephHears = false ∨ min 4 (s.get ZEPH_CTRL.SYNCERR) < syncErrors (((List.range 64).map (fun k => chips.getLsbD (63 - k))).take 32) (s.get ZEPH_CTRL.SYNC)) :=
  ⟨(0xFFFFFFFFFFFFFFFF#64), (zephAt), by decide +kernel⟩

theorem witness_MacReceive_handoff :
    ∃ (s : State), (s.radioOn = true) ∧ (s.mac.hand.isSome = true) :=
  ⟨(radioUp.modMac (fun m => { m with hand := some 0 })), by decide +kernel⟩

theorem witness_MacReceive_handoffNone :
    ∃ (s : State), (s.radioOn = false ∨ s.mac.hand = none) :=
  ⟨(radioUp), by decide +kernel⟩

theorem witness_MacReceive_synconly :
    ∃ (s : State), (s.zephHears = true) :=
  ⟨(radioUp.put ZEPH_CTRL.EN 1), by decide +kernel⟩

theorem witness_MacReceive_synconlyDeaf :
    ∃ (s : State), (s.zephHears = false) :=
  ⟨(radioUp), by decide +kernel⟩

theorem witness_SecurityCommands_ecbEncrypt :
    ∃ (key : List Byte) (text : List Byte) (s : State), (SecHead 0x01 s) ∧ (s.secField 12 4 % 16 = 0) ∧ (secRange (s.secField 4 4) (s.secField 12 4) false = true) ∧ (secRange (s.secField 8 4) (s.secField 12 4) true = true) ∧ (s.secKey (s.secField 1 1) 0x10 = .inr key) ∧ (secGot [(s.secField 4 4, s.secField 12 4)] s = some [text]) ∧ (SecClear (s.secField 8 4) (s.secField 12 4) s) :=
  ⟨(List.replicate 16 7), (List.replicate 16 0), (secAt [0x01, 3, 0, 0] 16), by decide +kernel⟩

theorem witness_SecurityCommands_ecbDecrypt :
    ∃ (key : List Byte) (text : List Byte) (s : State), (SecHead 0x02 s) ∧ (s.secField 12 4 % 16 = 0) ∧ (secRange (s.secField 4 4) (s.secField 12 4) false = true) ∧ (secRange (s.secField 8 4) (s.secField 12 4) true = true) ∧ (s.secKey (s.secField 1 1) 0x10 = .inr key) ∧ (secGot [(s.secField 4 4, s.secField 12 4)] s = some [text]) ∧ (SecClear (s.secField 8 4) (s.secField 12 4) s) :=
  ⟨(List.replicate 16 7), (List.replicate 16 0), (secAt [0x02, 3, 0, 0] 16), by decide +kernel⟩

theorem witness_SecurityCommands_ccmEncrypt :
    ∃ (key : List Byte) (n : List Byte) (a : List Byte) (d : List Byte) (s : State), (SecHead 0x03 s) ∧ (micLenOk (s.secField 2 1) = true) ∧ (s.secField 12 4 < 65536) ∧ (secRange (s.secField 4 4) (s.secField 12 4) false = true) ∧ (secRange (s.secField 8 4) (s.secField 12 4) true = true) ∧ (secRange (s.secField 16 4) (s.secField 20 2) false = true) ∧ (secRange (s.secField 24 4) 13 false = true) ∧ (secRange (s.secField 28 4) (s.secField 2 1) true = true) ∧ (s.secKey (s.secField 1 1) 0x10 = .inr key) ∧ (secGot [(s.secField 24 4, 13), (s.secField 16 4, s.secField 20 2), (s.secField 4 4, s.secField 12 4)] s = some [n, a, d]) ∧ (SecClear (s.secField 8 4) (s.secField 12 4) s) ∧ (SecClear (s.secField 28 4) (s.secField 2 1) s) ∧ (s.secField 8 4 + s.secField 12 4 ≤ s.secField 28 4 ∨ s.secField 28 4 + s.secField 2 1 ≤ s.secField 8 4) :=
  ⟨(List.replicate 16 7), (List.replicate 13 0), (List.replicate 8 0), (List.replicate 16 0), (secAt [0x03, 3, 4, 0] 16), by decide +kernel⟩

theorem witness_SecurityCommands_ccmDecryptVerify :
    ∃ (key : List Byte) (n : List Byte) (a : List Byte) (d : List Byte) (mic : List Byte) (s : State), (SecHead 0x04 s) ∧ (micLenOk (s.secField 2 1) = true) ∧ (s.secField 12 4 < 65536) ∧ (secRange (s.secField 4 4) (s.secField 12 4) false = true) ∧ (secRange (s.secField 8 4) (s.secField 12 4) true = true) ∧ (secRange (s.secField 16 4) (s.secField 20 2) false = true) ∧ (secRange (s.secField 24 4) 13 false = true) ∧ (secRange (s.secField 28 4) (s.secField 2 1) false = true) ∧ (s.secKey (s.secField 1 1) 0x10 = .inr key) ∧ (secGot [(s.secField 24 4, 13), (s.secField 16 4, s.secField 20 2), (s.secField 4 4, s.secField 12 4), (s.secField 28 4, s.secField 2 1)] s = some [n, a, d, mic]) ∧ (SecClear (s.secField 8 4) (s.secField 12 4) s) :=
  ⟨(List.replicate 16 7), (List.replicate 13 0), (List.replicate 8 0), (List.replicate 16 0), (List.replicate 4 0), (secAt [0x04, 3, 4, 0] 16), by decide +kernel⟩

theorem witness_SecurityCommands_cmac :
    ∃ (key : List Byte) (d : List Byte) (s : State), (SecHead 0x05 s) ∧ (micLenOk (s.secField 2 1) = true) ∧ (secRange (s.secField 4 4) (s.secField 12 4) false = true) ∧ (secRange (s.secField 28 4) (s.secField 2 1) true = true) ∧ (s.secKey (s.secField 1 1) 0x18 = .inr key) ∧ (secGot [(s.secField 4 4, s.secField 12 4)] s = some [d]) ∧ (SecClear (s.secField 28 4) (s.secField 2 1) s) :=
  ⟨(List.replicate 16 7), (List.replicate 16 0), (secAt [0x05, 3, 4, 0] 16), by decide +kernel⟩

theorem witness_SecurityCommands_unaligned :
    ∃ (c : Instr) (op : Nat) (s : State), ((c, op) ∈ [(Instr.ecbEncrypt, 0x01), (.ecbDecrypt, 0x02)]) ∧ (SecHead op s) ∧ (s.secField 12 4 % 16 ≠ 0) :=
  ⟨(.ecbDecrypt), (2), (secAt [0x02, 3, 0, 0] 15), by decide +kernel⟩

theorem witness_SecurityCommands_badMic :
    ∃ (c : Instr) (op : Nat) (s : State), ((c, op) ∈ [(Instr.ccmEncrypt, 0x03), (.ccmDecryptVerify, 0x04), (.cmacCommand, 0x05)]) ∧ (SecHead op s) ∧ (micLenOk (s.secField 2 1) = false) :=
  ⟨(.cmacCommand), (5), (secAt [0x05, 3, 5, 0] 16), by decide +kernel⟩

theorem witness_SecurityCommands_badRange :
    ∃ (c : Instr) (op : Nat) (s : State), ((c, op) ∈ [(Instr.ecbEncrypt, 0x01), (.ecbDecrypt, 0x02), (.ccmEncrypt, 0x03), (.ccmDecryptVerify, 0x04), (.cmacCommand, 0x05)]) ∧ (SecHead op s) ∧ (secRange (s.secField 4 4) (s.secField 12 4) false = false) :=
  ⟨(.ecbEncrypt), (1), ((secAt [0x01, 3, 0, 0] 16).wn 0x20020004 4 0x30000000), by decide +kernel⟩

theorem witness_SecurityCommands_noKey :
    ∃ (c : Instr) (op : Nat) (st : Nat) (s : State), ((c, op) ∈ [(Instr.ecbEncrypt, 0x01), (.ecbDecrypt, 0x02)]) ∧ (SecHead op s) ∧ (s.secField 12 4 % 16 = 0) ∧ (secRange (s.secField 4 4) (s.secField 12 4) false = true) ∧ (secRange (s.secField 8 4) (s.secField 12 4) true = true) ∧ (s.secKey (s.secField 1 1) 0x10 = .inl st) :=
  ⟨(.ecbEncrypt), (1), (secNokey), (secAt [0x01, 4, 0, 0] 16), by decide +kernel⟩

theorem witness_SecurityCommands_ccmNoKey :
    ∃ (c : Instr) (op : Nat) (st : Nat) (s : State), ((c, op) ∈ [(Instr.ccmEncrypt, 0x03), (.ccmDecryptVerify, 0x04)]) ∧ (SecHead op s) ∧ (micLenOk (s.secField 2 1) = true) ∧ (s.secField 12 4 < 65536) ∧ (secRange (s.secField 4 4) (s.secField 12 4) false = true) ∧ (secRange (s.secField 8 4) (s.secField 12 4) true = true) ∧ (secRange (s.secField 16 4) (s.secField 20 2) false = true) ∧ (secRange (s.secField 24 4) 13 false = true) ∧ (secRange (s.secField 28 4) (s.secField 2 1) (decide (op = 0x03)) = true) ∧ (s.secKey (s.secField 1 1) 0x10 = .inl st) :=
  ⟨(.ccmEncrypt), (3), (secNokey), (secAt [0x03, 4, 4, 0] 16), by decide +kernel⟩

theorem witness_SecurityCommands_load :
    ∃ (st : Nat) (blob : List Byte) (s : State), (SecHead 0x10 s) ∧ (s.secField 12 4 ≤ 64) ∧ (secRange (s.secField 4 4) (s.secField 12 4) false = true) ∧ (secGot [(s.secField 4 4, s.secField 12 4)] s = some [blob]) ∧ (loadTests (s.secField 1 1) blob s = st) ∧ (st ≠ secOk) :=
  ⟨(secNowrap), (List.replicate 48 0), (secAt [0x10, 3, 0, 0] 48), by decide +kernel⟩

theorem witness_SecurityCommands_loaded :
    ∃ (blob : List Byte) (s : State), (SecHead 0x10 s) ∧ (s.secField 12 4 ≤ 64) ∧ (secRange (s.secField 4 4) (s.secField 12 4) false = true) ∧ (secGot [(s.secField 4 4, s.secField 12 4)] s = some [blob]) ∧ (loadTests (s.secField 1 1) blob s = secOk) :=
  ⟨(loadBlob), (loadAt), by decide +kernel⟩

theorem witness_SecurityCommands_loadLong :
    ∃ (s : State), (SecHead 0x10 s) ∧ (64 < s.secField 12 4) ∧ (s.wkeys = true) :=
  ⟨(loadAt.wn 0x2002000C 4 65), by decide +kernel⟩

theorem witness_SecurityCommands_erase :
    ∃ (s : State), (SecHead 0x11 s) ∧ (s.secField 1 1 < 32) :=
  ⟨(secAt [0x11, 3, 0, 0] 0), by decide +kernel⟩

theorem witness_SecurityCommands_eraseBad :
    ∃ (s : State), (SecHead 0x11 s) ∧ (32 ≤ s.secField 1 1) :=
  ⟨(secAt [0x11, 32, 0, 0] 0), by decide +kernel⟩

theorem witness_SecurityCommands_undefined :
    ∃ (c : Instr) (s : State), (c ∈ ([.ecbEncrypt, .ecbDecrypt, .ccmEncrypt, .ccmDecryptVerify, .cmacCommand, .keyLoad, .keyErase] : List Instr)) ∧ (s.secClocked = true) ∧ (s.on SEC_CMDBASE.EN = true) ∧ (s.get SEC_CMDPTR.HEAD ≠ s.get SEC_CMDPTR.TAIL) ∧ (inSram s.secDesc 32 = true) ∧ (s.secField 0 1 ∉ [1, 2, 3, 4, 5, 0x10, 0x11]) :=
  ⟨(.cmacCommand), (secAt [0x09, 3, 0, 0] 16), by decide +kernel⟩

theorem witness_SecurityCommands_other :
    ∃ (c : Instr) (op : Nat) (s : State), ((c, op) ∈ ([(.ecbEncrypt, 0x01), (.ecbDecrypt, 0x02), (.ccmEncrypt, 0x03), (.ccmDecryptVerify, 0x04), (.cmacCommand, 0x05), (.keyLoad, 0x10), (.keyErase, 0x11)] : List (Instr × Nat))) ∧ (inSram s.secDesc 32 = true) ∧ (s.secField 0 1 ∈ [1, 2, 3, 4, 5, 0x10, 0x11]) ∧ (s.secField 0 1 ≠ op) :=
  ⟨(.cmacCommand), (5), (secAt [0x01, 3, 0, 0] 16), by decide +kernel⟩

theorem witness_SecurityCommands_idle :
    ∃ (c : Instr) (s : State), (c ∈ ([.ecbEncrypt, .ecbDecrypt, .ccmEncrypt, .ccmDecryptVerify, .cmacCommand, .keyLoad, .keyErase] : List Instr)) ∧ (s.secClocked = false ∨ s.on SEC_CMDBASE.EN = false ∨ s.get SEC_CMDPTR.HEAD = s.get SEC_CMDPTR.TAIL) :=
  ⟨(.keyErase), ((secAt [0x11, 3, 0, 0] 16).put SEC_CMDPTR.HEAD 0), by decide +kernel⟩

theorem witness_SecurityCommands_outside :
    ∃ (c : Instr) (s : State), (c ∈ ([.ecbEncrypt, .ecbDecrypt, .ccmEncrypt, .ccmDecryptVerify, .cmacCommand, .keyLoad, .keyErase] : List Instr)) ∧ (s.secClocked = true) ∧ (s.on SEC_CMDBASE.EN = true) ∧ (s.get SEC_CMDPTR.HEAD ≠ s.get SEC_CMDPTR.TAIL) ∧ (inSram s.secDesc 32 = false) :=
  ⟨(.keyErase), ((secAt [0x11, 3, 0, 0] 16).put SEC_CMDBASE.ADDR 0x180000), by decide +kernel⟩

theorem witness_SecurityCommands_alarmed :
    ∃ (c : Instr) (op : Nat) (s : State), ((c, op) ∈ ([(.ecbEncrypt, 0x01), (.ecbDecrypt, 0x02), (.ccmEncrypt, 0x03), (.ccmDecryptVerify, 0x04), (.cmacCommand, 0x05), (.keyLoad, 0x10), (.keyErase, 0x11)] : List (Instr × Nat))) ∧ (s.secClocked = true) ∧ (s.on SEC_CMDBASE.EN = true) ∧ (s.get SEC_CMDPTR.HEAD ≠ s.get SEC_CMDPTR.TAIL) ∧ (inSram s.secDesc 32 = true) ∧ (s.secField 0 1 = op) ∧ (s.on SEC_ALMSTAT.LATCHED = true) :=
  ⟨(.ecbEncrypt), (1), ((secAt [0x01, 3, 0, 0] 16).put SEC_ALMSTAT.LATCHED 1), by decide +kernel⟩

theorem witness_SecurityCommands_busFault :
    ∃ (c : Instr) (op : Nat) (key : List Byte) (s : State), ((c, op) ∈ [(Instr.ecbEncrypt, 0x01), (.ecbDecrypt, 0x02)]) ∧ (SecHead op s) ∧ (s.secField 12 4 % 16 = 0) ∧ (secRange (s.secField 4 4) (s.secField 12 4) false = true) ∧ (secRange (s.secField 8 4) (s.secField 12 4) true = true) ∧ (s.secKey (s.secField 1 1) 0x10 = .inr key) ∧ ((dmaRead .secDma (s.secField 4 4) (s.secField 12 4) s).2 = .fault) :=
  ⟨(.ecbEncrypt), (1), (List.replicate 16 7), ((secAt [0x01, 3, 0, 0] 16).wn 0x20020004 4 0x10000000), by decide +kernel⟩

theorem witness_SecurityCommands_waits :
    ∃ (c : Instr) (op : Nat) (key : List Byte) (s : State), ((c, op) ∈ [(Instr.ecbEncrypt, 0x01), (.ecbDecrypt, 0x02)]) ∧ (SecHead op s) ∧ (s.secField 12 4 % 16 = 0) ∧ (secRange (s.secField 4 4) (s.secField 12 4) false = true) ∧ (secRange (s.secField 8 4) (s.secField 12 4) true = true) ∧ (s.secKey (s.secField 1 1) 0x10 = .inr key) ∧ ((dmaRead .secDma (s.secField 4 4) (s.secField 12 4) s).2 = .wait) :=
  ⟨(.ecbEncrypt), (1), (List.replicate 16 7), ((secAt [0x01, 3, 0, 0] 16).wn 0x20020004 4 0x08000000), by decide +kernel⟩

theorem witness_ModularUnit_montgomery :
    ∃ (b : BitVec 3) (a : BitVec 3) (s : State), (Core Reg.SEC_BNCMD s) ∧ (s.on SEC_BNCMD.GO = false) ∧ (bnOp s 7 % 2 = 1) ∧ (bnOp s a < bnOp s 7) ∧ (bnOp s b < bnOp s 7) :=
  ⟨(1), (0), (bnAt), by decide +kernel⟩

theorem witness_ModularUnit_add :
    ∃ (b : BitVec 3) (a : BitVec 3) (s : State), (Core Reg.SEC_BNCMD s) ∧ (s.on SEC_BNCMD.GO = false) ∧ (bnOp s a < bnOp s 7) ∧ (bnOp s b < bnOp s 7) :=
  ⟨(1), (0), (bnAt), by decide +kernel⟩

theorem witness_ModularUnit_subtract :
    ∃ (b : BitVec 3) (a : BitVec 3) (s : State), (Core Reg.SEC_BNCMD s) ∧ (s.on SEC_BNCMD.GO = false) ∧ (bnOp s a < bnOp s 7) ∧ (bnOp s b < bnOp s 7) :=
  ⟨(1), (0), (bnAt), by decide +kernel⟩

theorem witness_ModularUnit_open :
    ∃ (c : Instr) (d : BitVec 3) (b : BitVec 3) (a : BitVec 3) (s : State), (Core Reg.SEC_BNCMD s) ∧ (s.on SEC_BNCMD.GO = false) ∧ (c ∈ [.montgomeryMultiply d b a, .modularAdd d b a, .modularSubtract d b a]) ∧ (bnOp s 7 ≤ bnOp s a ∨ bnOp s 7 ≤ bnOp s b) :=
  ⟨(.modularAdd 2 1 0), (2), (1), (0), (bnAt.modSec (fun x => { x with bn := x.bn.set 7 2 })), by decide +kernel⟩

theorem witness_ModularUnit_openEven :
    ∃ (s : State), (Core Reg.SEC_BNCMD s) ∧ (s.on SEC_BNCMD.GO = false) ∧ (bnOp s 7 % 2 = 0) :=
  ⟨(bnAt.modSec (fun x => { x with bn := x.bn.set 7 8 })), by decide +kernel⟩

theorem witness_ModularUnit_discarded :
    ∃ (c : Instr) (d : BitVec 3) (b : BitVec 3) (a : BitVec 3) (s : State), (Core Reg.SEC_BNCMD s) ∧ (s.on SEC_BNCMD.GO = true) ∧ (c ∈ [.montgomeryMultiply d b a, .modularAdd d b a, .modularSubtract d b a]) :=
  ⟨(.modularAdd 2 1 0), (2), (1), (0), (bnAt.put SEC_BNCMD.GO 1), by decide +kernel⟩

theorem witness_ModularUnit_done :
    ∃ (d : Fin 8) (v : BitVec 256) (s : State), (s.secClocked = true) ∧ (s.sec.bnRes = some (d, v)) :=
  ⟨(2), (5), (bnAt.modSec (fun x => { x with bnRes := some (2, 5) })), by decide +kernel⟩

theorem witness_ModularUnit_doneNone :
    ∃ (s : State), (s.secClocked = false ∨ s.sec.bnRes = none) :=
  ⟨(bnAt), by decide +kernel⟩

theorem witness_CountersAndAlarms_reserve :
    ∃ (n : Fin 32) (s : State), (s.secClocked = true) ∧ (s.counts n = true) ∧ ((s.counter n).resv = none) ∧ ((s.counter n).exhausted = false) ∧ ((s.counter n).durable.all (fun d => decide (d + 1024 < 2 ^ 32) && decide (1024 - s.resLead + d ≤ (s.counter n).next)) = true) ∧ (s.on SEC_LEDGER.EN = false) ∧ (s.pairState ≠ pairActive) :=
  ⟨(3), (ctrAt), by decide +kernel⟩

theorem witness_CountersAndAlarms_reserveLedger :
    ∃ (n : Fin 32) (s : State), (s.secClocked = true) ∧ (s.counts n = true) ∧ ((s.counter n).resv = none) ∧ ((s.counter n).exhausted = false) ∧ ((s.counter n).durable.all (fun d => decide (d + 1024 < 2 ^ 32) && decide (1024 - s.resLead + d ≤ (s.counter n).next)) = true) ∧ (s.on SEC_LEDGER.EN = true) ∧ (s.pairState ≠ pairActive) ∧ (s.sec.ledgBusy = true) :=
  ⟨(3), ((ctrAt.put SEC_LEDGER.EN 1).modSec (fun x => { x with ledgBusy := true })), by decide +kernel⟩

theorem witness_CountersAndAlarms_reservePair :
    ∃ (n : Fin 32) (s : State), (s.secClocked = true) ∧ (s.counts n = true) ∧ ((s.counter n).resv = none) ∧ ((s.counter n).exhausted = false) ∧ ((s.counter n).durable.all (fun d => decide (d + 1024 < 2 ^ 32) && decide (1024 - s.resLead + d ≤ (s.counter n).next)) = true) ∧ (s.on SEC_LEDGER.EN = false) ∧ (s.pairState = pairActive) ∧ (s.on TWIL_STAT.LINK = false) :=
  ⟨(3), (ctrAt.put TWIL_STAT.STATE 3), by decide +kernel⟩

theorem witness_CountersAndAlarms_early :
    ∃ (n : Fin 32) (d : Nat) (s : State), ((s.counter n).durable = some d) ∧ ((s.counter n).next < 1024 - s.resLead + d) :=
  ⟨(3), (0), (ctrAt.modCtr 3 (fun c => { c with next := 10 })), by decide +kernel⟩

theorem witness_CountersAndAlarms_notDue :
    ∃ (n : Fin 32) (s : State), (s.secClocked = false ∨ s.counts n = false ∨ (s.counter n).resv.isSome = true ∨ (s.counter n).exhausted = true) :=
  ⟨(4), (ctrAt), by decide +kernel⟩

theorem witness_CountersAndAlarms_durable :
    ∃ (n : Fin 32) (r : Resv) (s : State), ((s.counter n).resv = some r) ∧ (r.ledger = true ∨ s.on SEC_LEDGER.EN = false) ∧ (r.ack = true ∨ r.late = true ∨ s.pairState ≠ pairActive) :=
  ⟨(3), (⟨1024, true, true, false⟩), (ctrAt.modCtr 3 (fun c => { c with resv := some ⟨1024, true, true, false⟩ })), by decide +kernel⟩

theorem witness_CountersAndAlarms_durableNot :
    ∃ (n : Fin 32) (r : Resv) (s : State), ((s.counter n).resv = some r) ∧ ((r.ledger = false ∧ s.on SEC_LEDGER.EN = true) ∨ (r.ack = false ∧ r.late = false ∧ s.pairState = pairActive)) :=
  ⟨(3), (⟨1024, true, false, false⟩), ((ctrAt.put TWIL_STAT.STATE 3).modCtr 3 (fun c => { c with resv := some ⟨1024, true, false, false⟩ })), by decide +kernel⟩

theorem witness_CountersAndAlarms_timeout :
    ∃ (n : Fin 32) (r : Resv) (s : State), ((s.counter n).resv = some r) ∧ (r.ledger = true ∨ s.on SEC_LEDGER.EN = false) :=
  ⟨(3), (⟨1024, true, false, false⟩), ((ctrAt.put TWIL_STAT.STATE 3).modCtr 3 (fun c => { c with resv := some ⟨1024, true, false, false⟩ })), by decide +kernel⟩

theorem witness_CountersAndAlarms_timeoutLedger :
    ∃ (n : Fin 32) (r : Resv) (s : State), ((s.counter n).resv = some r) ∧ (r.ledger = false) ∧ (s.on SEC_LEDGER.EN = true) :=
  ⟨(3), (⟨1024, false, false, false⟩), ((ctrAt.put SEC_LEDGER.EN 1).modCtr 3 (fun c => { c with resv := some ⟨1024, false, false, false⟩ })), by decide +kernel⟩

theorem witness_CountersAndAlarms_noReservation :
    ∃ (n : Fin 32) (c : Instr) (s : State), (c ∈ [.reservationDurable n, .reservationAckTimeout n]) ∧ ((s.counter n).resv = none) :=
  ⟨(3), (.reservationDurable 3), (ctrAt), by decide +kernel⟩

theorem witness_CountersAndAlarms_alarm :
    ∃ (src : BitVec 4) (s : State), ((src.toNat &&& ((s.reg Reg.SEC_ALMCFG).toNat % 16)) ≠ 0) ∧ (s.power.st ≠ .off) ∧ (s.power.st ≠ .reset ∨ s.power.por = false ∨ s.power.vbatLow = false) :=
  ⟨(1), (ctrAt.setReg Reg.SEC_ALMCFG 0xF), by decide +kernel⟩

theorem witness_CountersAndAlarms_alarmNone :
    ∃ (src : BitVec 4) (s : State), ((src.toNat &&& ((s.reg Reg.SEC_ALMCFG).toNat % 16)) = 0 ∨ s.power.st = .off ∨ (s.power.st = .reset ∧ s.power.por = true ∧ s.power.vbatLow = true)) :=
  ⟨(8), (ctrAt.setReg Reg.SEC_ALMCFG 7), by decide +kernel⟩

theorem witness_CountersAndAlarms_almcfg :
    ∃ (s : State), (Core Reg.SEC_ALMCFG s) :=
  ⟨(State.reset), by decide +kernel⟩

theorem witness_CountersAndAlarms_epoch :
    ∃ (s : State), (Core Reg.SEC_EPOCH s) :=
  ⟨(State.reset), by decide +kernel⟩

theorem witness_CountersAndAlarms_ledgerBad :
    ∃ (d : Word) (s : State), (Core Reg.SEC_LEDGER s) ∧ (s.on SEC_LEDGER.EN = false) ∧ (SEC_LEDGER.EN.of d = 1) ∧ ((SEC_LEDGER.FIRST.of d < 388 || 495 < SEC_LEDGER.FIRST.of d + SEC_LEDGER.NBLK.of d - 1 || SEC_LEDGER.NBLK.of d < 2 || 16 < SEC_LEDGER.NBLK.of d) = true) :=
  ⟨(0x80000002), (State.reset), by decide +kernel⟩

theorem witness_CountersAndAlarms_ledgerOn :
    ∃ (d : Word) (s : State), (Core Reg.SEC_LEDGER s) ∧ (s.on SEC_LEDGER.EN = false) ∧ (SEC_LEDGER.EN.of d = 1) ∧ ((SEC_LEDGER.FIRST.of d < 388 || 495 < SEC_LEDGER.FIRST.of d + SEC_LEDGER.NBLK.of d - 1 || SEC_LEDGER.NBLK.of d < 2 || 16 < SEC_LEDGER.NBLK.of d) = false) :=
  ⟨(0x81900002), (State.reset), by decide +kernel⟩

theorem witness_CountersAndAlarms_ledgerPlace :
    ∃ (d : Word) (s : State), (Core Reg.SEC_LEDGER s) ∧ (s.on SEC_LEDGER.EN = false) ∧ (SEC_LEDGER.EN.of d = 0) :=
  ⟨(0x01900002), (State.reset), by decide +kernel⟩

theorem witness_CountersAndAlarms_ledgerKept :
    ∃ (s : State), (Core Reg.SEC_LEDGER s) ∧ (s.on SEC_LEDGER.EN = true) :=
  ⟨(State.reset.put SEC_LEDGER.EN 1), by decide +kernel⟩

theorem witness_CipherRoundTrip_ecb : ∃ key text : List Byte, key.length ∈ [16, 32] ∧ text.length % 16 = 0 :=
  ⟨List.replicate 16 1, List.replicate 32 2, by decide, by decide⟩

theorem witness_CipherRoundTrip_ccm : ∃ key nonce text : List Byte, key.length ∈ [16, 32] ∧ nonce.length = 13 ∧ text.length = 20 :=
  ⟨List.replicate 32 1, List.replicate 13 2, List.replicate 20 3, by decide, by decide, by decide⟩

theorem witness_CipherRoundTrip_xts : ∃ k1 k2 b : List Byte, k1.length ∈ [16, 32] ∧ k2.length ∈ [16, 32] ∧ b.length = 16 :=
  ⟨List.replicate 16 1, List.replicate 16 2, List.replicate 16 3, by decide, by decide, by decide⟩

theorem witness_CipherRoundTrip_syllable : ∃ y : Syl, y.inFormat = true ∧ y.op ≠ .undef :=
  ⟨{ op := .ldwpi, rd := 4, rs1 := 2, imm := 4 }, by decide, by decide⟩

theorem witness_CipherRoundTrip_word : ∃ w : Word, (decodeSyl w).2.op ≠ .undef := ⟨0x56208004, by decide⟩

theorem witness_TableCommands_lookup :
    ∃ (short : Bool) (route : Bool) (i : Nat) (s : State), (Core Reg.TBL_CMD s) ∧ ((if short then s.findShort (if route then kRoute else kPeer) ((s.reg Reg.TBL_KEY_LO).toNat / 65536) ((s.reg Reg.TBL_KEY_LO).toNat % 65536) else s.findExt (if route then kRoute else kPeer) ((s.reg Reg.TBL_KEY_HI).toNat * 2 ^ 32 + (s.reg Reg.TBL_KEY_LO).toNat)) = some i) ∧ (i < 8192) ∧ (route = false ∨ s.isPeer (eN (s.entry i) 6 2) = true) :=
  ⟨(false), (false), (5), ((tblAt.setReg Reg.TBL_KEY_LO 0x11).setReg Reg.TBL_KEY_HI 0), by decide +kernel⟩

theorem witness_TableCommands_nextBad :
    ∃ (short : Bool) (i : Nat) (s : State), (Core Reg.TBL_CMD s) ∧ ((if short then s.findShort kRoute ((s.reg Reg.TBL_KEY_LO).toNat / 65536) ((s.reg Reg.TBL_KEY_LO).toNat % 65536) else s.findExt kRoute ((s.reg Reg.TBL_KEY_HI).toNat * 2 ^ 32 + (s.reg Reg.TBL_KEY_LO).toNat)) = some i) ∧ (i < 8192) ∧ (s.isPeer (eN (s.entry i) 6 2) = false) :=
  ⟨(true), (7), ((tblAt.wbytes (tblAddr 7) [2, 2, 0x34, 0x12, 0xCD, 0xAB, 9, 0]).setReg Reg.TBL_KEY_LO 0xABCD1234), by decide +kernel⟩

theorem witness_TableCommands_miss :
    ∃ (short : Bool) (route : Bool) (s : State), (Core Reg.TBL_CMD s) ∧ ((if short then s.findShort (if route then kRoute else kPeer) ((s.reg Reg.TBL_KEY_LO).toNat / 65536) ((s.reg Reg.TBL_KEY_LO).toNat % 65536) else s.findExt (if route then kRoute else kPeer) ((s.reg Reg.TBL_KEY_HI).toNat * 2 ^ 32 + (s.reg Reg.TBL_KEY_LO).toNat)) = none) :=
  ⟨(true), (true), (tblAt), by decide +kernel⟩

theorem witness_TableCommands_read :
    ∃ (idx : BitVec 13) (s : State), (Core Reg.TBL_CMD s) ∧ (s.eKind idx.toNat ≠ kFree) :=
  ⟨(5), (tblAt), by decide +kernel⟩

theorem witness_TableCommands_readEmpty :
    ∃ (idx : BitVec 13) (s : State), (Core Reg.TBL_CMD s) ∧ (s.eKind idx.toNat = kFree) :=
  ⟨(6), (tblAt), by decide +kernel⟩

theorem witness_TableCommands_add :
    ∃ (auto : Bool) (idx : BitVec 13) (s : State), (Core Reg.TBL_CMD s) ∧ (s.standby = false) ∧ (entryOk s.tblData = true) ∧ ((if auto then s.lowestFree else idx.toNat) < 8192) ∧ (s.eKind (if auto then s.lowestFree else idx.toNat) = kFree) ∧ (((s.tblUsed.filter (· ≠ (if auto then s.lowestFree else idx.toNat))).filter (fun j => s.eKind j == eN s.tblData 0 1)).length < s.quota (eN s.tblData 0 1)) ∧ ((s.tblUsed.filter (· ≠ (if auto then s.lowestFree else idx.toNat))).any (fun j => sameKey (s.entry j) s.tblData) = false) ∧ ((eN s.tblData 0 1 == kPeer && eN s.tblData 6 1 != 255 && (s.resOf (eN s.tblData 6 1)).isSome && s.resOf (eN s.tblData 6 1) != some (eN s.tblData 7 1)) = false) :=
  ⟨(true), (6), (tblDataAt [1, 1, 0, 0, 0, 0, 255, 255, 0x22]), by decide +kernel⟩

theorem witness_TableCommands_badEntry :
    ∃ (s : State), (Core Reg.TBL_CMD s) ∧ (s.standby = false) ∧ (entryOk s.tblData = false) :=
  ⟨(tblDataAt [1, 0, 0, 0, 0, 0, 255, 255, 0x22]), by decide +kernel⟩

theorem witness_TableCommands_occupied :
    ∃ (idx : BitVec 13) (s : State), (Core Reg.TBL_CMD s) ∧ (s.standby = false) ∧ (entryOk s.tblData = true) ∧ (s.eKind idx.toNat ≠ kFree) :=
  ⟨(5), (tblDataAt [1, 1, 0, 0, 0, 0, 255, 255, 0x22]), by decide +kernel⟩

theorem witness_TableCommands_quota :
    ∃ (idx : BitVec 13) (s : State), (Core Reg.TBL_CMD s) ∧ (s.standby = false) ∧ (entryOk s.tblData = true) ∧ (s.eKind idx.toNat = kFree) ∧ (s.quota (eN s.tblData 0 1) ≤ ((s.tblUsed.filter (· ≠ idx.toNat)).filter (fun j => s.eKind j == eN s.tblData 0 1)).length) :=
  ⟨(6), ((tblDataAt [1, 1, 0, 0, 0, 0, 255, 255, 0x22]).put TBL_SPLIT.PQUOTA 1), by decide +kernel⟩

theorem witness_TableCommands_dupKey :
    ∃ (idx : BitVec 13) (s : State), (Core Reg.TBL_CMD s) ∧ (s.standby = false) ∧ (entryOk s.tblData = true) ∧ (s.eKind idx.toNat = kFree) ∧ (((s.tblUsed.filter (· ≠ idx.toNat)).filter (fun j => s.eKind j == eN s.tblData 0 1)).length < s.quota (eN s.tblData 0 1)) ∧ ((s.tblUsed.filter (· ≠ idx.toNat)).any (fun j => sameKey (s.entry j) s.tblData) = true) :=
  ⟨(6), (tblDataAt [1, 1, 0, 0, 0, 0, 255, 255, 0x11]), by decide +kernel⟩

theorem witness_TableCommands_ctrMap :
    ∃ (idx : BitVec 13) (s : State), (Core Reg.TBL_CMD s) ∧ (s.standby = false) ∧ (entryOk s.tblData = true) ∧ (s.eKind idx.toNat = kFree) ∧ (((s.tblUsed.filter (· ≠ idx.toNat)).filter (fun j => s.eKind j == eN s.tblData 0 1)).length < s.quota (eN s.tblData 0 1)) ∧ ((s.tblUsed.filter (· ≠ idx.toNat)).any (fun j => sameKey (s.entry j) s.tblData) = false) ∧ ((eN s.tblData 0 1 == kPeer && eN s.tblData 6 1 != 255 && (s.resOf (eN s.tblData 6 1)).isSome && s.resOf (eN s.tblData 6 1) != some (eN s.tblData 7 1)) = true) :=
  ⟨(6), ((tblDataAt [1, 1, 0, 0, 0, 0, 3, 4, 0x22]).wbytes (tblAddr 5) [1, 1, 0, 0, 0, 0, 3, 5, 0x11]), by decide +kernel⟩

theorem witness_TableCommands_standby :
    ∃ (c : Instr) (auto : Bool) (idx : BitVec 13) (s : State), (Core Reg.TBL_CMD s) ∧ (s.standby = true) ∧ (c ∈ [.tblAdd auto idx, .tblWrite idx, .tblDelete idx, .tblRefresh idx]) :=
  ⟨(.tblDelete 5), (false), (5), (tblAt.put TWIL_STAT.STATE 2), by decide +kernel⟩

theorem witness_TableCommands_write :
    ∃ (idx : BitVec 13) (s : State), (Core Reg.TBL_CMD s) ∧ (s.standby = false) ∧ (entryOk s.tblData = true) ∧ (s.eKind idx.toNat ≠ kFree) ∧ (((s.tblUsed.filter (· ≠ idx.toNat)).filter (fun j => s.eKind j == eN s.tblData 0 1)).length < s.quota (eN s.tblData 0 1)) ∧ ((s.tblUsed.filter (· ≠ idx.toNat)).any (fun j => sameKey (s.entry j) s.tblData) = false) ∧ ((eN s.tblData 0 1 == kPeer && eN s.tblData 6 1 != 255 && (s.resOf (eN s.tblData 6 1)).isSome && s.resOf (eN s.tblData 6 1) != some (eN s.tblData 7 1)) = false) :=
  ⟨(5), (tblDataAt [1, 3, 0, 0, 0, 0, 255, 255, 0x11]), by decide +kernel⟩

theorem witness_TableCommands_writeEmpty :
    ∃ (idx : BitVec 13) (s : State), (Core Reg.TBL_CMD s) ∧ (s.standby = false) ∧ (entryOk s.tblData = true) ∧ (s.eKind idx.toNat = kFree) :=
  ⟨(6), (tblDataAt [1, 1, 0, 0, 0, 0, 255, 255, 0x22]), by decide +kernel⟩

theorem witness_TableCommands_delete :
    ∃ (idx : BitVec 13) (s : State), (Core Reg.TBL_CMD s) ∧ (s.standby = false) ∧ (s.eKind idx.toNat ≠ kFree) ∧ ((s.isPeer idx.toNat && s.inUse idx.toNat) = false) :=
  ⟨(5), (tblAt), by decide +kernel⟩

theorem witness_TableCommands_inUse :
    ∃ (idx : BitVec 13) (s : State), (Core Reg.TBL_CMD s) ∧ (s.standby = false) ∧ (s.isPeer idx.toNat = true) ∧ (s.inUse idx.toNat = true) :=
  ⟨(5), ((tblAt.put MAC_PARENT.EN 1).put MAC_PARENT.ENTRY 5), by decide +kernel⟩

theorem witness_TableCommands_noEntry :
    ∃ (c : Instr) (idx : BitVec 13) (s : State), (Core Reg.TBL_CMD s) ∧ (s.standby = false) ∧ (s.eKind idx.toNat = kFree) ∧ (c ∈ [.tblDelete idx, .tblRefresh idx]) :=
  ⟨(.tblDelete 6), (6), (tblAt), by decide +kernel⟩

theorem witness_TableCommands_refresh :
    ∃ (idx : BitVec 13) (s : State), (Core Reg.TBL_CMD s) ∧ (s.standby = false) ∧ (s.eKind idx.toNat = kRoute) ∧ (s.time.valid = true) :=
  ⟨(7), ((tblAt.wbytes (tblAddr 7) [2, 1]).modTime (fun t => { t with valid := true })), by decide +kernel⟩

theorem witness_TableCommands_refreshNoTime :
    ∃ (idx : BitVec 13) (s : State), (Core Reg.TBL_CMD s) ∧ (s.standby = false) ∧ (s.eKind idx.toNat = kRoute) ∧ (s.time.valid = false) :=
  ⟨(7), (tblAt.wbytes (tblAddr 7) [2, 1]), by decide +kernel⟩

theorem witness_TableCommands_refreshPeer :
    ∃ (idx : BitVec 13) (s : State), (Core Reg.TBL_CMD s) ∧ (s.standby = false) ∧ (s.isPeer idx.toNat = true) :=
  ⟨(5), (tblAt), by decide +kernel⟩

theorem witness_TableCommands_ageing :
    ∃ (i : Nat) (s : State), (s.clocked = true) ∧ (s.on SYSC_CLKGATE.TBL = true) ∧ (s.time.valid = true) ∧ (s.tblUsed = [i]) ∧ (s.eKind i = kRoute) ∧ (bitOf (eN (s.entry i) 1 1) 2 = false) ∧ (s.get TBL_AGE.RMAX ≠ 0) ∧ (((s.get TBL_AGE.RMAX * 256 : Nat) : Int) ≤ s.ageOf (eN (s.entry i) 28 4)) :=
  ⟨(7), ((({ State.reset with mem := {} }.wbytes (tblAddr 7) [2, 1]).put TBL_AGE.RMAX 1).modTime (fun t => { t with valid := true, bnt := 1000 * 2 ^ 32 * ntQ })), by decide +kernel⟩

theorem witness_TableCommands_stale :
    ∃ (i : Nat) (s : State), (s.clocked = true) ∧ (s.on SYSC_CLKGATE.TBL = true) ∧ (s.time.valid = true) ∧ (s.tblUsed = [i]) ∧ (s.eKind i = kPeer) ∧ (bitOf (eN (s.entry i) 1 1) 2 = false) ∧ (bitOf (eN (s.entry i) 1 1) 4 = false) ∧ (s.get TBL_AGE.PSTALE ≠ 0) ∧ (((s.get TBL_AGE.PSTALE * 256 : Nat) : Int) ≤ s.ageOf (eN (s.entry i) 28 4)) :=
  ⟨(5), ((tblAt.put TBL_AGE.PSTALE 1).modTime (fun t => { t with valid := true, bnt := 1000 * 2 ^ 32 * ntQ })), by decide +kernel⟩

theorem witness_TableCommands_ageingYoung :
    ∃ (i : Nat) (s : State), (s.clocked = true) ∧ (s.on SYSC_CLKGATE.TBL = true) ∧ (s.time.valid = true) ∧ (s.tblUsed = [i]) ∧ (bitOf (eN (s.entry i) 1 1) 2 = true ∨ (s.eKind i = kRoute ∧ (s.get TBL_AGE.RMAX = 0 ∨ s.ageOf (eN (s.entry i) 28 4) < ((s.get TBL_AGE.RMAX * 256 : Nat) : Int))) ∨ (s.eKind i = kPeer ∧ (s.get TBL_AGE.PSTALE = 0 ∨ s.ageOf (eN (s.entry i) 28 4) < ((s.get TBL_AGE.PSTALE * 256 : Nat) : Int)))) :=
  ⟨(5), (tblAt.modTime (fun t => { t with valid := true })), by decide +kernel⟩

theorem witness_TableCommands_ageingOff :
    ∃ (s : State), (s.clocked = false ∨ s.on SYSC_CLKGATE.TBL = false ∨ s.time.valid = false) :=
  ⟨(tblAt), by decide +kernel⟩

theorem witness_TableCommands_split :
    ∃ (d : Word) (s : State), (Core Reg.TBL_SPLIT s) ∧ ((4096 < TBL_SPLIT.PQUOTA.of d || 4096 < TBL_SPLIT.RQUOTA.of d || TBL_SPLIT.PQUOTA.of d < (s.tblOf kPeer).length || TBL_SPLIT.RQUOTA.of d < (s.tblOf kRoute).length) = false) :=
  ⟨(0x00100010), (tblAt), by decide +kernel⟩

theorem witness_TableCommands_badSplit :
    ∃ (d : Word) (s : State), (Core Reg.TBL_SPLIT s) ∧ ((4096 < TBL_SPLIT.PQUOTA.of d || 4096 < TBL_SPLIT.RQUOTA.of d || TBL_SPLIT.PQUOTA.of d < (s.tblOf kPeer).length || TBL_SPLIT.RQUOTA.of d < (s.tblOf kRoute).length) = true) :=
  ⟨(0), (tblAt), by decide +kernel⟩

theorem witness_TimeCorrections_set :
    ∃ (force : Bool) (s : State), (Core Reg.TIME_CMD s) ∧ (∀ n : Fin 7, (s.time.cmp[n]).armed = false) ∧ (force = true ∨ s.jumpTooFar (if s.time.valid then ntDiff (corr s) s.nt else 0) = false) :=
  ⟨(true), ((State.reset.setReg Reg.TIME_CORR_HI 100).setReg Reg.TIME_CORR_LO 7), by decide +kernel⟩

theorem witness_TimeCorrections_setTooFar :
    ∃ (s : State), (Core Reg.TIME_CMD s) ∧ (s.time.valid = true) ∧ (s.jumpTooFar (ntDiff (corr s) s.nt) = true) :=
  ⟨(timeAt.setReg Reg.TIME_CORR_HI 1000), by decide +kernel⟩

theorem witness_TimeCorrections_tooFar :
    ∃ (s : State), (Core Reg.TIME_CMD s) ∧ (s.time.valid = true) ∧ (s.jumpTooFar (signedOf 64 (corr s)) = true) :=
  ⟨(timeAt.setReg Reg.TIME_CORR_HI 1000), by decide +kernel⟩

theorem witness_TimeCorrections_step :
    ∃ (force : Bool) (s : State), (Core Reg.TIME_CMD s) ∧ (∀ n : Fin 7, (s.time.cmp[n]).armed = false) ∧ (s.time.valid = true) ∧ (force = true ∨ s.jumpTooFar (signedOf 64 (corr s)) = false) :=
  ⟨(true), (timeAt.setReg Reg.TIME_CORR_LO 1000), by decide +kernel⟩

theorem witness_TimeCorrections_invalid :
    ∃ (c : Instr) (force : Bool) (s : State), (Core Reg.TIME_CMD s) ∧ (s.time.valid = false) ∧ (c = .timeStep force ∨ (c = .timeSlew ∧ (signedOf 64 (corr s)).natAbs ≤ 2 ^ 32) ∨ (c = .timeRate ∧ (signedOf 32 (corr s)).natAbs ≤ 549755813)) :=
  ⟨(.timeStep true), (true), (State.reset), by decide +kernel⟩

theorem witness_TimeCorrections_slew :
    ∃ (s : State), (Core Reg.TIME_CMD s) ∧ (s.time.valid = true) ∧ ((signedOf 64 (corr s)).natAbs ≤ 2 ^ 32) :=
  ⟨(timeAt.setReg Reg.TIME_CORR_LO 1000), by decide +kernel⟩

theorem witness_TimeCorrections_rate :
    ∃ (s : State), (Core Reg.TIME_CMD s) ∧ (s.time.valid = true) ∧ ((signedOf 32 (corr s)).natAbs ≤ 549755813) :=
  ⟨(timeAt.setReg Reg.TIME_CORR_LO 1000), by decide +kernel⟩

theorem witness_TimeCorrections_badArg :
    ∃ (c : Instr) (s : State), (Core Reg.TIME_CMD s) ∧ ((c = .timeSlew ∧ 2 ^ 32 < (signedOf 64 (corr s)).natAbs) ∨ (c = .timeRate ∧ 549755813 < (signedOf 32 (corr s)).natAbs)) :=
  ⟨(.timeRate), (timeAt.setReg Reg.TIME_CORR_LO 0x7FFFFFFF), by decide +kernel⟩

theorem witness_TimeCorrections_clear :
    ∃ (s : State), (Core Reg.TIME_CMD s) :=
  ⟨(timeAt), by decide +kernel⟩

theorem witness_TimeCorrections_accept :
    ∃ (s : State), (Core Reg.TIME_CMD s) :=
  ⟨(timeAt), by decide +kernel⟩

theorem witness_TimeCorrections_slewEnd :
    ∃ (s : State), (s.time.sl ≠ 0) ∧ (s.slewLeft = 0) :=
  ⟨(timeAt.modTime (fun t => { t with sl := 10, slewA := 0 })), by decide +kernel⟩

theorem witness_TimeCorrections_slewGoes :
    ∃ (s : State), (s.time.sl = 0 ∨ s.slewLeft ≠ 0) :=
  ⟨(timeAt), by decide +kernel⟩

theorem witness_ServoAndTriggers_pps :
    ∃ (s : State), (s.clocked = true) ∧ (∀ n : Fin 8, s.on (TIME_CAPCFG.EN n) = false) ∧ (s.on TIME_STAT.SERVO = false ∨ s.time.valid = false) :=
  ⟨(timeAt), by decide +kernel⟩

theorem witness_ServoAndTriggers_ppsAccept :
    ∃ (s : State), (s.clocked = true) ∧ (∀ n : Fin 8, s.on (TIME_CAPCFG.EN n) = false) ∧ (s.on TIME_STAT.SERVO = true) ∧ (s.time.valid = true) ∧ (s.on TIME_SRVCFG.PPS = true) ∧ (s.time.accept = true) ∧ (∀ n : Fin 7, (s.time.cmp[n]).armed = false) :=
  ⟨(((timeAt.put TIME_STAT.SERVO 1).put TIME_SRVCFG.PPS 1).modTime (fun t => { t with accept := true, bnt := t.bnt + ntQ * 100000 })), by decide +kernel⟩

theorem witness_ServoAndTriggers_ppsTooFar :
    ∃ (s : State), (s.clocked = true) ∧ (∀ n : Fin 8, s.on (TIME_CAPCFG.EN n) = false) ∧ (s.on TIME_STAT.SERVO = true) ∧ (s.time.valid = true) ∧ (s.on TIME_SRVCFG.PPS = true) ∧ (s.time.accept = false) ∧ (s.get TIME_JUMPMAX.MAX < (ppsX s).natAbs) :=
  ⟨((((timeAt.put TIME_STAT.SERVO 1).put TIME_SRVCFG.PPS 1).put TIME_JUMPMAX.MAX 5).modTime (fun t => { t with bnt := t.bnt + ntQ * 100000 })), by decide +kernel⟩

theorem witness_ServoAndTriggers_ppsServo :
    ∃ (u : Nat) (s : State), (s.clocked = true) ∧ (∀ n : Fin 8, s.on (TIME_CAPCFG.EN n) = false) ∧ (s.on TIME_STAT.SERVO = true) ∧ (s.time.valid = true) ∧ (s.on TIME_SRVCFG.PPS = true) ∧ (s.time.accept = false) ∧ ((ppsX s).natAbs ≤ s.get TIME_JUMPMAX.MAX) ∧ (lastOf s.time.usedAt 0 = some u) :=
  ⟨(100), (((timeAt.put TIME_STAT.SERVO 1).put TIME_SRVCFG.PPS 1).modTime (fun t => { t with usedAt := [(0, 100)], bnt := t.bnt + ntQ * 1000 })), by decide +kernel⟩

theorem witness_ServoAndTriggers_ppsGated :
    ∃ (s : State), (s.clocked = false) :=
  ⟨({ timeAt with power := { timeAt.power with st := .sleep } }), by decide +kernel⟩

theorem witness_ServoAndTriggers_takeover :
    ∃ (s : State), ((s.on TIME_SRVCFG.EN && s.time.valid && s.get TIME_STAT.SRC != 0 && !(s.on TIME_STAT.SERVO) && decide (s.time.cmdAt + secCounts (max 1 (s.get TIME_SRVCFG.TAKEOVER)) ≤ s.now)) = true) :=
  ⟨({ ((timeAt.put TIME_SRVCFG.EN 1).put TIME_STAT.SRC 1).put TIME_SRVCFG.TAKEOVER 1 with now := 250000000 }), by decide +kernel⟩

theorem witness_ServoAndTriggers_takeoverEarly :
    ∃ (s : State), ((s.on TIME_SRVCFG.EN && s.time.valid && s.get TIME_STAT.SRC != 0 && !(s.on TIME_STAT.SERVO) && decide (s.time.cmdAt + secCounts (max 1 (s.get TIME_SRVCFG.TAKEOVER)) ≤ s.now)) = false) :=
  ⟨(timeAt), by decide +kernel⟩

theorem witness_ServoAndTriggers_holdover :
    ∃ (s : State), ((s.time.valid && !(s.on TIME_STAT.HOLDOVER) && decide (s.time.updAt + secCounts (max 1 (s.get TIME_SRVLIM.HOLD)) ≤ s.now)) = true) :=
  ⟨({ timeAt with now := 250000000 * 70000 }), by decide +kernel⟩

theorem witness_ServoAndTriggers_holdoverEarly :
    ∃ (s : State), ((s.time.valid && !(s.on TIME_STAT.HOLDOVER) && decide (s.time.updAt + secCounts (max 1 (s.get TIME_SRVLIM.HOLD)) ≤ s.now)) = false) :=
  ⟨(timeAt), by decide +kernel⟩

theorem witness_ServoAndTriggers_oneShot :
    ∃ (n : Fin 7) (s : State), (s.cmpDue n = true) ∧ (s.cc n TIME_CCTL.PERIODIC = 0) ∧ (s.cc n TIME_CCTL.MSU = 0) ∧ (s.cc n TIME_CCTL.TMR = 0) ∧ (Unrouted (0x30 + n.val) s) ∧ (1 ≤ s.cc n TIME_CCTL.PIN) ∧ (s.cc n TIME_CCTL.PIN ≤ 5) ∧ (s.cc n TIME_CCTL.ACT ≤ 2) :=
  ⟨(2), ((timeAt.put ((TIME_CCTL.PIN 2).at (Reg.TIME_CCTL_LIVE 2)) 3).modTime (fun t => { t with cmp := t.cmp.set 2 { armed := true, target := 0 } })), by decide +kernel⟩

theorem witness_ServoAndTriggers_pulse :
    ∃ (n : Fin 7) (s : State), (s.cmpDue n = true) ∧ (s.cc n TIME_CCTL.PERIODIC = 0) ∧ (s.cc n TIME_CCTL.MSU = 0) ∧ (s.cc n TIME_CCTL.TMR = 0) ∧ (Unrouted (0x30 + n.val) s) ∧ (1 ≤ s.cc n TIME_CCTL.PIN) ∧ (s.cc n TIME_CCTL.PIN ≤ 5) ∧ (s.cc n TIME_CCTL.ACT = 3) :=
  ⟨(2), (((timeAt.put ((TIME_CCTL.ACT 2).at (Reg.TIME_CCTL_LIVE 2)) 3).put ((TIME_CCTL.PIN 2).at (Reg.TIME_CCTL_LIVE 2)) 3).modTime (fun t => { t with cmp := t.cmp.set 2 { armed := true, target := 0 } })), by decide +kernel⟩

theorem witness_ServoAndTriggers_noPin :
    ∃ (n : Fin 7) (s : State), (s.cmpDue n = true) ∧ (s.cc n TIME_CCTL.PERIODIC = 0) ∧ (s.cc n TIME_CCTL.MSU = 0) ∧ (s.cc n TIME_CCTL.TMR = 0) ∧ (Unrouted (0x30 + n.val) s) ∧ (s.cc n TIME_CCTL.PIN = 0) :=
  ⟨(2), (timeAt.modTime (fun t => { t with cmp := t.cmp.set 2 { armed := true, target := 0 } })), by decide +kernel⟩

theorem witness_ServoAndTriggers_periodic :
    ∃ (n : Fin 7) (s : State), (s.cmpDue n = true) ∧ (s.cc n TIME_CCTL.PERIODIC = 1) ∧ (0 < (s.time.cmp[n]).period) ∧ ((s.time.cmp[n]).period < 2 ^ 64) ∧ (s.cc n TIME_CCTL.MSU = 0) ∧ (s.cc n TIME_CCTL.TMR = 0) ∧ (Unrouted (0x30 + n.val) s) :=
  ⟨(2), ((timeAt.put ((TIME_CCTL.PERIODIC 2).at (Reg.TIME_CCTL_LIVE 2)) 1).modTime (fun t => { t with cmp := t.cmp.set 2 { armed := true, target := 0, period := 2 ^ 40 } })), by decide +kernel⟩

theorem witness_ServoAndTriggers_notDue :
    ∃ (n : Fin 7) (s : State), (s.cmpDue n = false) :=
  ⟨(2), (timeAt), by decide +kernel⟩

theorem witness_ServoAndTriggers_pulseEnd :
    ∃ (pin : Fin 8) (s : State), (1 ≤ pin.val) ∧ (pin.val ≤ 5) ∧ (s.time.pulses.any (fun p => p.pin = pin.val && decide (p.endsAt ≤ s.now)) = true) :=
  ⟨(3), (timeAt.modTime (fun t => { t with pulses := [⟨3, 100⟩] })), by decide +kernel⟩

theorem witness_ServoAndTriggers_pulseRuns :
    ∃ (pin : Fin 8) (s : State), (s.time.pulses.any (fun p => p.pin = pin.val && decide (p.endsAt ≤ s.now)) = false) :=
  ⟨(3), (timeAt), by decide +kernel⟩

theorem witness_ServoAndTriggers_capture :
    ∃ (src : BitVec 8) (rising : Bool) (n : Fin 8) (s : State), (s.clocked = true) ∧ (src.toNat ≤ 1 ∨ 0x10 ≤ src.toNat ∧ src.toNat ≤ 0x27) ∧ (src.toNat = 1 → s.msuOn = true) ∧ (s.on (TIME_CAPCFG.EN n) = true) ∧ (s.get (TIME_CAPCFG.SRC n) = src.toNat) ∧ (edgeTaken (s.get (TIME_CAPCFG.EDGE n)) rising = true) ∧ (s.capFree n = true) ∧ (∀ k : Fin 8, k ≠ n → s.on (TIME_CAPCFG.EN k) = false ∨ s.get (TIME_CAPCFG.SRC k) ≠ src.toNat) ∧ ((s.time.caps[n]).length < 4) :=
  ⟨(0x20), (true), (2), ((timeAt.put (TIME_CAPCFG.SRC 2) 0x20).put (TIME_CAPCFG.EN 2) 1 |>.put (TIME_CAPCFG.EDGE 2) 1), by decide +kernel⟩

theorem witness_ServoAndTriggers_captureFull :
    ∃ (src : BitVec 8) (rising : Bool) (n : Fin 8) (s : State), (s.clocked = true) ∧ (src.toNat ≤ 1 ∨ 0x10 ≤ src.toNat ∧ src.toNat ≤ 0x27) ∧ (src.toNat = 1 → s.msuOn = true) ∧ (s.on (TIME_CAPCFG.EN n) = true) ∧ (s.get (TIME_CAPCFG.SRC n) = src.toNat) ∧ (edgeTaken (s.get (TIME_CAPCFG.EDGE n)) rising = true) ∧ (s.capFree n = true) ∧ (∀ k : Fin 8, k ≠ n → s.on (TIME_CAPCFG.EN k) = false ∨ s.get (TIME_CAPCFG.SRC k) ≠ src.toNat) ∧ (4 ≤ (s.time.caps[n]).length) :=
  ⟨(0x20), (true), (2), ((timeAt.put (TIME_CAPCFG.SRC 2) 0x20).put (TIME_CAPCFG.EN 2) 1 |>.put (TIME_CAPCFG.EDGE 2) 1 |>.modTime (fun t => { t with caps := t.caps.set 2 (List.replicate 4 ⟨5, 6, 7⟩) })), by decide +kernel⟩

theorem witness_ServoAndTriggers_captureNone :
    ∃ (src : BitVec 8) (rising : Bool) (s : State), (s.clocked = false ∨ ∀ k : Fin 8, (s.on (TIME_CAPCFG.EN k) && s.get (TIME_CAPCFG.SRC k) == src.toNat && edgeTaken (s.get (TIME_CAPCFG.EDGE k)) rising && s.capFree k) = false) :=
  ⟨(0x21), (true), (timeAt), by decide +kernel⟩

theorem witness_ServoAndTriggers_pop :
    ∃ (n : Fin 8) (e : CapEntry) (q : List CapEntry) (s : State), (Core (Reg.TIME_CAPCFG n) s) ∧ (s.time.caps[n] = e :: q) ∧ (q.length ≤ 3) :=
  ⟨(2), (⟨5, 6, 7⟩), ([]), (showCaps 2 [⟨5, 6, 7⟩] timeAt), by decide +kernel⟩

theorem witness_ServoAndTriggers_popEmpty :
    ∃ (n : Fin 8) (s : State), (Core (Reg.TIME_CAPCFG n) s) ∧ (s.time.caps[n] = []) :=
  ⟨(2), (timeAt), by decide +kernel⟩

theorem witness_ServoAndTriggers_capcfg :
    ∃ (n : Fin 8) (d : Word) (s : State), (Core (Reg.TIME_CAPCFG n) s) ∧ ((TIME_CAPCFG.SRC n).of d ≠ s.get (TIME_CAPCFG.SRC n) ∨ (TIME_CAPCFG.EDGE n).of d ≠ s.get (TIME_CAPCFG.EDGE n)) :=
  ⟨(2), (0x80210000), (showCaps 2 [⟨5, 6, 7⟩] timeAt), by decide +kernel⟩

theorem witness_ServoAndTriggers_capcfgSame :
    ∃ (n : Fin 8) (d : Word) (s : State), (Core (Reg.TIME_CAPCFG n) s) ∧ ((TIME_CAPCFG.SRC n).of d = s.get (TIME_CAPCFG.SRC n)) ∧ ((TIME_CAPCFG.EDGE n).of d = s.get (TIME_CAPCFG.EDGE n)) ∧ (d.getLsbD 30 = false) :=
  ⟨(2), (0x80000000), (showCaps 2 [⟨5, 6, 7⟩] timeAt), by decide +kernel⟩

theorem witness_ServoAndTriggers_nowRead :
    ∃ (m : Master) (s : State), (busRefusal s ⟨m, Reg.TIME_NOW_LO, .b32, false⟩ = none) :=
  ⟨(.coreData), (timeAt), by decide +kernel⟩

theorem witness_ServoAndTriggers_utc :
    ∃ (s : State), ((s.time.utcAt ≠ 0 ∧ s.time.valid = true ∧ 0 ≤ ntDiff s.nt s.time.utcAt)) :=
  ⟨(timeAt.modTime (fun t => { t with utcAt := 1, utcNew := 37 })), by decide +kernel⟩

theorem witness_ServoAndTriggers_utcEarly :
    ∃ (s : State), (¬ (s.time.utcAt ≠ 0 ∧ s.time.valid = true ∧ 0 ≤ ntDiff s.nt s.time.utcAt)) :=
  ⟨(timeAt), by decide +kernel⟩

theorem witness_ClockRows_sec :
    ∃ (s : State), (Core Reg.RTC_SEC s) :=
  ⟨(State.reset), by decide +kernel⟩

theorem witness_ClockRows_load :
    ∃ (v : Word) (s : State), (s.rtc.load = some v) ∧ (s.on RTC_ALMCTL.EN = false ∨ s.rtcTarget ≤ s.rtcFracs ∨ v.toNat * 2 ^ 15 < s.rtcTarget) :=
  ⟨(100), (rtcRequest 100 State.reset), by decide +kernel⟩

theorem witness_ClockRows_loadPast :
    ∃ (v : Word) (s : State), (s.rtc.load = some v) ∧ (s.on RTC_ALMCTL.EN = true) ∧ (s.rtcFracs < s.rtcTarget) ∧ (s.rtcTarget ≤ v.toNat * 2 ^ 15) :=
  ⟨(100), (rtcRequest 100 ((State.reset.setReg Reg.RTC_ALMSEC 50).put RTC_ALMCTL.EN 1)), by decide +kernel⟩

theorem witness_ClockRows_loadNone :
    ∃ (s : State), (s.rtc.load = none) :=
  ⟨(State.reset), by decide +kernel⟩

theorem witness_ClockRows_cald :
    ∃ (s : State), (Core Reg.RTC_CALD s) :=
  ⟨(State.reset), by decide +kernel⟩

theorem witness_ClockRows_calt :
    ∃ (tm : Word) (v : Nat) (sec : Word) (s : State), (Core Reg.RTC_CALT s) ∧ (calValue (s.rtc.held.getD s.cald) tm = some v) ∧ ((sec.toNat : Int) = (v : Int) + s.getI RTC_CALOFS.OFS) :=
  ⟨(0x00000102), (62), (62), (State.reset.modRtc (fun r => { r with held := some 0x00000101 })), by decide +kernel⟩

theorem witness_ClockRows_badDate :
    ∃ (tm : Word) (s : State), (Core Reg.RTC_CALT s) ∧ ((calValue (s.rtc.held.getD s.cald) tm).all (fun v => decide ((v : Int) + s.getI RTC_CALOFS.OFS < 0) || decide (2 ^ 32 ≤ (v : Int) + s.getI RTC_CALOFS.OFS)) = true) :=
  ⟨(0), (State.reset.modRtc (fun r => { r with held := some 0x0001021D })), by decide +kernel⟩

theorem witness_ClockRows_arm :
    ∃ (s : State), (Core Reg.RTC_CMD s) ∧ (s.time.valid = true) :=
  ⟨(timeAt), by decide +kernel⟩

theorem witness_ClockRows_noSync :
    ∃ (s : State), (Core Reg.RTC_CMD s) ∧ (s.time.valid = false) :=
  ⟨(State.reset), by decide +kernel⟩

theorem witness_ClockRows_sync :
    ∃ (s : State), (s.rtc.sync = true) ∧ (s.time.valid = true) ∧ (s.on RTC_ALMCTL.EN = false) :=
  ⟨(timeAt.modRtc (fun r => { r with sync := true })), by decide +kernel⟩

theorem witness_ClockRows_syncNone :
    ∃ (s : State), (s.rtc.sync = false ∨ s.time.valid = false) :=
  ⟨(timeAt), by decide +kernel⟩

theorem witness_ClockRows_freeze :
    ∃ (addr : Word) (s : State), (TakesRead .coreData addr.toNat s) ∧ (s.on RTC_CFG.LEGACY = true) ∧ (addr ∈ [BitVec.ofNat 32 Reg.RTC_SEC, BitVec.ofNat 32 Reg.RTC_FRAC, BitVec.ofNat 32 Reg.RTC_CALT]) :=
  ⟨(BitVec.ofNat 32 Reg.RTC_SEC), (State.reset.put RTC_CFG.LEGACY 1), by decide +kernel⟩

theorem witness_ClockRows_thawRead :
    ∃ (s : State), (TakesRead .coreData Reg.RTC_CALD s) ∧ (s.on RTC_CFG.LEGACY = true) :=
  ⟨(State.reset.put RTC_CFG.LEGACY 1), by decide +kernel⟩

theorem witness_ClockRows_noLegacy :
    ∃ (addr : Word) (s : State), (TakesRead .coreData addr.toNat s) ∧ (s.on RTC_CFG.LEGACY = false) :=
  ⟨(BitVec.ofNat 32 Reg.RTC_SEC), (State.reset), by decide +kernel⟩

theorem witness_ClockRows_thaw :
    ∃ (f : Freeze) (s : State), (s.rtc.freeze = some f) ∧ (f.since + us 2000 ≤ s.now) :=
  ⟨(⟨0, 0, 0, 0, 0⟩), ({ State.reset.modRtc (fun r => { r with freeze := some ⟨0, 0, 0, 0, 0⟩ }) with now := 600000 }), by decide +kernel⟩

theorem witness_ClockRows_frozen :
    ∃ (s : State), (s.rtc.freeze.all (fun f => decide (s.now < f.since + us 2000)) = true) :=
  ⟨(State.reset), by decide +kernel⟩

theorem witness_ClockRows_wrap :
    ∃ (s : State), (2 ^ 71 ≤ s.rtcRaw) :=
  ⟨(State.reset.modRtc (fun r => { r with base := 2 ^ 71 })), by decide +kernel⟩

theorem witness_ClockRows_noWrap :
    ∃ (s : State), (s.rtcRaw < 2 ^ 71) :=
  ⟨(State.reset), by decide +kernel⟩

theorem witness_AlarmsAndTrim_arm :
    ∃ (d : Word) (s : State), (Core Reg.RTC_ALMCTL s) ∧ (RTC_ALMCTL.EN.of d = 1) :=
  ⟨(0x80000010), (State.reset), by decide +kernel⟩

theorem witness_AlarmsAndTrim_disarm :
    ∃ (d : Word) (s : State), (Core Reg.RTC_ALMCTL s) ∧ (RTC_ALMCTL.EN.of d = 0) :=
  ⟨(0x10), (State.reset), by decide +kernel⟩

theorem witness_AlarmsAndTrim_target :
    ∃ (s : State), (Core Reg.RTC_ALMSEC s) ∧ (s.on RTC_ALMCTL.EN = false) :=
  ⟨(State.reset), by decide +kernel⟩

theorem witness_AlarmsAndTrim_targetArmed :
    ∃ (s : State), (Core Reg.RTC_ALMSEC s) ∧ (s.on RTC_ALMCTL.EN = true) :=
  ⟨(State.reset.put RTC_ALMCTL.EN 1), by decide +kernel⟩

theorem witness_AlarmsAndTrim_fire :
    ∃ (s : State), (s.on RTC_ALMCTL.EN = true) ∧ (s.rtcTarget ≤ s.rtcFracs) :=
  ⟨(State.reset.put RTC_ALMCTL.EN 1), by decide +kernel⟩

theorem witness_AlarmsAndTrim_noAlarm :
    ∃ (s : State), (s.on RTC_ALMCTL.EN = false ∨ s.rtcFracs < s.rtcTarget) :=
  ⟨(State.reset), by decide +kernel⟩

theorem witness_AlarmsAndTrim_restart :
    ∃ (d : Word) (s : State), (Core Reg.RTC_PER s) ∧ (RTC_PER.EN.of d = 1) :=
  ⟨(0x80000010), (State.reset), by decide +kernel⟩

theorem witness_AlarmsAndTrim_stop :
    ∃ (d : Word) (s : State), (Core Reg.RTC_PER s) ∧ (RTC_PER.EN.of d = 0) :=
  ⟨(0x10), (State.reset), by decide +kernel⟩

theorem witness_AlarmsAndTrim_wake :
    ∃ (s : State), (s.on RTC_PER.EN = true) ∧ ((s.get RTC_PER.NM1 + 1) * 2 ^ 31 ≤ s.perRaw) ∧ (Unrouted 0x39 s) :=
  ⟨(((State.reset.put RTC_PER.NM1 0).put RTC_PER.EN 1).modRtc (fun r => { r with perBase := 2 ^ 31 + 5 })), by decide +kernel⟩

theorem witness_AlarmsAndTrim_wakeEarly :
    ∃ (s : State), (s.on RTC_PER.EN = false ∨ s.perRaw < (s.get RTC_PER.NM1 + 1) * 2 ^ 31) :=
  ⟨(State.reset), by decide +kernel⟩

theorem witness_AlarmsAndTrim_trim :
    ∃ (r : Nat) (c : Nat) (fn : Nat) (s : State), (s.get RTC_TRIMCFG.SRC = 1) ∧ (s.on SYSC_CLKSTAT.LPRC = false) ∧ (s.rtc.mainsWin = some (r, c, fn, true)) ∧ (0 < c) :=
  ⟨(19661000), (30000), (50), (((State.reset.put SYSC_CLKSTAT.LPRC 0).put RTC_TRIMCFG.SRC 1).modRtc (fun x => { x with mainsWin := some (19661000, 30000, 50, true) })), by decide +kernel⟩

theorem witness_AlarmsAndTrim_trimNet :
    ∃ (b : Nat) (s : State), (s.get RTC_TRIMCFG.SRC = 2) ∧ (s.time.valid = true) ∧ (s.nt / 2 ^ 32 % 2 ^ s.netPer = 0) ∧ (s.on SYSC_CLKSTAT.LPRC = false) ∧ (s.rtc.winBad = false) ∧ (2 ^ s.netPer ≤ s.nt / 2 ^ 32) ∧ (s.rtc.winStart = some (b, s.nt / 2 ^ 32 - 2 ^ s.netPer)) :=
  ⟨(100), (((((timeAt.put SYSC_CLKSTAT.LPRC 0).put RTC_TRIMCFG.SRC 2).put RTC_TRIMCFG.NETPER 4).modTime (fun t => { t with bnt := 16 * 2 ^ 32 * ntQ })).modRtc (fun x => { x with winStart := some (100, 0), winBad := false, base := (100 + 2 ^ 19) * 2 ^ 24 })), by decide +kernel⟩

theorem witness_AlarmsAndTrim_trimBad :
    ∃ (r : Nat) (c : Nat) (fn : Nat) (ok : Bool) (s : State), (s.get RTC_TRIMCFG.SRC = 1) ∧ (s.rtc.mainsWin = some (r, c, fn, ok)) ∧ (ok = false ∨ c = 0 ∨ s.on SYSC_CLKSTAT.LPRC = true) :=
  ⟨(1), (1), (50), (false), ((State.reset.put RTC_TRIMCFG.SRC 1).modRtc (fun x => { x with mainsWin := some (1, 1, 50, false) })), by decide +kernel⟩

theorem witness_AlarmsAndTrim_trimNetFirst :
    ∃ (s : State), (s.get RTC_TRIMCFG.SRC = 2) ∧ (s.time.valid = true) ∧ (s.nt / 2 ^ 32 % 2 ^ s.netPer = 0) ∧ (s.rtc.winStart = none ∨ s.rtc.winBad = true ∨ s.on SYSC_CLKSTAT.LPRC = true) :=
  ⟨(((timeAt.put RTC_TRIMCFG.SRC 2).put RTC_TRIMCFG.NETPER 4).modTime (fun t => { t with bnt := 16 * 2 ^ 32 * ntQ })), by decide +kernel⟩

theorem witness_AlarmsAndTrim_trimNone :
    ∃ (s : State), ((s.get RTC_TRIMCFG.SRC = 1 ∧ s.rtc.mainsWin = none) ∨ (s.get RTC_TRIMCFG.SRC = 2 ∧ (s.time.valid = false ∨ s.nt / 2 ^ 32 % 2 ^ s.netPer ≠ 0)) ∨ s.get RTC_TRIMCFG.SRC = 0 ∨ s.get RTC_TRIMCFG.SRC = 3) :=
  ⟨(State.reset), by decide +kernel⟩

theorem witness_AlarmsAndTrim_backup :
    ∃ (s : State), (s.on SYSC_SUPSTAT.ONBACKUP = false) :=
  ⟨(State.reset), by decide +kernel⟩

theorem witness_AlarmsAndTrim_onBackup :
    ∃ (s : State), (s.on SYSC_SUPSTAT.ONBACKUP = true) :=
  ⟨(State.reset.put SYSC_SUPSTAT.ONBACKUP 1), by decide +kernel⟩

theorem witness_AlarmsAndTrim_charger :
    ∃ (s : State), (Core Reg.RTC_CHG s) :=
  ⟨(State.reset), by decide +kernel⟩

theorem witness_TimersAndMains_enable :
    ∃ (n : Fin 8) (d : Word) (s : State), (Core (Reg.TMR_CTRL n) s) ∧ (s.on (TMR_CTRL.EN n) = false) ∧ ((TMR_CTRL.EN n).of d = 1) :=
  ⟨(3), (0x80010000), (State.reset), by decide +kernel⟩

theorem witness_TimersAndMains_disable :
    ∃ (n : Fin 8) (d : Word) (s : State), (Core (Reg.TMR_CTRL n) s) ∧ (s.on (TMR_CTRL.EN n) = true) ∧ ((TMR_CTRL.EN n).of d = 0) :=
  ⟨(3), (0x00020000), (tmrAt 5), by decide +kernel⟩

theorem witness_TimersAndMains_kept :
    ∃ (n : Fin 8) (d : Word) (s : State), (Core (Reg.TMR_CTRL n) s) ∧ (s.on (TMR_CTRL.EN n) = true) ∧ ((TMR_CTRL.EN n).of d = 1) :=
  ⟨(3), (0x80020000), (tmrAt 5), by decide +kernel⟩

theorem witness_TimersAndMains_count :
    ∃ (n : Fin 8) (s : State), (s.tmClocked = true) ∧ (s.on (TMR_CTRL.EN n) = true) ∧ (s.get (TMR_CTRL.CLK n) ≠ 3 ∨ s.pinCode (16 + n.val) = 1) ∧ (s.tmHead n = n) ∧ (s.get (TMR_CTRL.PRESC n) ≤ (s.tm n).presc) :=
  ⟨(3), (tmrAt 20), by decide +kernel⟩

theorem witness_TimersAndMains_prescaled :
    ∃ (n : Fin 8) (s : State), (s.tmClocked = true) ∧ (s.on (TMR_CTRL.EN n) = true) ∧ (s.get (TMR_CTRL.CLK n) ≠ 3 ∨ s.pinCode (16 + n.val) = 1) ∧ (s.tmHead n = n) ∧ ((s.tm n).presc < s.get (TMR_CTRL.PRESC n)) :=
  ⟨(3), ((tmrAt 5).put (TMR_CTRL.PRESC 3) 2), by decide +kernel⟩

theorem witness_TimersAndMains_edgeLost :
    ∃ (n : Fin 8) (s : State), (s.tmClocked = false ∨ s.on (TMR_CTRL.EN n) = false ∨ s.tmHead n ≠ n ∨ (s.get (TMR_CTRL.CLK n) = 3 ∧ s.pinCode (16 + n.val) ≠ 1)) :=
  ⟨(3), (State.reset), by decide +kernel⟩

theorem witness_TimersAndMains_reloadWrite :
    ∃ (n : Fin 8) (s : State), (Core (Reg.TMR_RELOAD n) s) :=
  ⟨(3), (tmrAt 5), by decide +kernel⟩

theorem witness_TimersAndMains_restart :
    ∃ (n : Fin 8) (s : State), (Core (Reg.TMR_CMD n) s) ∧ (s.tmHead n = n) :=
  ⟨(3), (tmrAt 5), by decide +kernel⟩

theorem witness_TimersAndMains_restartOdd :
    ∃ (n : Fin 8) (s : State), (Core (Reg.TMR_CMD n) s) ∧ (s.tmHead n ≠ n) :=
  ⟨(3), ((tmrAt 5).modTm 2 (fun x => { x with link := true })), by decide +kernel⟩

theorem witness_TimersAndMains_capture :
    ∃ (n : Fin 8) (rising : Bool) (s : State), (s.tmClocked = true) ∧ (s.tmHead n = n) ∧ (edgeTaken (s.get (TMR_CTRL.CAPEDGE n)) rising = true) ∧ ((s.tm n).caps.length < 4) :=
  ⟨(3), (true), ((tmrAt 5).put (TMR_CTRL.CAPEDGE 3) 1), by decide +kernel⟩

theorem witness_TimersAndMains_captureFull :
    ∃ (n : Fin 8) (rising : Bool) (s : State), (s.tmClocked = true) ∧ (s.tmHead n = n) ∧ (edgeTaken (s.get (TMR_CTRL.CAPEDGE n)) rising = true) ∧ (4 ≤ (s.tm n).caps.length) :=
  ⟨(3), (true), (((tmrAt 5).put (TMR_CTRL.CAPEDGE 3) 1).modTm 3 (fun x => { x with caps := [1, 2, 3, 4] })), by decide +kernel⟩

theorem witness_TimersAndMains_captureNone :
    ∃ (n : Fin 8) (rising : Bool) (s : State), (s.tmClocked = false ∨ s.tmHead n ≠ n ∨ edgeTaken (s.get (TMR_CTRL.CAPEDGE n)) rising = false) :=
  ⟨(3), (true), (tmrAt 5), by decide +kernel⟩

theorem witness_TimersAndMains_capRead :
    ∃ (n : Fin 8) (e : Nat) (q : List Nat) (s : State), (TakesRead .coreData (Reg.TMR_CAP n) s) ∧ (s.tmHead n = n) ∧ ((s.tm n).caps = e :: q) ∧ (q.length ≤ 3) :=
  ⟨(3), (7), ([]), ((tmrAt 5).modTm 3 (fun x => { x with caps := [7] })), by decide +kernel⟩

theorem witness_TimersAndMains_capReadEmpty :
    ∃ (n : Fin 8) (s : State), (TakesRead .coreData (Reg.TMR_CAP n) s) ∧ ((s.tm (s.tmHead n)).caps = []) :=
  ⟨(3), (tmrAt 5), by decide +kernel⟩

theorem witness_TimersAndMains_scan :
    ∃ (s : State), (s.on MSU_CFG.TRIG = true) ∧ (s.msuRuns = true) ∧ (s.msu.scanAt.all (fun a => decide (a + us 60 ≤ s.now)) = true) :=
  ⟨((msuAt.put MSU_CFG.TRIG 1)), by decide +kernel⟩

theorem witness_TimersAndMains_overrun :
    ∃ (at_ : Nat) (s : State), (s.on MSU_CFG.TRIG = true) ∧ (s.msuRuns = true) ∧ (s.msu.scanAt = some at_) ∧ (s.now < at_ + us 60) :=
  ⟨(10000), ((msuAt.put MSU_CFG.TRIG 1).modMsu (fun m => { m with scanAt := some 10000 })), by decide +kernel⟩

theorem witness_TimersAndMains_noScan :
    ∃ (s : State), (s.on MSU_CFG.TRIG = false ∨ s.msuRuns = false) :=
  ⟨(msuAt), by decide +kernel⟩

theorem witness_TimersAndMains_scanEnd :
    ∃ (at_ : Nat) (s : State), (s.msuRuns = true) ∧ (s.msu.scanAt = some at_) ∧ (s.msu.closing = []) ∧ (s.on MSU_CFG.ZCSRC = false) ∧ (s.on MSU_SRING.EN = false) :=
  ⟨(9000), (msuAt.modMsu (fun m => { m with scanAt := some 9000 })), by decide +kernel⟩

theorem witness_TimersAndMains_scanRing :
    ∃ (at_ : Nat) (s : State), (s.msuRuns = true) ∧ (s.msu.scanAt = some at_) ∧ (s.msu.closing = []) ∧ (s.on MSU_CFG.ZCSRC = false) ∧ (s.on MSU_SRING.EN = true) ∧ (inSram (4096 * s.get MSU_SRING.ADDR / (8 * (512 * 2 ^ (min 5 (s.get MSU_SRING.SIZE)))) * (8 * (512 * 2 ^ (min 5 (s.get MSU_SRING.SIZE)))) + 8 * (s.msu.nextScan % (512 * 2 ^ (min 5 (s.get MSU_SRING.SIZE))))) 8 = true) :=
  ⟨(9000), ((((msuAt.put MSU_SRING.ADDR 0x20060).put MSU_SRING.EN 1)).modMsu (fun m => { m with scanAt := some 9000 })), by decide +kernel⟩

theorem witness_TimersAndMains_noScanEnd :
    ∃ (s : State), (s.msuRuns = false ∨ s.msu.scanAt = none) :=
  ⟨(msuAt), by decide +kernel⟩

theorem witness_TimersAndMains_crossing :
    ∃ (s : State), (s.msuRuns = true) ∧ (s.on MSU_CFG.ZCSRC = false) ∧ ((s.msu.lastCross.map (fun c => decide (s.now < c + 25000 * max 1 (s.get MSU_CFG.ZCHOLD)))).getD false = false) ∧ (s.msu.scanAt = none) :=
  ⟨(msuAt), by decide +kernel⟩

theorem witness_TimersAndMains_halfRecord :
    ∃ (s : State), (s.msuRuns = true) ∧ (s.on MSU_CFG.ZCSRC = false) ∧ ((s.msu.lastCross.map (fun c => decide (s.now < c + 25000 * max 1 (s.get MSU_CFG.ZCHOLD)))).getD false = false) ∧ (s.msu.scanAt = none) ∧ (s.on MSU_HRING.EN = true) ∧ ((s.get MSU_HPTR.WR + 1) % 64 ≠ s.get MSU_HPTR.RD) ∧ (inSram (2048 * s.get MSU_HRING.ADDR + 32 * s.get MSU_HPTR.WR) 32 = true) ∧ (0 < s.msu.half.n) ∧ (s.get MSU_NOM.NOM = 0) ∧ (s.msu.half.begun ≠ .timeout) :=
  ⟨((((msuAt.put MSU_HRING.ADDR 0x40080).put MSU_HRING.EN 1)).modMsu (fun m => { m with half := { m.half with n := 3, begun := .rising } })), by decide +kernel⟩

theorem witness_TimersAndMains_recordFull :
    ∃ (s : State), (s.msuRuns = true) ∧ (s.on MSU_CFG.ZCSRC = false) ∧ ((s.msu.lastCross.map (fun c => decide (s.now < c + 25000 * max 1 (s.get MSU_CFG.ZCHOLD)))).getD false = false) ∧ (s.msu.scanAt = none) ∧ (s.on MSU_HRING.EN = true) ∧ ((s.get MSU_HPTR.WR + 1) % 64 = s.get MSU_HPTR.RD) :=
  ⟨((((msuAt.put MSU_HRING.ADDR 0x40080).put MSU_HRING.EN 1).put MSU_HPTR.RD 1)), by decide +kernel⟩

theorem witness_TimersAndMains_frequency :
    ∃ (r : Nat) (s : State), (s.msuRuns = true) ∧ (s.on MSU_CFG.ZCSRC = false) ∧ ((s.msu.lastCross.map (fun c => decide (s.now < c + 25000 * max 1 (s.get MSU_CFG.ZCHOLD)))).getD false = false) ∧ (s.msu.scanAt = none) ∧ (s.msu.lastRise = some r) ∧ (r < s.now) ∧ (40000 ≤ (roundDiv 250000000000 ((s.now : Int) - r)).toNat) ∧ ((roundDiv 250000000000 ((s.now : Int) - r)).toNat ≤ 75000) ∧ (s.msu.cycNozc = false) :=
  ⟨(100), ({ msuAt.modMsu (fun m => { m with lastRise := some 100 }) with now := 5000100 }), by decide +kernel⟩

theorem witness_TimersAndMains_badCycle :
    ∃ (r : Nat) (s : State), (s.msuRuns = true) ∧ (s.on MSU_CFG.ZCSRC = false) ∧ ((s.msu.lastCross.map (fun c => decide (s.now < c + 25000 * max 1 (s.get MSU_CFG.ZCHOLD)))).getD false = false) ∧ (s.msu.scanAt = none) ∧ (s.msu.lastRise = some r) ∧ (s.now ≤ r ∨ (roundDiv 250000000000 ((s.now : Int) - r)).toNat < 40000 ∨ 75000 < (roundDiv 250000000000 ((s.now : Int) - r)).toNat ∨ s.msu.cycNozc = true) :=
  ⟨(100), ({ msuAt.modMsu (fun m => { m with lastRise := some 100 }) with now := 50100 }), by decide +kernel⟩

theorem witness_TimersAndMains_crossingWaits :
    ∃ (at_ : Nat) (s : State), (s.msuRuns = true) ∧ (s.on MSU_CFG.ZCSRC = false) ∧ ((s.msu.lastCross.map (fun c => decide (s.now < c + 25000 * max 1 (s.get MSU_CFG.ZCHOLD)))).getD false = false) ∧ (s.msu.scanAt = some at_) :=
  ⟨(9000), (msuAt.modMsu (fun m => { m with scanAt := some 9000 })), by decide +kernel⟩

theorem witness_TimersAndMains_crossingHeld :
    ∃ (s : State), (s.msuRuns = false ∨ s.on MSU_CFG.ZCSRC = true ∨ (s.msu.lastCross.map (fun c => decide (s.now < c + 25000 * max 1 (s.get MSU_CFG.ZCHOLD)))).getD false = true) :=
  ⟨(msuAt.modMsu (fun m => { m with lastCross := some 9999 })), by decide +kernel⟩

theorem witness_TimersAndMains_noCrossing :
    ∃ (s : State), (s.msuRuns = true) ∧ (s.msu.dueAt ≤ s.now) ∧ (s.msu.closing = []) ∧ (s.msu.scanAt = none) :=
  ⟨(msuAt), by decide +kernel⟩

theorem witness_TimersAndMains_timeoutWaits :
    ∃ (at_ : Nat) (s : State), (s.msuRuns = true) ∧ (s.msu.dueAt ≤ s.now) ∧ (s.msu.closing = []) ∧ (s.msu.scanAt = some at_) :=
  ⟨(9000), (msuAt.modMsu (fun m => { m with scanAt := some 9000 })), by decide +kernel⟩

theorem witness_TimersAndMains_noTimeout :
    ∃ (s : State), (s.msuRuns = false ∨ s.now < s.msu.dueAt ∨ s.msu.closing ≠ []) :=
  ⟨(State.reset), by decide +kernel⟩

theorem witness_TimersAndMains_msuOn :
    ∃ (s : State), (Core Reg.MSU_CFG s) ∧ (s.on MSU_CFG.EN = false) :=
  ⟨(domainOn .msu State.reset), by decide +kernel⟩

theorem witness_TimersAndMains_msuOnAgain :
    ∃ (s : State), (Core Reg.MSU_CFG s) ∧ (s.on MSU_CFG.EN = true) :=
  ⟨(msuAt), by decide +kernel⟩

theorem witness_TimersAndMains_msuOff :
    ∃ (s : State), (Core Reg.MSU_CFG s) ∧ (s.on MSU_CFG.EN = true) :=
  ⟨(msuAt), by decide +kernel⟩

theorem witness_TimersAndMains_msuOffAgain :
    ∃ (s : State), (Core Reg.MSU_CFG s) ∧ (s.on MSU_CFG.EN = false) :=
  ⟨(domainOn .msu State.reset), by decide +kernel⟩

theorem witness_TimersAndMains_thresholds :
    ∃ (d : Word) (s : State), (Core Reg.MSU_THR s) ∧ (101 ≤ MSU_THR.SWELL.of d) ∧ (MSU_THR.SWELL.of d ≤ 200) ∧ (50 ≤ MSU_THR.SAG.of d) ∧ (MSU_THR.SAG.of d ≤ 99) ∧ (1 ≤ MSU_THR.INTR.of d) ∧ (MSU_THR.INTR.of d ≤ 49) ∧ (MSU_THR.HYST.of d ≤ 10) ∧ (MSU_THR.INTR.of d + MSU_THR.HYST.of d < MSU_THR.SAG.of d) :=
  ⟨(0x6E5A0A02), (msuAt), by decide +kernel⟩

theorem witness_TimersAndMains_badThresholds :
    ∃ (d : Word) (s : State), (Core Reg.MSU_THR s) ∧ (¬ (101 ≤ MSU_THR.SWELL.of d ∧ MSU_THR.SWELL.of d ≤ 200 ∧ 50 ≤ MSU_THR.SAG.of d ∧ MSU_THR.SAG.of d ≤ 99 ∧ 1 ≤ MSU_THR.INTR.of d ∧ MSU_THR.INTR.of d ≤ 49 ∧ MSU_THR.HYST.of d ≤ 10 ∧ MSU_THR.INTR.of d + MSU_THR.HYST.of d < MSU_THR.SAG.of d)) :=
  ⟨(0x6E320A32), (msuAt), by decide +kernel⟩

theorem witness_NvmOperations_program :
    ∃ (count : BitVec 7) (s : State), (Core Reg.NVM_CMD s) ∧ (s.on NVM_CMDSTAT.BUSY = false) ∧ (BankIdle (nvmBankOf (s.get NVM_ADDR.ADDR)) s) ∧ (regionOf (s.get NVM_ADDR.ADDR) = .nvm ∧ (s.get NVM_ADDR.ADDR) % 32 = 0 ∧ (s.get NVM_ADDR.ADDR) % 4096 / 32 + count.toNat + 1 ≤ 128) ∧ (nvmProtectedBlock (nvmBlockOf (s.get NVM_ADDR.ADDR)) = false) ∧ (nvmReadOnly s (nvmBankOf (s.get NVM_ADDR.ADDR)) (nvmBlockOf (s.get NVM_ADDR.ADDR)) = false) ∧ (∀ i ≤ count.toNat, s.unitErased ((s.get NVM_ADDR.ADDR) + 32 * i) = true) ∧ ((s.get NVM_SRC.SRC) % 4 = 0 ∧ inSram (s.get NVM_SRC.SRC) (32 * (count.toNat + 1)) = true) ∧ (s.xtsUnusable (s.get NVM_ADDR.ADDR) = false) :=
  ⟨(2), (nvmAt 0x08010000), by decide +kernel⟩

theorem witness_NvmOperations_programWaits :
    ∃ (count : BitVec 7) (j : ProgJob) (s : State), (Core Reg.NVM_CMD s) ∧ (s.on NVM_CMDSTAT.BUSY = false) ∧ ((s.bank (nvmBankOf (s.get NVM_ADDR.ADDR))).prog = some j) ∧ ((s.bank (nvmBankOf (s.get NVM_ADDR.ADDR))).erase = none) ∧ (regionOf (s.get NVM_ADDR.ADDR) = .nvm ∧ (s.get NVM_ADDR.ADDR) % 32 = 0 ∧ (s.get NVM_ADDR.ADDR) % 4096 / 32 + count.toNat + 1 ≤ 128) ∧ (nvmProtectedBlock (nvmBlockOf (s.get NVM_ADDR.ADDR)) = false) ∧ (nvmReadOnly s (nvmBankOf (s.get NVM_ADDR.ADDR)) (nvmBlockOf (s.get NVM_ADDR.ADDR)) = false) ∧ (∀ i ≤ count.toNat, s.unitErased ((s.get NVM_ADDR.ADDR) + 32 * i) = true) ∧ ((s.get NVM_SRC.SRC) % 4 = 0 ∧ inSram (s.get NVM_SRC.SRC) (32 * (count.toNat + 1)) = true) ∧ (s.xtsUnusable (s.get NVM_ADDR.ADDR) = false) :=
  ⟨(2), (⟨.sec, 0x08020000, none, [], 1, 4, false, .plain, none⟩), ((nvmAt 0x08010000).modBank false (fun b => { b with prog := some ⟨.sec, 0x08020000, none, [], 1, 4, false, .plain, none⟩ })), by decide +kernel⟩

theorem witness_NvmOperations_programBadarg :
    ∃ (count : BitVec 7) (s : State), (Core Reg.NVM_CMD s) ∧ (s.on NVM_CMDSTAT.BUSY = false) ∧ (regionOf (s.get NVM_ADDR.ADDR) ≠ .nvm ∨ (s.get NVM_ADDR.ADDR) % 32 ≠ 0 ∨ 128 < (s.get NVM_ADDR.ADDR) % 4096 / 32 + count.toNat + 1) :=
  ⟨(2), (nvmAt 0x08010010), by decide +kernel⟩

theorem witness_NvmOperations_programProtected :
    ∃ (count : BitVec 7) (s : State), (Core Reg.NVM_CMD s) ∧ (s.on NVM_CMDSTAT.BUSY = false) ∧ (regionOf (s.get NVM_ADDR.ADDR) = .nvm ∧ (s.get NVM_ADDR.ADDR) % 32 = 0 ∧ (s.get NVM_ADDR.ADDR) % 4096 / 32 + count.toNat + 1 ≤ 128) ∧ (nvmProtectedBlock (nvmBlockOf (s.get NVM_ADDR.ADDR)) = true) :=
  ⟨(2), (nvmAt 0x081F0000), by decide +kernel⟩

theorem witness_NvmOperations_programReadonly :
    ∃ (count : BitVec 7) (s : State), (Core Reg.NVM_CMD s) ∧ (s.on NVM_CMDSTAT.BUSY = false) ∧ (regionOf (s.get NVM_ADDR.ADDR) = .nvm ∧ (s.get NVM_ADDR.ADDR) % 32 = 0 ∧ (s.get NVM_ADDR.ADDR) % 4096 / 32 + count.toNat + 1 ≤ 128) ∧ (nvmProtectedBlock (nvmBlockOf (s.get NVM_ADDR.ADDR)) = false) ∧ (nvmReadOnly s (nvmBankOf (s.get NVM_ADDR.ADDR)) (nvmBlockOf (s.get NVM_ADDR.ADDR)) = true) :=
  ⟨(2), ((nvmAt 0x08190000).modBank false (fun b => { b with free := [] })), by decide +kernel⟩

theorem witness_NvmOperations_programSuspended :
    ∃ (count : BitVec 7) (s : State), (Core Reg.NVM_CMD s) ∧ (s.on NVM_CMDSTAT.BUSY = false) ∧ (regionOf (s.get NVM_ADDR.ADDR) = .nvm ∧ (s.get NVM_ADDR.ADDR) % 32 = 0 ∧ (s.get NVM_ADDR.ADDR) % 4096 / 32 + count.toNat + 1 ≤ 128) ∧ (nvmProtectedBlock (nvmBlockOf (s.get NVM_ADDR.ADDR)) = false) ∧ (nvmReadOnly s (nvmBankOf (s.get NVM_ADDR.ADDR)) (nvmBlockOf (s.get NVM_ADDR.ADDR)) = false) ∧ ((s.bank (nvmBankOf (s.get NVM_ADDR.ADDR))).erase.any (fun e => e.susp && e.block == (nvmBlockOf (s.get NVM_ADDR.ADDR))) = true) :=
  ⟨(2), ((nvmAt 0x08010000).modBank false (fun b => { b with erase := some ⟨.firmware, 16, true⟩ })), by decide +kernel⟩

theorem witness_NvmOperations_programOverwrite :
    ∃ (count : BitVec 7) (s : State), (Core Reg.NVM_CMD s) ∧ (s.on NVM_CMDSTAT.BUSY = false) ∧ (regionOf (s.get NVM_ADDR.ADDR) = .nvm ∧ (s.get NVM_ADDR.ADDR) % 32 = 0 ∧ (s.get NVM_ADDR.ADDR) % 4096 / 32 + count.toNat + 1 ≤ 128) ∧ (nvmProtectedBlock (nvmBlockOf (s.get NVM_ADDR.ADDR)) = false) ∧ (nvmReadOnly s (nvmBankOf (s.get NVM_ADDR.ADDR)) (nvmBlockOf (s.get NVM_ADDR.ADDR)) = false) ∧ ((s.bank (nvmBankOf (s.get NVM_ADDR.ADDR))).erase.all (fun e => e.block != (nvmBlockOf (s.get NVM_ADDR.ADDR))) = true) ∧ (∃ i : Fin 128, i.val ≤ count.toNat ∧ s.unitErased ((s.get NVM_ADDR.ADDR) + 32 * i.val) = false) :=
  ⟨(2), ((nvmAt 0x08010000).wb 0x08010043 0x7F), by decide +kernel⟩

theorem witness_NvmOperations_programBus :
    ∃ (count : BitVec 7) (s : State), (Core Reg.NVM_CMD s) ∧ (s.on NVM_CMDSTAT.BUSY = false) ∧ (regionOf (s.get NVM_ADDR.ADDR) = .nvm ∧ (s.get NVM_ADDR.ADDR) % 32 = 0 ∧ (s.get NVM_ADDR.ADDR) % 4096 / 32 + count.toNat + 1 ≤ 128) ∧ (nvmProtectedBlock (nvmBlockOf (s.get NVM_ADDR.ADDR)) = false) ∧ (nvmReadOnly s (nvmBankOf (s.get NVM_ADDR.ADDR)) (nvmBlockOf (s.get NVM_ADDR.ADDR)) = false) ∧ ((s.bank (nvmBankOf (s.get NVM_ADDR.ADDR))).erase = none) ∧ (∀ i ≤ count.toNat, s.unitErased ((s.get NVM_ADDR.ADDR) + 32 * i) = true) ∧ ((s.get NVM_SRC.SRC) % 4 ≠ 0 ∨ inSram (s.get NVM_SRC.SRC) (32 * (count.toNat + 1)) = false) :=
  ⟨(2), ((nvmAt 0x08010000).put NVM_SRC.SRC 0x30000000), by decide +kernel⟩

theorem witness_NvmOperations_programNokey :
    ∃ (count : BitVec 7) (s : State), (Core Reg.NVM_CMD s) ∧ (s.on NVM_CMDSTAT.BUSY = false) ∧ (regionOf (s.get NVM_ADDR.ADDR) = .nvm ∧ (s.get NVM_ADDR.ADDR) % 32 = 0 ∧ (s.get NVM_ADDR.ADDR) % 4096 / 32 + count.toNat + 1 ≤ 128) ∧ (nvmProtectedBlock (nvmBlockOf (s.get NVM_ADDR.ADDR)) = false) ∧ (nvmReadOnly s (nvmBankOf (s.get NVM_ADDR.ADDR)) (nvmBlockOf (s.get NVM_ADDR.ADDR)) = false) ∧ ((s.bank (nvmBankOf (s.get NVM_ADDR.ADDR))).erase = none) ∧ (∀ i ≤ count.toNat, s.unitErased ((s.get NVM_ADDR.ADDR) + 32 * i) = true) ∧ ((s.get NVM_SRC.SRC) % 4 = 0 ∧ inSram (s.get NVM_SRC.SRC) (32 * (count.toNat + 1)) = true) ∧ (s.xtsUnusable (s.get NVM_ADDR.ADDR) = true) :=
  ⟨(2), (((nvmAt 0x08010000).put (SEC_XTSA.EN 0) 1).put (SEC_XTSA.BASE 0) 0x8000 |>.put (SEC_XTSB.LIMIT 0) 0x8020), by decide +kernel⟩

theorem witness_NvmOperations_commandBusy :
    ∃ (c : Instr) (count : BitVec 7) (ok : Bool) (s : State), (Core Reg.NVM_CMD s) ∧ (s.on NVM_CMDSTAT.BUSY = true) ∧ (c ∈ [.nvmProgram count, .nvmErase, .nvmOtpprog ok]) :=
  ⟨(.nvmErase), (2), (true), ((nvmAt 0x08010000).put NVM_CMDSTAT.BUSY 1), by decide +kernel⟩

theorem witness_NvmOperations_erase :
    ∃ (s : State), (Core Reg.NVM_CMD s) ∧ (s.on NVM_CMDSTAT.BUSY = false) ∧ (BankIdle (nvmBankOf (s.get NVM_ADDR.ADDR)) s) ∧ (regionOf (s.get NVM_ADDR.ADDR) = .nvm) ∧ (nvmProtectedBlock (nvmBlockOf (s.get NVM_ADDR.ADDR)) = false) ∧ (nvmReadOnly s (nvmBankOf (s.get NVM_ADDR.ADDR)) (nvmBlockOf (s.get NVM_ADDR.ADDR)) = false) :=
  ⟨(nvmAt 0x08010123), by decide +kernel⟩

theorem witness_NvmOperations_eraseWaits :
    ∃ (j : ProgJob) (s : State), (Core Reg.NVM_CMD s) ∧ (s.on NVM_CMDSTAT.BUSY = false) ∧ ((s.bank (nvmBankOf (s.get NVM_ADDR.ADDR))).prog = some j) ∧ ((s.bank (nvmBankOf (s.get NVM_ADDR.ADDR))).erase = none) ∧ (regionOf (s.get NVM_ADDR.ADDR) = .nvm) ∧ (nvmProtectedBlock (nvmBlockOf (s.get NVM_ADDR.ADDR)) = false) ∧ (nvmReadOnly s (nvmBankOf (s.get NVM_ADDR.ADDR)) (nvmBlockOf (s.get NVM_ADDR.ADDR)) = false) :=
  ⟨(⟨.sec, 0x08020000, none, [], 1, 4, false, .plain, none⟩), ((nvmAt 0x08010000).modBank false (fun b => { b with prog := some ⟨.sec, 0x08020000, none, [], 1, 4, false, .plain, none⟩ })), by decide +kernel⟩

theorem witness_NvmOperations_eraseBadarg :
    ∃ (s : State), (Core Reg.NVM_CMD s) ∧ (s.on NVM_CMDSTAT.BUSY = false) ∧ (regionOf (s.get NVM_ADDR.ADDR) ≠ .nvm) :=
  ⟨(nvmAt 0x20000000), by decide +kernel⟩

theorem witness_NvmOperations_eraseProtected :
    ∃ (s : State), (Core Reg.NVM_CMD s) ∧ (s.on NVM_CMDSTAT.BUSY = false) ∧ (regionOf (s.get NVM_ADDR.ADDR) = .nvm) ∧ (nvmProtectedBlock (nvmBlockOf (s.get NVM_ADDR.ADDR)) = true) :=
  ⟨(nvmAt 0x081F0000), by decide +kernel⟩

theorem witness_NvmOperations_eraseReadonly :
    ∃ (s : State), (Core Reg.NVM_CMD s) ∧ (s.on NVM_CMDSTAT.BUSY = false) ∧ (regionOf (s.get NVM_ADDR.ADDR) = .nvm) ∧ (nvmProtectedBlock (nvmBlockOf (s.get NVM_ADDR.ADDR)) = false) ∧ (nvmReadOnly s (nvmBankOf (s.get NVM_ADDR.ADDR)) (nvmBlockOf (s.get NVM_ADDR.ADDR)) = true) :=
  ⟨((nvmAt 0x08190000).modBank false (fun b => { b with free := [] })), by decide +kernel⟩

theorem witness_NvmOperations_eraseSuspended :
    ∃ (s : State), (Core Reg.NVM_CMD s) ∧ (s.on NVM_CMDSTAT.BUSY = false) ∧ (regionOf (s.get NVM_ADDR.ADDR) = .nvm) ∧ (nvmProtectedBlock (nvmBlockOf (s.get NVM_ADDR.ADDR)) = false) ∧ (nvmReadOnly s (nvmBankOf (s.get NVM_ADDR.ADDR)) (nvmBlockOf (s.get NVM_ADDR.ADDR)) = false) ∧ ((s.bank (nvmBankOf (s.get NVM_ADDR.ADDR))).erase.any (fun e => e.susp) = true) :=
  ⟨((nvmAt 0x08010000).modBank false (fun b => { b with erase := some ⟨.firmware, 17, true⟩ })), by decide +kernel⟩

theorem witness_NvmOperations_otp :
    ∃ (l : Nat) (s : State), (Core Reg.NVM_CMD s) ∧ (s.on NVM_CMDSTAT.BUSY = false) ∧ (regionOf (s.get NVM_ADDR.ADDR) = .otp) ∧ ((s.get NVM_ADDR.ADDR) % 4 = 0) ∧ (otpLock ((s.get NVM_ADDR.ADDR) - 0x08800000) = some l) ∧ ((s.otpWord l).getLsbD 0 = false) ∧ (s.otpWord ((s.get NVM_ADDR.ADDR) - 0x08800000) = 0) ∧ (s.nvm.otpZero.contains ((s.get NVM_ADDR.ADDR) - 0x08800000) = false) :=
  ⟨(0x3F04), (nvmAt 0x08801010), by decide +kernel⟩

theorem witness_NvmOperations_otpLowv :
    ∃ (l : Nat) (s : State), (Core Reg.NVM_CMD s) ∧ (s.on NVM_CMDSTAT.BUSY = false) ∧ (regionOf (s.get NVM_ADDR.ADDR) = .otp) ∧ ((s.get NVM_ADDR.ADDR) % 4 = 0) ∧ (otpLock ((s.get NVM_ADDR.ADDR) - 0x08800000) = some l) ∧ ((s.otpWord l).getLsbD 0 = false) ∧ (s.otpWord ((s.get NVM_ADDR.ADDR) - 0x08800000) = 0) ∧ (s.nvm.otpZero.contains ((s.get NVM_ADDR.ADDR) - 0x08800000) = false) :=
  ⟨(0x3F04), (nvmAt 0x08801010), by decide +kernel⟩

theorem witness_NvmOperations_otpOverwrite :
    ∃ (l : Nat) (s : State), (Core Reg.NVM_CMD s) ∧ (s.on NVM_CMDSTAT.BUSY = false) ∧ (regionOf (s.get NVM_ADDR.ADDR) = .otp) ∧ ((s.get NVM_ADDR.ADDR) % 4 = 0) ∧ (otpLock ((s.get NVM_ADDR.ADDR) - 0x08800000) = some l) ∧ ((s.otpWord l).getLsbD 0 = false) ∧ (s.otpWord ((s.get NVM_ADDR.ADDR) - 0x08800000) ≠ 0 ∨ s.nvm.otpZero.contains ((s.get NVM_ADDR.ADDR) - 0x08800000) = true) :=
  ⟨(0x3F04), ((nvmAt 0x08801010).wn 0x08801010 4 5), by decide +kernel⟩

theorem witness_NvmOperations_otpLocked :
    ∃ (l : Nat) (s : State), (Core Reg.NVM_CMD s) ∧ (s.on NVM_CMDSTAT.BUSY = false) ∧ (regionOf (s.get NVM_ADDR.ADDR) = .otp) ∧ ((s.get NVM_ADDR.ADDR) % 4 = 0) ∧ (otpLock ((s.get NVM_ADDR.ADDR) - 0x08800000) = some l) ∧ ((s.otpWord l).getLsbD 0 = true) :=
  ⟨(0x3F04), ((nvmAt 0x08801010).wn 0x08803F04 4 1), by decide +kernel⟩

theorem witness_NvmOperations_otpBadarg :
    ∃ (s : State), (Core Reg.NVM_CMD s) ∧ (s.on NVM_CMDSTAT.BUSY = false) ∧ (regionOf (s.get NVM_ADDR.ADDR) ≠ .otp ∨ (s.get NVM_ADDR.ADDR) % 4 ≠ 0 ∨ otpLock ((s.get NVM_ADDR.ADDR) - 0x08800000) = none) :=
  ⟨(nvmAt 0x08801011), by decide +kernel⟩

theorem witness_NvmOperations_otpDone :
    ∃ (a : Nat) (d : Word) (s : State), (s.clocked = true) ∧ (s.nvm.otp = some (a, d)) :=
  ⟨(0x08801010), (0x12345678), ({ nvmAt 0x08801010 with nvm := { State.reset.nvm with otp := some (0x08801010, 0x12345678) } }), by decide +kernel⟩

theorem witness_NvmOperations_otpNone :
    ∃ (s : State), (s.clocked = false ∨ s.nvm.otp = none) :=
  ⟨(nvmAt 0), by decide +kernel⟩

theorem witness_NvmOperations_lastUnit :
    ∃ (k : Bool) (pulses : BitVec 4) (j : ProgJob) (e : List Byte) (s : State), (s.clocked = true) ∧ ((s.bank k).prog = some j) ∧ (j.user = .firmware) ∧ (j.data.head?.isSome = true) ∧ (xtsUnit j.xts j.addr (j.data.headD []) = some e) ∧ (e.length = 32) ∧ (j.left = 1) ∧ (j.done < 128) ∧ ((s.bank k).eraseQ = []) ∧ (1 ≤ pulses.toNat ∧ pulses.toNat ≤ 8) :=
  ⟨(true), (7), (⟨.firmware, 0x08210000, none, [List.replicate 32 0x5A], 1, 4, false, .plain, none⟩), (List.replicate 32 0x5A), (((nvmAt 0x08210000).modBank true (fun b => { b with prog := some ⟨.firmware, 0x08210000, none, [List.replicate 32 0x5A], 1, 4, false, .plain, none⟩ }))), by decide +kernel⟩

theorem witness_NvmOperations_nextUnit :
    ∃ (k : Bool) (pulses : BitVec 4) (j : ProgJob) (e : List Byte) (s : State), (s.clocked = true) ∧ ((s.bank k).prog = some j) ∧ (j.user = .firmware) ∧ (j.data.head?.isSome = true) ∧ (xtsUnit j.xts j.addr (j.data.headD []) = some e) ∧ (e.length = 32) ∧ (2 ≤ j.left) ∧ (j.done < 127) ∧ (1 ≤ pulses.toNat ∧ pulses.toNat ≤ 8) :=
  ⟨(true), (7), (⟨.firmware, 0x08210000, none, [List.replicate 32 0x5A], 2, 4, false, .plain, none⟩), (List.replicate 32 0x5A), (((nvmAt 0x08210000).modBank true (fun b => { b with prog := some ⟨.firmware, 0x08210000, none, [List.replicate 32 0x5A], 2, 4, false, .plain, none⟩ }))), by decide +kernel⟩

theorem witness_NvmOperations_unitFails :
    ∃ (k : Bool) (j : ProgJob) (e : List Byte) (s : State), (s.clocked = true) ∧ ((s.bank k).prog = some j) ∧ (j.user = .firmware) ∧ (j.data.head?.isSome = true) ∧ (xtsUnit j.xts j.addr (j.data.headD []) = some e) ∧ (e.length = 32) ∧ (s.on EVR_CFG.EN = false) ∧ ((s.bank k).free = []) ∧ ((s.bank k).eraseQ = []) ∧ (j.done < 128) :=
  ⟨(true), (⟨.firmware, 0x08210000, none, [List.replicate 32 0x5A], 2, 4, false, .plain, none⟩), (List.replicate 32 0x5A), ((((nvmAt 0x08210000).put EVR_CFG.EN 0).modBank true (fun b => { b with free := [], prog := some ⟨.firmware, 0x08210000, none, [List.replicate 32 0x5A], 2, 4, false, .plain, none⟩ }))), by decide +kernel⟩

theorem witness_NvmOperations_retires :
    ∃ (k : Bool) (j : ProgJob) (e : List Byte) (s : State), (s.clocked = true) ∧ ((s.bank k).prog = some j) ∧ (j.user = .firmware) ∧ (j.data.head?.isSome = true) ∧ (xtsUnit j.xts j.addr (j.data.headD []) = some e) ∧ (e.length = 32) ∧ (s.on EVR_CFG.EN = false) ∧ (j.left = 1) ∧ ((s.bank k).free ≠ []) ∧ ((s.bank k).eraseQ = []) :=
  ⟨(true), (⟨.firmware, 0x08210000, none, [List.replicate 32 0x5A], 1, 4, false, .plain, none⟩), (List.replicate 32 0x5A), ((((nvmAt 0x08210000).put EVR_CFG.EN 0).modBank true (fun b => { b with prog := some ⟨.firmware, 0x08210000, none, [List.replicate 32 0x5A], 1, 4, false, .plain, none⟩ }))), by decide +kernel⟩

theorem witness_NvmOperations_unitNokey :
    ∃ (k : Bool) (j : ProgJob) (s : State), (s.clocked = true) ∧ ((s.bank k).prog = some j) ∧ (j.user = .firmware) ∧ (j.xts = .unusable) ∧ ((s.bank k).eraseQ = []) :=
  ⟨(true), (⟨.firmware, 0x08210000, none, [List.replicate 32 0x5A], 1, 4, false, .unusable, none⟩), (((nvmAt 0x08210000).modBank true (fun b => { b with prog := some ⟨.firmware, 0x08210000, none, [List.replicate 32 0x5A], 1, 4, false, .unusable, none⟩ }))), by decide +kernel⟩

theorem witness_NvmOperations_noProgram :
    ∃ (k : Bool) (s : State), (s.clocked = false ∨ (s.bank k).prog = none) :=
  ⟨(true), (nvmAt 0), by decide +kernel⟩

theorem witness_NvmOperations_erased :
    ∃ (k : Bool) (b : Nat) (s : State), (Erasing k b s) ∧ (s.on EVR_CFG.EN = false) ∧ (b < 512) :=
  ⟨(true), (16), ((erasingAt.put EVR_CFG.EN 0).wb 0x08210005 0x11), by decide +kernel⟩

theorem witness_NvmOperations_eraseRetires :
    ∃ (k : Bool) (b : Nat) (s : State), (Erasing k b s) ∧ (s.on EVR_CFG.EN = false) ∧ (b < 512) ∧ ((s.bank k).free ≠ []) :=
  ⟨(true), (16), ((erasingAt.put EVR_CFG.EN 0).wb 0x08210005 0x11), by decide +kernel⟩

theorem witness_NvmOperations_eraseFails :
    ∃ (k : Bool) (b : Nat) (s : State), (Erasing k b s) ∧ (s.on EVR_CFG.EN = false) ∧ (b < 512) ∧ ((s.bank k).free = []) :=
  ⟨(true), (16), ((erasingAt.put EVR_CFG.EN 0).modBank true (fun b => { b with free := [] })), by decide +kernel⟩

theorem witness_NvmOperations_noErase :
    ∃ (k : Bool) (s : State), (s.clocked = false ∨ (s.bank k).erase = none) :=
  ⟨(false), (erasingAt), by decide +kernel⟩

theorem witness_NvmOperations_suspend :
    ∃ (k : Bool) (e : EraseJob) (s : State), (Core Reg.NVM_SUSP s) ∧ ((s.bank k).erase = some e) ∧ ((s.bank k).progQ = []) :=
  ⟨(true), (⟨.firmware, 16, false⟩), (erasingAt), by decide +kernel⟩

theorem witness_NvmOperations_suspendIdle :
    ∃ (k : Bool) (s : State), (Core Reg.NVM_SUSP s) ∧ ((s.bank k).erase = none) :=
  ⟨(false), (erasingAt), by decide +kernel⟩

theorem witness_NvmOperations_resume :
    ∃ (k : Bool) (e : EraseJob) (s : State), (Core Reg.NVM_SUSP s) ∧ ((s.bank k).erase = some e) ∧ (e.susp = true) ∧ ((s.bank k).prog = none) ∧ ((s.bank k).progQ = []) :=
  ⟨(true), (⟨.firmware, 16, true⟩), (erasingAt.modBank true (fun b => { b with erase := some ⟨.firmware, 16, true⟩ })), by decide +kernel⟩

theorem witness_NvmOperations_resumeWaits :
    ∃ (k : Bool) (e : EraseJob) (s : State), (Core Reg.NVM_SUSP s) ∧ ((s.bank k).erase = some e) ∧ ((s.bank k).prog ≠ none) :=
  ⟨(true), (⟨.firmware, 16, true⟩), (erasingAt.modBank true (fun b => { b with erase := some ⟨.firmware, 16, true⟩, prog := some ⟨.firmware, 0x08220000, none, [], 1, 4, false, .plain, none⟩ })), by decide +kernel⟩

theorem witness_NvmOperations_resumeNone :
    ∃ (k : Bool) (s : State), (Core Reg.NVM_SUSP s) ∧ ((s.bank k).erase = none) :=
  ⟨(false), (erasingAt), by decide +kernel⟩

theorem witness_NvmOperations_readBusy :
    ∃ (m : Master) (a : Word) (z : Size) (b : Nat) (s : State), (m = .coreData ∨ m = .debug) ∧ (s.clocked = true) ∧ (regionOf a.toNat = .nvm) ∧ (busRefusal s ⟨m, a.toNat, z, false⟩ = none) ∧ (Erasing (nvmBankOf a.toNat) b s) ∧ (s.on NVM_STAT.READY = true) :=
  ⟨(.coreData), (0x08211010), (.b32), (16), (erasingAt), by decide +kernel⟩

theorem witness_NvmOperations_readWaits :
    ∃ (m : Master) (a : Word) (z : Size) (b : Nat) (s : State), (m ∈ [.secDma, .nvm, .dict, .coreInstr]) ∧ (s.clocked = true) ∧ (regionOf a.toNat = .nvm) ∧ (busRefusal s ⟨m, a.toNat, z, false⟩ = none) ∧ (Erasing (nvmBankOf a.toNat) b s) ∧ (s.on NVM_STAT.READY = true) :=
  ⟨(.secDma), (0x08211010), (.b32), (16), (erasingAt), by decide +kernel⟩

theorem witness_NvmOperations_readNotReady :
    ∃ (m : Master) (a : Word) (z : Size) (s : State), (s.clocked = true) ∧ (regionOf a.toNat = .nvm) ∧ (busRefusal s ⟨m, a.toNat, z, false⟩ = none) ∧ (s.on NVM_STAT.READY = false) :=
  ⟨(.coreData), (0x08211010), (.b32), (State.reset), by decide +kernel⟩

theorem witness_NvmOperations_readCorrected :
    ∃ (m : Master) (a : Word) (z : Size) (wrong : Fin 6) (s : State), (s.clocked = true) ∧ (regionOf a.toNat = .nvm) ∧ (busRefusal s ⟨m, a.toNat, z, false⟩ = none) ∧ ((s.bank (nvmBankOf a.toNat)).prog = none) ∧ ((s.bank (nvmBankOf a.toNat)).erase = none) ∧ (s.on NVM_STAT.READY = true) ∧ (s.ewThresh ≤ wrong.val ∧ wrong.val < 5) :=
  ⟨(.coreData), (0x08211010), (.b32), (3), (nvmAt 0), by decide +kernel⟩

theorem witness_NvmOperations_readClean :
    ∃ (m : Master) (a : Word) (z : Size) (wrong : Fin 6) (s : State), (s.clocked = true) ∧ (regionOf a.toNat = .nvm) ∧ (busRefusal s ⟨m, a.toNat, z, false⟩ = none) ∧ ((s.bank (nvmBankOf a.toNat)).prog = none) ∧ ((s.bank (nvmBankOf a.toNat)).erase = none) ∧ (s.on NVM_STAT.READY = true) ∧ (wrong.val < s.ewThresh) :=
  ⟨(.coreData), (0x08211010), (.b32), (1), (nvmAt 0), by decide +kernel⟩

theorem witness_NvmOperations_readUncorrectable :
    ∃ (m : Master) (a : Word) (z : Size) (s : State), (s.clocked = true) ∧ (regionOf a.toNat = .nvm) ∧ (busRefusal s ⟨m, a.toNat, z, false⟩ = none) ∧ ((s.bank (nvmBankOf a.toNat)).prog = none) ∧ ((s.bank (nvmBankOf a.toNat)).erase = none) ∧ (s.on NVM_STAT.READY = true) ∧ (s.on EVR_CFG.EN = false) :=
  ⟨(.coreData), (0x08211010), (.b32), ((nvmAt 0).put EVR_CFG.EN 0), by decide +kernel⟩

theorem witness_NvmOperations_metadata :
    ∃ (s : State), (s.clocked = true) ∧ (s.on NVM_STAT.READY = false) ∧ (s.nvm.bank0.abandoned = none ∧ s.nvm.bank1.abandoned = none) ∧ (s.dict.meshWait = none ∧ s.dict.store.ops = []) :=
  ⟨(State.reset), by decide +kernel⟩

theorem witness_NvmOperations_reErase :
    ∃ (k : Bool) (b : Nat) (s : State), (s.clocked = true) ∧ (s.on NVM_STAT.READY = false) ∧ (s.on EVR_CFG.EN = false) ∧ ((s.bank k).abandoned = some b) ∧ (b < 512) ∧ ((s.bank (!k)).abandoned = none) ∧ (s.dict.meshWait = none ∧ s.dict.store.ops = []) :=
  ⟨(true), (16), ((State.reset.put EVR_CFG.EN 0).modBank true (fun b => { b with abandoned := some 16 })), by decide +kernel⟩

theorem witness_NvmOperations_metadataLoaded :
    ∃ (s : State), (s.clocked = false ∨ (s.on NVM_STAT.READY = true ∧ s.dict.meshWait = none ∧ s.dict.store.ops = [])) :=
  ⟨(nvmAt 0), by decide +kernel⟩

theorem witness_NvmOperations_scrub :
    ∃ (units : List (Fin 128 × Fin 6)) (s : State), (s.clocked = true) ∧ (s.on NVM_CTRL.SCRUBEN = true) ∧ (s.on NVM_STAT.READY = true) ∧ (s.nvmBusy (nvmBlockAddr (decide (512 ≤ s.nvm.scrubAt)) 0) = false) ∧ (s.nvm.scrubAt < 1024) ∧ (s.on NVM_SCRLOG.EN = false) ∧ (∀ u ∈ units, u.2.val < s.ewThresh) :=
  ⟨([(3, 1)]), (nvmAt 0), by decide +kernel⟩

theorem witness_NvmOperations_scrubLog :
    ∃ (units : List (Fin 128 × Fin 6)) (s : State), (s.clocked = true) ∧ (s.on NVM_CTRL.SCRUBEN = true) ∧ (s.on NVM_STAT.READY = true) ∧ (s.nvmBusy (nvmBlockAddr (decide (512 ≤ s.nvm.scrubAt)) 0) = false) ∧ (s.nvm.scrubAt < 1024) ∧ (s.on NVM_SCRLOG.EN = true) ∧ (∀ u ∈ units, u.2.val = 0) ∧ (inSram (1024 * s.get NVM_SCRLOG.ADDR + s.nvm.scrubAt) 1 = true) :=
  ⟨([]), (((nvmAt 0).put NVM_SCRLOG.ADDR 0x80100).put NVM_SCRLOG.EN 1), by decide +kernel⟩

theorem witness_NvmOperations_refresh :
    ∃ (w : Fin 6) (s : State), (s.clocked = true) ∧ (s.on NVM_CTRL.SCRUBEN = true) ∧ (s.on NVM_STAT.READY = true) ∧ (s.nvmBusy (nvmBlockAddr (decide (512 ≤ s.nvm.scrubAt)) 0) = false) ∧ (s.nvm.scrubAt < 1024) ∧ (s.on NVM_SCRLOG.EN = false) ∧ (s.on EVR_CFG.EN = false) ∧ (s.ewThresh ≤ w.val ∧ w.val < 5) ∧ ((s.bank (decide (512 ≤ s.nvm.scrubAt))).prog = none ∧ (s.bank (decide (512 ≤ s.nvm.scrubAt))).erase = none) ∧ ((s.bank (decide (512 ≤ s.nvm.scrubAt))).free ≠ []) ∧ (s.nvm.scrubAt % 512 < 496) :=
  ⟨(4), ((nvmAt 0).put EVR_CFG.EN 0), by decide +kernel⟩

theorem witness_NvmOperations_scrubLost :
    ∃ (s : State), (s.clocked = true) ∧ (s.on NVM_CTRL.SCRUBEN = true) ∧ (s.on NVM_STAT.READY = true) ∧ (s.nvmBusy (nvmBlockAddr (decide (512 ≤ s.nvm.scrubAt)) 0) = false) ∧ (s.nvm.scrubAt < 1024) ∧ (s.on NVM_SCRLOG.EN = false) ∧ (s.on EVR_CFG.EN = false) :=
  ⟨((nvmAt 0).put EVR_CFG.EN 0), by decide +kernel⟩

theorem witness_NvmOperations_scrubOff :
    ∃ (s : State), (s.clocked = false ∨ s.on NVM_CTRL.SCRUBEN = false ∨ s.on NVM_STAT.READY = false ∨ s.nvmBusy (nvmBlockAddr (decide (512 ≤ s.nvm.scrubAt)) 0) = true) :=
  ⟨(State.reset), by decide +kernel⟩

theorem witness_MemoryPort_fill :
    ∃ (m : Master) (a : Word) (s : State), (s.clocked = true) ∧ (regionOf (a.toNat / 4 * 4) = .xip) ∧ (busRefusal s ⟨m, (a.toNat / 4 * 4), .b32, false⟩ = none) ∧ (s.spim.queue = [] ∧ s.spimPolls = false) ∧ (s.on SPIM_CFG.CACHEEN = true) ∧ (s.spim.cache.any (fun l => l.1 == (a.toNat / 32 * 32)) = false) ∧ (s.spim.part.all (fun p => p.1 / 32 * 32 != (a.toNat / 32 * 32)) = true) ∧ ((s.spim.cache.filter (fun l => l.1 / 32 % 64 == (a.toNat / 32 * 32) / 32 % 64)).length < 4) :=
  ⟨(.coreData), (0x10000047), (xipAt), by decide +kernel⟩

theorem witness_MemoryPort_fillFull :
    ∃ (m : Master) (a : Word) (old : Nat × List Byte) (s : State), (s.clocked = true) ∧ (regionOf (a.toNat / 4 * 4) = .xip) ∧ (busRefusal s ⟨m, (a.toNat / 4 * 4), .b32, false⟩ = none) ∧ (s.spim.queue = [] ∧ s.spimPolls = false) ∧ (s.on SPIM_CFG.CACHEEN = true) ∧ (s.spim.cache.any (fun l => l.1 == (a.toNat / 32 * 32)) = false) ∧ (s.spim.part.all (fun p => p.1 / 32 * 32 != (a.toNat / 32 * 32)) = true) ∧ ((s.spim.cache.filter (fun l => l.1 / 32 % 64 == (a.toNat / 32 * 32) / 32 % 64)).head? = some old ∧ 4 ≤ (s.spim.cache.filter (fun l => l.1 / 32 % 64 == (a.toNat / 32 * 32) / 32 % 64)).length) :=
  ⟨(.coreData), (0x10000047), ((0x10010040, [1])), (xipAt.modSpim (fun p => { p with cache := [(0x10010040, [1]), (0x10000060, [2]), (0x10000840, [3]), (0x10001040, [4]), (0x10001840, [5])] })), by decide +kernel⟩

theorem witness_MemoryPort_fillWaits :
    ∃ (m : Master) (a : Word) (s : State), (s.clocked = true) ∧ (regionOf (a.toNat / 4 * 4) = .xip) ∧ (busRefusal s ⟨m, (a.toNat / 4 * 4), .b32, false⟩ = none) ∧ (s.spim.queue ≠ [] ∨ s.spimPolls = true) :=
  ⟨(.coreData), (0x10000047), (xipAt.modSpim (fun p => { p with queue := [⟨0x10000000, [1]⟩] })), by decide +kernel⟩

theorem witness_MemoryPort_fillNone :
    ∃ (m : Master) (a : Word) (s : State), (s.clocked = true) ∧ (regionOf (a.toNat / 4 * 4) = .xip) ∧ (busRefusal s ⟨m, (a.toNat / 4 * 4), .b32, false⟩ = none) ∧ (s.on SPIM_CFG.CACHEEN = false ∨ s.spim.cache.any (fun l => l.1 == (a.toNat / 32 * 32)) = true ∨ s.spim.part.any (fun p => p.1 / 32 * 32 == (a.toNat / 32 * 32)) = true) :=
  ⟨(.coreData), (0x10000047), (xipAt.put SPIM_CFG.CACHEEN 0), by decide +kernel⟩

theorem witness_MemoryPort_store :
    ∃ (m : Master) (a : Word) (z : Size) (s : State), (s.clocked = true) ∧ (regionOf a.toNat = .xip) ∧ (busRefusal s ⟨m, a.toNat, z, true⟩ = none) ∧ (s.xtsRegion a.toNat = none) ∧ (s.spim.queue.length < 4) ∧ (s.spim.part = none) :=
  ⟨(.coreData), (0x10000044), (.b32), (xipAt), by decide +kernel⟩

theorem witness_MemoryPort_storeDrops :
    ∃ (m : Master) (a : Word) (z : Size) (s : State), (s.clocked = true) ∧ (regionOf a.toNat = .xip) ∧ (busRefusal s ⟨m, a.toNat, z, true⟩ = none) ∧ (s.xtsRegion a.toNat = none) ∧ (s.spim.queue.length < 4) ∧ (s.spim.part ≠ none) :=
  ⟨(.coreData), (0x10000044), (.b32), (xipAt.modSpim (fun p => { p with part := some (0x10000100, List.replicate 16 none) })), by decide +kernel⟩

theorem witness_MemoryPort_storeFull :
    ∃ (m : Master) (a : Word) (z : Size) (s : State), (s.clocked = true) ∧ (regionOf a.toNat = .xip) ∧ (busRefusal s ⟨m, a.toNat, z, true⟩ = none) ∧ (s.xtsRegion a.toNat = none) ∧ (4 ≤ s.spim.queue.length) :=
  ⟨(.coreData), (0x10000044), (.b32), (xipAt.modSpim (fun p => { p with queue := List.replicate 4 ⟨0x10000000, [1]⟩ })), by decide +kernel⟩

theorem witness_MemoryPort_collects :
    ∃ (m : Master) (a : Word) (z : Size) (d : BitVec 64) (n : Nat) (s : State), (s.clocked = true) ∧ (regionOf a.toNat = .xip) ∧ (busRefusal s ⟨m, a.toNat, z, true⟩ = none) ∧ (s.xtsRegion a.toNat = some n) ∧ (s.spim.part.all (fun p => p.1 == (a.toNat / 16 * 16)) = true) ∧ ((collect ((s.spim.part.map (·.2)).getD (List.replicate 16 none)) (a.toNat % 16) (leBytes (sizeBytes z) d.toNat)).any (fun b => b.isNone) = true) :=
  ⟨(.coreData), (0x10000044), (.b32), (0xABCD), (0), (((xipAt.put (SEC_XTSA.EN 0) 1).put (SEC_XTSA.BASE 0) 0x10000 |>.put (SEC_XTSB.LIMIT 0) 0x10010).modSec (fun x => { x with slots := (x.slots.set 0 { valid := true, use := 4, key := List.replicate 16 7 }).set 1 { valid := true, use := 4, key := List.replicate 16 8 } })), by decide +kernel⟩

theorem witness_MemoryPort_block :
    ∃ (m : Master) (a : Word) (z : Size) (d : BitVec 64) (n : Nat) (k1 : List Byte) (k2 : List Byte) (s : State), (s.clocked = true) ∧ (regionOf a.toNat = .xip) ∧ (busRefusal s ⟨m, a.toNat, z, true⟩ = none) ∧ (s.xtsRegion a.toNat = some n) ∧ (s.spim.part.all (fun p => p.1 == (a.toNat / 16 * 16)) = true) ∧ ((collect ((s.spim.part.map (·.2)).getD (List.replicate 16 none)) (a.toNat % 16) (leBytes (sizeBytes z) d.toNat)).all (fun b => b.isSome) = true) ∧ (s.xtsKeys n = some (k1, k2)) ∧ (s.spim.queue.length < 4) :=
  ⟨(.coreData), (0x10000044), (.b32), (0xABCD), (0), (List.replicate 16 7), (List.replicate 16 8), ((((xipAt.put (SEC_XTSA.EN 0) 1).put (SEC_XTSA.BASE 0) 0x10000 |>.put (SEC_XTSB.LIMIT 0) 0x10010).modSec (fun x => { x with slots := (x.slots.set 0 { valid := true, use := 4, key := List.replicate 16 7 }).set 1 { valid := true, use := 4, key := List.replicate 16 8 } })).modSpim (fun p => { p with part := some (0x10000040, (List.replicate 4 (some 9)) ++ List.replicate 4 none ++ List.replicate 8 (some 9)) })), by decide +kernel⟩

theorem witness_MemoryPort_blockWaits :
    ∃ (m : Master) (a : Word) (z : Size) (d : BitVec 64) (n : Nat) (k1 : List Byte) (k2 : List Byte) (s : State), (s.clocked = true) ∧ (regionOf a.toNat = .xip) ∧ (busRefusal s ⟨m, a.toNat, z, true⟩ = none) ∧ (s.xtsRegion a.toNat = some n) ∧ (s.spim.part.all (fun p => p.1 == (a.toNat / 16 * 16)) = true) ∧ ((collect ((s.spim.part.map (·.2)).getD (List.replicate 16 none)) (a.toNat % 16) (leBytes (sizeBytes z) d.toNat)).all (fun b => b.isSome) = true) ∧ (s.xtsKeys n = some (k1, k2)) ∧ (4 ≤ s.spim.queue.length) :=
  ⟨(.coreData), (0x10000044), (.b32), (0xABCD), (0), (List.replicate 16 7), (List.replicate 16 8), ((((xipAt.put (SEC_XTSA.EN 0) 1).put (SEC_XTSA.BASE 0) 0x10000 |>.put (SEC_XTSB.LIMIT 0) 0x10010).modSec (fun x => { x with slots := (x.slots.set 0 { valid := true, use := 4, key := List.replicate 16 7 }).set 1 { valid := true, use := 4, key := List.replicate 16 8 } })).modSpim (fun p => { p with part := some (0x10000040, (List.replicate 4 (some 9)) ++ List.replicate 4 none ++ List.replicate 8 (some 9)), queue := List.replicate 4 ⟨0x10000000, [1]⟩ })), by decide +kernel⟩

theorem witness_MemoryPort_outsideWindow :
    ∃ (a : Word) (s : State), (s.clocked = false ∨ regionOf a.toNat ≠ .xip) :=
  ⟨(0x20000000), (xipAt), by decide +kernel⟩

theorem witness_MemoryPort_program :
    ∃ (e : WqEntry) (rest : List WqEntry) (sel : Nat) (o : Nat) (s : State), (s.spimOn = true ∧ s.spimPolls = false) ∧ (s.spim.queue = e :: rest) ∧ (s.xipTarget (e.addr - 0x10000000) = some (sel, o)) ∧ (s.spim.direct = none) :=
  ⟨(⟨0x10000040, [1, 2]⟩), ([]), (0), (0x40), (xipAt.modSpim (fun p => { p with queue := [⟨0x10000040, [1, 2]⟩] })), by decide +kernel⟩

theorem witness_MemoryPort_programAhead :
    ∃ (e : WqEntry) (rest : List WqEntry) (sel : Nat) (o : Nat) (w : Word) (b : Nat) (n : Nat) (s : State), (s.spimOn = true ∧ s.spimPolls = false) ∧ (s.spim.queue = e :: rest) ∧ (s.xipTarget (e.addr - 0x10000000) = some (sel, o)) ∧ (s.spim.direct = some (w, b, .waiting (n + 1))) :=
  ⟨(⟨0x10000040, [1, 2]⟩), ([]), (0), (0x40), (0), (0), (0), (xipAt.modSpim (fun p => { p with queue := [⟨0x10000040, [1, 2]⟩], direct := some (0, 0, .waiting 1) })), by decide +kernel⟩

theorem witness_MemoryPort_programHeld :
    ∃ (s : State), (s.spimOn = false ∨ s.spimPolls = true ∨ s.spim.queue = [] ∨ s.spim.direct.any (fun d => d.2.2 == .running || d.2.2 == .waiting 0) = true) :=
  ⟨(xipAt), by decide +kernel⟩

theorem witness_MemoryPort_pollBusy :
    ∃ (v : BitVec 8) (k : Nat) (s : State), (s.spimOn = true) ∧ (s.spim.poll = some k) ∧ (v.getLsbD (s.get (SPIM_WR.BUSYBIT k)) = true) :=
  ⟨(1), (0), (xipAt.modSpim (fun p => { p with poll := some 0 })), by decide +kernel⟩

theorem witness_MemoryPort_pollDone :
    ∃ (v : BitVec 8) (k : Nat) (s : State), (s.spimOn = true) ∧ (s.spim.poll = some k) ∧ (v.getLsbD (s.get (SPIM_WR.BUSYBIT k)) = false) ∧ (s.spim.direct.all (fun d => d.2.2 != .waiting 0) = true) :=
  ⟨(2), (0), (xipAt.modSpim (fun p => { p with poll := some 0 })), by decide +kernel⟩

theorem witness_MemoryPort_pollStarts :
    ∃ (v : BitVec 8) (k : Nat) (w : Word) (b : Nat) (s : State), (s.spimOn = true) ∧ (s.spim.poll = some k) ∧ (v.getLsbD (s.get (SPIM_WR.BUSYBIT k)) = false) ∧ (s.spim.direct = some (w, b, .waiting 0)) :=
  ⟨(2), (0), (0), (0), (xipAt.modSpim (fun p => { p with poll := some 0, direct := some (0, 0, .waiting 0) })), by decide +kernel⟩

theorem witness_MemoryPort_directPolled :
    ∃ (v : BitVec 8) (w : Word) (b : Nat) (s : State), (s.spimOn = true) ∧ (s.spim.poll = none ∧ s.spim.direct = some (w, b, .polling)) ∧ (v.getLsbD (s.get (SPIM_WR.BUSYBIT (SPIM_DCMD.CS.of w))) = false) :=
  ⟨(2), (0), (0), (xipAt.modSpim (fun p => { p with direct := some (0, 0, .polling) })), by decide +kernel⟩

theorem witness_MemoryPort_pollNone :
    ∃ (s : State), (s.spimOn = false ∨ s.spimPolls = false) :=
  ⟨(xipAt), by decide +kernel⟩

theorem witness_MemoryPort_pollTimeout :
    ∃ (s : State), (s.spimOn = true) ∧ (s.spim.poll.isSome = true ∧ s.spim.direct = none) :=
  ⟨(xipAt.modSpim (fun p => { p with poll := some 0, queue := List.replicate 3 ⟨0x10000000, [1]⟩ })), by decide +kernel⟩

theorem witness_MemoryPort_timeoutStarts :
    ∃ (w : Word) (b : Nat) (n : Nat) (s : State), (s.spimOn = true) ∧ (s.spim.poll.isSome = true ∧ s.spim.direct = some (w, b, .waiting n)) :=
  ⟨(0), (0), (2), (xipAt.modSpim (fun p => { p with poll := some 0, direct := some (0, 0, .waiting 2), queue := List.replicate 3 ⟨0x10000000, [1]⟩ })), by decide +kernel⟩

theorem witness_MemoryPort_directTimeout :
    ∃ (w : Word) (b : Nat) (s : State), (s.spimOn = true) ∧ (s.spim.poll = none ∧ s.spim.direct = some (w, b, .polling)) :=
  ⟨(0), (0), (xipAt.modSpim (fun p => { p with direct := some (0, 0, .polling) })), by decide +kernel⟩

theorem witness_MemoryPort_timeoutNone :
    ∃ (s : State), (s.spimOn = false ∨ s.spimPolls = false) :=
  ⟨(xipAt), by decide +kernel⟩

theorem witness_MemoryPort_direct :
    ∃ (s : State), (Core Reg.SPIM_DCMD s) ∧ (s.spim.direct = none ∧ s.spim.queue = [] ∧ s.spim.poll = none) :=
  ⟨(xipAt), by decide +kernel⟩

theorem witness_MemoryPort_directWaits :
    ∃ (s : State), (Core Reg.SPIM_DCMD s) ∧ (s.spim.direct = none) ∧ (s.spim.queue ≠ [] ∨ s.spim.poll ≠ none) :=
  ⟨(xipAt.modSpim (fun p => { p with queue := List.replicate 3 ⟨0x10000000, [1]⟩ })), by decide +kernel⟩

theorem witness_MemoryPort_directBusy :
    ∃ (s : State), (Core Reg.SPIM_DCMD s) ∧ (s.spim.direct.isSome = true) :=
  ⟨(xipAt.modSpim (fun p => { p with direct := some (0, 0, .running) })), by decide +kernel⟩

theorem witness_MemoryPort_directReads :
    ∃ (rd : List (BitVec 8)) (d : Word) (b : Nat) (s : State), (s.spimOn = true) ∧ (s.spim.direct = some (d, b, .running)) ∧ (SPIM_DCMD.DIR.of d = 1) ∧ (rd.length = min 256 (SPIM_DCMD.LEN.of d) ∧ inSram b rd.length = true) ∧ (SPIM_DCMD.POLL.of d = 0) :=
  ⟨([0xC2, 0x20, 0x18]), ((SPIM_DCMD.LEN.into (SPIM_DCMD.DIR.into 0 1) 3)), (0x20030000), (xipAt.modSpim (fun p => { p with direct := some ((SPIM_DCMD.LEN.into (SPIM_DCMD.DIR.into 0 1) 3), 0x20030000, .running) })), by decide +kernel⟩

theorem witness_MemoryPort_directWrites :
    ∃ (d : Word) (b : Nat) (s : State), (s.spimOn = true) ∧ (s.spim.direct = some (d, b, .running)) ∧ (SPIM_DCMD.DIR.of d ≠ 1) ∧ (SPIM_DCMD.POLL.of d = 0) :=
  ⟨(0), (0), (xipAt.modSpim (fun p => { p with direct := some (0, 0, .running) })), by decide +kernel⟩

theorem witness_MemoryPort_directPolls :
    ∃ (d : Word) (b : Nat) (s : State), (s.spimOn = true) ∧ (s.spim.direct = some (d, b, .running)) ∧ (SPIM_DCMD.DIR.of d ≠ 1) ∧ (SPIM_DCMD.POLL.of d = 1) :=
  ⟨(SPIM_DCMD.POLL.into 0 1), (0), (xipAt.modSpim (fun p => { p with direct := some (SPIM_DCMD.POLL.into 0 1, 0, .running) })), by decide +kernel⟩

theorem witness_MemoryPort_directNone :
    ∃ (s : State), (s.spimOn = false ∨ s.spim.direct.all (fun d => d.2.2 != .running) = true) :=
  ⟨(xipAt), by decide +kernel⟩

theorem witness_HostPort_nop :
    ∃ (b : List (BitVec 8)) (s : State), (HostReady s) ∧ (b.length ≤ 2048) :=
  ⟨([1, 2]), (hostAt), by decide +kernel⟩

theorem witness_HostPort_repeat :
    ∃ (b : List (BitVec 8)) (s : State), (HostReady s) ∧ (b.length ≤ 2048) :=
  ⟨([]), (hostAt), by decide +kernel⟩

theorem witness_HostPort_put :
    ∃ (b : List (BitVec 8)) (s : State), (HostReady s) ∧ (0 < b.length ∧ b.length ≤ 2048) ∧ (s.mbOn 0 = true) ∧ (4 * s.get (SPIS_MBPTR.WR 0) < s.mbSize 0 ∧ 4 * s.get (SPIS_MBPTR.RD 0) < s.mbSize 0) ∧ (4 * s.get (SPIS_MBPTR.WR 0) + (mbRecord b).length ≤ s.mbSize 0) ∧ ((mbRecord b).length + 4 ≤ (if s.get (SPIS_MBPTR.RD 0) = s.get (SPIS_MBPTR.WR 0) then s.mbSize 0 else (4 * s.get (SPIS_MBPTR.RD 0) + s.mbSize 0 - 4 * s.get (SPIS_MBPTR.WR 0)) % s.mbSize 0)) :=
  ⟨([1, 2, 3]), (hostAt), by decide +kernel⟩

theorem witness_HostPort_putPads :
    ∃ (b : List (BitVec 8)) (s : State), (HostReady s) ∧ (0 < b.length ∧ b.length ≤ 2048) ∧ (s.mbOn 0 = true) ∧ (4 * s.get (SPIS_MBPTR.WR 0) < s.mbSize 0 ∧ 4 * s.get (SPIS_MBPTR.RD 0) < s.mbSize 0) ∧ (s.mbSize 0 < 4 * s.get (SPIS_MBPTR.WR 0) + (mbRecord b).length) ∧ (s.mbSize 0 - 4 * s.get (SPIS_MBPTR.WR 0) + (mbRecord b).length + 4 ≤ (if s.get (SPIS_MBPTR.RD 0) = s.get (SPIS_MBPTR.WR 0) then s.mbSize 0 else (4 * s.get (SPIS_MBPTR.RD 0) + s.mbSize 0 - 4 * s.get (SPIS_MBPTR.WR 0)) % s.mbSize 0)) :=
  ⟨([1, 2, 3, 4, 5]), ((hostAt.put (SPIS_MBPTR.WR 0) 1022).put (SPIS_MBPTR.RD 0) 1022), by decide +kernel⟩

theorem witness_HostPort_putFull :
    ∃ (b : List (BitVec 8)) (s : State), (HostReady s) ∧ (0 < b.length ∧ b.length ≤ 2048) ∧ (s.mbOn 0 = true) ∧ (4 * s.get (SPIS_MBPTR.WR 0) < s.mbSize 0 ∧ 4 * s.get (SPIS_MBPTR.RD 0) < s.mbSize 0) ∧ ((if s.get (SPIS_MBPTR.RD 0) = s.get (SPIS_MBPTR.WR 0) then s.mbSize 0 else (4 * s.get (SPIS_MBPTR.RD 0) + s.mbSize 0 - 4 * s.get (SPIS_MBPTR.WR 0)) % s.mbSize 0) < (if s.mbSize 0 < 4 * s.get (SPIS_MBPTR.WR 0) + (mbRecord b).length then s.mbSize 0 - 4 * s.get (SPIS_MBPTR.WR 0) else 0) + (mbRecord b).length + 4) :=
  ⟨([1, 2, 3, 4, 5]), ((hostAt.put (SPIS_MBPTR.WR 0) 1020).put (SPIS_MBPTR.RD 0) 1023), by decide +kernel⟩

theorem witness_HostPort_putOff :
    ∃ (b : List (BitVec 8)) (s : State), (HostReady s) ∧ (0 < b.length ∧ b.length ≤ 2048) ∧ (s.mbOn 0 = false) :=
  ⟨([1, 2, 3]), (hostAt.put (SPIS_MBBASE.EN 0) 0), by decide +kernel⟩

theorem witness_HostPort_putEmpty :
    ∃ (s : State), (HostReady s) :=
  ⟨(hostAt), by decide +kernel⟩

theorem witness_HostPort_get :
    ∃ (s : State), (HostReady s) ∧ (s.mbOn 1 = true ∧ s.get (SPIS_MBPTR.RD 1) ≠ s.get (SPIS_MBPTR.WR 1)) ∧ (4 * s.get (SPIS_MBPTR.WR 1) < s.mbSize 1 ∧ 4 * s.get (SPIS_MBPTR.RD 1) < s.mbSize 1) ∧ (s.rn (s.mbBase 1 + 4 * s.get (SPIS_MBPTR.RD 1)) 2 ≤ 2048) :=
  ⟨((hostAt.put (SPIS_MBPTR.WR 1) 2).wn 0x20048000 2 3), by decide +kernel⟩

theorem witness_HostPort_getPast :
    ∃ (s : State), (HostReady s) ∧ (s.mbOn 1 = true ∧ s.get (SPIS_MBPTR.RD 1) ≠ s.get (SPIS_MBPTR.WR 1)) ∧ (4 * s.get (SPIS_MBPTR.WR 1) < s.mbSize 1 ∧ 4 * s.get (SPIS_MBPTR.RD 1) < s.mbSize 1) ∧ (s.rn (s.mbBase 1 + 4 * s.get (SPIS_MBPTR.RD 1)) 2 = 0xFFFF) ∧ (s.get (SPIS_MBPTR.WR 1) ≠ 0) ∧ (s.rn (s.mbBase 1) 2 ≤ 2048) :=
  ⟨((((hostAt.put (SPIS_MBPTR.WR 1) 2).put (SPIS_MBPTR.RD 1) 1000).wn 0x20048000 2 3).wn 0x20048FA0 2 0xFFFF), by decide +kernel⟩

theorem witness_HostPort_getEmpty :
    ∃ (s : State), (HostReady s) ∧ (s.mbOn 1 = false ∨ s.get (SPIS_MBPTR.RD 1) = s.get (SPIS_MBPTR.WR 1)) :=
  ⟨(hostAt), by decide +kernel⟩

theorem witness_HostPort_getLen :
    ∃ (b : List (BitVec 8)) (s : State), (HostReady s) ∧ (b.length ≤ 2048) ∧ (b ≠ []) :=
  ⟨([1]), (hostAt), by decide +kernel⟩

theorem witness_HostPort_attn :
    ∃ (b : List (BitVec 8)) (s : State), (HostReady s) ∧ (b.length = 4) :=
  ⟨([3, 0, 0, 0]), (hostAt.put SPIS_ATTN.SW 7), by decide +kernel⟩

theorem witness_HostPort_attnLen :
    ∃ (b : List (BitVec 8)) (s : State), (HostReady s) ∧ (b.length ≤ 2048) ∧ (b.length ≠ 4) :=
  ⟨([3]), (hostAt), by decide +kernel⟩

theorem witness_HostPort_dictEmpty :
    ∃ (s : State), (HostReady s) :=
  ⟨(hostAt), by decide +kernel⟩

theorem witness_HostPort_busy :
    ∃ (c : Instr) (tag : BitVec 4) (b : List (BitVec 8)) (s : State), (s.clocked = true ∧ s.on SPIS_CTRL.EN = true ∧ s.on SYSC_CLKGATE.SPIS = true ∧ s.spis.pend = true) ∧ (c ∈ [.hostNop tag b, .hostRepeat tag b, .mboxPut tag b, .mboxGet tag b, .hostAttn tag b, .hostDict tag b, .busyFrame]) :=
  ⟨(.hostNop 9 []), (9), ([]), (hostAt.modSpis (fun p => { p with pend := true })), by decide +kernel⟩

theorem witness_HostPort_badlen :
    ∃ (c : Instr) (tag : BitVec 4) (b : List (BitVec 8)) (s : State), (s.clocked = true ∧ s.on SPIS_CTRL.EN = true ∧ s.on SYSC_CLKGATE.SPIS = true ∧ s.spis.pend = false) ∧ (2048 < b.length) ∧ (c ∈ [.hostNop tag b, .hostRepeat tag b, .mboxPut tag b, .mboxGet tag b, .hostAttn tag b, .hostDict tag b]) :=
  ⟨(.hostNop 9 (List.replicate 2049 0)), (9), (List.replicate 2049 0), (hostAt), by decide +kernel⟩

theorem witness_HostPort_overrun :
    ∃ (c : Instr) (tag : BitVec 4) (b : List (BitVec 8)) (s : State), (s.clocked = true ∧ s.on SPIS_CTRL.EN = true ∧ s.on SYSC_CLKGATE.SPIS = true ∧ s.spis.pend = false) ∧ (s.hsRdy = false) ∧ (b.length ≤ 2048) ∧ (c ∈ [.hostNop tag b, .hostRepeat tag b, .mboxPut tag b, .mboxGet tag b, .hostAttn tag b, .hostDict tag b]) :=
  ⟨(.hostNop 9 []), (9), ([]), ({ hostAt with power := { hostAt.power with st := .draining .sleep } }), by decide +kernel⟩

theorem witness_HostPort_frameOff :
    ∃ (c : Instr) (tag : BitVec 4) (b : List (BitVec 8)) (s : State), (s.clocked = false ∨ s.on SPIS_CTRL.EN = false ∨ s.on SYSC_CLKGATE.SPIS = false) ∧ (c ∈ [.hostNop tag b, .hostRepeat tag b, .mboxPut tag b, .mboxGet tag b, .hostAttn tag b, .hostDict tag b, .busyFrame]) :=
  ⟨(.hostNop 9 []), (9), ([]), (State.reset), by decide +kernel⟩

theorem witness_HostPort_broken :
    ∃ (code : BitVec 3) (s : State), (s.clocked = true ∧ s.on SPIS_CTRL.EN = true ∧ s.on SYSC_CLKGATE.SPIS = true ∧ s.spis.pend = false) ∧ (1 ≤ code.toNat ∧ code.toNat ≤ 5) :=
  ⟨(3), (hostAt), by decide +kernel⟩

theorem witness_HostPort_brokenBusy :
    ∃ (code : BitVec 3) (s : State), (s.clocked = true ∧ s.on SPIS_CTRL.EN = true ∧ s.on SYSC_CLKGATE.SPIS = true ∧ s.spis.pend = true) ∧ (1 ≤ code.toNat ∧ code.toNat ≤ 5) :=
  ⟨(3), (hostAt.modSpis (fun p => { p with pend := true })), by decide +kernel⟩

theorem witness_HostPort_brokenNone :
    ∃ (code : BitVec 3) (s : State), (s.clocked = false ∨ s.on SPIS_CTRL.EN = false ∨ s.on SYSC_CLKGATE.SPIS = false ∨ code.toNat = 0 ∨ 5 < code.toNat) :=
  ⟨(3), (State.reset), by decide +kernel⟩

theorem witness_HostPort_busyNone :
    ∃ (s : State), (s.spis.pend = false) :=
  ⟨(hostAt), by decide +kernel⟩

theorem witness_HostPort_disable :
    ∃ (d : Word) (s : State), (Core Reg.SPIS_CTRL s) ∧ (SPIS_CTRL.EN.of d = 0) :=
  ⟨(0), (hostAt), by decide +kernel⟩

theorem witness_HostPort_enable :
    ∃ (d : Word) (s : State), (Core Reg.SPIS_CTRL s) ∧ (SPIS_CTRL.EN.of d = 1) :=
  ⟨(0x80000000), (State.reset.put SYSC_CLKGATE.SPIS 1), by decide +kernel⟩

theorem witness_RingFrames_cycle :
    ∃ (s : State), (RingUp s) ∧ (s.inRing = true ∧ s.rg ≠ rgManager) :=
  ⟨(ringAt), by decide +kernel⟩

theorem witness_RingFrames_cycleJoins :
    ∃ (s : State), (RingUp s) ∧ (s.rg = rgListen) :=
  ⟨(ringAt.put RING_STAT.STATE 1), by decide +kernel⟩

theorem witness_RingFrames_cycleWaits :
    ∃ (s : State), (RingUp s) ∧ (s.rg = rgBypass ∨ s.rg = rgJoin) :=
  ⟨(ringAt.put RING_STAT.STATE 2), by decide +kernel⟩

theorem witness_RingFrames_latency :
    ∃ (s : State), (RingUp s) ∧ (s.rg = rgManager) :=
  ⟨(ringAt.put RING_STAT.STATE 6), by decide +kernel⟩

theorem witness_RingFrames_lossMember :
    ∃ (s : State), (RingUp s) ∧ (s.rg = rgRun ∨ s.rg = rgManager) ∧ (s.get RING_CFG.MGRPRI = 0) ∧ (s.ringReady = []) :=
  ⟨(ringAt), by decide +kernel⟩

theorem witness_RingFrames_lossNopos :
    ∃ (i : Nat) (s : State), (RingUp s) ∧ (s.rg = rgRun ∨ s.rg = rgManager) ∧ (s.get RING_CFG.MGRPRI = 0) ∧ (s.ringTxOn = true ∧ i < 16 ∧ s.get RING_TXQPTR.TAIL = i ∧ s.get RING_TXQPTR.HEAD = (i + 1) % 16 ∧ s.rb (s.ringDesc i) = 1) :=
  ⟨(0), (ringTxAt), by decide +kernel⟩

theorem witness_RingFrames_lossClaims :
    ∃ (s : State), (RingUp s) ∧ (s.rg = rgMember ∨ s.rg = rgRun ∨ s.rg = rgManager) ∧ (s.get RING_CFG.MGRPRI ≠ 0) ∧ (s.ringReady = []) :=
  ⟨(ringAt.put RING_CFG.MGRPRI 9), by decide +kernel⟩

theorem witness_RingFrames_lossListen :
    ∃ (s : State), (RingUp s) ∧ (s.rg = rgListen) ∧ (s.get RING_CFG.MGRPRI ≠ 0) ∧ (s.ringReady = []) :=
  ⟨((ringAt.put RING_STAT.STATE 1).put RING_CFG.MGRPRI 9), by decide +kernel⟩

theorem witness_RingFrames_lossNone :
    ∃ (s : State), (RingUp s) ∧ ((s.get RING_CFG.MGRPRI = 0 ∧ (s.rg = rgListen ∨ s.rg = rgMember)) ∨ s.rg = rgBypass ∨ s.rg = rgJoin ∨ s.rg = rgClaim) :=
  ⟨(ringAt.put RING_STAT.STATE 4), by decide +kernel⟩

theorem witness_RingFrames_time :
    ∃ (h : RingHdr) (qual : BitVec 8) (s : State), (RingUp s) ∧ (s.rg = rgRun) ∧ (h.fate = .good ∧ h.src.toNat ≠ s.pos) ∧ ((s.on RING_CFG.TMEAS && qual.getLsbD 0 && s.on (RING_PORT.DVALID s.primaryIn) && s.time.valid) = false) :=
  ⟨(⟨0, 0xFF, 0, 3, .good⟩), (1), (ringAt.put RING_CFG.TMEAS 0), by decide +kernel⟩

theorem witness_RingFrames_timeMeasured :
    ∃ (h : RingHdr) (qual : BitVec 8) (s : State), (RingUp s) ∧ (s.rg = rgRun) ∧ (h.fate = .good ∧ h.src.toNat ≠ s.pos) ∧ ((s.on RING_CFG.TMEAS && qual.getLsbD 0 && s.on (RING_PORT.DVALID s.primaryIn) && s.time.valid) = true) ∧ (s.on TIME_STAT.SERVO = false) :=
  ⟨(⟨4, 0xFF, 0, 3, .good⟩), (1), (((((timeAt.put SYSC_PDSTAT.RING 1).put RING_CFG.EN 1).put RING_STAT.STATE 5).put RING_CFG.TMEAS 1).put (RING_PORT.DVALID 1) 1), by decide +kernel⟩

theorem witness_RingFrames_timeUnnumbered :
    ∃ (h : RingHdr) (s : State), (RingUp s) ∧ (s.rg = rgMember ∨ s.rg = rgClaim) ∧ (h.fate = .good) :=
  ⟨(⟨0, 0xFF, 0, 3, .good⟩), (ringAt.put RING_STAT.STATE 4), by decide +kernel⟩

theorem witness_RingFrames_timeManager :
    ∃ (s : State), (RingUp s) ∧ (s.rg = rgManager) :=
  ⟨(ringAt.put RING_STAT.STATE 6), by decide +kernel⟩

theorem witness_RingFrames_number :
    ∃ (h : RingHdr) (hop : BitVec 8) (s : State), (RingUp s) ∧ (s.rg = rgMember ∨ s.rg = rgRun) ∧ (h.fate = .good) ∧ (hop.toNat < 32) :=
  ⟨(⟨0, 0xFF, 0, 3, .good⟩), (5), (ringAt), by decide +kernel⟩

theorem witness_RingFrames_numberBeyond :
    ∃ (h : RingHdr) (hop : BitVec 8) (s : State), (RingUp s) ∧ (s.rg = rgMember ∨ s.rg = rgRun) ∧ (h.fate = .good) ∧ (32 ≤ hop.toNat) ∧ (s.ringReady = []) :=
  ⟨(⟨0, 0xFF, 0, 3, .good⟩), (32), (ringAt.put RING_STAT.STATE 4), by decide +kernel⟩

theorem witness_RingFrames_numberPasses :
    ∃ (h : RingHdr) (s : State), (RingUp s) ∧ (s.rg = rgClaim) ∧ (h.fate = .good) :=
  ⟨(⟨0, 0xFF, 0, 3, .good⟩), (ringAt.put RING_STAT.STATE 3), by decide +kernel⟩

theorem witness_RingFrames_numberManager :
    ∃ (s : State), (RingUp s) ∧ (s.rg = rgManager) :=
  ⟨(ringAt.put RING_STAT.STATE 6), by decide +kernel⟩

theorem witness_RingFrames_claimYields :
    ∃ (h : RingHdr) (pri : BitVec 8) (ext : DWord) (s : State), (RingUp s) ∧ (s.rg = rgClaim ∨ s.rg = rgManager) ∧ (s.get RING_CFG.MGRPRI ≠ 0) ∧ (h.fate = .good) ∧ (claimRank (s.get RING_CFG.MGRPRI) s.factoryExt < claimRank pri.toNat ext.toNat) ∧ (s.ringReady = []) :=
  ⟨(⟨3, 0xFF, 0, 3, .good⟩), (10), (5), ((ringAt.put RING_STAT.STATE 6).put RING_CFG.MGRPRI 9), by decide +kernel⟩

theorem witness_RingFrames_claimPasses :
    ∃ (h : RingHdr) (pri : BitVec 8) (ext : DWord) (s : State), (RingUp s) ∧ (s.inRing = true) ∧ (h.fate = .good) ∧ (s.get RING_CFG.MGRPRI = 0 ∨ ((s.rg = rgMember ∨ s.rg = rgRun) ∧ claimRank (s.get RING_CFG.MGRPRI) s.factoryExt < claimRank pri.toNat ext.toNat)) :=
  ⟨(⟨3, 0xFF, 0, 3, .good⟩), (9), (0), (ringAt), by decide +kernel⟩

theorem witness_RingFrames_claimStripped :
    ∃ (h : RingHdr) (pri : BitVec 8) (ext : DWord) (s : State), (RingUp s) ∧ (s.inRing = true) ∧ (s.get RING_CFG.MGRPRI ≠ 0) ∧ (h.fate = .good) ∧ (claimRank pri.toNat ext.toNat < claimRank (s.get RING_CFG.MGRPRI) s.factoryExt ∨ (claimRank pri.toNat ext.toNat = claimRank (s.get RING_CFG.MGRPRI) s.factoryExt ∧ s.rg ≠ rgClaim)) :=
  ⟨(⟨3, 0xFF, 0, 3, .good⟩), (8), (5), ((ringAt.put RING_STAT.STATE 6).put RING_CFG.MGRPRI 9), by decide +kernel⟩

theorem witness_RingFrames_claimWon :
    ∃ (h : RingHdr) (pri : BitVec 8) (ext : DWord) (s : State), (RingUp s) ∧ (s.rg = rgClaim) ∧ (s.get RING_CFG.MGRPRI ≠ 0) ∧ (h.fate = .good) ∧ (claimRank pri.toNat ext.toNat = claimRank (s.get RING_CFG.MGRPRI) s.factoryExt) :=
  ⟨(⟨3, 0xFF, 0, 3, .good⟩), (9), (0), ((ringAt.put RING_STAT.STATE 3).put RING_CFG.MGRPRI 9), by decide +kernel⟩

theorem witness_RingFrames_status :
    ∃ (h : RingHdr) (s : State), (RingUp s) ∧ (s.inRing = true) ∧ (h.fate = .good) ∧ ((s.numbered && h.src.toNat == s.pos) = false) ∧ (h.src.toNat < 32) :=
  ⟨(⟨7, 0xFF, 1, 3, .good⟩), (ringAt), by decide +kernel⟩

theorem witness_RingFrames_statusBeyond :
    ∃ (h : RingHdr) (s : State), (RingUp s) ∧ (s.inRing = true) ∧ (h.fate = .good) ∧ ((s.numbered && h.src.toNat == s.pos) = false) ∧ (32 ≤ h.src.toNat) :=
  ⟨(⟨0xFE, 0xFF, 1, 3, .good⟩), (ringAt), by decide +kernel⟩

theorem witness_RingFrames_ownStripped :
    ∃ (c : Instr) (h : RingHdr) (qual : BitVec 8) (npos : BitVec 8) (bulk : BitVec 8) (state : BitVec 8) (wrap : BitVec 8) (plan : Word) (ext : DWord) (origin : DWord) (corr : Word) (tick : Word) (resid : BitVec 16) (b : List (BitVec 8)) (s : State), (RingUp s) ∧ (s.numbered = true ∧ h.src.toNat = s.pos) ∧ (c ∈ [.ringTimeFrame h qual npos bulk plan origin corr tick resid, .statusFrame h ext state wrap, .ringSvc h b, .ringApp h b, .ringBulk h b]) :=
  ⟨(.statusFrame ⟨2, 0xFF, 1, 3, .good⟩ 0 0 0), (⟨2, 0xFF, 1, 3, .good⟩), (1), (2), (3), (0), (0), (4), (0), (6), (7), (8), (9), ([]), (ringAt), by decide +kernel⟩

theorem witness_RingFrames_broken :
    ∃ (c : Instr) (h : RingHdr) (qual : BitVec 8) (npos : BitVec 8) (bulk : BitVec 8) (state : BitVec 8) (wrap : BitVec 8) (plan : Word) (ext : DWord) (origin : DWord) (corr : Word) (tick : Word) (resid : BitVec 16) (s : State), (RingUp s) ∧ (s.inRing = true ∧ s.rg ≠ rgManager) ∧ (h.fate ≠ .good ∧ (s.numbered && h.src.toNat == s.pos) = false) ∧ (c ∈ [.ringTimeFrame h qual npos bulk plan origin corr tick resid, .statusFrame h ext state wrap]) :=
  ⟨(.statusFrame ⟨7, 0xFF, 1, 3, .badCrc⟩ 0 0 0), (⟨7, 0xFF, 1, 3, .badCrc⟩), (1), (2), (3), (0), (0), (4), (0), (6), (7), (8), (9), (ringAt), by decide +kernel⟩

theorem witness_RingFrames_brokenNumber :
    ∃ (h : RingHdr) (s : State), (RingUp s) ∧ (s.inRing = true ∧ s.rg ≠ rgManager) ∧ (h.fate ≠ .good) :=
  ⟨(⟨0, 0xFF, 0, 3, .codeErr⟩), (ringAt), by decide +kernel⟩

theorem witness_RingFrames_brokenClaim :
    ∃ (h : RingHdr) (s : State), (RingUp s) ∧ (s.inRing = true) ∧ (s.get RING_CFG.MGRPRI = 0) ∧ (h.fate ≠ .good) :=
  ⟨(⟨3, 0xFF, 0, 3, .aborted⟩), (ringAt), by decide +kernel⟩

theorem witness_RingFrames_delivers :
    ∃ (c : Instr) (typ : Nat) (h : RingHdr) (b : List (BitVec 8)) (s : State), (RingUp s) ∧ (s.numbered = true) ∧ (h.fate = .good ∧ h.src.toNat ≠ s.pos ∧ s.ringMine h = true) ∧ (h.flags.toNat / 16 = s.ring.epoch % 16) ∧ (s.on RING_CFG.DICTEN = false ∨ h.flags.getLsbD 1 = true) ∧ (s.boot.recovery = false) ∧ (s.on RING_RXQBASE.EN = true ∧ inSram (4096 * s.get RING_RXQBASE.ADDR) s.rrxSize = true) ∧ (8 * s.get RING_RXQPTR.WR < s.rrxSize ∧ 8 * s.get RING_RXQPTR.RD < s.rrxSize) ∧ (b.length ≤ 1024) ∧ (8 * s.get RING_RXQPTR.WR + (8 + (b.length + 7) / 8 * 8) ≤ s.rrxSize) ∧ ((8 + (b.length + 7) / 8 * 8) + 8 ≤ (if s.get RING_RXQPTR.RD = s.get RING_RXQPTR.WR then s.rrxSize else (8 * s.get RING_RXQPTR.RD + s.rrxSize - 8 * s.get RING_RXQPTR.WR) % s.rrxSize)) ∧ ((c, typ) ∈ ([(.ringSvc h b, 0x10), (.ringApp h b, 0x11), (.ringBulk h b, 0x20)] : List (Instr × Nat))) :=
  ⟨(.ringSvc ⟨7, 2, 0, 3, .good⟩ [1, 2, 3]), (0x10), (⟨7, 2, 0, 3, .good⟩), ([1, 2, 3]), (ringAt.put RING_CFG.DICTEN 0), by decide +kernel⟩

theorem witness_RingFrames_deliversPadded :
    ∃ (c : Instr) (typ : Nat) (h : RingHdr) (b : List (BitVec 8)) (s : State), (RingUp s) ∧ (s.numbered = true) ∧ (h.fate = .good ∧ h.src.toNat ≠ s.pos ∧ s.ringMine h = true) ∧ (h.flags.toNat / 16 = s.ring.epoch % 16) ∧ (s.on RING_CFG.DICTEN = false ∨ h.flags.getLsbD 1 = true) ∧ (s.boot.recovery = false) ∧ (s.on RING_RXQBASE.EN = true ∧ inSram (4096 * s.get RING_RXQBASE.ADDR) s.rrxSize = true) ∧ (8 * s.get RING_RXQPTR.WR < s.rrxSize ∧ 8 * s.get RING_RXQPTR.RD < s.rrxSize) ∧ (b.length ≤ 1024) ∧ (s.rrxSize < 8 * s.get RING_RXQPTR.WR + (8 + (b.length + 7) / 8 * 8)) ∧ ((s.rrxSize - 8 * s.get RING_RXQPTR.WR) + (8 + (b.length + 7) / 8 * 8) + 8 ≤ (if s.get RING_RXQPTR.RD = s.get RING_RXQPTR.WR then s.rrxSize else (8 * s.get RING_RXQPTR.RD + s.rrxSize - 8 * s.get RING_RXQPTR.WR) % s.rrxSize)) ∧ ((c, typ) ∈ ([(.ringSvc h b, 0x10), (.ringApp h b, 0x11), (.ringBulk h b, 0x20)] : List (Instr × Nat))) :=
  ⟨(.ringSvc ⟨7, 2, 0, 3, .good⟩ [1, 2, 3]), (0x10), (⟨7, 2, 0, 3, .good⟩), ([1, 2, 3]), (((ringAt.put RING_CFG.DICTEN 0).put RING_RXQPTR.WR 511).put RING_RXQPTR.RD 511), by decide +kernel⟩

theorem witness_RingFrames_deliversFull :
    ∃ (c : Instr) (typ : Nat) (h : RingHdr) (b : List (BitVec 8)) (s : State), (RingUp s) ∧ (s.numbered = true) ∧ (h.fate = .good ∧ h.src.toNat ≠ s.pos ∧ s.ringMine h = true) ∧ (h.flags.toNat / 16 = s.ring.epoch % 16) ∧ (s.on RING_CFG.DICTEN = false ∨ h.flags.getLsbD 1 = true) ∧ (s.boot.recovery = false) ∧ (8 * s.get RING_RXQPTR.WR < s.rrxSize ∧ 8 * s.get RING_RXQPTR.RD < s.rrxSize) ∧ (s.on RING_RXQBASE.EN = false ∨ (if s.get RING_RXQPTR.RD = s.get RING_RXQPTR.WR then s.rrxSize else (8 * s.get RING_RXQPTR.RD + s.rrxSize - 8 * s.get RING_RXQPTR.WR) % s.rrxSize) < (if s.rrxSize < 8 * s.get RING_RXQPTR.WR + (8 + (b.length + 7) / 8 * 8) then (s.rrxSize - 8 * s.get RING_RXQPTR.WR) else 0) + (8 + (b.length + 7) / 8 * 8) + 8) ∧ ((c, typ) ∈ ([(.ringSvc h b, 0x10), (.ringApp h b, 0x11), (.ringBulk h b, 0x20)] : List (Instr × Nat))) :=
  ⟨(.ringSvc ⟨7, 2, 0, 3, .good⟩ [1, 2, 3]), (0x10), (⟨7, 2, 0, 3, .good⟩), ([1, 2, 3]), ((ringAt.put RING_CFG.DICTEN 0).put RING_RXQPTR.RD 2), by decide +kernel⟩

theorem witness_RingFrames_stale :
    ∃ (c : Instr) (typ : Nat) (h : RingHdr) (b : List (BitVec 8)) (s : State), (RingUp s) ∧ (s.numbered = true) ∧ (h.fate = .good ∧ h.src.toNat ≠ s.pos ∧ s.ringMine h = true) ∧ (h.flags.toNat / 16 ≠ s.ring.epoch % 16) ∧ ((c, typ) ∈ ([(.ringSvc h b, 0x10), (.ringApp h b, 0x11), (.ringBulk h b, 0x20)] : List (Instr × Nat))) :=
  ⟨(.ringSvc ⟨7, 2, 0x10, 3, .good⟩ [1, 2, 3]), (0x10), (⟨7, 2, 0x10, 3, .good⟩), ([1, 2, 3]), (ringAt), by decide +kernel⟩

theorem witness_RingFrames_passes :
    ∃ (c : Instr) (typ : Nat) (h : RingHdr) (b : List (BitVec 8)) (s : State), (RingUp s) ∧ (s.inRing = true) ∧ (h.fate = .good) ∧ ((s.numbered && h.src.toNat == s.pos) = false) ∧ (s.numbered = false ∨ s.ringMine h = false) ∧ ((c, typ) ∈ ([(.ringSvc h b, 0x10), (.ringApp h b, 0x11), (.ringBulk h b, 0x20)] : List (Instr × Nat))) :=
  ⟨(.ringSvc ⟨7, 5, 0, 3, .good⟩ [1, 2, 3]), (0x10), (⟨7, 5, 0, 3, .good⟩), ([1, 2, 3]), (ringAt), by decide +kernel⟩

theorem witness_RingFrames_brokenMine :
    ∃ (c : Instr) (typ : Nat) (h : RingHdr) (b : List (BitVec 8)) (s : State), (RingUp s) ∧ (s.inRing = true) ∧ (h.fate = .badCrc) ∧ ((s.numbered && h.src.toNat == s.pos) = false) ∧ ((c, typ) ∈ ([(.ringSvc h b, 0x10), (.ringApp h b, 0x11), (.ringBulk h b, 0x20)] : List (Instr × Nat))) :=
  ⟨(.ringSvc ⟨7, 2, 0, 3, .badCrc⟩ [1, 2, 3]), (0x10), (⟨7, 2, 0, 3, .badCrc⟩), ([1, 2, 3]), (ringAt), by decide +kernel⟩

theorem witness_RingFrames_dreq :
    ∃ (s : State), (RingUp s) ∧ (s.inRing = true) :=
  ⟨(ringAt), by decide +kernel⟩

theorem witness_RingFrames_drsp :
    ∃ (p : Port) (t1 : Nat) (s : State), (RingUp s) ∧ (s.inRing = true) ∧ ((s.rport (portNo p)).t1 = some t1) :=
  ⟨(.east), (9000), (ringAt.modRing (fun r => { r with east := { t1 := some 9000 } })), by decide +kernel⟩

theorem witness_RingFrames_drspNone :
    ∃ (p : Port) (s : State), (RingUp s) ∧ ((s.rport (portNo p)).t1 = none) :=
  ⟨(.east), (ringAt), by decide +kernel⟩

theorem witness_RingFrames_outside :
    ∃ (c : Instr) (h : RingHdr) (qual : BitVec 8) (npos : BitVec 8) (bulk : BitVec 8) (state : BitVec 8) (wrap : BitVec 8) (hop : BitVec 8) (pri : BitVec 8) (plan : Word) (ext : DWord) (origin : DWord) (corr : Word) (tick : Word) (resid : BitVec 16) (epoch : BitVec 16) (turn : BitVec 16) (p : Port) (fate : RingFate) (t2 : DWord) (t3 : DWord) (b : List (BitVec 8)) (s : State), (RingUp s) ∧ (s.inRing = false) ∧ (c ∈ [.ringTimeFrame h qual npos bulk plan origin corr tick resid, .ringNumber h hop epoch, .ringClaim h pri ext, .statusFrame h ext state wrap, .ringSvc h b, .ringApp h b, .ringBulk h b, .ringDreq p fate turn, .ringDrsp p fate t2 t3]) :=
  ⟨(.ringDreq .east .good 0), (⟨0, 0, 0, 0, .good⟩), (0), (0), (0), (0), (0), (0), (0), (0), (0), (0), (0), (0), (0), (0), (0), (.east), (.good), (0), (0), ([]), (ringAt.put RING_STAT.STATE 2), by decide +kernel⟩

theorem witness_RingFrames_off :
    ∃ (c : Instr) (low : BitVec 16) (h : RingHdr) (qual : BitVec 8) (npos : BitVec 8) (bulk : BitVec 8) (state : BitVec 8) (wrap : BitVec 8) (hop : BitVec 8) (pri : BitVec 8) (plan : Word) (ext : DWord) (origin : DWord) (corr : Word) (tick : Word) (resid : BitVec 16) (epoch : BitVec 16) (turn : BitVec 16) (p : Port) (fate : RingFate) (t2 : DWord) (t3 : DWord) (b : List (BitVec 8)) (s : State), (s.ringOn = false ∨ s.clocked = false ∨ s.on RING_CFG.EN = false) ∧ (c ∈ [.cycleReceived low, .cycleLoss, .ringTimeFrame h qual npos bulk plan origin corr tick resid, .ringNumber h hop epoch, .ringClaim h pri ext, .statusFrame h ext state wrap, .ringSvc h b, .ringApp h b, .ringBulk h b, .ringDreq p fate turn, .ringDrsp p fate t2 t3]) :=
  ⟨(.ringDreq .east .good 0), (0), (⟨0, 0, 0, 0, .good⟩), (0), (0), (0), (0), (0), (0), (0), (0), (0), (0), (0), (0), (0), (0), (0), (.east), (.good), (0), (0), ([]), (State.reset), by decide +kernel⟩

theorem witness_RingPorts_down :
    ∃ (p : Port) (rxok : Bool) (nbok : Bool) (s : State), (RingUp s) ∧ (s.on (RING_PORT.UP (portNo p)) = true) ∧ (rxok = false ∨ nbok = false) :=
  ⟨(.east), (false), (true), (ringAt), by decide +kernel⟩

theorem witness_RingPorts_staysUp :
    ∃ (p : Port) (rxok : Bool) (nbok : Bool) (s : State), (RingUp s) ∧ (s.on (RING_PORT.UP (portNo p)) = false ∨ (rxok = true ∧ nbok = true)) :=
  ⟨(.east), (true), (true), (ringAt), by decide +kernel⟩

theorem witness_RingPorts_up :
    ∃ (p : Port) (s : State), (RingUp s) ∧ (s.inRing = true) ∧ (s.on (RING_PORT.UP (portNo p)) = false) :=
  ⟨(.east), (ringAt.put (RING_PORT.UP 0) 0), by decide +kernel⟩

theorem witness_RingPorts_upNone :
    ∃ (p : Port) (s : State), (RingUp s) ∧ (s.inRing = false ∨ s.on (RING_PORT.UP (portNo p)) = true) :=
  ⟨(.east), (ringAt), by decide +kernel⟩

theorem witness_RingPorts_wrap :
    ∃ (s : State), (RingUp s) ∧ (s.inRing = true) ∧ (((!(s.on (RING_PORT.UP 0)) && decide ((s.rport 0).downAt + 2500 ≤ s.now)) && !(s.on RING_STAT.WRAPE) || (!(s.on (RING_PORT.UP 1)) && decide ((s.rport 1).downAt + 2500 ≤ s.now)) && !(s.on RING_STAT.WRAPW)) = true) :=
  ⟨(ringAt.put (RING_PORT.UP 0) 0), by decide +kernel⟩

theorem witness_RingPorts_wrapNone :
    ∃ (s : State), (RingUp s) ∧ (s.inRing = false ∨ ((!(s.on (RING_PORT.UP 0)) && decide ((s.rport 0).downAt + 2500 ≤ s.now)) && !(s.on RING_STAT.WRAPE) || (!(s.on (RING_PORT.UP 1)) && decide ((s.rport 1).downAt + 2500 ≤ s.now)) && !(s.on RING_STAT.WRAPW)) = false) :=
  ⟨(ringAt), by decide +kernel⟩

theorem witness_RingPorts_unwrap :
    ∃ (s : State), (RingUp s) ∧ (s.inRing = true) ∧ (s.ring.cyc % 128 = 0) ∧ ((s.on (RING_PORT.UP 0) && s.on RING_STAT.WRAPE || s.on (RING_PORT.UP 1) && s.on RING_STAT.WRAPW) = true) :=
  ⟨(ringAt.put RING_STAT.WRAPE 1), by decide +kernel⟩

theorem witness_RingPorts_unwrapNone :
    ∃ (s : State), (RingUp s) ∧ (s.inRing = false ∨ s.ring.cyc % 128 ≠ 0 ∨ (s.on (RING_PORT.UP 0) && s.on RING_STAT.WRAPE || s.on (RING_PORT.UP 1) && s.on RING_STAT.WRAPW) = false) :=
  ⟨((ringAt.put RING_STAT.WRAPE 1).modRing (fun r => { r with cyc := 129 })), by decide +kernel⟩

theorem witness_RingPorts_slot :
    ∃ (s : State), (RingUp s) ∧ (s.numbered = true ∧ s.pos < RING_PLAN.NSLOT.of s.ring.plan) ∧ (s.ring.svcOut = [] ∧ s.ringReady = []) ∧ ((s.rg == rgManager && s.ring.numDue) = false) :=
  ⟨(ringAt), by decide +kernel⟩

theorem witness_RingPorts_slotNumber :
    ∃ (s : State), (RingUp s) ∧ (s.numbered = true ∧ s.pos < RING_PLAN.NSLOT.of s.ring.plan) ∧ (s.ring.seq < 65535) ∧ (s.ring.svcOut = [] ∧ s.ringReady = []) ∧ (s.rg = rgManager ∧ s.ring.numDue = true) :=
  ⟨((ringAt.put RING_STAT.STATE 6).modRing (fun r => { r with numDue := true, plan := 0x50200014 })), by decide +kernel⟩

theorem witness_RingPorts_slotReply :
    ∃ (x : RingResp) (s : State), (RingUp s) ∧ (s.numbered = true ∧ s.pos < RING_PLAN.NSLOT.of s.ring.plan) ∧ (s.ring.seq < 65535) ∧ (s.ring.svcOut = [x] ∧ s.ringReady = []) ∧ ((s.rg == rgManager && s.ring.numDue) = false) :=
  ⟨(⟨0x10, 7, 3, [1, 2]⟩), (ringAt.modRing (fun r => { r with plan := 0x50200014, svcOut := [⟨0x10, 7, 3, [1, 2]⟩] })), by decide +kernel⟩

theorem witness_RingPorts_slotSends :
    ∃ (i : Nat) (s : State), (RingUp s) ∧ (s.numbered = true ∧ s.pos < RING_PLAN.NSLOT.of s.ring.plan) ∧ (s.ring.seq < 65535) ∧ ((s.rg == rgManager && s.ring.numDue) = false) ∧ (s.ring.svcOut = []) ∧ (s.ringTxOn = true ∧ i < 16 ∧ s.get RING_TXQPTR.TAIL = i ∧ s.get RING_TXQPTR.HEAD = (i + 1) % 16 ∧ s.rb (s.ringDesc i) = 1) ∧ (s.rdBad i = false) ∧ (s.rdTyp i ≠ 0x20) :=
  ⟨(0), ((ringTxAt.wn 0x20060001 1 0x10).modRing (fun r => { r with plan := 0x50200014 })), by decide +kernel⟩

theorem witness_RingPorts_slotBad :
    ∃ (i : Nat) (s : State), (RingUp s) ∧ (s.numbered = true ∧ s.pos < RING_PLAN.NSLOT.of s.ring.plan) ∧ (s.ring.seq < 65535) ∧ ((s.rg == rgManager && s.ring.numDue) = false) ∧ (s.ring.svcOut = []) ∧ (s.ringTxOn = true ∧ i < 16 ∧ s.get RING_TXQPTR.TAIL = i ∧ s.get RING_TXQPTR.HEAD = (i + 1) % 16 ∧ s.rb (s.ringDesc i) = 1) ∧ (s.rdBad i = true) ∧ (s.rdTyp i ≠ 0x20) :=
  ⟨(0), ((ringTxAt.wn 0x20060001 1 0x30).modRing (fun r => { r with plan := 0x50200014 })), by decide +kernel⟩

theorem witness_RingPorts_slotBulk :
    ∃ (i : Nat) (s : State), (RingUp s) ∧ (s.numbered = true ∧ s.pos < RING_PLAN.NSLOT.of s.ring.plan) ∧ (s.ring.seq < 65535) ∧ ((s.rg == rgManager && s.ring.numDue) = false) ∧ (s.ring.svcOut = []) ∧ (s.ringTxOn = true ∧ i < 16 ∧ s.get RING_TXQPTR.TAIL = i ∧ s.get RING_TXQPTR.HEAD = (i + 1) % 16 ∧ s.rb (s.ringDesc i) = 1) ∧ (s.rdBad i = false) ∧ (s.rdTyp i = 0x20) :=
  ⟨(0), (ringTxAt.modRing (fun r => { r with plan := 0x50200014 })), by decide +kernel⟩

theorem witness_RingPorts_slotNone :
    ∃ (s : State), (RingUp s) ∧ (s.numbered = false ∨ RING_PLAN.NSLOT.of s.ring.plan ≤ s.pos) :=
  ⟨(ringAt.put RING_STAT.STATE 4), by decide +kernel⟩

theorem witness_RingPorts_bulk :
    ∃ (i : Nat) (s : State), (RingUp s) ∧ (s.numbered = true ∧ s.ring.bulkOwn = s.pos) ∧ (s.ringTxOn = true ∧ i < 16 ∧ s.get RING_TXQPTR.TAIL = i ∧ s.get RING_TXQPTR.HEAD = (i + 1) % 16 ∧ s.rb (s.ringDesc i) = 1) ∧ (s.rdTyp i = 0x20) ∧ (s.rdBad i = false) ∧ (2 * (14 + s.rdLen i) ≤ 25 * (1000 - RING_PLAN.GAP.of s.ring.plan - (8 + RING_PLAN.NSLOT.of s.ring.plan * RING_PLAN.SLOT.of s.ring.plan) - 1)) :=
  ⟨(0), (ringTxAt.modRing (fun r => { r with bulkOwn := 2, plan := 0x50200014 })), by decide +kernel⟩

theorem witness_RingPorts_bulkWaits :
    ∃ (i : Nat) (s : State), (RingUp s) ∧ (s.numbered = true ∧ s.ring.bulkOwn = s.pos) ∧ (s.ringTxOn = true ∧ i < 16 ∧ s.get RING_TXQPTR.TAIL = i ∧ s.get RING_TXQPTR.HEAD = (i + 1) % 16 ∧ s.rb (s.ringDesc i) = 1) ∧ (s.rdTyp i = 0x20) ∧ (s.rdBad i = false) ∧ (25 * (1000 - RING_PLAN.GAP.of s.ring.plan - (8 + RING_PLAN.NSLOT.of s.ring.plan * RING_PLAN.SLOT.of s.ring.plan) - 1) < 2 * (14 + s.rdLen i)) :=
  ⟨(0), (ringTxAt.modRing (fun r => { r with bulkOwn := 2, plan := 0xDB200018 })), by decide +kernel⟩

theorem witness_RingPorts_bulkBad :
    ∃ (i : Nat) (s : State), (RingUp s) ∧ (s.numbered = true ∧ s.ring.bulkOwn = s.pos) ∧ (s.ringTxOn = true ∧ i < 16 ∧ s.get RING_TXQPTR.TAIL = i ∧ s.get RING_TXQPTR.HEAD = (i + 1) % 16 ∧ s.rb (s.ringDesc i) = 1) ∧ (s.rdTyp i = 0x20) ∧ (s.rdBad i = true) :=
  ⟨(0), ((ringTxAt.wn 0x20060004 2 1025).modRing (fun r => { r with bulkOwn := 2, plan := 0x50200014 })), by decide +kernel⟩

theorem witness_RingPorts_bulkNone :
    ∃ (s : State), (RingUp s) ∧ (s.numbered = false ∨ s.ring.bulkOwn ≠ s.pos ∨ s.ringReady = []) :=
  ⟨(ringTxAt), by decide +kernel⟩

theorem witness_RingPorts_gapJoins :
    ∃ (s : State), (RingUp s) ∧ (s.rg = rgJoin) ∧ (s.ringReady = []) :=
  ⟨((ringAt.put RING_STAT.STATE 2).modRing (fun r => { r with cyc := 3 })), by decide +kernel⟩

theorem witness_RingPorts_gapDreq :
    ∃ (s : State), (RingUp s) ∧ (s.inRing = true) ∧ (s.ring.cyc % 16 = 0) :=
  ⟨(ringAt), by decide +kernel⟩

theorem witness_RingPorts_gapNone :
    ∃ (s : State), (RingUp s) ∧ (s.rg ≠ rgJoin) ∧ (s.inRing = false ∨ s.ring.cyc % 16 ≠ 0) :=
  ⟨(ringAt.modRing (fun r => { r with cyc := 3 })), by decide +kernel⟩

theorem witness_RingPorts_enable :
    ∃ (s : State), (Core Reg.RING_CFG s) ∧ (s.on RING_CFG.EN = false ∧ s.rg = rgBypass) :=
  ⟨((ringAt.put RING_CFG.EN 0).put RING_STAT.STATE 0), by decide +kernel⟩

theorem witness_RingPorts_enableAgain :
    ∃ (s : State), (Core Reg.RING_CFG s) ∧ (s.on RING_CFG.EN = true) :=
  ⟨(ringAt), by decide +kernel⟩

theorem witness_RingPorts_disable :
    ∃ (s : State), (Core Reg.RING_CFG s) ∧ (s.on RING_CFG.EN = true) ∧ (s.rg ≠ rgBypass) ∧ (s.ringReady = []) :=
  ⟨(ringAt), by decide +kernel⟩

theorem witness_RingPorts_disableFlushes :
    ∃ (i : Nat) (s : State), (Core Reg.RING_CFG s) ∧ (s.on RING_CFG.EN = true) ∧ (s.rg ≠ rgBypass) ∧ (s.ringTxOn = true ∧ i < 16 ∧ s.get RING_TXQPTR.TAIL = i ∧ s.get RING_TXQPTR.HEAD = (i + 1) % 16 ∧ s.rb (s.ringDesc i) = 1) :=
  ⟨(0), (ringTxAt), by decide +kernel⟩

theorem witness_RingPorts_disableAgain :
    ∃ (s : State), (Core Reg.RING_CFG s) ∧ (s.on RING_CFG.EN = false) :=
  ⟨(ringAt.put RING_CFG.EN 0), by decide +kernel⟩

theorem witness_RingPorts_off :
    ∃ (c : Instr) (p : Port) (rxok : Bool) (nbok : Bool) (viol : BitVec 16) (s : State), (s.ringOn = false ∨ s.clocked = false ∨ s.on RING_CFG.EN = false) ∧ (c ∈ [.portDown p rxok nbok viol, .portUp p, .ringWrap, .ringUnwrap, .serviceSlot, .bulkWindow, .ringGap]) :=
  ⟨(.ringGap), (.east), (true), (true), (0), (State.reset), by decide +kernel⟩

theorem witness_DictServices_read :
    ∃ (rid : BitVec 8) (items : List (BitVec 16 × BitVec 8)) (s : State), (DictHost 1 rid s) ∧ (items.length ≤ 64) :=
  ⟨(7), ([(0x1008, 0)]), (dictAt), by decide +kernel⟩

theorem witness_DictServices_tooMany :
    ∃ (rid : BitVec 8) (items : List (BitVec 16 × BitVec 8)) (s : State), (DictHost 1 rid s) ∧ (64 < items.length) :=
  ⟨(7), (List.replicate 65 (0x1008, 0)), (dictAt), by decide +kernel⟩

theorem witness_DictServices_notServing :
    ∃ (c : Instr) (svc : Nat) (tag : BitVec 4) (rid : BitVec 8) (items : List (BitVec 16 × BitVec 8)) (off : BitVec 16) (len : BitVec 16) (s : State), (HostReady s) ∧ (items.length ≤ 64) ∧ (s.dictReady = false) ∧ ((c, svc) ∈ ([(.dictRead (.host tag) rid items, 1), (.dictBegin (.host tag) rid, 3), (.dictCommit (.host tag) rid, 4), (.dictAbort (.host tag) rid, 5), (.dictSnapshot (.host tag) rid items, 6), (.dictFetch (.host tag) rid off len, 7)] : List (Instr × Nat))) :=
  ⟨(.dictBegin (.host 3) 7), (3), (3), (7), ([]), (0), (0), (dictAt.put DICT_CTRL.EN 0), by decide +kernel⟩

theorem witness_DictServices_repeated :
    ∃ (c : Instr) (svc : Nat) (tag : BitVec 4) (rid : BitVec 8) (items : List (BitVec 16 × BitVec 8)) (off : BitVec 16) (len : BitVec 16) (b : List (BitVec 8)) (s : State), (HostReady s) ∧ (items.length ≤ 64) ∧ (s.dictReady = true) ∧ (rid ≠ 0) ∧ ((s.sess .host).kept = some (svc, rid.toNat, b)) ∧ ((c, svc) ∈ ([(.dictRead (.host tag) rid items, 1), (.dictBegin (.host tag) rid, 3), (.dictCommit (.host tag) rid, 4), (.dictAbort (.host tag) rid, 5), (.dictSnapshot (.host tag) rid items, 6), (.dictFetch (.host tag) rid off len, 7)] : List (Instr × Nat))) :=
  ⟨(.dictBegin (.host 3) 7), (3), (3), (7), ([]), (0), (0), ([1, 2]), (modSess .host (fun x => { x with kept := some (3, 7, [1, 2]) }) dictAt), by decide +kernel⟩

theorem witness_DictServices_serving :
    ∃ (c : Instr) (svc : Nat) (tag : BitVec 4) (rid : BitVec 8) (items : List (BitVec 16 × BitVec 8)) (off : BitVec 16) (len : BitVec 16) (s : State), (HostReady s) ∧ (items.length ≤ 64) ∧ (s.dictReady = true) ∧ ((s.sess .host).kept = none) ∧ (s.serving (hostReq svc rid) = true) ∧ ((c, svc) ∈ ([(.dictRead (.host tag) rid items, 1), (.dictBegin (.host tag) rid, 3), (.dictCommit (.host tag) rid, 4), (.dictAbort (.host tag) rid, 5), (.dictSnapshot (.host tag) rid items, 6), (.dictFetch (.host tag) rid off len, 7)] : List (Instr × Nat))) :=
  ⟨(.dictRead (.host 3) 7 []), (1), (3), (7), ([]), (0), (0), (dictAt.modDict (fun d => { d with reads := [⟨hostReq 1 7, []⟩] })), by decide +kernel⟩

theorem witness_DictServices_begin :
    ∃ (rid : BitVec 8) (s : State), (DictHost 3 rid s) ∧ ((s.sess .host).trans = none) ∧ (s.bufferFree = true) :=
  ⟨(7), (dictAt), by decide +kernel⟩

theorem witness_DictServices_hostBegin :
    ∃ (rid : BitVec 8) (s : State), (DictHost 3 rid s) ∧ ((s.sess .host).trans = none) ∧ (s.bufferFree = true) :=
  ⟨(7), (dictAt), by decide +kernel⟩

theorem witness_DictServices_beginOpen :
    ∃ (rid : BitVec 8) (l : List DItem) (s : State), (DictHost 3 rid s) ∧ ((s.sess .host).trans = some l) :=
  ⟨(7), ([]), (transAt []), by decide +kernel⟩

theorem witness_DictServices_beginFull :
    ∃ (rid : BitVec 8) (s : State), (DictHost 3 rid s) ∧ ((s.sess .host).trans = none) ∧ (s.bufferFree = false) :=
  ⟨(7), (dictAt.put DICT_BUFBASE.EN 0), by decide +kernel⟩

theorem witness_DictServices_write :
    ∃ (rid : BitVec 8) (i : BitVec 16) (n : BitVec 8) (b : List (BitVec 8)) (l : List DItem) (l2 : List DItem) (s : State), (DictHost 2 rid s) ∧ ((s.sess .host).trans = some l) ∧ ((s.sess .host).expired = false) ∧ (b.length ≤ 1024) ∧ (stageItems [⟨i.toNat, n.toNat, b⟩] l s = (l2, none)) :=
  ⟨(7), (0x5000), (1), ([0x41]), ([]), ([⟨0x5000, 1, [0x41]⟩]), (transAt []), by decide +kernel⟩

theorem witness_DictServices_writeName :
    ∃ (rid : BitVec 8) (v : List (BitVec 8)) (l : List DItem) (s : State), (DictHost 2 rid s) ∧ ((s.sess .host).trans = some l ∧ (s.sess .host).expired = false) ∧ (v.length ≤ 32 ∧ s.dict.locked = none) ∧ (s.standby = false) ∧ (stageLimit (stageIn ⟨0x5000, 1, v⟩ l) s = false) :=
  ⟨(7), ([0x41]), ([⟨0x5000, 1, [0x42]⟩]), (transAt [⟨0x5000, 1, [0x42]⟩]), by decide +kernel⟩

theorem witness_DictServices_writeBad :
    ∃ (rid : BitVec 8) (i : BitVec 16) (n : BitVec 8) (b : List (BitVec 8)) (l : List DItem) (st : Nat) (s : State), (DictHost 2 rid s) ∧ ((s.sess .host).trans = some l) ∧ ((s.sess .host).expired = false) ∧ (b.length ≤ 1024) ∧ (stageItems [⟨i.toNat, n.toNat, b⟩] l s = (l, some (⟨i.toNat, n.toNat, b⟩, st))) ∧ (s.rxParamHeld i.toNat = false) :=
  ⟨(7), (0x5000), (0), ([0x41]), ([]), (2), (transAt []), by decide +kernel⟩

theorem witness_DictServices_writeAlone :
    ∃ (rid : BitVec 8) (v : List (BitVec 8)) (s : State), (DictHost 2 rid s) ∧ ((s.sess .host).trans = none ∧ (s.sess .host).expired = false) ∧ (s.bufferFree = true) ∧ (v.length ≤ 32 ∧ s.dict.locked = none) ∧ (DictIdle s) ∧ (NoStore s) :=
  ⟨(7), ([0x41]), (dictAt), by decide +kernel⟩

theorem witness_DictServices_writeAloneBad :
    ∃ (rid : BitVec 8) (i : BitVec 16) (n : BitVec 8) (b : List (BitVec 8)) (st : Nat) (s : State), (DictHost 2 rid s) ∧ ((s.sess .host).trans = none ∧ (s.sess .host).expired = false) ∧ (s.bufferFree = true) ∧ (b.length ≤ 1024) ∧ (stageItems [⟨i.toNat, n.toNat, b⟩] [] s = ([], some (⟨i.toNat, n.toNat, b⟩, st))) :=
  ⟨(7), (0x5000), (9), ([0x41]), (1), (dictAt), by decide +kernel⟩

theorem witness_DictServices_writeFull :
    ∃ (rid : BitVec 8) (b : List (BitVec 8)) (s : State), (DictHost 2 rid s) ∧ ((s.sess .host).trans = none ∧ (s.sess .host).expired = false) ∧ (s.bufferFree = false) ∧ (b.length ≤ 1024) :=
  ⟨(7), ([0x41]), (dictAt.put DICT_BUFBASE.EN 0), by decide +kernel⟩

theorem witness_DictServices_commit :
    ∃ (rid : BitVec 8) (v : List (BitVec 8)) (s : State), (DictHost 4 rid s) ∧ ((s.sess .host).trans = some [⟨0x5000, 1, v⟩] ∧ (s.sess .host).expired = false ∧ (s.sess .host).doomed = none) ∧ (DictIdle s) ∧ (s.noStore = true ∨ (storeAll (keptItems [⟨0x5000, 1, v⟩] s) s).isSome = true) :=
  ⟨(7), ([0x41]), (transAt [⟨0x5000, 1, [0x41]⟩]), by decide +kernel⟩

theorem witness_DictServices_commitWaits :
    ∃ (rid : BitVec 8) (l : List DItem) (r : DRun) (k : Nat) (s : State), (DictHost 4 rid s) ∧ ((s.sess .host).trans = some l ∧ (s.sess .host).expired = false ∧ (s.sess .host).doomed = none) ∧ (s.dict.run = some r ∧ r.stage = .ready k) ∧ (s.dict.store.ops = [] ∧ s.dict.meshWait = none) :=
  ⟨(7), ([⟨0x5000, 1, [0x41]⟩]), (⟨hostReq 4 9, .user, [], .ready 0⟩), (0), ((transAt [⟨0x5000, 1, [0x41]⟩]).modDict (fun d => { d with run := some ⟨hostReq 4 9, .user, [], .ready 0⟩ })), by decide +kernel⟩

theorem witness_DictServices_commitDoomed :
    ∃ (rid : BitVec 8) (l : List DItem) (i : Nat) (n : Nat) (s : State), (DictHost 4 rid s) ∧ ((s.sess .host).trans = some l ∧ (s.sess .host).expired = false) ∧ ((s.sess .host).doomed = some (i, n)) :=
  ⟨(7), ([]), (0x2121), (1), (modSess .host (fun x => { x with doomed := some (0x2121, 1) }) (transAt [])), by decide +kernel⟩

theorem witness_DictServices_commitNone :
    ∃ (rid : BitVec 8) (s : State), (DictHost 4 rid s) ∧ ((s.sess .host).trans = none ∧ (s.sess .host).expired = false) :=
  ⟨(7), (dictAt), by decide +kernel⟩

theorem witness_DictServices_expired :
    ∃ (c : Instr) (svc : Nat) (tag : BitVec 4) (rid : BitVec 8) (s : State), (DictHost svc rid s) ∧ ((s.sess .host).expired = true) ∧ ((c, svc) ∈ ([(.dictWrite (.host tag) rid [], 2), (.dictCommit (.host tag) rid, 4), (.dictAbort (.host tag) rid, 5)] : List (Instr × Nat))) :=
  ⟨(.dictCommit (.host 3) 7), (4), (3), (7), (modSess .host (fun x => { x with expired := true }) dictAt), by decide +kernel⟩

theorem witness_DictServices_abort :
    ∃ (rid : BitVec 8) (l : List DItem) (s : State), (DictHost 5 rid s) ∧ ((s.sess .host).trans = some l ∧ (s.sess .host).expired = false) :=
  ⟨(7), ([]), (transAt []), by decide +kernel⟩

theorem witness_DictServices_abortNone :
    ∃ (rid : BitVec 8) (s : State), (DictHost 5 rid s) ∧ ((s.sess .host).trans = none ∧ (s.sess .host).expired = false) :=
  ⟨(7), (dictAt), by decide +kernel⟩

theorem witness_DictServices_snapshot :
    ∃ (rid : BitVec 8) (items : List (BitVec 16 × BitVec 8)) (s : State), (DictHost 6 rid s) ∧ (items.length ≤ 64) ∧ (s.on DICT_BUFBASE.EN = true ∧ s.dictUsed < 8) :=
  ⟨(7), ([(0x1008, 0)]), (dictAt), by decide +kernel⟩

theorem witness_DictServices_snapshotFull :
    ∃ (rid : BitVec 8) (items : List (BitVec 16 × BitVec 8)) (s : State), (DictHost 6 rid s) ∧ (items.length ≤ 64) ∧ (s.on DICT_BUFBASE.EN = false) :=
  ⟨(7), ([(0x1008, 0)]), (dictAt.put DICT_BUFBASE.EN 0), by decide +kernel⟩

theorem witness_DictServices_fetch :
    ∃ (rid : BitVec 8) (len : BitVec 16) (k : Nat) (n : Nat) (s : State), (DictHost 7 rid s) ∧ ((s.sess .host).snap = some (k, n)) ∧ (len.toNat ≤ 2036) :=
  ⟨(7), (8), (2), (12), (modSess .host (fun x => { x with snap := some (2, 12) }) dictAt), by decide +kernel⟩

theorem witness_DictServices_fetchBig :
    ∃ (rid : BitVec 8) (off : BitVec 16) (len : BitVec 16) (k : Nat) (n : Nat) (s : State), (DictHost 7 rid s) ∧ ((s.sess .host).snap = some (k, n)) ∧ (2036 < (((s.bytes (s.dictBuf k) n).drop off.toNat).take len.toNat).length) :=
  ⟨(7), (0), (2040), (2), (2040), (modSess .host (fun x => { x with snap := some (2, 2040) }) dictAt), by decide +kernel⟩

theorem witness_DictServices_fetchNone :
    ∃ (rid : BitVec 8) (s : State), (DictHost 7 rid s) ∧ ((s.sess .host).snap = none) :=
  ⟨(7), (dictAt), by decide +kernel⟩

theorem witness_DictServices_ringRead :
    ∃ (h : RingHdr) (rid : BitVec 8) (items : List (BitVec 16 × BitVec 8)) (s : State), (DictRing h 1 rid s) ∧ (items.length ≤ 64) :=
  ⟨(⟨7, 2, 0, 3, .good⟩), (7), ([(0x1008, 0)]), (((((((((dictAt.put SYSC_PDSTAT.RING 1).put RING_CFG.EN 1).put RING_CFG.DICTEN 1).put RING_STAT.STATE 5).put RING_STAT.POS 2).put (RING_PORT.UP 0) 1).put (RING_PORT.UP 1) 1).modRing (fun r => { r with plan := 0x50200014 }))), by decide +kernel⟩

theorem witness_DictServices_ringBegin :
    ∃ (h : RingHdr) (rid : BitVec 8) (s : State), (DictRing h 3 rid s) ∧ (12 ≤ s.ringLimit) ∧ ((s.sess (.ring h.src.toNat)).trans = none) ∧ (s.bufferFree = true) :=
  ⟨(⟨7, 2, 0, 3, .good⟩), (7), (((((((((dictAt.put SYSC_PDSTAT.RING 1).put RING_CFG.EN 1).put RING_CFG.DICTEN 1).put RING_STAT.STATE 5).put RING_STAT.POS 2).put (RING_PORT.UP 0) 1).put (RING_PORT.UP 1) 1).modRing (fun r => { r with plan := 0x50200014 }))), by decide +kernel⟩

theorem witness_DictServices_ringWrite :
    ∃ (h : RingHdr) (rid : BitVec 8) (i : BitVec 16) (n : BitVec 8) (b : List (BitVec 8)) (l : List DItem) (l2 : List DItem) (s : State), (DictRing h 2 rid s) ∧ (12 ≤ s.ringLimit) ∧ ((s.sess (.ring h.src.toNat)).trans = some l ∧ (s.sess (.ring h.src.toNat)).expired = false) ∧ (b.length ≤ 1024) ∧ (stageItems [⟨i.toNat, n.toNat, b⟩] l s = (l2, none)) :=
  ⟨(⟨7, 2, 0, 3, .good⟩), (7), (0x5000), (1), ([0x41]), ([]), ([⟨0x5000, 1, [0x41]⟩]), (modSess (.ring 7) (fun x => { x with trans := some [] }) ((((((((dictAt.put SYSC_PDSTAT.RING 1).put RING_CFG.EN 1).put RING_CFG.DICTEN 1).put RING_STAT.STATE 5).put RING_STAT.POS 2).put (RING_PORT.UP 0) 1).put (RING_PORT.UP 1) 1).modRing (fun r => { r with plan := 0x50200014 }))), by decide +kernel⟩

theorem witness_DictServices_ringCommit :
    ∃ (h : RingHdr) (rid : BitVec 8) (v : List (BitVec 8)) (s : State), (DictRing h 4 rid s) ∧ (12 ≤ s.ringLimit) ∧ ((s.sess (.ring h.src.toNat)).trans = some [⟨0x5000, 1, v⟩] ∧ (s.sess (.ring h.src.toNat)).expired = false ∧ (s.sess (.ring h.src.toNat)).doomed = none) ∧ (DictIdle s) ∧ (NoStore s) :=
  ⟨(⟨7, 2, 0, 3, .good⟩), (7), ([0x41]), (modSess (.ring 7) (fun x => { x with trans := some [⟨0x5000, 1, [0x41]⟩] }) ((((((((dictAt.put SYSC_PDSTAT.RING 1).put RING_CFG.EN 1).put RING_CFG.DICTEN 1).put RING_STAT.STATE 5).put RING_STAT.POS 2).put (RING_PORT.UP 0) 1).put (RING_PORT.UP 1) 1).modRing (fun r => { r with plan := 0x50200014 }))), by decide +kernel⟩

theorem witness_DictServices_ringAbort :
    ∃ (h : RingHdr) (rid : BitVec 8) (l : List DItem) (s : State), (DictRing h 5 rid s) ∧ (12 ≤ s.ringLimit) ∧ ((s.sess (.ring h.src.toNat)).trans = some l ∧ (s.sess (.ring h.src.toNat)).expired = false) :=
  ⟨(⟨7, 2, 0, 3, .good⟩), (7), ([]), (modSess (.ring 7) (fun x => { x with trans := some [] }) ((((((((dictAt.put SYSC_PDSTAT.RING 1).put RING_CFG.EN 1).put RING_CFG.DICTEN 1).put RING_STAT.STATE 5).put RING_STAT.POS 2).put (RING_PORT.UP 0) 1).put (RING_PORT.UP 1) 1).modRing (fun r => { r with plan := 0x50200014 }))), by decide +kernel⟩

theorem witness_DictServices_ringSnapshot :
    ∃ (h : RingHdr) (rid : BitVec 8) (items : List (BitVec 16 × BitVec 8)) (s : State), (DictRing h 6 rid s) ∧ (items.length ≤ 64) ∧ (s.on DICT_BUFBASE.EN = true ∧ s.dictUsed < 8) :=
  ⟨(⟨7, 2, 0, 3, .good⟩), (7), ([(0x1008, 0)]), (((((((((dictAt.put SYSC_PDSTAT.RING 1).put RING_CFG.EN 1).put RING_CFG.DICTEN 1).put RING_STAT.STATE 5).put RING_STAT.POS 2).put (RING_PORT.UP 0) 1).put (RING_PORT.UP 1) 1).modRing (fun r => { r with plan := 0x50200014 }))), by decide +kernel⟩

theorem witness_DictServices_ringFetch :
    ∃ (h : RingHdr) (rid : BitVec 8) (len : BitVec 16) (k : Nat) (n : Nat) (s : State), (DictRing h 7 rid s) ∧ ((s.sess (.ring h.src.toNat)).snap = some (k, n)) ∧ (len.toNat + 12 ≤ min 2048 s.ringLimit) :=
  ⟨(⟨7, 2, 0, 3, .good⟩), (7), (8), (2), (12), (modSess (.ring 7) (fun x => { x with snap := some (2, 12) }) ((((((((dictAt.put SYSC_PDSTAT.RING 1).put RING_CFG.EN 1).put RING_CFG.DICTEN 1).put RING_STAT.STATE 5).put RING_STAT.POS 2).put (RING_PORT.UP 0) 1).put (RING_PORT.UP 1) 1).modRing (fun r => { r with plan := 0x50200014 }))), by decide +kernel⟩

theorem witness_DictEngine_snapExpires :
    ∃ (q : Sess) (s : State), (s.dictClocked = true) ∧ ((s.sess q).snap.isSome = true) :=
  ⟨(.host), (modSess .host (fun x => { x with snap := some (2, 12) }) dictAt), by decide +kernel⟩

theorem witness_DictEngine_transExpires :
    ∃ (q : Sess) (s : State), (s.dictClocked = true) ∧ ((s.sess q).trans.isSome = true) :=
  ⟨(.host), (transAt []), by decide +kernel⟩

theorem witness_DictEngine_expiresNone :
    ∃ (c : Instr) (q : Sess) (s : State), (s.dictClocked = false ∨ ((s.sess q).snap = none ∧ (s.sess q).trans = none)) ∧ (c ∈ [.snapshotBufferExpiry q, .transactionExpiry q]) :=
  ⟨(.transactionExpiry .host), (.host), (dictAt), by decide +kernel⟩

theorem witness_DictEngine_hold :
    ∃ (rid : BitVec 8) (l : List DItem) (s : State), (HostRuns rid l .hold s) :=
  ⟨(7), ([⟨0x5000, 1, [0x41]⟩]), (runAt [⟨0x5000, 1, [0x41]⟩] .hold), by decide +kernel⟩

theorem witness_DictEngine_checkLate :
    ∃ (rid : BitVec 8) (l : List DItem) (left : List Nat) (s : State), (HostRuns rid l (.check left) s) :=
  ⟨(7), ([⟨0x5000, 1, [0x41]⟩]), ([0]), (runAt [⟨0x5000, 1, [0x41]⟩] (.check [0])), by decide +kernel⟩

theorem witness_DictEngine_notLate :
    ∃ (c : Instr) (s : State), (s.dict.run = none ∨ s.dictClocked = false) ∧ (c ∈ [.holdmaxExpiry, .checkTimeout]) :=
  ⟨(.checkTimeout), (dictAt), by decide +kernel⟩

theorem witness_DictEngine_refused :
    ∃ (d : Word) (rid : BitVec 8) (l : List DItem) (left : List Nat) (s : State), (HostRuns rid l (.check left) s) ∧ (Core Reg.DICT_CBRES s) ∧ (s.on DICT_CB.VALID = true) ∧ (d.getLsbD 31 = true ∧ d.getLsbD 8 = true) :=
  ⟨(0x80000142), (7), ([⟨0x5000, 1, [0x41]⟩]), ([0]), ((runAt [⟨0x5000, 1, [0x41]⟩] (.check [0])).put DICT_CB.VALID 1), by decide +kernel⟩

theorem witness_DictEngine_accepted :
    ∃ (d : Word) (rid : BitVec 8) (v : List Byte) (k : Nat) (s : State), (HostRuns rid [⟨0x5000, 1, v⟩] (.check [k]) s) ∧ (Core Reg.DICT_CBRES s) ∧ (s.on DICT_CB.VALID = true) ∧ (d.getLsbD 31 = true ∧ d.getLsbD 8 = false) :=
  ⟨(0x80000042), (7), ([0x41]), (0), ((runAt [⟨0x5000, 1, [0x41]⟩] (.check [0])).put DICT_CB.VALID 1), by decide +kernel⟩

theorem witness_DictEngine_acceptedNext :
    ∃ (d : Word) (rid : BitVec 8) (l : List DItem) (k : Nat) (k2 : Nat) (left : List Nat) (s : State), (HostRuns rid l (.check (k :: k2 :: left)) s) ∧ (s.appTyp k2 = none ∧ k2 < 1024) ∧ (Core Reg.DICT_CBRES s) ∧ (s.on DICT_CB.VALID = true) ∧ (d.getLsbD 31 = true ∧ d.getLsbD 8 = false) :=
  ⟨(0x80000042), (7), ([⟨0x5000, 1, [0x41]⟩]), (0), (5), ([]), (((runAt [⟨0x5000, 1, [0x41]⟩] (.check [0, 5])).put DICT_CB.VALID 1).put DICT_APPBASE.ADDR 0x2001000), by decide +kernel⟩

theorem witness_DictEngine_noVerdict :
    ∃ (d : Word) (s : State), (Core Reg.DICT_CBRES s) ∧ (DictIdle s ∧ s.on DICT_CTRL.EN = true) ∧ (d.getLsbD 31 = false ∨ s.on DICT_CB.VALID = false) :=
  ⟨(0), (dictAt), by decide +kernel⟩

theorem witness_DictEngine_envelope :
    ∃ (n : Nat) (slot : Nat) (level : Nat) (src : Nat) (ctr : Nat) (enc : List Byte) (s : State), (MqHead n 0 s) ∧ (s.dictSlot (s.slot slot).keyId = some slot ∧ (s.slot slot).keyId < 256) ∧ (5 ≤ level ∧ level ≤ 7 ∧ ctr < 2 ^ 32 ∧ src < 2 ^ 64 ∧ enc.length ≤ 2048) ∧ (Envelope (s.slot slot) level src ctr enc (s.bytes (s.mqF n 8 4) (s.mqF n 4 2))) ∧ ((s.meshLast (s.slot slot).kcv).all (fun k => decide (k < ctr)) = true) ∧ (s.noStore = false ∧ s.dict.store.busy = true ∧ s.dict.store.used + 1 ≤ 128 ∧ (s.slot slot).kcv.length = 8) :=
  ⟨(2), (3), (5), (0x1122334455667788), (9), (envEnc), (envAt), by decide +kernel⟩

theorem witness_DictEngine_replayed :
    ∃ (n : Nat) (slot : Nat) (level : Nat) (src : Nat) (ctr : Nat) (enc : List Byte) (k : Nat) (s : State), (MqHead n 0 s) ∧ (s.dictSlot (s.slot slot).keyId = some slot ∧ (s.slot slot).keyId < 256) ∧ (5 ≤ level ∧ level ≤ 7 ∧ ctr < 2 ^ 32 ∧ src < 2 ^ 64 ∧ enc.length ≤ 2048) ∧ (Envelope (s.slot slot) level src ctr enc (s.bytes (s.mqF n 8 4) (s.mqF n 4 2))) ∧ ((s.meshLast (s.slot slot).kcv) = some k ∧ ctr < k) :=
  ⟨(2), (3), (5), (0x1122334455667788), (9), (envEnc), (10), (envAt.modDict (fun d => { d with store := { d.store with recs := [⟨0, 0, 0, 0, 0, storeBytes 0 0 0 true 0 (List.replicate 8 1 ++ leBytes 4 10)⟩] } })), by decide +kernel⟩

theorem witness_DictEngine_repeatedEnvelope :
    ∃ (n : Nat) (slot : Nat) (level : Nat) (src : Nat) (ctr : Nat) (enc : List Byte) (e : List Byte) (s : State), (MqHead n 0 s) ∧ (s.dictSlot (s.slot slot).keyId = some slot ∧ (s.slot slot).keyId < 256) ∧ (5 ≤ level ∧ level ≤ 7 ∧ ctr < 2 ^ 32 ∧ src < 2 ^ 64 ∧ enc.length ≤ 2048) ∧ (Envelope (s.slot slot) level src ctr enc (s.bytes (s.mqF n 8 4) (s.mqF n 4 2))) ∧ ((s.meshLast (s.slot slot).kcv) = some ctr) ∧ ((s.sess (.mesh slot)).keptEnv = e ∧ e ≠ [] ∧ e.length ≤ s.mqF n 6 2) :=
  ⟨(2), (3), (5), (0x1122334455667788), (9), (envEnc), ([1, 2, 3]), (modSess (.mesh 3) (fun x => { x with keptEnv := [1, 2, 3] }) (envAt.modDict (fun d => { d with store := { d.store with recs := [⟨0, 0, 0, 0, 0, storeBytes 0 0 0 true 0 (List.replicate 8 1 ++ leBytes 4 9)⟩] } }))), by decide +kernel⟩

theorem witness_DictEngine_badEnvelope :
    ∃ (n : Nat) (slot : Nat) (s : State), (MqHead n 0 s) ∧ (16 ≤ s.mqF n 4 2 ∧ s.mqF n 4 2 ≤ 2080) ∧ (s.dictSlot (s.rb (s.mqF n 8 4 + 2)).toNat = some slot) ∧ (s.rb (s.mqF n 8 4) ≠ 0x4C ∨ s.rb (s.mqF n 8 4 + 1) ≠ 0 ∨ s.rb (s.mqF n 8 4 + 3) < 5 ∨ 7 < s.rb (s.mqF n 8 4 + 3)) :=
  ⟨(2), (3), (envAt.wb 0x20071003 4), by decide +kernel⟩

theorem witness_DictEngine_badMic :
    ∃ (n : Nat) (slot : Nat) (level : Nat) (s : State), (MqHead n 0 s) ∧ (16 ≤ s.mqF n 4 2 ∧ s.mqF n 4 2 ≤ 2080) ∧ (s.dictSlot (s.rb (s.mqF n 8 4 + 2)).toNat = some slot) ∧ ((s.rb (s.mqF n 8 4 + 3)).toNat = level) ∧ ((s.bytes (s.mqF n 8 4) (s.mqF n 4 2)).length < 16 + micOctets level ∨ ccmMic (s.slot slot).key (macNonce (leNat (((s.bytes (s.mqF n 8 4) (s.mqF n 4 2)).drop 4).take 8)) (leNat (((s.bytes (s.mqF n 8 4) (s.mqF n 4 2)).drop 12).take 4)) level) ((s.bytes (s.mqF n 8 4) (s.mqF n 4 2)).take 16) (ccmCrypt (s.slot slot).key (macNonce (leNat (((s.bytes (s.mqF n 8 4) (s.mqF n 4 2)).drop 4).take 8)) (leNat (((s.bytes (s.mqF n 8 4) (s.mqF n 4 2)).drop 12).take 4)) level) (((s.bytes (s.mqF n 8 4) (s.mqF n 4 2)).drop 16).take ((s.bytes (s.mqF n 8 4) (s.mqF n 4 2)).length - 16 - micOctets level))) (micOctets level) ≠ (s.bytes (s.mqF n 8 4) (s.mqF n 4 2)).drop ((s.bytes (s.mqF n 8 4) (s.mqF n 4 2)).length - micOctets level)) :=
  ⟨(2), (3), (5), (envAt.wb 0x20071014 4), by decide +kernel⟩

theorem witness_DictEngine_noKey :
    ∃ (n : Nat) (s : State), (MqHead n 0 s) ∧ (16 ≤ s.mqF n 4 2 ∧ s.mqF n 4 2 ≤ 2080) ∧ (s.dictSlot (s.rb (s.mqF n 8 4 + 2)).toNat = none) :=
  ⟨(2), (envAt.modSec (fun x => { x with slots := x.slots.set 3 {} })), by decide +kernel⟩

theorem witness_DictEngine_badDesc :
    ∃ (c : Instr) (n : Nat) (s : State), (s.mqNext = some n) ∧ (1 < s.mqF n 1 1) ∧ (c ∈ [.meshEnvelope, .localRequest]) :=
  ⟨(.localRequest), (2), (mqAt 4 []), by decide +kernel⟩

theorem witness_DictEngine_badLength :
    ∃ (c : Instr) (n : Nat) (k : Nat) (s : State), (s.mqNext = some n ∧ s.mqF n 1 1 = k) ∧ (s.mqF n 4 2 = 0 ∨ 2080 < s.mqF n 4 2) ∧ ((c, k) ∈ ([(.meshEnvelope, 0), (.localRequest, 1)] : List (Instr × Nat))) :=
  ⟨(.localRequest), (2), (1), (mqAt 1 []), by decide +kernel⟩

theorem witness_DictEngine_mqNone :
    ∃ (c : Instr) (k : Nat) (s : State), (s.mqNext = none ∨ s.mqNext.any (fun n => s.mqF n 1 1 == 1 - k) = true) ∧ ((c, k) ∈ ([(.meshEnvelope, 0), (.localRequest, 1)] : List (Instr × Nat))) :=
  ⟨(.localRequest), (1), (envAt), by decide +kernel⟩

theorem witness_DictEngine_local :
    ∃ (n : Nat) (rid : BitVec 8) (s : State), (MqHead n 1 s) ∧ (s.mqF n 4 2 = 4 ∧ s.bytes (s.mqF n 8 4) 4 = [3, rid, 0, 0]) ∧ (12 ≤ s.mqF n 6 2) ∧ (DictFresh ⟨.desc n, .loc, 3, rid.toNat⟩ s) ∧ ((s.sess .loc).trans = none) ∧ (s.bufferFree = true) :=
  ⟨(2), (7), (locAt), by decide +kernel⟩

theorem witness_DictEngine_localNoRoom :
    ∃ (n : Nat) (rid : BitVec 8) (s : State), (MqHead n 1 s) ∧ (s.mqF n 4 2 = 4 ∧ s.bytes (s.mqF n 8 4) 4 = [3, rid, 0, 0]) ∧ (s.mqF n 6 2 < 12) ∧ (DictFresh ⟨.desc n, .loc, 3, rid.toNat⟩ s) ∧ ((s.sess .loc).trans = none) ∧ (s.bufferFree = true) :=
  ⟨(2), (7), (locAt.wn 0x20070026 2 8), by decide +kernel⟩

theorem witness_DictEngine_enable :
    ∃ (d : Word) (s : State), (Core Reg.DICT_CTRL s) ∧ (s.dictClocked = true) ∧ (s.on DICT_CTRL.EN = false ∧ DICT_CTRL.EN.of d = 1) ∧ (DictIdle s) ∧ (NoStore s) :=
  ⟨(0x80000000), (dictAt.put DICT_CTRL.EN 0), by decide +kernel⟩

theorem witness_DictEngine_restores :
    ∃ (d : Word) (s : State), (Core Reg.DICT_CTRL s) ∧ (s.dictClocked = true) ∧ (s.on DICT_CTRL.EN = false ∧ DICT_CTRL.EN.of d = 1) ∧ (DictIdle s) ∧ (s.on DICT_STORE.EN = true) ∧ ((storeScan s).dict.store.recs = []) :=
  ⟨(0x80000000), ((((dictAt.put DICT_CTRL.EN 0).put DICT_STORE.EN 1).put DICT_STORE.FIRST 400).put DICT_STORE.NBLK 2), by decide +kernel⟩

theorem witness_DictEngine_disable :
    ∃ (d : Word) (s : State), (Core Reg.DICT_CTRL s) ∧ (DICT_CTRL.EN.of d = 0) ∧ (s.dict.reads = [] ∧ s.dict.queue = []) :=
  ⟨(0), (dictAt), by decide +kernel⟩

theorem witness_DictEngine_disableAnswers :
    ∃ (d : Word) (rid : BitVec 8) (items : List (Nat × Nat)) (s : State), (Core Reg.DICT_CTRL s) ∧ (s.dictClocked = true) ∧ (DICT_CTRL.EN.of d = 0) ∧ (s.spis.pend = true) ∧ (s.dict.reads = [⟨hostReq 1 rid, items⟩] ∧ s.dict.queue = []) :=
  ⟨(0), (7), ([]), ((dictAt.modSpis (fun p => { p with pend := true })).modDict (fun d => { d with reads := [⟨hostReq 1 7, []⟩] })), by decide +kernel⟩

theorem witness_DictEngine_store :
    ∃ (d : Word) (s : State), (Core Reg.DICT_STORE s) ∧ (s.dictClocked = true → DictRest s ∧ s.dict.store.ops = [] ∧ s.dict.meshWait = none) ∧ (s.on DICT_STORE.EN = false) ∧ (DICT_STORE.EN.of d = 1 ∧ 2 ≤ DICT_STORE.NBLK.of d ∧ DICT_STORE.NBLK.of d ≤ 32 ∧ 388 ≤ DICT_STORE.FIRST.of d ∧ DICT_STORE.FIRST.of d + DICT_STORE.NBLK.of d - 1 ≤ 495) :=
  ⟨(DICT_STORE.EN.into (DICT_STORE.NBLK.into (DICT_STORE.FIRST.into 0 404) 2) 1), (State.reset), by decide +kernel⟩

theorem witness_DictEngine_storeBad :
    ∃ (d : Word) (s : State), (Core Reg.DICT_STORE s) ∧ (s.dictClocked = true → DictRest s ∧ s.dict.store.ops = [] ∧ s.dict.meshWait = none) ∧ (s.on DICT_STORE.EN = false) ∧ (DICT_STORE.EN.of d = 1) ∧ (DICT_STORE.NBLK.of d < 2 ∨ 32 < DICT_STORE.NBLK.of d ∨ DICT_STORE.FIRST.of d < 388 ∨ 495 < DICT_STORE.FIRST.of d + DICT_STORE.NBLK.of d - 1) :=
  ⟨(DICT_STORE.EN.into (DICT_STORE.NBLK.into (DICT_STORE.FIRST.into 0 490) 8) 1), (State.reset), by decide +kernel⟩

theorem witness_DictEngine_storeKept :
    ∃ (d : Word) (s : State), (Core Reg.DICT_STORE s) ∧ (s.dictClocked = true → DictRest s ∧ s.dict.store.ops = [] ∧ s.dict.meshWait = none) ∧ (s.on DICT_STORE.EN = true) ∧ (DICT_STORE.EN.of d = 1) :=
  ⟨(DICT_STORE.EN.into (DICT_STORE.NBLK.into (DICT_STORE.FIRST.into 0 404) 2) 1), (State.reset.put DICT_STORE.EN 1), by decide +kernel⟩

theorem witness_DictEngine_storeOff :
    ∃ (d : Word) (s : State), (Core Reg.DICT_STORE s) ∧ (s.dictClocked = true → DictRest s ∧ s.dict.store.ops = [] ∧ s.dict.meshWait = none) ∧ (s.on DICT_STORE.EN = true) ∧ (DICT_STORE.EN.of d = 0) :=
  ⟨(0), (State.reset.put DICT_STORE.EN 1), by decide +kernel⟩

theorem witness_DictEngine_appTable :
    ∃ (n : Bool) (s : State), (Core (if n then Reg.DICT_APPN else Reg.DICT_APPBASE) s) :=
  ⟨(true), (State.reset), by decide +kernel⟩

theorem witness_TwillFrames_hello :
    ∃ (s : State), (TwClocked s) ∧ (s.on TWIL_STAT.LINK = false) :=
  ⟨((twilAt 1).put TWIL_STAT.LINK 0), by decide +kernel⟩

theorem witness_TwillFrames_helloUp :
    ∃ (s : State), (TwClocked s) ∧ (s.on TWIL_STAT.LINK = true) :=
  ⟨(twilAt 1), by decide +kernel⟩

theorem witness_TwillFrames_bad :
    ∃ (c : Instr) (h : TwHdr) (tick : Word) (start : Word) (gen : Word) (st : BitVec 8) (qual : BitVec 8) (origin : DWord) (t2 : DWord) (t3 : DWord) (kcv : DWord) (first : DWord) (last : DWord) (nt : DWord) (turn : BitVec 16) (i : BitVec 16) (n : Fin 32) (e : Vector (BitVec 8) 32) (d : Vector (BitVec 8) 32) (ps : List (BitVec 16 × Word)) (kind : BitVec 8) (b : List (BitVec 8)) (s : State), (TwClocked s) ∧ (h.bad = true) ∧ (c ∈ [.twillTick h tick st qual origin, .twillDreq h turn, .twillDrsp h t2 t3, .twillTxb h first last, .twillFwd h nt d b, .twillTbl h i e, .twillCtr h ps, .twillRes h n kcv start, .twillDict h gen b, .twillSync h kind b, .twillHandover h tick, .twillResack h n kcv start, .twillRelay h b]) :=
  ⟨(.twillDreq ⟨0, 0, true⟩ 0), (⟨0, 0, true⟩), (0), (0), (0), (0), (0), (0), (0), (0), (0), (0), (0), (0), (0), (0), (0), (Vector.replicate 32 0), (Vector.replicate 32 0), ([]), (0), ([]), (twilAt 1), by decide +kernel⟩

theorem witness_TwillFrames_helloBad :
    ∃ (s : State), (TwClocked s) :=
  ⟨(twilAt 1), by decide +kernel⟩

theorem witness_TwillFrames_noLink :
    ∃ (c : Instr) (h : TwHdr) (tick : Word) (start : Word) (gen : Word) (st : BitVec 8) (qual : BitVec 8) (origin : DWord) (t2 : DWord) (t3 : DWord) (kcv : DWord) (first : DWord) (last : DWord) (nt : DWord) (turn : BitVec 16) (i : BitVec 16) (n : Fin 32) (e : Vector (BitVec 8) 32) (d : Vector (BitVec 8) 32) (ps : List (BitVec 16 × Word)) (kind : BitVec 8) (b : List (BitVec 8)) (s : State), (s.on TWIL_STAT.LINK = false) ∧ (h.bad = false) ∧ (c ∈ [.twillTick h tick st qual origin, .twillDreq h turn, .twillDrsp h t2 t3, .twillTxb h first last, .twillFwd h nt d b, .twillTbl h i e, .twillCtr h ps, .twillRes h n kcv start, .twillDict h gen b, .twillSync h kind b, .twillHandover h tick, .twillResack h n kcv start, .twillRelay h b]) :=
  ⟨(.twillDreq ⟨0, 0, false⟩ 0), (⟨0, 0, false⟩), (0), (0), (0), (0), (0), (0), (0), (0), (0), (0), (0), (0), (0), (0), (0), (Vector.replicate 32 0), (Vector.replicate 32 0), ([]), (0), ([]), ((twilAt 1).put TWIL_STAT.LINK 0), by decide +kernel⟩

theorem witness_TwillFrames_off :
    ∃ (c : Instr) (h : TwHdr) (tick : Word) (start : Word) (gen : Word) (st : BitVec 8) (qual : BitVec 8) (origin : DWord) (t2 : DWord) (t3 : DWord) (kcv : DWord) (first : DWord) (last : DWord) (nt : DWord) (turn : BitVec 16) (i : BitVec 16) (n : Fin 32) (e : Vector (BitVec 8) 32) (d : Vector (BitVec 8) 32) (ps : List (BitVec 16 × Word)) (kind : BitVec 8) (b : List (BitVec 8)) (ver : BitVec 8) (state : BitVec 8) (role : BitVec 8) (addr : DWord) (kv : Vector (BitVec 16) 32) (s : State), (s.ringOn = false ∨ s.clocked = false ∨ s.pairState = pairOff) ∧ (c ∈ [.twillHello false ver state role addr kv, .twillTick h tick st qual origin, .twillDreq h turn, .twillDrsp h t2 t3, .twillTxb h first last, .twillFwd h nt d b, .twillTbl h i e, .twillCtr h ps, .twillRes h n kcv start, .twillDict h gen b, .twillSync h kind b, .twillHandover h tick, .twillResack h n kcv start, .twillRelay h b]) :=
  ⟨(.twillDreq ⟨0, 0, false⟩ 0), (⟨0, 0, false⟩), (0), (0), (0), (0), (0), (0), (0), (0), (0), (0), (0), (0), (0), (0), (0), (Vector.replicate 32 0), (Vector.replicate 32 0), ([]), (0), ([]), (0x11), (1), (1), (0x1234), (Vector.replicate 32 0), (State.reset), by decide +kernel⟩

theorem witness_TwillFrames_outOfOrder :
    ∃ (c : Instr) (h : TwHdr) (tick : Word) (start : Word) (gen : Word) (kcv : DWord) (i : BitVec 16) (n : Fin 32) (e : Vector (BitVec 8) 32) (ps : List (BitVec 16 × Word)) (kind : BitVec 8) (b : List (BitVec 8)) (s : State), (TwUp s) ∧ (h.bad = false) ∧ (h.seq.toNat ≠ (s.twil.rxSeq + 1) % 65536) ∧ (c ∈ [.twillTbl h i e, .twillCtr h ps, .twillRes h n kcv start, .twillDict h gen b, .twillSync h kind b, .twillHandover h tick, .twillResack h n kcv start, .twillRelay h b]) :=
  ⟨(.twillHandover ⟨6, 0xFFFF, false⟩ 0), (⟨6, 0xFFFF, false⟩), (0), (0), (0), (0), (0), (0), (Vector.replicate 32 0), ([]), (0), ([]), (twilAt 2), by decide +kernel⟩

theorem witness_TwillFrames_notStandby :
    ∃ (c : Instr) (h : TwHdr) (tick : Word) (start : Word) (gen : Word) (kcv : DWord) (i : BitVec 16) (n : Fin 32) (e : Vector (BitVec 8) 32) (ps : List (BitVec 16 × Word)) (kind : BitVec 8) (b : List (BitVec 8)) (s : State), (TwUp s) ∧ (TwNext h s) ∧ (s.standby = false) ∧ (c ∈ [.twillTbl h i e, .twillCtr h ps, .twillRes h n kcv start, .twillDict h gen b, .twillSync h kind b, .twillHandover h tick]) :=
  ⟨(.twillHandover ⟨5, 0xFFFF, false⟩ 0), (⟨5, 0xFFFF, false⟩), (0), (0), (0), (0), (0), (0), (Vector.replicate 32 0), ([]), (0), ([]), (twilAt 3), by decide +kernel⟩

theorem witness_TwillFrames_endAcked :
    ∃ (h : TwHdr) (e : Nat) (s : State), (TwClocked s) ∧ (s.on TWIL_STAT.LINK = true) ∧ (h.bad = false) ∧ (s.twil.endSeq = some e) ∧ ((s.twil.unacked.filter (fun f : TwFrame => decide ((h.ack.toNat + 65536 - f.seq) % 65536 < 32768))).any (fun f => f.seq == e) = true) :=
  ⟨(⟨0, 3, false⟩), (3), ((twilAt 3).modTwil (fun x => { x with endSeq := some 3, unacked := [⟨0x16, 3, [0x0F, 0, 0, 0], 5, 5⟩] })), by decide +kernel⟩

theorem witness_TwillFrames_handover :
    ∃ (h : TwHdr) (s : State), (TwUp s) ∧ (TwNext h s) ∧ (s.standby = true) :=
  ⟨(⟨5, 0xFFFF, false⟩), (twilAt 2), by decide +kernel⟩

theorem witness_TwillFrames_tick :
    ∃ (h : TwHdr) (st : BitVec 8) (s : State), (TwUp s) ∧ (h.bad = false) ∧ (s.standby = true ∧ st.toNat % 4 = pairActive ∧ s.on TWIL_DELAY.DVALID = true) ∧ (s.on TWIL_CFG.TFOLLOW = false) :=
  ⟨(⟨0, 0xFFFF, false⟩), (3), (((twilAt 2).put TWIL_DELAY.DVALID 1).put TWIL_CFG.TFOLLOW 0), by decide +kernel⟩

theorem witness_TwillFrames_tickSets :
    ∃ (h : TwHdr) (st : BitVec 8) (s : State), (TwUp s) ∧ (h.bad = false) ∧ (s.standby = true ∧ st.toNat % 4 = pairActive ∧ s.on TWIL_DELAY.DVALID = true) ∧ (s.on TWIL_CFG.TFOLLOW = true) ∧ (s.time.valid = false) :=
  ⟨(⟨0, 0xFFFF, false⟩), (3), (((twilAt 2).put TWIL_DELAY.DVALID 1).put TWIL_CFG.TFOLLOW 1), by decide +kernel⟩

theorem witness_TwillFrames_tickSlews :
    ∃ (h : TwHdr) (st : BitVec 8) (origin : DWord) (s : State), (TwUp s) ∧ (h.bad = false) ∧ (s.standby = true ∧ st.toNat % 4 = pairActive ∧ s.on TWIL_DELAY.DVALID = true) ∧ (s.on TWIL_CFG.TFOLLOW = true) ∧ (s.time.valid = true) ∧ ((roundDiv (1000000000 * (ntDiff s.ntRead (wrapInt 64 ((origin.toNat : Int) + s.twDelay)))) (2 ^ 32)).natAbs ≤ s.get TIME_JUMPMAX.MAX) :=
  ⟨(⟨0, 0xFFFF, false⟩), (3), (0x0000000A80000000), (({ (((twilAt 2).put TWIL_DELAY.DVALID 1).put TWIL_CFG.TFOLLOW 1).put TIME_JUMPMAX.MAX 0xFFFFFFFF with time := timeAt.time })), by decide +kernel⟩

theorem witness_TwillFrames_tickSteps :
    ∃ (h : TwHdr) (st : BitVec 8) (origin : DWord) (s : State), (TwUp s) ∧ (h.bad = false) ∧ (s.standby = true ∧ st.toNat % 4 = pairActive ∧ s.on TWIL_DELAY.DVALID = true) ∧ (s.on TWIL_CFG.TFOLLOW = true) ∧ (s.time.valid = true) ∧ (s.get TIME_JUMPMAX.MAX < (roundDiv (1000000000 * (ntDiff s.ntRead (wrapInt 64 ((origin.toNat : Int) + s.twDelay)))) (2 ^ 32)).natAbs) :=
  ⟨(⟨0, 0xFFFF, false⟩), (3), (0x0000000A80000000), (({ (((twilAt 2).put TWIL_DELAY.DVALID 1).put TWIL_CFG.TFOLLOW 1).put TIME_JUMPMAX.MAX 0 with time := timeAt.time })), by decide +kernel⟩

theorem witness_TwillFrames_tickOnly :
    ∃ (h : TwHdr) (st : BitVec 8) (s : State), (TwUp s) ∧ (h.bad = false) ∧ (s.standby = false ∨ st.toNat % 4 ≠ pairActive ∨ s.on TWIL_DELAY.DVALID = false) :=
  ⟨(⟨0, 0xFFFF, false⟩), (3), (twilAt 3), by decide +kernel⟩

theorem witness_TwillFrames_dreq :
    ∃ (h : TwHdr) (s : State), (TwUp s) ∧ (h.bad = false) :=
  ⟨(⟨0, 2, false⟩), ((twilAt 2).modTwil (fun x => { x with unacked := [⟨0x10, 2, [], 0, 0⟩, ⟨0x10, 3, [], 0, 0⟩], waitq := [⟨0x10, 4, [], 0, 0⟩] })), by decide +kernel⟩

theorem witness_TwillFrames_drsp :
    ∃ (h : TwHdr) (t1 : Nat) (s : State), (TwUp s) ∧ (h.bad = false) ∧ (s.twil.dreqAt = some t1) :=
  ⟨(⟨0, 0xFFFF, false⟩), (9000), ((twilAt 2).modTwil (fun x => { x with dreqAt := some 9000 })), by decide +kernel⟩

theorem witness_TwillFrames_drspNone :
    ∃ (h : TwHdr) (s : State), (TwUp s) ∧ (h.bad = false) ∧ (s.twil.dreqAt = none) :=
  ⟨(⟨0, 0xFFFF, false⟩), (twilAt 2), by decide +kernel⟩

theorem witness_TwillFrames_tbl :
    ∃ (h : TwHdr) (i : BitVec 16) (s : State), (TwUp s) ∧ (TwNext h s) ∧ (s.standby = true) ∧ (i.toNat < 8192) :=
  ⟨(⟨5, 0xFFFF, false⟩), (9), (twilAt 2), by decide +kernel⟩

theorem witness_TwillFrames_tblBeyond :
    ∃ (h : TwHdr) (i : BitVec 16) (s : State), (TwUp s) ∧ (TwNext h s) ∧ (s.standby = true) ∧ (8192 ≤ i.toNat) :=
  ⟨(⟨5, 0xFFFF, false⟩), (8192), (twilAt 2), by decide +kernel⟩

theorem witness_TwillFrames_ctr :
    ∃ (h : TwHdr) (i : BitVec 16) (s : State), (TwUp s) ∧ (TwNext h s) ∧ (s.standby = true) ∧ (i.toNat < 8192) ∧ (s.twil.handoverIn.all (fun k => decide (signedOf 32 (wrapInt 32 (((s.reg Reg.SYSC_TICK).toNat : Int) - k)) < 0)) = true) :=
  ⟨(⟨5, 0xFFFF, false⟩), (9), (twilAt 2), by decide +kernel⟩

theorem witness_TwillFrames_handedOver :
    ∃ (h : TwHdr) (k : Nat) (s : State), (TwUp s) ∧ (TwNext h s) ∧ (s.standby = true) ∧ (s.twil.handoverIn = some k) ∧ (0 ≤ signedOf 32 (wrapInt 32 (((s.reg Reg.SYSC_TICK).toNat : Int) - k))) ∧ (s.radioOn = false) ∧ (∀ n : Fin 32, s.counts n = false) :=
  ⟨(⟨5, 0xFFFF, false⟩), (0), ((twilAt 2).modTwil (fun x => { x with handoverIn := some 0 })), by decide +kernel⟩

theorem witness_TwillFrames_res :
    ∃ (h : TwHdr) (n : Fin 32) (kcv : DWord) (start : Word) (s : State), (TwUp s) ∧ (TwNext h s) ∧ (s.standby = true) ∧ (s.on SEC_LEDGER.EN = false) ∧ ((s.slot n.val).kcv = leBytes 8 kcv.toNat ∧ (s.newestStart n.val).all (fun k => decide (k < start.toNat)) = true) ∧ ((s.counter n.val).resv = none) ∧ (s.twil.resPend = [] ∧ s.twil.unacked = [] ∧ s.twil.waitq = []) :=
  ⟨(⟨5, 0xFFFF, false⟩), (3), (0x0101010101010101), (0x5C00), ((twilAt 2).modSec (fun x => { x with slots := x.slots.set 3 { valid := true, use := 1, kcv := List.replicate 8 1 } })), by decide +kernel⟩

theorem witness_TwillFrames_resack :
    ∃ (h : TwHdr) (n : Fin 32) (kcv : DWord) (start : Word) (r : Resv) (s : State), (TwUp s) ∧ (TwNext h s) ∧ (s.pairState = pairActive) ∧ ((s.slot n.val).kcv = leBytes 8 kcv.toNat) ∧ ((s.counter n.val).resv = some r ∧ r.start = start.toNat) :=
  ⟨(⟨5, 0xFFFF, false⟩), (3), (0x0101010101010101), (0x5C00), (⟨0x5C00, true, false, false⟩), ((twilAt 3).modSec (fun x => { x with slots := x.slots.set 3 { valid := true, use := 1, kcv := List.replicate 8 1 }, ctr := x.ctr.set 3 { resv := some ⟨0x5C00, true, false, false⟩ } })), by decide +kernel⟩

theorem witness_TwillFrames_resackOther :
    ∃ (h : TwHdr) (n : Fin 32) (kcv : DWord) (s : State), (TwUp s) ∧ (TwNext h s) ∧ (s.pairState ≠ pairActive ∨ (s.slot n.val).kcv ≠ leBytes 8 kcv.toNat) :=
  ⟨(⟨5, 0xFFFF, false⟩), (3), (0x0101010101010102), ((twilAt 3).modSec (fun x => { x with slots := x.slots.set 3 { valid := true, use := 1, kcv := List.replicate 8 1 }, ctr := x.ctr.set 3 { resv := some ⟨0x5C00, true, false, false⟩ } })), by decide +kernel⟩

theorem witness_TwillFrames_dict :
    ∃ (h : TwHdr) (v : List (BitVec 8)) (s : State), (TwUp s) ∧ (TwNext h s) ∧ (s.standby = true) ∧ (s.dictReady = true) ∧ (v.length ≤ 32 ∧ s.dict.locked = none) ∧ (DictIdle s) ∧ (NoStore s) :=
  ⟨(⟨5, 0xFFFF, false⟩), ([0x41]), (twilAt 2), by decide +kernel⟩

theorem witness_TwillFrames_dictRefused :
    ∃ (h : TwHdr) (b : List (BitVec 8)) (s : State), (TwUp s) ∧ (TwNext h s) ∧ (s.standby = true) ∧ (s.dictReady = false ∨ parseAll (b.length + 1) b = none ∨ (parseAll (b.length + 1) b).any (fun l => l.any (fun i => stageTest i s != dsOk)) = true) :=
  ⟨(⟨5, 0xFFFF, false⟩), (Sys2Proof.Machine.itemBytes ⟨0x5000, 9, [1]⟩), ((twilAt 2).put TWIL_STAT.INSYNC 1), by decide +kernel⟩

theorem witness_TwillFrames_txb :
    ∃ (h : TwHdr) (s : State), (TwUp s) ∧ (h.bad = false) ∧ (s.standby = true) :=
  ⟨(⟨0, 0xFFFF, false⟩), (twilAt 2), by decide +kernel⟩

theorem witness_TwillFrames_txbOther :
    ∃ (h : TwHdr) (s : State), (TwUp s) ∧ (h.bad = false) ∧ (s.standby = false) :=
  ⟨(⟨0, 0xFFFF, false⟩), (twilAt 3), by decide +kernel⟩

theorem witness_TwillFrames_fwd :
    ∃ (h : TwHdr) (s : State), (TwUp s) ∧ (h.bad = false) ∧ (s.pairState = pairActive) ∧ (s.radioOn = false) :=
  ⟨(⟨0, 0xFFFF, false⟩), (twilAt 3), by decide +kernel⟩

theorem witness_TwillFrames_fwdShort :
    ∃ (h : TwHdr) (d : Vector (BitVec 8) 32) (s : State), (TwUp s) ∧ (h.bad = false) ∧ (s.pairState = pairActive) ∧ (s.radioOn = true ∧ MacQuiet s) ∧ (leNat ((d.toList.drop 6).take 2) = 0) :=
  ⟨(⟨0, 0xFFFF, false⟩), (Vector.replicate 32 0), ((twilAt 3).put SYSC_PDSTAT.RADIO 1), by decide +kernel⟩

theorem witness_TwillFrames_fwdOther :
    ∃ (h : TwHdr) (s : State), (TwUp s) ∧ (h.bad = false) ∧ (s.pairState ≠ pairActive) :=
  ⟨(⟨0, 0xFFFF, false⟩), (twilAt 2), by decide +kernel⟩

theorem witness_TwillFrames_syncEnd :
    ∃ (h : TwHdr) (s : State), (TwUp s) ∧ (TwNext h s) ∧ (s.standby = true) :=
  ⟨(⟨5, 0xFFFF, false⟩), (twilAt 2), by decide +kernel⟩

theorem witness_TwillFrames_syncEntry :
    ∃ (h : TwHdr) (i : BitVec 16) (s : State), (TwUp s) ∧ (TwNext h s) ∧ (s.standby = true) ∧ (i.toNat < 8192) :=
  ⟨(⟨5, 0xFFFF, false⟩), (9), (twilAt 2), by decide +kernel⟩

theorem witness_TwillFrames_syncRes :
    ∃ (h : TwHdr) (n : Fin 32) (kcv : DWord) (start : Word) (s : State), (TwUp s) ∧ (TwNext h s) ∧ (s.standby = true) ∧ (s.on SEC_LEDGER.EN = false) ∧ ((s.slot n.val).kcv = leBytes 8 kcv.toNat ∧ (s.newestStart n.val).all (fun k => decide (k < start.toNat)) = true) ∧ ((s.counter n.val).resv = none) :=
  ⟨(⟨5, 0xFFFF, false⟩), (3), (0x0101010101010101), (0x5C00), ((twilAt 2).modSec (fun x => { x with slots := x.slots.set 3 { valid := true, use := 1, kcv := List.replicate 8 1 } })), by decide +kernel⟩

theorem witness_TwillFrames_syncDict :
    ∃ (h : TwHdr) (v : List (BitVec 8)) (s : State), (TwUp s) ∧ (TwNext h s) ∧ (s.standby = true) ∧ (s.dictReady = true) ∧ (v.length ≤ 32 ∧ s.dict.locked = none) ∧ (DictIdle s) ∧ (NoStore s) :=
  ⟨(⟨5, 0xFFFF, false⟩), ([0x41]), (twilAt 2), by decide +kernel⟩

theorem witness_TwillFrames_relay :
    ∃ (h : TwHdr) (rid : BitVec 8) (s : State), (TwUp s) ∧ (TwNext h s) ∧ (s.pairState = pairActive) ∧ (DictFresh ⟨.relay, .relay, 1, rid.toNat⟩ s) :=
  ⟨(⟨5, 0xFFFF, false⟩), (7), (twilAt 3), by decide +kernel⟩

theorem witness_TwillFrames_relayed :
    ∃ (rid : BitVec 8) (items : List (BitVec 16 × BitVec 8)) (s : State), (HostReady s) ∧ (s.dictReady = true) ∧ ((s.sess .host).kept = none ∧ s.serving (hostReq 1 rid) = false) ∧ (s.standby = true ∧ s.on TWIL_STAT.LINK = true) ∧ (items.length ≤ 64 ∧ items.any (fun e => decide (e.1.toNat < 0x9000) || decide (0x9FFF < e.1.toNat)) = true) ∧ (s.twil.unacked.length < 64) :=
  ⟨(7), ([(0x1008, 0)]), (twilAt 2), by decide +kernel⟩

theorem witness_TwillFrames_relayBack :
    ∃ (h : TwHdr) (q : DReq) (rest : List DReq) (b : List (BitVec 8)) (s : State), (TwUp s) ∧ (TwNext h s) ∧ (s.standby = true) ∧ (s.twil.relays = q :: rest ∧ q.replyTo = .host ∧ q.sess = .host) ∧ (s.spis.pend = true) ∧ (b.length ≤ 2048) :=
  ⟨(⟨5, 0xFFFF, false⟩), (hostReq 1 7), ([]), ([0x81, 7, 0, 0, 1, 0, 0, 0, 0, 0, 0, 0]), (((twilAt 2).modTwil (fun x => { x with relays := [hostReq 1 7] })).modSpis (fun p => { p with pend := true })), by decide +kernel⟩

theorem witness_TwillPair_linkDown :
    ∃ (s : State), (TwClocked s) ∧ (s.on TWIL_STAT.LINK = true) ∧ (s.twil.relays = []) ∧ (s.standby = false ∨ ∀ n : Fin 32, s.counts n = false) :=
  ⟨(((twilAt 3).put TWIL_STAT.PLIVE 1).put TWIL_STAT.INSYNC 1), by decide +kernel⟩

theorem witness_TwillPair_linkDownStandby :
    ∃ (st : Nat) (s : State), (TwClocked s) ∧ (s.on TWIL_STAT.LINK = true) ∧ (s.standby = true ∧ s.twil.relays = [] ∧ s.on SEC_LEDGER.EN = false) ∧ (s.counts 3 = true ∧ s.newestStart 3 = some st ∧ (s.counter 3).resv = none ∧ st + 1024 * s.twSkip < 2 ^ 32) :=
  ⟨(0x5C00), ((twilAt 2).modSec (fun x => { x with slots := x.slots.set 3 { valid := true, use := 1 }, ctr := x.ctr.set 3 { durable := some 0x5C00 } })), by decide +kernel⟩

theorem witness_TwillPair_linkDownRelays :
    ∃ (q : DReq) (s : State), (TwClocked s) ∧ (s.on TWIL_STAT.LINK = true) ∧ (s.standby = true ∧ (∀ n : Fin 32, s.counts n = false)) ∧ (s.twil.relays = [q] ∧ q.replyTo = .host) ∧ (s.spis.pend = true) :=
  ⟨(hostReq 1 7), (((twilAt 2).modTwil (fun x => { x with relays := [hostReq 1 7] })).modSpis (fun p => { p with pend := true })), by decide +kernel⟩

theorem witness_TwillPair_linkDownNone :
    ∃ (s : State), (s.on TWIL_STAT.LINK = false) ∧ (s.twil.relays = []) :=
  ⟨((twilAt 2).put TWIL_STAT.LINK 0), by decide +kernel⟩

theorem witness_TwillPair_secondOf :
    ∃ (s : State), (TwClocked s) ∧ (s.on TWIL_STAT.LINK = false ∧ s.twil.helloOk = true) ∧ (s.pairState ≠ pairActive ∧ s.twil.partnerState = pairActive) ∧ (s.radioOn = false) :=
  ⟨(((twilAt 1).put TWIL_STAT.LINK 0).modTwil (fun x => { x with helloOk := true, partnerState := 3, partnerRole := true, partnerAddr := 0 })), by decide +kernel⟩

theorem witness_TwillPair_losesRole :
    ∃ (s : State), (TwClocked s) ∧ (s.on TWIL_STAT.LINK = false ∧ s.twil.helloOk = true) ∧ (s.pairState ≠ pairActive ∧ s.twil.partnerState ≠ pairActive) ∧ (s.radioOn = false) ∧ ((if (s.on GPIO_STRAP.ROLE == s.twil.partnerRole) then decide (s.twil.partnerAddr < s.factoryExt) else !(s.on GPIO_STRAP.ROLE)) = false) :=
  ⟨(((twilAt 1).put TWIL_STAT.LINK 0).modTwil (fun x => { x with helloOk := true, partnerState := 1, partnerRole := false, partnerAddr := 5 })), by decide +kernel⟩

theorem witness_TwillPair_takesRole :
    ∃ (s : State), (TwClocked s) ∧ (s.on TWIL_STAT.LINK = false ∧ s.twil.helloOk = true) ∧ (s.pairState ≠ pairActive ∧ s.twil.partnerState ≠ pairActive) ∧ (s.radioOn = false ∧ ∀ n : Fin 32, s.counts n = false) ∧ ((if (s.on GPIO_STRAP.ROLE == s.twil.partnerRole) then decide (s.twil.partnerAddr < s.factoryExt) else !(s.on GPIO_STRAP.ROLE)) = true) :=
  ⟨(((twilAt 1).put TWIL_STAT.LINK 0).modTwil (fun x => { x with helloOk := true, partnerState := 1, partnerRole := true, partnerAddr := 5 })), by decide +kernel⟩

theorem witness_TwillPair_staysActive :
    ∃ (s : State), (TwClocked s) ∧ (s.on TWIL_STAT.LINK = false ∧ s.twil.helloOk = true) ∧ (s.pairState = pairActive ∧ (s.twil.partnerState ≠ pairActive ∨ (if (s.on GPIO_STRAP.ROLE == s.twil.partnerRole) then decide (s.twil.partnerAddr < s.factoryExt) else !(s.on GPIO_STRAP.ROLE)) = true)) :=
  ⟨(((twilAt 3).put TWIL_STAT.LINK 0).modTwil (fun x => { x with helloOk := true, partnerState := 3, partnerRole := true, partnerAddr := 5 })), by decide +kernel⟩

theorem witness_TwillPair_stepsDown :
    ∃ (s : State), (TwClocked s) ∧ (s.on TWIL_STAT.LINK = false ∧ s.twil.helloOk = true) ∧ (s.pairState = pairActive ∧ s.twil.partnerState = pairActive) ∧ (s.radioOn = false) ∧ ((if (s.on GPIO_STRAP.ROLE == s.twil.partnerRole) then decide (s.twil.partnerAddr < s.factoryExt) else !(s.on GPIO_STRAP.ROLE)) = false) :=
  ⟨(((twilAt 3).put TWIL_STAT.LINK 0).modTwil (fun x => { x with helloOk := true, partnerState := 3, partnerRole := false, partnerAddr := 5 })), by decide +kernel⟩

theorem witness_TwillPair_linkUpNone :
    ∃ (s : State), (s.on TWIL_STAT.LINK = true ∨ s.twil.helloOk = false) ∧ (s.twil.syncDue = false) :=
  ⟨((twilAt 1).put TWIL_STAT.LINK 0), by decide +kernel⟩

theorem witness_TwillPair_retransmit :
    ∃ (s : State), (TwClocked s) ∧ (s.on TWIL_STAT.LINK = true) ∧ (s.twil.unacked ≠ []) :=
  ⟨((twilAt 3).modTwil (fun x => { x with unacked := [⟨0x10, 3, [1], 5, 5⟩] })), by decide +kernel⟩

theorem witness_TwillPair_retransmitNone :
    ∃ (s : State), (s.on TWIL_STAT.LINK = false ∨ s.twil.unacked = []) :=
  ⟨(twilAt 3), by decide +kernel⟩

theorem witness_TwillPair_ackTimeout :
    ∃ (s : State), (TwClocked s) ∧ (s.on TWIL_STAT.LINK = true) ∧ (s.pairState ≠ pairActive) :=
  ⟨((twilAt 2).put TWIL_STAT.INSYNC 1), by decide +kernel⟩

theorem witness_TwillPair_ackTimeoutActive :
    ∃ (s : State), (TwClocked s) ∧ (s.on TWIL_STAT.LINK = true) ∧ (s.pairState = pairActive) :=
  ⟨((twilAt 3).put TWIL_STAT.INSYNC 1), by decide +kernel⟩

theorem witness_TwillPair_ackTimeoutNone :
    ∃ (s : State), (s.on TWIL_STAT.LINK = false) :=
  ⟨((twilAt 3).put TWIL_STAT.LINK 0), by decide +kernel⟩

theorem witness_TwillPair_startwait :
    ∃ (s : State), (TwClocked s) ∧ (s.pairState = pairStart ∧ s.on TWIL_STAT.LINK = false) ∧ (s.on TWIL_STAT.PLIVE = false ∧ s.radioOn = false) :=
  ⟨((twilAt 1).put TWIL_STAT.LINK 0), by decide +kernel⟩

theorem witness_TwillPair_startwaitLive :
    ∃ (s : State), (TwClocked s) ∧ (s.pairState = pairStart ∧ s.on TWIL_STAT.LINK = false) ∧ (s.on TWIL_STAT.PLIVE = true ∧ s.radioOn = false) :=
  ⟨(((twilAt 1).put TWIL_STAT.LINK 0).put TWIL_STAT.PLIVE 1), by decide +kernel⟩

theorem witness_TwillPair_startwaitNone :
    ∃ (s : State), (s.pairState ≠ pairStart ∨ s.on TWIL_STAT.LINK = true) :=
  ⟨(twilAt 1), by decide +kernel⟩

theorem witness_TwillPair_takeover :
    ∃ (s : State), (TwClocked s) ∧ (s.standby = true ∧ s.on TWIL_STAT.LINK = false ∧ s.on TWIL_STAT.PLIVE = false ∧ s.radioOn = false) ∧ (s.twil.held = [] ∧ ∀ n : Fin 32, s.counts n = false) :=
  ⟨((twilAt 2).put TWIL_STAT.LINK 0), by decide +kernel⟩

theorem witness_TwillPair_takeoverCounts :
    ∃ (st : Nat) (s : State), (TwClocked s) ∧ (s.standby = true ∧ s.on TWIL_STAT.LINK = false ∧ s.on TWIL_STAT.PLIVE = false ∧ s.radioOn = false) ∧ (s.twil.held = [] ∧ s.counts 3 = true ∧ (s.counter 3).exhausted = false ∧ (∀ n : Fin 32, n ≠ 3 → s.counts n = false)) ∧ (s.newestStart 3 = some st ∧ st + 1024 < 2 ^ 32) ∧ (s.secClocked = true ∧ s.on SEC_LEDGER.EN = false ∧ (s.counter 3).next ≤ st + 1024) :=
  ⟨(0x5C00), (((twilAt 2).put TWIL_STAT.LINK 0).modSec (fun x => { x with slots := x.slots.set 3 { valid := true, use := 1 }, ctr := x.ctr.set 3 { durable := some 0x5C00 } })), by decide +kernel⟩

theorem witness_TwillPair_noTakeover :
    ∃ (s : State), (s.standby = false ∨ s.on TWIL_STAT.LINK = true ∨ s.on TWIL_STAT.PLIVE = true) :=
  ⟨(((twilAt 2).put TWIL_STAT.LINK 0).put TWIL_STAT.PLIVE 1), by decide +kernel⟩

theorem witness_TwillPair_yield :
    ∃ (s : State), (Core Reg.TWIL_CMD s) ∧ (s.pairState = pairActive ∧ s.on TWIL_STAT.LINK = true ∧ s.on TWIL_STAT.INSYNC = true) ∧ (s.twil.partnerState = pairStandby ∧ s.twil.handoverOut = none) ∧ (s.twil.unacked.length < 64) :=
  ⟨(((twilAt 3).put TWIL_STAT.INSYNC 1).modTwil (fun x => { x with partnerState := 2 })), by decide +kernel⟩

theorem witness_TwillPair_yieldNone :
    ∃ (s : State), (Core Reg.TWIL_CMD s) ∧ (s.pairState ≠ pairActive ∨ s.on TWIL_STAT.LINK = false ∨ s.on TWIL_STAT.INSYNC = false ∨ s.twil.partnerState ≠ pairStandby ∨ s.twil.handoverOut ≠ none) :=
  ⟨(twilAt 3), by decide +kernel⟩

theorem witness_TwillPair_force :
    ∃ (s : State), (Core Reg.TWIL_CMD s) ∧ (s.standby = true) :=
  ⟨(twilAt 2), by decide +kernel⟩

theorem witness_TwillPair_forceNone :
    ∃ (s : State), (Core Reg.TWIL_CMD s) ∧ (s.standby = false) :=
  ⟨(twilAt 3), by decide +kernel⟩

theorem witness_TwillPair_resync :
    ∃ (s : State), (Core Reg.TWIL_CMD s) ∧ (s.mirrors = false) :=
  ⟨((twilAt 2).put TWIL_STAT.INSYNC 1), by decide +kernel⟩

theorem witness_TwillPair_resyncActive :
    ∃ (s : State), (Core Reg.TWIL_CMD s) ∧ (s.mirrors = true) :=
  ⟨((twilAt 3).put TWIL_STAT.INSYNC 1), by decide +kernel⟩

theorem witness_TwillPair_window :
    ∃ (s : State), (s.pins.twLive = true ∧ s.clocked = true) :=
  ⟨({ (twilAt 2).put TWIL_STAT.LINK 0 with pins := { State.reset.pins with twLive := true } }), by decide +kernel⟩

theorem witness_TwillPair_windowNone :
    ∃ (s : State), (s.pins.twLive = false ∨ s.clocked = false) :=
  ⟨(State.reset), by decide +kernel⟩

theorem witness_TwillPair_pairOff :
    ∃ (c : Instr) (s : State), (s.ringOn = false ∨ s.clocked = false ∨ s.pairState = pairOff) ∧ (c ∈ [.twillLinkDown, .twillLinkUp, .twillRetransmit, .twillAckTimeout, .startwaitExpiry, .twillTakeover]) :=
  ⟨(.twillTakeover), (State.reset), by decide +kernel⟩

theorem witness_EventRecorder_event :
    ∃ (m : Master) (d : Word) (s : State), (Takes m Reg.EVR_RPT s) ∧ (EvrOpen (d.toNat / 2 ^ 24 % 16) s) ∧ (((d.toNat / 2 ^ 24 % 16) = 1 ∨ 6 ≤ (d.toNat / 2 ^ 24 % 16)) ∧ ((d.toNat / 2 ^ 16 % 16) = 0 ∨ 13 ≤ (d.toNat / 2 ^ 16 % 16)) ∧ (d.toNat / 2 ^ 8 % 8) ≤ 4) ∧ ((s.selectors (d.toNat / 2 ^ 24 % 16)).all (fun x => !(isSecOperand (0x40000000 + 4 * x))) = true) ∧ (s.on EVR_STAT.READY = true ∧ s.evr.queue = [] ∧ s.evr.staged = none ∧ s.evr.alarm = none) ∧ (s.on (EVR_CLS.NOCOAL (d.toNat / 2 ^ 24 % 16)) = false ∧ s.draining = false) :=
  ⟨(.coreData), (0x06000100), (evrAt), by decide +kernel⟩

theorem witness_EventRecorder_repeated :
    ∃ (m : Master) (d : Word) (r : Report) (s : State), (Takes m Reg.EVR_RPT s) ∧ (EvrOpen (d.toNat / 2 ^ 24 % 16) s) ∧ (((d.toNat / 2 ^ 24 % 16) = 1 ∨ 6 ≤ (d.toNat / 2 ^ 24 % 16)) ∧ ((d.toNat / 2 ^ 16 % 16) = 0 ∨ 13 ≤ (d.toNat / 2 ^ 16 % 16)) ∧ (d.toNat / 2 ^ 8 % 8) ≤ 4) ∧ ((s.selectors (d.toNat / 2 ^ 24 % 16)).all (fun x => !(isSecOperand (0x40000000 + 4 * x))) = true) ∧ (s.evr.queue = [] ∧ s.evr.staged = some r ∧ s.evr.writing = false) ∧ (s.on (EVR_CLS.NOCOAL (d.toNat / 2 ^ 24 % 16)) = false) ∧ (sameReport r { form := 0, cls := (d.toNat / 2 ^ 24 % 16), source := (d.toNat / 2 ^ 16 % 16), arg0 := (if (d.toNat / 2 ^ 8 % 8) = 0 then 0 else s.reg (Reg.EVR_RPTARG 0)), payload := [] } = true ∧ r.rep < 65535) :=
  ⟨(.coreData), (0x06000100), (snap6), (stagedAt6), by decide +kernel⟩

theorem witness_EventRecorder_repeatedInQueue :
    ∃ (m : Master) (d : Word) (l : List Report) (r : Report) (s : State), (Takes m Reg.EVR_RPT s) ∧ (EvrOpen (d.toNat / 2 ^ 24 % 16) s) ∧ (((d.toNat / 2 ^ 24 % 16) = 1 ∨ 6 ≤ (d.toNat / 2 ^ 24 % 16)) ∧ ((d.toNat / 2 ^ 16 % 16) = 0 ∨ 13 ≤ (d.toNat / 2 ^ 16 % 16)) ∧ (d.toNat / 2 ^ 8 % 8) ≤ 4) ∧ ((s.selectors (d.toNat / 2 ^ 24 % 16)).all (fun x => !(isSecOperand (0x40000000 + 4 * x))) = true) ∧ (s.evr.queue = l ++ [r]) ∧ (s.on (EVR_CLS.NOCOAL (d.toNat / 2 ^ 24 % 16)) = false) ∧ (sameReport r { form := 0, cls := (d.toNat / 2 ^ 24 % 16), source := (d.toNat / 2 ^ 16 % 16), arg0 := (if (d.toNat / 2 ^ 8 % 8) = 0 then 0 else s.reg (Reg.EVR_RPTARG 0)), payload := [] } = true ∧ r.rep < 65535) :=
  ⟨(.coreData), (0x06000100), ([]), (snap6), (stagedAt6.modEvr (fun e => { e with queue := [snap6] })), by decide +kernel⟩

theorem witness_EventRecorder_queued :
    ∃ (m : Master) (d : Word) (r : Report) (s : State), (Takes m Reg.EVR_RPT s) ∧ (EvrOpen (d.toNat / 2 ^ 24 % 16) s) ∧ (((d.toNat / 2 ^ 24 % 16) = 1 ∨ 6 ≤ (d.toNat / 2 ^ 24 % 16)) ∧ ((d.toNat / 2 ^ 16 % 16) = 0 ∨ 13 ≤ (d.toNat / 2 ^ 16 % 16)) ∧ (d.toNat / 2 ^ 8 % 8) ≤ 4) ∧ ((s.selectors (d.toNat / 2 ^ 24 % 16)).all (fun x => !(isSecOperand (0x40000000 + 4 * x))) = true) ∧ (s.evr.queue.length < 16 ∧ s.evr.staged = some r ∧ s.evr.writing = true ∧ s.evr.gap = false) ∧ ((s.on (EVR_CLS.NOCOAL (d.toNat / 2 ^ 24 % 16)) || s.evr.queue.getLast?.all (fun q => !(sameReport q { form := 0, cls := (d.toNat / 2 ^ 24 % 16), source := (d.toNat / 2 ^ 16 % 16), arg0 := (if (d.toNat / 2 ^ 8 % 8) = 0 then 0 else s.reg (Reg.EVR_RPTARG 0)), payload := [] }))) = true) :=
  ⟨(.coreData), (0x06000100), ({ snap6 with arg0 := 9 }), (stagedAt6.modEvr (fun e => { e with writing := true, staged := some { snap6 with arg0 := 9 } })), by decide +kernel⟩

theorem witness_EventRecorder_dropped :
    ∃ (m : Master) (d : Word) (r : Report) (s : State), (Takes m Reg.EVR_RPT s) ∧ (EvrOpen (d.toNat / 2 ^ 24 % 16) s) ∧ (((d.toNat / 2 ^ 24 % 16) = 1 ∨ 6 ≤ (d.toNat / 2 ^ 24 % 16)) ∧ ((d.toNat / 2 ^ 16 % 16) = 0 ∨ 13 ≤ (d.toNat / 2 ^ 16 % 16)) ∧ (d.toNat / 2 ^ 8 % 8) ≤ 4) ∧ ((s.selectors (d.toNat / 2 ^ 24 % 16)).all (fun x => !(isSecOperand (0x40000000 + 4 * x))) = true) ∧ (16 ≤ s.evr.queue.length ∧ s.evr.staged = some r) ∧ ((s.on (EVR_CLS.NOCOAL (d.toNat / 2 ^ 24 % 16)) || s.evr.queue.getLast?.all (fun q => !(sameReport q { form := 0, cls := (d.toNat / 2 ^ 24 % 16), source := (d.toNat / 2 ^ 16 % 16), arg0 := (if (d.toNat / 2 ^ 8 % 8) = 0 then 0 else s.reg (Reg.EVR_RPTARG 0)), payload := [] }))) = true) :=
  ⟨(.coreData), (0x06000100), (snap6), (stagedAt6.modEvr (fun e => { e with queue := List.replicate 16 { snap6 with arg0 := 9 } })), by decide +kernel⟩

theorem witness_EventRecorder_refused :
    ∃ (m : Master) (d : Word) (s : State), (Takes m Reg.EVR_RPT s) ∧ (s.on EVR_CFG.EN = false ∨ s.on (EVR_CLS.EN (d.toNat / 2 ^ 24 % 16)) = false ∨ ¬(((d.toNat / 2 ^ 24 % 16) = 1 ∨ 6 ≤ (d.toNat / 2 ^ 24 % 16)) ∧ ((d.toNat / 2 ^ 16 % 16) = 0 ∨ 13 ≤ (d.toNat / 2 ^ 16 % 16)) ∧ (d.toNat / 2 ^ 8 % 8) ≤ 4)) :=
  ⟨(.coreData), (0x06000100), (State.reset), by decide +kernel⟩

theorem witness_EventRecorder_variableRefused :
    ∃ (m : Master) (d : Word) (s : State), (Takes m Reg.EVR_RPT s) ∧ (inSram (s.reg Reg.EVR_VADDR).toNat (d.toNat % 256) = true) ∧ (s.on EVR_CFG.EN = false ∨ s.on (EVR_CLS.EN (d.toNat / 2 ^ 24 % 16)) = false ∨ ¬(((d.toNat / 2 ^ 24 % 16) = 1 ∨ 6 ≤ (d.toNat / 2 ^ 24 % 16)) ∧ ((d.toNat / 2 ^ 16 % 16) = 0 ∨ 13 ≤ (d.toNat / 2 ^ 16 % 16)) ∧ (d.toNat % 256) ≤ 240)) :=
  ⟨(.coreData), (0x06000008), (State.reset.setReg Reg.EVR_VADDR 0x20080000), by decide +kernel⟩

theorem witness_EventRecorder_variableOutside :
    ∃ (m : Master) (d : Word) (s : State), (Takes m Reg.EVR_RPT s) ∧ (((d.toNat / 2 ^ 24 % 16) = 1 ∨ 6 ≤ (d.toNat / 2 ^ 24 % 16)) ∧ ((d.toNat / 2 ^ 16 % 16) = 0 ∨ 13 ≤ (d.toNat / 2 ^ 16 % 16)) ∧ (d.toNat % 256) ≤ 240) ∧ (inSram (s.reg Reg.EVR_VADDR).toNat (d.toNat % 256) = false) ∧ (s.on (EVR_CLS.EN 4) = false) :=
  ⟨(.coreData), (0x06000008), ((evrAt.put (EVR_CLS.EN 4) 0).setReg Reg.EVR_VADDR 0x30000000), by decide +kernel⟩

theorem witness_EventRecorder_variable :
    ∃ (m : Master) (d : Word) (r : Report) (s : State), (Takes m Reg.EVR_RPT s) ∧ (EvrOpen (d.toNat / 2 ^ 24 % 16) s) ∧ (((d.toNat / 2 ^ 24 % 16) = 1 ∨ 6 ≤ (d.toNat / 2 ^ 24 % 16)) ∧ ((d.toNat / 2 ^ 16 % 16) = 0 ∨ 13 ≤ (d.toNat / 2 ^ 16 % 16)) ∧ (d.toNat % 256) ≤ 240) ∧ (inSram (s.reg Reg.EVR_VADDR).toNat (d.toNat % 256) = true) ∧ (s.evr.queue.length < 16 ∧ s.evr.queue.all (fun q => q.form == 0) = true) ∧ (s.evr.staged = some r ∧ r.form = 0 ∧ s.evr.writing = true) :=
  ⟨(.coreData), (0x06000008), (snap6), ((stagedAt6.modEvr (fun e => { e with writing := true })).setReg Reg.EVR_VADDR 0x20080000), by decide +kernel⟩

theorem witness_EventRecorder_variableSecond :
    ∃ (m : Master) (d : Word) (s : State), (Takes m Reg.EVR_RPT s) ∧ (EvrOpen (d.toNat / 2 ^ 24 % 16) s) ∧ (((d.toNat / 2 ^ 24 % 16) = 1 ∨ 6 ≤ (d.toNat / 2 ^ 24 % 16)) ∧ ((d.toNat / 2 ^ 16 % 16) = 0 ∨ 13 ≤ (d.toNat / 2 ^ 16 % 16)) ∧ (d.toNat % 256) ≤ 240) ∧ (inSram (s.reg Reg.EVR_VADDR).toNat (d.toNat % 256) = true) ∧ (EVR_STAT.VCOPY.of s.evrStat = 1) :=
  ⟨(.coreData), (0x06000008), ((stagedAt6.modEvr (fun e => { e with writing := true, staged := some { snap6 with form := 1 } })).setReg Reg.EVR_VADDR 0x20080000), by decide +kernel⟩

theorem witness_EventRecorder_write :
    ∃ (r : Report) (s : State), (EvrDue r s) ∧ (s.on (EVR_CLS.NOCOAL r.cls) = true ∨ r.cls = 2 ∨ s.draining = true ∨ s.evr.queue ≠ [] ∨ s.evr.alarm.isSome = true ∨ s.evr.stagedAt + 25000000 * max 1 (s.get EVR_CFG.COALT) ≤ s.now) :=
  ⟨(snap6), (dueAt.put (EVR_CLS.NOCOAL 6) 1), by decide +kernel⟩

theorem witness_EventRecorder_timeout :
    ∃ (r : Report) (s : State), (EvrDue r s) :=
  ⟨(snap6), (dueAt), by decide +kernel⟩

theorem witness_EventRecorder_flush :
    ∃ (r : Report) (s : State), (Core Reg.EVR_CMD s) ∧ (EvrDue r s) :=
  ⟨(snap6), (dueAt), by decide +kernel⟩

theorem witness_EventRecorder_writeNone :
    ∃ (c : Instr) (s : State), (s.evr.writing = true ∨ s.evr.clearWait = true ∨ s.evr.clearing ≠ 0 ∨ s.on EVR_STAT.READY = false ∨ s.evrClocked = false ∨ (s.evr.staged = none ∧ s.evr.queue = [] ∧ s.evr.alarm = none)) ∧ (c ∈ [.stagingWrite, .coalesceTimeout]) :=
  ⟨(.stagingWrite), (evrAt), by decide +kernel⟩

theorem witness_EventRecorder_flushNone :
    ∃ (s : State), (Core Reg.EVR_CMD s) ∧ (s.evr.writing = true ∨ s.evr.clearWait = true ∨ s.evr.clearing ≠ 0 ∨ s.on EVR_STAT.READY = false ∨ s.evrClocked = false ∨ (s.evr.staged = none ∧ s.evr.queue = [] ∧ s.evr.alarm = none)) :=
  ⟨(evrAt), by decide +kernel⟩

theorem witness_EventRecorder_notYet :
    ∃ (r : Report) (s : State), (s.evr.staged = some r ∧ r.form = 0) ∧ (¬(s.on (EVR_CLS.NOCOAL r.cls) = true ∨ r.cls = 2 ∨ s.draining = true ∨ s.evr.queue ≠ [] ∨ s.evr.alarm.isSome = true ∨ s.evr.stagedAt + 25000000 * max 1 (s.get EVR_CFG.COALT) ≤ s.now)) :=
  ⟨(snap6), (stagedAt6), by decide +kernel⟩

theorem witness_EventRecorder_lostOff :
    ∃ (r : Report) (s : State), (s.evr.writing = false ∧ s.evr.clearWait = false ∧ s.evr.clearing = 0 ∧ s.on EVR_STAT.READY = true ∧ s.evrClocked = true) ∧ (s.evr.staged = some r ∧ r.form = 0 ∧ s.evr.queue = [] ∧ s.evr.alarm = none) ∧ (s.anyDrop = false) ∧ (s.on EVR_STORE.EN = false) :=
  ⟨(snap6), (dueAt.put EVR_STORE.EN 0), by decide +kernel⟩

theorem witness_EventRecorder_flushOff :
    ∃ (r : Report) (s : State), (Core Reg.EVR_CMD s) ∧ (s.evr.writing = false ∧ s.evr.clearWait = false ∧ s.evr.clearing = 0 ∧ s.on EVR_STAT.READY = true ∧ s.evrClocked = true) ∧ (s.evr.staged = some r ∧ r.form = 0 ∧ s.evr.queue = [] ∧ s.evr.alarm = none) ∧ (s.anyDrop = false) ∧ (s.on EVR_STORE.EN = false) :=
  ⟨(snap6), (dueAt.put EVR_STORE.EN 0), by decide +kernel⟩

theorem witness_EventRecorder_lostFull :
    ∃ (r : Report) (s : State), (s.evr.writing = false ∧ s.evr.clearWait = false ∧ s.evr.clearing = 0 ∧ s.on EVR_STAT.READY = true ∧ s.evrClocked = true) ∧ (s.evr.staged = some r ∧ r.form = 0 ∧ s.evr.queue = [] ∧ s.evr.alarm = none) ∧ (s.on EVR_STORE.EN = true ∧ s.on EVR_CFG.STOP = true) ∧ (s.on EVR_STAT.FULL = true ∨ (s.anyDrop = false ∧ 128 * s.evrBlocks < s.evr.used + 2 ∧ s.get EVR_POS.UNIT + 2 ≤ 128)) :=
  ⟨(snap6), ((dueAt.put EVR_CFG.STOP 1).put EVR_STAT.FULL 1), by decide +kernel⟩

theorem witness_EventRecorder_gapFirst :
    ∃ (r : Report) (s : State), (s.evr.writing = false ∧ s.evr.clearWait = false ∧ s.evr.clearing = 0 ∧ s.on EVR_STAT.READY = true ∧ s.evrClocked = true) ∧ (s.evr.staged = some r) ∧ (s.evr.queue.length < 16 ∧ s.anyDrop = true) ∧ (s.on EVR_STORE.EN = true ∧ s.on EVR_CFG.STOP = false) ∧ (388 ≤ s.get EVR_STORE.FIRST ∧ s.get EVR_STORE.FIRST + s.get EVR_POS.BLK ≤ 495) ∧ (BankIdle (s.on EVR_STORE.BANK) s ∧ (s.bank (s.on EVR_STORE.BANK)).free ≠ []) ∧ (0 < s.get EVR_POS.UNIT ∧ s.get EVR_POS.UNIT + 1 ≤ 128) ∧ (s.unitErased (s.evrUnitAddr (s.get EVR_POS.BLK) (s.get EVR_POS.UNIT)) = true ∧ s.xtsUnusable (s.evrUnitAddr (s.get EVR_POS.BLK) (s.get EVR_POS.UNIT)) = false) :=
  ⟨(snap6), (dueAt.setReg (Reg.EVR_DROP 0) 5), by decide +kernel⟩

theorem witness_EventRecorder_clearWaits :
    ∃ (s : State), (Core Reg.EVR_CMD s) ∧ (s.evr.writing = true ∧ s.evr.clearing = 0) :=
  ⟨(stagedAt6.modEvr (fun e => { e with writing := true })), by decide +kernel⟩

theorem witness_EventRecorder_clearAgain :
    ∃ (s : State), (Core Reg.EVR_CMD s) ∧ (s.evr.clearing ≠ 0) :=
  ⟨(evrAt.modEvr (fun e => { e with clearing := 3 })), by decide +kernel⟩

theorem witness_EventRecorder_clear :
    ∃ (s : State), (Core Reg.EVR_CMD s) ∧ (s.evr.writing = false ∧ s.evr.clearing = 0) ∧ (388 ≤ s.get EVR_STORE.FIRST ∧ 0 < s.evrBlocks ∧ s.get EVR_STORE.FIRST + s.evrBlocks ≤ 496) ∧ (BankIdle (s.on EVR_STORE.BANK) s) ∧ ((s.bank (s.on EVR_STORE.BANK)).free ≠ []) :=
  ⟨(evrAt.put NVM_STAT.READY 1), by decide +kernel⟩

theorem witness_EventRecorder_scanEmpty :
    ∃ (s : State), (s.on NVM_STAT.READY = true ∧ s.evrClocked = true ∧ s.on EVR_STAT.READY = false) ∧ (s.evr.queue = [] ∧ s.evr.staged = none ∧ s.evr.alarm = none) ∧ (s.evrRecords = []) :=
  ⟨(((evrAt.put NVM_STAT.READY 1).put EVR_STAT.READY 0).put EVR_STORE.NBLK 0), by decide +kernel⟩

theorem witness_EventRecorder_scanOne :
    ∃ (u : Nat) (q : Nat) (n : Nat) (s : State), (s.on NVM_STAT.READY = true ∧ s.evrClocked = true ∧ s.on EVR_STAT.READY = false) ∧ (s.evr.queue = [] ∧ s.evr.staged = none ∧ s.evr.alarm = none) ∧ (s.evrRecords = [(u, q, n)]) ∧ (0 < n ∧ n ≤ 128 ∧ q < 65536 ∧ 2 ≤ s.evrBlocks ∧ u < 128 * s.evrBlocks) :=
  ⟨(5), (7), (2), (foundAt), by decide +kernel⟩

theorem witness_EventRecorder_scanNone :
    ∃ (s : State), (s.on NVM_STAT.READY = false ∨ s.evrClocked = false ∨ s.on EVR_STAT.READY = true) :=
  ⟨(evrAt), by decide +kernel⟩

theorem witness_BootRom_recovery :
    ∃ (s : State), (s.boot.due = true ∧ s.coreRuns = true ∧ s.on NVM_STAT.READY = true) ∧ (s.on GPIO_STRAP.RUN = false) :=
  ⟨(State.reset.put NVM_STAT.READY 1), by decide +kernel⟩

theorem witness_BootRom_noSlot :
    ∃ (s : State), (RomBoots s) ∧ (candidate false s = false ∧ candidate true s = false) :=
  ⟨((State.reset.put NVM_STAT.READY 1).put GPIO_STRAP.RUN 1), by decide +kernel⟩

theorem witness_BootRom_recoveryRecord :
    ∃ (s : State), (RomBoots s) ∧ (candidate false s = false ∧ candidate true s = false) ∧ (EvrOpen 1 s ∧ s.evr.queue = [] ∧ s.evr.staged = none ∧ s.evr.alarm = none ∧ s.on EVR_STAT.READY = true ∧ s.draining = false) :=
  ⟨((((State.reset.put NVM_STAT.READY 1).put GPIO_STRAP.RUN 1).put (EVR_CLS.EN 1) 1).put EVR_STAT.READY 1), by decide +kernel⟩

theorem witness_BootRom_confirmed :
    ∃ (k : Bool) (nvA : BitVec 8) (nvB : BitVec 8) (s : State), (RomBoots s) ∧ (FirstSlot k s) ∧ ((if k then nvB.toNat else nvA.toNat) = 0 ∧ slotCheck k s = 0) ∧ (s.slotTrial k = false) :=
  ⟨(false), (0), (0), (withImage false bootAt), by simp only [slot_bootAt]; decide +kernel⟩

theorem witness_BootRom_floor :
    ∃ (k : Bool) (nvA : BitVec 8) (nvB : BitVec 8) (vbatOk : Bool) (kind : Nat) (s : State), (RomBoots s) ∧ (FirstSlot k s) ∧ ((if k then nvB.toNat else nvA.toNat) = 0 ∧ slotCheck k s = 0) ∧ (s.slotTrial k = false) ∧ (1 ≤ kind ∧ kind ≤ 3 ∧ s.present k kind = true) ∧ (s.imgN (areaAddr k kind) 7 1 ≤ 64) ∧ (∀ i < s.imgN (areaAddr k kind) 7 1, s.otpWord (counterAt kind + 4 * i) = 0 → otpTest (0x08800000 + counterAt kind + 4 * i) vbatOk s = none) :=
  ⟨(false), (0), (0), (true), (1), (withImage false bootAt), by simp only [slot_bootAt]; decide +kernel⟩

theorem witness_BootRom_trial :
    ∃ (k : Bool) (nvA : BitVec 8) (nvB : BitVec 8) (s : State), (RomBoots s) ∧ (FirstSlot k s) ∧ ((if k then nvB.toNat else nvA.toNat) = 0 ∧ slotCheck k s = 0) ∧ (s.slotTrial k = true ∧ trialOver k s = false ∧ s.slotMarks k < 3) ∧ (Programs (stateUnit k (s.slotMarks k + 1)) s) :=
  ⟨(false), (0), (0), (withImage false bootTrial), by simp only [slot_bootTrial]; decide +kernel⟩

theorem witness_BootRom_startRecord :
    ∃ (k : Bool) (nvA : BitVec 8) (nvB : BitVec 8) (s : State), (RomBoots s) ∧ (FirstSlot k s) ∧ ((if k then nvB.toNat else nvA.toNat) = 0 ∧ slotCheck k s = 0) ∧ (s.slotTrial k = false ∧ s.on ID_BOOTSTAT.FELLBACK = false) ∧ (EvrOpen 0 s ∧ s.evr.queue = [] ∧ s.evr.staged = none ∧ s.evr.alarm = none ∧ s.on EVR_STAT.READY = true ∧ s.draining = false) :=
  ⟨(false), (0), (0), (withImage false bootAt), by simp only [slot_bootAt]; decide +kernel⟩

theorem witness_BootRom_reject :
    ∃ (k : Bool) (nvA : BitVec 8) (nvB : BitVec 8) (st : Nat) (s : State), (RomBoots s) ∧ (FirstSlot k s ∧ candidate (!k) s = false) ∧ (trialOver k s = false ∨ s.slotTrial k = false) ∧ ((if k then nvB.toNat else nvA.toNat) = 0 ∧ slotCheck k s = st ∧ st ≠ 0 ∧ st < 256) ∧ (Programs (stateUnit k 5) s) :=
  ⟨(false), (0), (0), (0x44), (bootAt), by decide +kernel⟩

theorem witness_BootRom_fallBack :
    ∃ (k : Bool) (nvA : BitVec 8) (nvB : BitVec 8) (st : Nat) (s : State), (RomBoots s) ∧ (FirstSlot k s ∧ candidate (!k) s = true) ∧ (s.slotTrial (!k) = false) ∧ (trialOver k s = false ∨ s.slotTrial k = false) ∧ (nvA = 0 ∧ nvB = 0 ∧ slotCheck k s = st ∧ st ≠ 0 ∧ st < 256 ∧ slotCheck (!k) s = 0) ∧ (Programs (stateUnit k 5) s) :=
  ⟨(false), (0), (0), (0x44), (fallBackAt), by simp only [slot_fallBack]; decide +kernel⟩

theorem witness_BootRom_trialOver :
    ∃ (k : Bool) (s : State), (RomBoots s) ∧ (FirstSlot k s ∧ candidate (!k) s = false) ∧ (s.slotTrial k = true ∧ trialOver k s = true) ∧ (Programs (stateUnit k 5) s) :=
  ⟨(false), ((bootTrial.put ID_BOOTSTAT.TRIALEXP 1)), by decide +kernel⟩

theorem witness_BootRom_nvmFails :
    ∃ (k : Bool) (nvA : BitVec 8) (nvB : BitVec 8) (s : State), (RomBoots s) ∧ (FirstSlot k s ∧ candidate (!k) s = false) ∧ (trialOver k s = false ∨ s.slotTrial k = false) ∧ ((if k then nvB.toNat else nvA.toNat) ≠ 0) :=
  ⟨(false), (6), (0), (bootAt), by decide +kernel⟩

theorem witness_BootRom_idle :
    ∃ (s : State), (¬(s.boot.due = true ∧ s.coreRuns = true ∧ s.on NVM_STAT.READY = true)) :=
  ⟨(romAt), by decide +kernel⟩

theorem witness_BootRom_verify :
    ∃ (k : Bool) (kind : Nat) (s : State), (RomReady s) ∧ (1 ≤ kind ∧ kind ≤ 3) ∧ ((s.core.cpu.get 1).toNat = areaAddr k kind) :=
  ⟨(false), (1), (withImage false (romAt.modCpu (fun c => { c with g := c.g.set 1 (BitVec.ofNat 32 (areaAddr false 1)) }))), by decide +kernel⟩

theorem witness_BootRom_verifyMagic :
    ∃ (s : State), (RomReady s) ∧ (s.imgN (s.core.cpu.get 1).toNat 0 4 ≠ 0x474D494C) :=
  ⟨(romAt), by decide +kernel⟩

theorem witness_BootRom_begin :
    ∃ (s : State), (RomReady s) ∧ (s.slotTrial s.runSlot = false) ∧ (eraseTest (stateUnit (!s.runSlot) 0) s = none) :=
  ⟨(romAt), by decide +kernel⟩

theorem witness_BootRom_beginFails :
    ∃ (nv : BitVec 8) (s : State), (RomReady s) ∧ (s.slotTrial s.runSlot = false) ∧ (nv ≠ 0 ∨ eraseTest (stateUnit (!s.runSlot) 0) s ≠ none) :=
  ⟨(9), (romAt), by decide +kernel⟩

theorem witness_BootRom_beginTrial :
    ∃ (s : State), (RomReady s) ∧ (s.slotTrial s.runSlot = true) :=
  ⟨(trialAt), by decide +kernel⟩

theorem witness_BootRom_finish :
    ∃ (s : State), (RomReady s) ∧ (slotCheck (!s.runSlot) s = 0) ∧ (Programs (stateUnit (!s.runSlot) 0) s) ∧ (s.slotSeq s.runSlot < 2 ^ 32 - 1) :=
  ⟨(withImage true (withSlot romAt)), by simp only [slot_finish]; decide +kernel⟩

theorem witness_BootRom_finishRefused :
    ∃ (st : Nat) (s : State), (RomReady s) ∧ (slotCheck (!s.runSlot) s = st ∧ st ≠ 0) :=
  ⟨(0x44), (romAt), by decide +kernel⟩

theorem witness_BootRom_finishNone :
    ∃ (s : State), (RomReady s) ∧ (∀ k ∈ imageKinds, s.present (!s.runSlot) k = false) :=
  ⟨(romAt), by decide +kernel⟩

theorem witness_BootRom_finishFails :
    ∃ (nv : BitVec 8) (s : State), (RomReady s) ∧ (slotCheck (!s.runSlot) s = 0) ∧ (nv ≠ 0 ∨ progTest (stateUnit (!s.runSlot) 0) 1 none s ≠ none) :=
  ⟨(6), (withImage true (withSlot romAt)), by simp only [slot_finish]; decide +kernel⟩

theorem witness_BootRom_confirm :
    ∃ (s : State), (RomReady s) ∧ (s.slotTrial s.runSlot = true) ∧ (Programs (stateUnit s.runSlot 4) s) :=
  ⟨(trialAt), by decide +kernel⟩

theorem witness_BootRom_confirmFails :
    ∃ (nv : BitVec 8) (s : State), (RomReady s) ∧ (s.slotTrial s.runSlot = true) ∧ (nv ≠ 0 ∨ progTest (stateUnit s.runSlot 4) 1 none s ≠ none) :=
  ⟨(6), (trialAt), by decide +kernel⟩

theorem witness_BootRom_confirmNone :
    ∃ (s : State), (RomReady s) ∧ (s.slotTrial s.runSlot = false) :=
  ⟨(romAt), by decide +kernel⟩

theorem witness_BootRom_version :
    ∃ (s : State), (RomReady s) :=
  ⟨(romAt), by decide +kernel⟩

theorem witness_BootRom_notCalled :
    ∃ (c : Instr) (nv : BitVec 8) (s : State), (s.coreRuns = false ∨ s.boot.due = true ∨ s.boot.recovery = true ∨ s.core.status.getLsbD 8 = true) ∧ (c ∈ [.romVerify, .romBegin nv, .romFinish nv, .romConfirm nv, .romVersion]) :=
  ⟨(.romVersion), (0), (State.reset), by decide +kernel⟩

theorem witness_BootRom_expiry :
    ∃ (s : State), (s.on ID_TRIAL.RUN = true) ∧ (s.power.st ≠ .off ∧ s.power.por = false) :=
  ⟨(State.reset.put ID_TRIAL.RUN 1), by decide +kernel⟩

theorem witness_BootRom_expiryNone :
    ∃ (s : State), (s.on ID_TRIAL.RUN = false ∨ s.power.st = .off) :=
  ⟨(State.reset), by decide +kernel⟩

theorem witness_BootRom_stop :
    ∃ (s : State), (Core Reg.ID_TRIAL s) :=
  ⟨(State.reset.put ID_TRIAL.RUN 1), by decide +kernel⟩

theorem witness_BootRom_upd :
    ∃ (m : Master) (s : State), (Takes m Reg.ID_UPD s) :=
  ⟨(.coreData), (State.reset), by decide +kernel⟩

theorem witness_Recovery_info :
    ∃ (p : RecPort) (s : State), (RecOpen p s) :=
  ⟨(.host 3), (recAt), by decide +kernel⟩

theorem witness_Recovery_erase :
    ∃ (p : RecPort) (kind : BitVec 8) (s : State), (RecOwned p s) ∧ (1 ≤ kind.toNat ∧ kind.toNat ≤ 3) ∧ (∀ i < (areaBlocks kind.toNat).2, eraseTest (areaAddr s.target kind.toNat + 4096 * i) s = none) :=
  ⟨(.host 3), (3), ((modBoot recAt (fun b => { b with owner := some false })).wb 0x0817D040 1), by decide +kernel⟩

theorem witness_Recovery_eraseFirst :
    ∃ (p : RecPort) (kind : BitVec 8) (s : State), (RecOpen p s) ∧ (s.boot.owner = none) ∧ (1 ≤ kind.toNat ∧ kind.toNat ≤ 3) ∧ (eraseTest (stateUnit s.target 0) s = none ∧ ∀ i < (areaBlocks kind.toNat).2, eraseTest (areaAddr s.target kind.toNat + 4096 * i) s = none) :=
  ⟨(.ring ⟨7, 2, 0, 3, .good⟩ 3), (3), (recRingAt.wb 0x0817D040 1), by decide +kernel⟩

theorem witness_Recovery_eraseKind :
    ∃ (p : RecPort) (kind : BitVec 8) (s : State), (RecOpen p s) ∧ (kind = 0 ∨ 3 < kind.toNat) :=
  ⟨(.host 3), (4), (recAt), by decide +kernel⟩

theorem witness_Recovery_eraseFails :
    ∃ (p : RecPort) (kind : BitVec 8) (nv : BitVec 8) (s : State), (RecOwned p s) ∧ (1 ≤ kind.toNat ∧ kind.toNat ≤ 3) ∧ (nv ≠ 0) :=
  ⟨(.host 3), (3), (9), ((modBoot recAt (fun b => { b with owner := some false }))), by decide +kernel⟩

theorem witness_Recovery_write :
    ∃ (p : RecPort) (kind : BitVec 8) (off : Word) (d : List (BitVec 8)) (s : State), (RecOwned p s) ∧ (1 ≤ kind.toNat ∧ kind.toNat ≤ 3 ∧ off.toNat % 32 = 0 ∧ d.length % 32 = 0 ∧ 32 ≤ d.length ∧ d.length ≤ 2016 ∧ off.toNat + d.length ≤ areaSize kind.toNat) ∧ (∀ i < d.length / 32, Programs (areaAddr s.target kind.toNat + off.toNat + 32 * i) s) :=
  ⟨(.host 3), (3), (64), (List.replicate 64 5), ((modBoot recAt (fun b => { b with owner := some false }))), by decide +kernel⟩

theorem witness_Recovery_writeFirst :
    ∃ (p : RecPort) (kind : BitVec 8) (off : Word) (d : List (BitVec 8)) (s : State), (RecOpen p s) ∧ (s.boot.owner = none) ∧ (1 ≤ kind.toNat ∧ kind.toNat ≤ 3 ∧ off.toNat % 32 = 0 ∧ d.length % 32 = 0 ∧ 32 ≤ d.length ∧ d.length ≤ 2016 ∧ off.toNat + d.length ≤ areaSize kind.toNat) ∧ (∀ i < d.length / 32, Programs (areaAddr s.target kind.toNat + off.toNat + 32 * i) s) ∧ (eraseTest (stateUnit s.target 0) s = none) :=
  ⟨(.ring ⟨7, 2, 0, 3, .good⟩ 3), (3), (64), (List.replicate 64 5), (recRingAt.wb (stateUnit false 5) 1), by decide +kernel⟩

theorem witness_Recovery_writeAgain :
    ∃ (p : RecPort) (kind : BitVec 8) (off : Word) (d : List (BitVec 8)) (s : State), (RecOwned p s) ∧ (1 ≤ kind.toNat ∧ kind.toNat ≤ 3 ∧ off.toNat % 32 = 0 ∧ d.length % 32 = 0 ∧ 32 ≤ d.length ∧ d.length ≤ 2016 ∧ off.toNat + d.length ≤ areaSize kind.toNat) ∧ (progTest (areaAddr s.target kind.toNat + off.toNat) 1 none s = some nvOverwrite) :=
  ⟨(.host 3), (3), (64), (List.replicate 64 5), ((modBoot recAt (fun b => { b with owner := some false })).wb 0x0817D040 1), by decide +kernel⟩

theorem witness_Recovery_writeFails :
    ∃ (p : RecPort) (kind : BitVec 8) (off : Word) (d : List (BitVec 8)) (nv : BitVec 8) (s : State), (RecOwned p s) ∧ (1 ≤ kind.toNat ∧ kind.toNat ≤ 3 ∧ off.toNat % 32 = 0 ∧ d.length % 32 = 0 ∧ 32 ≤ d.length ∧ d.length ≤ 2016 ∧ off.toNat + d.length ≤ areaSize kind.toNat) ∧ (nv ≠ 0) :=
  ⟨(.host 3), (3), (64), (List.replicate 64 5), (6), ((modBoot recAt (fun b => { b with owner := some false }))), by decide +kernel⟩

theorem witness_Recovery_writeRange :
    ∃ (p : RecPort) (kind : BitVec 8) (off : Word) (d : List (BitVec 8)) (s : State), (RecOpen p s) ∧ (¬(1 ≤ kind.toNat ∧ kind.toNat ≤ 3 ∧ off.toNat % 32 = 0 ∧ d.length % 32 = 0 ∧ 32 ≤ d.length ∧ d.length ≤ 2016 ∧ off.toNat + d.length ≤ areaSize kind.toNat)) ∧ (d.length ≤ 2040) :=
  ⟨(.ring ⟨7, 2, 0, 3, .good⟩ 3), (3), (8), (List.replicate 64 5), (recRingAt), by decide +kernel⟩

theorem witness_Recovery_finish :
    ∃ (p : RecPort) (s : State), (RecOpen p s) ∧ (slotCheck s.target s = 0) ∧ (Programs (stateUnit s.target 0) s) ∧ (s.slotSeq (!s.target) < 2 ^ 32 - 1) :=
  ⟨(.ring ⟨7, 2, 0, 3, .good⟩ 3), (withImage false recRingAt), by simp only [slot_rec]; decide +kernel⟩

theorem witness_Recovery_finishRefused :
    ∃ (p : RecPort) (st : Nat) (s : State), (RecOpen p s) ∧ (slotCheck s.target s = st ∧ st ≠ 0) :=
  ⟨(.host 3), (0x44), (recAt), by decide +kernel⟩

theorem witness_Recovery_finishNone :
    ∃ (p : RecPort) (s : State), (RecOpen p s) ∧ (∀ k ∈ imageKinds, s.present s.target k = false) :=
  ⟨(.host 3), (recAt), by decide +kernel⟩

theorem witness_Recovery_finishFails :
    ∃ (p : RecPort) (nv : BitVec 8) (s : State), (RecOpen p s) ∧ (slotCheck s.target s = 0) ∧ (nv ≠ 0) :=
  ⟨(.ring ⟨7, 2, 0, 3, .good⟩ 3), (6), (withImage false recRingAt), by simp only [slot_rec]; decide +kernel⟩

theorem witness_Recovery_finishRecord :
    ∃ (p : RecPort) (s : State), (RecOpen p s) ∧ (slotCheck s.target s ≠ 0) ∧ (EvrOpen 1 s ∧ s.evr.queue = [] ∧ s.evr.staged = none ∧ s.evr.alarm = none ∧ s.on EVR_STAT.READY = true ∧ s.draining = false) :=
  ⟨(.host 3), ((recAt.put (EVR_CLS.EN 1) 1).put EVR_STAT.READY 1), by decide +kernel⟩

theorem witness_Recovery_otp :
    ∃ (p : RecPort) (off : BitVec 16) (vbatOk : Bool) (s : State), (RecOpen p s) ∧ (((0x3000 ≤ off.toNat ∧ off.toNat < 0x3C00) ∨ off.toNat = 0x3F08)) ∧ (otpTest (0x08800000 + off.toNat) vbatOk s = none) :=
  ⟨(.host 3), (0x3000), (true), (recAt), by decide +kernel⟩

theorem witness_Recovery_otpRefused :
    ∃ (p : RecPort) (off : BitVec 16) (vbatOk : Bool) (st : Nat) (s : State), (RecOpen p s) ∧ (((0x3000 ≤ off.toNat ∧ off.toNat < 0x3C00) ∨ off.toNat = 0x3F08)) ∧ (off.toNat % 4 = 0) ∧ (otpTest (0x08800000 + off.toNat) vbatOk s = some st) :=
  ⟨(.ring ⟨7, 2, 0, 3, .good⟩ 3), (0x3000), (false), (8), (recRingAt), by decide +kernel⟩

theorem witness_Recovery_otpAlign :
    ∃ (p : RecPort) (off : BitVec 16) (s : State), (RecOpen p s) ∧ (((0x3000 ≤ off.toNat ∧ off.toNat < 0x3C00) ∨ off.toNat = 0x3F08)) ∧ (off.toNat % 4 ≠ 0) :=
  ⟨(.host 3), (0x3001), (recAt), by decide +kernel⟩

theorem witness_Recovery_otpLow :
    ∃ (p : RecPort) (off : BitVec 16) (s : State), (RecOpen p s) ∧ (((0x3000 ≤ off.toNat ∧ off.toNat < 0x3C00) ∨ off.toNat = 0x3F08)) ∧ (off.toNat % 4 = 0) ∧ (otpTest (0x08800000 + off.toNat) true s = none) :=
  ⟨(.host 3), (0x3004), (recAt), by decide +kernel⟩

theorem witness_Recovery_otpRange :
    ∃ (p : RecPort) (off : BitVec 16) (s : State), (RecOpen p s) ∧ (¬((0x3000 ≤ off.toNat ∧ off.toNat < 0x3C00) ∨ off.toNat = 0x3F08)) :=
  ⟨(.host 3), (0x2000), (recAt), by decide +kernel⟩

theorem witness_Recovery_boot :
    ∃ (p : RecPort) (s : State), (RecOpen p s) ∧ (s.power.st ≠ .off ∧ s.power.por = false) :=
  ⟨(.host 3), (recAt), by decide +kernel⟩

theorem witness_Recovery_other :
    ∃ (p : RecPort) (c : Instr) (kind : BitVec 8) (nv : BitVec 8) (off : Word) (o2 : BitVec 16) (v : Word) (d : List (BitVec 8)) (vbatOk : Bool) (s : State), (portTakes p s = true ∧ s.boot.recovery = true ∧ s.boot.owner = some (!(portId p))) ∧ (d.length ≤ 2040) ∧ (c ∈ [.rinfo p, .rerase p kind nv, .rwrite p kind off d nv, .rfinish p nv, .rotp p o2 v vbatOk, .rboot p]) :=
  ⟨(.host 3), (.rboot (.host 3)), (3), (0), (0), (0), (0), ([]), (true), (modBoot recAt (fun b => { b with owner := some true })), by decide +kernel⟩

theorem witness_Recovery_notRecovery :
    ∃ (tag : BitVec 4) (c : Instr) (kind : BitVec 8) (nv : BitVec 8) (off : Word) (o2 : BitVec 16) (v : Word) (d : List (BitVec 8)) (vbatOk : Bool) (s : State), (HostReady s) ∧ (s.boot.recovery = false) ∧ (d.length ≤ 2040) ∧ (c ∈ [.rinfo (.host tag), .rerase (.host tag) kind nv, .rwrite (.host tag) kind off d nv, .rfinish (.host tag) nv, .rotp (.host tag) o2 v vbatOk, .rboot (.host tag)]) :=
  ⟨(3), (.rinfo (.host 3)), (3), (0), (0), (0), (0), ([]), (true), (hostAt), by decide +kernel⟩

end Sys2Proof.Tests
end

/-! # What a GO captures and what a shadow write leaves alone (R26) -/

namespace Sys2Proof.Machine
open Sys2Proof.Safety

/-! ## Pending sets under updates of the state -/

theorem State.pend_congr {s t : State} (h : t.tick = s.tick) (b : Blk) : t.pend b = s.pend b := by
  cases b <;> simp only [State.pend, h]

@[simp] theorem State.pend_put (s : State) (f : Field) (v : Nat) (b : Blk) : (s.put f v).pend b = s.pend b :=
  State.pend_congr (State.put_tick s f v) b

@[simp] theorem State.pend_setPend_same (s : State) (b : Blk) (p : Option PendingSet) : (s.setPend b p).pend b = p := by
  cases b <;> rfl

/-! ## A GO -/

/-- Every field of a block's BLK_COMMIT lies in the one register at 0xFF0. -/
theorem cf_reg (b : Blk) (f : Field) : (cf b f).reg = blkBase b + 0xFF0 := rfl

/-- A one-bit field of BLK_COMMIT that has been set reads as set. -/
theorem on_put_cf (s : State) (b : Blk) (f : Field) (hf : f.fits) (hw : f.w = 1) : (s.put (cf b f) 1).on (cf b f) = true :=
  State.on_put_one s (cf b f) hf hw

/-- A write of a field of BLK_COMMIT changes no other register. -/
theorem regsBut_put_cf {b : Blk} {f : Field} {v : Nat} {s t : State} (h : t.regs = s.regs) :
    RegsBut [blkBase b + 0xFF0] s (t.put (cf b f) v) := fun a ha => by
  have hne : a ≠ (cf b f).reg := by simpa [cf_reg] using ha
  rw [State.reg_put_other t v hne, State.reg_congr h]

theorem commitGo_captures {b : Blk} {s : State} (hp : s.pend b = none) (hg : inGroup b s = false) :
    commitGo b s = (s.setPend b (some ⟨s.shadow b, s.now, false⟩)).put (cf b LOOM_COMMIT.PEND) 1 := by
  have hd : ((s.pend b).isSome || inGroup b s) = false := by rw [hp, hg]; rfl
  exact if_neg (Bool.eq_false_iff.mp hd)

theorem commitGo_overruns {b : Blk} {s : State} (hp : (s.pend b).isSome = true) :
    commitGo b s = s.put (cf b LOOM_COMMIT.OVR) 1 := by
  have hd : ((s.pend b).isSome || inGroup b s) = true := by rw [hp]; rfl
  exact if_pos hd

/-- Where the bus takes the GO, the command is the block's capture. -/
theorem exec_commitGo_taken {b : Blk} {s : State} (h : Core (blkBase b + 0xFF0) s) :
    exec (.commitGo b) s = .next (commitGo b s) :=
  congrArg Host.Outcome.next (viaBus_taken (commitGo b) h)

/-! ## What a register write does, by its address -/

theorem timerAt_eq_none {r : Nat → Nat} {a : Nat} (h : ∀ n < 8, r n ≠ a) : timerAt r a = none := by
  simp only [timerAt, List.find?_eq_none, beq_iff_eq]
  exact fun n _ => h n.val n.isLt

/-- Outside the block TMR no timer register stands at the address. -/
theorem timerAt_outside {r : Nat → Nat} {a : Nat}
    (hr : r ∈ [Reg.TMR_RELOAD, Reg.TMR_CMP0, Reg.TMR_CMP1, Reg.TMR_CTRL, Reg.TMR_CMD]) (ha : blockOf a ≠ 6) :
    timerAt r a = none := by
  refine timerAt_eq_none fun n hn h => ha ?_
  simp only [List.mem_cons, List.not_mem_nil, or_false] at hr
  rcases hr with rfl | rfl | rfl | rfl | rfl <;>
    simp only [blockOf, ← h, Reg.TMR_RELOAD, Reg.TMR_CMP0, Reg.TMR_CMP1, Reg.TMR_CTRL, Reg.TMR_CMD] <;> omega

/-- Outside TMR the address alone says whether a write goes to the write-hold. -/
theorem isHeldHi_outside {a : Nat} (ha : blockOf a ≠ 6) (s : State) : s.isHeldHi a = State.reset.isHeldHi a := by
  simp [State.isHeldHi, timerAt_outside _ ha]

/-- R47: a write of a wide _LO register takes both halves and empties the write-hold. -/
theorem wideWrite_both {m : Master} {a : Nat} {s : State} (d : Word) (hp : a ≠ Reg.TWIL_PAIRADDR_LO)
    (hh : s.isHeldHi (a + 4) = true) (hw : (wideHi a).isSome = true) :
    ∃ hi, wideWrite m a d s = some (((s.setReg a d).setReg (a + 4) hi).setWriteHold m a 0) := by
  refine ⟨BitVec.ofNat 32 ((d.toNat + 2 ^ 32 * (s.writeHold m a).toNat) / 2 ^ 32), ?_⟩
  simp [wideWrite, hp, hh, hw]

/-- A register outside TMR that is no wide one takes a write alone. -/
theorem wideWrite_none {m : Master} {a : Nat} {s : State} (d : Word) (ha : blockOf a ≠ 6) (hw : wideHi a = none) :
    wideWrite m a d s = none := by
  have hp : a ≠ Reg.TWIL_PAIRADDR_LO := by rintro rfl; exact absurd hw (by decide)
  simp [wideWrite, hp, hw, timerAt_outside _ ha]

/-- The registers of the RADIO blocks, by address, whose write does more than store (WEFT and the transmit chain's held
registers apart). -/
def radioActing : List Nat :=
  [Reg.RFRX_SPAN, Reg.RFRX_GAIN, Reg.RFRX_CALREQ, Reg.RFRX_RSSIOFS, Reg.RFRX_CALCFG, Reg.RFTX_CALREQ, Reg.SHTL_CTRL,
    Reg.SHTL_POST, Reg.MAC_TXQPTR, Reg.MAC_PARENT]

theorem radioWrite_plain {a : Nat} (hs : a ∉ radioActing) (ht : txHeldReg a = false) (hb : blockOf a ≠ 20) (m : Master)
    (d : Word) (s : State) : radioWrite m a d s = s.plainWrite a d := by
  simp only [radioActing, List.mem_cons, List.not_mem_nil, or_false, not_or] at hs
  simp [radioWrite, hs, ht, hb]

/-- The registers of TIME whose write does more than store, the capture units' apart. -/
def timeActing : List Nat := [Reg.TIME_CMD, Reg.TIME_SRVCFG, Reg.TIME_SRVLIM]

theorem timeWrite_plain {a : Nat} (hb : blockOf a = 4) (hs : a ∉ timeActing)
    (hc : inArray (Reg.TIME_CAPCFG 0) 8 0x20 a = false) (d : Word) (s : State) : timeWrite a d s = s.plainWrite a d := by
  simp only [timeActing, List.mem_cons, List.not_mem_nil, or_false, not_or] at hs
  have hn : ∀ c, blockOf c ≠ 4 → a ≠ c := fun c h e => h (e ▸ hb)
  have ha : blockOf a ≠ 6 := by omega
  have hrtc : a ≠ Reg.RTC_SEC ∧ a ≠ Reg.RTC_CALD ∧ a ≠ Reg.RTC_CALT ∧ a ≠ Reg.RTC_CMD ∧ a ≠ Reg.RTC_ALMSEC ∧
      a ≠ Reg.RTC_ALMCTL ∧ a ≠ Reg.RTC_PER ∧ a ≠ Reg.RTC_TRIM ∧ a ≠ Reg.RTC_CHG := by
    refine ⟨?_, ?_, ?_, ?_, ?_, ?_, ?_, ?_, ?_⟩ <;> exact hn _ (by decide)
  have hmsu : a ≠ Reg.MSU_CFG ∧ a ≠ Reg.MSU_THR := ⟨hn _ (by decide), hn _ (by decide)⟩
  simp [timeWrite, hs, hc, hrtc, hmsu, timerAt_outside _ ha]

theorem portWrite_ringPlan (m : Master) (d : Word) (s : State) :
    portWrite m Reg.RING_PLAN d s = s.plainWrite Reg.RING_PLAN d := rfl

/-! ## The shadow registers of the five blocks -/

/-- The addresses of a block's shadow registers. -/
abbrev shadowAddrs (b : Blk) : List Nat := (shadowPairs b).map Prod.fst

/-- A shadow register is a register of its own block and not the block's BLK_COMMIT. -/
theorem shadow_block (b : Blk) : ∀ a ∈ shadowAddrs b,
    regionOf a = .regs ∧ blockOf a = blockOf (blkBase b) ∧ commitAt a = none := by
  cases b <;> decide +kernel

/-- The live registers are none of the shadow's. -/
theorem live_not_shadow (b : Blk) : ∀ e ∈ shadowPairs b, e.2 ∉ shadowAddrs b := by
  cases b <;> decide +kernel

/-- The wide shadow registers stand whole in the shadow. -/
theorem shadow_wide (b : Blk) : ∀ a ∈ shadowAddrs b, (wideHi a).isSome = true →
    a ≠ Reg.TWIL_PAIRADDR_LO ∧ State.reset.isHeldHi (a + 4) = true ∧ a + 4 ∈ shadowAddrs b := by
  cases b <;> decide +kernel

/-- No shadow register of a RADIO block is one whose write acts. -/
theorem shadow_radio {b : Blk} (hb : b ∈ [Blk.loom, .shtl, .mac]) : ∀ a ∈ shadowAddrs b,
    a ∉ radioActing ∧ txHeldReg a = false ∧ blockOf a ∈ [18, 19, 21] := by
  revert b; decide +kernel

/-- No shadow register of TIME is one whose write acts. -/
theorem shadow_time : ∀ a ∈ shadowAddrs .time, a ∉ timeActing ∧ inArray (Reg.TIME_CAPCFG 0) 8 0x20 a = false := by
  decide +kernel

/-- The dictionary's enable is in no block's shadow. -/
theorem dictCtrl_not_shadow (b : Blk) : Reg.DICT_CTRL ∉ shadowAddrs b := by
  cases b <;> decide +kernel

/-! ## A write of a shadow register -/

section ShadowWrite
variable {b : Blk} {a : Nat} (ha : a ∈ shadowAddrs b)
include ha

theorem shadow_outside_timers : blockOf a ≠ 6 := by
  rw [(shadow_block b a ha).2.1]
  cases b <;> decide

/-- A shadow register of a RADIO block stores what is written. -/
theorem regWrite_shadow_radio (hb : b ∈ [Blk.loom, .shtl, .mac]) {m : Master} {d : Word} {s : State}
    (hh : s.isHeldHi a = false) (hw : wideWrite m a d s = none) : regWrite m a d s = s.plainWrite a d := by
  obtain ⟨-, -, hc⟩ := shadow_block b a ha
  obtain ⟨hs, ht, hk⟩ := shadow_radio hb a ha
  have hk : blockOf a = 18 ∨ blockOf a = 19 ∨ blockOf a = 21 := by simpa using hk
  have hsys : ¬(blockOf a ≤ 3 ∨ blockOf a = 11 ∨ blockOf a = 15) := by omega
  have hradio : 16 ≤ blockOf a ∧ blockOf a ≤ 22 := by omega
  simp only [regWrite, hh, hw, hc, if_neg hsys, if_pos hradio, Bool.false_eq_true, if_false]
  exact radioWrite_plain hs ht (by omega) m d s

/-- So does a shadow register of any block, where it is no half of a wide one. -/
theorem regWrite_shadow_plain {m : Master} {d : Word} {s : State} (hh : s.isHeldHi a = false)
    (hw : wideWrite m a d s = none) : regWrite m a d s = s.plainWrite a d := by
  obtain ⟨-, hk, hc⟩ := shadow_block b a ha
  cases b with
  | loom | shtl | mac => exact regWrite_shadow_radio ha (by decide) hh hw
  | time =>
    have hk : blockOf a = 4 := hk
    obtain ⟨hs, hcap⟩ := shadow_time a ha
    simp [regWrite, hh, hw, hc, hk, timeWrite_plain hk hs hcap]
  | ring =>
    have hk : blockOf a = 23 := hk
    have hport : portWrite m a d s = s.plainWrite a d := by
      rw [show a = Reg.RING_PLAN from List.mem_singleton.mp ha, portWrite_ringPlan]
    simp [regWrite, hh, hw, hc, hk, hport]

/-- R47: how a write of a shadow register comes into force: a _HI half waits in the write-hold, a _LO half takes the pair
with it, every other register takes its writable bits. -/
theorem regWrite_shadow_cases (m : Master) (d : Word) (s : State) :
    regWrite m a d s = s.setWriteHold m a d ∨
    (a + 4 ∈ shadowAddrs b ∧ ∃ hi, regWrite m a d s = ((s.setReg a d).setReg (a + 4) hi).setWriteHold m a 0) ∨
    regWrite m a d s = s.plainWrite a d := by
  have h6 := shadow_outside_timers ha
  cases hh : s.isHeldHi a with
  | true => exact .inl (by simp [regWrite, hh])
  | false =>
    refine .inr ?_
    cases hw : wideHi a with
    | some r =>
      have hsome : (wideHi a).isSome = true := by rw [hw]; rfl
      obtain ⟨hp, hhi, hmem⟩ := shadow_wide b a ha hsome
      rw [← isHeldHi_outside (shadow_outside_timers hmem) s] at hhi
      obtain ⟨hi, hwide⟩ := wideWrite_both (m := m) d hp hhi hsome
      exact .inl ⟨hmem, hi, by simp [regWrite, hh, hwide]⟩
    | none => exact .inr (regWrite_shadow_plain ha hh (wideWrite_none d h6 hw))

end ShadowWrite

/-- The commits, the dictionary and the pair are as they were, and so is every register outside the block's shadow: what a
write of a shadow register leaves alone (R12, R26). -/
structure OnlyShadow (b : Blk) (s t : State) : Prop where
  tick : t.tick = s.tick
  dict : t.dict = s.dict
  twil : t.twil = s.twil
  regs : RegsBut (shadowAddrs b) s t

theorem OnlyShadow.setReg {b : Blk} {a : Nat} {s t : State} (h : OnlyShadow b s t) (ha : a ∈ shadowAddrs b) (v : Word) :
    OnlyShadow b s (t.setReg a v) where
  tick := h.tick
  dict := h.dict
  twil := h.twil
  regs r hr := by
    have hne : r ≠ a := fun e => hr (e ▸ ha)
    rw [State.reg_setReg_other t v hne, h.regs r hr]

theorem OnlyShadow.refl (b : Blk) (s : State) : OnlyShadow b s s := ⟨rfl, rfl, rfl, fun _ _ => rfl⟩

theorem OnlyShadow.setWriteHold {b : Blk} {s t : State} (h : OnlyShadow b s t) (m : Master) (a : Nat) (hi : Word) :
    OnlyShadow b s (t.setWriteHold m a hi) := ⟨h.tick, h.dict, h.twil, h.regs⟩

theorem OnlyShadow.plainWrite {b : Blk} {a : Nat} {s t : State} (h : OnlyShadow b s t) (ha : a ∈ shadowAddrs b) (d : Word) :
    OnlyShadow b s (t.plainWrite a d) := by
  unfold State.plainWrite
  cases regRow a with
  | some row => exact h.setReg ha _
  | none => exact h

/-- A write of a shadow register changes registers of the shadow alone. -/
theorem regWrite_onlyShadow {b : Blk} {a : Nat} (ha : a ∈ shadowAddrs b) (m : Master) (d : Word) (s : State) :
    OnlyShadow b s (regWrite m a d s) := by
  have h := OnlyShadow.refl b s
  rcases regWrite_shadow_cases ha m d s with hw | ⟨hmem, hi, hw⟩ | hw <;> rw [hw]
  · exact h.setWriteHold m a d
  · exact ((h.setReg ha d).setReg hmem hi).setWriteHold m a 0
  · exact h.plainWrite ha d

/-- The live registers stand beside the shadow. -/
theorem OnlyShadow.live {b : Blk} {s t : State} (h : OnlyShadow b s t) :
    (shadowPairs b).all (fun e => t.reg e.2 == s.reg e.2) = true := by
  simp only [List.all_eq_true, beq_iff_eq]
  exact fun e he => h.regs e.2 (live_not_shadow b e he)

theorem OnlyShadow.dictRest {b : Blk} {s t : State} (h : OnlyShadow b s t) (hs : DictRest s) : DictRest t := by
  have hen : t.on DICT_CTRL.EN = s.on DICT_CTRL.EN := by
    unfold State.on State.get
    rw [h.regs _ (dictCtrl_not_shadow b)]
  unfold DictRest
  rw [hen, h.dict, h.twil]
  exact hs

/-! ## What a register write sets going -/

/-- With the dictionary engine off and nothing waiting, a poll finds nothing to do. -/
theorem dictPoll_rest {s : State} (h : DictRest s) : dictPoll s = s := by
  obtain ⟨hen, hreads, hqueue, -⟩ := h
  have hclear : s.modDict (fun d => { d with reads := [], queue := [] }) = s := by
    unfold State.modDict
    rw [← hreads, ← hqueue]
  unfold dictPoll
  simp [hen, hreads, hqueue, hclear]

theorem afterWrite_rest {s : State} (h : DictRest s) : afterWrite s = s := by
  rw [afterWrite, dictPoll_rest h]
  obtain ⟨-, -, -, -, -, hsync⟩ := h
  simp [twilWork, hsync]

/-- A register write that the bus takes comes into force, and then what it has set going. -/
theorem exec_registerWrite_taken {m : Master} {addr : Word} (data : Word) {s : State} (h : Takes m addr.toNat s)
    (hr : regionOf addr.toNat = .regs) :
    exec (.registerWrite m addr data) s = .next (afterWrite (regWrite m addr.toNat data s)) := by
  obtain ⟨hc, hb⟩ := h
  have hw : busWrite m addr.toNat .b32 data.toNat s = (regWrite m addr.toNat data s, .done 0) := by
    simp [busWrite, hb, hr]
  have hm : masterWrite m addr data s = afterWrite (regWrite m addr.toNat data s) := by
    simp [masterWrite, hc, hw]
  exact congrArg Host.Outcome.next hm

/-- R26: a write of a shadow register, the dictionary at rest, keeps every commit and every register beside the shadow. -/
theorem exec_registerWrite_shadow {b : Blk} {m : Master} {addr : Word} (data : Word) {s : State}
    (ha : addr.toNat ∈ shadowAddrs b) (h : Takes m addr.toNat s) (hd : DictRest s) :
    ∃ t, exec (.registerWrite m addr data) s = .next t ∧ OnlyShadow b s t := by
  have ho := regWrite_onlyShadow ha m data s
  refine ⟨_, exec_registerWrite_taken data h (shadow_block b _ ha).1, ?_⟩
  rw [afterWrite_rest (ho.dictRest hd)]
  exact ho

/-- Settles O5: the capture and the discarded GO by the two cases of `commitGo`, the later write because it changes nothing
of the commits and no register beside the block's shadow. -/
theorem commitCapture : Obligations.CommitCapture := by
  refine ⟨fun b s hcore hp hg => ?_, fun b s hcore hp => ?_, fun b p addr data s haddr htakes hp hrest => ?_⟩
  · refine ⟨_, exec_commitGo_taken hcore, ?_⟩
    rw [commitGo_captures hp hg]
    exact ⟨by rw [State.pend_put, State.pend_setPend_same], on_put_cf _ b _ (by decide) rfl, State.put_mem .., regsBut_put_cf rfl⟩
  · refine ⟨_, exec_commitGo_taken hcore, ?_⟩
    rw [commitGo_overruns hp]
    exact ⟨on_put_cf _ b _ (by decide) rfl, State.pend_put .., State.put_mem .., regsBut_put_cf rfl⟩
  · obtain ⟨t, ht, ho⟩ := exec_registerWrite_shadow data haddr htakes hrest
    exact ⟨t, ht, (State.pend_congr ho.tick b).trans hp, ho.live⟩

end Sys2Proof.Machine

/-! # A wide value takes force with its low word (R47) -/

namespace Sys2Proof.Machine
open Sys2Proof.Safety

/-! ## The write-hold -/

@[simp] theorem State.reg_setWriteHold (s : State) (m : Master) (a : Nat) (hi : Word) (r : Nat) :
    (s.setWriteHold m a hi).reg r = s.reg r := rfl

@[simp] theorem State.writeHold_setWriteHold_same (s : State) (m : Master) (a : Nat) (hi : Word) :
    (s.setWriteHold m a hi).writeHold m a = hi := Sparse.get_set_same _ _ _

/-- The low word of a low and a high word put together. -/
theorem lowWord_join (d hi : Word) : BitVec.ofNat 32 (d.toNat + 2 ^ 32 * hi.toNat) = d := by
  apply BitVec.eq_of_toNat_eq
  rw [BitVec.toNat_ofNat]
  omega

/-- The high word of a low and a high word put together. -/
theorem highWord_join (d hi : Word) : BitVec.ofNat 32 ((d.toNat + 2 ^ 32 * hi.toNat) / 2 ^ 32) = hi := by
  apply BitVec.eq_of_toNat_eq
  rw [BitVec.toNat_ofNat]
  omega

/-! ## What a transfer does -/

/-- The write of `d` at the _LO register `lo` by master `m` has transferred the write-hold to `hi` with it and emptied it;
beside the pair it has changed the registers of `others` alone (R47). -/
structure PairTaken (m : Master) (lo hi : Nat) (d : Word) (others : List Nat) (s t : State) : Prop where
  low : t.reg lo = d
  high : t.reg hi = s.writeHold m lo
  hold : t.writeHold m lo = 0
  mem : t.mem = s.mem
  dict : t.dict = s.dict
  twil : t.twil = s.twil
  regs : RegsBut (lo :: hi :: others) s t

/-- Both halves stored in their registers, the write-hold emptied, are a transfer. -/
theorem pairTaken_setReg {lo hi : Nat} (hne : lo ≠ hi) (m : Master) (d : Word) (s : State) :
    PairTaken m lo hi d [] s (((s.setReg lo d).setReg hi (s.writeHold m lo)).setWriteHold m lo 0) where
  low := by rw [State.reg_setWriteHold, State.reg_setReg_other _ _ hne, State.reg_setReg_same]
  high := by rw [State.reg_setWriteHold, State.reg_setReg_same]
  hold := State.writeHold_setWriteHold_same ..
  mem := rfl
  dict := rfl
  twil := rfl
  regs r hr := by
    simp only [List.mem_cons, List.not_mem_nil, or_false, not_or] at hr
    rw [State.reg_setWriteHold, State.reg_setReg_other _ _ hr.2, State.reg_setReg_other _ _ hr.1]

/-- A field of a further register may change beside the pair. -/
theorem PairTaken.put {m : Master} {lo hi : Nat} {d : Word} {others : List Nat} {s t : State}
    (h : PairTaken m lo hi d others s t) {f : Field} (v : Nat) (hlo : lo ≠ f.reg) (hhi : hi ≠ f.reg) :
    PairTaken m lo hi d (f.reg :: others) s (t.put f v) where
  low := (State.reg_put_other t v hlo).trans h.low
  high := (State.reg_put_other t v hhi).trans h.high
  hold := h.hold
  mem := h.mem
  dict := h.dict
  twil := h.twil
  regs r hr := by
    simp only [List.mem_cons, not_or] at hr
    obtain ⟨hrlo, hrhi, hrf, hro⟩ := hr
    rw [State.reg_put_other t v hrf]
    exact h.regs r (by simp [hrlo, hrhi, hro])

/-- Whether the dictionary and the pair rest depends on the dictionary's enable and their own state alone. -/
theorem dictRest_congr {s t : State} (hr : t.reg Reg.DICT_CTRL = s.reg Reg.DICT_CTRL) (hd : t.dict = s.dict)
    (ht : t.twil = s.twil) (h : DictRest s) : DictRest t := by
  have hen : t.on DICT_CTRL.EN = s.on DICT_CTRL.EN := by
    unfold State.on State.get
    rw [hr]
  unfold DictRest
  rw [hen, hd, ht]
  exact h

theorem PairTaken.dictRest {m : Master} {lo hi : Nat} {d : Word} {others : List Nat} {s t : State}
    (h : PairTaken m lo hi d others s t) (hd : Reg.DICT_CTRL ∉ lo :: hi :: others) (hs : DictRest s) : DictRest t :=
  dictRest_congr (h.regs _ hd) h.dict h.twil hs

/-! ## The two commands, where the bus takes them -/

theorem exec_holdHiWrite_taken {m : Master} {addr : Word} {data : Word} {s : State} (h : Takes m addr.toNat s)
    (hr : regionOf addr.toNat = .regs) :
    exec (.holdHiWrite m addr data) s = .next (afterWrite (regWrite m addr.toNat data s)) :=
  exec_registerWrite_taken data h hr

theorem exec_holdLoWrite_taken {m : Master} {addr : Word} {data : Word} {s : State} (h : Takes m addr.toNat s)
    (hr : regionOf addr.toNat = .regs) :
    exec (.holdLoWrite m addr data) s = .next (afterWrite (regWrite m addr.toNat data s)) :=
  exec_registerWrite_taken data h hr

/-- A write that is no _HI half and finds a wide value at its address is the transfer. -/
theorem regWrite_of_wideWrite {m : Master} {a : Nat} {d : Word} {s t : State} (hh : s.isHeldHi a = false)
    (hw : wideWrite m a d s = some t) : regWrite m a d s = t := by
  simp [regWrite, hh, hw]

/-- R47: with the dictionary at rest, a _LO write that the bus takes ends with the transfer. -/
theorem exec_holdLoWrite_pair {m : Master} {addr data : Word} {s t : State} {hi : Nat} {others : List Nat}
    (h : Takes m addr.toNat s) (hrest : DictRest s) (hr : regionOf addr.toNat = .regs)
    (hh : s.isHeldHi addr.toNat = false) (hw : wideWrite m addr.toNat data s = some t)
    (hp : PairTaken m addr.toNat hi data others s t) (hd : Reg.DICT_CTRL ∉ addr.toNat :: hi :: others) :
    exec (.holdLoWrite m addr data) s = .next t := by
  rw [exec_holdLoWrite_taken h hr, regWrite_of_wideWrite hh hw, afterWrite_rest (hp.dictRest hd hrest)]

/-! ## The _HI registers -/

/-- The _HI registers that software writes, the linked timers' apart. -/
def heldHiRegs : List Nat :=
  [Reg.SYSC_TWAKE_HI, Reg.TBL_KEY_HI, Reg.TIME_CORR_HI, Reg.TWIL_PAIRADDR_HI]
    ++ (List.range 7).map Reg.TIME_CTGT_HI ++ (List.range 7).map Reg.TIME_CPER_HI

theorem heldHiRegs_region : ∀ a ∈ heldHiRegs, regionOf a = .regs := by decide +kernel

/-! ## The registers of a timer that are wide in a linked pair (R376) -/

/-- RELOAD, CMP0 and CMP1, in this order. -/
def wideTimerReg (k : Fin 3) : Nat → Nat := [Reg.TMR_RELOAD, Reg.TMR_CMP0, Reg.TMR_CMP1][k]

theorem timerAt_wideTimerReg : ∀ (j k : Fin 3) (n : Fin 8),
    timerAt (wideTimerReg j) (wideTimerReg k n) = if j = k then some n else none := by decide +kernel

theorem wideTimerReg_inj {j k : Fin 3} {m n : Fin 8} (h : wideTimerReg j m = wideTimerReg k n) : m = n := by
  have hm := timerAt_wideTimerReg k j m
  rw [h, timerAt_wideTimerReg k k n, if_pos rfl] at hm
  split at hm
  · exact (Option.some.inj hm).symm
  · cases hm

/-- The wide registers of a timer are registers, and none of those that are wide by themselves. -/
theorem wideTimerReg_place : ∀ (k : Fin 3) (n : Fin 8),
    regionOf (wideTimerReg k n) = .regs ∧ wideTimerReg k n ≠ Reg.TWIL_PAIRADDR_LO ∧ wideHi (wideTimerReg k n) = none ∧
      wideTimerReg k n ∉ heldHiRegs := by decide +kernel

/-- The registers that a transfer to a linked pair changes are apart from each other and from the dictionary's enable. -/
theorem wideTimerReg_apart : ∀ (k : Fin 3) (n : Fin 8), n = pairLo n →
    wideTimerReg k n ≠ wideTimerReg k (pairHi n) ∧ wideTimerReg k n ≠ Reg.TMR_STAT n ∧
      wideTimerReg k (pairHi n) ≠ Reg.TMR_STAT n ∧
      Reg.DICT_CTRL ∉ [wideTimerReg k n, wideTimerReg k (pairHi n), Reg.TMR_STAT n] := by decide +kernel

theorem pairLo_ne_pairHi : ∀ n : Fin 8, n = pairLo n → n ≠ pairHi n := by decide

/-! ## Which writes load the write-hold -/

theorem eq_of_timerAt {r : Nat → Nat} {a : Nat} {n : Fin 8} (h : timerAt r a = some n) : a = r n :=
  (beq_iff_eq.mp (List.find?_some (p := fun n : Fin 8 => r n.val == a) h)).symm

/-- Only a write of one of `heldHiRegs` or of an odd timer's wide register can load the write-hold. -/
theorem isHeldHi_cases {s : State} {a : Nat} (h : s.isHeldHi a = true) :
    a ∈ heldHiRegs ∨ ∃ (k : Fin 3) (n : Fin 8), a = wideTimerReg k n ∧ n = pairHi n := by
  simp only [State.isHeldHi, Bool.or_eq_true, List.any_eq_true] at h
  rcases h with hfix | ⟨r, hr, hn⟩
  · refine .inl ?_
    simp only [inArray, List.any_eq_true, beq_iff_eq] at hfix
    simp only [heldHiRegs, List.mem_append, List.mem_map, List.mem_cons, List.not_mem_nil, or_false]
    rcases hfix with (hfix | ⟨i, hi, rfl⟩) | ⟨i, hi, rfl⟩
    · exact .inl (.inl (by tauto))
    · exact .inl (.inr ⟨i, hi, by simp⟩)
    · exact .inr ⟨i, hi, by simp⟩
  · refine .inr ?_
    obtain ⟨k, rfl⟩ : ∃ k : Fin 3, wideTimerReg k = r := List.mem_iff_get.mp hr
    cases ht : timerAt (wideTimerReg k) a with
    | none => simp [ht] at hn
    | some n =>
      rw [ht] at hn
      exact ⟨k, n, eq_of_timerAt ht, beq_iff_eq.mp (Bool.and_eq_true_iff.mp hn).2⟩

theorem isHeldHi_region {s : State} {a : Nat} (h : s.isHeldHi a = true) : regionOf a = .regs := by
  rcases isHeldHi_cases h with ha | ⟨k, n, rfl, -⟩
  · exact heldHiRegs_region a ha
  · exact (wideTimerReg_place k n).1

/-- A write of an even timer's register is no write of a _HI half. -/
theorem isHeldHi_wideTimerReg {n : Fin 8} (hn : n = pairLo n) (k : Fin 3) (s : State) :
    s.isHeldHi (wideTimerReg k n) = false := by
  refine Bool.eq_false_iff.mpr fun h => ?_
  obtain ⟨-, -, -, hnot⟩ := wideTimerReg_place k n
  rcases isHeldHi_cases h with hfix | ⟨j, n', ha, hodd⟩
  · exact hnot hfix
  · obtain rfl := wideTimerReg_inj ha
    exact pairLo_ne_pairHi n hn hodd

/-! ## The transfer to a linked pair of timers -/

/-- A value written to the even timer of a linked pair goes to both timers' registers. -/
theorem setTmVal_linked {s : State} {n : Fin 8} (hl : s.linked n = true) (hn : n = pairLo n) (r : Nat → Nat)
    (d hi : Word) :
    s.setTmVal n r (d.toNat + 2 ^ 32 * hi.toNat) = (s.setReg (r n) d).setReg (r (pairHi n)) hi := by
  rw [State.setTmVal, if_pos hl, lowWord_join, highWord_join, ← hn]

/-- R370: a write of RELOAD sets the reload value and may set WRAP_LONG. -/
theorem tmReloadWrite_cases {s : State} {n : Fin 8} (hh : s.tmHead n = n) (v : Nat) :
    tmReloadWrite n v s = s.setTmVal n Reg.TMR_RELOAD v ∨
      tmReloadWrite n v s = (s.setTmVal n Reg.TMR_RELOAD v).put (TMR_STAT.WRAP_LONG n) 1 := by
  unfold tmReloadWrite
  rw [hh]
  dsimp only
  split
  · exact .inr rfl
  · exact .inl rfl

/-- R47, R376: a write of the even timer's register writes the pair's value, in RELOAD's case perhaps with WRAP_LONG. -/
theorem wideWrite_wideTimerReg {s : State} {n : Fin 8} (hl : s.linked n = true) (hn : n = pairLo n) (k : Fin 3) (m : Master)
    (d : Word) :
    ∃ t, wideWrite m (wideTimerReg k n) d s = some (t.setWriteHold m (wideTimerReg k n) 0) ∧
      (t = s.setTmVal n (wideTimerReg k) (d.toNat + 2 ^ 32 * (s.writeHold m (wideTimerReg k n)).toNat) ∨
        t = (s.setTmVal n (wideTimerReg k) (d.toNat + 2 ^ 32 * (s.writeHold m (wideTimerReg k n)).toNat)).put
          (TMR_STAT.WRAP_LONG n) 1) := by
  obtain ⟨-, hpair, hhi, -⟩ := wideTimerReg_place k n
  have hev : (n == pairLo n) = true := beq_iff_eq.mpr hn
  have hhead : s.tmHead n = n := by rw [State.tmHead, if_pos hl, ← hn]
  have h0 : timerAt Reg.TMR_RELOAD (wideTimerReg k n) = _ := timerAt_wideTimerReg 0 k n
  have h1 : timerAt Reg.TMR_CMP0 (wideTimerReg k n) = _ := timerAt_wideTimerReg 1 k n
  have h2 : timerAt Reg.TMR_CMP1 (wideTimerReg k n) = _ := timerAt_wideTimerReg 2 k n
  have hk : k = 0 ∨ k = 1 ∨ k = 2 := by omega
  rcases hk with rfl | rfl | rfl
  · exact ⟨_, by simp [wideWrite, hpair, hhi, h0, hl, hev], tmReloadWrite_cases hhead _⟩
  · exact ⟨s.setTmVal n Reg.TMR_CMP0 _, by simp [wideWrite, hpair, hhi, h0, h1, hl, hev], .inl rfl⟩
  · exact ⟨s.setTmVal n Reg.TMR_CMP1 _, by simp [wideWrite, hpair, hhi, h0, h1, h2, hl, hev], .inl rfl⟩

/-- The transfer to a linked pair changes the pair's registers, and TMR_STAT at most. -/
theorem wideWrite_timer_taken {s : State} {n : Fin 8} (hl : s.linked n = true) (hn : n = pairLo n) (k : Fin 3) (m : Master)
    (d : Word) : ∃ t others, wideWrite m (wideTimerReg k n) d s = some t ∧ others ⊆ [Reg.TMR_STAT n] ∧
      PairTaken m (wideTimerReg k n) (wideTimerReg k (pairHi n)) d others s t := by
  obtain ⟨t, hw, ht⟩ := wideWrite_wideTimerReg hl hn k m d
  rw [setTmVal_linked hl hn] at ht
  obtain ⟨hne, hlo, hhi, -⟩ := wideTimerReg_apart k n hn
  have hset := pairTaken_setReg hne m d s
  rcases ht with rfl | rfl
  · exact ⟨_, [], hw, List.nil_subset _, hset⟩
  · exact ⟨_, [Reg.TMR_STAT n], hw, List.Subset.refl _, hset.put (f := TMR_STAT.WRAP_LONG n) 1 hlo hhi⟩

/-! ## The other wide registers -/

/-- The _LO registers whose pair is stored as written. -/
def heldLoRegs : List Nat :=
  [Reg.TIME_CORR_LO, Reg.SYSC_TWAKE_LO, Reg.TBL_KEY_LO] ++ (List.range 7).map Reg.TIME_CTGT_LO
    ++ (List.range 7).map Reg.TIME_CPER_LO

theorem heldLoRegs_place : ∀ a ∈ heldLoRegs,
    regionOf a = .regs ∧ blockOf a ≠ 6 ∧ a ≠ Reg.TWIL_PAIRADDR_LO ∧ State.reset.isHeldHi a = false ∧
      (wideHi a).isSome = true := by decide +kernel

theorem heldLoRegs_high : ∀ a ∈ heldLoRegs,
    blockOf (a + 4) ≠ 6 ∧ State.reset.isHeldHi (a + 4) = true ∧ Reg.DICT_CTRL ∉ [a, a + 4] := by decide +kernel

/-- R47: a write of such a _LO register stores the written word and the held one. -/
theorem wideWrite_heldLo {a : Nat} (ha : a ∈ heldLoRegs) (m : Master) (d : Word) (s : State) :
    wideWrite m a d s = some (((s.setReg a d).setReg (a + 4) (s.writeHold m a)).setWriteHold m a 0) := by
  obtain ⟨-, -, hpair, -, hwide⟩ := heldLoRegs_place a ha
  obtain ⟨hblk, hheld, -⟩ := heldLoRegs_high a ha
  rw [← isHeldHi_outside hblk s] at hheld
  simp only [wideWrite, if_neg hpair, hheld, hwide, Bool.and_self, if_true, highWord_join]

/-- R47: so does a write of TWIL_PAIRADDR_LO while the pair is not enabled. -/
theorem wideWrite_pairAddr {s : State} (hen : s.on TWIL_CFG.EN = false) (m : Master) (d : Word) :
    wideWrite m Reg.TWIL_PAIRADDR_LO d s =
      some (((s.setReg Reg.TWIL_PAIRADDR_LO d).setReg Reg.TWIL_PAIRADDR_HI (s.writeHold m Reg.TWIL_PAIRADDR_LO)).setWriteHold
        m Reg.TWIL_PAIRADDR_LO 0) := by
  simp only [wideWrite, if_true, pairAddrWrite, hen, Bool.false_eq_true, if_false, lowWord_join, highWord_join]

/-! ## The statement -/

theorem holdHiWrite_loads {m : Master} {addr : Word} (data : Word) {s : State} (hh : s.isHeldHi addr.toNat = true)
    (h : Takes m addr.toNat s) (hrest : DictRest s) :
    exec (.holdHiWrite m addr data) s = .next (s.setWriteHold m addr.toNat data) := by
  have hload : DictRest (s.setWriteHold m addr.toNat data) := dictRest_congr rfl rfl rfl hrest
  rw [exec_holdHiWrite_taken h (isHeldHi_region hh), regWrite, if_pos hh, afterWrite_rest hload]

theorem holdLoWrite_heldLo {m : Master} {addr : Word} (data : Word) {s : State} (ha : addr.toNat ∈ heldLoRegs)
    (h : Takes m addr.toNat s) (hrest : DictRest s) :
    ∃ t, exec (.holdLoWrite m addr data) s = .next t ∧ PairTaken m addr.toNat (addr.toNat + 4) data [] s t := by
  obtain ⟨hr, hblk, -, hlow, -⟩ := heldLoRegs_place _ ha
  obtain ⟨-, -, hd⟩ := heldLoRegs_high _ ha
  rw [← isHeldHi_outside hblk s] at hlow
  have hp := pairTaken_setReg (by omega : addr.toNat ≠ addr.toNat + 4) m data s
  exact ⟨_, exec_holdLoWrite_pair h hrest hr hlow (wideWrite_heldLo ha m data s) hp hd, hp⟩

theorem holdLoWrite_linked {m : Master} {addr : Word} (data : Word) {s : State} {n : Fin 8} {k : Fin 3}
    (ha : addr.toNat = wideTimerReg k n) (hl : s.linked n = true) (hn : n = pairLo n) (h : Takes m addr.toNat s)
    (hrest : DictRest s) :
    ∃ t others, exec (.holdLoWrite m addr data) s = .next t ∧
      PairTaken m addr.toNat (wideTimerReg k (pairHi n)) data others s t := by
  obtain ⟨hr, -, -, -⟩ := wideTimerReg_place k n
  obtain ⟨-, -, -, hd⟩ := wideTimerReg_apart k n hn
  have hlow := isHeldHi_wideTimerReg hn k s
  obtain ⟨t, others, hw, hsub, hp⟩ := wideWrite_timer_taken hl hn k m data
  rw [← ha] at hr hd hlow hw hp
  have hd' : Reg.DICT_CTRL ∉ addr.toNat :: wideTimerReg k (pairHi n) :: others := fun hmem =>
    hd (List.cons_subset_cons _ (List.cons_subset_cons _ hsub) hmem)
  exact ⟨t, others, exec_holdLoWrite_pair h hrest hr hlow hw hp hd', hp⟩

theorem holdLoWrite_pairAddr {m : Master} (data : Word) {s : State} (hen : s.on TWIL_CFG.EN = false)
    (h : Takes m Reg.TWIL_PAIRADDR_LO s) (hrest : DictRest s) :
    ∃ t, exec (.holdLoWrite m (BitVec.ofNat 32 Reg.TWIL_PAIRADDR_LO) data) s = .next t ∧
      PairTaken m Reg.TWIL_PAIRADDR_LO Reg.TWIL_PAIRADDR_HI data [] s t := by
  have hlow : s.isHeldHi Reg.TWIL_PAIRADDR_LO = false :=
    (isHeldHi_outside (by decide) s).trans (by decide +kernel)
  have hp := pairTaken_setReg (by decide : Reg.TWIL_PAIRADDR_LO ≠ Reg.TWIL_PAIRADDR_HI) m data s
  exact ⟨_, exec_holdLoWrite_pair (addr := BitVec.ofNat 32 Reg.TWIL_PAIRADDR_LO) h hrest rfl hlow
    (wideWrite_pairAddr hen m data) hp (by decide), hp⟩

/-- Settles O9: a _HI write only loads the write-hold; a _LO write is a transfer, for the pairs stored as written, for a
linked pair of timers and for the pair's address. -/
theorem wideWrites : Obligations.WideWrites := by
  refine ⟨fun m addr data s hh htakes hrest => ?_, fun m addr data s ha htakes hrest => ?_,
    fun m n k addr data s ha hl hn htakes hrest => ?_, fun m data s hen htakes hrest => ?_⟩
  · exact ⟨_, holdHiWrite_loads data hh htakes hrest, State.writeHold_setWriteHold_same .., rfl, rfl⟩
  · obtain ⟨t, ht, hp⟩ := holdLoWrite_heldLo data ha htakes hrest
    exact ⟨t, ht, hp.low, hp.high, hp.hold, hp.mem, hp.regs⟩
  · obtain ⟨t, others, ht, hp⟩ := holdLoWrite_linked data ha hl hn htakes hrest
    exact ⟨t, ht, hp.low, hp.high, hp.hold, hp.mem⟩
  · obtain ⟨t, ht, hp⟩ := holdLoWrite_pairAddr data hen htakes hrest
    exact ⟨t, ht, hp.low, hp.high, hp.hold, hp.mem⟩

end Sys2Proof.Machine
